-- ==== Sys2Proof/Word.lean ====
section
/-! DEFINITION. The word types of the model and their plainest arithmetic. -/

namespace Sys2Proof

/-- One byte. -/
abbrev Byte := BitVec 8

/-- One 32-bit register (R6). -/
abbrev Word := BitVec 32

/-- A 64-bit quantity: a pair of registers (R8), a tally (R187), a night-cycle count (R424). -/
abbrev DWord := BitVec 64

/-- A sparse array: pairs of an index and a value, indices rising; an index not listed holds the
array's default. Its operations are in `Machine/Tab.lean`. -/
abbrev Tab (α : Type) := List (Nat × α)

/-- A memory: the same form over bytes (`Host.Cell`). The yard's memory lists no zero byte, which is
what an address not listed reads as. -/
abbrev Mem := List Host.Cell

end Sys2Proof
end

