-- ==== Sys2Proof/Config.lean ====
section
/-! DEFINITION. What an implementation fixes: the counts of R17 and R422, and the values that the
spec leaves open, as constants without a body. -/

namespace Sys2Proof

/-- Physical faces (R17). -/
def Config.faces : Nat := 72
/-- Physical benches of a face (R17). -/
def Config.physBenches : Nat := 5
/-- Data lanes in use of a bench (R71). -/
def Config.lanes : Nat := 512
/-- Bytes of the yard (R114, R176, R177). -/
def Config.yardBytes : Nat := 402653184
/-- First byte beyond fabric space (R119). -/
def Config.fabricBytes : Nat := 2 ^ 52
/-- Logical yard banks (R17). -/
def Config.banks : Nat := 256
/-- Spare yard banks (R17). -/
def Config.spareBanks : Nat := 32
/-- Granules of the stockpile (R148). -/
def Config.granules : Nat := 6144
/-- Tally counters (R187). -/
def Config.tallies : Nat := 1024
/-- Lifetime surge limit in night cycles (R356). -/
def Config.ledgerLimit : Nat := 360000000000000
/-- Surge night cycles between two stores of the ledger (R356). -/
def Config.ledgerStore : Nat := 2 ^ 28
/-- Largest BUDGET and the basic one, in night cycles (R354). -/
def Config.budgetBasic : Nat := 10000000
/-- Basic RESUME and the length of one surge bucket, in night cycles (R354, R355). -/
def Config.surgeBucket : Nat := 500000
/-- Records that the event log holds (R431). -/
def Config.logDepth : Nat := 4096
/-- Frames of a port's replay buffer and of its receive buffer (R300, R304). -/
def Config.linkFrames : Nat := 4096

/-- One segment of an evaluation table: LO, C0, C1, C2 as FP32 codes (R214). -/
structure Segment where
  lo : Nat
  c0 : Nat
  c1 : Nat
  c2 : Nat
  deriving DecidableEq, Repr, Inhabited

/-- A derivative or kiln table (R214, R250): its segments, how many of them form branch 1, and the
FP32 upper end of branch 1. -/
structure EvalTable where
  br1Count : Nat
  br1Top : Nat
  segs : List Segment
  deriving DecidableEq, Repr, Inhabited

/-- FREE VALUE (log entry 3): the built-in output tables of FUNC 5 and 6. R215: "This manual does
not give the segments and coefficients of the built-in tables". -/
opaque Config.builtinOutput : Nat → EvalTable

/-- FREE VALUE (log entry 3): the built-in input tables of FUNC 5 and 6 (R215). -/
opaque Config.builtinInput : Nat → EvalTable

/-- FREE VALUE (log entry 3): the built-in kiln table (R215, R250). -/
opaque Config.builtinKiln : EvalTable

/-- FREE VALUE (log entry 4): whether a byte that a failed fabric write covers holds the written value
(R167: "Which of the two a byte holds is not defined"). The argument is the counter `State.fresh`. -/
opaque Config.failedWriteTaken : Nat → Bool

/-- FREE VALUE (log entry 5): Aethoiken's public key in slot 0, written at manufacture (R408). -/
opaque Config.manufacturerKey : Nat × Nat

/-- FREE VALUE (log entry 5): the 256-bit unlock secret, written at manufacture (R441). -/
opaque Config.unlockSecret : BitVec 256

/-- FREE VALUE (log entry 5): the calibration entry FMAX_CAL of a face, written at manufacture (R417
gives only its range, 14 to 16, which `Sys2Proof.Machine.faceFmaxCal` keeps). -/
opaque Config.fmaxCal : Nat → Nat

/-- FREE VALUE (log entry 7): the CODE of an event log record that a rule asks for and that R446's table
does not name: 0 a stockpile word (R411), 1 a bank without a spare (R370), 2 a dropped peer record (R393),
3 a restore while busy (R432), 5 too few healthy buffers (R112), 6 a detach (R152). -/
opaque Config.unnamedCode : Nat → Nat

/-- FREE VALUE (log entry 7): ARG1 of the record of a monitor command whose first argument is a word, or that has none
(R446 names the first argument and gives no number for a word). The argument is the command's index · 16 + the
word's number. -/
opaque Config.wordArg : Nat → Nat

/-- FREE VALUE (log entry 27): the text of a monitor's line that R438 to R447 leave open, by a number for the kind of
line and the values that it shows. -/
opaque Config.lineText : Nat → List Int → List Byte

/-- FREE VALUE (log entry 10): which pocket an injected lane fault corrupts (R444: "One pocket"). The argument is the
counter `State.fresh`. -/
opaque Config.injectedPocket : Nat → Nat

/-- FREE VALUE (log entry 10): by how much an injected lane fault corrupts it, less 1 (R444 gives no amount). The
argument is the counter `State.fresh`. -/
opaque Config.injectedAmount : Nat → Nat

/-- FREE VALUE (log entry 17): which of the lengths that R102 allows the segments of a shared operand of an A-cut
have, by the stage that reads it (an A-cut's OPERANDS field gives none, R278). -/
opaque Config.acutSegment : Nat → Nat

/-- FREE VALUE (log entry 53): the number of a destination tile in record 0x0606 (R446 gives none), by the tile's number
in `State.tiles`. -/
opaque Config.tileNumber : Nat → Nat

/-- FREE VALUE (log entry 55): whether the second read of a restore had begun to apply a snapshot whose CRC then failed
(R394: "leaves no valid state"). The argument is the counter `State.fresh`. -/
opaque Config.restoreBegan : Nat → Bool

/-- FREE VALUE (log entry 55): what such a read had applied, as the bytes of a snapshot. The arguments are the counter
`State.fresh` and the bytes read. -/
opaque Config.restoreLeft : Nat → List Byte → List Byte

end Sys2Proof
end

