-- ==== Sys2Proof/Syntax.lean ====
section
/-! DEFINITION. The commands of the block: one constructor of `Instr` for each row of
spec/opcode_table.json, with the row's operands. A command is an event at one of the interfaces of R1
or inside the engine; its operands are what the event carries (a value written, bytes that a read
returned, a fault that struck, a reading of a sensor). -/

namespace Sys2Proof

/-- The two requesters of the register window (R8). -/
inductive Requester where
  | host
  | foreman
  deriving DecidableEq, Repr, Inhabited

/-- The tiles with a clock of their own (R331). -/
inductive Tile where
  | face (n : Fin 72)
  | yard
  | buffer (k : Fin 8)
  | dresser (d : Fin 4)
  | selector (i : Fin 4)
  | drain
  | digest
  | sluice (p : Fin 4)
  | link (p : Fin 4)
  | fabric
  deriving DecidableEq, Repr, Inhabited

/-- A stream of tiles through a transposing buffer (R100, R107, R278): a cut's stationary or shared operand, where an
A-cut's shared operand of stage 1 is Q; and in an A-cut the K and V pages of stages 1 and 3, dO of stage 2, Q of
stage 4 and the K pages of stage 5. -/
inductive TileStream where
  | shared
  | stationary
  | pages
  | outGrad
  | queries
  | keys
  deriving DecidableEq, Repr, Inhabited

/-- The units without a spare (R381). -/
inductive Unspared where
  | dresser (d : Fin 4)
  | selector (i : Fin 4)
  | sluiceDp (p : Fin 4)
  | drain
  | digest
  deriving DecidableEq, Repr

/-- What the self-test of one face found (R409): failing data lanes by physical bench and logical
lane, benches that fail (a failing checksum lane fails its bench), and whether a kiln, derivative unit
or crossing failed its vectors. -/
structure FaceTest where
  face : Fin 72
  lanes : List (Fin 5 × Fin 512)
  benches : List (Fin 5)
  unit : Bool
  deriving DecidableEq, Repr

/-- What the self-test of the shared units found (R409): the failing buffers, dressers, selectors,
sluice datapaths, and whether the drain and digest engines failed. -/
structure UnitTest where
  buffers : List (Fin 8)
  dressers : List (Fin 4)
  selectors : List (Fin 4)
  sluices : List (Fin 4)
  drain : Bool
  digest : Bool
  deriving DecidableEq, Repr

/-- Where a physical error of a pass sits (R83, R86): a data lane's pocket, a checksum lane's pocket
(0 is C0, 1 is C1), or a lane's row pocket. -/
inductive ErrorSite where
  | lane (l : Fin 512) (j : Fin 16)
  | check (c : Fin 2) (j : Fin 16)
  | row (l : Fin 512)
  deriving DecidableEq, Repr

/-- A physical error of a pass: the site and the amount, in units of the pocket's anchor. -/
structure PassError where
  site : ErrorSite
  amount : Int
  deriving DecidableEq, Repr

/-- A stationary load as it lands in the idle feeder sides (R74, R75): element codes by logical lane
and term, and the codes of the stationary scale store, by lane (ALONG) or by group of 32 lanes
(ACROSS). -/
structure StatLoad where
  lanes : List (List Nat)
  scales : List (List Nat)
  deriving DecidableEq, Repr, Inhabited

/-- A point of a cut's iteration space (R184): coordinates along R, P, L, B0 and B1, and, for the
convolution walk, the output (CORR) or input (TRANS) position and the tap of each walk dimension (R98). -/
structure AxisPoint where
  r : Int
  p : Int
  l : Int
  b0 : Int
  b1 : Int
  o0 : Int
  o1 : Int
  k0 : Int
  k1 : Int
  deriving DecidableEq, Repr, Inhabited

/-- One line that a hoist asks for: the point of its first element, the looked-up index of an index
form (R136; `none` when the map has none) and the origins and row of the current block list entry
(R135). -/
structure LinePoint where
  at' : AxisPoint
  look : Option Nat
  entry : Option (Int × Int × Int × Nat)
  deriving DecidableEq, Repr, Inhabited

/-- One element of a readout (R208 to R221): its position in the slot, the saved output with its scale
code, the sign-plane bit, the privileged input with its scale code, and the fused operand with its
scale code. The unit uses only what the cut's FUNC and FUSE call for. -/
structure ReadElem where
  pocket : Fin 16
  lane : Fin 512
  y : Nat
  yScale : Nat
  sign : Bool
  x : Nat
  xScale : Nat
  f : Nat
  fScale : Nat
  /-- looked-up index of an index form of the output map (R136), and the origins and row of its block list
  entry (R135) -/
  look : Option Nat
  entry : Option (Int × Int × Int × Nat)
  deriving DecidableEq, Repr, Inhabited

/-- What a cut reads from fabric memory when it would start: the COUNT of each block list (R135), the
privileged-channel bitmap (R218), the freeze map (R238, R293, R307), the hyperparameter block (R289),
the sequence table (R264), the page table (R259), the segment ids by SEG_MAP index (R257), a ring chip's own
page data (R273), the copy of the scale table that an X-cut reads, by slab (R309), and the slice list
of a V-cut as BASE and LENGTH (R397). -/
structure StartReads where
  counts : List (Nat × Nat)
  priv : List Bool
  freeze : List Bool
  hyper : List Byte
  seqs : List Byte
  pages : List Byte
  segs : List Nat
  ring : List Byte
  scales : List Nat
  slices : List (Nat × Nat)
  deriving DecidableEq, Repr, Inhabited

/-- What the kiln holds for one pair of a query and a key (R248): positions, segment ids, whether one
of them is absent, the row's LSE or Δ as an FP32 code, and the head's row of the bias table as BF16 codes. -/
structure KilnPair where
  qpos : Nat
  kpos : Nat
  segq : Nat
  segk : Nat
  absent : Bool
  row : Nat
  biasRow : List Nat
  deriving DecidableEq, Repr, Inhabited

/-- A query's products for Δ (R253): codes and scale codes of dO and of O along the head dimension. -/
structure DeltaQuery where
  dO : List Nat
  dOScale : List Nat
  o : List Nat
  oScale : List Nat
  deriving DecidableEq, Repr, Inhabited

/-- The state of one element that a dresser reads from the read buffer (R291), as FP32 codes, and the
gradient as it arrives from an evicted seam. -/
structure DressElem where
  w : Nat
  m : Nat
  v : Nat
  working : Nat
  r : Nat
  deriving DecidableEq, Repr, Inhabited

/-- What the host's lane layer reports (R301, R327): lost alignment, a fault on one lane alone, or a
lane's pre-FEC errors per 10^12 bits averaged over 2^24 night cycles. -/
inductive LaneReport where
  | lostAlignment
  | fault (lane : Fin 9)
  | errors (lane : Fin 9) (perTera : Nat)
  deriving DecidableEq, Repr

/-- One lane as the module reports it (R326): Tx bias, whether Rx power lies below the low-alarm
threshold, and the laser age in percent. -/
structure LaneReading where
  bias : Nat
  rxLow : Bool
  age : Nat
  deriving DecidableEq, Repr, Inhabited

/-- The path of a crossing transfer that a parity mismatch struck (R345). -/
inductive CrossPath where
  | fabricRead (h : Fin 128) (seq : Nat)
  | benchFeed (f : Fin 72) (b : Fin 4)
  | foldLine (f : Fin 72) (b : Fin 4)
  | contextSave (f : Fin 72) (b : Fin 4)
  | register (who : Requester)
  deriving DecidableEq, Repr

/-- What the inject command arms (R444). -/
inductive InjectKind where
  | lane (f : Fin 72) (k : Fin 4) (l : Fin 512)
  | lanes (f : Fin 72) (k : Fin 4) (l1 l2 : Fin 512)
  | yard (addr : Nat) (bits : Fin 3)
  | frame (p : Fin 4)
  | tpb (j : Fin 8)
  | table (f : Fin 72)
  deriving DecidableEq, Repr

/-- What the return command names (R443). -/
inductive ReturnKind where
  | face (f : Fin 72)
  | bench (f : Fin 72) (k : Fin 5)
  | bank (b : Fin 288)
  | buffer (j : Fin 8)
  | dp (p : Fin 4)
  deriving DecidableEq, Repr

/-- The commands. Each constructor is one row of spec/opcode_table.json; `LAWS.json` gives the map. -/
inductive Instr where
  | powerOn
  | clockLoss
  | hostReset
  | engReset
  | bootRomDone (damagedA damagedB : Bool)
  | bootRestoreDone (modules : List (Fin 4 × List Byte))
  | bootYardDone (failed : List (Fin 288))
  | bootStockpileDone (failed : List Nat)
  | bootFaceGroupDone (results : List FaceTest)
  | bootUnitsDone (result : UnitTest)
  | watchdogRevert
  | watchdogRestart
  | foremanRestartDone
  | pairLoRead (who : Requester) (off : Nat)
  | pairLoWrite (who : Requester) (off : Nat) (v : Word)
  | pairHiWrite (who : Requester) (off : Nat) (v : Word)
  | registerWrite (who : Requester) (off size : Nat) (v : Word)
  | registerAccessComplete (t : Tile)
  | tallyAdd (i : Fin 1024) (v : Word)
  | tallyApertureWrite (off size : Nat) (v : DWord)
  | loadStart
  | loadFirstReadDone (bytes : List Byte) (errorResponse : Bool)
  | loadCommit (bytes : List Byte) (errorResponse : Bool)
  | partialCommit (bytes : List Byte) (errorResponse : Bool)
  | tableBankWaitEnd
  | sleep (level : Fin 4)
  | sleepEnter
  | tripClr
  | glbPreemptSet (w : Fin 16)
  | glbPreemptClear (w : Fin 16)
  | wrkCtlRun (w : Fin 16)
  | wrkCtlStop (w : Fin 16)
  | rerun (e : Fin 4096)
  | snapCtlForce
  | snapCtlRestore
  | fmnCtlUpdate
  | fwUpdateDone (bytes : List Byte) (errorResponse : Bool)
  | fmnCtlSwap
  | slcCfgRetrain (p : Fin 4)
  | slcCfgFlag (p : Fin 4)
  | fceCtlCntClr (n : Fin 72)
  | crossModeWrite (g : Fin 5) (v : Word)
  | crossingChangeApply (g : Fin 5)
  | pwrFaceCapWrite (n : Fin 72) (v : Word)
  | riskThrWrite (v : Word)
  | uartBaudWrite (v : Word)
  | stepOpen (w : Fin 16)
  | cutStart (e : Fin 4096) (reads : StartReads)
  | cutEnd (e : Fin 4096)
  | passBoundary (f : Fin 72) (b : Fin 4) (shared : List (List Nat)) (errors : List PassError)
      (frozen : List (Fin 6 × Nat))
  | stationaryLoadFull (f : Fin 72) (b : Fin 4) (tag : Nat) (load : StatLoad)
  | scaleUnitDone (f : Fin 72) (b : Fin 4) (preamble : List (List Nat))
  | checkEnd (f : Fin 72) (b : Fin 4)
  | fold (f : Fin 72) (b : Fin 4)
  | treeCombination (e : Fin 4096) (slice level rank : Nat)
  | kilnDrainDone (f : Fin 72) (b : Fin 4)
  | contextSaveDone (f : Fin 72) (b : Fin 4) (shared : List (List Nat)) (group pocket : Nat)
  | contextRestoreDone (f : Fin 72) (b : Fin 4) (active idle : StatLoad)
      (preamble : List (List Nat))
  | readoutDone (f : Fin 72) (b : Fin 4) (elems : List ReadElem)
  | tableParityError (f : Fin 72)
  | tileLoadDone (buf : Fin 6) (stream : TileStream) (fmt : Fin 4) (cut : Fin 4096)
      (rows scales : List (List Nat)) (stalls : List (Fin 4 × Nat))
  | tpbFault (j : Fin 8)
  | hoistClaim (h : Fin 128) (lines : List LinePoint)
  | fabricReadReturn (h : Fin 128) (seq : Nat) (data : List Byte)
  | fabricWriteAck (h : Fin 128)
  | fabricReadError (h : Fin 128) (seq : Nat)
  | fabricWriteError (h : Fin 128)
  | receiverTake (h : Fin 128) (r : Fin 16)
  | streamEnd (h : Fin 128)
  | detach (h : Fin 128)
  | spillPark (h : Fin 128) (data : List Byte)
  | spillReadback (h : Fin 128)
  | stockpileEccError (h : Fin 128) (uncorrectable : Bool)
  | initialFoldDone (e : Fin 4096) (slice : Nat) (values : List (List Nat))
  | evictionStart (e : Fin 4096)
  | evictionDone (e : Fin 4096) (reads : StartReads)
  | kilnResult (f : Fin 72) (b : Fin 4) (lane : Fin 512) (pocket : Fin 16) (pair : KilnPair)
  | deltaMakeDone (e : Fin 4096) (row : Nat) (queries : List DeltaQuery)
  | pageCopy (e : Fin 4096) (page : Nat) (data : List Byte) (waited : Nat)
  | ringBlockArrive (e : Fin 4096) (header : List Byte) (data : List Byte)
  | ringPartialArrive (e : Fin 4096) (round : Nat) (tile : Nat) (values : List (List Nat))
  | kilnParityError (f : Fin 72)
  | slabDone (e : Fin 4096) (d : Fin 4) (slab : Nat) (elems : List DressElem)
  | slabFault (e : Fin 4096) (d : Fin 4) (slab : Nat) (dresserFault : Bool)
  | drainWaitEnd (e : Fin 4096) (slab : Nat)
  | frameReceive (p : Fin 4) (bytes : List Byte)
  | frameSend (p : Fin 4)
  | retryRepeat (p : Fin 4)
  | retrainDone (p : Fin 4) (ok : Bool)
  | portDown (p : Fin 4)
  | hello (p : Fin 4)
  | close (p : Fin 4)
  | broken (p : Fin 4)
  | move (p : Fin 4)
  | streamHeader (p : Fin 4) (vc : Fin 8)
  | selectorSlab (e : Fin 4096) (slab : Nat) (evicted : List Nat)
  | mergeSlabComplete (e : Fin 4096) (slab : Nat)
  | resultDeliver (e : Fin 4096) (slab : Nat)
  | modulePoll (p : Fin 4) (fault warning : Bool) (lanes : List LaneReading)
  | moduleInsert (p : Fin 4) (identity : List Byte) (suitable : Bool)
  | moduleRemove (p : Fin 4)
  | moduleReady (p : Fin 4) (bias : List Nat)
  | napIdleExpire (t : Tile)
  | offIdleExpire (t : Tile)
  | wakeDone (t : Tile)
  | yardClearDone
  | crossingParity (path : CrossPath)
  | sleepStall (source : Nat) (destination : Tile)
  | frequencyStep (n : Fin 72)
  | droop (faces : List (Fin 72))
  | droopClear (faces : List (Fin 72))
  | surgeStepDown
  | surgeResume
  | ledgerStore
  | surgeWithdraw
  | agingRead (short : List (Fin 72))
  | tempRead (degrees : List Int)
  | fabricLockCheck (count : Nat)
  | yardCorrected (addr : Nat)
  | patrolScrub (line : Nat) (errors : List (Fin 8))
  | uncorrectableYard (addr : Nat)
  | bankMigrationDone (b : Fin 256)
  | fillWakeDone (woke : Bool)
  | fillConfigDone (ok : Bool)
  | fillTestDone (result : FaceTest)
  | unitFault (u : Unspared) (unrecoverable : Bool)
  | spareMapStore
  | snapshotCapture
  | snapshotCommit (sections : List (Nat × List Byte))
  | peerSnapshotRecord (slot : Nat) (offset : Nat) (data : List Byte)
  | restoreFirstReadDone (bytes : List Byte)
  | restoreSecondReadDone (bytes : List Byte)
  | vSliceRecord (e : Fin 4096) (index length : Nat) (crc : DWord) (own : List Byte)
      (fetched : List (List Byte))
  | monitorChar (c : Byte)
  | help
  | rd (off : Nat) (n : Nat)
  | wr (off : Nat) (v : Word)
  | tile (first : Fin 72) (all : Bool)
  | retireFace (f : Fin 72)
  | return_ (kind : ReturnKind) (passed : Bool)
  | image
  | log (n : Nat) (seq : Option Nat)
  | risk
  | snap
  | snapForce
  | snapDrain
  | clk
  | slc (p : Fin 4)
  | slcFlag (p : Fin 4)
  | slcRetrain (p : Fin 4)
  | preempt (w : Fin 16)
  | resume (w : Fin 16)
  | inject (kind : InjectKind)
  | injectClear
  | keyInstall (slot : Fin 4) (x y : Nat)
  | keyRevoke (slot : Fin 4)
  | fw
  | fwSwap
  | baud (rate : Nat)
  | unlock (draw : Word)
  | unlockResponse (resp : Word)
  | lock
  | sessionTimeout
  | challengeWithholdEnd
  | hostResetRelease
  | alwaysOnRailLoss
  | nightClockPresent
  | firmwareReportsHealthy
  | laneLayerReport (p : Fin 4) (report : LaneReport)
  | wakeNotComplete (f : Fin 72)
  | moduleReadyTimeout (p : Fin 4)
  deriving DecidableEq, Repr

end Sys2Proof
end

