-- ==== Sys2Proof/Decode.lean ====
section
/-! DEFINITION. The command that a word spells: none, since no row of spec/opcode_table.json gives bits. -/

namespace Sys2Proof

/-- The command spelled by a word of `nbits` bits. The commands are events at the block's interfaces, and
the table gives none of them an encoding, so no word spells one. -/
def decodeTableWord (_nbits _w : Nat) : Option Instr := none

end Sys2Proof
end

