-- ==== Sys2Proof/Machine/Tab.lean ====
section
/-! DEFINITION. Sparse arrays and memories, and bit fields of numbers. -/

namespace Sys2Proof

/-- The value at index `k`; `d` when it is not listed. -/
def Tab.get {α : Type} (d : α) : Tab α → Nat → α
  | [], _ => d
  | (i, v) :: t, k => if k = i then v else Tab.get d t k

/-- The array with `v` at index `k`. -/
def Tab.set {α : Type} : Tab α → Nat → α → Tab α
  | [], k, v => [(k, v)]
  | (i, w) :: t, k, v =>
    if k < i then (k, v) :: (i, w) :: t
    else if k = i then (k, v) :: t
    else (i, w) :: Tab.set t k v

/-- The value at index `k`, if it is listed. -/
def Tab.find {α : Type} : Tab α → Nat → Option α
  | [], _ => none
  | (i, v) :: t, k => if k = i then some v else Tab.find t k

/-- The array with index `k` no longer listed. -/
def Tab.drop {α : Type} (t : Tab α) (k : Nat) : Tab α :=
  List.filter (fun e => e.1 != k) t

/-- The array with the value at `k` changed by `f`. -/
def Tab.update {α : Type} (d : α) (t : Tab α) (k : Nat) (f : α → α) : Tab α :=
  Tab.set t k (f (Tab.get d t k))

/-- The array with the listed values changed by `f`. -/
def Tab.mapVals {α β : Type} (f : Nat → α → β) (t : Tab α) : Tab β :=
  List.map (fun e => (e.1, f e.1 e.2)) t

/-- The byte at address `a` of the yard; 0 where nothing is listed (R334). -/
def Mem.read (m : Mem) (a : Nat) : Byte := Tab.get 0#8 m a

/-- The memory with byte `v` at address `a`, in canonical form: a zero byte is not listed. -/
def Mem.write : Mem → Nat → Byte → Mem
  | [], a, v => if v = 0#8 then [] else [(a, v)]
  | (i, w) :: m, a, v =>
    if a < i then (if v = 0#8 then (i, w) :: m else (a, v) :: (i, w) :: m)
    else if a = i then (if v = 0#8 then m else (a, v) :: m)
    else (i, w) :: Mem.write m a v

/-- Bytes from address `a` on. -/
def Mem.readBytes (m : Mem) (a : Nat) : Nat → List Byte
  | 0 => []
  | n + 1 => Mem.read m a :: Mem.readBytes m (a + 1) n

/-- The memory with the bytes `bs` from address `a` on. -/
def Mem.writeBytes (m : Mem) (a : Nat) : List Byte → Mem
  | [] => m
  | b :: bs => Mem.writeBytes (Mem.write m a b) (a + 1) bs

/-- The memory with the `n` bytes from `a` on set to zero. -/
def Mem.clear (m : Mem) (a n : Nat) : Mem :=
  List.filter (fun e => decide (e.1 < a) || decide (a + n ≤ e.1)) m

/-- Every listed address lies above `lo`, addresses strictly rise, and no zero byte is listed. -/
def Mem.wfFrom : Option Nat → Mem → Bool
  | _, [] => true
  | lo, (i, v) :: m =>
    (match lo with
      | none => true
      | some l => decide (l < i)) && decide (v ≠ 0#8) && Mem.wfFrom (some i) m

/-- The canonical form of a memory. -/
def Mem.wf (m : Mem) : Bool := Mem.wfFrom none m

/-- Fabric memory with the bytes `bs` from address `a` on: an address that the engine has not written
is not listed. -/
def Mem.put (m : Mem) (a : Nat) : List Byte → Mem
  | [] => m
  | b :: bs => Mem.put (Tab.set m a b) (a + 1) bs

/-- Bits [hi:lo] of a number. -/
def bits (n hi lo : Nat) : Nat := (n >>> lo) % 2 ^ (hi + 1 - lo)

/-- Bit `i` of a number. -/
def bit (n i : Nat) : Bool := (n >>> i) % 2 == 1

/-- 1 for true. -/
def b2n (b : Bool) : Nat := if b then 1 else 0

/-- A number with bit `i` set. -/
def setBit (n i : Nat) : Nat := if bit n i then n else n + 2 ^ i

/-- A number with bit `i` clear. -/
def clrBit (n i : Nat) : Nat := if bit n i then n - 2 ^ i else n

/-- The indices below `len` whose bit is set, ascending. -/
def bitList (n len : Nat) : List Nat := (List.range len).filter (fun i => bit n i)

/-- How many of the bits below `len` are set. -/
def popCount (n len : Nat) : Nat := (bitList n len).length

/-- A little-endian number (R4). -/
def leNat : List Byte → Nat
  | [] => 0
  | b :: bs => b.toNat + 256 * leNat bs

/-- The low `k` bytes of a number, little-endian (R4). -/
def natLe (n : Nat) : Nat → List Byte
  | 0 => []
  | k + 1 => BitVec.ofNat 8 n :: natLe (n / 256) k

/-- The `k` bytes of a number, most significant first. -/
def natBe (n k : Nat) : List Byte := (natLe n k).reverse

/-- A big-endian number. -/
def beNat (bs : List Byte) : Nat := leNat bs.reverse

/-- The `k`-byte little-endian field at offset `o` of a byte string. -/
def field (bs : List Byte) (o k : Nat) : Nat := leNat ((bs.drop o).take k)

/-- A number of `w` bits read as two's complement. -/
def signed (n w : Nat) : Int := if bit n (w - 1) then (n : Int) - 2 ^ w else n

/-- An integer as `w` bits of two's complement. -/
def unsigned (i : Int) (w : Nat) : Nat := (i % (2 ^ w : Int)).toNat

/-- The distinct elements of a list, in the order of their last occurrences. -/
def nub : List Nat → List Nat
  | [] => []
  | x :: xs => if xs.contains x then nub xs else x :: nub xs

/-- The distinct elements of a list, in the order of their first occurrences. -/
def distinct (xs : List Nat) : List Nat := (nub xs.reverse).reverse

/-- The element at index `i`, or `d`. -/
def nth {α : Type} (d : α) (l : List α) (i : Nat) : α := l.getD i d

/-- A count that saturates at the all-ones value of `w` bits (R420). -/
def satAdd (w n k : Nat) : Nat := min (n + k) (2 ^ w - 1)

/-- floor(log₂ n) of a positive number; 0 for 0. -/
def log2 (n : Nat) : Nat := Nat.log2 n

/-- Quotient rounded up. -/
def ceilDiv (a b : Nat) : Nat := (a + b - 1) / b

end Sys2Proof
end

