-- ==== Sys2Proof/Machine/Flags.lean ====
section
/-! DEFINITION. The status codes of a cut and their precedence (R13, R14), from the sticky flags of R193. -/

namespace Sys2Proof.Machine

/-- Final status of a cut that ends with neither a refusal nor a broken plan: the code of highest precedence
whose condition a sticky flag records (R13, R14). -/
def finalStatus (flags : Nat) : Nat :=
  if bit flags 12 then 0x31
  else if bit flags 11 then 0x30
  else if bit flags 6 then 0x13
  else if bit flags 4 then 0x11
  else if bit flags 5 then 0x12
  else if bit flags 8 then 0x15
  else if bit flags 3 then 0x10
  else if bit flags 7 then 0x14
  else 0x01

/-- The Result column of R13 reads valid. -/
def validResult (code : Nat) : Bool :=
  code == 0x01 || (decide (0x10 ≤ code) && decide (code ≤ 0x15)) || code == 0x30 || code == 0x31

/-- Codes of class 0x3_ or 0x5_, and 0x60: the cut needs attention (R194). -/
def needsAttention (code : Nat) : Bool := code / 16 == 3 || code / 16 == 5 || code == 0x60

/-- A cut that ends with the code increments no DONE tally (R190). -/
def failedCode (code : Nat) : Bool := code == 0x50 || code == 0x60

end Sys2Proof.Machine
end

