-- ==== Sys2Proof/Machine/Crypto.lean ====
section
/-! DEFINITION. SHA-384 and ECDSA P-384 (R196), CRC-64/ECMA-182 (R396) and CRC-32C (R299). The constants
of SHA-384, of the curve and of CRC-32C are those of FIPS 180-4, SP 800-186 and RFC 3385, which the spec
names and does not print (PRESUMED, log entry 6). -/

namespace Sys2Proof.Machine

/-- Round constants of SHA-384, first part. -/
def shaK0 : List Nat :=
  [0x428A2F98D728AE22, 0x7137449123EF65CD, 0xB5C0FBCFEC4D3B2F, 0xE9B5DBA58189DBBC,
   0x3956C25BF348B538, 0x59F111F1B605D019, 0x923F82A4AF194F9B, 0xAB1C5ED5DA6D8118,
   0xD807AA98A3030242, 0x12835B0145706FBE, 0x243185BE4EE4B28C, 0x550C7DC3D5FFB4E2,
   0x72BE5D74F27B896F, 0x80DEB1FE3B1696B1, 0x9BDC06A725C71235, 0xC19BF174CF692694,
   0xE49B69C19EF14AD2, 0xEFBE4786384F25E3, 0x0FC19DC68B8CD5B5, 0x240CA1CC77AC9C65]
/-- Round constants of SHA-384, second part. -/
def shaK1 : List Nat :=
  [0x2DE92C6F592B0275, 0x4A7484AA6EA6E483, 0x5CB0A9DCBD41FBD4, 0x76F988DA831153B5,
   0x983E5152EE66DFAB, 0xA831C66D2DB43210, 0xB00327C898FB213F, 0xBF597FC7BEEF0EE4,
   0xC6E00BF33DA88FC2, 0xD5A79147930AA725, 0x06CA6351E003826F, 0x142929670A0E6E70,
   0x27B70A8546D22FFC, 0x2E1B21385C26C926, 0x4D2C6DFC5AC42AED, 0x53380D139D95B3DF,
   0x650A73548BAF63DE, 0x766A0ABB3C77B2A8, 0x81C2C92E47EDAEE6, 0x92722C851482353B]
/-- Round constants of SHA-384, third part. -/
def shaK2 : List Nat :=
  [0xA2BFE8A14CF10364, 0xA81A664BBC423001, 0xC24B8B70D0F89791, 0xC76C51A30654BE30,
   0xD192E819D6EF5218, 0xD69906245565A910, 0xF40E35855771202A, 0x106AA07032BBD1B8,
   0x19A4C116B8D2D0C8, 0x1E376C085141AB53, 0x2748774CDF8EEB99, 0x34B0BCB5E19B48A8,
   0x391C0CB3C5C95A63, 0x4ED8AA4AE3418ACB, 0x5B9CCA4F7763E373, 0x682E6FF3D6B2B8A3,
   0x748F82EE5DEFB2FC, 0x78A5636F43172F60, 0x84C87814A1F0AB72, 0x8CC702081A6439EC]
/-- Round constants of SHA-384, fourth part. -/
def shaK3 : List Nat :=
  [0x90BEFFFA23631E28, 0xA4506CEBDE82BDE9, 0xBEF9A3F7B2C67915, 0xC67178F2E372532B,
   0xCA273ECEEA26619C, 0xD186B8C721C0C207, 0xEADA7DD6CDE0EB1E, 0xF57D4F7FEE6ED178,
   0x06F067AA72176FBA, 0x0A637DC5A2C898A6, 0x113F9804BEF90DAE, 0x1B710B35131C471B,
   0x28DB77F523047D84, 0x32CAAB7B40C72493, 0x3C9EBE0A15C9BEBC, 0x431D67C49C100D4C,
   0x4CC5D4BECB3E42B6, 0x597F299CFC657E2A, 0x5FCB6FAB3AD6FAEC, 0x6C44198C4A475817]
/-- The initial hash value of SHA-384. -/
def shaH0 : List (BitVec 64) :=
  [0xCBBB9D5DC1059ED8#64, 0x629A292A367CD507#64, 0x9159015A3070DD17#64, 0x152FECD8F70E5939#64,
   0x67332667FFC00B31#64, 0x8EB44A8768581511#64, 0xDB0C2E0D64F98FA7#64, 0x47B5481DBEFA4FA4#64]

/-- The round constants as words. -/
def shaK : List (BitVec 64) := (shaK0 ++ shaK1 ++ shaK2 ++ shaK3).map (BitVec.ofNat 64)

/-- The schedule, newest word first, extended by `k` words. -/
def shaSchedule : Nat → List (BitVec 64) → List (BitVec 64)
  | 0, ws => ws
  | k + 1, ws =>
    let w2 := nth 0 ws 1
    let w7 := nth 0 ws 6
    let w15 := nth 0 ws 14
    let w16 := nth 0 ws 15
    let s0 := w15.rotateRight 1 ^^^ w15.rotateRight 8 ^^^ (w15 >>> 7)
    let s1 := w2.rotateRight 19 ^^^ w2.rotateRight 61 ^^^ (w2 >>> 6)
    shaSchedule k ((w16 + s0 + w7 + s1) :: ws)

/-- The eight working variables of SHA-384. -/
structure Sha8 where
  a : BitVec 64
  b : BitVec 64
  c : BitVec 64
  d : BitVec 64
  e : BitVec 64
  f : BitVec 64
  g : BitVec 64
  h : BitVec 64
  deriving DecidableEq, Repr, Inhabited

/-- One round. -/
def shaRound (v : Sha8) (kw : BitVec 64 × BitVec 64) : Sha8 :=
  let s1 := v.e.rotateRight 14 ^^^ v.e.rotateRight 18 ^^^ v.e.rotateRight 41
  let ch := (v.e &&& v.f) ^^^ (~~~ v.e &&& v.g)
  let t1 := v.h + s1 + ch + kw.1 + kw.2
  let s0 := v.a.rotateRight 28 ^^^ v.a.rotateRight 34 ^^^ v.a.rotateRight 39
  let maj := (v.a &&& v.b) ^^^ (v.a &&& v.c) ^^^ (v.b &&& v.c)
  { a := t1 + (s0 + maj), b := v.a, c := v.b, d := v.c, e := v.d + t1, f := v.e, g := v.f, h := v.g }

/-- One 128-byte block. -/
def shaBlock (v : Sha8) (block : List Byte) : Sha8 :=
  let ws := (List.range 16).map (fun i => BitVec.ofNat 64 (beNat ((block.drop (8 * i)).take 8)))
  let sched := (shaSchedule 64 ws.reverse).reverse
  let r := (List.zip shaK sched).foldl shaRound v
  { a := v.a + r.a, b := v.b + r.b, c := v.c + r.c, d := v.d + r.d,
    e := v.e + r.e, f := v.f + r.f, g := v.g + r.g, h := v.h + r.h }

/-- The blocks of a padded message, `n` of them. -/
def shaBlocks : Nat → List Byte → Sha8 → Sha8
  | 0, _, v => v
  | n + 1, bs, v => shaBlocks n (bs.drop 128) (shaBlock v (bs.take 128))

/-- The message with its padding and its length in bits. -/
def shaPad (bs : List Byte) : List Byte :=
  let z := (239 - bs.length % 128) % 128
  bs ++ [0x80#8] ++ List.replicate z 0#8 ++ natBe (8 * bs.length) 16

/-- SHA-384 of a byte string: 48 bytes. -/
def sha384 (bs : List Byte) : List Byte :=
  let p := shaPad bs
  let i : Sha8 := { a := nth 0 shaH0 0, b := nth 0 shaH0 1, c := nth 0 shaH0 2, d := nth 0 shaH0 3,
                    e := nth 0 shaH0 4, f := nth 0 shaH0 5, g := nth 0 shaH0 6, h := nth 0 shaH0 7 }
  let r := shaBlocks (p.length / 128) p i
  [r.a, r.b, r.c, r.d, r.e, r.f].flatMap (fun w => natBe w.toNat 8)

/-- The field prime of P-384. -/
def p384P : Nat := 0xfffffffffffffffffffffffffffffffffffffffffffffffffffffffffffffffeffffffff0000000000000000ffffffff
/-- The group order of P-384. -/
def p384N : Nat := 0xffffffffffffffffffffffffffffffffffffffffffffffffc7634d81f4372ddf581a0db248b0a77aecec196accc52973
/-- The curve coefficient b of P-384; a is −3. -/
def p384B : Nat := 0xb3312fa7e23ee7e4988e056be3f82d19181d9c6efe8141120314088f5013875ac656398d8a2ed19d2a85c8edd3ec2aef
/-- The base point of P-384. -/
def p384G : Nat × Nat :=
  (0xaa87ca22be8b05378eb1c71ef320ad746e1d3b628ba79b9859f741e082542a385502f25dbf55296c3a545e3872760ab7,
   0x3617de4a96262c6f5d9e98bf9292dc29f8f41dbd289a147ce9da3113b5f0b8c00a60b1ce1d7e819d7a431d7c90ea0e5f)

/-- b^e mod m over the low `k` bits of e, most significant first. -/
def powModBits (b m : Nat) (e : Nat) : Nat → Nat → Nat
  | 0, acc => acc
  | k + 1, acc =>
    let a2 := acc * acc % m
    powModBits b m e k (if bit e k then a2 * b % m else a2)

/-- The inverse modulo a prime below 2^384. -/
def invMod (a p : Nat) : Nat := powModBits (a % p) p (p - 2) 384 1

/-- A point of the curve in Jacobian coordinates; z = 0 is the point at infinity. -/
structure Jac where
  x : Nat
  y : Nat
  z : Nat
  deriving DecidableEq, Repr, Inhabited

/-- a − b modulo the field prime. -/
def subP (a b : Nat) : Nat := (a + p384P - b % p384P) % p384P

/-- Twice a point. -/
def Jac.dbl (q : Jac) : Jac :=
  if q.z = 0 then q
  else
    let zz := q.z * q.z % p384P
    let m := 3 * (subP q.x zz * ((q.x + zz) % p384P) % p384P) % p384P
    let yy := q.y * q.y % p384P
    let s := 4 * (q.x * yy % p384P) % p384P
    let x := subP (m * m % p384P) (2 * s)
    let y := subP (m * subP s x % p384P) (8 * (yy * yy % p384P))
    { x := x, y := y, z := 2 * (q.y * q.z % p384P) % p384P }

/-- The sum of two points. -/
def Jac.add (q r : Jac) : Jac :=
  if q.z = 0 then r
  else if r.z = 0 then q
  else
    let z1 := q.z * q.z % p384P
    let z2 := r.z * r.z % p384P
    let u1 := q.x * z2 % p384P
    let u2 := r.x * z1 % p384P
    let s1 := q.y * (z2 * r.z % p384P) % p384P
    let s2 := r.y * (z1 * q.z % p384P) % p384P
    if u1 = u2 then (if s1 = s2 then q.dbl else { x := 1, y := 1, z := 0 })
    else
      let h := subP u2 u1
      let v := subP s2 s1
      let hh := h * h % p384P
      let hhh := h * hh % p384P
      let u := u1 * hh % p384P
      let x := subP (subP (v * v % p384P) hhh) (2 * u)
      { x := x, y := subP (v * subP u x % p384P) (s1 * hhh % p384P),
        z := h * (q.z * r.z % p384P) % p384P }

/-- k·q over the low bits of k, most significant first. -/
def Jac.mulBits (q : Jac) (k : Nat) : Nat → Jac → Jac
  | 0, acc => acc
  | i + 1, acc => Jac.mulBits q k i (if bit k i then acc.dbl.add q else acc.dbl)

/-- The point lies on the curve. -/
def onCurve (x y : Nat) : Bool :=
  decide (x < p384P) && decide (y < p384P) &&
    decide (y * y % p384P = subP (x * x % p384P * x + p384B) (3 * x))

/-- ECDSA P-384 verification under FIPS 186-5 of a SHA-384 digest (R196). -/
def ecdsaVerify (key : Nat × Nat) (digest : List Byte) (r s : Nat) : Bool :=
  if r = 0 || s = 0 || decide (p384N ≤ r) || decide (p384N ≤ s) || !onCurve key.1 key.2 then false
  else
    let w := invMod s p384N
    let u1 := beNat digest * w % p384N
    let u2 := r * w % p384N
    let o : Jac := { x := 1, y := 1, z := 0 }
    let a := Jac.mulBits { x := p384G.1, y := p384G.2, z := 1 } u1 384 o
    let b := Jac.mulBits { x := key.1, y := key.2, z := 1 } u2 384 o
    let q := a.add b
    if q.z = 0 then false
    else
      let zi := invMod q.z p384P
      decide (q.x * (zi * zi % p384P) % p384P % p384N = r)

/-- One bit of CRC-64. -/
def crc64Bit (c : BitVec 64) : BitVec 64 :=
  if c.getLsbD 63 then (c <<< 1) ^^^ 0x42F0E1EBA9EA3693#64 else c <<< 1

/-- One byte of CRC-64. -/
def crc64Byte (c : BitVec 64) (b : Byte) : BitVec 64 :=
  Nat.repeat crc64Bit 8 (c ^^^ (b.setWidth 64 <<< 56))

/-- CRC-64/ECMA-182 (R396): initial value 0, no reflection, final XOR 0. -/
def crc64 (bs : List Byte) : DWord := bs.foldl crc64Byte 0#64

/-- One bit of CRC-32C, reflected. -/
def crc32cBit (c : BitVec 32) : BitVec 32 :=
  if c.getLsbD 0 then (c >>> 1) ^^^ 0x82F63B78#32 else c >>> 1

/-- One byte of CRC-32C. -/
def crc32cByte (c : BitVec 32) (b : Byte) : BitVec 32 :=
  Nat.repeat crc32cBit 8 (c ^^^ b.setWidth 32)

/-- CRC-32C (R299), with the reflection, initial value and final XOR of the Castagnoli CRC. -/
def crc32c (bs : List Byte) : Word := ~~~ (bs.foldl crc32cByte 0xFFFFFFFF#32)

end Sys2Proof.Machine
end

