-- ==== Sys2Proof/Machine/Num.lean ====
section
/-! DEFINITION. Exact values and their roundings (R27 to R47): every conversion decodes its source to an
exact value and rounds once into the target (R38). -/

namespace Sys2Proof.Machine

/-- An exact value: NaN, or m·2^e. -/
inductive Val where
  | nan
  | num (m e : Int)
  deriving DecidableEq, Repr, Inhabited

/-- Exact zero. -/
def Val.zero : Val := .num 0 0

/-- The value is NaN. -/
def Val.isNan : Val → Bool
  | .nan => true
  | .num _ _ => false

/-- The value is zero. -/
def Val.isZero : Val → Bool
  | .nan => false
  | .num m _ => m == 0

/-- 2^n for n ≥ 0, and 1 below. -/
def pow2 (n : Int) : Nat := 2 ^ n.toNat

/-- n/d rounded to the nearest integer, ties to even (R38). -/
def rneDiv (n : Int) (d : Nat) : Int :=
  let q := n / (d : Int)
  let r := n - q * d
  if 2 * r < d then q
  else if 2 * r > d then q + 1
  else if q % 2 = 0 then q else q + 1

/-- m·2^e in units of 2^q, rounded to nearest even. -/
def rneAt (m e q : Int) : Int :=
  if q ≤ e then m * pow2 (e - q) else rneDiv m (pow2 (q - e))

/-- m·2^e in units of 2^q, truncated toward zero (R51). -/
def truncAt (m e q : Int) : Int :=
  if q ≤ e then m * pow2 (e - q) else m.tdiv (pow2 (q - e))

/-- m·2^e has a nonzero bit below 2^q. -/
def lostAt (m e q : Int) : Bool :=
  if q ≤ e then false else m.tmod (pow2 (q - e)) != 0

/-- floor(log₂ |m·2^e|) of a nonzero value. -/
def topBit (m e : Int) : Int := (Nat.log2 m.natAbs : Int) + e

/-- The exact sum. -/
def Val.add : Val → Val → Val
  | .num m e, .num n f =>
    let q := min e f
    .num (m * pow2 (e - q) + n * pow2 (f - q)) q
  | _, _ => .nan

/-- The exact product. -/
def Val.mul : Val → Val → Val
  | .num m e, .num n f => .num (m * n) (e + f)
  | _, _ => .nan

/-- The negated value. -/
def Val.neg : Val → Val
  | .num m e => .num (-m) e
  | .nan => .nan

/-- The magnitude. -/
def Val.abs : Val → Val
  | .num m e => .num m.natAbs e
  | .nan => .nan

/-- a < b of two numbers; false when either is NaN. -/
def Val.lt : Val → Val → Bool
  | .num m e, .num n f =>
    let q := min e f
    decide (m * pow2 (e - q) < n * pow2 (f - q))
  | _, _ => false

/-- The value is negative. -/
def Val.isNeg : Val → Bool
  | .num m _ => decide (m < 0)
  | .nan => false

/-- Flag bits of FLAGS (R193). -/
def flUfl : Nat := 1
/-- OVF of FLAGS (R193). -/
def flOvf : Nat := 2
/-- NAN of FLAGS (R193). -/
def flNan : Nat := 4

/-- A rounded result: a code, and the flags of R40 that the operations so far set. -/
structure Fp where
  code : Nat
  fl : Nat
  deriving DecidableEq, Repr, Inhabited

/-- A binary floating format: exponent bits, fraction bits, bias, the magnitude code of the largest
finite value, and the code written for NaN (R27, R41). -/
structure Fmt where
  ew : Nat
  fw : Nat
  bias : Int
  maxCode : Nat
  nanCode : Nat
  deriving DecidableEq, Repr

/-- MXE4M3 (R27). -/
def fmtE4M3 : Fmt := { ew := 4, fw := 3, bias := 7, maxCode := 0x7E, nanCode := 0x7F }
/-- MXE5M2 (R27). -/
def fmtE5M2 : Fmt := { ew := 5, fw := 2, bias := 15, maxCode := 0x7B, nanCode := 0x7F }
/-- MXE2M1 (R27). It has no NaN code. -/
def fmtE2M1 : Fmt := { ew := 2, fw := 1, bias := 1, maxCode := 7, nanCode := 0 }
/-- BF16 (R27). -/
def fmtBf16 : Fmt := { ew := 8, fw := 7, bias := 127, maxCode := 0x7F7F, nanCode := 0x7FC0 }
/-- FP32 (R27). -/
def fmtFp32 : Fmt := { ew := 8, fw := 23, bias := 127, maxCode := 0x7F7FFFFF, nanCode := 0x7FC00000 }

/-- The value of a code (R27, R28): a magnitude above the largest finite one is an infinity or a NaN,
and both read as NaN (R41). -/
def Fmt.decode (t : Fmt) (c : Nat) : Val :=
  let mag := c % 2 ^ (t.ew + t.fw)
  let neg := bit c (t.ew + t.fw)
  let e := mag / 2 ^ t.fw
  let f := mag % 2 ^ t.fw
  if mag > t.maxCode then .nan
  else
    let m : Int := if e = 0 then f else (2 ^ t.fw + f : Nat)
    let x : Int := (if e = 0 then 1 else (e : Int)) - t.bias - t.fw
    .num (if neg then -m else m) x

/-- The code with a magnitude and a sign. -/
def Fmt.withSign (t : Fmt) (mag : Nat) (neg : Bool) : Nat :=
  if neg then mag + 2 ^ (t.ew + t.fw) else mag

/-- One rounding of an exact value into a format with subnormals (R38, R39, R40, R43): a zero that a
nonzero value rounds to keeps its sign. -/
def Fmt.encode (t : Fmt) : Val → Fp
  | .nan => { code := t.nanCode, fl := flNan }
  | .num m e =>
    if m = 0 then { code := 0, fl := 0 }
    else
      let lowest := 1 - t.bias - t.fw
      let q := max (topBit m e - t.fw) lowest
      let r := (rneAt m.natAbs e q).toNat
      let mag := (q - lowest).toNat * 2 ^ t.fw + r
      if mag = 0 then { code := t.withSign 0 (m < 0), fl := flUfl }
      else if mag > t.maxCode then { code := t.withSign t.maxCode (m < 0), fl := flOvf }
      else { code := t.withSign mag (m < 0), fl := 0 }

/-- The value of an FP32 code. -/
def f32 (c : Nat) : Val := fmtFp32.decode c

/-- One rounding to FP32. -/
def toF32 (v : Val) : Fp := fmtFp32.encode v

/-- The value of a BF16 code. -/
def bf16 (c : Nat) : Val := fmtBf16.decode c

/-- The FP32 operation whose exact result on the operands' values is `v`. -/
def Fp.op (a b : Fp) (v : Val) : Fp :=
  let r := toF32 v
  { code := r.code, fl := a.fl ||| b.fl ||| r.fl }

/-- An FP32 operand; a NaN or an infinity read sets NAN (R40). -/
def Fp.ofCode (c : Nat) : Fp := { code := c, fl := if (f32 c).isNan then flNan else 0 }

/-- a + b, rounded once (R38). -/
def Fp.add (a b : Fp) : Fp := Fp.op a b ((f32 a.code).add (f32 b.code))
/-- a − b, rounded once (R38). -/
def Fp.sub (a b : Fp) : Fp := Fp.op a b ((f32 a.code).add (f32 b.code).neg)
/-- a·b, rounded once (R38). -/
def Fp.mul (a b : Fp) : Fp := Fp.op a b ((f32 a.code).mul (f32 b.code))

/-- The exact quotient to 60 bits beyond its leading one, with a sticky bit, so that one rounding of it
to at most 30 bits is the rounding of the quotient itself. -/
def quot (m e n f : Int) : Val :=
  let s := 64 + Nat.log2 n.natAbs
  let a := m.natAbs * 2 ^ s
  let k := a / n.natAbs
  let k' := 2 * k + (if a % n.natAbs = 0 then 0 else 1)
  .num (if (m < 0) = (n < 0) then (k' : Int) else -(k' : Int)) (e - f - s - 1)

/-- a/b, correctly rounded (R291). The divisor of the dresser is never zero (R292). -/
def Fp.div (a b : Fp) : Fp :=
  match f32 a.code, f32 b.code with
  | .num m e, .num n f => Fp.op a b (quot m e n f)
  | _, _ => Fp.op a b .nan

/-- One round of Newton's method for the integer square root, repeated `k` times from above. -/
def isqrtIter (n : Nat) : Nat → Nat → Nat
  | 0, x => x
  | k + 1, x =>
    let y := (x + n / x) / 2
    if y < x then isqrtIter n k y else x

/-- floor(√n). -/
def isqrt (n : Nat) : Nat := if n = 0 then 0 else isqrtIter n 200 (2 ^ (Nat.log2 n / 2 + 1))

/-- √|m·2^e| to 60 bits beyond its leading one, with a sticky bit. -/
def sqrtVal (m e : Int) : Val :=
  let odd := e % 2
  let a := m.natAbs * pow2 odd * 2 ^ 128
  let k := isqrt a
  .num (2 * k + (if k * k = a then 0 else 1) : Nat) ((e - odd) / 2 - 64 - 1)

/-- The correctly rounded root of the operand's magnitude; +0 for either zero (R291). -/
def Fp.sqrt (a : Fp) : Fp :=
  match f32 a.code with
  | .num m e => Fp.op a a (sqrtVal m e)
  | .nan => Fp.op a a .nan

/-- floor(log₂ |v|) of a nonzero number; 0 otherwise. -/
def Val.log2 : Val → Int
  | .num m e => topBit m e
  | .nan => 0

/-- The larger magnitude of two; NaN above every number (R41). -/
def Val.maxAbs (a b : Val) : Val :=
  match a, b with
  | .nan, _ => .nan
  | _, .nan => .nan
  | a, b => if a.abs.lt b.abs then b.abs else a.abs

end Sys2Proof.Machine
end

