-- ==== Sys2Proof/Machine/Image.lean ====
section
/-! DEFINITION. What a Boruene image holds once it is decoded (R172 to R185, R306, R363, R399): the
types alone. The decoder is `Machine/ImageDecode.lean`. A reference of 0xFFFF means none (R113). -/

namespace Sys2Proof.Machine

/-- The image header (R172). `faceScope` and `workingScope` share SCOPE. -/
structure Header where
  magic : Nat
  format : Nat
  kind : Nat
  scope : Nat
  length : Nat
  keySlot : Nat
  commit : Nat
  sections : Nat
  imageId : Nat
  imageVer : Nat
  baseDigest : List Byte
  recordBase : Nat
  recDepth : Nat
  workings : Nat
  cuts : Nat
  deriving DecidableEq, Repr, Inhabited

/-- A working entry of PARTITION (R175). -/
structure WorkingEntry where
  faces : Nat
  fabRd : Nat
  fabWr : Nat
  autorun : Bool
  deriving DecidableEq, Repr, Inhabited

/-- A yard region (R176). -/
structure Region where
  base : Nat
  size : Nat
  working : Nat
  purpose : Nat
  swz : Nat
  hdr : Nat
  backing : Nat
  masks : List Nat
  deriving DecidableEq, Repr, Inhabited

/-- A dimension record of a map (R116). -/
structure DimRec where
  extent : Nat
  stride : Int
  start : Int
  fill : Nat
  fillScale : Nat
  deriving DecidableEq, Repr, Inhabited

/-- A tensor map (R114, R115). -/
structure MapDesc where
  type : Nat
  dims : Nat
  blkDim : Nat
  yard : Bool
  wmode : Nat
  swz : Nat
  gather : Nat
  blYard : Bool
  scaleMap : Nat
  idxMap : Nat
  base : Nat
  blBase : Nat
  blA : Nat
  blB : Nat
  blC : Nat
  idxDim : Nat
  idxSrc : Nat
  dim : List DimRec
  masks : List Nat
  blkExt : List Nat
  deriving DecidableEq, Repr, Inhabited

/-- A receiver entry (R145). -/
structure RecvEntry where
  face : Nat
  bench : Nat
  port : Nat
  valid : Bool
  deriving DecidableEq, Repr, Inhabited

/-- A hoist template (R143, R144). -/
structure HoistTmpl where
  working : Nat
  src : Nat
  dst : Nat
  target : Nat
  persist : Bool
  detachEn : Bool
  spillEn : Bool
  spiller : Bool
  walker : Bool
  srcMap : Nat
  dstMap : Nat
  floor : Nat
  tsize : Nat
  recvN : Nat
  doneTally : Nat
  detachMask : Nat
  recv : List RecvEntry
  detachCycles : Nat
  detachBase : Nat
  spillHoist : Nat
  spillMap : Nat
  rearmFirst : Nat
  rearmCount : Nat
  borrow : Nat
  deriving DecidableEq, Repr, Inhabited

/-- A re-arm entry (R158). -/
structure RearmEntry where
  srcBase : Nat
  srcScaleBase : Nat
  dstBase : Nat
  dstScaleBase : Nat
  blBase : Nat
  idxBase : Nat
  keep : Nat
  deriving DecidableEq, Repr, Inhabited

/-- A wait of a descriptor (R183, R189). -/
structure WaitDesc where
  idx : Nat
  perStep : Nat
  base : Nat
  deriving DecidableEq, Repr, Inhabited

/-- A DONE or PROGRESS tally of a descriptor (R183, R190). -/
structure DoneDesc where
  idx : Nat
  add : Nat
  deriving DecidableEq, Repr, Inhabited

/-- One spatial dimension of the convolution walk (R97). -/
structure WalkDim where
  taps : Nat
  stride : Nat
  dilation : Nat
  padding : Nat
  deriving DecidableEq, Repr, Inhabited

/-- KIND_AREA of a D-cut (R222). -/
structure DArea where
  func : Nat
  outType : Nat
  fuse : Nat
  outSlot : Nat
  inSlot : Nat
  accRegion : Nat
  savedMap : Nat
  signMap : Nat
  privMap : Nat
  privInMap : Nat
  deriving DecidableEq, Repr, Inhabited

/-- KIND_AREA of a W-cut (R242). -/
structure WArea where
  seamId : Nat
  initMap : Nat
  freezeMap : Nat
  handoff : Nat
  spill : Nat
  deriving DecidableEq, Repr, Inhabited

/-- KIND_AREA of an A-cut (R279). -/
structure AArea where
  qfmt : Nat
  allowNarrow : Bool
  ktable : Bool
  deltaMake : Bool
  mask : Nat
  qbLog2 : Nat
  heads : Nat
  dh : Nat
  ring : Nat
  ringPos : Nat
  smScale : Nat
  win : Nat
  seqBase : Nat
  ptBase : Nat
  biasMap : Nat
  pfMap : Nat
  rxMap : Nat
  dkMap : Nat
  dvMap : Nat
  dqRegion : Nat
  dkvRegion : Nat
  kilnRegion : Nat
  retType : Nat
  portNext : Nat
  portPrev : Nat
  vcKv : Nat
  vcDkv : Nat
  bufs : Nat
  segMap : Nat
  classLog2 : Nat
  deriving DecidableEq, Repr, Inhabited

/-- KIND_AREA of a U-cut (R296). -/
structure UArea where
  opt : Nat
  nanGuard : Bool
  drsMask : Nat
  bufPhase : Nat
  seamId : Nat
  source : Nat
  freezeMap : Nat
  hdepth : Nat
  hyperBase : Nat
  deriving DecidableEq, Repr, Inhabited

/-- KIND_AREA of an X-cut (R324). -/
structure XArea where
  seamId : Nat
  source : Nat
  plan : Nat
  k : Nat
  vc : Nat
  sel : Nat
  hrPreset : Nat
  headroom : List Int
  initC : Nat
  tailMap : Nat
  scaleMap : Nat
  resultRegion : Nat
  deriving DecidableEq, Repr, Inhabited

/-- KIND_AREA of an S-cut (R400). -/
structure SArea where
  content : Nat
  mode : Nat
  port : Nat
  targetBase : List Nat
  targetLen : Nat
  deriving DecidableEq, Repr, Inhabited

/-- KIND_AREA of a V-cut (R400). -/
structure VArea where
  role : Nat
  port : Nat
  retries : Nat
  listCount : Nat
  listBase : Nat
  deriving DecidableEq, Repr, Inhabited

/-- The area of a cut's kind (R185). -/
inductive KindArea where
  | empty
  | d (a : DArea)
  | w (a : WArea)
  | a (a : AArea)
  | u (a : UArea)
  | x (a : XArea)
  | s (a : SArea)
  | v (a : VArea)
  deriving DecidableEq, Repr, Inhabited

/-- A cut descriptor (R183). -/
structure CutDesc where
  kind : Nat
  working : Nat
  index : Nat
  yields : Bool
  release : Bool
  onRestore : Bool
  period : Nat
  phase : Nat
  benches : Nat
  split : Nat
  passL : Nat
  passJ : Nat
  faces : Nat
  waits : List WaitDesc
  dones : List DoneDesc
  progress : DoneDesc
  hoists : List Nat
  maps : List Nat
  bind : List (List Nat)
  axR : Nat
  axP : Nat
  axL : Nat
  axB0 : Nat
  axB1 : Nat
  pTile : Nat
  lTile : Nat
  pPadLo : Nat
  pPadHi : Nat
  lPadLo : Nat
  lPadHi : Nat
  shMode : Nat
  shBuf : Nat
  shV : Nat
  shRanges : Nat
  stMode : Nat
  stBuf : Nat
  stScale : Nat
  decl : Nat
  walkMode : Nat
  walk : List WalkDim
  area : KindArea
  deriving DecidableEq, Repr, Inhabited

/-- A port entry of SLUICE (R306). -/
structure PortEntry where
  enable : Bool
  peerPort : Nat
  expert : Bool
  peerSysId : Nat
  vcFrames : List Nat
  berExp : Nat
  biasLanePct : Nat
  biasModPct : Nat
  agePct : Nat
  deriving DecidableEq, Repr, Inhabited

/-- An entry of the VC map (R303, R306). -/
structure VcEntry where
  cls : Nat
  working : Nat
  deriving DecidableEq, Repr, Inhabited

/-- A reduction plan (R306). -/
structure Plan where
  groupId : Nat
  working : Nat
  depth : Nat
  parentPort : Nat
  childMask : Nat
  mergePort : Nat
  alt : Nat
  deriving DecidableEq, Repr, Inhabited

/-- A derivative slot entry (R214): 0 empty, 1 output table, 2 input table, 3 KEEP. -/
structure DrvSlot where
  kind : Nat
  table : EvalTable
  deriving DecidableEq, Repr, Inhabited

/-- The TABLES section (R214, R216): `none` where a part has length 0. -/
structure TablesPart where
  kiln : Option EvalTable
  drv : Option (List DrvSlot)
  deriving DecidableEq, Repr, Inhabited

/-- A crossing group's byte (R363). -/
structure GroupMode where
  paced : Bool
  expert : Bool
  paceDelay3 : Bool
  syncStages : Nat
  deriving DecidableEq, Repr, Inhabited

/-- The clock part of MODES (R363). -/
structure ClkPart where
  groups : List GroupMode
  surge : Nat
  surgeClass : Nat
  surgeWorkings : Nat
  budget : Nat
  resume : Nat
  econTemp : Nat
  fminService : Nat
  napIdle : Nat
  offIdle : Nat
  stallNc : Nat
  faceFmax : List Nat
  faceVoff : List Int
  deriving DecidableEq, Repr, Inhabited

/-- The RISK part of MODES (R399). -/
structure RiskPart where
  preset : Nat
  decayShift : Nat
  thr : Nat
  weights : List Nat
  deriving DecidableEq, Repr, Inhabited

/-- The SNAP part of MODES (R399). -/
structure SnapPart where
  preset : Nat
  refWorking : Nat
  insertEntry : Nat
  minSteps : Nat
  maxSteps : Nat
  rxBase : List Nat
  rxLen : Nat
  deriving DecidableEq, Repr, Inhabited

/-- The MODES section (R363, R435, R399): a part that a partial omits is `none`. -/
structure ModesPart where
  acc : Option (List Nat)
  chk : Option (List Nat)
  clk : Option ClkPart
  risk : Option RiskPart
  snap : Option SnapPart
  deriving DecidableEq, Repr, Inhabited

/-- An image: header and sections. Sparse tables carry the index of each map, template, re-arm entry,
region, plan and descriptor, so that a partial holds the ones it replaces (R174, R179, R200). -/
structure Image where
  header : Header
  totalRd : Nat
  totalWr : Nat
  workings : Tab WorkingEntry
  regions : Tab Region
  floors : Tab Nat
  maps : Tab MapDesc
  hoists : Tab HoistTmpl
  rearm : Tab RearmEntry
  sysId : Nat
  ports : List PortEntry
  vcs : List VcEntry
  plans : Tab Plan
  tables : Option TablesPart
  modes : Option ModesPart
  cuts : Tab CutDesc
  tallies : Tab Nat
  digest : List Byte
  types : List Nat
  deriving DecidableEq, Repr, Inhabited

end Sys2Proof.Machine
end

