-- ==== Sys2Proof/Machine/Types.lean ====
section
/-! DEFINITION. The parts of the machine's state, as plain data: what each unit of R17 holds while it
works. `Machine/State.lean` puts them together. -/

namespace Sys2Proof.Machine

/-- Clock state of a tile (R333); a wake in progress remembers the state it left. -/
inductive ClkState where
  | run
  | nap
  | off
  | wakingNap
  | wakingOff
  deriving DecidableEq, Repr, Inhabited

/-- GLB (R422): the fields that are not read from elsewhere. -/
structure Glb where
  sleepReq : Nat
  asleep : Nat
  tripped : Bool
  cause : Nat
  boot : Nat
  ready : Bool
  stockfail : Bool
  evt : Word
  evtEn : Word
  preempt : BitVec 16
  resetHeld : Bool
  deriving DecidableEq, Repr, Inhabited

/-- The supply and clock of the night domain (R402, R403). -/
inductive Supply where
  | good
  | noClock
  | noRail
  deriving DecidableEq, Repr, Inhabited

/-- What a 64-bit pair holds for one requester (R8): the shadow of an unread upper half, and the
staged lower half. -/
structure PairSide where
  shadow : Option Word
  staged : Option Word
  deriving DecidableEq, Repr, Inhabited

/-- A register access that waits for a stopped tile (R347). -/
structure BusAccess where
  tile : Tile
  who : Requester
  write : Bool
  off : Nat
  size : Nat
  value : Word
  deriving DecidableEq, Repr

/-- The register front end: what each requester last received, accesses that wait, and bus errors
returned (R345). -/
structure Bus where
  hostData : Word
  foremanData : Word
  waiting : List BusAccess
  hostErrors : Nat
  foremanErrors : Nat
  deriving DecidableEq, Repr, Inhabited

/-- An image load in progress (R195 to R201). -/
inductive LoadPhase where
  | idle
  | firstRead
  | bankWait
  | secondRead
  deriving DecidableEq, Repr, Inhabited

/-- The load path (R195, R427). -/
structure LoadState where
  phase : LoadPhase
  addr : DWord
  code : Nat
  reason : Nat
  ignored : Nat
  staged : Option Image
  deriving DecidableEq, Repr, Inhabited

/-- One bank of loaded tables (R216, R250). -/
structure TableBank where
  drv : List DrvSlot
  kiln : Option EvalTable
  deriving DecidableEq, Repr, Inhabited

/-- The two banks and the current one, apart for derivative and kiln tables (R216, R250). -/
structure Tables where
  bank0 : TableBank
  bank1 : TableBank
  drvCur : Bool
  kilnCur : Bool
  deriving DecidableEq, Repr, Inhabited

/-- Sequencer state (R427). -/
inductive SeqState where
  | stopped
  | running
  | stopping
  | halted
  deriving DecidableEq, Repr, Inhabited

/-- A working's sequencer (R180, R427). -/
structure Working where
  seq : SeqState
  step : Nat
  isOpen : Bool
  first : Bool
  restored : Bool
  held : Bool
  deriving DecidableEq, Repr, Inhabited

/-- Where a schedule entry stands in its step (R15, R180, R181). -/
inductive CutPhase where
  | idle
  | pending
  | running
  | stopped
  | ended
  deriving DecidableEq, Repr, Inhabited

/-- A refusal found by a check (R140, R186): status, DETAIL_MAP and DETAIL_AUX. -/
structure CutRefusal where
  status : Nat
  detailMap : Nat
  detailAux : Nat
  deriving DecidableEq, Repr, Inhabited

/-- A replay that an aborted cut waits for (R15): a bench's next pass, a face's readout (R217), the lines of a hoist up
to a sequence number (R168, R322), or the first pass of a cut that starts over (R371). -/
inductive Replay where
  | pass (n b : Nat)
  | readout (n : Nat)
  | lines (h upTo : Nat)
  | cut
  deriving DecidableEq, Repr, Inhabited

/-- One pass of a bench (R79, R206, R229, R245): the item (slice or row), the index along the reduction
(pass index or key block), the stage and the pass within the stage of an A-cut, and the load tag. -/
structure PassId where
  item : Nat
  red : Nat
  stage : Nat
  sub : Nat
  tag : Nat
  deriving DecidableEq, Repr, Inhabited

/-- A pocket's contents (R42, R50): the integer, the exponent of its unit, and the NaN tag. -/
structure Pocket where
  w : Int
  e : Int
  nan : Bool
  deriving DecidableEq, Repr, Inhabited

/-- The checking mode in force for a pass (R90, R91). -/
structure ChkMode where
  col : Bool
  row : Bool
  replays : Nat
  pair : Bool
  deriving DecidableEq, Repr, Inhabited

/-- A saved context that waits for another bench of its cut, which adopted the item (R93, R94, R380): the pass, its
pockets and cursor, its modes, its load tags, and its slot in the working's CONTEXT region. -/
structure KeptCtx where
  pass : PassId
  pockets : Tab Pocket
  group : Nat
  pocket : Nat
  span : Bool
  econ : Bool
  chk : ChkMode
  tags : Option Nat × Option Nat
  slot : Nat
  deriving DecidableEq, Repr, Inhabited

/-- A schedule entry's cut (R15, R180 to R193), with the descriptor and the maps it started under
(R142, R201), its completed items in no order (R190) and what KIND_DATA counts. -/
structure CutRun where
  phase : CutPhase
  status : Nat
  step : Nat
  flags : Word
  startNc : Nat
  endNc : Nat
  dropped : Nat
  maxFolds : Nat
  replays : Nat
  detaches : Nat
  detailMap : Nat
  detailAux : Nat
  kd0 : Nat
  kd1 : Nat
  kd2 : Nat
  kd3 : Nat
  runs : Nat
  desc : CutDesc
  maps : Tab MapDesc
  items : Nat
  done : List Nat
  published : Nat
  metNc : Option Nat
  priv : List Bool
  freeze : List Bool
  hyper : List Byte
  scales : List Nat
  passes : Nat
  /-- the table bank that the last slice to start took, and the bank of each slice in progress (R216) -/
  bank : Option Bool
  banks : Tab Bool
  /-- kiln, derivative and row-store parity errors of the cut by face (R375) -/
  parity : Tab Nat
  faults : Nat
  /-- tree combinations done, as (slice·8 + rank)·4 + level (R67) -/
  trees : List Nat
  /-- the dresser that replays a slab after a dresser fault, by slab (R294) -/
  moved : Tab Nat
  /-- a V-cut's slice list, and the ROLE in the stream header that its peer sent (R397) -/
  slices : List (Nat × Nat)
  peer : Option Nat
  /-- the replays that have not started: the status shows 0x41 until they have (R15) -/
  awaiting : List Replay
  /-- saved contexts of items that other benches have adopted (R380) -/
  kept : List KeptCtx
  deriving DecidableEq, Repr, Inhabited

/-- A feeder side with its half of the stationary scale store (R74, R75, R77, R82). -/
structure FeederSide where
  tag : Option Nat
  full : Bool
  held : Bool
  wide : Bool
  load : StatLoad
  deriving DecidableEq, Repr, Inhabited

/-- A bench's shadow (R79). -/
structure Shadow where
  cut : Nat
  pass : PassId
  pockets : Tab Pocket
  c0 : Tab Pocket
  c1 : Tab Pocket
  rows : Tab Pocket
  chk : ChkMode
  unchecked : Bool
  econ : Bool
  span : Bool
  nan : Bool
  injected : Bool
  cleared : Bool
  drained : Bool
  deriving DecidableEq, Repr, Inhabited

/-- A bench (R71 to R94), by face and logical bench. -/
structure Bench where
  cut : Option Nat
  work : List PassId
  cur : Option PassId
  taken : Bool
  activeB : Bool
  feedA : FeederSide
  feedB : FeederSide
  preamble : List (List Nat)
  sigma : List (List (Option Int))
  nextPre : Option (List (List Nat))
  nextSigma : List (List (Option Int))
  pockets : Tab Pocket
  group : Nat
  pocket : Nat
  span : Bool
  econ : Bool
  chk : ChkMode
  frozen : Option Nat
  shadow : Option Shadow
  replays : Nat
  stopped : Bool
  saved : Option PassId
  savedTags : Option Nat × Option Nat
  yielded : Option (Nat × List PassId)
  deriving DecidableEq, Repr, Inhabited

/-- A face's role (R434). -/
inductive FaceRole where
  | spare
  | inService
  | filling
  | retired
  | failed
  deriving DecidableEq, Repr, Inhabited

/-- A face (R350 to R358, R375 to R379, R434, R435). -/
structure Face where
  role : FaceRole
  working : Nat
  position : Nat
  fill : Nat
  benches : Nat
  reduced : Bool
  serves : Nat
  acc : Word
  chk : Word
  econBits : Nat
  unchk : Tab Nat
  reloc : Tab Nat
  frz : Tab Nat
  req : Nat
  cap : Nat
  freq : Nat
  ceiling : Nat
  imgFmax : Nat
  imgVoff : Int
  fmaxReg : Nat
  voffReg : Int
  heat : Bool
  stretched : Bool
  mismatches : List Nat
  deg : Int
  /-- the governor asks for economy (R358) -/
  econTemp : Bool
  /-- night-cycle counts since which the sensor has stayed low enough for economy to end, low enough for the
  ceiling to rise, and high enough at 1.0 GHz for the clock to stop (R358) -/
  econSince : Option Nat
  coolSince : Option Nat
  hotSince : Option Nat
  deriving DecidableEq, Repr, Inhabited

/-- The kiln of a bench (R248, R251): results that wait for their block of 32, as FP32 codes, by
lane·4096 + query and by query·512 + lane; the results of the shadow in hand that have come back, as
pocket·512 + lane; and the bank of loaded tables that its block, a row and a key block, uses (R250). -/
structure Kiln where
  byKey : Tab Nat
  byQuery : Tab Nat
  seen : List Nat
  block : Option (Nat × Nat × Bool)
  /-- FLAGS bits that the results of the shadow in hand set, committed with its drain (R193) -/
  fl : Nat
  deriving DecidableEq, Repr, Inhabited

/-- A seam's life (R232 to R236). -/
inductive SeamPhase where
  | accumulating
  | held
  | evicting
  | evicted
  /-- released by its consumer while a snapshot drain still has its lines to read (R391) -/
  | releasing
  deriving DecidableEq, Repr, Inhabited

/-- A seam (R227, R232, R235): the W-cut's entry, its destination region, ranks, rows, columns, tiles,
element format (E128 or G40), consumer, and the map that backs its region. -/
structure Seam where
  entry : Nat
  region : Nat
  split : Nat
  rows : Nat
  cols : Nat
  pTile : Nat
  lTile : Nat
  e128 : Bool
  handoff : Nat
  phase : SeamPhase
  evictor : Option Nat
  deriving DecidableEq, Repr, Inhabited

/-- A physical transposing buffer's counters (R108, R429). -/
structure Tpb where
  stallIn : Nat
  stallDest : Nat
  stallSlots : Nat
  stallWake : Nat
  corr : Nat
  uncorr : Nat
  sumErr : Nat
  deriving DecidableEq, Repr, Inhabited

/-- A tile in a transposing buffer's slot (R101 to R105): the stream it belongs to, its turned output
segments still to send and their scale codes. -/
structure TileSlot where
  cut : Nat
  stream : TileStream
  segments : List (List Nat)
  codes : List (List Nat)
  deriving DecidableEq, Repr, Inhabited

/-- What a hoist is doing (R426). -/
inductive HoistSt where
  | none
  | idle
  | stream
  | claim
  | dest
  | stopped
  deriving DecidableEq, Repr, Inhabited

/-- A line asked for (R164): its order in the stream, its address, or the fill that stands for it
(R121), the valid bytes of the line (R123), and how often it came back with an error (R366). -/
structure LineReq where
  seq : Nat
  addr : Option Nat
  valid : Nat
  fill : List Byte
  errors : Nat
  /-- the bytes delivered, once the line has arrived -/
  data : Option (List Byte)
  /-- where the line goes in the destination map, for a hoist that has one -/
  dst : Option Nat
  deriving DecidableEq, Repr, Inhabited

/-- A line to be written (R123, R147): its address and bytes, and how often the write failed (R367). -/
structure LineWrite where
  /-- the slice or slab whose results the line carries (R190) -/
  item : Nat
  addr : Nat
  bytes : List Byte
  errors : Nat
  deriving DecidableEq, Repr, Inhabited

/-- A hoist (R143 to R171, R426). -/
structure Hoist where
  tmpl : Option HoistTmpl
  cut : Option Nat
  st : HoistSt
  k : Nat
  pos : Nat
  occ : Nat
  attached : Nat
  taken : List Nat
  detachedTo : Tab Nat
  source : Option Nat
  timer : Nat
  detaches : Nat
  reqs : List LineReq
  nextSeq : Nat
  deliver : Nat
  out : List LineWrite
  errRd : Nat
  errWr : Nat
  spCorr : Nat
  spUncorr : Nat
  bytes : Nat
  parked : List (List Byte)
  parkedCount : Nat
  sleepStall : Bool
  badRearm : Bool
  ended : Bool
  /-- where the pass in progress, or the load of the sides in use, began in the stream (R169) -/
  mark : Nat
  deriving DecidableEq, Repr, Inhabited

/-- Port state (R302, R430). -/
inductive PortState where
  | disabled
  | training
  | up
  | miswired
  | down
  deriving DecidableEq, Repr, Inhabited

/-- A frame in a sender's hands (R299, R300): channel, type, tail bit, sequence number, payload. -/
structure Frame where
  vc : Nat
  type : Nat
  tail : Bool
  seq : Nat
  payload : List Byte
  deriving DecidableEq, Repr, Inhabited

/-- A piece of a channel's stream that waits to be sent (R313): its bytes, and whether it closes its
stream. -/
structure TxPiece where
  bytes : List Byte
  tail : Bool
  cut : Nat
  deriving DecidableEq, Repr, Inhabited

/-- A received DATA frame that its channel holds (R304): payload and tail bit. -/
structure RxPiece where
  bytes : List Byte
  tail : Bool
  deriving DecidableEq, Repr, Inhabited

/-- One virtual channel of one port (R303, R304, R320): what waits to be sent, the sender's credits,
what has arrived, frames freed since the port came up, the cut whose stream is accepted, and whether
the rest of the stream is being discarded. -/
structure Channel where
  tx : List TxPiece
  rx : List RxPiece
  sent : Nat
  peerFreed : Nat
  freed : Nat
  accepted : Option Nat
  discarding : Bool
  /-- the cut whose stream has begun and not ended on the sending side (R313) -/
  sending : Option Nat
  deriving DecidableEq, Repr, Inhabited

/-- The module of a port (R326 to R330). -/
structure Module where
  present : Bool
  flagged : Bool
  identity : List Byte
  selecting : Bool
  refBias : List Nat
  rise : List Nat
  age : List Nat
  retired : List Nat
  spareFor : Nat
  deriving DecidableEq, Repr, Inhabited

/-- A sluice port: link layer, module and counters (R298 to R305, R430). -/
structure Port where
  st : PortState
  chans : Tab Channel
  rxNext : Nat
  txNext : Nat
  replay : List Frame
  resend : Option Nat
  retry : Bool
  waiting : Bool
  rxCtl : List (List Byte)
  txCtl : List (List Byte)
  helloSeq : Option Nat
  helloAcked : Bool
  helloGood : Bool
  turn : Nat
  credTurn : Nat
  fails : Nat
  retryTimes : List Nat
  retryTx : Nat
  retryRx : Nat
  retrains : Nat
  discards : Nat
  peer : DWord
  drained : Bool
  half : Bool
  /-- the lane layer has trained the lanes (R301) -/
  trained : Bool
  /-- the frame last put on the lanes (R1: an output of the block) -/
  lastTx : List Byte
  module : Module
  deriving DecidableEq, Repr, Inhabited

/-- One slab entry of the merge memory (R314): which contributions have arrived, the block mask, the
accumulators (FP32 codes) by element, and whether the encode is done. -/
structure MergeSlab where
  own : Bool
  children : Nat
  mask : Nat
  acc : Tab Nat
  deriving DecidableEq, Repr, Inhabited

/-- A slab in the tailings keeper (R308): the tailing of each element, as FP32 codes. -/
structure TailSlab where
  vals : List Nat
  finished : Bool
  deriving DecidableEq, Repr, Inhabited

/-- A reduced slab that waits to be delivered (R312, R316): block mask and W8 records. -/
structure DownSlab where
  slab : Nat
  scale : Nat
  mask : Nat
  blocks : List (Nat × List Nat)
  deriving DecidableEq, Repr, Inhabited

/-- The run of an X-cut (R307 to R320). -/
structure XRun where
  plan : Plan
  onAlt : Bool
  run : Nat
  slabs : Nat
  selected : Nat
  encoded : List Nat
  merge : Tab MergeSlab
  keeper : Tab TailSlab
  down : List DownSlab
  delivered : Nat
  /-- ports whose stream the cut has accepted (R320) -/
  heard : List Nat
  deriving DecidableEq, Repr, Inhabited

/-- A row of an A-cut's sequence table (R264). -/
structure SeqRow where
  qRow : Nat
  qCount : Nat
  posQ : Nat
  ptFirst : Nat
  ptCount : Nat
  kRow : Nat
  segRow : Nat
  deriving DecidableEq, Repr, Inhabited

/-- A page table entry (R259). -/
structure PageRow where
  pos : Nat
  size : Nat
  fmt : Nat
  res : Bool
  kBase : Nat
  vBase : Nat
  ksBase : Nat
  deriving DecidableEq, Repr, Inhabited

/-- A visiting block of the ring (R271, R273): its round, and the bytes that landed. -/
structure RingSlot where
  round : Nat
  data : List Byte
  deriving DecidableEq, Repr, Inhabited

/-- The run of an A-cut (R244 to R275): sequences; the pages of each round, whose first is the chip's own;
segment ids by SEG_MAP index; the prefetch area (page and bytes, oldest first), where its next byte goes, and
the pages copied; the ring's slots and blocks that wait for one; rounds landed; rows written; dK/dV tiles by
ordinal: freed, with a partial waiting, with their partial folded, and returned; and Δ by row. -/
structure ARun where
  seqs : List SeqRow
  pages : Tab (List PageRow)
  segs : List Nat
  prefetch : List (Nat × Nat)
  pfHead : Nat
  copied : List Nat
  slots : Tab RingSlot
  waitingBlock : List RingSlot
  landed : Nat
  rowsDone : List Nat
  tilesDone : List Nat
  partials : Tab (List (List Nat))
  folded : List Nat
  returned : List Nat
  delta : Tab (List Nat)
  deriving DecidableEq, Repr, Inhabited

/-- A unit without a spare (R381, R429): `cutFaults` is 1 above the entry of the running cut in which it last had
a fault, and 0 for none. -/
structure UnitState where
  retired : Bool
  busy : Option Nat
  working : Nat
  faults : Nat
  count : Nat
  cutFaults : Nat
  deriving DecidableEq, Repr, Inhabited

/-- A crossing group (R344, R424): mode in force, mode asked for, and whether the change waits. -/
structure CrossGroup where
  mode : GroupMode
  asked : Option GroupMode
  forced : Bool
  deriving DecidableEq, Repr, Inhabited

/-- Surge accounting (R353 to R356). The buckets are the current one and the 100 before it, newest
first. -/
structure Surge where
  en : Bool
  withdrawn : Bool
  permitted : Bool
  buckets : List Nat
  ledger : Nat
  stored : Nat
  droops : Nat
  deriving DecidableEq, Repr, Inhabited

/-- The health model (R385, R386, R431). -/
structure Health where
  score : Nat
  pending : Bool
  thr : Nat
  inputs : Tab Nat
  logSel : Nat
  deriving DecidableEq, Repr, Inhabited

/-- The spare map (R373). Keys: a lane is (face·5 + physical bench)·512 + logical lane; a bench is
face·4 + logical bench; a unit is kind·16 + number as R446 numbers kinds. -/
structure SpareMap where
  lanes : Tab Nat
  laneUsed : Tab Nat
  benchMap : Tab Nat
  benchRet : Tab Nat
  faceRet : List Nat
  faceFailed : List Nat
  facePlace : Tab Nat
  bankMap : Tab Nat
  bankRet : List Nat
  bufMap : Tab Nat
  bufRet : List Nat
  laneSpare : Tab Nat
  unitRet : List Nat
  deriving DecidableEq, Repr, Inhabited

/-- Phase of a fill (R377). -/
inductive FillPhase where
  | queued
  | wake
  | config
  | test
  | join
  deriving DecidableEq, Repr, Inhabited

/-- A fill: the retired face, its place in its working, the spare reserved, the phase, and whether the
pockets of the retired face were saved (R375 to R379). -/
structure Fill where
  face : Nat
  working : Nat
  position : Nat
  spare : Nat
  phase : FillPhase
  saved : Bool
  deriving DecidableEq, Repr, Inhabited

/-- A stopped cut waits for faces whose retirement stopped it (R376), and work adopted (R380). -/
structure Fills where
  queue : List Fill
  waiting : List (Nat × Nat)
  adopted : List (Nat × Nat)
  deriving DecidableEq, Repr, Inhabited

/-- A snapshot in progress (R388 to R392). -/
inductive SnapPhase where
  | idle
  | holding
  | draining
  | restoreFirst
  | restoreSecond
  deriving DecidableEq, Repr, Inhabited

/-- What the capture holds (R389). -/
structure Capture where
  tallies : Tab Nat
  steps : Tab Nat
  hoists : Tab (Nat × Nat)
  heads : List (Nat × List Byte)
  digest : List Byte
  nc : Nat
  deriving DecidableEq, Repr, Inhabited

/-- Writes that wait for a drain to read the lines they overwrite (R288, R391): the entry, the slab, and
each line with the hoist that carries it. -/
structure HeldWrite where
  entry : Nat
  slab : Nat
  writes : List (Nat × LineWrite)
  /-- night-cycle count when the wait began -/
  since : Nat
  deriving DecidableEq, Repr, Inhabited

/-- The snapshot unit (R388 to R394, R432, R445). -/
structure Snap where
  phase : SnapPhase
  entry : Nat
  test : Bool
  inserted : Bool
  forced : Bool
  force : Bool
  cap : Capture
  slot : Nat
  seq : Nat
  valid : Bool
  lastNc : Nat
  lastSteps : Tab Nat
  captureStep : Nat
  outcome : Nat
  restoreAddr : DWord
  due : List Nat
  waiting : List HeldWrite
  blocked : Bool
  deriving DecidableEq, Repr, Inhabited

/-- A firmware slot of the non-volatile store (R398, R405). -/
inductive FwSlot where
  | factory
  | written (bytes : List Byte)
  | absent
  deriving DecidableEq, Repr, Inhabited

/-- A key slot (R408). -/
inductive KeySlot where
  | empty
  | manufacturer
  | key (x y : Nat)
  | revoked
  deriving DecidableEq, Repr, Inhabited

/-- A face's stored aging (R357, R417): offset in 5 mV steps, FMAX reductions. -/
structure Aging where
  offset : Nat
  reductions : Nat
  deriving DecidableEq, Repr, Inhabited

/-- The non-volatile store (R405). -/
structure Nv where
  fwA : FwSlot
  fwB : FwSlot
  bootB : Bool
  keys : List KeySlot
  spare : SpareMap
  ledger : Nat
  aging : Tab Aging
  deriving DecidableEq, Repr, Inhabited

/-- The foreman (R398, R433). -/
structure Foreman where
  activeB : Bool
  healthy : Bool
  update : Nat
  inactiveOk : Bool
  restarts : Nat
  restarting : Bool
  trial : Bool
  restartTimes : List Nat
  fwAddr : DWord
  fwLen : Word
  baud : Nat
  /-- the first face that phase FACES of R406 has still to test -/
  bootNext : Nat
  deriving DecidableEq, Repr, Inhabited

/-- An event log record (R446). -/
structure LogRec where
  seq : Nat
  code : Nat
  working : Nat
  flags : Nat
  nc : Nat
  step : Nat
  arg0 : Nat
  arg1 : Nat
  deriving DecidableEq, Repr, Inhabited

/-- The event log: the number of the newest record, and the records held, newest first (R431). -/
structure EventLog where
  head : Nat
  recs : List LogRec
  deriving DecidableEq, Repr, Inhabited

/-- One thing that the monitor sends (R437 to R448): the echo of a character, a register with its offset, a
face's status line, a log record or its absence, a challenge, a command word of `help`, a line whose values the spec
gives and whose layout it leaves open (by the index of its command and its line), the final line, the prompt, and the
line sent after a restart. `Machine/Monitor.lean` gives the text of each. -/
inductive MonOut where
  | echo (c : Byte)
  | reg (off v : Nat)
  | face (n : Nat) (stat m : Nat) (deg : Int)
  | record (r : LogRec)
  | gone (seq : Nat)
  | challenge (c : Nat)
  | word (i : Nat)
  | values (index line : Nat) (vs : List Int)
  | ok
  | err (code : Nat)
  | prompt
  | ready (b : Bool)
  deriving DecidableEq, Repr, Inhabited

/-- A read that a monitor command still has to make (R439, R440). -/
inductive MonRead where
  | reg (off : Nat)
  | face (n : Nat)
  | image
  deriving DecidableEq, Repr, Inhabited

/-- The serial monitor (R436 to R448): the line so far, a complete line whose command is still to be carried out,
characters held while a command runs, register reads still to be made and whether the final line is owed once the
waiting accesses complete, the session, the armed faults, and what the last event made the monitor send. -/
structure Monitor where
  line : List Byte
  overlong : Bool
  lastCr : Bool
  command : Option (List Byte)
  hold : List Byte
  unlocked : Bool
  challenge : Option Word
  withheld : Bool
  armed : List InjectKind
  reads : List MonRead
  owed : Bool
  out : List MonOut
  deriving DecidableEq, Repr, Inhabited

/-- The yard (R369 to R371, R425). Words and lines are numbered from the first byte of the yard. -/
structure Yard where
  mem : Mem
  poison : List Nat
  cleared : Bool
  corr : Nat
  uncorr : Nat
  lastBank : Nat
  lastLine : Nat
  lastUncorr : Bool
  swzRegion : Nat
  times : Tab (List Nat)
  migrating : Tab Nat
  /-- banks whose migration an injected error began (R444) -/
  injected : List Nat
  deriving DecidableEq, Repr, Inhabited

end Sys2Proof.Machine
end

