-- ==== Sys2Proof/Machine/Formats.lean ====
section
/-! DEFINITION. The engine's formats: E8M0 scales, MX elements and blocks, G40, E128 and W8 (R29 to R47),
pockets and their products (R48 to R56), and the two folds (R59, R63). -/

namespace Sys2Proof.Machine

/-- The exponent of an E8M0 code; `none` for NaN (R29). -/
def scaleExp (s : Nat) : Option Int := if s % 256 = 0xFF then none else some ((s % 256 : Nat) - 127)

/-- The element format of a type code 0 to 2 of R32. -/
def mxFmt (type : Nat) : Fmt :=
  if type = 0 then fmtE4M3 else if type = 1 then fmtE5M2 else fmtE2M1

/-- The unscaled value of an element code of type 0 to 4 (R27, R32). -/
def elemVal (type c : Nat) : Val :=
  if type = 3 then bf16 c else if type = 4 then f32 c else (mxFmt type).decode c

/-- A type of R32 takes block scales: MXE4M3, MXE5M2 and MXE2M1. -/
def isMx (type : Nat) : Bool := decide (type ≤ 2)

/-- The value of an element with its block's scale (R29). BF16 and FP32 have none. -/
def elemScaled (type c s : Nat) : Val :=
  if isMx type then
    match scaleExp s with
    | none => .nan
    | some x => (elemVal type c).mul (.num 1 x)
  else elemVal type c

/-- MXE2M1 widened to MXE4M3 (`to5` false) or MXE5M2 (R47). -/
def widenCode (to5 : Bool) (c : Nat) : Nat :=
  let t4 := [0x00, 0x30, 0x38, 0x3C, 0x40, 0x44, 0x48, 0x4C]
  let t5 := [0x00, 0x38, 0x3C, 0x3E, 0x40, 0x42, 0x44, 0x46]
  nth 0 (if to5 then t5 else t4) (c % 8) + (if bit c 3 then 0x80 else 0)

/-- A stored format is wider than a declared one (R46). -/
def widerThan (stored declared : Nat) : Bool :=
  !(stored == declared || declared == 3 || (stored == 2 && declared != 2))

/-- The result of a block conversion: the scale code, the element codes and the flags. -/
structure MxBlock where
  scale : Nat
  codes : List Nat
  fl : Nat
  deriving DecidableEq, Repr, Inhabited

/-- The largest exponent of an MX type (R45). -/
def mxEmax (type : Nat) : Int := if type = 0 then 8 else if type = 1 then 15 else 2

/-- One element of a block conversion under the scale exponent `s` (R45, R43): code and flags. -/
def mxElem (type : Nat) (s : Int) (low high : Bool) (v : Val) : Nat × Nat :=
  let r := (mxFmt type).encode (v.mul (.num 1 (-s)))
  let zero := r.code % 2 ^ ((mxFmt type).ew + (mxFmt type).fw) == 0
  if zero then (0, if low && !v.isZero then flUfl else 0)
  else (r.code, if high && (r.fl &&& flOvf != 0) then flOvf else 0)

/-- MX block conversion (R45). -/
def mxBlock (type : Nat) (vs : List Val) : MxBlock :=
  if vs.any Val.isNan then { scale := 0xFF, codes := vs.map (fun _ => 0), fl := flNan }
  else
    let m := vs.foldl Val.maxAbs Val.zero
    if m.isZero then { scale := 0x7F, codes := vs.map (fun _ => 0), fl := 0 }
    else
      let s0 := m.log2 - mxEmax type
      let low := decide (s0 < -127)
      let high := decide (s0 > 127)
      let s := min (max s0 (-127)) 127
      let es := vs.map (mxElem type s low high)
      { scale := (s + 127).toNat, codes := es.map Prod.fst,
        fl := es.foldl (fun a e => a ||| e.2) 0 }

/-- The value of a G40 word (R33). -/
def g40Val (w : Nat) : Val :=
  let e := bits w 38 29
  if e = 0 then Val.zero
  else if e = 0x3FF then .nan
  else
    let m : Int := (2 ^ 29 + w % 2 ^ 29 : Nat)
    .num (if bit w 39 then -m else m) ((e : Int) - 540)

/-- One rounding to G40 (R33, R38, R39, R43). -/
def toG40 : Val → Fp
  | .nan => { code := 0x7FE0000000, fl := flNan }
  | .num m e =>
    if m = 0 then { code := 0, fl := 0 }
    else
      let q := topBit m e - 29
      let r := (rneAt m.natAbs e q).toNat
      let q' := if r = 2 ^ 30 then q + 1 else q
      let r' := if r = 2 ^ 30 then 2 ^ 29 else r
      let sign := if m < 0 then 2 ^ 39 else 0
      if q' + 29 < -510 then { code := 0, fl := flUfl }
      else if q' + 29 > 511 then { code := sign + 0x7FDFFFFFFF, fl := flOvf }
      else { code := sign + (q' + 540).toNat * 2 ^ 29 + (r' - 2 ^ 29), fl := 0 }

/-- The value of an E128 element (R35): 112 bits of significand below a 16-bit anchor. -/
def e128Val (w : Nat) : Val :=
  let a := w / 2 ^ 112 % 2 ^ 16
  if a = 0x8000 then .nan else .num (signed (w % 2 ^ 112) 112) (signed a 16)

/-- The 16-byte code of a significand and an anchor (R35). -/
def e128Code (s a : Int) : Nat := unsigned s 112 + unsigned a 16 * 2 ^ 112

/-- The significand and anchor without trailing zero bits, `k` halvings at most. -/
def dropZeros : Nat → Int → Int → Int × Int
  | 0, m, e => (m, e)
  | k + 1, m, e => if m % 2 = 0 then dropZeros k (m / 2) (e + 1) else (m, e)

/-- The canonical form of an exact value (R63): the code, and whether a nonzero bit was lost. -/
def toE128 : Val → Nat × Bool
  | .nan => (0x8000 * 2 ^ 112, false)
  | .num m e =>
    if m = 0 then (0, false)
    else
      let (s, a) := dropZeros (Nat.log2 m.natAbs + 1) m e
      if s.natAbs < 2 ^ 111 then (e128Code s a, false)
      else
        let q := topBit s a - 110
        let r := rneAt s a q
        let q' := if r.natAbs < 2 ^ 111 then q else q + 1
        let (s', a') := dropZeros 112 (rneAt s a q') q'
        (e128Code s' a', lostAt s a q')

/-- A G40 element as a promotion writes it (R44): S = ±(2²⁹ + f), A = e − 540. -/
def promoteG40 (w : Nat) : Nat :=
  match g40Val w with
  | .nan => 0x8000 * 2 ^ 112
  | .num m e => if m = 0 then 0 else e128Code m e

/-- The W8 code of an exact value under the scale e_w (R37): the code, and the residual as a value. -/
def toW8 (v : Val) (ew : Nat) : Nat × Val :=
  match v with
  | .nan => (0x80, .nan)
  | .num m e =>
    let x : Int := (ew : Int) - 127
    let q := min (max (rneAt m e x) (-127)) 127
    (unsigned q 8, v.add (.num (-q) x))

/-- The value of a W8 code under the scale e_w (R37). -/
def w8Val (c ew : Nat) : Val :=
  if c % 256 = 0x80 then .nan else .num (signed (c % 256) 8) ((ew : Int) - 127)

/-- A pocket with nothing in it, anchored at 2^e. -/
def Pocket.start (e : Int) : Pocket := { w := 0, e := e, nan := false }

end Sys2Proof.Machine
end

