-- ==== Sys2Proof/Machine/State.lean ====
section
/-! DEFINITION. The machine's state, its faults and refusals, and the state after reset. -/

namespace Sys2Proof.Machine

/-- Why a step can stop the machine. -/
inductive Fault where
  /-- A command names a byte outside the yard (R114, R176: yard offsets lie below 402,653,184). Raised
  by the commands on yard words. Safe: the spec gives no such byte. -/
  | yardHole (addr : Nat)
  deriving DecidableEq, Repr

/-- Why a step can refuse a command. -/
inductive Refusal where
  /-- The command has no meaning yet. Raised by `exec` alone. Safe. -/
  | notModelled (mnemonic : String)
  deriving DecidableEq, Repr

/-- The machine's state: everything the spec gives the block, and the queue of waiting commands. -/
structure State where
  /-- commands that wait, first in, first out -/
  pending : List Instr
  /-- the model's own counter: free values are applied to it (log entry 4) -/
  fresh : Nat
  /-- the supply and clock of the night domain (R402, R403) -/
  supply : Supply
  /-- the night-cycle counter (R424) -/
  nc : Nat
  glb : Glb
  /-- clock states by `Tile.key`; OFF when not listed (R331, R333) -/
  tiles : Tab ClkState
  faces : Tab Face
  /-- by face·4 + logical bench -/
  benches : Tab Bench
  kilns : Tab Kiln
  yard : Yard
  /-- the bytes of fabric memory that the engine has written -/
  fabric : Mem
  image : Option Image
  /-- the configuration digest of R389 -/
  cfgDigest : List Byte
  load : LoadState
  tables : Tables
  /-- entries that the checks made at load refuse (R186, R450) -/
  refused : Tab CutRefusal
  tallies : Tab Nat
  apertureErr : Nat
  working : Tab Working
  cuts : Tab CutRun
  seams : Tab Seam
  /-- results of X-cuts held, by region: the X-cut's entry (R316) -/
  results : Tab Nat
  /-- promotion slots in use, by working·4096 + slot: the tile's header address (R61) -/
  slots : Tab Nat
  hoists : Tab Hoist
  tpbs : Tab Tpb
  tileSlots : Tab (List TileSlot)
  /-- parity errors by face: kiln (R277) and derivative unit (R217) -/
  klnPerr : Tab Nat
  drvPerr : Tab Nat
  ports : Tab Port
  xruns : Tab XRun
  aruns : Tab ARun
  /-- units without spares, by kind·16 + number (R446) -/
  units : Tab UnitState
  surge : Surge
  cross : Tab CrossGroup
  /-- sensors by index s of TEMP[s] (R424), °C -/
  temps : Tab Int
  /-- some sensor last read above 100 °C (R359) -/
  hot : Bool
  health : Health
  spare : SpareMap
  fills : Fills
  snap : Snap
  nv : Nv
  foreman : Foreman
  log : EventLog
  monitor : Monitor
  /-- register pairs, by requester and offset of the low half (R8) -/
  pairs : Tab PairSide
  bus : Bus
  /-- data paths recorded as stalled on a sleeping domain (R346) -/
  stalls : List (Nat × Tile)
  /-- effective steps of plans that move to their ALT, by plan index (R329) -/
  moves : Tab Nat
  /-- tally writes that wait for the yard, by tally and amount (R23) -/
  tallyWait : List (Nat × Nat)
  deriving DecidableEq, Repr

/-- GLB after POWER-ON (R422). -/
def Glb.reset : Glb :=
  { sleepReq := 0, asleep := 0, tripped := false, cause := 0, boot := 0,
    ready := false, stockfail := false, evt := 0, evtEn := 0, preempt := 0, resetHeld := false }

/-- A face after reset (R424, R434). The thermal ceiling starts at 2.0 GHz (R358). -/
def Face.reset : Face :=
  { role := .spare, working := 0, position := 0, fill := 0, benches := 0, reduced := false,
    serves := 0x7F, acc := 0, chk := 0x41, econBits := 0, unchk := [], reloc := [], frz := [],
    req := 0, cap := 16, freq := 0, ceiling := 16, imgFmax := 16, imgVoff := 0, fmaxReg := 0,
    voffReg := 0, heat := false, stretched := false, mismatches := [], deg := 0,
    econTemp := false, econSince := none, coolSince := none, hotSince := none }

/-- The spare map of the first power-on: the identity and no retirement (R410). -/
def SpareMap.identity : SpareMap :=
  { lanes := [], laneUsed := [], benchMap := [], benchRet := [], faceRet := [], faceFailed := [],
    facePlace := [], bankMap := [], bankRet := [], bufMap := [], bufRet := [], laneSpare := [],
    unitRet := [] }

/-- The non-volatile store as manufactured (R405, R408): both firmware slots hold the factory image and
slot 0 of the key store holds Aethoiken's key (log entry 5). -/
def Nv.factory : Nv :=
  { fwA := .factory, fwB := .factory, bootB := false,
    keys := [.manufacturer, .empty, .empty, .empty], spare := SpareMap.identity, ledger := 0,
    aging := [] }

/-- The yard after reset (R425): nothing listed. -/
def Yard.reset : Yard :=
  { mem := [], poison := [], cleared := false, corr := 0, uncorr := 0, lastBank := 0, lastLine := 0,
    lastUncorr := false, swzRegion := 0, times := [], migrating := [], injected := [] }

/-- The load path after reset (R427). -/
def LoadState.reset : LoadState :=
  { phase := .idle, addr := 0, code := 0, reason := 0, ignored := 0, staged := none }

/-- The capture buffer, empty (R389). -/
def Capture.empty : Capture :=
  { tallies := [], steps := [], hoists := [], heads := [], digest := [], nc := 0 }

/-- The snapshot unit after reset (R432). -/
def Snap.reset : Snap :=
  { phase := .idle, entry := 0, test := false, inserted := false, forced := false, force := false,
    cap := Capture.empty, slot := 0, seq := 0, valid := false, lastNc := 0, lastSteps := [],
    captureStep := 0, outcome := 0, restoreAddr := 0, due := [], waiting := [], blocked := false }

/-- The loaded tables after reset: none (R429). -/
def Tables.reset : Tables :=
  { bank0 := { drv := [], kiln := none }, bank1 := { drv := [], kiln := none }, drvCur := false,
    kilnCur := false }

/-- Surge accounting after reset (R424). -/
def Surge.reset : Surge :=
  { en := false, withdrawn := false, permitted := true, buckets := [0], ledger := 0, stored := 0,
    droops := 0 }

/-- The foreman after reset (R433): 115,200 baud. -/
def Foreman.reset : Foreman :=
  { activeB := false, healthy := false, update := 0, inactiveOk := false, restarts := 0,
    restarting := false, trial := false, restartTimes := [], fwAddr := 0, fwLen := 0, baud := 1152,
    bootNext := 0 }

/-- The monitor after reset: locked (R442). -/
def Monitor.reset : Monitor :=
  { line := [], overlong := false, lastCr := false, command := none, hold := [], unlocked := false,
    challenge := none, withheld := false, armed := [], reads := [], owed := false, out := [] }

/-- The register front end after reset. -/
def Bus.reset : Bus :=
  { hostData := 0, foremanData := 0, waiting := [], hostErrors := 0, foremanErrors := 0 }

/-- The machine right after the POWER-ON reset, in phase POR of R406: every register at its Reset
column, memory with nothing listed, the store as manufactured. -/
def State.reset : State :=
  { pending := [], fresh := 0, supply := .good, nc := 0, glb := Glb.reset, tiles := [(106, .nap)],
    faces := [], benches := [], kilns := [], yard := Yard.reset, fabric := [], image := none,
    cfgDigest := [], load := LoadState.reset, tables := Tables.reset, refused := [], tallies := [],
    apertureErr := 0, working := [], cuts := [], seams := [], results := [], slots := [],
    hoists := [], tpbs := [], tileSlots := [], klnPerr := [], drvPerr := [], ports := [],
    xruns := [], aruns := [], units := [], surge := Surge.reset, cross := [], temps := [],
    hot := false,
    health := { score := 0, pending := false, thr := 8192, inputs := [], logSel := 0 },
    spare := SpareMap.identity, fills := { queue := [], waiting := [], adopted := [] },
    snap := Snap.reset, nv := Nv.factory, foreman := Foreman.reset, log := { head := 0, recs := [] },
    monitor := Monitor.reset, pairs := [], bus := Bus.reset, stalls := [], moves := [], tallyWait := [] }

end Sys2Proof.Machine
end

