-- ==== Sys2Proof/Machine/Ops.lean ====
section
/-! DEFINITION. The named operations over the parts of the state: reading and updating one part, event
flags and the event log, the risk estimate, tile clocks, tallies and cut records. -/

namespace Sys2Proof.Machine

/-! ### What every meaning shares -/

/-- The effect `f` of a command while the night domain has its supply and clock; without them nothing runs
(R403: the engine does not run on any substitute clock). -/
def State.on (s : State) (f : State → State) : Host.Outcome State Fault Refusal :=
  .next (if s.supply = .good then f s else s)

/-! ### Parts with their reset values -/

/-- An idle pocket. -/
def Pocket.zero : Pocket := { w := 0, e := 0, nan := false }

/-- A feeder side that holds nothing. -/
def FeederSide.empty : FeederSide :=
  { tag := none, full := false, held := false, wide := false, load := { lanes := [], scales := [] } }

/-- Checking as CHK_MODE resets: COL with one replay (R90, R434). -/
def ChkMode.reset : ChkMode := { col := true, row := false, replays := 1, pair := false }

/-- A bench that no cut holds. -/
def Bench.reset : Bench :=
  { cut := none, work := [], cur := none, taken := false, activeB := false, feedA := FeederSide.empty,
    feedB := FeederSide.empty, preamble := [], sigma := [], nextPre := none, nextSigma := [],
    pockets := [], group := 0, pocket := 0, span := false, econ := false,
    chk := ChkMode.reset, frozen := none, shadow := none, replays := 0, stopped := false,
    saved := none, savedTags := (none, none), yielded := none }

/-- A working after reset: stopped at step 0 (R427). -/
def Working.reset : Working :=
  { seq := .stopped, step := 0, isOpen := false, first := true, restored := false, held := false }

/-- A wait or tally that names none (R183). -/
def DoneDesc.none : DoneDesc := { idx := 0xFFFF, add := 0 }

/-- An empty schedule entry (R179). -/
def CutDesc.empty : CutDesc :=
  { kind := 0, working := 0, index := 0, yields := false, release := false, onRestore := false,
    period := 1, phase := 0, benches := 0, split := 1, passL := 1, passJ := 1, faces := 0, waits := [],
    dones := [], progress := DoneDesc.none, hoists := [], maps := [], bind := [], axR := 1, axP := 1,
    axL := 1, axB0 := 1, axB1 := 1, pTile := 1, lTile := 1, pPadLo := 0, pPadHi := 0, lPadLo := 0,
    lPadHi := 0, shMode := 0, shBuf := 0, shV := 8, shRanges := 1, stMode := 0, stBuf := 0,
    stScale := 0, decl := 0, walkMode := 0, walk := [], area := .empty }

/-- A schedule entry that has not run. -/
def CutRun.reset : CutRun :=
  { phase := .idle, status := 0, step := 0, flags := 0, startNc := 0, endNc := 0, dropped := 0,
    maxFolds := 0, replays := 0, detaches := 0, detailMap := 0xFFFF, detailAux := 0, kd0 := 0,
    kd1 := 0, kd2 := 0, kd3 := 0, runs := 0, desc := CutDesc.empty, maps := [], items := 0, done := [],
    published := 0, metNc := none, priv := [], freeze := [], hyper := [], scales := [], passes := 0,
    bank := none, banks := [], parity := [], faults := 0, trees := [], moved := [], slices := [], peer := none
    awaiting := [], kept := [] }

/-- A kiln after reset. -/
def Kiln.reset : Kiln := { byKey := [], byQuery := [], seen := [], block := none, fl := 0 }

/-- A buffer's counters after reset (R429). -/
def Tpb.reset : Tpb :=
  { stallIn := 0, stallDest := 0, stallSlots := 0, stallWake := 0, corr := 0, uncorr := 0, sumErr := 0 }

/-- A hoist after reset: no template (R426). -/
def Hoist.reset : Hoist :=
  { tmpl := none, cut := none, st := .none, k := 0, pos := 0, occ := 0, attached := 0, taken := [],
    detachedTo := [], source := none, timer := 0, detaches := 0, reqs := [], nextSeq := 0,
    deliver := 0, out := [], errRd := 0, errWr := 0, spCorr := 0, spUncorr := 0,
    bytes := 0, parked := [], parkedCount := 0, sleepStall := false, badRearm := false,
    ended := false, mark := 0 }

/-- A virtual channel after reset. -/
def Channel.reset : Channel :=
  { tx := [], rx := [], sent := 0, peerFreed := 0, freed := 0, accepted := none, discarding := false,
    sending := none }

/-- A module bay after reset (R430). -/
def Module.reset : Module :=
  { present := false, flagged := false, identity := [], selecting := false, refBias := [], rise := [],
    age := [], retired := [], spareFor := 0xF }

/-- A port after reset (R430). -/
def Port.reset : Port :=
  { st := .disabled, chans := [], rxNext := 0, txNext := 0, replay := [], resend := none,
    retry := false, waiting := false, rxCtl := [], txCtl := [], helloSeq := none, helloAcked := false,
    helloGood := false, turn := 0, credTurn := 0, fails := 0, retryTimes := [], retryTx := 0,
    retryRx := 0, retrains := 0, discards := 0, peer := 0, drained := false, half := false, trained := false,
    lastTx := [], module := Module.reset }

/-- A unit without a spare after reset (R429). -/
def UnitState.reset : UnitState :=
  { retired := false, busy := none, working := 0, faults := 0, count := 0, cutFaults := 0 }

/-- The reset value of CROSS_MODE[g] (R424): group 0 is PACED, PACE_DELAY 3. -/
def CrossGroup.reset (g : Nat) : CrossGroup :=
  { mode := { paced := g == 0, expert := false, paceDelay3 := true, syncStages := 0 }, asked := none,
    forced := false }

/-- Face `n`. -/
def State.face (s : State) (n : Nat) : Face := Tab.get Face.reset s.faces n
/-- The state with face `n` changed. -/
def State.modFace (s : State) (n : Nat) (f : Face → Face) : State :=
  { s with faces := Tab.update Face.reset s.faces n f }
/-- Logical bench `b` of face `n`. -/
def State.bench (s : State) (n b : Nat) : Bench := Tab.get Bench.reset s.benches (n * 4 + b)
/-- The state with a bench changed. -/
def State.modBench (s : State) (n b : Nat) (f : Bench → Bench) : State :=
  { s with benches := Tab.update Bench.reset s.benches (n * 4 + b) f }
/-- Working `w`. -/
def State.work (s : State) (w : Nat) : Working := Tab.get Working.reset s.working w
/-- The state with working `w` changed. -/
def State.modWork (s : State) (w : Nat) (f : Working → Working) : State :=
  { s with working := Tab.update Working.reset s.working w f }
/-- Schedule entry `e`. -/
def State.cut (s : State) (e : Nat) : CutRun := Tab.get CutRun.reset s.cuts e
/-- The state with schedule entry `e` changed. -/
def State.modCut (s : State) (e : Nat) (f : CutRun → CutRun) : State :=
  { s with cuts := Tab.update CutRun.reset s.cuts e f }
/-- Hoist `h`. -/
def State.hoist (s : State) (h : Nat) : Hoist := Tab.get Hoist.reset s.hoists h
/-- The state with hoist `h` changed. -/
def State.modHoist (s : State) (h : Nat) (f : Hoist → Hoist) : State :=
  { s with hoists := Tab.update Hoist.reset s.hoists h f }
/-- Port `p`. -/
def State.port (s : State) (p : Nat) : Port := Tab.get Port.reset s.ports p
/-- The state with port `p` changed. -/
def State.modPort (s : State) (p : Nat) (f : Port → Port) : State :=
  { s with ports := Tab.update Port.reset s.ports p f }
/-- Channel `v` of a port. -/
def Port.chan (q : Port) (v : Nat) : Channel := Tab.get Channel.reset q.chans v
/-- The port with channel `v` changed. -/
def Port.modChan (q : Port) (v : Nat) (f : Channel → Channel) : Port :=
  { q with chans := Tab.update Channel.reset q.chans v f }
/-- The unit of a kind of R446 with a number. -/
def State.unit (s : State) (kind n : Nat) : UnitState := Tab.get UnitState.reset s.units (kind * 16 + n)
/-- The state with a unit changed. -/
def State.modUnit (s : State) (kind n : Nat) (f : UnitState → UnitState) : State :=
  { s with units := Tab.update UnitState.reset s.units (kind * 16 + n) f }
/-- Crossing group `g`. -/
def State.crossing (s : State) (g : Nat) : CrossGroup := Tab.get (CrossGroup.reset g) s.cross g
/-- The state with crossing group `g` changed. -/
def State.modCross (s : State) (g : Nat) (f : CrossGroup → CrossGroup) : State :=
  { s with cross := Tab.set s.cross g (f (s.crossing g)) }
/-- Physical buffer `j`. -/
def State.tpb (s : State) (j : Nat) : Tpb := Tab.get Tpb.reset s.tpbs j
/-- The state with a buffer's counters changed. -/
def State.modTpb (s : State) (j : Nat) (f : Tpb → Tpb) : State :=
  { s with tpbs := Tab.update Tpb.reset s.tpbs j f }

/-! ### Event flags, log and risk -/

/-- Bits of GLB.EVT (R422). -/
def evLoadDone : Nat := 0
/-- LOAD_REFUSED of GLB.EVT (R422). -/
def evLoadRefused : Nat := 1
/-- CUT_REFUSED of GLB.EVT (R422). -/
def evCutRefused : Nat := 2
/-- CUT_ATTN of GLB.EVT (R422). -/
def evCutAttn : Nat := 3
/-- TALLY_SAT of GLB.EVT (R422). -/
def evTallySat : Nat := 4
/-- HALT of GLB.EVT (R422). -/
def evHalt : Nat := 5
/-- SNAP of GLB.EVT (R422). -/
def evSnap : Nat := 6
/-- LINK of GLB.EVT (R422). -/
def evLink : Nat := 7
/-- MODULE of GLB.EVT (R422). -/
def evModule : Nat := 8
/-- SLEEPSTALL of GLB.EVT (R422). -/
def evSleepStall : Nat := 9
/-- CROSS of GLB.EVT (R422). -/
def evCross : Nat := 10
/-- THERMAL of GLB.EVT (R422). -/
def evThermal : Nat := 11
/-- TRIP of GLB.EVT (R422). -/
def evTrip : Nat := 12
/-- SURGE of GLB.EVT (R422). -/
def evSurge : Nat := 13
/-- DERATE of GLB.EVT (R422). -/
def evDerate : Nat := 14
/-- YARD of GLB.EVT (R422). -/
def evYard : Nat := 15
/-- LOCKW of GLB.EVT (R422). -/
def evLockw : Nat := 16
/-- RISK of GLB.EVT (R422). -/
def evRisk : Nat := 17
/-- RETIRE of GLB.EVT (R422). -/
def evRetire : Nat := 18
/-- FMN of GLB.EVT (R422). -/
def evFmn : Nat := 19

/-- The state with GLB changed. -/
def State.modGlb (s : State) (f : Glb → Glb) : State := { s with glb := f s.glb }

/-- GLB.EVT with bit `i` set. -/
def State.setEvt (s : State) (i : Nat) : State :=
  s.modGlb (fun g => { g with evt := g.evt ||| BitVec.ofNat 32 (2 ^ i) })

/-- The event output to the N6 (R423). -/
def State.eventOut (s : State) : Bool := s.glb.evt &&& s.glb.evtEn != 0

/-- Working number of a log record for no working (R446). -/
def noWorking : Nat := 0xFF

/-- The state with one more event log record (R431, R446), newest first. `flags` has [0] INJECTED and
[1] MONITOR. -/
def State.logRec (s : State) (code w flags arg0 arg1 : Nat) : State :=
  let step := if w = noWorking then 0 else (s.work w).step
  let r : LogRec :=
    { seq := s.log.head + 1, code := code, working := w, flags := flags, nc := s.nc, step := step,
      arg0 := arg0 % 2 ^ 32, arg1 := arg1 % 2 ^ 32 }
  { s with log := { head := s.log.head + 1, recs := (r :: s.log.recs).take Config.logDepth } }

/-- A log record of no working and with no flag. -/
def State.logEvt (s : State) (code arg0 arg1 : Nat) : State := s.logRec code noWorking 0 arg0 arg1

/-- The RISK part in force, if an image gives one. -/
def State.riskPart (s : State) : Option RiskPart :=
  match s.image with
  | some i => match i.modes with
    | some m => m.risk
    | none => none
  | none => none

/-- Basic weights of the health model (R385). -/
def basicWeights : List Nat := [64, 512, 8, 1024, 2048, 256, 128, 512]

/-- Weight of input `i` (R385, R387). -/
def State.riskWeight (s : State) (i : Nat) : Nat :=
  match s.riskPart with
  | some r => if r.preset = 3 then nth 0 r.weights i else nth 0 basicWeights i
  | none => nth 0 basicWeights i

/-- DECAY_SHIFT in force (R387). -/
def State.riskShift (s : State) : Nat :=
  match s.riskPart with
  | some r => if r.preset = 3 then r.decayShift else 3
  | none => 3

/-- A pending snapshot request (R386). -/
def State.setPending (s : State) : State :=
  ({ s with health := { s.health with pending := true } }.setEvt evRisk).logEvt 0x0402
    s.health.score s.health.thr

/-- The risk estimate raised by `k`, saturating; a rise to the threshold from below sets a pending
request (R385, R386). -/
def State.riskAdd (s : State) (k : Nat) : State :=
  let old := s.health.score
  let new := min (old + k) 65535
  let s1 : State := { s with health := { s.health with score := new } }
  if old < s.health.thr ∧ s.health.thr ≤ new ∧ ¬ s.health.pending = true then s1.setPending else s1

/-- `k` occurrences of input `i` of the health model (R385). -/
def State.healthEvent (s : State) (i k : Nat) : State :=
  ({ s with health := { s.health with
      inputs := Tab.update 0 s.health.inputs i (fun n => satAdd 32 n k) } }).riskAdd (k * s.riskWeight i)

/-! ### Tiles -/

/-- The number of a tile in `State.tiles`. -/
def tileKey : Tile → Nat
  | .face n => n.val
  | .yard => 72
  | .buffer k => 80 + k.val
  | .dresser d => 88 + d.val
  | .selector i => 92 + i.val
  | .drain => 96
  | .digest => 97
  | .sluice p => 98 + p.val
  | .link p => 102 + p.val
  | .fabric => 106

/-- The number of the yard's tile. -/
def yardTile : Nat := 72
/-- The number of the fabric ports' tile. -/
def fabricTile : Nat := 106

/-- The clock state of the tile with a number. -/
def State.clk (s : State) (k : Nat) : ClkState := Tab.get .off s.tiles k

/-- The state with a tile's clock state set. -/
def State.setClk (s : State) (k : Nat) (c : ClkState) : State := { s with tiles := Tab.set s.tiles k c }

/-- The clock code of PWR_FACE.STATE: 0 RUN, 1 NAP, 2 OFF (R424). -/
def clkCode : ClkState → Nat
  | .run => 0
  | .nap => 1
  | .wakingNap => 1
  | .off => 2
  | .wakingOff => 2

/-- A tile in RUN. -/
def State.running (s : State) (k : Nat) : Bool := s.clk k == .run

/-- A wake request for a tile (R336). A tile in RUN, or already waking, is not changed. -/
def State.wake (s : State) (k : Nat) : State :=
  match s.clk k with
  | .nap => s.setClk k .wakingNap
  | .off => s.setClk k .wakingOff
  | _ => s

/-- Wake requests for the tiles of a list. -/
def State.wakeAll (s : State) (ks : List Nat) : State := ks.foldl State.wake s

/-! ### The image in force -/

/-- CUTS of the image in force; 0 without one. -/
def State.cutCount (s : State) : Nat :=
  match s.image with
  | some i => i.header.cuts
  | none => 0

/-- WORKINGS of the image in force; 0 without one. -/
def State.workCount (s : State) : Nat :=
  match s.image with
  | some i => i.header.workings
  | none => 0

/-- The descriptor of entry `e` in the image in force. -/
def State.descOf (s : State) (e : Nat) : CutDesc :=
  match s.image with
  | some i => Tab.get CutDesc.empty i.cuts e
  | none => CutDesc.empty

/-- The clock part of MODES in force. -/
def State.clkPart (s : State) : Option ClkPart :=
  match s.image with
  | some i => match i.modes with
    | some m => m.clk
    | none => none
  | none => none

/-- The SNAP part of MODES in force. -/
def State.snapPart (s : State) : Option SnapPart :=
  match s.image with
  | some i => match i.modes with
    | some m => m.snap
    | none => none
  | none => none

/-- REF_WORKING of the image in force (R399). -/
def State.refWorking (s : State) : Nat :=
  match s.snapPart with
  | some p => p.refWorking
  | none => 0

/-- The promotion reserve region of a working, if it has one (R177). -/
def Image.regionOf (i : Image) (w purpose : Nat) : Option Region :=
  (i.regions.find? (fun e => e.2.working == w && e.2.purpose == purpose)).map Prod.snd

/-- Faces of a working, ascending (R175). -/
def Image.workingFaces (i : Image) (w : Nat) : List Nat :=
  match Tab.find i.workings w with
  | some e => bitList e.faces 72
  | none => []

/-! ### Faces: the physical face that holds a face id's place -/

/-- The face that serves face `n`'s place (R373, R376): the spare that filled it, or `n` itself. -/
def State.placeOf (s : State) (n : Nat) : Nat := Tab.get n s.spare.facePlace n

/-- Physical bench of logical bench `b` of face `n` (R89, R434). -/
def State.physBench (s : State) (n b : Nat) : Nat := Tab.get b s.spare.benchMap (n * 4 + b)

/-- The spare-map key of a lane (R71, R373). -/
def laneKey (face phys lane : Nat) : Nat := (face * 5 + phys) * 512 + lane

/-- Physical lane of logical lane `l` on a bench (R71). -/
def State.physLane (s : State) (face phys lane : Nat) : Nat :=
  Tab.get lane s.spare.lanes (laneKey face phys lane)

/-- Free spare lanes of a physical bench, of 2 (R372). -/
def State.freeLanes (s : State) (face phys : Nat) : Nat :=
  2 - Tab.get 0 s.spare.laneUsed (face * 5 + phys)

/-- A physical bench is retired (R373). -/
def State.benchRetired (s : State) (face phys : Nat) : Bool :=
  bit (Tab.get 0 s.spare.benchRet face) phys

/-- A face is recorded as retired or failed (R373). -/
def State.faceGone (s : State) (n : Nat) : Bool :=
  s.spare.faceRet.contains n || s.spare.faceFailed.contains n

/-! ### Tallies -/

/-- Tally `i` (R187). -/
def State.tally (s : State) (i : Nat) : Nat := Tab.get 0 s.tallies i

/-- `k` added to tally `i`, saturating; saturation sets GLB.EVT.TALLY_SAT and is logged (R187). -/
def State.tallyAdd (s : State) (i k : Nat) : State :=
  let old := s.tally i
  let new := satAdd 64 old k
  let s1 : State := { s with tallies := Tab.set s.tallies i new }
  if old + k > 2 ^ 64 - 1 then (s1.setEvt evTallySat).logEvt 0x0705 i 0 else s1

/-- A tally or DONE entry that may name none (R183). -/
def State.tallyDone (s : State) (d : DoneDesc) : State :=
  if d.idx = 0xFFFF then s else s.tallyAdd d.idx d.add

/-! ### Cut records -/

/-- Bytes of memory outside the engine, written through a fabric port. -/
def State.putFabric (s : State) (a : Nat) (bs : List Byte) : State :=
  { s with fabric := Mem.put s.fabric a bs }

/-- Address of entry `e`'s record for a step (R191). -/
def recordAddr (h : Header) (e step : Nat) : Nat :=
  h.recordBase + (e * h.recDepth + step % h.recDepth) * 64

/-- The 64 bytes of a record (R192). -/
def recordBytes (c : CutRun) : List Byte :=
  natLe c.status 1 ++ natLe c.desc.kind 1 ++ natLe c.desc.working 1 ++ natLe 0 1 ++
  natLe c.flags.toNat 4 ++ natLe c.step 8 ++ natLe c.startNc 8 ++ natLe c.endNc 8 ++
  natLe c.dropped 4 ++ natLe c.maxFolds 4 ++ natLe c.replays 2 ++ natLe c.detaches 2 ++
  natLe c.detailMap 2 ++ natLe c.detailAux 2 ++
  natLe c.kd0 4 ++ natLe c.kd1 4 ++ natLe c.kd2 4 ++ natLe c.kd3 4

/-- The complete record of entry `e` written to fabric memory (R191). -/
def State.writeRecord (s : State) (e : Nat) : State :=
  match s.image with
  | some i => s.putFabric (recordAddr i.header e (s.cut e).step) (recordBytes (s.cut e))
  | none => s

/-- A change of entry `e`'s status, written to its record (R15, R191). -/
def State.setStatus (s : State) (e code : Nat) : State :=
  let s1 := s.modCut e (fun c => { c with status := code })
  match s.image with
  | some i => s1.putFabric (recordAddr i.header e (s.cut e).step) (natLe code 1)
  | none => s1

/-- A fault aborts part of a running cut: its status is 0x41 until the replay starts (R15). -/
def State.awaitReplay (s : State) (e : Nat) (r : Replay) : State :=
  (s.modCut e (fun c => { c with awaiting := c.awaiting.filter (· != r) ++ [r] })).setStatus e 0x41

/-- Replays of a cut start; with none left to wait for, the status returns to 0x00 (R15). -/
def State.replayStarts (s : State) (e : Nat) (p : Replay → Bool) : State :=
  if (s.cut e).awaiting.any p then
    let s1 := s.modCut e (fun c => { c with awaiting := c.awaiting.filter (fun r => !p r) })
    if (s1.cut e).awaiting.isEmpty then s1.setStatus e 0 else s1
  else s

/-- Sticky flags of FLAGS set for entry `e` (R193). -/
def State.orFlags (s : State) (e k : Nat) : State :=
  s.modCut e (fun c => { c with flags := c.flags ||| BitVec.ofNat 32 k })

/-- One flag bit of FLAGS. -/
def flag (i : Nat) : Nat := 2 ^ i

/-- Entries of a working, ascending, below CUTS. -/
def State.entriesOf (s : State) (w : Nat) : List Nat :=
  (List.range s.cutCount).filter (fun e => (s.descOf e).kind != 0 && (s.descOf e).working == w)

/-- A cut runs: it has started and has not ended; a stopped cut is running for every other rule. -/
def CutRun.live (c : CutRun) : Bool := c.phase == .running || c.phase == .stopped

/-- Entries whose cut runs, ascending. -/
def State.liveCuts (s : State) : List Nat := (s.cuts.filter (fun e => e.2.live)).map Prod.fst

/-- Entries of a working whose cut runs. -/
def State.liveOf (s : State) (w : Nat) : List Nat :=
  s.liveCuts.filter (fun e => (s.cut e).desc.working == w)

end Sys2Proof.Machine
end

