-- ==== Sys2Proof/Machine/RegRead.lean ====
section
/-! DEFINITION. What a read of each register returns (R418 to R435), without the effects of pairs, waking
and timing, which `Machine/RegWrite.lean` adds. -/

namespace Sys2Proof.Machine

/-- The low `w` bits of `v`, at bit `lo`. -/
def fld (v lo w : Nat) : Nat := v % 2 ^ w * 2 ^ lo

/-- A signed field. -/
def sfld (v : Int) (lo w : Nat) : Nat := unsigned v w * 2 ^ lo

/-- Low and high halves of a 64-bit quantity. -/
def half (v : Nat) (hi : Bool) : Nat := if hi then v / 2 ^ 32 % 2 ^ 32 else v % 2 ^ 32

/-- The foreman has rebuilt the maps from the store (phase RESTORE of R406 is over). -/
def State.booted (s : State) : Bool := decide (3 ≤ s.glb.boot) && s.glb.boot != 0xF

/-- The clock of a tile is stopped while its state stays RUN: a trip stops every fast clock but those of
the links (R359), and heat stops a face's (R358). -/
def State.clockHeld (s : State) (k : Nat) : Bool :=
  (s.glb.tripped && !(decide (102 ≤ k) && decide (k ≤ 105))) || (decide (k < 72) && (s.face k).heat)

/-- A tile whose clock runs. -/
def State.active (s : State) (k : Nat) : Bool := s.running k && !s.clockHeld k

/-- The clock code a register shows: a clock that a trip or heat stops, supply on, shows as NAP (R333;
log entry 12). -/
def State.shownClk (s : State) (k : Nat) : Nat :=
  if s.running k && s.clockHeld k then 1 else clkCode (s.clk k)

/-- GLB.STAT.THROTTLED (R358): a face below 1.75 GHz for its thermal ceiling, a face clock stopped for heat, or a
sluice at half rate. -/
def State.throttled (s : State) : Bool :=
  s.faces.any (fun e => (decide (e.2.ceiling < 14) && decide (e.2.ceiling ≤ e.2.cap)) || e.2.heat) ||
  s.ports.any (fun e => e.2.half)

/-- GLB.STAT (R422). -/
def State.glbStat (s : State) : Nat :=
  fld s.glb.asleep 0 2 + fld (b2n s.throttled) 2 1 + fld (b2n s.glb.tripped) 3 1 +
  fld s.glb.cause 4 3 + fld s.glb.boot 8 4 + fld (b2n s.glb.ready) 12 1 +
  fld (b2n s.glb.stockfail) 13 1 + fld (b2n (s.load.phase != .idle)) 14 1 +
  fld (b2n s.image.isSome) 15 1

/-- Some face is in surge (R353). -/
def State.surging (s : State) : Bool :=
  s.faces.any (fun e => decide (14 < e.2.freq) && s.active e.1)

/-- W(c) of R354. -/
def State.surgeWindow (s : State) : Nat := s.surge.buckets.sum

/-- PWR_FACE[n] (R424). -/
def State.pwrFace (s : State) (n : Nat) : Nat :=
  let f := s.face n
  fld f.req 0 2 + fld f.cap 4 5 + fld (if s.active n then f.freq else 0) 9 5 +
  fld (s.shownClk n) 14 2 + fld f.fmaxReg 16 5 + sfld f.voffReg 24 6

/-- CROSS_MODE[g] (R424): the fields as last written, with PENDING while a change waits. -/
def State.crossMode (s : State) (g : Nat) : Nat :=
  let c := s.crossing g
  let m := c.asked.getD c.mode
  fld (b2n m.paced) 0 1 + fld (b2n m.expert) 1 1 + fld (b2n m.paceDelay3) 2 1 +
  fld m.syncStages 3 2 + fld (b2n c.asked.isSome) 8 1 + fld (b2n c.forced) 9 1

/-- The SIZE and mode of a region in the image in force (R425). -/
def State.regionSwz (s : State) (r : Nat) : Option Nat :=
  match s.image with
  | some i => (Tab.find i.regions r).map Region.swz
  | none => none

/-- Physical bank of logical bank `b` (R425). -/
def State.bankPhys (s : State) (b : Nat) : Nat := Tab.get b s.spare.bankMap b

/-- Spare banks (256 to 287) that no bank uses and that are not retired (R372). -/
def State.freeBanks (s : State) : List Nat :=
  ((List.range 32).map (256 + ·)).filter (fun k =>
    !(s.spare.bankRet.contains k) && !(s.spare.bankMap.any (fun e => e.2 == k)) &&
    !(s.yard.migrating.any (fun e => e.2 == k)))

/-- Code of HST_STATE.STATE (R426). -/
def hoistCode : HoistSt → Nat
  | .none => 0
  | .idle => 1
  | .stream => 2
  | .claim => 3
  | .dest => 4
  | .stopped => 5

/-- FLOOR of a hoist's template. -/
def Hoist.floor (h : Hoist) : Nat :=
  match h.tmpl with
  | some t => t.floor
  | none => 0

/-- The register at offset `o` of hoist `h` (R426). -/
def State.hoistReg (s : State) (h o : Nat) : Nat :=
  let x := s.hoist h
  match o with
  | 0x00 => fld (hoistCode x.st) 0 3 + fld (b2n x.sleepStall) 3 1 + fld x.attached 16 16
  | 0x04 => fld x.occ 0 13 + fld (x.occ - x.floor) 16 13
  | 0x08 => half x.pos false
  | 0x0C => half x.pos true
  | 0x10 => fld x.k 0 16
  | 0x14 => fld x.detaches 0 16
  | 0x18 => fld x.timer 0 25
  | 0x1C => fld x.errRd 0 8 + fld x.errWr 8 8 + fld x.spCorr 16 8 + fld x.spUncorr 24 8
  | 0x20 => half x.bytes false
  | 0x24 => half x.bytes true
  | 0x28 => fld x.parkedCount 0 32
  | _ => 0

/-- Code of WRK_CTL.STATE (R427). -/
def seqCode : SeqState → Nat
  | .stopped => 0
  | .running => 1
  | .stopping => 2
  | .halted => 3

/-- Bit `w` of GLB.PREEMPT. -/
def State.preempted (s : State) (w : Nat) : Bool := s.glb.preempt.getLsbD w

/-- A stopped bench of a cut has reached its stop point once its context is saved (R92, R93). -/
def State.atStop (s : State) (w : Nat) : Bool :=
  s.preempted w && (s.liveOf w).all (fun e => (s.cut e).phase == .stopped &&
    !(s.benches.any (fun b => b.2.cut == some e && b.2.stopped && b.2.cur.isSome)))

/-- WRK_CTL[w] (R427). -/
def State.wrkCtl (s : State) (w : Nat) : Nat :=
  fld (b2n ((s.work w).seq == .running)) 0 1 + fld (seqCode (s.work w).seq) 2 2 +
  fld (b2n (s.atStop w)) 4 1 + fld (s.liveOf w).length 16 12

/-- LOAD_STAT (R427). -/
def State.loadStat (s : State) : Nat :=
  fld s.load.code 0 8 + fld s.load.reason 8 4 + fld (b2n (s.load.phase != .idle)) 12 1 +
  fld s.load.ignored 16 16

/-- IMG_ID (R427). -/
def State.imgId (s : State) : Nat :=
  match s.image with
  | some i => i.header.imageId
  | none => 0

/-- IMG_VER (R427). -/
def State.imgVer (s : State) : Nat :=
  match s.image with
  | some i => i.header.imageVer
  | none => 0

/-- The image digest's bytes (R427). -/
def State.imgDigest (s : State) : List Byte :=
  match s.image with
  | some i => i.digest
  | none => []

/-- Physical buffers that are not retired (R112), ascending. -/
def State.healthyBufs (s : State) : List Nat :=
  (List.range 8).filter (fun j => !s.spare.bufRet.contains j)

/-- TPB_STAT.DEGRADED (R112). -/
def State.tpbDegraded (s : State) : Bool := decide (s.healthyBufs.length < 6)

/-- Physical buffer of logical buffer `k` (R111, R112): with fewer than 6 healthy buffers, the healthy ones
in turn. -/
def State.bufPhys (s : State) (k : Nat) : Nat :=
  if s.tpbDegraded then
    (if s.healthyBufs.length = 0 then Tab.get k s.spare.bufMap k
     else nth 0 s.healthyBufs (k % s.healthyBufs.length))
  else Tab.get k s.spare.bufMap k

/-- TPB_STAT (R429). -/
def State.tpbStat (s : State) : Nat :=
  fld (b2n s.tpbDegraded) 0 1 +
  fld ((List.range 8).foldl (fun a j => if s.spare.bufRet.contains j then a + 2 ^ j else a) 0) 4 8 +
  (if s.booted then
    fld ((List.range 8).foldl (fun a j =>
      if (List.range 6).any (fun k => s.bufPhys k == j) && !s.spare.bufRet.contains j
      then a + 2 ^ j else a) 0) 12 8
   else 0)

/-- The number of a buffer's tile. -/
def bufTile (j : Nat) : Nat := 80 + j

/-- The register at offset `o` of physical buffer `j` (R429). -/
def State.tpbReg (s : State) (j o : Nat) : Nat :=
  let t := s.tpb j
  match o with
  | 0x00 => fld t.stallIn 0 32
  | 0x04 => fld t.stallDest 0 32
  | 0x08 => fld t.stallSlots 0 32
  | 0x0C => fld t.stallWake 0 32
  | 0x10 => fld t.corr 0 16 + fld t.uncorr 16 16
  | 0x14 => fld t.sumErr 0 16
  | 0x18 => fld (s.shownClk (bufTile j)) 0 2
  | _ => 0

/-- The bank of loaded tables that is current for the kiln (R250). -/
def State.kilnBank (s : State) : TableBank := if s.tables.kilnCur then s.tables.bank1 else s.tables.bank0

/-- The bank of loaded tables that is current for derivatives (R216). -/
def State.drvBank (s : State) : TableBank := if s.tables.drvCur then s.tables.bank1 else s.tables.bank0

/-- DRV_BANK.SLOTS (R429). -/
def drvSlotBits (b : TableBank) : Nat :=
  (List.range 8).foldl (fun a i =>
    match b.drv[i]? with
    | some d => if d.kind = 1 ∨ d.kind = 2 then a + 2 ^ i else a
    | none => a) 0

/-- Tile of an unspared unit by kind of R446 and number. -/
def unitTile (kind n : Nat) : Nat :=
  if kind = 5 then 88 + n else if kind = 6 then 92 + n else if kind = 7 then 96
  else if kind = 8 then 97 else 98 + n

/-- The register at offset `o` of a unit without a spare (R429). -/
def State.unitReg (s : State) (kind n o : Nat) : Nat :=
  let u := s.unit kind n
  match o with
  | 0x0 => fld (s.shownClk (unitTile kind n)) 0 2 + fld (b2n u.retired) 2 1 +
      fld (b2n u.busy.isSome) 3 1 + fld u.working 4 4 + fld u.faults 8 8
  | 0x4 => half u.count false
  | 0x8 => half u.count true
  | _ => 0

/-- Code of SLC_STAT.PORT (R430). -/
def portCode : PortState → Nat
  | .disabled => 0
  | .training => 1
  | .up => 2
  | .miswired => 3
  | .down => 4

/-- The entry of port `p` in the image in force (R306). -/
def State.portEntry (s : State) (p : Nat) : Option PortEntry :=
  match s.image with
  | some i => i.ports[p]?
  | none => none

/-- Receive frames of channel `v` in the port entry: 32 on channel 7 (R304). -/
def State.vcFrames (s : State) (p v : Nat) : Nat :=
  match s.portEntry p with
  | some e => nth 0 e.vcFrames v
  | none => 0

/-- Send credits of channel `v` of port `p` (R304): the frames of the channel, taken to be as the own port
entry gives them, less those sent and not yet reported freed (log entry 20). -/
def State.credits (s : State) (p v : Nat) : Nat :=
  s.vcFrames p v + ((s.port p).chan v).peerFreed - ((s.port p).chan v).sent

/-- Byte `k` of SLC_MOD_ID (R430); bytes 61 to 63 read 0. -/
def modIdByte (m : Module) (k : Nat) : Nat := if k < 61 then (nth 0#8 m.identity k).toNat else 0

/-- Word `i` of a byte string, little-endian. -/
def wordOf (bs : List Byte) (i : Nat) : Nat := field bs (4 * i) 4

/-- The register at offset `o` of sluice `p` (R430). -/
def State.slcReg (s : State) (p o : Nat) : Nat :=
  let q := s.port p
  let m := q.module
  if o = 0x000 then fld (b2n m.flagged) 1 1
  else if o = 0x004 then
    fld (portCode q.st) 0 3 + fld (b2n m.present) 3 1 + fld (b2n q.drained) 4 1 +
    fld (b2n (s.unit 9 p).retired) 5 1 + fld (b2n q.half) 6 1 + fld m.spareFor 8 4 + fld q.fails 12 4
  else if o = 0x008 then fld q.retryTx 0 32
  else if o = 0x00C then fld q.retryRx 0 32
  else if o = 0x010 then fld q.retrains 0 32
  else if o = 0x014 then fld q.discards 0 32
  else if o = 0x018 then half q.peer.toNat false
  else if o = 0x01C then half q.peer.toNat true
  else if 0x020 ≤ o ∧ o < 0x044 then
    let i := (o - 0x020) / 4
    let inUse := if i = 8 then m.spareFor != 0xF else m.spareFor != i
    fld (b2n inUse) 0 1 + fld (b2n (m.retired.contains i)) 1 1 + fld (nth 0 m.rise i) 8 8 +
    fld (nth 0 m.age i) 16 8
  else if 0x060 ≤ o ∧ o < 0x080 then fld (s.credits p ((o - 0x060) / 4)) 0 16
  else if 0x100 ≤ o ∧ o < 0x140 then
    let k := o - 0x100
    modIdByte m k + modIdByte m (k + 1) * 2 ^ 8 + modIdByte m (k + 2) * 2 ^ 16 +
    modIdByte m (k + 3) * 2 ^ 24
  else 0

/-- The record of the event log with a number, if it is held. -/
def State.logFind (s : State) (seq : Nat) : Option LogRec := s.log.recs.find? (fun r => r.seq == seq)

/-- The 32 bytes of an event log record (R446). -/
def logBytes (r : LogRec) : List Byte :=
  natLe r.seq 4 ++ natLe r.code 2 ++ natLe r.working 1 ++ natLe r.flags 1 ++ natLe r.nc 8 ++
  natLe r.step 8 ++ natLe r.arg0 4 ++ natLe r.arg1 4

/-- HLTH (R431). FLT_LOG_STAT.GONE is set when the selected number was written and is no longer held. -/
def State.hlthReg (s : State) (o : Nat) : Nat :=
  if o = 0x000 then fld s.health.score 0 16 + fld (b2n s.health.pending) 16 1
  else if o = 0x004 then fld s.health.thr 0 16
  else if 0x010 ≤ o ∧ o < 0x030 then fld (Tab.get 0 s.health.inputs ((o - 0x010) / 4)) 0 32
  else if o = 0x100 then fld s.log.head 0 32
  else if o = 0x104 then fld s.health.logSel 0 32
  else if o = 0x108 then
    let sel := s.health.logSel
    let gone := (s.logFind sel).isNone && decide (0 < sel) && decide (sel ≤ s.log.head)
    fld (b2n gone) 0 1 + fld s.log.recs.length 16 13
  else if 0x120 ≤ o ∧ o < 0x140 then
    match s.logFind s.health.logSel with
    | some r => wordOf (logBytes r) ((o - 0x120) / 4)
    | none => 0
  else 0

/-- SNAP_CTL.BUSY: a drain or a restore is in progress (R432). -/
def State.snapBusy (s : State) : Bool :=
  s.snap.phase == .draining || s.snap.phase == .restoreFirst || s.snap.phase == .restoreSecond

/-- SNAP (R432). -/
def State.snapReg (s : State) (o : Nat) : Nat :=
  if o = 0x00 then
    fld (b2n s.snap.force) 0 1 + fld (b2n s.snapBusy) 2 1 + fld s.snap.outcome 4 2 +
    fld s.snap.slot 8 1 + fld (b2n s.snap.valid) 9 1
  else if o = 0x08 then half s.snap.seq false
  else if o = 0x0C then half s.snap.seq true
  else if o = 0x10 then half s.snap.restoreAddr.toNat false
  else if o = 0x14 then half s.snap.restoreAddr.toNat true
  else if o = 0x18 then half s.snap.lastNc false
  else if o = 0x1C then half s.snap.lastNc true
  else if 0x40 ≤ o ∧ o < 0xC0 then
    half (Tab.get 0 s.snap.lastSteps ((o - 0x40) / 8)) (decide (o % 8 = 4))
  else 0

/-- KEY_STAT (R433). INSTALLED is written by the boot. -/
def State.keyStat (s : State) : Nat :=
  let inst := (List.range 4).foldl (fun a i =>
    match s.nv.keys[i]? with
    | some .manufacturer => a + 2 ^ i
    | some (.key _ _) => a + 2 ^ i
    | _ => a) 0
  let rev := (List.range 4).foldl (fun a i =>
    if s.nv.keys[i]? = some .revoked then a + 2 ^ i else a) 0
  (if s.booted then fld inst 0 4 else 0) + fld rev 4 4

/-- FMN (R433). -/
def State.fmnReg (s : State) (o : Nat) : Nat :=
  if o = 0x00 then
    fld (b2n s.foreman.activeB) 0 1 + fld (b2n s.foreman.healthy) 1 1 + fld s.foreman.update 2 2 +
    fld (b2n s.foreman.inactiveOk) 4 1 + fld s.foreman.restarts 8 8
  else if o = 0x08 then half s.foreman.fwAddr.toNat false
  else if o = 0x0C then half s.foreman.fwAddr.toNat true
  else if o = 0x10 then s.foreman.fwLen.toNat
  else if o = 0x14 then s.keyStat
  else if o = 0x18 then fld s.foreman.baud 0 16
  else 0

/-- Code of FCE_STAT.ROLE (R434). -/
def roleCode : FaceRole → Nat
  | .spare => 0
  | .inService => 1
  | .filling => 2
  | .retired => 3
  | .failed => 4

/-- A face that the night domain answers for (R419). -/
def Face.away (f : Face) : Bool := f.role == .retired || f.role == .failed

/-- FCE_STAT of face `n` (R434); CLK reads OFF for a retired or failed face (R419). -/
def State.fceStat (s : State) (n : Nat) : Nat :=
  let f := s.face n
  fld (roleCode f.role) 0 3 + fld (if f.away then 2 else s.shownClk n) 4 2 + fld f.working 6 4 +
  fld f.position 10 6 + fld f.fill 16 3 + fld f.benches 19 4 +
  fld (b2n (f.reduced && f.role == .inService)) 23 1 + fld f.serves 24 7

/-- The register at offset `o` of face `n` (R434). -/
def State.fceReg (s : State) (n o : Nat) : Nat :=
  let f := s.face n
  if o = 0x0004 then s.fceStat n
  else if f.away then 0
  else if o = 0x0008 then f.acc.toNat
  else if o = 0x000C then f.chk.toNat
  else if o = 0x0010 then
    fld (s.physBench n 0) 0 3 + fld (s.physBench n 1) 4 3 + fld (s.physBench n 2) 8 3 +
    fld (s.physBench n 3) 12 3 + fld f.econBits 16 4 + fld (Tab.get 0 s.spare.benchRet n) 24 5
  else if 0x0020 ≤ o ∧ o < 0x0030 then fld (Tab.get 0 f.unchk ((o - 0x0020) / 4)) 0 32
  else if 0x0040 ≤ o ∧ o < 0x0050 then
    let b := (o - 0x0040) / 4
    fld (Tab.get 0 f.reloc b) 0 16 +
      fld (if s.booted then s.freeLanes n (s.physBench n b) else 2) 16 2
  else if 0x0100 ≤ o ∧ o < 0x01C0 then
    let i := (o - 0x0100) / 8
    half (Tab.get 0 f.frz i) (decide (o % 8 = 4))
  else if 0x1000 ≤ o ∧ o < 0x3000 then
    let b := (o - 0x1000) / 0x800
    fld (s.physLane n (s.physBench n b) ((o - 0x1000) % 0x800 / 4)) 0 10
  else 0

/-- SCHED (R427). -/
def State.schedReg (s : State) (o : Nat) : Nat :=
  if o < 0x40 then s.wrkCtl (o / 4)
  else if o < 0xC0 then half (s.work ((o - 0x40) / 8)).step (decide (o % 8 = 4))
  else if o = 0x100 then half s.load.addr.toNat false
  else if o = 0x104 then half s.load.addr.toNat true
  else if o = 0x10C then s.loadStat
  else if o = 0x110 then half s.imgId false
  else if o = 0x114 then half s.imgId true
  else if o = 0x118 then fld s.imgVer 0 32
  else if o = 0x120 then fld s.apertureErr 0 32
  else if 0x140 ≤ o ∧ o < 0x170 then wordOf s.imgDigest ((o - 0x140) / 4)
  else if 0x180 ≤ o ∧ o < 0x1B0 then wordOf s.cfgDigest ((o - 0x180) / 4)
  else if 0x4000 ≤ o ∧ o < 0x6000 then half (s.tally ((o - 0x4000) / 8)) (decide (o % 8 = 4))
  else 0

/-- GLB, CLK/PWR and CROSS (R422, R424). -/
def State.nightReg (s : State) (off : Nat) : Nat :=
  if off = 0x00 then 0x4B520100
  else if off = 0x04 then fld 72 0 8 + fld 5 8 4 + fld 516 12 12 + fld 8 24 8
  else if off = 0x08 then fld 384 0 16 + fld 6144 16 16
  else if off = 0x0C then fld 128 0 8 + fld 4 8 3 + fld 1024 16 11 + fld 16 27 5
  else if off = 0x10 then fld 50 0 8 + fld 14 8 8 + fld 16 16 8
  else if off = 0x14 then fld s.glb.sleepReq 0 2
  else if off = 0x18 then s.glbStat
  else if off = 0x1C then s.glb.evt.toNat
  else if off = 0x20 then s.glb.evtEn.toNat
  else if off = 0x24 then s.glb.preempt.toNat
  else if off = 0x10000 then
    fld (b2n (s.surge.en && !s.surge.withdrawn)) 0 1 + fld (b2n s.surge.withdrawn) 1 1 +
      fld (b2n s.surging) 2 1
  else if off = 0x10008 then half s.surge.ledger false
  else if off = 0x1000C then half s.surge.ledger true
  else if off = 0x10010 then fld s.surgeWindow 0 24
  else if off = 0x10014 then fld s.surge.droops 0 32
  else if off = 0x10018 then half s.nc false
  else if off = 0x1001C then half s.nc true
  else if 0x10100 ≤ off ∧ off < 0x10220 then s.pwrFace ((off - 0x10100) / 4)
  else if 0x10300 ≤ off ∧ off < 0x10450 then sfld (Tab.get 0 s.temps ((off - 0x10300) / 4)) 0 8
  else if 0x20000 ≤ off ∧ off < 0x20014 then s.crossMode ((off - 0x20000) / 4)
  else 0

/-- YRD (R425). -/
def State.yrdReg (s : State) (o : Nat) : Nat :=
  if o = 0x00 then
    fld s.yard.swzRegion 0 10 +
      (match s.regionSwz s.yard.swzRegion with
       | some m => fld m 16 3 + fld 1 19 1
       | none => 0)
  else if o = 0x04 then fld s.yard.corr 0 16 + fld s.yard.uncorr 16 16
  else if o = 0x08 then
    fld s.yard.lastBank 0 9 + fld s.yard.lastLine 9 15 + fld (b2n s.yard.lastUncorr) 24 1
  else if o = 0x0C then (if s.booted then fld s.freeBanks.length 0 6 else 0)
  else if 0x400 ≤ o ∧ o < 0x800 then
    let b := (o - 0x400) / 4
    fld (s.bankPhys b) 0 9 + fld (b2n (Tab.find s.yard.migrating b).isSome) 9 1
  else 0

/-- TPB, KLN, DRV and DRS (R429), by window offset. -/
def State.unitBlockReg (s : State) (off : Nat) : Nat :=
  if off = 0x80000 then s.tpbStat
  else if 0x80010 ≤ off ∧ off < 0x80028 then fld (s.bufPhys ((off - 0x80010) / 4)) 0 3
  else if 0x80100 ≤ off ∧ off < 0x80300 then s.tpbReg ((off - 0x80100) / 0x40) (off % 0x40)
  else if off = 0x90000 then
    fld (b2n s.tables.kilnCur) 0 1 + fld (b2n s.kilnBank.kiln.isSome) 1 1
  else if 0x90100 ≤ off ∧ off < 0x90220 then fld (Tab.get 0 s.klnPerr ((off - 0x90100) / 4)) 0 16
  else if off = 0xA0000 then fld (b2n s.tables.drvCur) 0 1 + fld (drvSlotBits s.drvBank) 8 8
  else if 0xA0100 ≤ off ∧ off < 0xA0220 then fld (Tab.get 0 s.drvPerr ((off - 0xA0100) / 4)) 0 16
  else if 0xB0000 ≤ off ∧ off < 0xB0040 then s.unitReg 5 ((off - 0xB0000) / 0x10) (off % 0x10)
  else if 0xB0100 ≤ off ∧ off < 0xB0140 then s.unitReg 6 ((off - 0xB0100) / 0x10) (off % 0x10)
  else if 0xB0200 ≤ off ∧ off < 0xB0210 then s.unitReg 7 0 (off % 0x10)
  else if 0xB0210 ≤ off ∧ off < 0xB0220 then s.unitReg 8 0 (off % 0x10)
  else 0

/-- The value of the aligned register at window offset `off`; 0 where no register lies (R7, R418). -/
def State.regValue (s : State) (off : Nat) : Nat :=
  if off < 0x30000 then s.nightReg off
  else if off < 0x40000 then s.yrdReg (off - 0x30000)
  else if off < 0x42000 then s.hoistReg ((off - 0x40000) / 0x40) (off % 0x40)
  else if off < 0x60000 then 0
  else if off < 0x80000 then s.schedReg (off - 0x60000)
  else if off < 0xC0000 then s.unitBlockReg off
  else if off < 0xD0000 then s.slcReg ((off - 0xC0000) / 0x4000) (off % 0x4000)
  else if off < 0xE0000 then s.hlthReg (off - 0xD0000)
  else if off < 0xF0000 then s.snapReg (off - 0xE0000)
  else if off < 0x100000 then s.fmnReg (off - 0xF0000)
  else if off < 0x580000 then s.fceReg ((off - 0x100000) / 0x10000) (off % 0x10000)
  else 0

/-- The offset of the low half of the 64-bit pair that `off` belongs to, if it does (R8). -/
def pairLo (off : Nat) : Option Nat :=
  if off = 0x10008 ∨ off = 0x1000C then some 0x10008
  else if off = 0x10018 ∨ off = 0x1001C then some 0x10018
  else if 0x40000 ≤ off ∧ off < 0x42000 ∧ (off % 0x40 = 0x08 ∨ off % 0x40 = 0x0C) then
    some (off - off % 8)
  else if 0x40000 ≤ off ∧ off < 0x42000 ∧ (off % 0x40 = 0x20 ∨ off % 0x40 = 0x24) then
    some (off - off % 8)
  else if 0x60040 ≤ off ∧ off < 0x600C0 then some (off - off % 8)
  else if off = 0x60100 ∨ off = 0x60104 then some 0x60100
  else if off = 0x60110 ∨ off = 0x60114 then some 0x60110
  else if 0x64000 ≤ off ∧ off < 0x66000 then some (off - off % 8)
  else if 0xB0000 ≤ off ∧ off < 0xB0040 ∧ (off % 0x10 = 4 ∨ off % 0x10 = 8) then
    some (off - off % 0x10 + 4)
  else if 0xB0100 ≤ off ∧ off < 0xB0140 ∧ (off % 0x10 = 4 ∨ off % 0x10 = 8) then
    some (off - off % 0x10 + 4)
  else if 0xB0200 ≤ off ∧ off < 0xB0220 ∧ (off % 0x10 = 4 ∨ off % 0x10 = 8) then
    some (off - off % 0x10 + 4)
  else if 0xC0000 ≤ off ∧ off < 0xD0000 ∧ (off % 0x4000 = 0x018 ∨ off % 0x4000 = 0x01C) then
    some (off - off % 8)
  else if off = 0xE0008 ∨ off = 0xE000C then some 0xE0008
  else if off = 0xE0010 ∨ off = 0xE0014 then some 0xE0010
  else if off = 0xE0018 ∨ off = 0xE001C then some 0xE0018
  else if 0xE0040 ≤ off ∧ off < 0xE00C0 then some (off - off % 8)
  else if off = 0xF0008 ∨ off = 0xF000C then some 0xF0008
  else if 0x100000 ≤ off ∧ off < 0x580000 ∧ 0x100 ≤ off % 0x10000 ∧ off % 0x10000 < 0x1C0 then
    some (off - off % 8)
  else none

/-- The offset of the upper half of the pair whose lower half lies at `lo` (R8). -/
def pairHi (lo : Nat) : Nat := lo + 4

/-- The tile whose domain holds the register at an offset; `none` for the night domain (R418). -/
def regTile (off : Nat) : Option Nat :=
  if 0x30000 ≤ off ∧ off < 0xC0000 then some yardTile
  else if 0x100000 ≤ off ∧ off < 0x580000 then some ((off - 0x100000) / 0x10000)
  else none

end Sys2Proof.Machine
end

