-- ==== Sys2Proof/Machine/Operands.lean ====
section
/-! DEFINITION. Operand forms: element types, tensor maps and the addresses they give, fills, block lists and
index forms, the convolution walk, swizzles, and the checks of a map (R30 to R34, R97, R98, R113 to R140). -/

namespace Sys2Proof.Machine

/-- Bits of one element of a type of R32. -/
def typeBits (t : Nat) : Nat := nth 8 [8, 8, 4, 16, 32, 64, 128, 8, 1, 32] t

/-- WMODE codes (R115). -/
def wmRead : Nat := 0
/-- WMODE STORE (R115). -/
def wmStore : Nat := 1
/-- WMODE ACCUM (R115). -/
def wmAccum : Nat := 2

/-- Dimension record `d`; a dimension at DIMS or above has extent 1, stride 0 and start 0 (R116). -/
def MapDesc.dimAt (m : MapDesc) (d : Nat) : DimRec :=
  if d < m.dims then nth default m.dim d
  else { extent := 1, stride := 0, start := 0, fill := 0, fillScale := 0 }

/-- The map has a block list (R115). -/
def MapDesc.listed (m : MapDesc) : Bool := m.gather == 1 || m.gather == 3

/-- The map has an index form (R115). -/
def MapDesc.indexed (m : MapDesc) : Bool := m.gather == 2 || m.gather == 3

/-! ### Coordinates (R98, R117, R184) -/

/-- The position that the walk computes along one dimension (R98); `none` where TRANS divides inexactly. -/
def walkPos (mode : Nat) (w : WalkDim) (o k : Int) : Option Int :=
  if mode = 1 then some (o * w.stride + k * w.dilation - w.padding)
  else
    let n := o + w.padding - k * w.dilation
    if w.stride = 0 then none else if n % (w.stride : Int) = 0 then some (n / (w.stride : Int)) else none

/-- The coordinate that an axis code of BIND gives (R184). -/
def axisCoord (c : CutDesc) (x : AxisPoint) (code : Nat) : Option Int :=
  match code with
  | 1 => some x.r
  | 2 => some x.p
  | 3 => some x.l
  | 4 => some x.b0
  | 5 => some x.b1
  | 6 => walkPos c.walkMode (nth default c.walk 0) x.o0 x.k0
  | 7 => walkPos c.walkMode (nth default c.walk 1) x.o1 x.k1
  | _ => some 0

/-- The role under which a cut names a map: its place in MAPS, or the output's for a map that only a hoist
or the KIND_AREA names (log entry 9). -/
def CutDesc.roleOf (c : CutDesc) (map : Nat) : Nat := (c.maps.findIdx? (· == map)).getD 2

/-- The coordinates of a map's six dimensions at a point, through the BIND codes of a role (R184). -/
def CutDesc.coords (c : CutDesc) (role : Nat) (x : AxisPoint) : List (Option Int) :=
  (List.range 6).map (fun d => axisCoord c x (nth 0 (nth [] c.bind role) d))

/-- Where an element lies: at a bit address of its space, or nowhere, with the dimension whose fill a read
takes and whether a write there counts as dropped (R121, R122, R135, R136). -/
inductive Place where
  | elem (bit : Nat)
  | fill (dim : Nat) (counted : Bool)
  deriving DecidableEq, Repr, Inhabited

/-- Which block list dimension `d` is: its extent and origin (R135). -/
def MapDesc.blockOf (m : MapDesc) (e : Int × Int × Int × Nat) (d : Nat) : Option (Nat × Int) :=
  if m.blA = d then some (nth 1 m.blkExt 0, e.1)
  else if m.blB = d then some (nth 1 m.blkExt 1, e.2.1)
  else if m.blC = d then some (nth 1 m.blkExt 2, e.2.2.1)
  else none

/-- The index of one dimension: `ok i`, no element without a count, or no element that counts (R117, R135,
R136, R137). -/
def MapDesc.indexAt (m : MapDesc) (coord : Option Int) (look : Option Nat)
    (entry : Option (Int × Int × Int × Nat)) (d : Nat) : Except Bool Int :=
  let r := m.dimAt d
  match coord with
  | none => .error false
  | some c =>
    if m.indexed && m.idxDim == d then
      if m.idxSrc = 0 then
        match look with
        | none => .error false
        | some v => if v = 0xFFFFFFFF then .error false
            else if v < r.extent then .ok v else .error true
      else
        match entry with
        | none => .error false
        | some e => .ok (r.start + e.2.2.2 + c)
    else if m.listed then
      match entry with
      | none => if m.blA = d ∨ m.blB = d ∨ m.blC = d then .error false else .ok (r.start + c)
      | some e =>
        match m.blockOf e d with
        | none => .ok (r.start + c)
        | some (ext, org) =>
          if m.blA = d then .ok (r.start + org + c % (max ext 1 : Nat))
          else if 0 ≤ c ∧ c < ext then .ok (r.start + org + c) else .error false
    else .ok (r.start + c)

/-- The lowest dimension that has no index in bounds, with whether a write there counts (R121, R122). -/
def MapDesc.firstOut (m : MapDesc) : Nat → List (Except Bool Int) → Option (Nat × Bool)
  | _, [] => none
  | d, .error b :: rest =>
    match m.firstOut (d + 1) rest with
    | some (_, b') => some (d, b && b')
    | none => some (d, b)
  | d, .ok i :: rest =>
    if 0 ≤ i ∧ i < (m.dimAt d).extent then m.firstOut (d + 1) rest
    else
      match m.firstOut (d + 1) rest with
      | some (_, b') => some (d, b')
      | none => some (d, true)

/-- The bit address of the element at an index (R117): exact, with no wrap. -/
def MapDesc.bitAddr (m : MapDesc) (idx : List Int) : Int :=
  (m.base : Int) * 8 + typeBits m.type *
    ((List.range 6).foldl (fun a d => a + nth 0 idx d * (m.dimAt d).stride) 0)

/-- Where the element at a list of coordinates lies (R117, R121, R122, R135 to R137). -/
def MapDesc.place (m : MapDesc) (coords : List (Option Int)) (look : Option Nat)
    (entry : Option (Int × Int × Int × Nat)) : Place :=
  let ix := (List.range 6).map (fun d => m.indexAt (nth (some 0) coords d) look entry d)
  match m.firstOut 0 ix with
  | some (d, counted) => .fill d counted
  | none => .elem (m.bitAddr (ix.map (fun r => match r with
      | .ok i => i
      | .error _ => 0))).toNat

/-- The index of an MX element's block scale in its scale map (R120): only BASE and strides of that map
apply. -/
def MapDesc.scaleAddr (m sm : MapDesc) (idx : List Int) : Nat :=
  let ix := (List.range 6).map (fun d => if d = m.blkDim then nth 0 idx d / 32 else nth 0 idx d)
  ((sm.base : Int) + (List.range 6).foldl (fun a d => a + nth 0 ix d * (sm.dimAt d).stride) 0).toNat

/-! ### Fill (R121, R123) -/

/-- The fill code of a type (R121). -/
def fillCode (type fill : Nat) : Nat :=
  match type with
  | 0 => fill % 256
  | 1 => fill % 256
  | 2 => fill % 16
  | 3 => fill % 65536
  | 4 => fill % 65536 * 65536
  | 5 => (toG40 (bf16 (fill % 65536))).code
  | 6 => (toE128 (bf16 (fill % 65536))).1
  | 7 => fill % 256
  | 8 => fill % 2
  | _ => if fill % 65536 = 0xFFFF then 0xFFFFFFFF else fill % 65536

/-- The scale code that accompanies an MX fill (R121): 0x00 for a fill that decodes to zero. -/
def fillScaleCode (type fill fillScale : Nat) : Nat :=
  if (elemVal type (fillCode type fill)).isZero then 0 else fillScale

/-- A 64 B line of a type's fill. -/
def fillLine (type fill : Nat) : List Byte :=
  let c := fillCode type fill
  if type = 2 then List.replicate 64 (BitVec.ofNat 8 (c + 16 * c))
  else if type = 8 then List.replicate 64 (BitVec.ofNat 8 (if c = 1 then 255 else 0))
  else
    let k := typeBits type / 8
    (List.replicate (64 / k) (natLe c k)).flatten

/-- Bytes of the line at byte address `a` that belong to the row of an element there: those up to EXTENT_0
(R123). `i0` is the index of the row's dimension 0. -/
def MapDesc.validBytes (m : MapDesc) (i0 : Int) (a : Nat) : Nat :=
  let left := ((m.dimAt 0).extent - i0).toNat * typeBits m.type
  min 64 (a % 64 + (left + 7) / 8)

/-! ### Swizzles (R133) -/

/-- Parity of the bits of a number below 2¹⁵. -/
def parity15 (n : Nat) : Nat := popCount n 15 % 2

/-- The logical bank of yard byte `a` under a mode (R133). -/
def bankOf (swz : Nat) (masks : List Nat) (a : Nat) : Nat :=
  let l := a / 64
  let h := bits l 15 8
  let low := l % 256
  match swz with
  | 1 => low ^^^ (h / 4)
  | 2 => low ^^^ (h / 2)
  | 3 => low ^^^ h
  | 4 => low ^^^ (h % 128 * 2)
  | 5 => (List.range 8).foldl (fun acc b =>
      acc + ((bits low b b + parity15 (l / 256 &&& nth 0 masks b)) % 2) * 2 ^ b) 0
  | _ => low

/-- The line's position within its bank (R133). -/
def bankLine (a : Nat) : Nat := a / 64 / 256

/-! ### The region of a yard address -/

/-- The region that holds a yard byte (R176). -/
def Image.regionAt (i : Image) (a : Nat) : Option (Nat × Region) :=
  i.regions.find? (fun e => decide (e.2.base ≤ a) && decide (a < e.2.base + e.2.size))

/-! ### Checks of a map (R118, R119, R139, R140) -/

/-- Lowest and highest bit of a map's elements, over the corners of its index box (R119). -/
def MapDesc.span (m : MapDesc) : Int × Int :=
  (List.range 6).foldl (fun (a : Int × Int) d =>
    let r := m.dimAt d
    let reach := ((r.extent : Int) - 1) * r.stride * typeBits m.type
    if reach < 0 then (a.1 + reach, a.2) else (a.1, a.2 + reach))
    ((m.base : Int) * 8, (m.base : Int) * 8 + typeBits m.type - 1)

/-- Row 1 of R140's table. -/
def MapDesc.shapeOk (m : MapDesc) : Bool :=
  decide (m.type ≤ 9) && decide (1 ≤ m.dims) && decide (m.dims ≤ 6) &&
  (List.range m.dims).all (fun d => decide (0 < (m.dimAt d).extent)) && m.wmode != 3 && decide (m.swz ≤ 5)

/-- R118: BASE and every outer stride fall on lines, and STRIDE_0 is 1, or 0 in a READ map. -/
def MapDesc.alignOk (m : MapDesc) : Bool :=
  m.base % 64 == 0 &&
  ((m.dimAt 0).stride == 1 || ((m.dimAt 0).stride == 0 && m.wmode == wmRead)) &&
  (List.range m.dims).all (fun d => d == 0 || (m.dimAt d).stride * typeBits m.type % 512 == 0)

/-- R119 and R132 for a working: the span lies in fabric space, or inside one region of the working whose
mode and masks the map gives. -/
def MapDesc.placeOk (m : MapDesc) (i : Image) (w : Nat) : Bool :=
  let s := m.span
  if m.yard then
    decide (0 ≤ s.1) &&
    match i.regionAt (s.1 / 8).toNat with
    | some (_, r) => decide (s.2 / 8 < ((r.base + r.size : Nat) : Int)) && r.working == w && r.swz == m.swz &&
        (m.swz != 5 || r.masks == m.masks)
    | none => false
  else decide (0 ≤ s.1) && decide (s.2 / 8 < (Config.fabricBytes : Int)) && m.swz == 0

/-- R139 for the map alone. -/
def MapDesc.gatherOk (m : MapDesc) : Bool :=
  let named := [m.blA, m.blB, m.blC].filter (· != 7)
  (!m.indexed || (decide (m.idxDim < m.dims) && !(m.listed && named.contains m.idxDim))) &&
  (!m.listed || (named.all (fun d => decide (d < m.dims)) && named.Nodup)) &&
  (!(isMx m.type && m.wmode == wmStore) ||
    (!(m.listed && named.contains m.blkDim) && !(m.indexed && m.idxDim == m.blkDim))) &&
  (!(m.indexed && m.idxSrc == 1) || m.listed)

/-- The scale map matches its value map (R30, R139). -/
def MapDesc.scaleOk (m sm : MapDesc) : Bool :=
  sm.type == 7 && sm.gather == 0 &&
  (List.range 6).all (fun d => (sm.dimAt d).extent ==
    if d = m.blkDim then ceilDiv (m.dimAt d).extent 32 else (m.dimAt d).extent)

/-- The index map fits (R136, R139). -/
def MapDesc.indexOk (m im : MapDesc) : Bool :=
  im.wmode == wmRead && im.type == 9 && im.gather == 0 && im.dims == (if m.listed then 2 else 1)

/-- The checks of R140 that a map passes by itself. -/
def MapDesc.selfOk (m : MapDesc) (i : Image) (w : Nat) : Bool :=
  m.shapeOk && (decide (m.blkDim < m.dims) == isMx m.type) && m.alignOk && m.placeOk i w && m.gatherOk &&
  (m.wmode != wmAccum || (m.yard && (m.type == 5 || m.type == 6))) &&
  (isMx m.type || m.scaleMap == 0xFFFF)

/-- The first map that fails among a map, its scale map and its index map (R140): its index, as DETAIL_MAP
names it. -/
def Image.badMap (i : Image) (w idx : Nat) : Option Nat :=
  match Tab.find i.maps idx with
  | none => some idx
  | some m =>
    if !m.selfOk i w then some idx
    else
      let scale := if isMx m.type then
          match Tab.find i.maps m.scaleMap with
          | none => some idx
          | some sm => if !sm.selfOk i w then some m.scaleMap else if m.scaleOk sm then none else some idx
        else none
      match scale with
      | some b => some b
      | none =>
        if m.indexed && m.idxSrc == 0 then
          match Tab.find i.maps m.idxMap with
          | none => some idx
          | some im => if !im.selfOk i w then some m.idxMap else if m.indexOk im then none else some idx
        else none

/-! ### Aliasing (R127) -/

/-- Some choice of differences, one per axis, sums to `t`: axes as (largest difference, stride), strides
falling, `reach` what the later axes can sum to. -/
def hits : List (Nat × Int) → Int → Bool
  | [], t => t == 0
  | (b, s) :: rest, t =>
    let reach : Int := rest.foldl (fun a x => a + (x.1 : Int) * x.2.natAbs) 0
    if s = 0 then hits rest t
    else
      let n := (s.natAbs : Int)
      let t' := if s < 0 then -t else t
      let lo := max (-(b : Int)) ((t' - reach + n - 1) / n)
      let hi := min (b : Int) ((t' + reach) / n)
      (List.range (hi - lo + 1).toNat).any (fun k => hits rest (t - s * (lo + k)))

/-- Two distinct index tuples give one address: some differences, not all zero, sum to zero; the first
nonzero one may be taken positive. -/
def aliases : List (Nat × Int) → Bool
  | [] => false
  | (b, s) :: rest =>
    let reach : Int := rest.foldl (fun a x => a + (x.1 : Int) * x.2.natAbs) 0
    aliases rest ||
    if s = 0 then decide (0 < b)
    else (List.range (min b (reach / s.natAbs).toNat)).any (fun k => hits rest (-(s * ((k : Int) + 1))))

/-- Extent of an axis code (R184); a walk dimension is taken over the whole map extent. -/
def CutDesc.axisExt (c : CutDesc) (code whole : Nat) : Nat :=
  match code with
  | 1 => c.axR
  | 2 => c.axP
  | 3 => c.axL
  | 4 => c.axB0
  | 5 => c.axB1
  | 6 => whole
  | 7 => whole
  | _ => 1

/-- Insertion into a list of axes, steepest first. -/
def insertAxis (x : Nat × Int) : List (Nat × Int) → List (Nat × Int)
  | [] => [x]
  | y :: ys => if y.2.natAbs ≤ x.2.natAbs then x :: y :: ys else y :: insertAxis x ys

/-- The axes over which an output map's indices run, as (largest difference, stride), steepest first: the
dimensions that one axis code drives move together (R117, R184). -/
def CutDesc.mapAxes (c : CutDesc) (role : Nat) (m : MapDesc) : List (Nat × Int) :=
  let code := fun d => nth 0 (nth [] c.bind role) d
  let ax := ((List.range 8).filter (fun k => k != 0)).filterMap (fun k =>
    let ds := (List.range m.dims).filter (fun d => code d == k)
    if ds.isEmpty then none
    else
      let stride := ds.foldl (fun a d => a + (m.dimAt d).stride) 0
      let lo := ds.foldl (fun a d => max a (-(m.dimAt d).start)) (0 : Int)
      let hi := ds.foldl (fun a d => min a ((m.dimAt d).extent - (m.dimAt d).start))
        ((c.axisExt k (m.dimAt (nth 0 ds 0)).extent : Nat) : Int)
      if hi - lo ≤ 1 then none else some ((hi - lo - 1).toNat, stride))
  ax.foldr insertAxis []

/-- A cut writes through an aliasing map (R127); a gathered map is never tested (R138). -/
def CutDesc.writesAlias (c : CutDesc) (role : Nat) (m : MapDesc) : Bool :=
  m.gather == 0 && m.wmode != wmRead && aliases (c.mapAxes role m)

/-! ### Slices (R128 to R131, R184) -/

/-- P tiles of a cut. -/
def CutDesc.pTiles (c : CutDesc) : Nat := ceilDiv c.axP (max c.pTile 1)
/-- L tiles of a cut. -/
def CutDesc.lTiles (c : CutDesc) : Nat := ceilDiv c.axL (max c.lTile 1)
/-- Passes of a slice along R. -/
def CutDesc.passCount (c : CutDesc) : Nat := ceilDiv c.axR (max c.passL 1)

/-- R129: the bounds of every valid region along BLK_DIM of an MX STORE map. -/
def CutDesc.blocksOk (c : CutDesc) (role : Nat) (m : MapDesc) : Bool :=
  if isMx m.type && m.wmode == wmStore then
    let code := nth 0 (nth [] c.bind role) m.blkDim
    let r := m.dimAt m.blkDim
    let ext := c.axisExt code r.extent
    let tile := if code = 2 then c.pTile else if code = 3 then c.lTile
      else if code = 4 ∨ code = 5 then 1 else ext
    let up := r.start + ext
    r.start % 32 == 0 && (tile % 32 == 0 || decide (ext ≤ tile)) &&
      (up % 32 == 0 || up == (r.extent : Int))
  else true

/-- R130: two slices meet in the output map's index space when an axis that has more than one slice drives
no dimension of it. -/
def CutDesc.slicesMeet (c : CutDesc) (role : Nat) (m : MapDesc) : Bool :=
  let codes := (List.range m.dims).map (fun d => nth 0 (nth [] c.bind role) d)
  (decide (1 < c.pTiles) && !codes.contains 2) || (decide (1 < c.lTiles) && !codes.contains 3) ||
  (decide (1 < c.axB0) && !codes.contains 4) || (decide (1 < c.axB1) && !codes.contains 5)

/-- R131: an output map and an input map share bytes without being identical. -/
def MapDesc.overlaps (o i : MapDesc) : Bool :=
  let a := o.span
  let b := i.span
  o.yard == i.yard && decide (a.1 / 8 ≤ b.2 / 8) && decide (b.1 / 8 ≤ a.2 / 8) &&
  !(o.base == i.base && o.type == i.type && o.gather == 0 && i.gather == 0 &&
    (List.range 6).all (fun d => (o.dimAt d).stride == (i.dimAt d).stride &&
      (o.dimAt d).start == (i.dimAt d).start && (o.dimAt d).extent == (i.dimAt d).extent))

end Sys2Proof.Machine
end

