-- ==== Sys2Proof/Machine/Rows.lean ====
section
/-! DEFINITION. Rows, key blocks and pages of an A-cut, the blocks that a mask skips, and the passes of a block
(R244, R245, R254, R257 to R259, R264 to R267). -/

namespace Sys2Proof.Machine

/-- The A-cut run of an entry. -/
def State.arun (s : State) (e : Nat) : ARun := Tab.get default s.aruns e

/-- The state with an A-cut's run changed. -/
def State.modArun (s : State) (e : Nat) (f : ARun → ARun) : State :=
  { s with aruns := Tab.update default s.aruns e f }

/-- Size of a page in tokens (R259). -/
def PageRow.tokens (p : PageRow) : Nat := 2 ^ (6 + p.size)

/-- The pages of a sequence in a round. -/
def ARun.pagesOf (r : ARun) (round : Nat) (q : SeqRow) : List PageRow :=
  if round = 0 then ((Tab.get [] r.pages 0).drop q.ptFirst).take q.ptCount else Tab.get [] r.pages round

/-- Entries of a sequence's key list in a round (R244). -/
def ARun.keyCount (r : ARun) (round : Nat) (q : SeqRow) : Nat := ((r.pagesOf round q).map PageRow.tokens).sum

/-- Key blocks of a sequence in one round (R244). -/
def ARun.keyBlocks (r : ARun) (round : Nat) (q : SeqRow) : Nat := ceilDiv (r.keyCount round q) 512

/-- Key blocks of all sequences in one round. -/
def ARun.blocksIn (r : ARun) (round : Nat) : Nat := (r.seqs.map (r.keyBlocks round)).sum

/-- Key blocks of the rounds before one (R266). -/
def ARun.roundBase (r : ARun) (round : Nat) : Nat := ((List.range round).map r.blocksIn).sum

/-- Query blocks of a sequence. -/
def SeqRow.qBlocks (q : SeqRow) (qb : Nat) : Nat := ceilDiv q.qCount (2 ^ qb)

/-- The sequence, head and query block of row `n` (R265): rows go by sequence, head, query block. -/
def rowOf (heads qb : Nat) : List SeqRow → Nat → Nat → Option (Nat × Nat × Nat)
  | [], _, _ => none
  | q :: qs, k, n =>
    let here := heads * q.qBlocks qb
    if n < here then some (k, n / q.qBlocks qb, n % q.qBlocks qb) else rowOf heads qb qs (k + 1) (n - here)

/-- Rows of an A-cut (R265). -/
def ARun.rows (r : ARun) (a : AArea) : Nat := (r.seqs.map (fun q => a.heads * q.qBlocks a.qbLog2)).sum

/-- Rounds of an A-cut: RING, or 1. -/
def AArea.rounds (a : AArea) : Nat := max a.ring 1

/-- The number of a sequence's first key block in a round: key blocks are numbered through the sequences and, on the
ring, which has one sequence, through the rounds (R265, R266). -/
def ARun.seqBase (r : ARun) (round seq : Nat) : Nat :=
  r.roundBase round + ((r.seqs.take seq).map (r.keyBlocks round)).sum

/-- The sequence, round and key block of a numbered key block. -/
def ARun.blockOf (r : ARun) (a : AArea) (red : Nat) : Option (Nat × Nat × Nat) :=
  (List.range a.rounds).findSome? (fun round => (List.range r.seqs.length).findSome? (fun k =>
    let base := r.seqBase round k
    if base ≤ red ∧ red < base + r.keyBlocks round (nth default r.seqs k) then some (k, round, red - base) else none))

/-- The round of a numbered key block. -/
def ARun.roundOfBlock (r : ARun) (a : AArea) (red : Nat) : Nat :=
  match r.blockOf a red with
  | some (_, round, _) => round
  | none => a.rounds

/-- The ordinal of the dK and dV tiles of a numbered key block and a head (R267). -/
def tileOrdinal (a : AArea) (red head : Nat) : Nat := red * a.heads + head

/-- Head dimension over 16: passes of a stage's output (R245). -/
def AArea.chunks (a : AArea) : Nat := 2 * a.dh

/-- Groups of 512 queries of a row. -/
def AArea.groups (a : AArea) : Nat := ceilDiv (2 ^ a.qbLog2) 512

/-- Passes of one stage of a block (R245). -/
def AArea.stagePasses (a : AArea) (stage : Nat) : Nat :=
  match stage with
  | 1 => 2 ^ a.qbLog2 / 16
  | 2 => a.chunks
  | 3 => 2 ^ a.qbLog2 / 16
  | 4 => a.chunks
  | _ => a.groups * a.chunks

/-- The load tag of a pass of an A-cut: K, P, V and dS once a block each, and dS from staging once for each
group of queries (R246). -/
def AArea.tag (a : AArea) (row red stage sub : Nat) : Nat :=
  ((red * 65536 + row) * 8 + stage) * 16 + (if stage = 5 then sub / a.chunks else 0)

/-- The passes of one stage of a block, in order. -/
def AArea.stage (a : AArea) (row red stage : Nat) : List PassId :=
  (List.range (a.stagePasses stage)).map (fun k =>
    { item := row, red := red, stage := stage, sub := k, tag := a.tag row red stage k })

/-- The passes of a block, in order (R245). -/
def AArea.blockPasses (a : AArea) (row red : Nat) : List PassId :=
  ([1, 2, 3, 4, 5].map (a.stage row red)).flatten

/-! ### Positions and masks (R254, R257, R258) -/

/-- Position of entry `i` of a key list (R254). -/
def keyPos : List PageRow → Nat → Nat
  | [], _ => 0
  | p :: ps, i => if i < p.tokens then p.pos + i else keyPos ps (i - p.tokens)

/-- First and last position of the queries of a block. -/
def queryRange (q : SeqRow) (qb j : Nat) : Nat × Nat :=
  (q.posQ + j * 2 ^ qb, q.posQ + min ((j + 1) * 2 ^ qb) q.qCount - 1)

/-- First and last position of the keys of a block. -/
def ARun.keyRange (r : ARun) (round : Nat) (q : SeqRow) (kb : Nat) : Nat × Nat :=
  let ps := r.pagesOf round q
  (keyPos ps (kb * 512), keyPos ps (min ((kb + 1) * 512) (r.keyCount round q) - 1))

/-- The segment id of the token at a position (R257). -/
def ARun.segAt (r : ARun) (q : SeqRow) (x : Nat) : Nat := nth 0xFFFFFFFF r.segs (q.segRow + x)

/-- Segment ids of a range of positions that mask nothing by themselves. -/
def ARun.segsOf (r : ARun) (q : SeqRow) (range : Nat × Nat) : List Nat :=
  ((List.range (range.2 + 1 - range.1)).map (fun k => r.segAt q (range.1 + k))).filter (· != 0xFFFFFFFF)

/-- Two lists of ids have ranges that meet. -/
def rangesMeet (xs ys : List Nat) : Bool :=
  !xs.isEmpty && !ys.isEmpty &&
  decide (xs.foldl min (nth 0 xs 0) ≤ ys.foldl max 0) && decide (ys.foldl min (nth 0 ys 0) ≤ xs.foldl max 0)

/-- Every pair of a block is masked, as R258 decides it (log entry 21). -/
def ARun.skips (r : ARun) (a : AArea) (q : SeqRow) (j round kb : Nat) : Bool :=
  let (q0, q1) := queryRange q a.qbLog2 j
  let (k0, k1) := r.keyRange round q kb
  let before := decide (q1 < k0)
  let doc := !rangesMeet (r.segsOf q (q0, q1)) (r.segsOf q (k0, k1))
  decide (r.keyCount round q ≤ kb * 512) ||
  match a.mask with
  | 1 => before
  | 2 => before || decide (k1 + a.win ≤ q0)
  | 3 => doc
  | 4 => doc || before
  | _ => false

/-- The pair is kept (R257). -/
def AArea.keeps (a : AArea) (p : KilnPair) : Bool :=
  let d : Int := (p.qpos : Int) - p.kpos
  let seg := p.segq == p.segk && p.segq != 0xFFFFFFFF && p.segk != 0xFFFFFFFF
  !p.absent &&
  match a.mask with
  | 0 => true
  | 1 => decide (0 ≤ d)
  | 2 => decide (0 ≤ d) && decide (d < a.win)
  | 3 => seg
  | _ => seg && decide (0 ≤ d)

/-- bucket(d) (R255). -/
def bucket (d : Int) : Nat :=
  let m := d.natAbs
  let i := if m < 16 then m else 16 + min (log2 m - 4) 15
  if 0 ≤ d then 32 + i else 31 - i

/-! ### Work of a round (R265, R266) -/

/-- The blocks of one round, in the order of R266: sequence, key block, head, query block; each with its row,
its number and whether it is skipped. -/
def ARun.roundBlocks (r : ARun) (a : AArea) (round : Nat) : List (Nat × Nat × Bool) :=
  let rowBase := fun k => ((r.seqs.take k).map (fun q => a.heads * q.qBlocks a.qbLog2)).sum
  ((List.range r.seqs.length).map (fun k =>
    let q := nth default r.seqs k
    let n := q.qBlocks a.qbLog2
    ((List.range (r.keyBlocks round q)).map (fun kb =>
      ((List.range a.heads).map (fun h =>
        (List.range n).map (fun j =>
          (rowBase k + h * n + j, r.seqBase round k + kb,
            r.skips a q j round kb)))).flatten)).flatten)).flatten

/-- The bench, of `n`, that takes a row (R265). -/
def ARun.rowBench (r : ARun) (a : AArea) (n row : Nat) : Nat := row / max (ceilDiv (r.rows a) (max n 1)) 1

/-- Pages of a key block: indices in the page table of the pages that hold its entries. -/
def pagesIn : List PageRow → Nat → Nat → Nat → Nat → List Nat
  | [], _, _, _, _ => []
  | p :: ps, k, at', lo, hi =>
    (if at' < hi ∧ lo < at' + p.tokens then [k] else []) ++ pagesIn ps (k + 1) (at' + p.tokens) lo hi

/-- Page table indices that a block of round 0 reads. -/
def ARun.blockPages (r : ARun) (a : AArea) (red : Nat) : List Nat :=
  match r.blockOf a red with
  | some (k, 0, kb) =>
    let q := nth default r.seqs k
    pagesIn (r.pagesOf 0 q) q.ptFirst 0 (kb * 512) ((kb + 1) * 512)
  | _ => []

/-- A block may begin: its pages of the CXL pool have been copied (R263), and the row's Δ has been made where
the cut makes it (R253). -/
def ARun.blockReady (r : ARun) (a : AArea) (p : PassId) : Bool :=
  p.stage != 1 ||
  ((r.blockPages a p.red).all (fun k =>
      !(nth default (Tab.get [] r.pages 0) k).res || r.copied.contains k) &&
    (!a.deltaMake || (Tab.find r.delta p.item).isSome))

/-- What a bench whose feeders are empty runs again before a pass: the stage whose kiln results a pass of stage 2
or 4 reads, or the passes of a kiln stage before it (R276). -/
def AArea.remake (a : AArea) (p : PassId) : List PassId :=
  if p.stage = 2 ∨ p.stage = 4 then a.stage p.item p.red (p.stage - 1)
  else if p.stage = 5 then []
  else (a.stage p.item p.red p.stage).take p.sub

/-- What a bench of another position runs again before a pass, since its staging holds nothing of the block
(R251, R276, R380). -/
def AArea.remakeAll (a : AArea) (p : PassId) : List PassId :=
  match p.stage with
  | 1 => (a.stage p.item p.red 1).take p.sub
  | 2 => a.stage p.item p.red 1
  | 3 => a.stage p.item p.red 1 ++ (a.stage p.item p.red 3).take p.sub
  | _ => a.stage p.item p.red 1 ++ a.stage p.item p.red 3

/-- Passes of a list with what `remakeAll` adds before the first open pass of the first block. -/
def AArea.withRemake (a : AArea) : List PassId → List PassId
  | [] => []
  | p :: ps => a.remakeAll p ++ p :: ps

end Sys2Proof.Machine
end

