-- ==== Sys2Proof/Machine/Control.lean ====
section
/-! DEFINITION. Stopping and resuming cuts, halting a working, what a tile loses when its supply is gated,
and retirement of lanes, benches, faces, buffers and units with the fills and adoptions that follow
(R92, R169, R334, R364 to R384). -/

namespace Sys2Proof.Machine

/-! ### What a tile loses -/

/-- A face that enters OFF loses its benches' contents, its kiln state and its counters (R334). -/
def State.faceLost (s : State) (n : Nat) : State :=
  let s1 := s.modFace n (fun f => { f with unchk := [], reloc := [], frz := [], econBits := 0, freq := 0 })
  { s1 with
    benches := s1.benches.filter (fun e => !(decide (e.1 / 4 = n) && e.2.cut.isNone))
    kilns := s1.kilns.filter (fun e => !decide (e.1 / 4 = n)) }

/-- A port whose image is gone (R337, R430). -/
def Port.disable (q : Port) : Port :=
  { Port.reset with lastTx := q.lastTx, retryTx := q.retryTx, retryRx := q.retryRx,
                    retrains := q.retrains, discards := q.discards, peer := q.peer,
                    module := q.module, half := q.half }

/-- A face that no image names any longer: its service, or the fill that was to bring it in, is over (R175, R334). -/
def Face.unserve (f : Face) : Face :=
  if f.role = .inService ∨ f.role = .filling then
    { f with role := .spare, working := 0, position := 0, fill := 0, reduced := false, serves := 0x7F }
  else f

/-- The yard that enters OFF loses tallies, hoist state, schedule state, region contents and the image in
force, and every register of the yard domain returns to its reset value (R334, R427). The retirement of a
unit is kept in the spare map (R373). -/
def State.yardLost (s : State) : State :=
  { s with
    image := none, cfgDigest := [], load := LoadState.reset, tables := Tables.reset, refused := [],
    tallies := [], apertureErr := 0, working := [], cuts := [], seams := [], results := [], slots := [],
    hoists := [], tpbs := [], tileSlots := [], klnPerr := [], drvPerr := [], xruns := [], aruns := [],
    benches := [], kilns := [], moves := [],
    faces := s.faces.map (fun e => (e.1, e.2.unserve)),
    units := s.units.map (fun e => (e.1, { UnitState.reset with retired := e.2.retired })),
    yard := { Yard.reset with mem := s.yard.mem },
    ports := s.ports.map (fun e => (e.1, e.2.disable)),
    fills := { queue := [], waiting := [], adopted := [] },
    pairs := s.pairs.filter (fun e => (regTile (e.1 / 2)).isNone) }

/-- A tile enters OFF (R334). -/
def State.tileOff (s : State) (k : Nat) : State :=
  let s1 := s.setClk k .off
  if k < 72 then s1.faceLost k else if k = yardTile then s1.yardLost else s1

/-! ### Stopping and resuming -/

/-- Class of a cut kind, 1 highest (R181). -/
def kindClass (kind : Nat) : Nat :=
  if kind = 1 ∨ kind = 3 then 1 else if kind = 4 ∨ kind = 5 then 2 else if kind = 2 then 3 else 4

/-- A cut that works on benches: D, W or A. -/
def usesBenches (kind : Nat) : Bool := decide (1 ≤ kind) && decide (kind ≤ 3)

/-- A hoist between streams: its stream's data and receivers are gone; template, re-arm index and counters
stay (R159). -/
def Hoist.idleNow (h : Hoist) : Hoist :=
  { h with cut := none, st := if h.tmpl.isSome then .idle else .none, occ := 0, attached := 0, taken := [],
           detachedTo := [], source := none, timer := 0, reqs := [], nextSeq := 0, deliver := 0, out := [],
           parked := [], sleepStall := false, ended := false, mark := 0 }

/-- A stopped stream (R169): a read stream drops what it has not delivered and its resume position is the
start of the pass or of the load in use; a write stream keeps the writes whose data it holds; a detach hoist is idle
again, since its receiver returns to the multicast (R155). -/
def Hoist.stop (h : Hoist) : Hoist :=
  if h.cut.isNone then h
  else if h.source.isSome then h.idleNow
  else { h with st := .stopped, pos := if h.out = [] then h.mark else h.pos, reqs := [],
                occ := ceilDiv h.out.length 64, timer := 0 }

/-- All RECV_N receivers of a template, as a mask. -/
def Hoist.allReceivers (h : Hoist) : Nat :=
  match h.tmpl with
  | some t => 2 ^ t.recvN - 1
  | none => 0

/-- A resumed stream: every receiver is attached again, and the stream reads again from its resume position
(R169). -/
def Hoist.resume (h : Hoist) : Hoist :=
  if h.st = .stopped then
    { h with st := .stream, attached := h.allReceivers, detachedTo := [], nextSeq := h.pos / 64,
             deliver := h.pos / 64, taken := h.taken.map (fun _ => h.pos / 4096) }
  else h

/-- A hoist feeds a bench: one of its receivers names the face whose place face `n` holds, and the bench. -/
def State.feeds (s : State) (h : Hoist) (n b : Nat) : Bool :=
  match h.tmpl with
  | some t => (t.recv.take t.recvN).any (fun r => s.placeOf r.face == n && r.bench == b)
  | none => false

/-- The resume position of the streams that feed a bench moves to where they stand at its pass boundary
(R169; log entry 13). -/
def State.markHoists (s : State) (e n b : Nat) : State :=
  { s with hoists := s.hoists.map (fun h : Nat × Hoist =>
      (h.1, if h.2.cut = some e && s.feeds h.2 n b then { h.2 with mark := h.2.pos } else h.2)) }

/-- A stopped bench takes no further product; its context is to be saved while a pass is in progress
(R92). -/
def Bench.halt (b : Bench) : Bench :=
  { b with stopped := true,
           savedTags := ((if b.activeB then b.feedB else b.feedA).tag,
                         (if b.activeB then b.feedA else b.feedB).tag) }

/-- Hoists that a cut holds stop. -/
def State.stopHoists (s : State) (e : Nat) : State :=
  { s with hoists := s.hoists.map (fun h => (h.1, if h.2.cut = some e then h.2.stop else h.2)) }

/-- Hoists that a cut holds resume. -/
def State.resumeHoists (s : State) (e : Nat) : State :=
  { s with hoists := s.hoists.map (fun h => (h.1, if h.2.cut = some e then h.2.resume else h.2)) }

/-- Benches that a cut holds stop. -/
def State.stopBenches (s : State) (e : Nat) : State :=
  { s with benches := s.benches.map (fun b => (b.1, if b.2.cut = some e then b.2.halt else b.2)) }

/-- Buffers discard the tiles of a stopped cut (R109). -/
def State.dropTiles (s : State) (e : Nat) : State :=
  { s with tileSlots := s.tileSlots.map (fun t => (t.1, t.2.filter (fun x => x.cut != e))) }

/-- Tiles of a stream whose segments have all gone out leave their slots: the stationary ones once the load is
full, the shared ones at the pass boundary (R104, R107; log entry 17). -/
def State.sentTiles (s : State) (e : Nat) (stream : Option TileStream) : State :=
  { s with tileSlots := s.tileSlots.map (fun t => (t.1, t.2.filter (fun x =>
      !(x.cut == e && some x.stream == stream)))) }

/-- A running cut stops with a status of 0x40 or 0x41 (R15, R383). -/
def State.stopCut (s : State) (e code fl : Nat) : State :=
  if (s.cut e).phase = .running then
    ((((s.modCut e (fun c => { c with phase := .stopped })).orFlags e (flag fl)).stopHoists e).stopBenches
      e).dropTiles e |>.setStatus e code
  else s

/-- Bit of FLAGS for a pre-empted cut (R193). -/
def flPreempted : Nat := 13
/-- Bit of FLAGS for a cut aborted by a fault (R193). -/
def flFaulted : Nat := 14
/-- Bit of FLAGS for reduced capacity (R193). -/
def flReduced : Nat := 15

/-- Benches that a cut holds go on: a bench whose context was saved waits for its restore (R94). -/
def State.resumeBenches (s : State) (e : Nat) : State :=
  { s with benches := s.benches.map (fun b =>
      (b.1, if b.2.cut = some e && b.2.saved.isNone then { b.2 with stopped := false } else b.2)) }

/-- A cut waits for a face whose retirement stopped it (R376). -/
def State.waitsForFace (s : State) (e : Nat) : Bool := s.fills.waiting.any (fun x => x.1 == e)

/-- A stopped cut resumes (R94, R383); a cut whose faces have not joined stays stopped (R376). Its benches
restore their contexts by CONTEXT_RESTORE_DONE. -/
def State.resumeCut (s : State) (e : Nat) : State :=
  if (s.cut e).phase = .stopped ∧ ¬ s.waitsForFace e = true then
    (((s.modCut e (fun c => { c with phase := .running, awaiting := [] })).resumeHoists e).resumeBenches e).setStatus e 0
  else s

/-- Every running cut of a working stops, pre-empted (R383). -/
def State.preemptWorking (s : State) (w : Nat) : State :=
  (s.liveOf w).foldl (fun t e => t.stopCut e 0x40 flPreempted) s

/-- Every stopped cut of a working resumes. -/
def State.resumeWorking (s : State) (w : Nat) : State :=
  (s.liveOf w).foldl State.resumeCut s

/-- REPLAYS of a cut raised, saturating (R192). -/
def State.addReplays (s : State) (e k : Nat) : State :=
  s.modCut e (fun c => { c with replays := satAdd 16 c.replays k })

/-- Passes that an abort of a bench replays: the pass in progress or saved, and the shadow before its fold or drain. -/
def Bench.abortCount (b : Bench) : Nat :=
  b.cur.toList.length + b.saved.toList.length + match b.shadow with
    | some sh => if sh.drained then 0 else 1
    | none => 0

/-- Passes that a cut discards on its benches of some keys. -/
def State.discards (s : State) (e : Nat) (on : Nat → Bool) : Nat :=
  ((s.benches.filter (fun b : Nat × Bench => b.2.cut == some e && on b.1)).map (fun b => b.2.abortCount)).sum

/-- The passes of a cut's benches in progress are discarded, with the shadows whose fold or drain has not
begun; they run again from their start (R95). -/
def Bench.discard (b : Bench) : Bench :=
  let back := match b.shadow with
    | some sh => if sh.drained then [] else [sh.pass]
    | none => []
  { b with work := back ++ b.cur.toList ++ b.saved.toList ++ b.work, cur := none, taken := false, pockets := [], group := 0,
           pocket := 0, span := false, shadow := match b.shadow with
             | some sh => if sh.drained then some sh else none
             | none => none
           nextPre := none, nextSigma := [], saved := none }

/-- A fault aborts the passes of a cut's benches: the cut shows 0x41 (R95, R15). -/
def State.abortPasses (s : State) (e : Nat) : State :=
  let s1 : State := { s with benches := s.benches.map (fun b =>
    (b.1, if b.2.cut = some e then b.2.discard else b.2)) }
  ((s1.addReplays e (s.discards e (fun _ => true))).orFlags e (flag flFaulted)).setStatus e 0x41

/-- The engine halts a working (R365): its sequencer stops, the cut at fault `at'` loses its unusable
passes, its other running cuts are pre-empted, and every stopped cut shows 0x41. `cause` is the row of
R364. -/
def State.halt (s : State) (w cause arg : Nat) (at' : Option Nat) : State :=
  let s1 := s.modWork w (fun x => { x with seq := .halted })
  let s2 := match at' with
    | some e => (s1.abortPasses e).stopCut e 0x41 flFaulted
    | none => s1
  let s3 := (s2.liveOf w).foldl (fun t e => t.stopCut e 0x41 flPreempted) s2
  (s3.setEvt evHalt).logRec 0x0205 w 0 cause arg

/-! ### Waits (R181, R189) -/

/-- A wait is met in step `step` (R189); a threshold above 2⁶⁴ − 1 never is. -/
def State.waitMet (s : State) (step : Nat) (x : WaitDesc) : Bool :=
  x.idx == 0xFFFF ||
    (decide (x.base + x.perStep * step ≤ 2 ^ 64 - 1) && decide (x.base + x.perStep * step ≤ s.tally x.idx))

/-- All waits of entry `e` are met in its working's step (R189). -/
def State.waitsMet (s : State) (e : Nat) : Bool :=
  (s.descOf e).waits.all (s.waitMet (s.work (s.descOf e).working).step)

/-- The entry may never start on its own: R141, R186. -/
def State.isRefused (s : State) (e : Nat) : Bool := (Tab.find s.refused e).isSome

/-- Faces of a cut by position (R66): the face that serves each named face, in ascending named id. -/
def State.cutFaces (s : State) (d : CutDesc) : List Nat := (bitList d.faces 72).map s.placeOf

/-- Faces by position that a descriptor names, and its benches of each (R66, R206). -/
def State.benchList (s : State) (d : CutDesc) : List (Nat × Nat) :=
  ((s.cutFaces d).map (fun n => (List.range d.benches).map (fun b => (n, b)))).flatten

/-! ### Retirement records -/

/-- Log flag MONITOR (R446). -/
def fromMonitor : Nat := 2
/-- Log flag INJECTED (R446). -/
def fromInject : Nat := 1

/-- ARG0 of a Retirement or Remap record (R446): kind and packed unit. -/
def unitArg (kind hi mid lo : Nat) : Nat := kind * 2 ^ 24 + hi * 2 ^ 16 + mid * 2 ^ 12 + lo

/-- A Retirement record and GLB.EVT.RETIRE (R422, R446). -/
def State.logRetire (s : State) (arg cause flags : Nat) (w : Nat := noWorking) : State :=
  (s.setEvt evRetire).logRec 0x0301 w flags arg cause

/-- A Remap record and GLB.EVT.RETIRE (R422, R446). -/
def State.logRemap (s : State) (arg new flags : Nat) (w : Nat := noWorking) : State :=
  (s.setEvt evRetire).logRec 0x0302 w flags arg new

/-- The working that a face's log records name (R446 and the example of R448): the one it serves or fills. -/
def State.ownerOf (s : State) (n : Nat) : Nat :=
  if (s.face n).role = .inService ∨ (s.face n).role = .filling then (s.face n).working else noWorking

/-- The state with the spare map changed (R373). -/
def State.modSpare (s : State) (f : SpareMap → SpareMap) : State := { s with spare := f s.spare }

/-! ### Lanes and benches -/

/-- Logical lane `l` of a physical bench moves to the lowest-numbered free spare lane (R88). -/
def State.remapLane (s : State) (n phys l flags : Nat) : State :=
  let used := Tab.get 0 s.spare.laneUsed (n * 5 + phys)
  let b := ((List.range 4).find? (fun b => s.physBench n b == phys)).getD 0
  (s.modSpare (fun m => { m with
      lanes := Tab.set m.lanes (laneKey n phys l) (512 + used),
      laneUsed := Tab.set m.laneUsed (n * 5 + phys) (used + 1) })).logRemap
    (unitArg 0 n b l) (512 + used) flags (s.ownerOf n)

/-- The face's physical bench that serves no logical bench and is not retired (R89). -/
def State.spareBench (s : State) (n : Nat) : Option Nat :=
  (List.range 5).find? (fun k =>
    !s.benchRetired n k && !((List.range 4).any (fun b => s.physBench n b == k)))

/-- Physical benches of a face that are not retired. -/
def State.goodBenches (s : State) (n : Nat) : Nat :=
  ((List.range 5).filter (fun k => !s.benchRetired n k)).length

/-- Benches in service of a face after retirements: at most 4 (R434). -/
def State.refreshBenches (s : State) (n : Nat) : State :=
  s.modFace n (fun f => { f with
    benches := min 4 (s.goodBenches n)
    reduced := f.reduced || decide (s.goodBenches n < 4) })

/-- A physical bench is recorded as retired; if the face's spare bench is free, it takes over the logical
bench that the retired one served (R89, R409). -/
def State.retireBench (s : State) (n phys cause flags : Nat) : State :=
  if s.benchRetired n phys then s
  else
    let s1 := (s.modSpare (fun m => { m with
      benchRet := Tab.update 0 m.benchRet n (fun x => setBit x phys) })).logRetire
        (unitArg 1 n phys 0) cause flags (s.ownerOf n)
    let s2 := match (List.range 4).find? (fun b => s.physBench n b == phys), s1.spareBench n with
      | some b, some k => (s1.modSpare (fun m => { m with
          benchMap := Tab.set m.benchMap (n * 4 + b) k })).logRemap (unitArg 1 n phys 0) (k * 2 ^ 12) flags (s.ownerOf n)
      | _, _ => s1
    s2.refreshBenches n

/-! ### Faces -/

/-- Faces that the image in force names in some working (R175). -/
def State.namedFaces (s : State) : List Nat :=
  match s.image with
  | some i => (List.range 72).filter (fun n => i.workings.any (fun w => bit w.2.faces n))
  | none => []

/-- A face reserved by a fill (R376). -/
def State.reservedFaces (s : State) : List Nat := s.fills.queue.map Fill.spare

/-- Free spare faces (R372, R374): the image names them in no working, or another face has taken the place that it
names them for; they are not retired, hold no place and are not reserved. -/
def State.freeFaces (s : State) : List Nat :=
  (List.range 72).filter (fun n =>
    (!(s.namedFaces.contains n) || s.placeOf n != n) && !s.faceGone n && !(s.reservedFaces.contains n) &&
    (s.face n).role == .spare)

/-- Entries whose cut holds a bench of physical face `n`. -/
def State.cutsOnFace (s : State) (n : Nat) : List Nat :=
  s.liveCuts.filter (fun e => s.benches.any (fun b => decide (b.1 / 4 = n) && b.2.cut == some e))

/-- The fill at the head of the queue begins its WAKE unless a fill is in WAKE, CONFIG or TEST (R377,
R378). -/
def State.startFill (s : State) : State :=
  match s.fills.queue with
  | [] => s
  | x :: rest =>
    if x.phase = .queued then
      let s1 : State := { s with fills := { s.fills with queue := { x with phase := .wake } :: rest } }
      (s1.modFace x.spare (fun f => { f with role := .filling, fill := 1, working := x.working,
                                             position := x.position })).wake x.spare
    else s

/-- The items of a pass list in the order in which one bench runs items: by reduction index within the
order of R206 and R229 for D and W, and by R266 for A. Passes of one item stay in pass order. -/
def passLe (kind : Nat) (a b : PassId) : Bool :=
  if kind = 2 then decide (a.red < b.red) || (a.red == b.red && decide (a.item ≤ b.item))
  else if kind = 3 then
    decide (a.red < b.red) || (a.red == b.red && (decide (a.item < b.item) || (a.item == b.item &&
      (decide (a.stage < b.stage) || (a.stage == b.stage && decide (a.sub ≤ b.sub))))))
  else decide (a.item < b.item) || (a.item == b.item && decide (a.red ≤ b.red))

/-- Insertion into a list in pass order. -/
def insertPass (kind : Nat) (p : PassId) : List PassId → List PassId
  | [] => [p]
  | q :: qs => if passLe kind p q then p :: q :: qs else q :: insertPass kind p qs

/-- Two pass lists merged in pass order. -/
def mergePasses (kind : Nat) (ps qs : List PassId) : List PassId := ps.foldr (insertPass kind) qs

/-- The face whose benches adopt the work of position `pos` of a cut (R380): the next in-service face in
ascending position, wrapping round, whose position equals `pos` modulo SPLIT. -/
def State.adopter (s : State) (d : CutDesc) (gone : Nat) : Option Nat :=
  let fs := s.cutFaces d
  let pos := (fs.findIdx? (· == gone)).getD 0
  let n := fs.length
  ((List.range n).map (fun i => (pos + 1 + i) % n)).findSome? (fun p =>
    let f := nth 0 fs p
    if f != gone && p % d.split == pos % d.split && (s.face f).role == .inService && !s.faceGone f then
      some f
    else none)

/-- Passes of a cut that a bench gains, in the order in which one bench runs them (R380): a bench that has yielded
the cut keeps them with the passes it yielded. -/
def Bench.gain (b : Bench) (e kind : Nat) (ps : List PassId) : Bench :=
  if b.cut = some e then { b with work := mergePasses kind ps b.work }
  else
    match b.yielded with
    | some (k, ws) => if k = e then { b with yielded := some (k, mergePasses kind ps ws) } else b
    | none => if b.cut.isNone then { b with cut := some e, work := ps } else { b with yielded := some (e, ps) }

/-- The passes of a cut that a bench still has to run; one whose shadow has not folded runs again (R380; log entry
18). -/
def Bench.itemsOf (b : Bench) (e : Nat) : List PassId :=
  if b.cut = some e then
    (match b.shadow with
      | some sh => if sh.cut = e then [sh.pass] else []
      | none => []) ++ b.cur.toList ++ b.saved.toList ++ b.work
  else
    match b.yielded with
    | some (k, ws) => if k = e then ws else []
    | none => []

/-- The saved context of a bench of cut `e`, to be restored on the bench that adopts its item (R94, R380). -/
def Bench.keeps (b : Bench) (e slot : Nat) : List KeptCtx :=
  match b.saved with
  | some p => if b.cut = some e then
      [{ pass := p, pockets := b.pockets, group := b.group, pocket := b.pocket, span := b.span, econ := b.econ
         chk := b.chk, tags := b.savedTags, slot := slot }]
    else []
  | none => []

/-- A bench without the passes of a cut that another bench has adopted. -/
def Bench.giveUp (b : Bench) (e : Nat) : Bench :=
  if b.cut = some e then { Bench.reset with yielded := b.yielded }
  else
    match b.yielded with
    | some (k, _) => if k = e then { b with yielded := none } else b
    | none => b

/-- Bench `b` of face `n` hands its passes of cut `e` to the same bench of face `m`; a saved context goes with its item
and keeps its slot (R380). -/
def State.adoptBench (s : State) (e n m b : Nat) : State :=
  let old := s.bench n b
  let items := old.itemsOf e
  if items.isEmpty then s.modBench n b (fun x => x.giveUp e)
  else
    let again := match (s.cut e).desc.area with
      | .a a => a.withRemake items
      | _ => items
    let s1 := (s.modBench m b (fun x => x.gain e (s.cut e).desc.kind again)).modBench n b (fun x => x.giveUp e)
    s1.modCut e (fun c => { c with kept := old.keeps e ((s.face n).position * 4 + b) ++ c.kept })

/-- Cuts of a working may go on: it is neither pre-empted nor halted, and no test drain holds it (R365, R383, R445). -/
def State.mayGoOn (s : State) (w : Nat) : Bool :=
  !s.preempted w && (s.work w).seq != .halted && !(s.snap.phase == .holding && s.snap.test)

/-- A bench of a retired face has a pass of the cut in progress: its context is still to be saved (R376). -/
def State.unsaved (s : State) (n e : Nat) : Bool :=
  s.benches.any (fun b : Nat × Bench => decide (b.1 / 4 = n) && b.2.cut == some e && b.2.cur.isSome)

/-- The work of a retired face in cut `e` is adopted, once the contexts of its benches are saved; with no face that
qualifies the working halts (R376, R380). -/
def State.adoptCut (s : State) (n e : Nat) : State :=
  let d := (s.cut e).desc
  match s.adopter d n with
  | some m =>
    if s.unsaved n e then s
    else
    let s1 := (List.range 4).foldl (fun t b => t.adoptBench e n m b) s
    let s2 := (s1.orFlags e (flag flReduced)).modFace m (fun f => { f with reduced := true })
    let s3 : State := { s2 with fills := { s2.fills with
      waiting := s2.fills.waiting.filter (fun x => !(x.1 == e && x.2 == n))
      adopted := (e, n) :: s2.fills.adopted } }
    if s3.mayGoOn d.working then s3.resumeCut e else s3
  | none => if (s.work d.working).seq = .halted then s else s.halt d.working 2 n (some e)

/-- Cuts that have yielded a bench of a face (R182). -/
def State.yieldedOn (s : State) (n : Nat) : List Nat :=
  s.benches.filterMap (fun b : Nat × Bench => if b.1 / 4 = n then b.2.yielded.map Prod.fst else none)

/-- Adoption of a retired face's work, cut by cut (R380). -/
def State.adopt (s : State) (n : Nat) : State :=
  (distinct ((s.fills.waiting.filter (fun x => x.2 == n)).map Prod.fst ++ s.yieldedOn n)).foldl
    (fun t e => t.adoptCut n e) s

/-- A retired face whose place no fill is to take: its work is adopted (R380). -/
def State.adopted (s : State) (n : Nat) : Bool := s.faceGone n && !(s.fills.queue.any (fun x => x.face == n))

/-- Adoption that waited for the contexts of a retired face (R376, R380). -/
def State.settle (s : State) (n : Nat) : State := if s.adopted n then s.adopt n else s

/-- Rows of R375 that keep a face running while no spare face is free. -/
def keepsRunning (cause : Nat) : Bool := cause == 0 || cause == 3

/-- Rows of R375 whose pockets are discarded. -/
def discardsPockets (cause : Nat) : Bool := cause == 1 || cause == 2

/-- A face leaves service (R376): every cut on it stops, its pockets are saved or discarded as the cause's
row says, it goes to OFF and is recorded as retired. -/
def State.dropFace (s : State) (n cause flags : Nat) : State :=
  let cuts := s.cutsOnFace n
  let s1 := cuts.foldl (fun t e =>
    let u := if discardsPockets cause then
        State.addReplays { t with benches := t.benches.map (fun b =>
            (b.1, if b.2.cut = some e && decide (b.1 / 4 = n) then b.2.discard else b.2)) } e
          (t.discards e (fun k => decide (k / 4 = n)))
      else t
    let v := u.stopCut e (if discardsPockets cause then 0x41 else 0x40)
      (if discardsPockets cause then flFaulted else flPreempted)
    { v with fills := { v.fills with waiting := (e, n) :: v.fills.waiting } }) s
  let s2 := s1.modFace n (fun f => { f with role := .retired, fill := 0, reduced := false, serves := 0x7F })
  let s3 := (s2.modSpare (fun m => { m with faceRet := n :: m.faceRet })).setClk n .off
  s3.logRetire (unitArg 2 0 0 n) cause flags (s.ownerOf n)

/-- The image's face id whose place a face holds. -/
def State.namedOf (s : State) (n : Nat) : Nat :=
  if (s.face n).serves = 0x7F then n else (s.face n).serves

/-- The engine retires a face for a row of R375. A face in service reserves the lowest-numbered free spare,
logged as its Remap before the Retirement (log entry 29), and its fill joins the queue; with none free, rows 0 and 3 keep it running with REDUCED and every other
cause leads to adoption (R375, R376, R379, R380). -/
def State.retireFace (s : State) (n cause flags : Nat) : State :=
  if s.faceGone n then s
  else if (s.face n).role = .inService then
    match s.freeFaces with
    | sp :: _ =>
      let x : Fill := { face := n, working := (s.face n).working, position := (s.face n).position,
                        spare := sp, phase := .queued, saved := !discardsPockets cause }
      let s1 := (s.logRemap (unitArg 2 0 0 n) sp flags (s.ownerOf n)).dropFace n cause flags
      State.startFill { s1 with fills := { s1.fills with queue := s1.fills.queue ++ [x] } }
    | [] =>
      if keepsRunning cause then s.modFace n (fun f => { f with reduced := true })
      else (s.dropFace n cause flags).adopt n
  else
    let s1 := s.modFace n (fun f => { f with role := .retired, fill := 0, serves := 0x7F })
    ((s1.modSpare (fun m => { m with faceRet := n :: m.faceRet })).setClk n .off).logRetire
      (unitArg 2 0 0 n) cause flags (s.ownerOf n)

/-- A bench that another face takes over reloads its feeders from source (R377); one whose next pass reads what
the kiln made runs that stage again first (R276). -/
def Bench.reload (b : Bench) (remake : PassId → List PassId) : Bench :=
  { b with
    feedA := FeederSide.empty, feedB := FeederSide.empty, activeB := false, nextPre := none, nextSigma := []
    work := match b.cur, b.work with
      | none, p :: ps => remake p ++ p :: ps
      | _, ps => ps }

/-- The benches of a retired face, with their passes, move to the spare that joins in its place (R377). -/
def State.moveBenches (s : State) (n m : Nat) : State :=
  (List.range 4).foldl (fun t b =>
    let old := t.bench n b
    (t.modBench m b (fun _ => old.reload (fun p => match old.cut with
      | some e => match (t.cut e).desc.area with
        | .a a => a.remake p
        | _ => []
      | none => []))).modBench n b (fun _ => Bench.reset)) s

/-- Cuts that waited for face `n` and wait for no other face resume (R376). -/
def State.joinCuts (s : State) (n : Nat) : State :=
  let es := (s.fills.waiting.filter (fun x => x.2 == n)).map Prod.fst
  let s1 : State := { s with fills := { s.fills with
    waiting := s.fills.waiting.filter (fun x => x.2 != n) } }
  es.foldl (fun t e =>
    if t.mayGoOn (t.cut e).desc.working then t.resumeCut e else t) s1

/-- The working whose FACES name a face (R175). -/
def State.workingOf (s : State) (n : Nat) : Option Nat :=
  match s.image with
  | some i => (i.workings.find? (fun w => bit w.2.faces n)).map Prod.fst
  | none => none

/-- Position of a named face in its working (R66, R434). -/
def State.positionOf (s : State) (w n : Nat) : Nat :=
  match s.image with
  | some i => (i.workingFaces w).idxOf n
  | none => 0

/-- A face that passed its self-test returns (R374): as a free spare, or, where the image names it and no other face
has its place, into its working at its position. -/
def State.rejoin (s : State) (n : Nat) : State :=
  let s1 := s.modSpare (fun m => { m with
    faceRet := m.faceRet.filter (· != n), faceFailed := m.faceFailed.filter (· != n) })
  match (if s.placeOf n = n then s.workingOf n else none) with
  | some w => s1.modFace n (fun f => { f with
      role := .inService, fill := 0, working := w, position := s.positionOf w n, serves := 0x7F
      benches := min 4 (s.goodBenches n), reduced := decide (s.goodBenches n < 4) })
  | none => s1.modFace n (fun f => { f with
      role := .spare, fill := 0, working := 0, position := 0, serves := 0x7F, reduced := false
      benches := min 4 (s.goodBenches n) })

/-- A spare joins in a retired face's place (R373, R377): it takes the place, the position and the work, and
stopped cuts resume. A face that fills its own place returns to it (R201, R374). -/
def State.join (s : State) (x : Fill) : State :=
  if x.spare = x.face then
    let s1 := (s.rejoin x.face).joinCuts x.face
    State.startFill { s1 with fills := { s1.fills with queue := s1.fills.queue.drop 1 } }
  else
  let named := s.namedOf x.face
  let s1 := s.modFace x.spare (fun f => { f with role := .inService, fill := 0, working := x.working,
                                                 position := x.position, serves := named })
  let s2 := s1.modSpare (fun m => { m with facePlace := Tab.set m.facePlace named x.spare })
  let s3 := (s2.moveBenches x.face x.spare).joinCuts x.face
  State.startFill { s3 with fills := { s3.fills with queue := s3.fills.queue.drop 1 } }

/-- The fill of the face at the head of the queue starts again on the first free spare, or its work is adopted
(R379, R380; log entry 29). -/
def State.refill (s : State) (x : Fill) (rest : List Fill) (free : List Nat) : State :=
  match free with
  | sp :: _ =>
    let s1 := s.logRemap (unitArg 2 0 0 x.face) sp 0 x.working
    State.startFill { s1 with fills := { s1.fills with queue := { x with spare := sp, phase := .queued } :: rest } }
  | [] => (State.adopt { s with fills := { s.fills with queue := rest } } x.face).startFill

/-- The spare at the head of the queue fails its fill with a row of R375: it is marked failed and retired,
and the fill restarts on the lowest-numbered free spare, or the work is adopted (R379, R380). -/
def State.fillFail (s : State) (cause : Nat) : State :=
  match s.fills.queue with
  | [] => s
  | x :: rest =>
    let s1 := s.modFace x.spare (fun f => { f with role := .failed, fill := 0, serves := 0x7F })
    let s2 := ((s1.modSpare (fun m => { m with faceFailed := x.spare :: m.faceFailed })).setClk x.spare
      .off).logRetire (unitArg 2 0 0 x.spare) cause 0 x.working
    s2.refill x rest (if x.spare = x.face ∧ s.placeOf x.face ≠ x.face then [] else s2.freeFaces)

/-- A spare face freed: faces that kept running with fewer than 4 benches are retired now (R375, row 0),
lowest face id first. -/
def State.recheckBenches (s : State) : State :=
  (List.range 72).foldl (fun t n =>
    if (t.face n).role == .inService && decide (t.goodBenches n < 4) && !t.freeFaces.isEmpty then
      t.retireFace n 0 0
    else t) s

/-! ### Buffers and units -/

/-- A physical buffer is retired; the logical buffer it served maps to the lowest-numbered healthy buffer
not in service, which wakes (R111); with fewer than 6 healthy buffers R112 maps them. -/
def State.retireBuffer (s : State) (j cause flags : Nat) : State :=
  if s.spare.bufRet.contains j then s
  else
    let k := (List.range 6).find? (fun k => s.bufPhys k == j)
    let free := s.healthyBufs.find? (fun i => i != j && !((List.range 6).any (fun k => s.bufPhys k == i)))
    let s1 := s.modSpare (fun m => { m with bufRet := j :: m.bufRet })
    let s2 := s1.logRetire (unitArg 4 0 0 j) cause flags
    let s3 := match k, free with
      | some k, some i =>
        ((s2.modSpare (fun m => { m with bufMap := Tab.set m.bufMap k i })).logRemap
          (unitArg 4 0 0 j) i flags).wake (bufTile i)
      | _, _ => s2
    { s3 with tileSlots := Tab.set s3.tileSlots j [] }.setClk (bufTile j) .off

/-- A unit without a spare is retired (R381). -/
def State.retireUnit (s : State) (kind n cause flags : Nat) : State :=
  if (s.unit kind n).retired then s
  else
    ((s.modUnit kind n (fun u => { u with retired := true })).modSpare (fun m =>
      { m with unitRet := (kind * 16 + n) :: m.unitRet })).logRetire (unitArg kind 0 0 n) cause flags

/-- A failing bank moves to the lowest-numbered free spare bank at boot: nothing to copy (R409). -/
def State.remapBank (s : State) (phys : Nat) : State :=
  match (List.range 256).find? (fun b => s.bankPhys b == phys), s.freeBanks with
  | some b, sp :: _ =>
    (s.modSpare (fun m => { m with bankMap := Tab.set m.bankMap b sp,
                                   bankRet := phys :: m.bankRet })).logRemap (unitArg 3 0 0 phys) sp 0
  | none, _ => (s.modSpare (fun m => { m with bankRet := phys :: m.bankRet })).logRetire
      (unitArg 3 0 0 phys) 0 0
  | some _, [] => (s.setEvt evYard).logEvt (Config.unnamedCode 1) (unitArg 3 0 0 phys) 0

/-! ### The self-test (R409) -/

/-- What the self-test of a face found: lanes, then benches, then the face (R409, R377). Returns the state
with lanes and benches absorbed; the face fails when fewer than 4 benches remain or a unit failed. -/
def State.absorbTest (s : State) (t : FaceTest) : State :=
  let n := t.face.val
  let s1 := t.lanes.foldl (fun u x =>
    if u.benchRetired n x.1.val then u
    else if 0 < u.freeLanes n x.1.val then u.remapLane n x.1.val x.2.val 0
    else u.retireBench n x.1.val 2 0) s
  (t.benches.foldl (fun u k => u.retireBench n k.val 4 0) s1).refreshBenches n

/-- The face fails its self-test (R409). -/
def State.testFails (s : State) (t : FaceTest) : Bool :=
  t.unit || decide (s.goodBenches t.face.val < 4)

end Sys2Proof.Machine
end

