-- ==== Sys2Proof/Machine/Bench.lean ====
section
/-! DEFINITION. Benches: operand types, pockets, the scale unit, feeders and the stationary swap, the pass
boundary, the checksum check with location, remap and retirement, yielding, and context save and restore
(R48 to R56, R69, R71 to R96, R100, R182, R245). -/

namespace Sys2Proof.Machine

/-! ### Modes (R69, R90, R434) -/

/-- The bits of ACC_MODE that a preset stands for: E128, promotion, economy, governor (R69). -/
structure AccMode where
  e128 : Bool
  promote : Bool
  econ : Bool
  gov : Bool
  deriving DecidableEq, Repr, Inhabited

/-- ACC_MODE of a face (R69, R434). -/
def Face.accMode (f : Face) : AccMode :=
  let w := f.acc.toNat
  match w % 8 with
  | 0 => { e128 := false, promote := true, econ := false, gov := false }
  | 1 => { e128 := true, promote := false, econ := false, gov := false }
  | 2 => { e128 := false, promote := true, econ := false, gov := true }
  | 3 => { e128 := false, promote := false, econ := true, gov := false }
  | _ => { e128 := bit w 4, promote := bit w 5, econ := bit w 6, gov := bit w 7 }

/-- CHK_MODE of a face (R90, R434). -/
def Face.chkMode (f : Face) : ChkMode :=
  let w := f.chk.toNat
  match w % 8 with
  | 0 => { col := false, row := false, replays := 1, pair := false }
  | 1 => { col := true, row := false, replays := 1, pair := false }
  | 2 => { col := true, row := true, replays := 1, pair := true }
  | _ => { col := bit w 4, row := bit w 5, replays := bits w 7 6, pair := bit w 8 }

/-! ### Operands of a pass -/

/-- The map of a cut's role, as the cut read it when it started (R142). -/
def CutRun.mapOf (c : CutRun) (role : Nat) : Option MapDesc := Tab.find c.maps (nth 0xFFFF c.desc.maps role)

/-- The type of a cut's role map. -/
def CutRun.typeOf (c : CutRun) (role : Nat) : Nat :=
  match c.mapOf role with
  | some m => m.type
  | none => 0

/-- The declared format of an operand (R100, R183). -/
def declType (stored code : Nat) : Nat := if code = 1 then 0 else if code = 2 then 1 else stored

/-- The area of an A-cut. -/
def CutRun.aArea (c : CutRun) : AArea :=
  match c.desc.area with
  | .a x => x
  | _ => default

/-- Types of the shared and the stationary operand of a pass (R100, R183, R245, R247). -/
def CutRun.passTypes (c : CutRun) (p : PassId) : Nat × Nat :=
  if c.desc.kind = 3 then
    let q := c.aArea.qfmt
    match p.stage with
    | 1 => (q, q)
    | 2 => (c.typeOf 4, 0)
    | 3 => (c.typeOf 4, q)
    | 4 => (q, 1)
    | _ => (q, 1)
  else
    (declType (c.typeOf 0) (c.desc.decl % 4), declType (c.typeOf 1) (c.desc.decl / 4 % 4))

/-- The stream of tiles that a pass's shared operand comes through (R99, R245). -/
def CutRun.passStream (c : CutRun) (p : PassId) : Option TileStream :=
  if c.desc.kind = 3 then
    match p.stage with
    | 1 => some .shared
    | 2 => some .outGrad
    | 3 => none
    | 4 => some .queries
    | _ => some .keys
  else some .shared

/-- The stream of tiles that a pass's stationary operand comes through: in an A-cut, K and V alone (R245, R246). -/
def CutRun.loadStream (c : CutRun) (p : PassId) : Option TileStream :=
  if c.desc.kind = 3 then (if p.stage = 1 ∨ p.stage = 3 then some .pages else none) else some .stationary

/-- The float path: either operand is BF16 (R48). -/
def floatPath (t : Nat × Nat) : Bool := t.1 == 3 || t.2 == 3

/-- The scale mode is ACROSS (R75); every stationary operand of an A-cut is ALONG (R245). -/
def CutRun.across (c : CutRun) : Bool := c.desc.kind != 3 && c.desc.stScale == 1

/-- The scale code of lane `l`, term `t` in the stationary scale store (R75). -/
def scaleCode (across : Bool) (load : StatLoad) (l t : Nat) : Nat :=
  if across then nth 0 (nth [] load.scales (l / 32)) t else nth 0 (nth [] load.scales l) (t / 32)

/-- The scale codes of a lane's terms. -/
def laneScales (across : Bool) (load : StatLoad) (l n : Nat) : List Nat :=
  (List.range n).map (scaleCode across load l)

/-- The values of a list of codes with their scale codes. -/
def valsOf (type : Nat) (codes scales : List Nat) : List Val :=
  if isMx type then List.zipWith (fun c k => elemScaled type c k) codes scales
  else codes.map (elemVal type)

/-- Terms of one face cycle (R72). -/
def groupTerms (t : Nat × Nat) : Nat :=
  if floatPath t then 2 else if t.1 = 2 ∨ t.2 = 2 then 16 else 8

/-- σ_max of one pocket (R49): the largest sum of scale exponents over pairs without a NaN code. -/
def sigmaMax (sa sb : List Nat) : Option Int :=
  (List.zip sa sb).foldl (fun a x =>
    match scaleExp x.1, scaleExp x.2 with
    | some i, some j =>
      match a with
      | some m => some (max m (i + j))
      | none => some (i + j)
    | _, _ => a) none

/-- σ_max of every pocket of a pass, by pocket and lane (R49, R78). -/
def sigmas (across : Bool) (load : StatLoad) (pre : List (List Nat)) : List (List (Option Int)) :=
  pre.map (fun codes => (List.range load.lanes.length).map (fun l =>
    sigmaMax codes (laneScales across load l codes.length)))

/-- The anchor of a pocket: σ_max − 74, or σ_max − 26 in economy (R49, R54). -/
def anchorOf (econ : Bool) (s : Option Int) : Int := s.getD 0 - (if econ then 26 else 74)

/-- A pocket that accumulates, with whether a product was truncated (R51). -/
structure Accum where
  p : Pocket
  lost : Bool
  deriving DecidableEq, Repr, Inhabited

/-- One product on the exact path: truncated on its own at the anchor, then added (R51, R42). -/
def addProduct (a : Accum) (x : Val × Val) : Accum :=
  match x.1.mul x.2 with
  | .nan => { a with p := { a.p with nan := true } }
  | .num m e => { p := { a.p with w := a.p.w + truncAt m e a.p.e }, lost := a.lost || lostAt m e a.p.e }

/-- A value rounded to the float path's 48-bit significand, to nearest even. -/
def round48 (v : Val) : Val :=
  match v with
  | .nan => .nan
  | .num m e => if m = 0 then .num 0 0
      else
        let q := topBit m e - 47
        if q ≤ e then .num m e else .num (rneAt m e q) q

/-- The value of a pocket. -/
def Pocket.val (p : Pocket) : Val := if p.nan then .nan else .num p.w p.e

/-- A value held in a pocket by the float path. -/
def Pocket.ofVal (v : Val) : Pocket :=
  match v with
  | .nan => { w := 0, e := 0, nan := true }
  | .num m e => { w := m, e := e, nan := false }

/-- The float path over a pass: two-term dot products, each addition rounded to 48 bits (R72). -/
def floatSum : Val → List (Val × Val) → Val
  | acc, [] => acc
  | acc, [x] => round48 (acc.add (x.1.mul x.2))
  | acc, x :: y :: rest =>
    floatSum (round48 (acc.add (round48 ((x.1.mul x.2).add (y.1.mul y.2))))) rest

/-- The pocket of one lane after the products of `xs`, from what it held. -/
def runPocket (float : Bool) (p : Pocket) (xs : List (Val × Val)) : Accum :=
  if float then { p := Pocket.ofVal (floatSum p.val xs), lost := false }
  else xs.foldl addProduct { p := p, lost := false }

/-- The number of the pocket `j` of lane `l` in a table of pockets. -/
def pocketKey (j l : Nat) : Nat := j * 512 + l

/-- The products of pocket `j` and lane `l`: the shared codes with their preamble against the lane's
stationary terms (R72, R73). Fill terms add nothing and are not listed. -/
def products (t : Nat × Nat) (across : Bool) (load : StatLoad) (shared pre : List Nat) (l : Nat) :
    List (Val × Val) :=
  let codes := nth [] load.lanes l
  List.zip (valsOf t.1 shared pre) (valsOf t.2 codes (laneScales across load l codes.length))

/-- What a pass reads: the operand types, the economy window, the active side, the shared codes and their
preamble. -/
structure PassData where
  types : Nat × Nat
  across : Bool
  econ : Bool
  load : StatLoad
  shared : List (List Nat)
  pre : List (List Nat)
  sigma : List (List (Option Int))
  deriving DecidableEq, Repr, Inhabited

/-- The data of a bench's pass with the shared codes that its bus carries. -/
def Bench.passData (b : Bench) (c : CutRun) (p : PassId) (shared : List (List Nat)) : PassData :=
  { types := c.passTypes p, across := c.across, econ := b.econ,
    load := (if b.activeB then b.feedB else b.feedA).load, shared := shared, pre := b.preamble,
    sigma := b.sigma }

/-- Pocket `j` of lane `l` over the terms `from'` to `upto`, from what it held or from zero at its anchor. -/
def PassData.pocket (d : PassData) (held : Tab Pocket) (j l from' upto : Nat) : Accum :=
  let start := match Tab.find held (pocketKey j l) with
    | some p => p
    | none => Pocket.start (if floatPath d.types then 0 else anchorOf d.econ (nth none (nth [] d.sigma j) l))
  let xs := products d.types d.across d.load (nth [] d.shared j) (nth [] d.pre j) l
  runPocket (floatPath d.types) start ((xs.take upto).drop from')

/-- All pockets of a pass over its terms from the cursor on: `skip j` terms of pocket `j` are already in. -/
def PassData.pockets (d : PassData) (held : Tab Pocket) (skip upto : Nat → Nat) : List (Nat × Accum) :=
  ((List.range d.shared.length).map (fun j =>
    (List.range d.load.lanes.length).map (fun l =>
      (pocketKey j l, d.pocket held j l (skip j) (upto j))))).flatten

/-- Terms of pocket `j` that lie before a cursor: `group` whole groups, and one more for the pockets before
the pocket cursor (R73, R93). -/
def cursorTerms (t : Nat × Nat) (group pocket j : Nat) : Nat :=
  groupTerms t * (group + (if j < pocket then 1 else 0))

/-! ### Starting a pass (R76, R78, R80, R91, R56) -/

/-- The active side. -/
def Bench.active (b : Bench) : FeederSide := if b.activeB then b.feedB else b.feedA
/-- The idle side. -/
def Bench.idle (b : Bench) : FeederSide := if b.activeB then b.feedA else b.feedB

/-- The bench with its idle side changed. -/
def Bench.modIdle (b : Bench) (f : FeederSide → FeederSide) : Bench :=
  if b.activeB then { b with feedA := f b.feedA } else { b with feedB := f b.feedB }

/-- The bench with sides swapped; the side that was active is held until its passes have passed their checks
(R76, R77). -/
def Bench.swap (b : Bench) : Bench :=
  let held := match b.shadow with
    | some sh => !sh.unchecked && !sh.cleared
    | none => false
  if b.activeB then { b with activeB := false, feedB := { b.feedB with held := held } }
  else { b with activeB := true, feedA := { b.feedA with held := held } }

/-- The scale codes of the next pass are in: the float path needs them only for an MX shared operand
(R78). -/
def Bench.scalesReady (b : Bench) (t : Nat × Nat) : Bool :=
  b.nextPre.isSome || (floatPath t && !isMx t.1)

/-- Cause codes of R80, in table order: side not full. -/
def frzSide : Nat := 1
/-- Scales not ready (R80). -/
def frzScales : Nat := 2
/-- Shadow busy (R80). -/
def frzShadow : Nat := 3

/-- The bench begins the pass `p` on its active side, with the modes in force at the boundary (R56, R91). -/
def Bench.begin (b : Bench) (f : Face) (p : PassId) (rest : List PassId) : Bench :=
  { b with cur := some p, work := rest, taken := true, preamble := b.nextPre.getD [], sigma := b.nextSigma,
           nextPre := none, nextSigma := [], pockets := [], group := 0, pocket := 0, span := false,
           econ := f.accMode.econ || (f.accMode.gov && f.econTemp), chk := f.chkMode, frozen := none }

/-- The item's context is to be restored on the bench that adopted it (R94, R380). -/
def Bench.takeKept (b : Bench) (k : KeptCtx) (rest : List PassId) : Bench :=
  { b with saved := some k.pass, savedTags := k.tags, work := rest, stopped := true, pockets := k.pockets
           group := k.group, pocket := k.pocket, span := k.span, econ := k.econ, chk := k.chk, frozen := none
           preamble := [], sigma := [], nextPre := none, nextSigma := [] }

/-- The next pass keeps the active side, swaps, or waits frozen (R76, R80, R81); an adopted item whose context was saved
waits for its restore (R380). -/
def Bench.tryStart (b : Bench) (f : Face) (c : CutRun) : Bench :=
  if b.stopped || b.cur.isSome || b.saved.isSome then b
  else
    match b.work with
    | [] => { b with frozen := none }
    | p :: rest =>
      match c.kept.find? (fun k => k.pass == p) with
      | some k => b.takeKept k rest
      | none =>
      let keep := b.active.tag == some p.tag && b.active.full
      let swap := b.idle.tag == some p.tag && b.idle.full
      if !keep && !swap then { b with frozen := some frzSide }
      else if !b.scalesReady (c.passTypes p) then { b with frozen := some frzScales }
      else (if keep then b else b.swap).begin f p rest

/-- FCE_BENCH.ECON bit of a bench (R434). -/
def State.showEcon (s : State) (n b : Nat) : State :=
  let on := (s.bench n b).econ && (s.bench n b).cur.isSome
  s.modFace n (fun f => { f with econBits := if on then setBit f.econBits b else clrBit f.econBits b })

/-- A D-cut that evaluates loaded tables: FUNC 7 (R211). -/
def CutDesc.loadsTable (d : CutDesc) : Bool :=
  match d.area with
  | .d a => a.func == 7
  | _ => false

/-- The bank of loaded derivative tables that a D-cut's slice takes when its first pass starts (R216). -/
def State.noteDrvBank (s : State) (e item : Nat) : State :=
  let c := s.cut e
  let cur := s.tables.drvCur
  if (Tab.find c.banks item).isSome then s
  else
    let s1 := s.modCut e (fun c => { c with bank := some cur, banks := Tab.set c.banks item cur })
    match c.bank with
    | some b => if b = cur then s1 else s1.orFlags e (flag 25)
    | none => s1

/-- The kiln bank that an A-cut's block takes when its stage 1 starts (R250); a stage that runs again keeps the
bank of its block (R276). -/
def State.noteKilnBank (s : State) (n b e : Nat) (p : PassId) : State :=
  let cur := s.tables.kilnCur
  let k := Tab.get Kiln.reset s.kilns (n * 4 + b)
  let same := match k.block with
    | some (i, r, _) => i == p.item && r == p.red
    | none => false
  if same then s
  else
    let s1 : State := { s with kilns := Tab.set s.kilns (n * 4 + b) { k with block := some (p.item, p.red, cur) } }
    let s2 := s1.modCut e (fun c => { c with bank := some cur })
    match (s.cut e).bank with
    | some x => if (s.cut e).aArea.ktable && x != cur then s2.orFlags e (flag 25) else s2
    | none => s2

/-- The table banks that a pass fixes when it starts (R216, R250). -/
def State.noteBank (s : State) (n b e : Nat) : State :=
  match (s.bench n b).cur with
  | some p =>
    if (s.cut e).desc.loadsTable = true ∧ p.red = 0 then s.noteDrvBank e p.item
    else if (s.cut e).desc.kind = 3 ∧ p.stage = 1 ∧ p.sub = 0 then s.noteKilnBank n b e p
    else s
  | none => s

/-- The next pass of a bench of an A-cut may begin its block (R253, R263). -/
def State.blockReady (s : State) (e n b : Nat) : Bool :=
  match (s.cut e).desc.area, (s.bench n b).work with
  | .a a, p :: _ => (s.arun e).blockReady a p
  | _, _ => true

/-- A bench tries to start its next pass while its cut runs. -/
def State.tryStart (s : State) (n b : Nat) : State :=
  match (s.bench n b).cut with
  | some e =>
    if (s.cut e).phase = .running ∧ (s.bench n b).cur.isNone = true ∧ s.blockReady e n b = true then
      let s0 := s.modBench n b (fun x => x.tryStart (s.face n) (s.cut e))
      let s1 := match (s0.bench n b).saved with
        | some p => s0.modCut e (fun c => { c with kept := c.kept.filter (fun k => k.pass != p) })
        | none => s0
      (if (s1.bench n b).cur.isSome then
          (s1.noteBank n b e).replayStarts e (fun r => r == .pass n b || r == .cut)
        else s1).showEcon n b
    else s
  | none => s

/-! ### Loads and the scale unit (R74, R77, R78, R82) -/

/-- A load breaks the span limit of R82: in some term the scale codes of nonzero elements differ by more than
24. -/
def loadWide (type : Nat) (across : Bool) (load : StatLoad) : Bool :=
  if !isMx type then false
  else
    let n := load.lanes.foldl (fun a x => max a x.length) 0
    (List.range n).any (fun t =>
      let codes := (List.range load.lanes.length).filterMap (fun l =>
        if (elemVal type (nth 0 (nth [] load.lanes l) t)).isZero then none
        else some (scaleCode across load l t))
      let hi := codes.foldl max 0
      let lo := codes.foldl min 255
      decide (24 < hi - lo))

/-- The number of a bench of a cut: face position, then bench (R206, R267). -/
def State.benchPos (s : State) (d : CutDesc) (n b : Nat) : Nat :=
  ((s.cutFaces d).findIdx? (· == n)).getD 0 * d.benches + b

/-- First byte of a bench's staging in the KILN region (R251, R267). -/
def State.stagingBase (s : State) (d : CutDesc) (a : AArea) (n b : Nat) : Option Nat :=
  match s.image with
  | some i => (Tab.find i.regions a.kilnRegion).map (fun r => r.base + s.benchPos d n b * 1056 * 2 ^ a.qbLog2)
  | none => none

/-- A byte of the yard as a code. -/
def State.yardByte (s : State) (a : Nat) : Nat := (Mem.read s.yard.mem a).toNat

/-- The stationary load of stage 5 from staging: lane i holds query i of group `g` over the 512 keys (R245,
R251). -/
def State.stagedLoad (s : State) (base qb g : Nat) : StatLoad :=
  let q := fun i => g * 512 + i
  { lanes := (List.range (min 512 (qb - g * 512))).map (fun i => (List.range 512).map (fun k =>
      s.yardByte (base + 528 * qb + k * qb + q i)))
    scales := (List.range (min 512 (qb - g * 512))).map (fun i => (List.range 16).map (fun c =>
      s.yardByte (base + 1040 * qb + c * qb + q i))) }

/-- The load that a stage of an A-cut takes: what the kiln wrote into the idle side for stages 2 and 4, staging
for stage 5, and the stream's for the rest (R246); `none` while the kiln has written nothing. -/
def State.aLoad (s : State) (n b e tag : Nat) (p : PassId) (load : StatLoad) : Option StatLoad :=
  let c := s.cut e
  if c.desc.kind = 3 ∧ (p.stage = 2 ∨ p.stage = 4) then
    if (s.bench n b).idle.tag = some tag then some (s.bench n b).idle.load else none
  else if c.desc.kind = 3 ∧ p.stage = 5 then
    match s.stagingBase c.desc c.aArea n b with
    | some base => some (s.stagedLoad base (2 ^ c.aArea.qbLog2) (p.sub / c.aArea.chunks))
    | none => none
  else some load

/-- STATIONARY_LOAD_FULL: the idle side's full bit sets with the load's tag (R74); a side not yet released
makes the load wait (R77). -/
def State.loadFull (s : State) (n b tag : Nat) (given : StatLoad) : State :=
  let x := s.bench n b
  match x.cut with
  | some e =>
    let c := s.cut e
    let p := (x.work.find? (fun p => p.tag == tag)).getD (x.cur.getD default)
    match (if x.idle.held then none else s.aLoad n b e tag p given) with
    | none => s
    | some load =>
      let side : FeederSide := {
        tag := some tag, full := true, held := false,
        wide := loadWide (c.passTypes p).2 c.across load, load := load }
      ((s.modBench n b (fun y => y.modIdle (fun _ => side))).sentTiles e (c.loadStream p)).tryStart n b
  | none => s

/-- STATIONARY_LOAD_FULL (R74). -/
def execStationaryLoadFull (f : Fin 72) (b : Fin 4) (tag : Nat) (load : StatLoad) (s : State) :
    Host.Outcome State Fault Refusal := s.on (fun s => s.loadFull f.val b.val tag load)

/-- The side that the bench's next pass will read. -/
def Bench.nextSide (b : Bench) : FeederSide :=
  match b.work with
  | [] => b.active
  | p :: _ => if b.active.tag == some p.tag && b.active.full then b.active else b.idle

/-- SCALE_UNIT_DONE: σ_max of the next pass's pockets is ready (R78). -/
def State.scaleDone (s : State) (n b : Nat) (pre : List (List Nat)) : State :=
  let x := s.bench n b
  match x.cut, x.work with
  | some e, p :: _ =>
    let side := x.nextSide
    if side.tag == some p.tag && side.full then
      (s.modBench n b (fun y => { y with
        nextPre := some pre,
        nextSigma := sigmas (s.cut e).across side.load pre })).tryStart n b
    else s
  | _, _ => s

/-- SCALE_UNIT_DONE (R78). -/
def execScaleUnitDone (f : Fin 72) (b : Fin 4) (preamble : List (List Nat)) (s : State) :
    Host.Outcome State Fault Refusal := s.on (fun s => s.scaleDone f.val b.val preamble)

/-! ### The pass boundary (R79, R82, R85, R86) -/

/-- Physical errors of a pass at a lane's pocket, summed. -/
def errorAt (es : List PassError) (site : ErrorSite) : Int :=
  es.foldl (fun a e => if e.site = site then a + e.amount else a) 0

/-- A value as a pocket. -/
def sumPocket (v : Val) : Pocket := Pocket.ofVal v

/-- The weighted sum over lanes of pocket `j`'s values (R82, R83). -/
def laneSum (ps : List (Nat × Pocket)) (j : Nat) (weight : Nat → Int) : Val :=
  ps.foldl (fun a x => if x.1 / 512 = j then a.add (x.2.val.mul (.num (weight (x.1 % 512)) 0)) else a)
    Val.zero

/-- A pocket whose stored integer is off by `k` units. -/
def Pocket.off (p : Pocket) (k : Int) : Pocket := { p with w := p.w + k }

/-- The fault an armed injection puts into a checked pass of a bench with `js` pockets (R444). Which pocket and by how much
are free values of the counter `k`; two lanes are off by opposite amounts, as the expected handling asks (log entry
10). -/
def injected (armed : List InjectKind) (n b js k : Nat) : List PassError :=
  let j : Fin 16 := ⟨Config.injectedPocket k % (min (max js 1) 16), by
    have h := Nat.mod_lt (Config.injectedPocket k) (show 0 < min (max js 1) 16 by omega)
    omega⟩
  let a : Int := (Config.injectedAmount k : Int) + 1
  (armed.map (fun x =>
    match x with
    | .lane f' b' l => if f'.val = n ∧ b'.val = b then [{ site := .lane l j, amount := a }] else []
    | .lanes f' b' l1 l2 => if f'.val = n ∧ b'.val = b then
        [{ site := .lane l1 j, amount := a }, { site := .lane l2 j, amount := -a }] else []
    | _ => [])).flatten

/-- Armed injections that a checked pass of a bench takes up. -/
def takesInject (n b : Nat) (k : InjectKind) : Bool :=
  match k with
  | .lane f' b' _ => decide (f'.val = n) && decide (b'.val = b)
  | .lanes f' b' _ _ => decide (f'.val = n) && decide (b'.val = b)
  | _ => false

/-- The armed lane faults of a bench are spent (R444). -/
def State.spendInject (s : State) (n b : Nat) : State :=
  { s with fresh := s.fresh + 1, monitor := { s.monitor with
      armed := s.monitor.armed.filter (fun k => !takesInject n b k) } }

/-- The lane of a number below 512. -/
def laneFin (l : Nat) : Fin 512 := ⟨l % 512, Nat.mod_lt _ (by decide)⟩

/-- The pocket of a number below 16. -/
def pocketFin (j : Nat) : Fin 16 := ⟨j % 16, Nat.mod_lt _ (by decide)⟩

/-- The shadow that a pass's pockets make, with its checksum and row pockets (R79, R82, R86). -/
def makeShadow (e : Nat) (p : PassId) (d : PassData) (acc : List (Nat × Accum)) (chk : ChkMode)
    (wide span0 inj : Bool) (errors : List PassError) : Shadow :=
  let ps := acc.map (fun x => (x.1, x.2.p))
  let lost := span0 || acc.any (fun x => x.2.lost)
  let nan := ps.any (fun x => x.2.nan)
  let unchecked := (!chk.col && !chk.row) || floatPath d.types || d.econ || lost || nan || wide
  let js := List.range d.shared.length
  let ls := List.range d.load.lanes.length
  { cut := e, pass := p,
    pockets := ps.map (fun x =>
      (x.1, x.2.off (errorAt errors (.lane (laneFin (x.1 % 512)) (pocketFin (x.1 / 512)))))),
    c0 := if unchecked then [] else js.map (fun j =>
      (j, (sumPocket (laneSum ps j (fun _ => 1))).off (errorAt errors (.check 0 (pocketFin j))))),
    c1 := if unchecked then [] else js.map (fun j =>
      (j, (sumPocket (laneSum ps j (fun l => (l : Int) + 1))).off
        (errorAt errors (.check 1 (pocketFin j))))),
    rows := if unchecked || !chk.row then [] else ls.map (fun l =>
      (l, (sumPocket (js.foldl (fun a j => a.add (Tab.get Pocket.zero ps (pocketKey j l)).val)
        Val.zero)).off (errorAt errors (.row (laneFin l))))),
    chk := chk, unchecked := unchecked, econ := d.econ, span := lost && !d.econ, nan := nan,
    injected := inj, cleared := unchecked, drained := false }

/-- Freeze counters of a face raised by the cycles that each cause held a bench (R81, R434). -/
def State.addFrozen (s : State) (n b : Nat) (fs : List (Fin 6 × Nat)) : State :=
  fs.foldl (fun t x => t.modFace n (fun f =>
    { f with frz := Tab.update 0 f.frz (b * 6 + x.1.val) (fun v => satAdd 64 v x.2) })) s

/-- An eligible cut of higher class of the same working, waits met, needs a bench that cut `e` holds
(R182). -/
def State.wantsBench (s : State) (e n b : Nat) : Bool :=
  let d := (s.cut e).desc
  (List.range s.cutCount).any (fun k =>
    (s.cut k).phase == .pending && (s.descOf k).working == d.working &&
    decide (kindClass (s.descOf k).kind < kindClass d.kind) && !s.isRefused k && s.waitsMet k &&
    (s.benchList (s.descOf k)).contains (n, b))

/-- A yielding cut gives the bench up at its boundary (R182). -/
def State.yieldBench (s : State) (n b : Nat) : State :=
  match (s.bench n b).cut with
  | some e =>
    if (s.cut e).desc.yields && !(s.bench n b).work.isEmpty && s.wantsBench e n b then
      s.modBench n b (fun x => { x with
        cut := none, work := [], frozen := none, nextPre := none,
        nextSigma := [], feedA := { x.feedA with full := false, tag := none },
        feedB := { x.feedB with full := false, tag := none }, yielded := some (e, x.work) })
    else s
  | none => s

/-- A new shadow of an A-cut has had none of its results back from the kiln (R79, R248). -/
def State.newDrain (s : State) (n b e : Nat) : State :=
  if (s.cut e).desc.kind = 3 then
    { s with kilns := Tab.update Kiln.reset s.kilns (n * 4 + b) (fun k => { k with seen := [], fl := 0 }) }
  else s

/-- PASS_BOUNDARY (R79): the pass's pockets move to the free shadow and the next pass starts, keeps or swaps
its side, or the bench freezes; with the shadow still held, the bench freezes as shadow busy. -/
def State.passBoundary (s : State) (n b : Nat) (shared : List (List Nat)) (errors : List PassError)
    (frozen : List (Fin 6 × Nat)) : State :=
  let x := s.bench n b
  match x.cut, x.cur with
  | some e, some p =>
    if x.stopped || !((s.cut e).phase == .running) then s
    else if x.shadow.isSome then
      (s.addFrozen n b frozen).modBench n b (fun y => { y with frozen := some frzShadow })
    else
      let c := s.cut e
      let d := x.passData c p shared
      let acc := d.pockets x.pockets (cursorTerms d.types x.group x.pocket) (fun _ => 4096)
      let wide := x.active.wide
      let inj := injected s.monitor.armed n b shared.length s.fresh
      let plain := makeShadow e p d acc x.chk wide x.span false errors
      let sh := if plain.unchecked || inj.isEmpty then plain
        else makeShadow e p d acc x.chk wide x.span true (errors ++ inj)
      let s1 : State := if sh.injected then s.spendInject n b else s
      let s2 := if sh.unchecked then s1.modFace n (fun f => { f with
          unchk := Tab.update 0 f.unchk b (fun v => satAdd 32 v 1) }) else s1
      let s3 := (s2.newDrain n b e).modBench n b (fun y => { y with
        shadow := some sh, cur := none, taken := false,
        preamble := [], sigma := [], pockets := [], group := 0, pocket := 0, span := false,
        replays := if sh.unchecked then 0 else y.replays })
      (((((s3.markHoists e n b).sentTiles e (c.passStream p)).addFrozen n b frozen).yieldBench n b).tryStart n b).showEcon n b
  | _, _ => s

/-- PASS_BOUNDARY (R79). -/
def execPassBoundary (f : Fin 72) (b : Fin 4) (shared : List (List Nat)) (errors : List PassError)
    (frozen : List (Fin 6 × Nat)) (s : State) : Host.Outcome State Fault Refusal :=
  s.on (fun s => s.passBoundary f.val b.val shared errors frozen)

/-! ### The check (R83 to R89) -/

/-- D0 and D1 of every pocket (R83). -/
def Shadow.discrepancies (sh : Shadow) : List (Val × Val) :=
  sh.c0.map (fun x =>
    ((laneSum sh.pockets x.1 (fun _ => 1)).add x.2.val.neg,
     (laneSum sh.pockets x.1 (fun l => (l : Int) + 1)).add (Tab.get Pocket.zero sh.c1 x.1).val.neg))

/-- The row discrepancy of a lane (R86). -/
def Shadow.rowError (sh : Shadow) (l : Nat) : Val :=
  (sh.pockets.foldl (fun a x => if x.1 % 512 = l then a.add x.2.val else a) Val.zero).add
    (Tab.get Pocket.zero sh.rows l).val.neg

/-- Row-flagged lanes (R86). -/
def Shadow.rowFlags (sh : Shadow) : List Nat :=
  (sh.rows.map Prod.fst).filter (fun l => !(sh.rowError l).isZero)

/-- Two values as integers in one unit. -/
def Val.align : Val → Val → Option (Int × Int)
  | .num m e, .num n f =>
    let q := min e f
    some (m * pow2 (e - q), n * pow2 (f - q))
  | _, _ => none

/-- Location by the column check (R84): a step over one pocket's discrepancies. `error` is unlocated. -/
def locateStep (a : Except Unit (Option Nat)) (d : Val × Val) : Except Unit (Option Nat) :=
  match a with
  | .error _ => .error ()
  | .ok lane =>
    if d.1.isZero && d.2.isZero then .ok lane
    else
      match d.1.align d.2 with
      | none => .error ()
      | some (d0, d1) =>
        if d0 = 0 ∨ d1 % d0 ≠ 0 then .error ()
        else
          let w := d1 / d0
          if w < 1 ∨ 512 < w then .error ()
          else
            match lane with
            | none => .ok (some (w - 1).toNat)
            | some l => if (l : Int) = w - 1 then .ok (some l) else .error ()

/-- The lane that the column check locates (R84). -/
def Shadow.locate (sh : Shadow) : Except Unit (Option Nat) :=
  sh.discrepancies.foldl locateStep (.ok none)

/-- Two-lane location (R87): the errors of lanes `x` < `y` in each pocket, integral at the pockets' anchors,
sum to the row discrepancies. -/
def Shadow.pairFits (sh : Shadow) (x y : Nat) : Bool :=
  let sols := sh.c0.map (fun c =>
    let j := c.1
    let d0 := (laneSum sh.pockets j (fun _ => 1)).add c.2.val.neg
    let d1 := (laneSum sh.pockets j (fun l => (l : Int) + 1)).add (Tab.get Pocket.zero sh.c1 j).val.neg
    match d0.align (d1.add (d0.mul (.num (-((x : Int) + 1)) 0))) with
    | none => none
    | some (_, _) =>
      match d1.add (d0.mul (.num (-((x : Int) + 1)) 0)), d0 with
      | .num m e, .num n f =>
        let k := (y : Int) - x
        if m % k ≠ 0 then none
        else
          let ey := Val.num (m / k) e
          let ex := (Val.num n f).add ey.neg
          let ax := (Tab.get Pocket.zero sh.pockets (pocketKey j x)).e
          let ay := (Tab.get Pocket.zero sh.pockets (pocketKey j y)).e
          match ex with
          | .num mx fx => if lostAt mx fx ax || lostAt (m / k) e ay then none else some (ex, ey)
          | .nan => none
      | _, _ => none)
  sols.all Option.isSome &&
  (let sx := sols.foldl (fun a s => match s with
      | some v => a.add v.1
      | none => a) Val.zero
   let sy := sols.foldl (fun a s => match s with
      | some v => a.add v.2
      | none => a) Val.zero
   (sx.add (sh.rowError x).neg).isZero && (sy.add (sh.rowError y).neg).isZero)

/-- The outcome of a check (R83 to R87): passed, failed with located lanes, or failed and unlocated. -/
inductive CheckResult where
  | pass
  | located (lanes : List Nat)
  | unlocated
  deriving DecidableEq, Repr, Inhabited

/-- The check of a shadow; `free` is the number of free spare lanes (R83 to R87). -/
def Shadow.check (sh : Shadow) (free : Nat) : CheckResult :=
  let rows := if sh.chk.row then sh.rowFlags else []
  let colFail := sh.chk.col && sh.discrepancies.any (fun d => !d.1.isZero || !d.2.isZero)
  if !colFail && rows.isEmpty then .pass
  else
    let col := if colFail then sh.locate else .ok none
    match col with
    | .ok (some l) => if rows.all (· == l) then .located [l] else
        match rows with
        | [x, y] => if sh.chk.pair && decide (free = 2) && sh.pairFits x y then .located [x, y] else .unlocated
        | _ => .unlocated
    | .ok none =>
      match rows with
      | [l] => .located [l]
      | _ => .unlocated
    | .error _ =>
      match rows with
      | [x, y] => if sh.chk.pair && decide (free = 2) && sh.pairFits x y then .located [x, y] else .unlocated
      | _ => .unlocated

/-- The bench goes back to the failed pass: the shadow and the pass in progress, or its saved context, are
discarded (R88, R92). -/
def Bench.goBack (b : Bench) : Bench :=
  match b.shadow with
  | some sh =>
    let own := b.cut == some sh.cut
    { b with work := (if own then [sh.pass] else []) ++ b.cur.toList ++ b.saved.toList ++ b.work,
             yielded := (if own then b.yielded else b.yielded.map (fun y => (y.1, sh.pass :: y.2))),
             cur := none, saved := none,
             taken := false, preamble := [], sigma := [], nextPre := none, nextSigma := [], pockets := [],
             group := 0, pocket := 0, span := false, shadow := none }
  | none => b

/-- The feeders of a bench emptied: they load from source again. -/
def Bench.emptyFeeders (b : Bench) : Bench :=
  { b with feedA := FeederSide.empty, feedB := FeederSide.empty, activeB := false }

/-- A bench whose feeders are empty and whose next pass reads what the kiln made runs that stage again first
(R276). -/
def Bench.remakeFor (b : Bench) (c : CutRun) : Bench :=
  match c.desc.area, b.work with
  | .a a, p :: _ => { b with work := a.remake p ++ b.work }
  | _, _ => b

/-- The located lanes move to spare lanes and the failed pass replays (R88). -/
def State.remapReplay (s : State) (n b e : Nat) (lanes : List Nat) (fl : Nat) : State :=
  let s1 := lanes.foldl (fun t l => ((t.remapLane n (t.physBench n b) l fl).modFace n (fun f =>
    { f with reloc := Tab.update 0 f.reloc b (fun v => satAdd 16 v 1) })).healthEvent 1 1) s
  (((s1.modBench n b (fun x => { x.goBack with replays := x.replays + 1 })).orFlags e (flag 11)).addReplays
    e 1).tryStart n b

/-- Items of a bench dealt in turn to other benches of its face, the item in progress first (R89). -/
def State.dealItems (s : State) (n kind : Nat) (others : List Nat) (work : List PassId) : State :=
  let items := distinct (work.map PassId.item)
  let owner := fun p : PassId => nth 0 others ((items.findIdx? (· == p.item)).getD 0 % others.length)
  others.foldl (fun t k => t.modBench n k (fun x =>
    { x with work := mergePasses kind (work.filter (fun p => owner p == k)) x.work })) s

/-- Logical benches of a face that a cut holds, but for `b`. -/
def State.otherBenches (s : State) (n b e : Nat) : List Nat :=
  (List.range 4).filter (fun k => k != b && (s.bench n k).cut == some e)

/-- The bench is retired with a cause of R89 (0 unlocated, 1 no spare lane, 2 replays used up): the face's
spare bench takes over at the failed pass, or the items move to other benches of the face, or the face is
retired (R89, R375). -/
def State.failBench (s : State) (n b e cause fl : Nat) : State :=
  let phys := s.physBench n b
  let spare := s.spareBench n
  let s1 := ((s.modBench n b (fun x => { (x.goBack.emptyFeeders).remakeFor (s.cut e) with replays := 0 })).orFlags
    e (flag 12)).retireBench n phys cause fl
  if spare.isSome then s1.recheckBenches
  else
    let others := s1.otherBenches n b e
    if others.isEmpty then s1.retireFace n 6 fl
    else
      let work := (s1.bench n b).work
      let s2 := (s1.dealItems n (s1.cut e).desc.kind others work).modBench n b (fun _ => Bench.reset)
      let s3 := (s2.orFlags e (flag flReduced)).modFace n (fun f => { f with reduced := true })
      (others.foldl (fun t k => t.tryStart n k) s3).recheckBenches

/-- The check ends (R79): a pass that passes may fold and releases the side it read (R77); a failed check
locates, remaps and replays, or retires the bench. -/
def State.checkEnd (s : State) (n b : Nat) : State :=
  let x := s.bench n b
  match x.shadow with
  | none => s
  | some sh =>
    if sh.cleared then s
    else
      let fl := if sh.injected then fromInject else 0
      match sh.check (s.freeLanes n (s.physBench n b)) with
      | .pass => s.modBench n b (fun y => { y with
          shadow := some { sh with cleared := true }, replays := 0,
          feedA := { y.feedA with held := false }, feedB := { y.feedB with held := false } })
      | .located lanes =>
        if sh.chk.replays ≤ x.replays then s.failBench n b sh.cut 2 fl
        else if s.freeLanes n (s.physBench n b) < lanes.length then s.failBench n b sh.cut 1 fl
        else s.remapReplay n b sh.cut lanes fl
      | .unlocated =>
        if sh.chk.replays ≤ x.replays then s.failBench n b sh.cut 2 fl else s.failBench n b sh.cut 0 fl

/-- CHECK_END (R79). -/
def execCheckEnd (f : Fin 72) (b : Fin 4) (s : State) : Host.Outcome State Fault Refusal :=
  s.on (fun s => s.checkEnd f.val b.val)

/-! ### Context save and restore (R92 to R94) -/

/-- Bytes of a context slot (R92). -/
def ctxSlot : Nat := 131072

/-- First byte of the context slot of bench `b` of face `n` in its working's CONTEXT region (R92, R94,
R177); the slot goes with the face's position. -/
def State.ctxAddr (s : State) (w n b : Nat) : Option Nat :=
  match s.image with
  | some i => (i.regionOf w 4).map (fun r => r.base + ((s.face n).position * 4 + b) * ctxSlot)
  | none => none

/-- A signed number in `k` bytes. -/
def intLe (v : Int) (k : Nat) : List Byte := natLe (unsigned v (8 * k)) k

/-- Header of a context record (R93): the fields in the order in which the rule lists them (log entry 11). -/
def ctxHeader (e w group pocket : Nat) (p : PassId) (x : Bench) : List Byte :=
  natLe e 2 ++ natLe w 1 ++ natLe p.red 4 ++ natLe group 2 ++ natLe pocket 1 ++
  natLe (x.active.tag.getD 0) 4 ++ natLe (x.idle.tag.getD 0) 4 ++
  natLe (b2n x.span + 2 * b2n (x.pockets.any (fun q => q.2.nan)) + 4 * b2n x.active.wide) 1

/-- The parts of a context record that are not zero: offset and bytes (R93). -/
def ctxParts (x : Bench) (hdr : List Byte) : List (Nat × List Byte) :=
  let ps := x.pockets
  let lanes := distinct (List.map (fun q => q.1 % 512) ps)
  let js := distinct (List.map (fun q => q.1 / 512) ps)
  (0, hdr) ::
  (List.map (fun q => (0x40 + (q.1 % 512 * 16 + q.1 / 512) * 14, intLe q.2.w 14)) ps ++
   lanes.map (fun l => (0x1C040 + l * 2,
     natLe (js.foldl (fun a j => if (Tab.get Pocket.zero ps (pocketKey j l)).nan then a + 2 ^ j else a) 0) 2)) ++
   (if x.chk.row then lanes.map (fun l => (0x1C440 + l * 20,
      intLe (match js.foldl (fun a j => a.add (Tab.get Pocket.zero ps (pocketKey j l)).val) Val.zero with
        | .num m _ => m
        | .nan => 0) 20)) else []) ++
   (js.map (fun j => (0x1EC40 + j * 28, intLe (match laneSum ps j (fun _ => 1) with
        | .num m _ => m
        | .nan => 0) 28))) ++
   (js.map (fun j => (0x1EC40 + (16 + j) * 28, intLe (match laneSum ps j (fun l => (l : Int) + 1) with
        | .num m _ => m
        | .nan => 0) 28))))

/-- The yard's memory with a context record at `a` (R93). -/
def putContext (m : Mem) (a : Nat) (parts : List (Nat × List Byte)) : Mem :=
  parts.foldl (fun m x => Mem.writeBytes m (a + x.1) x.2) (Mem.clear m a ctxSlot)

/-- Words of the yard that a write gives fresh check bits (R371). -/
def freshWords (poison : List Nat) (a n : Nat) : List Nat :=
  poison.filter (fun w => decide (w * 8 + 8 ≤ a) || decide (a + n ≤ w * 8))

/-- The bench's pockets up to the cursor go into its slot (R92, R93); an empty bench saves nothing. -/
def State.contextWrite (s : State) (n b : Nat) (shared : List (List Nat)) (group pocket : Nat) : State :=
  let x := s.bench n b
  match x.cut, x.cur with
  | some e, some p =>
    if !x.stopped then s
    else
      let c := s.cut e
      let d := x.passData c p shared
      let acc := d.pockets x.pockets (cursorTerms d.types x.group x.pocket)
        (cursorTerms d.types group pocket)
      let y := { x with pockets := acc.map (fun q => (q.1, q.2.p)), group := group, pocket := pocket,
                        span := x.span || acc.any (fun q => q.2.lost), saved := some p, cur := none }
      let s1 := s.modBench n b (fun _ => { y with preamble := [], sigma := [] })
      match s.ctxAddr c.desc.working n b with
      | some a => { s1 with yard := { s1.yard with
          mem := putContext s1.yard.mem a (ctxParts y (ctxHeader e c.desc.working group pocket p y))
          poison := freshWords s1.yard.poison a ctxSlot } }
      | none => s1
  | _, _ => s

/-- CONTEXT_SAVE_DONE of a stopped bench; the work of a retired face may be adopted once it is saved (R92, R376,
R380). -/
def State.contextSave (s : State) (n b : Nat) (shared : List (List Nat)) (group pocket : Nat) : State :=
  let x := s.bench n b
  if x.stopped && x.cut.isSome && x.cur.isSome then (s.contextWrite n b shared group pocket).settle n else s

/-- CONTEXT_SAVE_DONE (R93). -/
def execContextSaveDone (f : Fin 72) (b : Fin 4) (shared : List (List Nat)) (group pocket : Nat)
    (s : State) : Host.Outcome State Fault Refusal :=
  s.on (fun s => s.contextSave f.val b.val shared group pocket)

/-- CONTEXT_RESTORE_DONE (R94): both feeder sides hold their saved tags again, σ_max is recomputed, and the
bench goes on at the saved cursor. -/
def State.contextRestore (s : State) (n b : Nat) (active idle : StatLoad) (pre : List (List Nat)) : State :=
  let x := s.bench n b
  match x.cut, x.saved with
  | some e, some p =>
    let c := s.cut e
    if c.phase = .running then
      let ty := (c.passTypes p).2
      let side := fun (tag : Option Nat) (load : StatLoad) =>
        ({ tag := tag, full := tag.isSome, held := false, wide := loadWide ty c.across load, load := load }
          : FeederSide)
      s.modBench n b (fun y => { y with
        activeB := false, feedA := side y.savedTags.1 active, feedB := side y.savedTags.2 idle,
        preamble := pre, sigma := sigmas c.across active pre, cur := some p, saved := none,
        stopped := false, taken := true, frozen := none, nextPre := none, nextSigma := [] })
    else s
  | _, _ => s

/-- CONTEXT_RESTORE_DONE (R94). -/
def execContextRestoreDone (f : Fin 72) (b : Fin 4) (active idle : StatLoad)
    (preamble : List (List Nat)) (s : State) : Host.Outcome State Fault Refusal :=
  s.on (fun s => s.contextRestore f.val b.val active idle preamble)

/-! ### Aborted passes (R95) -/

/-- A fault aborts the pass of one bench: it replays from its start and the cut shows 0x41 until it runs
again (R15, R95). -/
def State.abortBench (s : State) (n b : Nat) : State :=
  match (s.bench n b).cut with
  | some e =>
    let k := (s.bench n b).abortCount
    let s1 := ((s.modBench n b Bench.discard).orFlags e (flag flFaulted)).addReplays e k
    (if k = 0 then s1 else s1.awaitReplay e (.pass n b)).tryStart n b
  | none => s

end Sys2Proof.Machine
end

