-- ==== Sys2Proof/Machine/Fold.lean ====
section
/-! DEFINITION. Folding: slices, sets and ranks, fold tiles with their headers and addresses, the promotion
reserve, the folds into G40 and E128, the initial fold and the tree (R57 to R67, R177, R184, R206, R207, R227,
R230, R267). -/

namespace Sys2Proof.Machine

/-! ### Slices, sets and ranks (R66, R184, R206, R229) -/

/-- Slices of a cut (R184, R206). -/
def CutDesc.slices (c : CutDesc) : Nat := c.axB1 * c.axB0 * c.lTiles * c.pTiles
/-- P tile of a slice: P is fastest (R206). -/
def CutDesc.sliceP (c : CutDesc) (i : Nat) : Nat := i % c.pTiles
/-- L tile of a slice (R206). -/
def CutDesc.sliceL (c : CutDesc) (i : Nat) : Nat := i / c.pTiles % c.lTiles
/-- B0 index of a slice (R206). -/
def CutDesc.sliceB0 (c : CutDesc) (i : Nat) : Nat := i / (c.pTiles * c.lTiles) % c.axB0
/-- B1 index of a slice (R206). -/
def CutDesc.sliceB1 (c : CutDesc) (i : Nat) : Nat := i / (c.pTiles * c.lTiles * c.axB0)
/-- Faces that a descriptor names. -/
def CutDesc.faceCount (c : CutDesc) : Nat := popCount c.faces 72
/-- Sets of a cut: its benches over SPLIT (R66, R206). -/
def CutDesc.sets (c : CutDesc) : Nat := c.faceCount * c.benches / max c.split 1
/-- Slices of one set (R206). -/
def CutDesc.perSet (c : CutDesc) : Nat := max (ceilDiv c.slices (max c.sets 1)) 1
/-- The set of the bench at a face position (R66). -/
def CutDesc.setOf (c : CutDesc) (pos b : Nat) : Nat := pos / c.split * c.benches + b
/-- The set that holds a slice (R206). -/
def CutDesc.setOfSlice (c : CutDesc) (i : Nat) : Nat := i / c.perSet

/-- The load tag of a pass of a D- or W-cut: it changes with the reduction index and with the L tile (or an
outer index), and slices that share an L tile keep it (R206, R229). -/
def CutDesc.loadTag (c : CutDesc) (item red : Nat) : Nat := red * c.slices + item / c.pTiles

/-- A pass of a D- or W-cut. -/
def CutDesc.pass (c : CutDesc) (item red : Nat) : PassId :=
  { item := item, red := red, stage := 0, sub := 0, tag := c.loadTag item red }

/-! ### Headers (R57) -/

/-- A fold tile's header (R57). -/
structure Hdr where
  folds : Nat
  e128 : Bool
  longsum : Bool
  exlost : Bool
  span : Bool
  nan : Bool
  econ : Bool
  slot : Nat
  deriving DecidableEq, Repr, Inhabited

/-- A header that has been reset: FOLDS 0, flags clear, SLOT 0xFFFF (R208, R232). -/
def Hdr.reset : Hdr :=
  { folds := 0, e128 := false, longsum := false, exlost := false, span := false, nan := false,
    econ := false, slot := 0xFFFF }

/-- The 8 bytes of a header (R57). -/
def Hdr.bytes (h : Hdr) : List Byte :=
  natLe h.folds 4 ++
  natLe (b2n h.e128 + 2 * b2n h.longsum + 4 * b2n h.exlost + 8 * b2n h.span + 16 * b2n h.nan +
    32 * b2n h.econ) 1 ++ natLe h.slot 2 ++ natLe 0 1

/-- The header at a yard address (R57). Memory that nothing has written holds zeros: SLOT then reads as none,
since FMT is G40. -/
def readHdr (m : Mem) (a : Nat) : Hdr :=
  let fl := (Mem.read m (a + 4)).toNat
  { folds := leNat (Mem.readBytes m a 4), e128 := bit fl 0, longsum := bit fl 1, exlost := bit fl 2,
    span := bit fl 3, nan := bit fl 4, econ := bit fl 5, slot := leNat (Mem.readBytes m (a + 5) 2) }

/-- The yard's memory with bytes written; the words written get fresh check bits (R371). -/
def State.putYard (s : State) (a : Nat) (bs : List Byte) : State :=
  { s with yard := { s.yard with
      mem := Mem.writeBytes s.yard.mem a bs
      poison := freshWords s.yard.poison a bs.length } }

/-! ### Tiles -/

/-- A fold tile: its working, header, the region it lies in, and how its elements lie: element
(pocket, lane) is at base + (pocket·pitch + lane)·size; `rows` and `cols` bound the elements it owns. -/
structure TileRef where
  working : Nat
  hdr : Nat
  base : Nat
  pitch : Nat
  rows : Nat
  cols : Nat
  deriving DecidableEq, Repr, Inhabited

/-- Bytes of an element in the yard (R34, R35). -/
def elemSize (e128 : Bool) : Nat := if e128 then 16 else 8

/-- Tiles that a cut folds into a region (R177): an upper count over the region's rank. -/
def CutDesc.tilesIn (c : CutDesc) (region : Nat) (outRegion : Option Nat) (rows : Nat) : Nat :=
  match c.area with
  | .d a => if a.accRegion ≤ region ∧ region < a.accRegion + c.split then
      2 * (c.faceCount / max c.split 1 * c.benches) else 0
  | .w _ => match outRegion with
    | some r => if r ≤ region ∧ region < r + c.split then c.pTiles * c.lTiles else 0
    | none => 0
  | .a a => if region = a.dqRegion then rows * (ceilDiv (2 ^ a.qbLog2) 512 * (2 * a.dh))
      else if region = a.dkvRegion then rows else 0
  | _ => 0

/-- The region that holds a cut's output map (R227). -/
def Image.outRegion (i : Image) (c : CutDesc) : Option Nat :=
  match Tab.find i.maps (nth 0xFFFF c.maps 2) with
  | some m => if m.yard then (i.regionAt m.base).map Prod.fst else none
  | none => none

/-- Elements of a region in a format (R177, R267). -/
def Region.elems (r : Region) (e128 : Bool) : Nat := r.size / elemSize e128

/-- Tiles of a region that headers are counted for: the largest count over the cuts that fold into it
(R177). For an A-cut's regions the count is what the region holds, since the rows are known only at run time
(R267). -/
def Image.regionTiles (i : Image) (region : Nat) (r : Region) : Nat :=
  i.cuts.foldl (fun a e =>
    let c := e.2
    match c.area with
    | .a x => if region = x.dqRegion ∨ region = x.dkvRegion then max a (r.elems false / 8192) else a
    | _ => max a (c.tilesIn region (i.outRegion c) 0)) 0

/-- Tiles of the ACCUM regions before `region` that name the same HEADERS region (R177). -/
def Image.tilesBefore (i : Image) (region hdr : Nat) : Nat :=
  i.regions.foldl (fun a e =>
    if e.1 < region ∧ e.2.purpose = 1 ∧ e.2.hdr = hdr then a + i.regionTiles e.1 e.2 else a) 0

/-- The address of tile `k`'s header of an ACCUM region (R177). -/
def Image.hdrAddr (i : Image) (region k : Nat) : Option Nat :=
  match Tab.find i.regions region with
  | none => none
  | some r =>
    match Tab.find i.regions r.hdr with
    | none => none
    | some h => some (h.base + 8 * (i.tilesBefore region r.hdr + k))

/-- A tile of 8,192 elements that lies contiguous from byte `off` of a region. -/
def Image.slotTile (i : Image) (w region off k rows cols : Nat) : Option TileRef :=
  match Tab.find i.regions region, i.hdrAddr region k with
  | some r, some h => some { working := w, hdr := h, base := r.base + off, pitch := 512, rows := rows,
                             cols := cols }
  | _, _ => none

/-- D-cut slice `item` at rank `rank`: slot 2b + (k mod 2) of its bench position's pair (R207). -/
def CutDesc.dSlot (c : CutDesc) (item : Nat) : Nat :=
  2 * c.setOfSlice item + item % c.perSet % 2

/-- Tile of a D-cut's slice on a rank (R207). -/
def Image.dTile (i : Image) (c : CutDesc) (a : DArea) (item rank : Nat) : Option TileRef :=
  i.slotTile c.working (a.accRegion + rank) (c.dSlot item * 131072) (c.dSlot item) 16 512

/-- Tile of a W-cut's slice on a rank (R184, R227): rows from the P tile, columns from the L tile. -/
def Image.wTile (i : Image) (c : CutDesc) (out item rank : Nat) (e128 : Bool) : Option TileRef :=
  match Tab.find i.regions (out + rank), i.hdrAddr (out + rank) item with
  | some r, some h =>
    let row := c.sliceP item * c.pTile
    let col := c.sliceL item * c.lTile
    some { working := c.working, hdr := h, base := r.base + (row * c.axL + col) * elemSize e128,
           pitch := c.axL, rows := min c.pTile (c.axP - row), cols := min c.lTile (c.axL - col) }
  | _, _ => none

/-! ### Tiles of an A-cut (R267) -/

/-- Bytes of one dK/dV slot (R267). -/
def AArea.slotBytes (a : AArea) (e128 : Bool) : Nat := 1024 * (32 * a.dh) * elemSize e128

/-- NSLOT (R267). -/
def Image.nSlot (i : Image) (a : AArea) (e128 : Bool) : Nat :=
  match Tab.find i.regions a.dkvRegion with
  | some r => r.size / max (a.slotBytes e128) 1
  | none => 0

/-- The tile that a pass of stage 2, 4 or 5 folds into (R245, R267). -/
def Image.aTile (i : Image) (w : Nat) (a : AArea) (r : ARun) (p : PassId) (e128 : Bool) :
    Option TileRef :=
  if p.stage = 5 then
    let k := p.item * (ceilDiv (2 ^ a.qbLog2) 512 * a.chunks) + p.sub
    i.slotTile w a.dqRegion (k * 8192 * elemSize e128) k 16 512
  else
    match rowOf a.heads a.qbLog2 r.seqs 0 p.item with
    | none => none
    | some (_, head, _) =>
      let n := max (i.nSlot a e128) 1
      let slot := tileOrdinal a p.red head % n
      let idx := (if p.stage = 2 then a.chunks else 0) + p.sub
      i.slotTile w a.dkvRegion (slot * a.slotBytes e128 + idx * 8192 * elemSize e128)
        (slot * (2 * a.chunks) + idx) 16 512

/-- The yard format of a pass's tile before its first fold: the output map's for a W-cut, whose TYPE was
checked when it started, and ACC_MODE's otherwise (R70, R207, R227, R267). -/
def State.passE128 (s : State) (e n : Nat) : Bool :=
  let c := s.cut e
  if c.desc.kind = 2 then c.typeOf 2 == 6 else (s.face n).accMode.e128

/-- The fold tile of a pass on the rank that its reduction index gives (R66). -/
def State.passTile (s : State) (e n : Nat) (p : PassId) : Option TileRef :=
  match s.image with
  | none => none
  | some i =>
    let c := s.cut e
    let rank := p.red % max c.desc.split 1
    match c.desc.area with
    | .d a => i.dTile c.desc a p.item rank
    | .w _ => match i.outRegion c.desc with
      | some out => i.wTile c.desc out p.item rank (s.passE128 e n)
      | none => none
    | .a a => i.aTile c.desc.working a (s.arun e) p (s.passE128 e n)
    | _ => none

/-! ### The promotion reserve (R61, R177) -/

/-- Slots of a working's promotion reserve. -/
def State.reserve (s : State) (w : Nat) : Nat × Nat :=
  match s.image with
  | some i => match i.regionOf w 3 with
    | some r => (r.base, r.size / 131072)
    | none => (0, 0)
  | none => (0, 0)

/-- The lowest-numbered free slot of a working's reserve (R61). -/
def State.freeSlot (s : State) (w : Nat) : Option Nat :=
  (List.range (s.reserve w).2).find? (fun k => (Tab.find s.slots (w * 4096 + k)).isNone)

/-- First byte of an element: in its promotion slot when the tile was promoted, else in its region (R61). -/
def State.elemAt (s : State) (t : TileRef) (h : Hdr) (j l : Nat) : Nat :=
  if h.e128 && h.slot != 0xFFFF then (s.reserve t.working).1 + h.slot * 131072 + (j * 512 + l) * 16
  else t.base + (j * t.pitch + l) * elemSize h.e128

/-- The code of a yard element; +0 before the tile's first fold (R58, R208). -/
def State.elemCode (s : State) (t : TileRef) (h : Hdr) (j l : Nat) : Nat :=
  if h.folds = 0 then 0
  else leNat (Mem.readBytes s.yard.mem (s.elemAt t h j l) (if h.e128 then 16 else 5))

/-- The value of a yard element's code. -/
def yardVal (e128 : Bool) (w : Nat) : Val := if e128 then e128Val w else g40Val w

/-- Positions of a tile: pocket and lane of the elements it owns. -/
def TileRef.positions (t : TileRef) : List (Nat × Nat) :=
  ((List.range t.rows).map (fun j => (List.range t.cols).map (fun l => (j, l)))).flatten

/-- The tile promoted into slot `k` (R44, R61): every element converted exactly, SLOT written, FMT set. -/
def State.promote (s : State) (t : TileRef) (h : Hdr) (k : Nat) : State × Hdr :=
  let h' := { h with e128 := true, slot := k }
  let s1 := t.positions.foldl (fun u x =>
    u.putYard (u.elemAt t h' x.1 x.2) (natLe (promoteG40 (s.elemCode t h x.1 x.2)) 16)) s
  ({ s1 with slots := Tab.set s1.slots (t.working * 4096 + k) t.hdr }, h')

/-- The promotion rule (R61): state, header, and whether a slot was taken. -/
def State.promotionRule (s : State) (t : TileRef) (h : Hdr) (allowed : Bool) : State × Hdr × Bool :=
  match (if allowed then s.freeSlot t.working else none) with
  | some k =>
    let r := s.promote t h k
    (r.1, r.2, true)
  | none => (s, { h with longsum := true }, false)

/-! ### Folding (R59, R63) -/

/-- A contribution folded into an element: the new code, and whether E128 lost a bit (R59, R63). -/
def foldElem (e128 : Bool) (x : Nat) (p : Val) : Nat × Bool :=
  if e128 then toE128 ((e128Val x).add p)
  else ((toG40 ((g40Val x).add (g40Val (toG40 p).code))).code, false)

/-- Contributions folded into a tile, without the header's count. -/
def State.foldInto (s : State) (t : TileRef) (h : Hdr) (ps : List ((Nat × Nat) × Val)) : State × Bool :=
  ps.foldl (fun (a : State × Bool) x =>
    if x.1.1 < t.rows ∧ x.1.2 < t.cols then
      let r := foldElem h.e128 (s.elemCode t h x.1.1 x.1.2) x.2
      (a.1.putYard (s.elemAt t h x.1.1 x.1.2) (natLe r.1 (elemSize h.e128)), a.2 || r.2)
    else a) (s, false)

/-- Elements of a tile that no contribution names and that hold no value yet are written +0 at its first
fold. -/
def State.zeroRest (s : State) (t : TileRef) (h : Hdr) : State :=
  if h.folds = 0 then
    t.positions.foldl (fun u x => { u with yard := { u.yard with
      mem := Mem.clear u.yard.mem (u.elemAt t h x.1 x.2) (elemSize h.e128) } }) s
  else s

/-- Sticky flags of a cut that a header's flags set (R57, R193). -/
def hdrFlags (h : Hdr) : Nat :=
  (if h.nan then flag 2 else 0) + (if h.exlost then flag 4 else 0) + (if h.longsum then flag 5 else 0) +
  (if h.span then flag 6 else 0) + (if h.econ then flag 9 else 0)

/-- FOLDS after `k` more contributions (R57). -/
def foldsAdd (h : Hdr) (k : Nat) : Nat := satAdd 32 h.folds k

/-- What a fold brings besides its values: header flags of the pass. -/
structure FoldFlags where
  span : Bool
  nan : Bool
  econ : Bool
  deriving DecidableEq, Repr, Inhabited

/-- A fold of one contribution per element into a tile for cut `e` (R59, R61, R63): the promotion rule first,
then every element, then the header and the cut's sticky flags. `first` is the format of a tile at its first
fold (R70). -/
def State.foldTile (s : State) (e : Nat) (t : TileRef) (first promoteOn : Bool)
    (ps : List ((Nat × Nat) × Val)) (fl : FoldFlags) : State :=
  let h0 := readHdr s.yard.mem t.hdr
  let h1 := if h0.folds = 0 then { Hdr.reset with e128 := first } else h0
  let (s1, h2, took) := if !h1.e128 && !h1.longsum && decide (65536 < h1.folds + 1) then
      s.promotionRule t h1 promoteOn else (s, h1, false)
  let (s2, lost) := (s1.zeroRest t h2).foldInto t h2 ps
  let h3 := { h2 with
    folds := foldsAdd h2 1, exlost := h2.exlost || lost, span := h2.span || fl.span,
    nan := h2.nan || fl.nan, econ := h2.econ || fl.econ }
  ((s2.putYard t.hdr h3.bytes).orFlags e (hdrFlags h3)).modCut e (fun c => { c with
    maxFolds := if h3.longsum then max c.maxFolds h3.folds else c.maxFolds
    kd2 := if took && c.desc.kind == 2 then c.kd2 + 1 else c.kd2 })

/-- A tile's header reset, with its promotion slot freed (R61, R208, R232, R234). -/
def State.resetTile (s : State) (hdr : Nat) : State :=
  let s1 := s.putYard hdr Hdr.reset.bytes
  { s1 with slots := List.filter (fun x => x.2 != hdr) s1.slots }

/-! ### Order and slots (R58, R206, R207) -/

/-- Passes of a cut that a bench still has to run or fold. -/
def Bench.openPasses (b : Bench) (e : Nat) : List PassId :=
  (if b.cut = some e then b.cur.toList ++ b.saved.toList ++ b.work else []) ++
  (match b.shadow with
    | some sh => if sh.cut = e then [sh.pass] else []
    | none => []) ++
  (match b.yielded with
    | some (k, ws) => if k = e then ws else []
    | none => [])

/-- Passes of a cut still to be folded, over all benches. -/
def State.openPasses (s : State) (e : Nat) : List PassId :=
  (List.map (fun b : Nat × Bench => b.2.openPasses e) s.benches).flatten

/-- Two passes fold into one tile: the same slice and rank for D and W; for A the same dQ, dK or dV tile. -/
def State.sameTile (s : State) (e n : Nat) (p q : PassId) : Bool :=
  let c := s.cut e
  if c.desc.kind = 3 then p.stage == q.stage && (s.passTile e n p == s.passTile e n q)
  else p.item == q.item && p.red % max c.desc.split 1 == q.red % max c.desc.split 1

/-- `q` folds before `p` into the tile they share (R58, R266). -/
def foldsBefore (kind : Nat) (q p : PassId) : Bool :=
  if kind = 3 ∧ p.stage ≠ 5 then decide (q.item < p.item) || (q.item == p.item && decide (q.red < p.red))
  else decide (q.red < p.red)

/-- Every earlier pass of the tile has folded (R58). -/
def State.orderMet (s : State) (e n : Nat) (p : PassId) : Bool :=
  !(s.openPasses e).any (fun q => foldsBefore (s.cut e).desc.kind q p && s.sameTile e n q p)

/-- The slot of a dK and dV tile is free of the tile that used it before (R267). -/
def State.dkvFree (s : State) (e : Nat) (a : AArea) (o : Nat) (e128 : Bool) : Bool :=
  match s.image with
  | some i =>
    let n := max (i.nSlot a e128) 1
    decide (o < n) || (s.arun e).tilesDone.contains (o - n)
  | none => false

/-- The slice's slot no longer awaits the readout of the slice that used it before (R207, R208), or the output of
the tile that did (R267). -/
def State.slotFree (s : State) (e n : Nat) (p : PassId) : Bool :=
  let c := (s.cut e).desc
  let k := p.item % c.perSet
  match c.area with
  | .d _ => decide (k < 2) || (s.cut e).done.contains (p.item - 2)
  | .a a =>
    p.stage == 5 ||
    match rowOf a.heads a.qbLog2 (s.arun e).seqs 0 p.item with
    | some (_, head, _) => s.dkvFree e a (tileOrdinal a p.red head) (s.passE128 e n)
    | none => false
  | _ => true

/-- The area of a W-cut. -/
def CutDesc.wArea (c : CutDesc) : WArea :=
  match c.area with
  | .w a => a
  | _ => default

/-- The tile has had its initial fold, where the cut names an initial value (R230). -/
def State.initialMet (s : State) (e : Nat) (p : PassId) (t : TileRef) : Bool :=
  let c := (s.cut e).desc
  c.kind != 2 || c.wArea.initMap == 0xFFFF || p.red % max c.split 1 != 0 ||
    decide (0 < (readHdr s.yard.mem t.hdr).folds)

/-! ### Completing slices (R190, R232) -/

/-- Entry `e` has output writes of an item that the fabric has not acknowledged. -/
def State.writesOpen (s : State) (e item : Nat) : Bool :=
  s.hoists.any (fun h => h.2.cut == some e && h.2.out.any (fun w => w.item == item))

/-- PROGRESS for completed items in order, as far as their writes are acknowledged (R190). -/
def State.publishN (s : State) (e : Nat) : Nat → State
  | 0 => s
  | k + 1 =>
    let c := s.cut e
    if c.done.contains c.published && !s.writesOpen e c.published then
      State.publishN ((s.modCut e (fun c => { c with published := c.published + 1 })).tallyDone
        c.desc.progress) e k
    else s

/-- PROGRESS of entry `e` brought up to date. -/
def State.publish (s : State) (e : Nat) : State := s.publishN e (s.cut e).items

/-- An item of entry `e` is complete. -/
def State.itemDone (s : State) (e item : Nat) : State :=
  if (s.cut e).done.contains item then s
  else (s.modCut e (fun c => { c with done := item :: c.done })).publish e

/-- log₂ of SPLIT. -/
def CutDesc.levels (c : CutDesc) : Nat := Nat.log2 (max c.split 1)

/-- A tree combination's number in `CutRun.trees`. -/
def treeKey (slice rank level : Nat) : Nat := (slice * 8 + rank) * 4 + level

/-- Every pass of a slice on a rank has folded. -/
def State.rankDone (s : State) (e slice rank : Nat) : Bool :=
  !(s.openPasses e).any (fun q => q.item == slice && q.red % max (s.cut e).desc.split 1 == rank)

/-- A rank's contents of a slice stand complete up to a level of the tree (R67). -/
def State.levelDone (s : State) (e slice rank level : Nat) : Bool :=
  s.rankDone e slice rank && (level == 0 || (s.cut e).trees.contains (treeKey slice rank level))

/-- The tile of a slice of a D- or W-cut at a rank. -/
def State.rankTile (s : State) (e slice rank : Nat) : Option TileRef :=
  s.passTile e (nth 0 (s.cutFaces (s.cut e).desc) 0)
    { item := slice, red := rank, stage := 0, sub := 0, tag := 0 }

/-- The initial value of a slice has been folded, where its cut names one (R230). -/
def State.initialDone (s : State) (e slice : Nat) : Bool :=
  (s.cut e).desc.kind != 2 || (s.cut e).desc.wArea.initMap == 0xFFFF ||
    match s.rankTile e slice 0 with
    | some t => decide (0 < (readHdr s.yard.mem t.hdr).folds)
    | none => false

/-- A slice is complete at rank 0: its last fold, or its last tree combination, has finished (R208, R230, R232). -/
def State.sliceReady (s : State) (e slice : Nat) : Bool :=
  s.levelDone e slice 0 (s.cut e).desc.levels && s.initialDone e slice

/-- A W-cut's slice completes with its last fold or combination (R190, R232, R243). -/
def State.checkSlice (s : State) (e slice : Nat) : State :=
  if (s.cut e).desc.kind = 2 ∧ s.sliceReady e slice = true then s.itemDone e slice else s

/-! ### FOLD and TREE_COMBINATION -/

/-- Flags of the pass that its fold or drain commits (R85, R193): SPAN, UNCHK, ECON and NAN. -/
def Shadow.cutFlags (sh : Shadow) : Nat :=
  (if sh.span then flag 6 else 0) + (if sh.econ then flag 9 else 0) + (if sh.nan then flag 2 else 0) +
  (if sh.unchecked && (sh.chk.col || sh.chk.row) then flag 10 else 0)

/-- The contributions of a shadow: pocket, lane and value. -/
def Shadow.contributions (sh : Shadow) : List ((Nat × Nat) × Val) :=
  List.map (fun x : Nat × Pocket => ((x.1 / 512, x.1 % 512), x.2.val)) sh.pockets

/-- A pass that folds into the yard: every pass of a D- or W-cut, and stages 2, 4 and 5 of an A-cut (R245). -/
def foldsToYard (kind : Nat) (p : PassId) : Bool :=
  kind != 3 || p.stage == 2 || p.stage == 4 || p.stage == 5

/-- The shadow is free; a bench frozen on it goes on at its next boundary. -/
def State.freeShadow (s : State) (n b : Nat) : State :=
  (s.modBench n b (fun x => { x with shadow := none })).tryStart n b

/-- The cut-level effects of a completed fold. -/
def State.afterFold (s : State) (e : Nat) (p : PassId) : State :=
  let s1 := s.modCut e (fun c => { c with
    passes := c.passes + 1, kd1 := if c.desc.kind = 2 then c.kd1 + 1 else c.kd1 })
  s1.checkSlice e p.item

/-- FOLD (R59, R79): a shadow that has passed its check, or is unchecked, folds in its turn. -/
def State.fold (s : State) (n b : Nat) : State :=
  match (s.bench n b).shadow with
  | none => s
  | some sh =>
    let e := sh.cut
    match s.passTile e n sh.pass with
    | none => s
    | some t =>
      if sh.cleared && foldsToYard (s.cut e).desc.kind sh.pass && s.orderMet e n sh.pass &&
          s.slotFree e n sh.pass && s.initialMet e sh.pass t then
        let s1 := s.foldTile e t (s.passE128 e n) (s.face n).accMode.promote sh.contributions
          { span := sh.span, nan := sh.nan, econ := sh.econ }
        ((s1.orFlags e sh.cutFlags).freeShadow n b).afterFold e sh.pass
      else s

/-- Two headers' flags joined, with the sum of their counts (R67). -/
def Hdr.join (x y : Hdr) : Hdr :=
  { x with folds := satAdd 32 x.folds y.folds, longsum := x.longsum || y.longsum,
           exlost := x.exlost || y.exlost, span := x.span || y.span, nan := x.nan || y.nan,
           econ := x.econ || y.econ }

/-- The combination of one element: exact in E128, one rounding in G40 (R67). -/
def joinElem (e128 : Bool) (x y : Val) : Nat × Bool :=
  if e128 then toE128 (x.add y) else ((toG40 (x.add y)).code, false)

/-- Two tiles combined into the first (R67): formats, promotion, elements, header. A slot that the partner keeps is freed
when its tile is reset (R61). -/
def State.combine (s : State) (e : Nat) (t u : TileRef) (promoteOn : Bool) : State :=
  let hx := readHdr s.yard.mem t.hdr
  let hy := readHdr s.yard.mem u.hdr
  let bothG := !hx.e128 && !hy.e128
  let tooMany := bothG && !hx.longsum && !hy.longsum && decide (65536 < hx.folds + hy.folds)
  let vals := t.positions.map (fun p =>
    (p, yardVal hx.e128 (s.elemCode t hx p.1 p.2), yardVal hy.e128 (s.elemCode u hy p.1 p.2)))
  -- a G40 destination of an E128 partner takes the partner's slot
  let steal := !hx.e128 && hy.e128
  let slot := if tooMany && promoteOn then s.freeSlot t.working else none
  let h0 : Hdr := if steal then { hx with e128 := true, slot := hy.slot }
    else match slot with
      | some k => { hx with e128 := true, slot := k }
      | none => if tooMany then { hx with longsum := true } else hx
  let h1 := h0.join hy
  let (s1, lost) := vals.foldl (fun (a : State × Bool) x =>
    let r := joinElem h1.e128 x.2.1 x.2.2
    (a.1.putYard (s.elemAt t h1 x.1.1 x.1.2) (natLe r.1 (elemSize h1.e128)), a.2 || r.2)) (s, false)
  let h2 := { h1 with exlost := h1.exlost || lost }
  let slots0 := if steal then List.filter (fun x => x.2 != u.hdr) s1.slots else s1.slots
  let slots1 := if h2.e128 && h2.slot != 0xFFFF then Tab.set slots0 (t.working * 4096 + h2.slot) t.hdr
    else slots0
  let s2 := State.putYard { s1 with slots := slots1 } t.hdr h2.bytes
  let hy' := if steal then { hy with slot := 0xFFFF } else hy
  ((s2.putYard u.hdr hy'.bytes).orFlags e (hdrFlags h2)).modCut e (fun c => { c with
    maxFolds := if h2.longsum then max c.maxFolds h2.folds else c.maxFolds
    kd2 := if slot.isSome && c.desc.kind == 2 then c.kd2 + 1 else c.kd2 })

/-- TREE_COMBINATION (R67): rank `rank` takes the sum of itself and rank + 2^(level − 1) once both are
complete. -/
def State.treeStep (s : State) (e slice level rank : Nat) : State :=
  let c := (s.cut e).desc
  let other := rank + 2 ^ (level - 1)
  if 1 ≤ level ∧ level ≤ c.levels ∧ rank % 2 ^ level = 0 ∧ other < c.split ∧ slice < c.slices ∧
      (s.cut e).live = true ∧ s.levelDone e slice rank (level - 1) = true ∧
      s.levelDone e slice other (level - 1) = true ∧
      (s.cut e).trees.contains (treeKey slice rank level) = false then
    match s.rankTile e slice rank, s.rankTile e slice other with
    | some t, some u =>
      let n := nth 0 (s.cutFaces c) 0
      ((s.combine e t u (s.face n).accMode.promote).modCut e (fun x => { x with
        trees := treeKey slice rank level :: x.trees })).checkSlice e slice
    | _, _ => s
  else s

/-- TREE_COMBINATION (R67). -/
def execTreeCombination (e : Fin 4096) (slice level rank : Nat) (s : State) :
    Host.Outcome State Fault Refusal := s.on (fun s => s.treeStep e.val slice level rank)

/-! ### The initial fold (R230) -/

/-- The block of 32 elements of a seam position is frozen (R227, R238). -/
def CutRun.frozenAt (c : CutRun) (i k : Nat) : Bool := nth false c.freeze ((i * c.desc.axL + k) / 32)

/-- INITIAL_FOLD_DONE (R230): the tile's first fold, of BF16 codes by row and column of the tile; frozen
blocks contribute +0. -/
def State.initialFold (s : State) (e slice : Nat) (values : List (List Nat)) : State :=
  let c := s.cut e
  let d := c.desc
  if d.kind = 2 ∧ c.phase = .running ∧ d.wArea.initMap ≠ 0xFFFF ∧ slice < d.slices then
    match s.rankTile e slice 0 with
    | none => s
    | some t =>
      if (readHdr s.yard.mem t.hdr).folds = 0 then
        let n := nth 0 (s.cutFaces d) 0
        let row := d.sliceP slice * d.pTile
        let col := d.sliceL slice * d.lTile
        let ps := t.positions.map (fun p =>
          (p, if c.frozenAt (row + p.1) (col + p.2) then Val.zero
              else bf16 (nth 0 (nth [] values p.1) p.2)))
        let nan := ps.any (fun x => x.2.isNan)
        ((s.foldTile e t (s.passE128 e n) (s.face n).accMode.promote ps
          { span := false, nan := nan, econ := false }).orFlags e (flag 24)).checkSlice e slice
      else s
  else s

/-- INITIAL_FOLD_DONE (R230). -/
def execInitialFoldDone (e : Fin 4096) (slice : Nat) (values : List (List Nat)) (s : State) :
    Host.Outcome State Fault Refusal := s.on (fun s => s.initialFold e.val slice values)

end Sys2Proof.Machine
end

