-- ==== Sys2Proof/Machine/Sched.lean ====
section
/-! DEFINITION. The end of a cut and of a step: final status, record, tallies, stalled-working records, seams
completed and released, resources freed, the step's close, the health model at a close and the beginning of a
snapshot (R180, R190 to R194, R232, R234, R385, R386, R388, R450). -/

namespace Sys2Proof.Machine

/-! ### Logs of a cut (R194, R446) -/

/-- A log record that names a cut: entry and status, DETAIL_MAP and DETAIL_AUX. -/
def State.logCut (s : State) (code e : Nat) : State :=
  let c := s.cut e
  s.logRec code (s.descOf e).working 0 (e + c.status * 2 ^ 16) (c.detailMap + c.detailAux * 2 ^ 16)

/-- The first tally among a list that a descriptor waits on. -/
def CutDesc.waitsOn (d : CutDesc) (tallies : List Nat) : Option Nat :=
  (d.waits.map WaitDesc.idx).find? (fun i => i != 0xFFFF && tallies.contains i)

/-- Stalled-working records (R180): one for each pending cut of the step that waits on a DONE tally of the
cut that failed. -/
def State.logStalled (s : State) (e : Nat) : State :=
  let w := (s.descOf e).working
  let tallies := (s.descOf e).dones.map DoneDesc.idx
  ((s.entriesOf w).filter (fun k => (s.cut k).phase == .pending)).foldl (fun t k =>
    match (s.descOf k).waitsOn tallies with
    | some i => t.logRec 0x0203 w 0 k i
    | none => t) s

/-! ### Freeing what a cut holds -/

/-- The template and re-arm range in force take the place of the old ones at a stream end (R160). -/
def State.retmpl (s : State) (n : Nat) (h : Hoist) : Hoist :=
  match s.image with
  | some i =>
    match Tab.find i.hoists n with
    | some t => { h with tmpl := some t, k := if h.k < t.rearmCount then h.k else 0 }
    | none => h
  | none => h

/-- Hoists of a cut that has ended are idle. -/
def State.freeHoists (s : State) (e : Nat) : State :=
  { s with hoists := s.hoists.map (fun h : Nat × Hoist =>
      (h.1, if h.2.cut = some e then s.retmpl h.1 h.2.idleNow else h.2)) }

/-- A bench without the cut `e`: a cut that yielded it takes it back at its next pass (R182), and the shadow
of another cut stays. -/
def State.freeBench (s : State) (e : Nat) (b : Bench) : Bench :=
  let shadow := match b.shadow with
    | some sh => if sh.cut = e then none else some sh
    | none => none
  if b.cut = some e then
    match b.yielded with
    | some (k, ws) => { Bench.reset with
        cut := some k, work := ws, shadow := shadow, stopped := (s.cut k).phase == .stopped }
    | none => { Bench.reset with shadow := shadow }
  else
    match b.yielded with
    | some (k, _) => if k = e then { b with yielded := none, shadow := shadow } else b
    | none => { b with shadow := shadow }

/-- The benches of a cut that has ended are free, and yielding cuts go on. -/
def State.freeBenches (s : State) (e : Nat) : State :=
  let keys := List.map Prod.fst (List.filter (fun b : Nat × Bench => b.2.cut == some e) s.benches)
  let s1 : State := { s with
    benches := s.benches.map (fun b : Nat × Bench => (b.1, s.freeBench e b.2))
    kilns := s.kilns.filter (fun k => !keys.contains k.1) }
  keys.foldl (fun t k => t.tryStart (k / 4) (k % 4)) s1

/-- Units that work for a cut are free. -/
def State.freeUnits (s : State) (e : Nat) : State :=
  { s with units := s.units.map (fun u : Nat × UnitState =>
      (u.1, { u.2 with
        busy := if u.2.busy = some e then none else u.2.busy
        cutFaults := if u.2.cutFaults = e + 1 then 0 else u.2.cutFaults })) }

/-- Everything a cut held is free; cuts that waited for its faces wait no more. -/
def State.freeCut (s : State) (e : Nat) : State :=
  let s1 := ((s.freeHoists e).freeUnits e).dropTiles e
  State.freeBenches { s1 with
    fills := { s1.fills with waiting := s1.fills.waiting.filter (fun x => x.1 != e) } } e

/-! ### Seams (R232 to R234, R391) -/

/-- The addresses of the headers of a seam's rank (R177). -/
def State.seamHdrs (s : State) (m : Seam) (rank : Nat) : List Nat :=
  match s.image with
  | some i => (List.range (ceilDiv m.rows (max m.pTile 1) * ceilDiv m.cols (max m.lTile 1))).filterMap
      (fun k => i.hdrAddr (m.region + rank) k)
  | none => []

/-- Headers of some ranks of a seam reset, with their promotion slots freed (R232). -/
def State.resetSeam (s : State) (m : Seam) (ranks : List Nat) : State :=
  ranks.foldl (fun t r => (t.seamHdrs m r).foldl State.resetTile t) s

/-- The seam named by the area of a W-, U- or X-cut. -/
def CutDesc.seamId (d : CutDesc) : Option Nat :=
  match d.area with
  | .w a => some a.seamId
  | .u a => some a.seamId
  | .x a => some a.seamId
  | _ => none

/-- A drain still reads lines of held seams (R391). -/
def State.drainsSeams (s : State) : Bool :=
  s.snap.phase == .draining &&
    match (s.cut s.snap.entry).desc.area with
    | .s a => bit a.content 1
    | _ => false

/-- A seam is released (R234): an evicted seam frees its backing area, a held one its headers and slots; a
held seam whose lines a drain still has to read is released when the drain has read them (R391). -/
def State.releaseSeam (s : State) (id : Nat) : State :=
  match Tab.find s.seams id with
  | none => s
  | some m =>
    match m.phase with
    | .held =>
      if s.drainsSeams then { s with seams := Tab.set s.seams id { m with phase := .releasing } }
      else { s.resetSeam m [0] with seams := Tab.drop s.seams id }
    | .evicted => { s with seams := Tab.drop s.seams id }
    | _ => s

/-- Seams whose release waited for a drain are released (R391). -/
def State.releaseWaiting (s : State) : State :=
  (List.filter (fun x : Nat × Seam => x.2.phase == .releasing) s.seams).foldl (fun t x =>
    { t.resetSeam x.2 [0] with seams := Tab.drop t.seams x.1 }) s

/-- The seam of a W-cut completes: ranks above 0 reset, rank 0 is held (R232). -/
def State.completeSeam (s : State) (id : Nat) : State :=
  match Tab.find s.seams id with
  | some m =>
    if m.phase = .accumulating then
      let s1 := s.resetSeam m ((List.range m.split).drop 1)
      { s1 with seams := Tab.set s1.seams id { m with phase := .held } }
    else s
  | none => s

/-- The seam that a U-cut consumes itself: its SOURCE is a W-cut, not an X-cut's result (R233, R285). -/
def State.consumesSeam (s : State) (e id : Nat) : Bool :=
  match Tab.find s.seams id with
  | some m => m.handoff == e
  | none => false

/-- What a final status means for the seam of the cut (R232, R234). -/
def State.endSeam (s : State) (e code : Nat) : State :=
  let d := (s.cut e).desc
  match d.seamId with
  | none => s
  | some id =>
    if d.kind = 2 then (if validResult code then s.completeSeam id else s)
    else if s.consumesSeam e id then
      (if validResult code then s.releaseSeam id else s.logRec 0x0204 d.working 0 id e)
    else s

/-- An X-cut that ends validly leaves its result held; the U-cut that consumes it releases it with its own valid final
status (R281, R316). -/
def State.endResult (s : State) (e code : Nat) : State :=
  match (s.cut e).desc.area with
  | .u a =>
    if validResult code && a.source != 0xFFFF then
      { s with results := List.filter (fun x => x.2 != a.source) s.results }
    else s
  | .x a => if validResult code then { s with results := Tab.set s.results a.resultRegion e } else s
  | _ => s

/-! ### Risk at a close of REF_WORKING (R385, R386) -/

/-- A lane of a port is in use (R326, R329). -/
def Module.laneUsed (m : Module) (i : Nat) : Bool :=
  if i = 8 then m.spareFor != 0xF else m.spareFor != i

/-- Input 4: modules with a lane in use whose Tx bias rise exceeds half of BIAS_LANE_PCT. -/
def State.driftCount (s : State) : Nat :=
  ((List.range 4).filter (fun p =>
    match s.portEntry p with
    | some t => (s.port p).module.present && (List.range 9).any (fun i =>
        (s.port p).module.laneUsed i && decide (t.biasLanePct < 2 * nth 0 (s.port p).module.rise i))
    | none => false)).length

/-- The hottest face sensor. -/
def State.hottestFace (s : State) : Int :=
  (List.range 72).foldl (fun a n => max a (Tab.get 0 s.temps n)) 0

/-- Input 5: °C by which the margin to 105 °C falls short of 10 °C. -/
def State.marginShort (s : State) : Nat := (10 - (105 - s.hottestFace)).toNat

/-- Input 7: kinds of R372 down to at most one spare on some unit that has used one (log entry 14). -/
def State.lowKinds (s : State) : Nat :=
  b2n (s.spare.laneUsed.any (fun x => decide (0 < x.2))) +
  b2n (s.spare.benchRet.any (fun x => x.2 != 0)) +
  b2n (!(s.spare.faceRet ++ s.spare.faceFailed).isEmpty && decide (s.freeFaces.length ≤ 1)) +
  b2n (!s.spare.bankRet.isEmpty && decide (s.freeBanks.length ≤ 1)) +
  b2n (!s.spare.bufRet.isEmpty && decide (s.healthyBufs.length ≤ 7)) +
  b2n (!s.spare.laneSpare.isEmpty)

/-- The health model at a close (R385, R386): decay, then the level inputs. -/
def State.riskClose (s : State) : State :=
  let s1 : State := { s with health := { s.health with
    score := s.health.score - s.health.score >>> s.riskShift } }
  ((s1.healthEvent 4 s1.driftCount).healthEvent 5 s1.marginShort).healthEvent 7 s1.lowKinds

/-! ### A snapshot begins (R388) -/

/-- MIN_STEPS and MAX_STEPS in force (R399). -/
def State.snapSteps (s : State) : Nat × Nat :=
  match s.snapPart with
  | some p => if p.preset = 1 then (p.minSteps, p.maxSteps) else (4, 0)
  | none => (4, 0)

/-- INSERT_ENTRY in force (R399); 0xFFFF for none. -/
def State.insertEntry (s : State) : Nat :=
  match s.snapPart with
  | some p => p.insertEntry
  | none => 0xFFFF

/-- PERIOD with 0 read as 1 (R183). -/
def CutDesc.per (d : CutDesc) : Nat := max d.period 1

/-- Scheduled S-cuts whose phase matches a step, and those that an earlier close deferred (R388). -/
def State.scheduledSnaps (s : State) (step : Nat) : List Nat :=
  (List.range s.cutCount).filter (fun e =>
    let d := s.descOf e
    d.kind == 6 && e != s.insertEntry && !s.isRefused e &&
    (step % d.per == d.phase || s.snap.due.contains e))

/-- The beginning of a snapshot at a close of REF_WORKING (R388); `next` is the step that would open. -/
def State.snapBegin (s : State) (next : Nat) : State :=
  if s.snap.phase = .idle then
    let (lo, hi) := s.snapSteps
    let since := next - s.snap.captureStep
    let risk := s.health.pending && decide (lo ≤ since)
    let most := hi != 0 && decide (hi ≤ since)
    let ins := s.insertEntry
    let canInsert := ins != 0xFFFF && !s.isRefused ins && (s.descOf ins).kind == 6
    match s.scheduledSnaps next with
    | e :: others => { s with snap := { s.snap with
        phase := .holding, entry := e, test := false, inserted := false, forced := false, due := others } }
    | [] =>
      if canInsert && (risk || most || s.snap.force) then
        { s with snap := { s.snap with
            phase := .holding, entry := ins, test := false, inserted := risk || most,
            forced := s.snap.force } }
      else s
  else { s with snap := { s.snap with due := distinct (s.snap.due ++ s.scheduledSnaps next) } }

/-! ### The close of a step (R180) -/

/-- Entries that a working's open step waits for: every entry that became eligible in it. An inserted S-cut
never is by its phase (R388; log entry 15). -/
def State.stepCuts (s : State) (w : Nat) : List Nat :=
  (s.entriesOf w).filter (fun e => (s.cut e).phase != .idle &&
    !((s.descOf e).kind == 6 && e == s.insertEntry))

/-- Every eligible cut has ended with a final status other than 0x50. -/
def State.stepDone (s : State) (w : Nat) : Bool :=
  (s.stepCuts w).all (fun e => (s.cut e).phase == .ended && (s.cut e).status != 0x50)

/-- The step is held open only by cuts that ended with 0x50. -/
def State.heldByBroken (s : State) (w : Nat) : Bool :=
  (s.work w).isOpen && !s.stepDone w && (s.stepCuts w).all (fun e => (s.cut e).phase == .ended)

/-- The step closes (R180): a stopping sequencer stops; at a close of REF_WORKING the health model runs and a
snapshot may begin. -/
def State.closeStep (s : State) (w : Nat) : State :=
  let s1 := s.modWork w (fun x => { x with
    isOpen := false, first := false, restored := false,
    seq := if x.seq = .stopping then .stopped else x.seq })
  if w = s.refWorking ∧ s.image.isSome = true then s1.riskClose.snapBegin ((s.work w).step + 1) else s1

/-- The step of a working closes if it can. -/
def State.tryClose (s : State) (w : Nat) : State :=
  let x := s.work w
  if x.isOpen && (x.seq == .running || x.seq == .stopping) && s.stepDone w then s.closeStep w else s

/-! ### The end of a cut -/

/-- DONE tallies of a cut, all at once (R190). -/
def State.doneTallies (s : State) (d : CutDesc) : State := d.dones.foldl State.tallyDone s

/-- The final status is written, with the whole record (R15, R191, R192). -/
def State.finish (s : State) (e code : Nat) : State :=
  (s.modCut e (fun c => { c with phase := .ended, status := code, endNc := s.nc })).writeRecord e

/-- FMIN_SERVICE in force (R363): 12 at the basic level. -/
def State.fminService (s : State) : Nat :=
  match s.clkPart with
  | some c => c.fminService
  | none => 12

/-- A cut ends, and with it the adoption of retired faces' work in it: a face that adopts no other work loses REDUCED
unless its benches or its FMAX keep it (R375, R380, R434). -/
def State.endAdoption (s : State) (e : Nat) : State :=
  let mine := s.fills.adopted.filter (fun x => x.1 == e)
  let rest := s.fills.adopted.filter (fun x => x.1 != e)
  let busy := rest.filterMap (fun x => s.adopter (s.cut x.1).desc x.2)
  mine.foldl (fun t x => match s.adopter (s.cut e).desc x.2 with
    | some m =>
      let low := fun (f : Face) => f.fmaxReg != 0 && decide (f.fmaxReg < t.fminService)
      let keep := busy.contains m || decide (t.goodBenches m < 4)
      t.modFace m (fun f => { f with reduced := keep || low f })
    | none => t) { s with fills := { s.fills with adopted := rest } }

/-- A cut ends with a final status (R190, R194, R180, R234). -/
def State.endCut (s : State) (e code : Nat) : State :=
  let d := (s.cut e).desc
  let s1 := s.finish e code
  let s2 := if failedCode code then s1 else s1.doneTallies d
  let s3 := if needsAttention code then (s2.setEvt evCutAttn).logCut 0x0202 e else s2
  let s4 := (((s3.endSeam e code).endResult e code).freeCut e).endAdoption e
  let s5 := if failedCode code then s4.logStalled e else s4
  State.tryClose { s5 with aruns := Tab.drop s5.aruns e, xruns := Tab.drop s5.xruns e } d.working

/-- A cut is refused (R141, R194, R450): its record alone is written, with one night-cycle count. -/
def State.refuse (s : State) (e : Nat) (r : CutRefusal) : State :=
  let d := s.descOf e
  let s1 := s.modCut e (fun c => { CutRun.reset with
    desc := d, step := (s.work d.working).step, startNc := s.nc, detailMap := r.detailMap,
    detailAux := r.detailAux, runs := c.runs, flags := c.flags })
  let s2 := ((s1.finish e r.status).setEvt evCutRefused).logCut 0x0201 e
  ((s2.endSeam e r.status).logStalled e).tryClose d.working

/-- A cut's running phase is over for it: the X-cuts and A-cuts that a lost port or a broken plan ends
(R321). -/
def State.breakCut (s : State) (e : Nat) : State :=
  if (s.cut e).live then s.endCut e 0x50 else s

end Sys2Proof.Machine
end

