-- ==== Sys2Proof/Machine/Hoist.lean ====
section
/-! DEFINITION. Hoists and the stockpile: claims, lines read and written, receivers, detach, re-arm, spill and
the errors of a stream (R143 to R171, R366, R367). -/

namespace Sys2Proof.Machine

/-! ### A hoist's view of its maps (R158, R159) -/

/-- The template of a hoist's stream: its own, or for a detach hoist that of the multicast it reads for (R155). -/
def State.streamTmpl (s : State) (h : Hoist) : Option HoistTmpl :=
  match h.source with
  | some m => (s.hoist m).tmpl
  | none => h.tmpl

/-- The re-arm entry of the stream in progress or next (R159). -/
def State.rearmOf (s : State) (h : Hoist) : Option RearmEntry :=
  match s.streamTmpl h, s.image with
  | some t, some i => if t.persist then Tab.find i.rearm (t.rearmFirst + h.k) else none
  | _, _ => none

/-- A map with the bases of a re-arm entry; `dst` selects the destination's fields (R158). -/
def MapDesc.rebase (m : MapDesc) (r : RearmEntry) (dst : Bool) : MapDesc :=
  let i := if dst then 2 else 0
  { m with
    base := if bit r.keep i then m.base else if dst then r.dstBase else r.srcBase
    blBase := if bit r.keep 4 || !m.listed then m.blBase else r.blBase }

/-- The map under which a hoist works for cut `c`: the map that the cut read when it started (R142), under the
hoist's own bases (R159). -/
def State.hoistView (s : State) (c : CutRun) (h : Hoist) (dst : Bool) : Option MapDesc :=
  match s.streamTmpl h with
  | none => none
  | some t =>
    match Tab.find c.maps (if dst then t.dstMap else t.srcMap) with
    | none => none
    | some m =>
      match s.rearmOf h with
      | some r => some (m.rebase r dst)
      | none => some m

/-- The place of a line's first element in a map of the cut (R117, R135, R136). -/
def CutDesc.placeOf (d : CutDesc) (m : MapDesc) (map : Nat) (x : LinePoint) : Place :=
  m.place (d.coords (d.roleOf map) x.at') x.look x.entry

/-- The index of dimension 0 of a line's first element. -/
def CutDesc.index0 (d : CutDesc) (m : MapDesc) (map : Nat) (x : LinePoint) : Int :=
  match m.indexAt (nth (some 0) (d.coords (d.roleOf map) x.at') 0) x.look x.entry 0 with
  | .ok i => i
  | .error _ => 0

/-! ### Granules (R148 to R151) -/

/-- Borrowed granules of a hoist (R149). -/
def Hoist.borrowed (h : Hoist) : Nat := h.occ - h.floor

/-- The shared pool's free count (R149). -/
def State.freeGranules (s : State) : Nat :=
  Config.granules - (List.map (fun h : Nat × Hoist => h.2.floor) s.hoists).sum -
    (List.map (fun h : Nat × Hoist => h.2.borrowed) s.hoists).sum

/-- A hoist can claim `n` granules (R150). -/
def State.canClaim (s : State) (h : Hoist) (n : Nat) : Bool :=
  match h.tmpl with
  | some t =>
    let room := if t.borrow = 0xFFFF then s.freeGranules else min s.freeGranules (t.borrow - h.borrowed)
    decide (n ≤ (t.floor - h.occ) + room)
  | none => false

/-- Granules of a number of lines. -/
def granulesOf (lines : Nat) : Nat := ceilDiv lines 64

/-- Receivers of a hoist: RECV_N, or its one destination. -/
def Hoist.receivers (h : Hoist) : Nat :=
  match h.tmpl with
  | some t => max t.recvN 1
  | none => 1

/-- Receiver `r` takes from this hoist: attached, or the one destination of a hoist without receivers. -/
def Hoist.takes (h : Hoist) (r : Nat) : Bool :=
  match h.tmpl with
  | some t => if t.recvN = 0 then r == 0 else decide (r < t.recvN) && bit h.attached r
  | none => false

/-- p_r of R153. -/
def Hoist.pos1 (h : Hoist) (r : Nat) : Nat := nth 0 h.taken r

/-- Receivers attached, ascending. -/
def Hoist.attachedList (h : Hoist) : List Nat := (List.range h.receivers).filter (fun r => h.takes r)

/-- p_min of R153; with no receiver attached, everything claimed has gone. -/
def Hoist.posMin (h : Hoist) : Nat :=
  match h.attachedList with
  | [] => granulesOf h.nextSeq
  | r :: rs => rs.foldl (fun a x => min a (h.pos1 x)) (h.pos1 r)

/-- Granules before `p` are released (R151). -/
def Hoist.release (h : Hoist) (old : Nat) : Hoist :=
  let new := h.posMin
  if old < new then
    { h with occ := h.occ - (new - old), timer := 0, pos := min (new * 4096) (h.nextSeq * 64),
             reqs := h.reqs.filter (fun q => decide (new * 64 ≤ q.seq)) }
  else h

/-! ### Delivery -/

/-- The line at the delivery point goes on in stream order (R166): to the fabric as a write, whose bytes count when they
are acknowledged, to the yard, or to the receivers, which take it by granules. -/
def State.deliverLine (s : State) (n : Nat) (q : LineReq) (bs : List Byte) : State :=
  let h := s.hoist n
  let s1 := s.modHoist n (fun h => { h with
    deliver := h.deliver + 1
    bytes := if q.dst.isSome && (h.tmpl.map HoistTmpl.dst) == some 0 then h.bytes else h.bytes + 64 })
  match h.tmpl, q.dst with
  | some t, some a =>
    if t.dst = 0 then s1.modHoist n (fun h => { h with
      out := h.out ++ [{ item := 0, addr := a, bytes := bs, errors := 0 }] })
    else if t.dst = 1 then s1.putYard a bs
    else s1
  | _, _ => s1

/-- Lines that have arrived are delivered in stream order (R166), `fuel` at most. -/
def State.deliverN (s : State) (n : Nat) : Nat → State
  | 0 => s
  | k + 1 =>
    match (s.hoist n).reqs.find? (fun q => q.seq == (s.hoist n).deliver) with
    | some q =>
      match q.data with
      | some bs => State.deliverN (s.deliverLine n q bs) n k
      | none => s
    | none => s

/-- Everything that has arrived is delivered; the hoist then streams or waits on its destination. -/
def State.deliverAll (s : State) (n : Nat) : State :=
  let s1 := s.deliverN n (s.hoist n).reqs.length
  s1.modHoist n (fun h => { h with
    st := if h.st = .stream ∨ h.st = .dest then
        (if h.reqs.any (fun q => q.data.isNone) || h.reqs.isEmpty then .stream else .dest)
      else h.st })

/-! ### HOIST_CLAIM (R117, R121, R123, R147, R150) -/

/-- The address of a line in a map, if its first element lies in it. -/
def CutDesc.lineAddr (d : CutDesc) (m : MapDesc) (map : Nat) (x : LinePoint) : Option Nat :=
  match d.placeOf m map x with
  | .elem b => some (b / 512 * 64)
  | .fill _ _ => none

/-- The request for a line of the source: an address with its valid bytes, or the fill that stands for it
(R121, R123). A yard line is read at once. -/
def State.lineReq (s : State) (d : CutDesc) (sm : MapDesc) (src : Nat) (dm : Option (MapDesc × Nat)) (seq : Nat)
    (x : LinePoint) : LineReq :=
  let dst := match dm with
    | some (m, k) => d.lineAddr m k x
    | none => none
  match d.placeOf sm src x with
  | .elem b =>
    let a := b / 512 * 64
    let valid := sm.validBytes (d.index0 sm src x) (b / 8)
    let fill := fillLine sm.type (sm.dimAt 0).fill
    { seq := seq, addr := some a, valid := valid, fill := fill, errors := 0, dst := dst
      data := if sm.yard then some ((Mem.readBytes s.yard.mem a valid) ++ fill.drop valid) else none }
  | .fill k _ =>
    let fill := fillLine sm.type (sm.dimAt k).fill
    { seq := seq, addr := none, valid := 0, fill := fill, errors := 0, dst := dst, data := some fill }

/-- A hoist claims the granules of its next transfer, or waits (R150). -/
def State.claim (s : State) (n : Nat) (lines : List LinePoint) : State :=
  let h := s.hoist n
  match s.streamTmpl h, h.cut with
  | some t, some e =>
    let c := s.cut e
    let g := granulesOf lines.length
    match s.hoistView c h false with
    | none => s
    | some sm =>
      if h.st = .stopped ∨ h.ended = true ∨ g = 0 ∨ t.tsize < g ∨ ¬ h.parked = [] then s
      else if s.canClaim h g then
        let dm := match s.hoistView c h true with
          | some m => some (m, t.dstMap)
          | none => none
        let reqs := lines.mapIdx (fun k x => s.lineReq c.desc sm t.srcMap dm (h.nextSeq + k) x)
        (s.modHoist n (fun h => { h with
          occ := h.occ + g, st := .stream, reqs := h.reqs ++ reqs
          nextSeq := h.nextSeq + lines.length })).deliverAll n
      else s.modHoist n (fun h => { h with st := .claim })
  | _, _ => s

/-- HOIST_CLAIM (R150). -/
def execHoistClaim (h : Fin 128) (lines : List LinePoint) (s : State) : Host.Outcome State Fault Refusal :=
  s.on (fun s => s.claim h.val lines)

/-! ### Reads (R123, R166, R168, R366) -/

/-- The request with a sequence number that waits for its line. -/
def Hoist.waitingFor (h : Hoist) (seq : Nat) : Option LineReq :=
  h.reqs.find? (fun q => q.seq == seq && q.data.isNone && q.addr.isSome)

/-- The requests with one changed. -/
def Hoist.modReq (h : Hoist) (seq : Nat) (f : LineReq → LineReq) : Hoist :=
  { h with reqs := h.reqs.map (fun q => if q.seq = seq then f q else q) }

/-- Passes in progress that take a hoist's data at their shared port (R168). -/
def State.fedPasses (s : State) (h : Hoist) : List (Nat × Nat) :=
  match h.tmpl with
  | some t => ((t.recv.take t.recvN).filter (fun r => r.port == 0)).filterMap (fun r =>
      let n := s.placeOf r.face
      if (s.bench n r.bench).cut == h.cut && (s.bench n r.bench).cur.isSome then some (n, r.bench) else none)
  | none => []

/-- The passes that would take a transfer are aborted and replay (R95, R168); an X-cut reads its slab again, the lines
of hoist `n` below `upTo`, and shows 0x41 meanwhile (R322). -/
def State.abortFed (s : State) (n upTo : Nat) (h : Hoist) : State :=
  let s1 := (s.fedPasses h).foldl (fun t x => t.abortBench x.1 x.2) s
  match h.cut with
  | some e => if (s.cut e).desc.kind = 5 ∧ h.out = [] then (s1.orFlags e (flag flFaulted)).awaitReplay e (.lines n upTo) else s1
  | none => s1

/-- The lines of hoist `n` that an X-cut reads again have come (R322). -/
def State.linesBack (s : State) (n : Nat) : State :=
  match (s.hoist n).cut with
  | some e => s.replayStarts e (fun r => match r with
      | .lines h k => h == n && decide (k ≤ (s.hoist n).deliver)
      | _ => false)
  | none => s

/-- FABRIC_READ_RETURN: the line arrives, with fill beyond its valid bytes (R123). -/
def State.readReturn (s : State) (n seq : Nat) (data : List Byte) : State :=
  match (s.hoist n).waitingFor seq with
  | some q => (s.modHoist n (fun h => h.modReq seq (fun r => { r with
      errors := 0, data := some (data.take q.valid ++ q.fill.drop q.valid) }))).deliverAll n |>.linesBack n
  | none => s

/-- FABRIC_READ_RETURN (R166). -/
def execFabricReadReturn (h : Fin 128) (seq : Nat) (data : List Byte) (s : State) :
    Host.Outcome State Fault Refusal := s.on (fun s => s.readReturn h.val seq data)

/-- The row "Fabric error response" of R364, counted from 0. -/
def haltFabric : Nat := 7

/-- FABRIC_READ_ERROR: the transfer is read again; the fourth error in a row halts the working (R366). -/
def State.readError (s : State) (n seq : Nat) : State :=
  let h := s.hoist n
  match h.waitingFor seq, h.cut with
  | some q, some e =>
    let s1 := s.modHoist n (fun h => { h.modReq seq (fun r => { r with errors := r.errors + 1 }) with
      errRd := satAdd 8 h.errRd 1 })
    if q.errors + 1 < 4 then s1.abortFed n (seq + 1) h
    else (s1.abortFed n (seq + 1) h).halt (s.cut e).desc.working haltFabric (q.addr.getD 0) (some e)
  | _, _ => s

/-- FABRIC_READ_ERROR (R366). -/
def execFabricReadError (h : Fin 128) (seq : Nat) (s : State) : Host.Outcome State Fault Refusal :=
  s.on (fun s => s.readError h.val seq)

/-! ### Writes (R151, R166, R167, R367) -/

/-- Granules of a hoist that writes: what it has delivered or been handed and not seen acknowledged. -/
def Hoist.countWrites (h : Hoist) : Hoist :=
  match h.tmpl with
  | some t => if t.dst = 0 then
      { h with occ := granulesOf ((h.reqs.filter (fun q => decide (h.deliver ≤ q.seq))).length +
                                  h.out.length)
               reqs := h.reqs.filter (fun q => decide (h.deliver ≤ q.seq)) } else h
  | none => h

/-- FABRIC_WRITE_ACK: the oldest write is visible to every agent (R167). -/
def State.writeAck (s : State) (n : Nat) : State :=
  let h := s.hoist n
  match h.out with
  | [] => s
  | w :: rest =>
    let s1 := s.modHoist n (fun h => Hoist.countWrites { h with
      out := rest, bytes := h.bytes + w.bytes.length, pos := h.pos + w.bytes.length })
    let s2 := s1.putFabric w.addr w.bytes
    match h.cut with
    | some e => s2.publish e
    | none => s2

/-- FABRIC_WRITE_ACK (R167). -/
def execFabricWriteAck (h : Fin 128) (s : State) : Host.Outcome State Fault Refusal :=
  s.on (fun s => s.writeAck h.val)

/-- The bytes of a failed write: each is the old or the written value (R167; log entry 4). -/
def State.failWrite (s : State) (a : Nat) : List Byte → State
  | [] => s
  | b :: bs =>
    let s1 := if Config.failedWriteTaken s.fresh then s.putFabric a [b] else s
    State.failWrite { s1 with fresh := s1.fresh + 1 } (a + 1) bs

/-- Seams whose eviction a hoist carries stay held (R236, R367). -/
def State.stopEviction (s : State) (e : Nat) : State :=
  { s with seams := List.map (fun m : Nat × Seam =>
      if m.2.phase = .evicting ∧ m.2.evictor = some e then
        (m.1, { m.2 with phase := .held, evictor := none })
      else m) s.seams }

/-- FABRIC_WRITE_ERROR: the write is issued again, up to three times; the fourth error halts the working, and
an eviction leaves its seam held (R367). -/
def State.writeError (s : State) (n : Nat) : State :=
  let h := s.hoist n
  match h.out with
  | [] => s
  | w :: rest =>
    let s1 := (s.modHoist n (fun h => { h with
      errWr := satAdd 8 h.errWr 1, out := { w with errors := w.errors + 1 } :: rest })).failWrite w.addr
        w.bytes
    if w.errors + 1 < 4 then s1
    else
      match h.cut with
      | some e =>
        let s2 := (s1.modHoist n (fun h => { h with out := { w with errors := 0 } :: rest })).halt
          (s.descOf e).working haltFabric w.addr (some e)
        let evicting := s2.seams.any (fun m => m.2.phase == .evicting && m.2.evictor == some e)
        if evicting then (s2.stopEviction e).modHoist n Hoist.idleNow else s2
      | none => s1

/-- FABRIC_WRITE_ERROR (R367). -/
def execFabricWriteError (h : Fin 128) (s : State) : Host.Outcome State Fault Refusal :=
  s.on (fun s => s.writeError h.val)

/-! ### Receivers (R151, R153 to R157) -/

/-- Granule `p` of a stream has been delivered whole. -/
def Hoist.granuleReady (h : Hoist) (p : Nat) : Bool :=
  decide (p * 64 < h.nextSeq) && decide (min ((p + 1) * 64) h.nextSeq ≤ h.deliver)

/-- A receiver has no byte of its next granule because of its skid (R153). -/
def Hoist.refused (h : Hoist) (r : Nat) : Bool := decide (h.posMin + 8 ≤ h.pos1 r)

/-- RECEIVER_TAKE: receiver `r` has taken its next granule; when p_min rises the timer returns to 0 and
granules are released (R151, R153, R154). -/
def State.receiverTake (s : State) (n r : Nat) : State :=
  let h := s.hoist n
  if h.cut.isSome && h.st != .stopped && h.takes r && !h.refused r && h.granuleReady (h.pos1 r) then
    s.modHoist n (fun h => Hoist.release { h with taken := h.taken.set r (h.pos1 r + 1) } h.posMin)
  else s

/-- RECEIVER_TAKE (R153). -/
def execReceiverTake (h : Fin 128) (r : Fin 16) (s : State) : Host.Outcome State Fault Refusal :=
  s.on (fun s => s.receiverTake h.val r.val)

/-- The detach hoist of receiver `i` (R154). -/
def HoistTmpl.detachHoist (t : HoistTmpl) (i : Nat) : Nat := t.detachBase + popCount t.detachMask i

/-- A hoist with a template and no stream. -/
def Hoist.isIdle (h : Hoist) : Bool := h.tmpl.isSome && h.cut.isNone

/-- Receiver `r` of hoist `n` goes over to its detach hoist `d`, which reads the stream again from granule
p_r (R155). -/
def State.detachOne (s : State) (n r d : Nat) : State :=
  let h := s.hoist n
  let p := h.pos1 r
  let s1 := s.modHoist d (fun x => { x with
    cut := h.cut, st := .stream, source := some n, k := h.k, taken := [p], attached := 0, reqs := [],
    nextSeq := p * 64, deliver := p * 64, pos := p * 4096, mark := h.mark })
  let s2 := s1.modHoist n (fun x => { x with
    attached := clrBit x.attached r, detachedTo := Tab.set x.detachedTo r d
    detaches := satAdd 16 x.detaches 1 })
  let s3 := match h.cut with
    | some e => s2.modCut e (fun c => { c with detaches := satAdd 16 c.detaches 1 })
    | none => s2
  s3.logEvt (Config.unnamedCode 6) n r

/-- DETACH: the stall timer has reached DETACH_CYCLES; every attached receiver at p_min that may be detached
and whose detach hoist is idle goes (R154, R155, R156). -/
def State.detach (s : State) (n : Nat) : State :=
  let h := s.hoist n
  match h.tmpl with
  | some t =>
    if t.detachEn && h.cut.isSome && h.st != .stopped && h.attachedList.any (fun r => h.refused r) then
      let low := h.posMin
      let s1 := (h.attachedList.filter (fun r => h.pos1 r == low && bit t.detachMask r)).foldl
        (fun u r => if (u.hoist (t.detachHoist r)).isIdle then u.detachOne n r (t.detachHoist r) else u) s
      s1.modHoist n (fun x => { x.release low with timer := 0 })
    else s
  | none => s

/-- DETACH (R154). -/
def execDetach (h : Fin 128) (s : State) : Host.Outcome State Fault Refusal := s.on (fun s => s.detach h.val)

/-! ### The end of a stream (R147, R159, R160) -/

/-- The new bases of a persistent hoist pass the checks of R140 made at a re-arm: alignment and placement. -/
def State.rearmOk (s : State) (h : Hoist) : Bool :=
  match h.tmpl, s.image, s.rearmOf h with
  | some t, some i, some r =>
    let ok := fun (map : Nat) (dst : Bool) =>
      match Tab.find i.maps map with
      | none => true
      | some m =>
        let v := m.rebase r dst
        v.alignOk && v.placeOk i t.working && v.blBase % 64 == 0 &&
          (match Tab.find i.maps m.scaleMap with
            | some sm =>
              let b := if bit r.keep (if dst then 3 else 1) then sm.base
                else if dst then r.dstScaleBase else r.srcScaleBase
              { sm with base := b }.alignOk && { sm with base := b }.placeOk i t.working
            | none => true) &&
          (match Tab.find i.maps m.idxMap with
            | some im => !m.indexed || m.idxSrc != 0 || bit r.keep 5 ||
                ({ im with base := r.idxBase }.alignOk && { im with base := r.idxBase }.placeOk i t.working)
            | none => true)
    ok t.srcMap false && ok t.dstMap true
  | _, _, _ => true

/-- A persistent hoist advances its re-arm index and validates the new bases (R159). -/
def State.rearm (s : State) (n : Nat) : State :=
  let h := s.hoist n
  match h.tmpl with
  | some t =>
    if t.persist && t.rearmCount != 0 then
      let h1 := { h with k := (h.k + 1) % t.rearmCount }
      s.modHoist n (fun _ => { h1 with badRearm := !s.rearmOk h1 })
    else s
  | none => s

/-- Every attached receiver has taken, or every write has been acknowledged. -/
def Hoist.drained (h : Hoist) : Bool :=
  h.out.isEmpty && h.parked.isEmpty && h.reqs.all (fun q => q.data.isSome) &&
  (match h.tmpl with
    | some t => t.dst == 0 || t.src == 2 ||
        h.attachedList.all (fun r => decide (granulesOf h.nextSeq ≤ h.pos1 r))
    | none => true)

/-- The stream of a hoist has ended: DONE_TALLY, then the template in force and the re-arm (R147, R159,
R160). The detach hoists that carried a receiver of it become idle. -/
def State.endStream (s : State) (n : Nat) : State :=
  let h := s.hoist n
  match h.tmpl with
  | some t =>
    let s1 := s.tallyDone { idx := t.doneTally, add := 1 }
    let s2 := s1.modHoist n (fun x => { s1.retmpl n x with
      ended := true, st := .idle, occ := 0, reqs := [], attached := 0, detachedTo := [] })
    let s3 := (List.map Prod.snd h.detachedTo).foldl (fun u d => u.modHoist d Hoist.idleNow) s2
    s3.rearm n
  | none => s

/-- STREAM_END (R147). -/
def State.streamEnd (s : State) (n : Nat) : State :=
  let h := s.hoist n
  if h.cut.isSome && !h.ended && h.st != .stopped && h.source.isNone && h.drained &&
      (List.map Prod.snd h.detachedTo).all (fun d => (s.hoist d).drained) then s.endStream n else s

/-- STREAM_END (R147). -/
def execStreamEnd (h : Fin 128) (s : State) : Host.Outcome State Fault Refusal :=
  s.on (fun s => s.streamEnd h.val)

/-- Streams of a cut that ends are over with it (R147): each that has not ended ends now, detach hoists going with the
hoist they read for. -/
def State.endStreams (s : State) (e : Nat) : State :=
  ((List.filter (fun h : Nat × Hoist => h.2.cut == some e && !h.2.ended && h.2.source.isNone) s.hoists).map
    Prod.fst).foldl State.endStream s

/-! ### Spill (R161) -/

/-- Bytes of a hoist's spill area. -/
def State.spillArea (s : State) (t : HoistTmpl) : Option (Nat × Nat) :=
  match s.image with
  | some i => (Tab.find i.maps t.spillMap).map (fun m =>
      (m.base, ((m.span.2 + 1 - m.span.1) / 8).toNat))
  | none => none

/-- Lines of 64 B of a byte string, with their addresses from `a` on. -/
def linesAt (item a : Nat) (bs : List Byte) : List LineWrite :=
  (List.range (ceilDiv bs.length 64)).map (fun k =>
    { item := item, addr := a + 64 * k, bytes := (bs.drop (64 * k)).take 64, errors := 0 })

/-- SPILL_PARK: a hoist that cannot claim and whose source must be released hands a transfer to its spill
hoist; a full spill area holds the source (R161). The place of a transfer in the area is the model's (log
entry 16). -/
def State.spillPark (s : State) (n : Nat) (data : List Byte) : State :=
  let h := s.hoist n
  match h.tmpl, h.cut with
  | some t, some e =>
    match s.spillArea t with
    | some (base, len) =>
      let held := (h.parked.map List.length).sum
      if t.spillEn && (s.cut e).desc.release && h.st != .stopped && decide (held + data.length ≤ len) &&
          (!h.parked.isEmpty || !s.canClaim h (granulesOf (ceilDiv data.length 64))) then
        (s.modHoist n (fun x => { x with
          parked := x.parked ++ [data], parkedCount := satAdd 32 x.parkedCount 1 })).modHoist t.spillHoist
          (fun x => { x with out := x.out ++ linesAt 0 (base + held) data })
      else s
    | none => s
  | _, _ => s

/-- SPILL_PARK (R161). -/
def execSpillPark (h : Fin 128) (data : List Byte) (s : State) : Host.Outcome State Fault Refusal :=
  s.on (fun s => s.spillPark h.val data)

/-- The lines of a transfer that come back from the spill area, as arrived requests. -/
def readbackReqs (seq : Nat) (data : List Byte) : List LineReq :=
  (List.range (ceilDiv data.length 64)).map (fun k =>
    { seq := seq + k, addr := none, valid := 64, fill := [], errors := 0, dst := none
      data := some ((data.drop (64 * k)).take 64) })

/-- SPILL_READBACK: the first parked transfer comes back in stream order once the hoist can claim (R161). -/
def State.spillReadback (s : State) (n : Nat) : State :=
  let h := s.hoist n
  match h.parked with
  | [] => s
  | d :: rest =>
    let g := granulesOf (ceilDiv d.length 64)
    if h.st != .stopped && s.canClaim h g then
      (s.modHoist n (fun x => { x with
        parked := rest, occ := x.occ + g, st := .stream
        reqs := x.reqs ++ readbackReqs x.nextSeq d, nextSeq := x.nextSeq + ceilDiv d.length 64 })).deliverAll
        n
    else s

/-- SPILL_READBACK (R161). -/
def execSpillReadback (h : Fin 128) (s : State) : Host.Outcome State Fault Refusal :=
  s.on (fun s => s.spillReadback h.val)

/-! ### Stockpile errors (R171) -/

/-- The transfer that the hoist holds is read again from source: its lines are asked for once more. -/
def Hoist.reread (h : Hoist) : Hoist :=
  let low := h.posMin * 64
  { h with deliver := min h.deliver low, st := .stream
           reqs := h.reqs.map (fun q => if q.addr.isSome then { q with data := none } else q) }

/-- Items of a cut whose writes an error in the stockpile destroyed are open again: their passes run again
from the cut's first pass (R171, R95). -/
def State.reopenItems (s : State) (e : Nat) (items : List Nat) : State :=
  let c := s.cut e
  let back := ((List.range c.desc.passCount).map (fun r => items.map (fun i => c.desc.pass i r))).flatten
  let s1 := s.modCut e (fun c => { c with done := c.done.filter (fun i => !items.contains i) })
  let bl := s.benchList c.desc
  bl.foldl (fun t x =>
    let pos := (s.cutFaces c.desc).findIdx? (· == x.1)
    let mine := back.filter (fun p =>
      c.desc.setOfSlice p.item == c.desc.setOf (pos.getD 0) x.2 &&
      p.red % max c.desc.split 1 == pos.getD 0 % max c.desc.split 1)
    if mine.isEmpty then t
    else ((t.modBench x.1 x.2 (fun b => { b with
      work := mergePasses c.desc.kind mine b.work })).awaitReplay e (.pass x.1 x.2)).tryStart x.1 x.2) s1

/-- STOCKPILE_ECC_ERROR (R171): a corrected word is counted; an uncorrectable one discards a transfer of a read
stream, which is read again, or aborts the cut that produced a write, whose items run again. -/
def State.stockpileError (s : State) (n : Nat) (bad : Bool) : State :=
  let h := s.hoist n
  if !bad then s.modHoist n (fun x => { x with spCorr := satAdd 8 x.spCorr 1 })
  else
    let s1 := s.modHoist n (fun x => { x with spUncorr := satAdd 8 x.spUncorr 1 })
    match h.cut with
    | none => s1
    | some e =>
      if h.out = [] then (s1.modHoist n Hoist.reread).abortFed n h.deliver h
      else
        let items := distinct (h.out.map LineWrite.item)
        let s2 := s1.modHoist n (fun x => Hoist.countWrites { x with out := [] })
        let s3 := s2.orFlags e (flag flFaulted)
        if (s.cut e).desc.kind = 1 then s3.reopenItems e items
        else (((s3.setStatus e 0x41).setStatus e 0).stopEviction e).modCut e (fun c => { c with
          done := c.done.filter (fun i => !items.contains i) })

/-- STOCKPILE_ECC_ERROR (R171). -/
def execStockpileEccError (h : Fin 128) (uncorrectable : Bool) (s : State) :
    Host.Outcome State Fault Refusal := s.on (fun s => s.stockpileError h.val uncorrectable)

end Sys2Proof.Machine
end

