-- ==== Sys2Proof/Machine/Tpb.lean ====
section
/-! DEFINITION. Transposing buffers: a tile turned, widened or narrowed into output segments with their scale
codes, and a buffer's fault (R47, R100 to R112). -/

namespace Sys2Proof.Machine

/-! ### Tiles (R101 to R106) -/

/-- The operand that a buffer turns: stored and declared type, mode, V and column ranges (R100, R102, R103). -/
structure TpbOperand where
  stored : Nat
  declared : Nat
  mode : Nat
  v : Nat
  narrow : Bool
  deriving DecidableEq, Repr, Inhabited

/-- Elements of a segment of a shared operand of an A-cut: 8, 16, 32 or 64, a multiple of its term-group size (R102);
which of them is free (log entry 17). -/
def CutRun.segmentLength (c : CutRun) (stage : Nat) : Nat :=
  if groupTerms (c.passTypes { (default : PassId) with stage := stage }) ≤ 8 then 8 * 2 ^ (Config.acutSegment stage % 4)
  else 16 * 2 ^ (Config.acutSegment stage % 3)

/-- The logical buffer that serves a stream of a cut, and the operand it turns there (R100, R183, R245, R278); `fmt` is
the format tag of the page that a tile of K or V belongs to (R259). An operand in mode NONE takes no buffer. -/
def CutRun.tileOperand (c : CutRun) (stream : TileStream) (fmt : Nat) : Option (Nat × TpbOperand) :=
  let d := c.desc
  match d.area with
  | .a a =>
    let buf := fun k => bits a.bufs (4 * k + 3) (4 * k)
    let q := c.typeOf 0
    match stream with
    | .pages => some (buf 0, { stored := fmt, declared := a.qfmt, mode := 2, v := 64, narrow := a.allowNarrow })
    | .outGrad => some (buf 1, { stored := c.typeOf 4, declared := c.typeOf 4, mode := 2, v := c.segmentLength 2
                                 narrow := false })
    | .queries => some (buf 2, { stored := q, declared := a.qfmt, mode := 2, v := c.segmentLength 4, narrow := false })
    | .keys => some (buf 3, { stored := fmt, declared := a.qfmt, mode := 2, v := c.segmentLength 5
                              narrow := a.allowNarrow })
    | .shared =>
      if q = a.qfmt then none
      else some (buf 2, { stored := q, declared := a.qfmt, mode := 1, v := 64, narrow := false })
    | .stationary => none
  | _ =>
    match stream with
    | .shared =>
      if d.shMode = 0 then none
      else some (d.shBuf, { stored := c.typeOf 0, declared := declType (c.typeOf 0) (d.decl % 4), mode := d.shMode
                            v := d.shV, narrow := false })
    | .stationary =>
      if d.stMode = 0 then none
      else some (d.stBuf, { stored := c.typeOf 1, declared := declType (c.typeOf 1) (d.decl / 4 % 4)
                            mode := d.stMode, v := 64, narrow := false })
    | _ => none

/-- An element code in the declared format: MXE2M1 widens by R47; other codes stay. -/
def TpbOperand.code (o : TpbOperand) (c : Nat) : Nat :=
  if o.stored = 2 ∧ o.declared = 0 then widenCode false c
  else if o.stored = 2 ∧ o.declared = 1 then widenCode true c
  else c

/-- A stored operand wider than its declared format (R106, R46): it is narrowed block by block. -/
def TpbOperand.narrows (o : TpbOperand) : Bool := o.narrow && widerThan o.stored o.declared

/-- The blocks of a row of elements with a scale code for each, converted one by one (R45, R106). -/
def narrowBlocks (o : TpbOperand) : Nat → List Nat → List Nat → List MxBlock
  | 0, _, _ => []
  | k + 1, codes, scales =>
    match codes with
    | [] => []
    | _ => mxBlock o.declared (valsOf o.stored (codes.take 32) (scales.take 32)) ::
        narrowBlocks o k (codes.drop 32) (scales.drop 32)

/-- A stored row converted to the declared format: element codes and their scale codes. -/
def TpbOperand.row (o : TpbOperand) (codes scales : List Nat) : List Nat × List Nat :=
  if o.narrows then
    let bs := narrowBlocks o codes.length codes scales
    ((bs.map MxBlock.codes).flatten, (bs.map (fun b => List.replicate b.codes.length b.scale)).flatten)
  else (codes.map o.code, scales)

/-- The flags that narrowing a tile's rows raises: NARROWED, and those of its block conversions (R45, R106). -/
def TpbOperand.rowFlags (o : TpbOperand) (rows scales : List (List Nat)) : Nat :=
  (List.zipWith (fun r k => (narrowBlocks o r.length r k).map MxBlock.fl) rows scales).flatten.foldl (fun a x => a ||| x)
    (flag 8)

/-- The elements of column `c` in the rows of a band, with their scale codes (R102). -/
def column (rows : List (List Nat × List Nat)) (c : Nat) : List Nat × List Nat :=
  (rows.map (fun r => nth 0 r.1 c), rows.map (fun r => nth 0 r.2 c))

/-- Bands of `v` rows, ascending. -/
def bands {α : Type} (v : Nat) : Nat → List α → List (List α)
  | 0, _ => []
  | k + 1, rows => match rows with
    | [] => []
    | _ => rows.take v :: bands v k (rows.drop v)

/-- The output segments of a tile in emission order (R102): bands of V rows ascending, and within a band the
columns ascending; in PASS mode each line in arrival order. -/
def TpbOperand.segments (o : TpbOperand) (rows scales : List (List Nat)) : List (List Nat × List Nat) :=
  let conv := List.zipWith o.row rows scales
  if o.mode = 2 then
    let cols := rows.foldl (fun a r => max a r.length) 0
    ((bands (max o.v 1) conv.length conv).map (fun band => (List.range cols).map (column band))).flatten
  else conv

/-- Tiles of a stream in a buffer's slots (R107). -/
def streamTiles (ts : List TileSlot) (e : Nat) (stream : TileStream) : Nat :=
  (ts.filter (fun t => t.cut == e && t.stream == stream)).length

/-- Logical buffers that a descriptor names (R183, R278). -/
def CutDesc.bufs (d : CutDesc) : List Nat :=
  match d.area with
  | .a a => distinct ((List.range 4).map (fun k => bits a.bufs (4 * k + 3) (4 * k)))
  | _ => (if d.shMode = 0 then [] else [d.shBuf]) ++ (if d.stMode = 0 then [] else [d.stBuf])

/-- Yard cycles for which a buffer stalled, by the row of R108 counted from 0, added to its counters (R108, R429). -/
def Tpb.addStalls (t : Tpb) (xs : List (Fin 4 × Nat)) : Tpb :=
  xs.foldl (fun t x => match x.1.val with
    | 0 => { t with stallIn := satAdd 32 t.stallIn x.2 }
    | 1 => { t with stallDest := satAdd 32 t.stallDest x.2 }
    | 2 => { t with stallSlots := satAdd 32 t.stallSlots x.2 }
    | _ => { t with stallWake := satAdd 32 t.stallWake x.2 }) t

/-- TILE_LOAD_DONE: a tile takes a slot of its stream's share and its segments wait in emission order (R101 to
R107); a stream that holds 2 slots, or a buffer with 4 tiles, takes no more. `stalls` is the yard cycles for which the
buffer stalled before it (R108). -/
def State.tileLoad (s : State) (k : Nat) (stream : TileStream) (fmt e : Nat) (rows scales : List (List Nat))
    (stalls : List (Fin 4 × Nat)) : State :=
  let c := s.cut e
  let j := s.bufPhys k
  let ts := Tab.get [] s.tileSlots j
  match c.tileOperand stream fmt with
  | some (buf, o) =>
    if c.phase = .running ∧ buf = k ∧ ¬ s.spare.bufRet.contains j = true then
      if 4 ≤ ts.length ∨ 2 ≤ streamTiles ts e stream then
        s
      else
        let segs := o.segments rows scales
        let s0 := s.modTpb j (fun t => t.addStalls stalls)
        let s1 : State := { s0 with tileSlots := Tab.set s.tileSlots j (ts ++ [{
          cut := e, stream := stream, segments := segs.map Prod.fst, codes := segs.map Prod.snd }]) }
        if o.narrows then s1.orFlags e (o.rowFlags rows scales) else s1
    else s
  | none => s

/-! ### Faults (R110 to R112) -/

/-- A buffer shows an armed injection (R444). -/
def injectsTpb (j : Nat) (k : InjectKind) : Bool :=
  match k with
  | .tpb i => decide (i.val = j)
  | _ => false

/-- Cuts that run and name a logical buffer served by physical buffer `j`. -/
def State.cutsOnBuffer (s : State) (j : Nat) : List Nat :=
  s.liveCuts.filter (fun e => (s.cut e).desc.bufs.any (fun k => s.bufPhys k == j))

/-- Passes in progress of a cut abort: each bench replays its pass from the start (R95, R111). -/
def State.abortCutPasses (s : State) (e : Nat) : State :=
  (s.benchList (s.cut e).desc).foldl (fun t x =>
    if (t.bench x.1 x.2).cut == some e && (t.bench x.1 x.2).cur.isSome then t.abortBench x.1 x.2 else t) s

/-- With no healthy buffer left, a cut that names a buffer stops with 0x41 and its working stays stopped
(R112). -/
def State.stopForBuffer (s : State) (e : Nat) : State :=
  (s.stopCut e 0x41 flFaulted).modWork (s.cut e).desc.working (fun x => { x with seq := .halted })

/-- TPB_FAULT (R110, R111, R112): the physical buffer is retired, its tiles are discarded, passes fed by them
abort and replay, and with fewer than 6 healthy buffers the cuts run on reduced capacity. -/
def State.tpbFault (s : State) (j : Nat) : State :=
  if s.spare.bufRet.contains j then s
  else
    let cuts := s.cutsOnBuffer j
    let fed := distinct ((Tab.get [] s.tileSlots j).map TileSlot.cut)
    let inj := s.monitor.armed.any (injectsTpb j)
    let s1 : State := { s with monitor := { s.monitor with
      armed := s.monitor.armed.filter (fun k => !injectsTpb j k) } }
    let s2 := (s1.modTpb j (fun t => { t with sumErr := satAdd 16 t.sumErr 1 })).retireBuffer j 0
      (if inj then fromInject else 0)
    let s3 := fed.foldl State.abortCutPasses s2
    if s3.tpbDegraded then
      let s4 := s3.logEvt (Config.unnamedCode 5) s3.healthyBufs.length 0
      if s3.healthyBufs.isEmpty then cuts.foldl State.stopForBuffer s4
      else cuts.foldl (fun t e => t.orFlags e (flag flReduced)) s4
    else s3

/-- TPB_FAULT (R111). -/
def execTpbFault (j : Fin 8) (s : State) : Host.Outcome State Fault Refusal := s.on (fun s => s.tpbFault j.val)

/-- TILE_LOAD_DONE (R104); an armed fault of the buffer strikes this tile's sum (R110, R444). -/
def State.tileLoadAny (s : State) (k : Nat) (stream : TileStream) (fmt e : Nat) (rows scales : List (List Nat))
    (stalls : List (Fin 4 × Nat)) : State :=
  let s1 := s.tileLoad k stream fmt e rows scales stalls
  if s.monitor.armed.any (injectsTpb (s.bufPhys k)) && s1 != s then s1.tpbFault (s.bufPhys k) else s1

/-- TILE_LOAD_DONE (R104). -/
def execTileLoadDone (buf : Fin 6) (stream : TileStream) (fmt : Fin 4) (cut : Fin 4096)
    (rows scales : List (List Nat)) (stalls : List (Fin 4 × Nat)) (s : State) : Host.Outcome State Fault Refusal :=
  s.on (fun s => s.tileLoadAny buf.val stream fmt.val cut.val rows scales stalls)

end Sys2Proof.Machine
end

