-- ==== Sys2Proof/Machine/Readout.lean ====
section
/-! DEFINITION. Readout of a D-cut's slots: derivatives, tables, the fused operand and the output stream (R121
to R128, R208 to R221, R223). -/

namespace Sys2Proof.Machine

/-! ### Table evaluation (R215) -/

/-- Entries of a branch of an output table, or all entries of an input table (`branch` none). -/
def evalBranch (t : EvalTable) (branch : Option Bool) : List Segment :=
  match branch with
  | some true => t.segs.take t.br1Count
  | some false => t.segs.drop t.br1Count
  | none => t.segs

/-- The entry with the largest LO at or below `z` among ascending entries, starting from `best`. -/
def pickSegment (best : Segment) (z : Val) : List Segment → Segment
  | [] => best
  | e :: es => if z.lt (f32 e.lo) then best else pickSegment e z es

/-- eval(branch, z) (R215): the FP32 result with its flags, and whether the point was clamped. -/
def evalTable (t : EvalTable) (branch : Option Bool) (z : Val) : Fp × Bool :=
  match evalBranch t branch with
  | [] => ({ code := fmtFp32.nanCode, fl := flNan }, false)
  | first :: rest =>
    if z.isNan then ({ code := fmtFp32.nanCode, fl := flNan }, false)
    else
      let low := z.lt (f32 first.lo)
      let z1 := if low then f32 first.lo else z
      let high := branch == some true && (f32 t.br1Top).lt z1
      let z2 := if high then f32 t.br1Top else z1
      let e := pickSegment first z2 rest
      let d := toF32 (z2.add (f32 e.lo).neg)
      let r := Fp.add (Fp.ofCode e.c0) (Fp.mul d (Fp.add (Fp.ofCode e.c1) (Fp.mul d (Fp.ofCode e.c2))))
      (r, low || high)

/-! ### Derivatives (R211, R219) -/

/-- The area of a D-cut. -/
def CutDesc.dArea (d : CutDesc) : DArea :=
  match d.area with
  | .d a => a
  | _ => default

/-- An empty table: every evaluation gives NaN. No cut that runs names one (R214). -/
def emptyTable : EvalTable := { br1Count := 0, br1Top := 0, segs := [] }

/-- The table in a slot of a bank. -/
def TableBank.slot (b : TableBank) (k : Nat) : EvalTable :=
  match b.drv[k]? with
  | some d => d.table
  | none => emptyTable

/-- A bank by its number. -/
def Tables.bank (t : Tables) (b : Bool) : TableBank := if b then t.bank1 else t.bank0

/-- The output or input table of a D-cut's FUNC (R211, R216). -/
def drvTable (a : DArea) (bank : TableBank) (input : Bool) : EvalTable :=
  if a.func = 7 then bank.slot (if input then a.inSlot else a.outSlot)
  else if input then Config.builtinInput a.func else Config.builtinOutput a.func

/-- The derivative of one element: its exact value, flags of the roundings, and whether it was clamped. -/
structure Deriv where
  d : Val
  fl : Nat
  clamped : Bool
  deriving DecidableEq, Repr, Inhabited

/-- d of R211. `priv` says that the element's channel is privileged. -/
def derivative (a : DArea) (bank : TableBank) (y x : Val) (sign priv : Bool) : Deriv :=
  let exact := fun (v : Val) => ({ d := v, fl := if v.isNan then flNan else 0, clamped := false } : Deriv)
  match a.func with
  | 0 => exact (.num 1 0)
  | 1 => exact (if y.isNan then .nan else if Val.zero.lt y then .num 1 0 else Val.zero)
  | 2 => exact (y.mul ((Val.num 1 0).add y.neg))
  | 3 => exact ((Val.num 1 0).add (y.mul y).neg)
  | 4 => exact y
  | _ =>
    let r := if priv then evalTable (drvTable a bank true) Option.none x
      else evalTable (drvTable a bank false) (some sign) y
    { d := f32 r.1.code, fl := r.1.fl, clamped := r.2 }

/-- The exact value that an output element rounds (R210). -/
def fuse (mode : Nat) (g d f : Val) : Val :=
  match mode with
  | 1 => (g.mul d).add f
  | 2 => (g.mul d).mul f
  | _ => g.mul d

/-! ### Positions of a slice (R126, R128, R184) -/

/-- First index along P of a slice's valid region, and one past its last. -/
def CutDesc.pRange (c : CutDesc) (item : Nat) : Nat × Nat :=
  (c.sliceP item * c.pTile, min ((c.sliceP item + 1) * c.pTile) c.axP)

/-- First index along L of a slice's valid region, and one past its last. -/
def CutDesc.lRange (c : CutDesc) (item : Nat) : Nat × Nat :=
  (c.sliceL item * c.lTile, min ((c.sliceL item + 1) * c.lTile) c.axL)

/-- The highest dimension of a role's map that an axis drives; none when it drives none. -/
def CutDesc.topDim (c : CutDesc) (role code : Nat) : Option Nat :=
  ((List.range 6).filter (fun d => nth 0 (nth [] c.bind role) d == code)).getLast?

/-- In canonical order the P index is the outer one: it drives the higher dimension (R126). -/
def CutDesc.pOuter (c : CutDesc) (role : Nat) : Bool :=
  match c.topDim role 2, c.topDim role 3 with
  | some p, some l => decide (l < p)
  | some _, none => true
  | none, some _ => false
  | none, none => true

/-- The indices along P and L of a slice's valid region in canonical order of a role's map. -/
def CutDesc.validPoints (c : CutDesc) (role item : Nat) : List (Nat × Nat) :=
  let (p0, p1) := c.pRange item
  let (l0, l1) := c.lRange item
  let ps := (List.range (p1 - p0)).map (p0 + ·)
  let ls := (List.range (l1 - l0)).map (l0 + ·)
  if c.pOuter role then (ps.map (fun p => ls.map (fun l => (p, l)))).flatten
  else (ls.map (fun l => ps.map (fun p => (p, l)))).flatten

/-- The point of the iteration space at a slice's indices. -/
def CutDesc.pointAt (c : CutDesc) (item p l : Nat) : AxisPoint :=
  { r := 0, p := p, l := l, b0 := c.sliceB0 item, b1 := c.sliceB1 item, o0 := 0, o1 := 0, k0 := 0, k1 := 0 }

/-- Pocket and lane of a slice's indices: the window begins below the valid region by its padding. -/
def CutDesc.windowAt (c : CutDesc) (item p l : Nat) : Nat × Nat :=
  (p + c.pPadLo - c.sliceP item * c.pTile, l + c.lPadLo - c.sliceL item * c.lTile)

/-! ### Output elements -/

/-- One output element: where it goes, its index along BLK_DIM and its exact value. -/
structure OutElem where
  place : Place
  idx : List Int
  v : Val
  deriving DecidableEq, Repr, Inhabited

/-- The index tuple of an element in a map; a coordinate out of an entry counts as 0. -/
def MapDesc.indexTuple (m : MapDesc) (coords : List (Option Int)) (look : Option Nat)
    (entry : Option (Int × Int × Int × Nat)) : List Int :=
  (List.range 6).map (fun d => match m.indexAt (nth (some 0) coords d) look entry d with
    | .ok i => i
    | .error _ => 0)

/-- Bytes of one element in fabric or yard memory, at a byte address. -/
def elemBytes (type code : Nat) : List Byte := natLe code (typeBits type / 8)

/-- The scale block of an element: its index along BLK_DIM divided by 32, with its other indices. -/
def MapDesc.blockKey (m : MapDesc) (idx : List Int) : List Int :=
  (List.range 6).map (fun d => if d = m.blkDim then nth 0 idx d / 32 else nth 0 idx d)

/-- Elements that are in bounds. -/
def inBounds (es : List OutElem) : List (Nat × OutElem) :=
  es.filterMap (fun e => match e.place with
    | .elem b => some (b, e)
    | .fill _ _ => none)

/-- Elements dropped and counted (R122). -/
def droppedCount (es : List OutElem) : Nat :=
  (es.filter (fun e => match e.place with
    | .fill _ c => c
    | .elem _ => false)).length

/-- The blocks of an MX output: for each block key in order of appearance, its elements in order. -/
def mxGroups (m : MapDesc) : Nat → List (Nat × OutElem) → List (List (Nat × OutElem))
  | 0, _ => []
  | k + 1, es =>
    match es with
    | [] => []
    | e :: _ =>
      let key := m.blockKey e.2.idx
      es.filter (fun x => m.blockKey x.2.idx == key) ::
        mxGroups m k (es.filter (fun x => m.blockKey x.2.idx != key))

/-- What an output stream writes, with the flags of its roundings: bytes by address, in order. -/
structure OutBytes where
  bytes : List (Nat × Byte)
  fl : Nat
  deriving DecidableEq, Repr, Inhabited

/-- Bytes of a code at a bit address. -/
def placeCode (type b code : Nat) : List (Nat × Byte) :=
  (elemBytes type code).mapIdx (fun k x => (b / 8 + k, x))

/-- Output elements rounded and laid out (R38, R45, R210): BF16 and FP32 element by element, MXE5M2 block by
block with the block's scale in the scale map. -/
def layOut (m : MapDesc) (sm : Option MapDesc) (es : List (Nat × OutElem)) : OutBytes :=
  if isMx m.type then
    let gs := (mxGroups m es.length es).map (fun g => (g, mxBlock m.type (g.map (fun x => x.2.v))))
    let codes := (gs.map (fun g => List.zip (g.1.map Prod.fst) g.2.codes)).flatten
    let order := es.map Prod.fst
    let vals := order.map (fun b => (b, ((codes.find? (fun c => c.1 == b)).map Prod.snd).getD 0))
    let scales := match sm with
      | some sc => gs.filterMap (fun g => match g.1 with
          | x :: _ => some (m.scaleAddr sc x.2.idx, BitVec.ofNat 8 g.2.scale)
          | [] => none)
      | none => []
    { bytes := (vals.map (fun x => placeCode m.type x.1 x.2)).flatten ++ scales
      fl := gs.foldl (fun a g => a ||| g.2.fl) 0 }
  else
    let rs := es.map (fun x => (x.1, (if m.type = 3 then fmtBf16 else fmtFp32).encode x.2.v))
    { bytes := (rs.map (fun x => placeCode m.type x.1 x.2.code)).flatten
      fl := rs.foldl (fun a x => a ||| x.2.fl) 0 }

/-- Bytes gathered into writes of consecutive addresses within one line, in issue order. -/
def gatherWrites (item : Nat) : List (Nat × Byte) → List LineWrite → List LineWrite
  | [], acc => acc.reverse
  | (a, x) :: rest, acc =>
    match acc with
    | w :: ws =>
      if a = w.addr + w.bytes.length ∧ a / 64 = w.addr / 64 then
        gatherWrites item rest ({ w with bytes := w.bytes ++ [x] } :: ws)
      else gatherWrites item rest ({ item := item, addr := a, bytes := [x], errors := 0 } :: w :: ws)
    | [] => gatherWrites item rest [{ item := item, addr := a, bytes := [x], errors := 0 }]

/-- Lines handed to an output hoist as a write stream (R147). -/
def State.handOut (s : State) (h : Nat) (ws : List LineWrite) : State :=
  s.modHoist h (fun x => Hoist.countWrites { x with out := x.out ++ ws })

/-- The output of a slice of a cut in a map of yard or fabric space: through the output hoist to the fabric, or
into the yard. -/
def State.putOut (s : State) (item : Nat) (m : MapDesc) (h : Nat) (bs : List (Nat × Byte)) : State :=
  let ws := gatherWrites item bs []
  if m.yard then ws.foldl (fun t w => t.putYard w.addr w.bytes) s
  else if h < 128 then s.handOut h ws
  else s

/-- Flags of FLAGS for the flags of roundings (R40, R193). -/
def roundFlags (fl : Nat) : Nat := fl % 8

/-- Writes out of bounds are dropped and counted (R122). -/
def State.countDropped (s : State) (e k : Nat) : State :=
  if k = 0 then s
  else (s.modCut e (fun c => { c with dropped := satAdd 32 c.dropped k })).orFlags e (flag 3)

/-! ### READOUT_DONE (R208 to R221) -/

/-- Face positions of the set that holds a slice: the rank-0 member's position (R66). -/
def CutDesc.readPos (c : CutDesc) (item : Nat) : Nat := c.setOfSlice item / c.benches * c.split

/-- The bench that reads a slice: the rank-0 member's logical bench (R66, R208). -/
def CutDesc.readBench (c : CutDesc) (item : Nat) : Nat := c.setOfSlice item % max c.benches 1

/-- Face `n` reads the slices of a position: it serves it, or the position's face is gone and its work was
adopted (R380). -/
def State.readsPos (s : State) (c : CutDesc) (n pos : Nat) : Bool :=
  let fs := s.cutFaces c
  nth 99 fs pos == n || (s.faceGone (nth 99 fs pos) && fs.contains n)

/-- The slice of cut `e` that bench `b` of face `n` may read out next: the first of its slices, in order, that
is ready and has not been read. -/
def State.readySlice (s : State) (e n b : Nat) : Option Nat :=
  let c := (s.cut e).desc
  (List.range c.slices).find? (fun i =>
    c.readBench i == b && s.readsPos c n (c.readPos i) && !(s.cut e).done.contains i && s.sliceReady e i)

/-- The operands of one position, or zeros when the operand list does not give it. -/
def readAt (es : List ReadElem) (j l : Nat) : ReadElem :=
  (es.find? (fun x => x.pocket.val == j && x.lane.val == l)).getD
    { pocket := pocketFin j, lane := laneFin l, y := 0, yScale := 127, sign := false, x := 0, xScale := 127,
      f := 0, fScale := 127, look := Option.none, entry := Option.none }

/-- The type of the map with a number that a cut read when it started. -/
def CutRun.mapType (c : CutRun) (map : Nat) : Nat :=
  match Tab.find c.maps map with
  | some m => m.type
  | none => 0

/-- The channel of an index tuple: its index in the dimension bound to L (R218). -/
def CutDesc.channel (c : CutDesc) (idx : List Int) : Nat :=
  match c.topDim 2 3 with
  | some d => (nth 0 idx d).toNat
  | none => 0

/-- One output element of a slice, with its derivative's flags and clamp (R210). -/
def State.readElem (s : State) (e item : Nat) (m : MapDesc) (t : TileRef) (h : Hdr) (es : List ReadElem)
    (pl : Nat × Nat) : OutElem × Deriv :=
  let c := s.cut e
  let a := c.desc.dArea
  let (j, l) := c.desc.windowAt item pl.1 pl.2
  let r := readAt es j l
  let coords := c.desc.coords 2 (c.desc.pointAt item pl.1 pl.2)
  let idx := m.indexTuple coords r.look r.entry
  let priv := nth false c.priv (c.desc.channel idx)
  let bank := s.tables.bank (Tab.get s.tables.drvCur c.banks item)
  let y := elemScaled (c.mapType a.savedMap) r.y r.yScale
  let d := derivative a bank y (elemScaled 0 r.x r.xScale) r.sign priv
  let f := elemScaled (c.typeOf 3) r.f r.fScale
  let g := yardVal h.e128 (s.elemCode t h j l)
  ({ place := m.place coords r.look r.entry, idx := idx, v := fuse a.fuse g d.d f }, d)

/-- An element that comes later in canonical order and stands at the same address was already written by
another slice of an aliasing map: the earlier one is not written (R127). -/
def State.overtaken (s : State) (e item : Nat) (m : MapDesc) (b : Nat) : Bool :=
  let c := s.cut e
  c.desc.writesAlias 2 m &&
  (c.done.filter (fun k => decide (item < k))).any (fun k =>
    (c.desc.validPoints 2 k).any (fun pl =>
      m.place (c.desc.coords 2 (c.desc.pointAt k pl.1 pl.2)) none none == .elem b))

/-- The header resets of a slice that has been read: every rank's slot (R208). -/
def State.resetSlice (s : State) (e item : Nat) : State :=
  (List.range (max (s.cut e).desc.split 1)).foldl (fun u r =>
    match u.rankTile e item r with
    | some t => u.resetTile t.hdr
    | none => u) s

/-- A slice's readout ends (R208): its output goes to the output hoist, its headers reset, and it counts in
the record (R223). -/
def State.readSlice (s : State) (e n item : Nat) (t : TileRef) (m : MapDesc) (es : List ReadElem) : State :=
  let c := s.cut e
  let h := readHdr s.yard.mem t.hdr
  let rs := (c.desc.validPoints 2 item).map (s.readElem e item m t h es)
  let out := (inBounds (rs.map Prod.fst)).filter (fun x => !s.overtaken e item m x.1)
  let sm := Tab.find c.maps m.scaleMap
  let o := layOut m sm out
  let clamps := (rs.filter (fun x => x.2.clamped)).length
  let fl := roundFlags (rs.foldl (fun a x => a ||| x.2.fl) o.fl)
  let s1 := ((s.putOut item m (nth 0xFFFF c.desc.hoists 2) o.bytes).orFlags e
    (fl + if clamps = 0 then 0 else flag 24)).countDropped e (droppedCount (rs.map Prod.fst))
  let s2 := (s1.resetSlice e item).modCut e (fun x => { x with
    kd0 := x.kd0 + 1, kd1 := satAdd 32 x.kd1 clamps, banks := Tab.drop x.banks item })
  (s2.replayStarts e (fun r => r == .readout n)).itemDone e item

/-- READOUT_DONE (R208, R209): face `n` reads out the next ready slice of bench `b`. -/
def State.readout (s : State) (n b : Nat) (es : List ReadElem) : State :=
  match s.liveCuts.find? (fun e => (s.cut e).desc.kind == 1 && (s.cut e).phase == .running &&
      (s.readySlice e n b).isSome) with
  | none => s
  | some e =>
    match s.readySlice e n b, (s.cut e).mapOf 2 with
    | some item, some m =>
      match s.rankTile e item 0 with
      | some t => s.readSlice e n item t m es
      | none => s
    | _, _ => s

/-- READOUT_DONE (R208). -/
def execReadoutDone (f : Fin 72) (b : Fin 4) (elems : List ReadElem) (s : State) :
    Host.Outcome State Fault Refusal := s.on (fun s => s.readout f.val b.val elems)

/-! ### Parity of the tables (R217, R277, R375) -/

/-- A parity error of a face counts in its cut; the second one within one cut retires the face (R375). -/
def State.parityError (s : State) (e n fl : Nat) : State :=
  let s1 := s.modCut e (fun c => { c with parity := Tab.update 0 c.parity n (· + 1) })
  let s2 := s1.orFlags e (flag flFaulted)
  if 2 ≤ Tab.get 0 (s1.cut e).parity n then s2.retireFace n 1 fl else s2

/-- An armed table fault of a face (R444). -/
def injectsTable (n : Nat) (k : InjectKind) : Bool :=
  match k with
  | .table i => decide (i.val = n)
  | _ => false

/-- The armed table fault of a face is taken up. -/
def State.takeTableInject (s : State) (n : Nat) : State × Nat :=
  if s.monitor.armed.any (injectsTable n) then
    ({ s with monitor := { s.monitor with armed := s.monitor.armed.filter (fun k => !injectsTable n k) } },
      fromInject)
  else (s, 0)

/-- TABLE_PARITY_ERROR (R217): the error is counted, the bank is restored from the image in force, and the
readout begins again; the cut shows 0x41 while it does. -/
def State.tableParity (s : State) (n : Nat) : State :=
  let s2 : State := { s with drvPerr := Tab.update 0 s.drvPerr n (fun v => satAdd 16 v 1) }
  match s2.liveCuts.find? (fun e => (s2.cut e).desc.kind == 1 && (s2.cut e).phase == .running &&
      (s2.cutFaces (s2.cut e).desc).contains n) with
  | some e => (if (List.range 4).any (fun b => (s2.readySlice e n b).isSome) then
        s2.awaitReplay e (.readout n) else s2).parityError e n 0
  | none => s2

/-- TABLE_PARITY_ERROR (R217). -/
def execTableParityError (f : Fin 72) (s : State) : Host.Outcome State Fault Refusal :=
  s.on (fun s => s.tableParity f.val)

end Sys2Proof.Machine
end

