-- ==== Sys2Proof/Machine/SeamOps.lean ====
section
/-! DEFINITION. Seams: which regions they hold, their elements as FP32, and the eviction of a held seam (R227,
R233, R235 to R237). -/

namespace Sys2Proof.Machine

/-- Rank 0's region of a W-cut (R227). -/
def State.wRegion (s : State) (d : CutDesc) : Option Nat :=
  match s.image with
  | some i => i.outRegion d
  | none => none

/-- A seam occupies a region: every rank's while it accumulates, rank 0's afterwards, none once it is evicted
(R232, R236). -/
def Seam.occupies (m : Seam) (region : Nat) : Bool :=
  match m.phase with
  | .evicted => false
  | .accumulating => decide (m.region ≤ region) && decide (region < m.region + m.split)
  | _ => region == m.region

/-- The seam that occupies some region of a W-cut, if there is one. -/
def State.seamIn (s : State) (d : CutDesc) : Option (Nat × Seam) :=
  match s.wRegion d with
  | some r => s.seams.find? (fun x : Nat × Seam =>
      (List.range (max d.split 1)).any (fun k => x.2.occupies (r + k)))
  | none => none

/-- A region of the W-cut holds a seam, or an earlier seam of its own SEAM_ID is not released (R235). -/
def State.seamBlocks (s : State) (d : CutDesc) : Bool :=
  (s.seamIn d).isSome || (Tab.find s.seams d.wArea.seamId).isSome

/-- The backing area of a region holds an evicted seam, or one is on its way there (R235). -/
def State.backingUsed (s : State) (region : Nat) : Bool :=
  s.seams.any (fun x : Nat × Seam =>
    x.2.region == region && (x.2.phase == .evicted || x.2.phase == .evicting))

/-- The consumer of a seam runs. -/
def State.consumerRuns (s : State) (m : Seam) : Bool := (s.cut m.handoff).live

/-- No seam but `id` occupies a region of the W-cut: the cut could start once `id` has moved (R235). -/
def State.aloneIn (s : State) (d : CutDesc) (r id : Nat) : Bool :=
  s.seams.all (fun x : Nat × Seam =>
    x.1 == id || !(List.range (max d.split 1)).any (fun k => x.2.occupies (r + k)))

/-- The held seam that an EVICT W-cut may evict now (R235). -/
def State.evictable (s : State) (d : CutDesc) : Option (Nat × Seam) :=
  match s.wRegion d, s.seamIn d with
  | some r, some (id, m) =>
    if d.wArea.spill = 1 ∧ m.phase = .held ∧ id ≠ d.wArea.seamId ∧ s.consumerRuns m = false ∧
        m.region = r ∧ s.aloneIn d r id = true ∧ s.backingUsed r = false ∧ (Tab.find s.seams d.wArea.seamId).isNone = true then
      some (id, m)
    else none
  | _, _ => none

/-! ### Elements (R233) -/

/-- The tile of a seam that holds an element, with the element's pocket and lane. -/
def State.seamTile (s : State) (m : Seam) (idx : Nat) : Option (TileRef × Nat × Nat) :=
  match s.image with
  | none => none
  | some i =>
    let d := (s.cut m.entry).desc
    let row := idx / max m.cols 1
    let col := idx % max m.cols 1
    let item := col / max m.lTile 1 * d.pTiles + row / max m.pTile 1
    match i.wTile d m.region item 0 m.e128 with
    | some t => some (t, row % max m.pTile 1, col % max m.lTile 1)
    | none => none

/-- The element of a seam in the yard, as FP32 converted once from its tile's format (R44, R233). -/
def State.seamElem (s : State) (m : Seam) (idx : Nat) : Fp :=
  match s.seamTile m idx with
  | some (t, j, l) =>
    let h := readHdr s.yard.mem t.hdr
    toF32 (yardVal h.e128 (s.elemCode t h j l))
  | none => { code := 0, fl := 0 }

/-- Elements of a seam. -/
def Seam.size (m : Seam) : Nat := m.rows * m.cols

/-! ### Eviction (R236) -/

/-- The map that backs a region. -/
def State.backingMap (s : State) (region : Nat) : Option MapDesc :=
  match s.image with
  | some i =>
    match Tab.find i.regions region with
    | some r => Tab.find i.maps r.backing
    | none => none
  | none => none

/-- The writes of an eviction: element e of the seam to index e of the backing map (R236). -/
def State.evictWrites (s : State) (m : Seam) (bm : MapDesc) : List LineWrite :=
  gatherWrites 0 (((List.range m.size).map (fun k =>
    placeCode 4 (bm.bitAddr [Int.ofNat k, 0, 0, 0, 0, 0]).toNat (s.seamElem m k).code)).flatten) []

/-- The W-cut waits on a held region: HELD is set, and WAIT_NC counts from here (R243; log entry 19). -/
def State.noteHeld (s : State) (e : Nat) : State :=
  (s.orFlags e (flag 26)).modCut e (fun c => { c with
    metNc := match c.metNc with
      | some t => some t
      | none => some s.nc })

/-- A cut that is pending in an open step of a working that starts cuts: running, not pre-empted nor held for a test
drain, and its waits met (R181, R383, R445). -/
def State.mayStart (s : State) (e : Nat) : Bool :=
  let w := (s.descOf e).working
  (s.cut e).phase == .pending && (s.work w).isOpen &&
  ((s.work w).seq == .running || (s.work w).seq == .stopping) && s.mayGoOn w && s.waitsMet e

/-- EVICTION_START (R235, R236): the held seam of the region begins to move to its backing area over the spill
hoist; not while a drain still reads held seams (R391). -/
def State.evictionStart (s : State) (e : Nat) : State :=
  let d := s.descOf e
  let h := nth 0xFFFF d.hoists 4
  if d.kind = 2 ∧ s.mayStart e = true ∧ (s.hoist h).isIdle = true ∧ s.drainsSeams = false then
    match s.evictable d with
    | some (id, m) =>
      match s.backingMap m.region with
      | some bm =>
        let s1 := (s.noteHeld e).modHoist h (fun x => { x with cut := some e, st := .stream, taken := [0] })
        let s2 : State := { s1 with seams := Tab.set s1.seams id { m with phase := .evicting, evictor := some e } }
        s2.handOut h (s2.evictWrites m bm)
      | none => s
    | none => s
  else s

/-- EVICTION_START (R235). -/
def execEvictionStart (e : Fin 4096) (s : State) : Host.Outcome State Fault Refusal :=
  s.on (fun s => s.evictionStart e.val)

/-- The eviction that a W-cut carries is complete: its last write is acknowledged (R236), and no drain has lines of it
still to read (R391). -/
def State.finishEviction (s : State) (e : Nat) : State :=
  let h := nth 0xFFFF (s.descOf e).hoists 4
  match s.seams.find? (fun x : Nat × Seam => x.2.phase == .evicting && x.2.evictor == some e) with
  | some (id, m) =>
    if (s.hoist h).out = [] ∧ s.drainsSeams = false then
      let s1 := s.resetSeam m [0]
      (State.orFlags { s1 with seams := Tab.set s1.seams id { m with phase := .evicted, evictor := none } } e
        (flag 25)).modHoist h Hoist.idleNow
    else s
  | none => s

end Sys2Proof.Machine
end

