-- ==== Sys2Proof/Machine/Attention.lean ====
section
/-! DEFINITION. Attention backward: the kiln, staging, row sums, pages, the ring, and the tiles that a fold
completes (R244 to R280). -/

namespace Sys2Proof.Machine

/-! ### The kiln (R248 to R252) -/

/-- floor of a number; 0 for NaN. -/
def Val.floor : Val → Int
  | .num m e => if 0 ≤ e then m * pow2 e else m / (pow2 (-e) : Int)
  | .nan => 0

/-- kexp(t) (R250). An exponent beyond ±400 gives the same limit as ±400. -/
def kexp (table : EvalTable) (t : Fp) : Fp :=
  let u := Fp.mul t (Fp.ofCode 0x3FB8AA3B)
  let uv := f32 u.code
  let n := uv.floor
  let f := uv.add (.num (-n) 0)
  if uv.isNan then { code := fmtFp32.nanCode, fl := u.fl ||| flNan }
  else
    let r := (evalTable table none f).1
    let k := min (max n (-400)) 400
    let out := toF32 ((f32 r.code).mul (.num 1 k))
    { code := out.code, fl := u.fl ||| r.fl ||| out.fl }

/-- The kiln table that a bench's block uses (R250): the built-in one, or the loaded one of its bank. -/
def State.kilnTable (s : State) (a : AArea) (n b : Nat) : EvalTable :=
  if a.ktable then
    match (Tab.get Kiln.reset s.kilns (n * 4 + b)).block with
    | some (_, _, bank) => (s.tables.bank bank).kiln.getD emptyTable
    | none => (s.tables.bank s.tables.kilnCur).kiln.getD emptyTable
  else Config.builtinKiln

/-- P as an FP32 code, the flags of its arithmetic, and whether t exceeds 2⁻⁷ (R249, R252). -/
def kilnP (table : EvalTable) (a : AArea) (pair : KilnPair) (g : Val) : Fp × Bool :=
  if a.keeps pair then
    let bias := if a.biasMap = 0xFFFF then Val.zero
      else bf16 (nth 0 pair.biasRow (bucket ((pair.qpos : Int) - pair.kpos)))
    let t := toF32 (((g.mul (f32 a.smScale)).add bias).add (f32 pair.row).neg)
    (kexp table t, (Val.num 1 (-7)).lt (f32 t.code))
  else ({ code := 0, fl := 0 }, false)

/-- dS as an FP32 code (R251). -/
def kilnDS (a : AArea) (pair : KilnPair) (delta : Nat) (p g : Val) : Fp :=
  if a.keeps pair then toF32 (p.mul (g.add (f32 delta).neg)) else { code := 0, fl := 0 }

/-- The staged P of query `q` and lane `k` (R251). -/
def State.stagedP (s : State) (base qb q k : Nat) : Val :=
  elemScaled 0 (s.yardByte (base + k * qb + q)) (s.yardByte (base + 512 * qb + k * (qb / 32) + q / 32))

/-- A list with `xs` from index `i` on. -/
def putAt (l : List Nat) (i : Nat) (xs : List Nat) : List Nat :=
  l.take i ++ List.replicate (i - l.length) 0 ++ xs ++ l.drop (i + xs.length)

/-- A load with a block of 32 codes of lane `l` from term `q` on and its scale code. -/
def putLoadBlock (x : StatLoad) (l q : Nat) (codes : List Nat) (scale : Nat) : StatLoad :=
  let rows := fun (r : List (List Nat)) => r ++ List.replicate (512 - r.length) []
  { lanes := (rows x.lanes).set l (putAt (nth [] x.lanes l) q codes)
    scales := (rows x.scales).set l (putAt (nth [] x.scales l) (q / 32) [scale]) }

/-- The block of 32 queries of a lane, once all its results are in (R249, R251). -/
def Kiln.keyBlock (k : Kiln) (l q : Nat) : Option (List Nat) :=
  ((List.range 32).map (fun i => Tab.find k.byKey (l * 4096 + q / 32 * 32 + i))).mapM id

/-- The block of 32 keys of a query, once all its results are in (R251). -/
def Kiln.queryBlock (k : Kiln) (l q : Nat) : Option (List Nat) :=
  ((List.range 32).map (fun i => Tab.find k.byQuery (q * 512 + l / 32 * 32 + i))).mapM id

/-- A block that the kiln writes into the idle side of a lane, and, for P, into staging (R249, R251). -/
def State.writeKeyBlock (s : State) (n b tag base qb stage l q : Nat) (codes : List Nat) : State :=
  let q0 := q / 32 * 32
  let m := mxBlock (if stage = 1 then 0 else 1) (codes.map f32)
  let s1 := s.modBench n b (fun x => x.modIdle (fun side =>
    let load := if side.tag = some tag then side.load else { lanes := [], scales := [] }
    { FeederSide.empty with tag := some tag, load := putLoadBlock load l q0 m.codes m.scale }))
  let s2 : State := { s1 with kilns := Tab.update Kiln.reset s1.kilns (n * 4 + b) (fun k => { k with fl := k.fl ||| m.fl }) }
  if stage = 1 then
    (s2.putYard (base + l * qb + q0) (m.codes.map (BitVec.ofNat 8))).putYard
      (base + 512 * qb + l * (qb / 32) + q0 / 32) [BitVec.ofNat 8 m.scale]
  else s2

/-- A block of dS that the kiln writes into staging (R251). -/
def State.writeQueryBlock (s : State) (n b base qb l q : Nat) (codes : List Nat) : State :=
  let m := mxBlock 1 (codes.map f32)
  let s1 := (m.codes.zipIdx).foldl (fun t x =>
    t.putYard (base + 528 * qb + (l / 32 * 32 + x.2) * qb + q) [BitVec.ofNat 8 x.1]) s
  let s2 := s1.putYard (base + 1040 * qb + l / 32 * qb + q) [BitVec.ofNat 8 m.scale]
  { s2 with kilns := Tab.update Kiln.reset s2.kilns (n * 4 + b) (fun k => { k with fl := k.fl ||| m.fl }) }

/-- The Δ of query `q` of a row: the one the cut made, or the one the kiln read (R251, R253). -/
def ARun.deltaOf (r : ARun) (a : AArea) (row q : Nat) (given : Nat) : Nat :=
  if a.deltaMake then nth 0 (Tab.get [] r.delta row) q else given

/-- One result comes back from the kiln: it is kept, and each block that it completes is written (R249, R251). -/
def State.kilnReturn (s : State) (n b base : Nat) (sh : Shadow) (a : AArea) (l j : Nat) (v : Fp) (high : Bool) :
    State :=
  let qb := 2 ^ a.qbLog2
  let q := sh.pass.sub * 16 + j
  let s1 : State := { s with kilns := Tab.update Kiln.reset s.kilns (n * 4 + b) (fun k => { k with
    byKey := Tab.set k.byKey (l * 4096 + q) v.code
    byQuery := if sh.pass.stage = 3 then Tab.set k.byQuery (q * 512 + l) v.code else k.byQuery
    seen := if k.seen.contains (pocketKey j l) then k.seen else pocketKey j l :: k.seen
    fl := k.fl ||| v.fl ||| (if high then flag 24 else 0) }) }
  let k := Tab.get Kiln.reset s1.kilns (n * 4 + b)
  let tag := a.tag sh.pass.item sh.pass.red (sh.pass.stage + 1) 0
  let s2 := match k.keyBlock l q with
    | some codes => s1.writeKeyBlock n b tag base qb sh.pass.stage l q codes
    | none => s1
  match (if sh.pass.stage = 3 then k.queryBlock l q else none) with
  | some codes => s2.writeQueryBlock n b base qb l q codes
  | none => s2

/-- A stage whose results go to the kiln (R245). -/
def kilnStage (p : PassId) : Bool := p.stage == 1 || p.stage == 3

/-- KILN_RESULT: a pocket of the shadow of a stage 1 or stage 3 pass comes back as P or dS (R248 to R252); it
waits while the idle side is not yet released (R77). -/
def State.kilnResult (s : State) (n b l j : Nat) (pair : KilnPair) : State :=
  let x := s.bench n b
  match x.shadow with
  | none => s
  | some sh =>
    match (s.cut sh.cut).desc.area with
    | .a a =>
      match s.stagingBase (s.cut sh.cut).desc a n b with
      | none => s
      | some base =>
        if kilnStage sh.pass && !x.idle.held && (s.cut sh.cut).phase == .running then
          let g := (Tab.get Pocket.zero sh.pockets (pocketKey j l)).val
          let q := sh.pass.sub * 16 + j
          if sh.pass.stage = 1 then
            let r := kilnP (s.kilnTable a n b) a pair g
            s.kilnReturn n b base sh a l j r.1 r.2
          else
            let d := (s.arun sh.cut).deltaOf a sh.pass.item q pair.row
            s.kilnReturn n b base sh a l j
              (kilnDS a pair d (s.stagedP base (2 ^ a.qbLog2) q l) g) false
        else s
    | _ => s

/-! ### Kiln parity (R277) -/

/-- A bench has a stage 1 or 3 to begin again (R277). -/
def Bench.restages (b : Bench) : Bool :=
  match b.discard.work with
  | p :: _ => kilnStage p && (decide (0 < p.sub) || decide (0 < b.abortCount))
  | [] => false

/-- A bench in stage 1 or 3 begins the stage again from its first pass (R277). -/
def Bench.restageKiln (b : Bench) (a : AArea) : Bench :=
  let x := b.discard
  match x.work with
  | p :: _ =>
    if kilnStage p then
      let again := (a.stage p.item p.red p.stage).take p.sub
      { x with work := again ++ x.work }.modIdle (fun _ => FeederSide.empty)
    else b
  | [] => b

/-- The benches of a face that work for an A-cut begin their kiln stage again (R277). -/
def State.restage (s : State) (n e : Nat) : State :=
  (List.range 4).foldl (fun t b =>
    if (t.bench n b).cut = some e ∧ (t.bench n b).restages = true then
      (({ t with kilns := Tab.drop t.kilns (n * 4 + b) }.modBench n b (fun x =>
        x.restageKiln (t.cut e).aArea)).awaitReplay e (.pass n b)).tryStart n b
    else t) s

/-- KILN_PARITY_ERROR: the error is counted, the bank comes back from the image in force, and the stage runs again
(R277, R375). -/
def State.kilnParity (s0 : State) (n : Nat) : State :=
  let (s, fl) := s0.takeTableInject n
  let s1 : State := { s with klnPerr := Tab.update 0 s.klnPerr n (fun v => satAdd 16 v 1) }
  match s1.liveCuts.find? (fun e => (s1.cut e).desc.kind == 3 && (s1.cut e).phase == .running &&
      (s1.cutFaces (s1.cut e).desc).contains n) with
  | some e => (s1.restage n e).parityError e n fl
  | none => s1

/-- KILN_RESULT; an armed table fault of the face strikes it instead (R444). -/
def State.kilnResultAny (s : State) (n b l j : Nat) (pair : KilnPair) : State :=
  let s1 := s.kilnResult n b l j pair
  if s.monitor.armed.any (injectsTable n) && s1 != s then s.kilnParity n else s1

/-- KILN_RESULT (R249, R251). -/
def execKilnResult (f : Fin 72) (b : Fin 4) (lane : Fin 512) (pocket : Fin 16) (pair : KilnPair) (s : State) :
    Host.Outcome State Fault Refusal := s.on (fun s => s.kilnResultAny f.val b.val lane.val pocket.val pair)

/-- Every pocket of the shadow has come back from the kiln. -/
def State.kilnAll (s : State) (n b : Nat) (sh : Shadow) : Bool :=
  let k := Tab.get Kiln.reset s.kilns (n * 4 + b)
  sh.pockets.all (fun x => k.seen.contains x.1)

/-- The kiln after a drain: results whose blocks are written are gone. -/
def Kiln.afterDrain (k : Kiln) (sub : Nat) : Kiln :=
  { k with
    seen := [], fl := 0, byQuery := []
    byKey := if sub % 2 = 1 then List.filter (fun x => decide (sub * 16 + 16 ≤ x.1 % 4096)) k.byKey
      else k.byKey }

/-- KILN_DRAIN_DONE: the shadow of a checked or unchecked stage 1 or stage 3 pass has drained to the kiln, and is
free (R79, R245). -/
def State.kilnDrain (s : State) (n b : Nat) : State :=
  match (s.bench n b).shadow with
  | none => s
  | some sh =>
    if sh.cleared && kilnStage sh.pass && (s.cut sh.cut).desc.kind == 3 && s.kilnAll n b sh then
      let k := Tab.get Kiln.reset s.kilns (n * 4 + b)
      let s1 : State := { s with kilns := Tab.set s.kilns (n * 4 + b) (k.afterDrain sh.pass.sub) }
      ((s1.orFlags sh.cut (sh.cutFlags ||| k.fl)).modCut sh.cut (fun c => { c with
        passes := c.passes + 1 })).freeShadow n b
    else s

/-- KILN_DRAIN_DONE (R79). -/
def execKilnDrainDone (f : Fin 72) (b : Fin 4) (s : State) : Host.Outcome State Fault Refusal :=
  s.on (fun s => s.kilnDrain f.val b.val)

/-! ### The channels of the ring (R271 to R275) -/

/-- A stream handed to a channel of a port, to be sent as credits allow (R304, R313). -/
def State.sendStream (s : State) (p vc e : Nat) (bs : List Byte) : State :=
  s.modPort p (fun q => q.modChan vc (fun c => { c with tx := c.tx ++ [{ bytes := bs, tail := true, cut := e }] }))

/-- Frames up to and including the first that has TAIL set. -/
def throughTail : List RxPiece → Nat
  | [] => 0
  | x :: xs => if x.tail then 1 else 1 + throughTail xs

/-- A received stream has been taken whole: its frames are freed (R304). -/
def State.takeStream (s : State) (p vc : Nat) : State :=
  s.modPort p (fun q => q.modChan vc (fun c =>
    { c with rx := c.rx.drop (throughTail c.rx), freed := c.freed + throughTail c.rx }))

/-- Nothing of the cut waits to be sent on a channel of a port. -/
def State.sentAll (s : State) (p vc e : Nat) : Bool :=
  !(((s.port p).chan vc).tx.any (fun x => x.cut == e))

/-! ### Rounds (R265, R266, R273) -/

/-- The bench that holds the rows of bench number `k` of a cut: its own, or the one that adopted them (R265,
R380). -/
def State.rowHolder (s : State) (e k : Nat) : Nat × Nat :=
  let d := (s.cut e).desc
  let nb := nth (0, 0) (s.benchList d) k
  let holds := fun x : Nat × Nat => (s.bench x.1 x.2).cut == some e ||
    (match (s.bench x.1 x.2).yielded with
      | some (c, _) => c == e
      | none => false)
  if holds nb then nb
  else
    match s.adopter d nb.1 with
    | some m => (m, nb.2)
    | none => nb

/-- Passes added behind a bench's work for cut `e`. -/
def Bench.addWork (b : Bench) (e : Nat) (ps : List PassId) : Bench :=
  match b.yielded with
  | some (k, ws) => if k = e then { b with yielded := some (k, ws ++ ps) } else { b with work := b.work ++ ps }
  | none => { b with work := b.work ++ ps }

/-- The blocks of a round are dealt to the benches; skipped blocks are counted (R258, R265, R266, R280). -/
def State.dealRound (s : State) (e round : Nat) : State :=
  let a := (s.cut e).aArea
  let r := s.arun e
  let n := (s.benchList (s.cut e).desc).length
  let s1 := (r.roundBlocks a round).foldl (fun t x =>
    if x.2.2 then t.modCut e (fun c => { c with kd1 := satAdd 32 c.kd1 1 })
    else
      let h := t.rowHolder e (r.rowBench a n x.1)
      t.modBench h.1 h.2 (fun b => b.addWork e (a.blockPasses x.1 x.2.1))) s
  let s2 := s1.modArun e (fun r => { r with landed := max r.landed (round + 1) })
  (s.benchList (s.cut e).desc).foldl (fun t x => t.tryStart x.1 x.2) s2

/-! ### Output of tiles and rows (R268, R269, R274) -/

/-- The tile of index `idx` among the dK and dV tiles of an ordinal (R267). -/
def Image.dkvTile (i : Image) (w : Nat) (a : AArea) (o idx : Nat) (e128 : Bool) : Option TileRef :=
  let slot := o % max (i.nSlot a e128) 1
  i.slotTile w a.dkvRegion (slot * a.slotBytes e128 + idx * 8192 * elemSize e128)
    (slot * (2 * a.chunks) + idx) 16 512

/-- The dK and dV tiles of an ordinal, dK first. -/
def State.dkvTiles (s : State) (e o : Nat) : List TileRef :=
  match s.image with
  | some i =>
    let c := s.cut e
    let a := c.aArea
    let e128 := s.passE128 e (nth 0 (s.cutFaces c.desc) 0)
    (List.range (2 * a.chunks)).filterMap (fun k => i.dkvTile c.desc.working a o k e128)
  | none => []

/-- The value of an element of a tile (R57, R58). -/
def State.tileVal (s : State) (t : TileRef) (j l : Nat) : Val :=
  let h := readHdr s.yard.mem t.hdr
  yardVal h.e128 (s.elemCode t h j l)

/-- Elements written through a map of an A-cut, with their flags; `item` is the round that they belong to. -/
def State.writeOut (s : State) (e item map hoist : Nat) (es : List (List (Option Int) × Val)) : State :=
  let c := s.cut e
  match Tab.find c.maps map with
  | none => s
  | some m =>
    let out := inBounds (es.map (fun x =>
      ({ place := m.place x.1 none none, idx := m.indexTuple x.1 none none, v := x.2 } : OutElem)))
    let bs := layOut m none out
    (s.putOut item m (nth 0xFFFF c.desc.hoists hoist) bs.bytes).orFlags e (roundFlags bs.fl)

/-- The elements of an ordinal's dK (`first` 0) or dV (`first` D/16) values for the present keys (R269): `val` gives
the element of a tile index, pocket and lane. -/
def ARun.keyElems (r : ARun) (a : AArea) (o first : Nat) (val : Nat → Nat → Nat → Val) :
    List (List (Option Int) × Val) :=
  match r.blockOf a (o / max a.heads 1) with
  | none => []
  | some (k, _, kb) =>
    let q := nth default r.seqs k
    let head := o % max a.heads 1
    let present := min 512 (r.keyCount 0 q - kb * 512)
    ((List.range present).map (fun l =>
      ((List.range a.chunks).map (fun ch => (List.range 16).map (fun j =>
        ([some (Int.ofNat (ch * 16 + j)), some (Int.ofNat (q.kRow + kb * 512 + l)), some (Int.ofNat head)],
          val (first + ch) j l)))).flatten)).flatten

/-- An ordinal's dK and dV written to their maps (R269). -/
def State.writeKeys (s : State) (e o round : Nat) (val : Nat → Nat → Nat → Val) : State :=
  let a := (s.cut e).aArea
  let r := s.arun e
  (s.writeOut e round a.dkMap 10 (r.keyElems a o 0 val)).writeOut e round a.dvMap 10
    (r.keyElems a o a.chunks val)

/-- The bytes of an ordinal's tiles in RET_TYPE, tile by tile, pocket by pocket (log entry 22), with the flags of the
roundings. -/
def State.partialBytes (s : State) (ts : List TileRef) (ret : Nat) : List Byte × Nat :=
  let f := if ret = 3 then fmtBf16 else fmtFp32
  let codes := (ts.map (fun t => t.positions.map (fun x => f.encode (s.tileVal t x.1 x.2)))).flatten
  ((codes.map (fun c => elemBytes ret c.code)).flatten, codes.foldl (fun a c => a ||| c.fl) 0)

/-- The round of an ordinal. -/
def ARun.roundOf (r : ARun) (a : AArea) (o : Nat) : Nat := r.roundOfBlock a (o / max a.heads 1)

/-- A pass of the cut for the key block and head of an ordinal is open (R269). -/
def State.tileOpen (s : State) (e o : Nat) : Bool :=
  let a := (s.cut e).aArea
  let r := s.arun e
  (s.openPasses e).any (fun p => decide (p.stage ≤ 4) && p.red == o / max a.heads 1 &&
    match rowOf a.heads a.qbLog2 r.seqs 0 p.item with
    | some (_, head, _) => head == o % max a.heads 1
    | none => false)

/-- The values of a partial: row (tile index·16 + pocket) by lane, in RET_TYPE. -/
def partialVal (ret : Nat) (vs : List (List Nat)) (idx j l : Nat) : Val :=
  elemVal ret (nth 0 (nth [] vs (idx * 16 + j)) l)

/-- The partial that arrived for an ordinal folds as its tiles' last contribution (R274). -/
def State.foldPartial (s : State) (e o : Nat) (vs : List (List Nat)) : State :=
  let c := s.cut e
  let n := nth 0 (s.cutFaces c.desc) 0
  let s1 := ((s.dkvTiles e o).zipIdx).foldl (fun t x =>
    let ps := x.1.positions.map (fun p => (p, partialVal c.aArea.retType vs x.2 p.1 p.2))
    t.foldTile e x.1 (s.passE128 e n) (s.face n).accMode.promote ps
      { span := false, nan := ps.any (fun p => p.2.isNan), econ := false }) s
  s1.modArun e (fun r => { r with folded := o :: r.folded, partials := Tab.drop r.partials o })

/-- A complete tile leaves its slot: to the maps with RING 1, to the next chip on the ring (R269, R274). -/
def State.outTile (s : State) (e o : Nat) : State :=
  let c := s.cut e
  let a := c.aArea
  let ts := s.dkvTiles e o
  let s1 := if a.ring ≤ 1 then
      s.writeKeys e o 0 (fun idx j l => match ts[idx]? with
        | some t => s.tileVal t j l
        | none => Val.zero)
    else
      let bs := s.partialBytes ts a.retType
      (s.sendStream a.portNext a.vcDkv e bs.1).orFlags e (roundFlags bs.2)
  (ts.foldl (fun t x => t.resetTile x.hdr) s1).modArun e (fun r => { r with tilesDone := o :: r.tilesDone })

/-- A tile is completed if nothing of it is open, its slot is its own, and on the ring its partial has folded
(R269, R274). -/
def State.tryTile (s : State) (e o : Nat) : State :=
  let a := (s.cut e).aArea
  let r := s.arun e
  let n := nth 0 (s.cutFaces (s.cut e).desc) 0
  if r.tilesDone.contains o || s.tileOpen e o || !s.dkvFree e a o (s.passE128 e n) then s
  else if r.roundOf a o = 0 ∨ r.folded.contains o = true then s.outTile e o
  else
    match Tab.find r.partials o with
    | some vs => (s.foldPartial e o vs).outTile e o
    | none => s

/-- The elements of a row's dQ for its valid queries (R268). -/
def State.rowElems (s : State) (e row : Nat) : List (List (Option Int) × Val) :=
  let c := s.cut e
  let a := c.aArea
  let r := s.arun e
  match s.image, rowOf a.heads a.qbLog2 r.seqs 0 row with
  | some i, some (k, head, j) =>
    let q := nth default r.seqs k
    let e128 := s.passE128 e (nth 0 (s.cutFaces c.desc) 0)
    let valid := min (2 ^ a.qbLog2) (q.qCount - j * 2 ^ a.qbLog2)
    ((List.range (a.groups * a.chunks)).map (fun sub =>
      match i.aTile c.desc.working a r { item := row, red := 0, stage := 5, sub := sub, tag := 0 } e128 with
      | none => []
      | some t => t.positions.filterMap (fun p =>
        let qi := sub / a.chunks * 512 + p.2
        if qi < valid then
          some ([some (Int.ofNat (sub % a.chunks * 16 + p.1)),
            some (Int.ofNat (q.qRow + j * 2 ^ a.qbLog2 + qi)), some (Int.ofNat head)], s.tileVal t p.1 p.2)
        else none))).flatten
  | _, _ => []

/-- The headers of a row's dQ tiles are reset (R268). -/
def State.resetRow (s : State) (e row : Nat) : State :=
  let c := s.cut e
  let a := c.aArea
  let e128 := s.passE128 e (nth 0 (s.cutFaces c.desc) 0)
  match s.image with
  | some i => (List.range (a.groups * a.chunks)).foldl (fun t sub =>
      match i.aTile c.desc.working a (s.arun e) { item := row, red := 0, stage := 5, sub := sub, tag := 0 } e128 with
      | some x => t.resetTile x.hdr
      | none => t) s
  | none => s

/-- A row is written once its last block has folded (R268). -/
def State.tryRow (s : State) (e row : Nat) : State :=
  let c := s.cut e
  let a := c.aArea
  let r := s.arun e
  if r.rowsDone.contains row || decide (r.landed < a.rounds) || (s.openPasses e).any (fun p => p.item == row) then s
  else
    ((s.writeOut e (a.rounds - 1) (nth 0xFFFF c.desc.maps 2) 2 (s.rowElems e row)).resetRow e row).modArun e
      (fun r => { r with rowsDone := row :: r.rowsDone })

/-- dK/dV tiles of a round. -/
def ARun.tilesIn (r : ARun) (a : AArea) (round : Nat) : Nat := r.blocksIn round * a.heads

/-- The ordinal of the first tile of a round. -/
def ARun.tileBase (r : ARun) (a : AArea) (round : Nat) : Nat := r.roundBase round * a.heads

/-- Ordinals of a round (R266, R267). -/
def ARun.roundTiles (r : ARun) (a : AArea) (round : Nat) : List Nat :=
  (List.range (r.tilesIn a round)).map (r.tileBase a round + ·)

/-- A round is complete when every tile of it has gone and no pass of it is open (R280). -/
def State.roundDone (s : State) (e round : Nat) : Bool :=
  let a := (s.cut e).aArea
  let r := s.arun e
  decide (round < r.landed) && (r.roundTiles a round).all (fun o => r.tilesDone.contains o) &&
  !(s.openPasses e).any (fun p => r.roundOfBlock a p.red == round) &&
  (decide (round + 1 < a.rounds) || decide (r.rowsDone.length = r.rows a))

/-- A completed round counts in ROUNDS and PROGRESS (R280). -/
def State.tryRound (s : State) (e round : Nat) : State :=
  if (s.cut e).done.contains round || !s.roundDone e round then s
  else (s.modCut e (fun c => { c with kd2 := c.kd2 + 1 })).itemDone e round

/-- Slots of the ring whose round's blocks are done, whose block has been sent on, and whose partials have folded
are free (R273). -/
def State.freeSlots (s : State) (e : Nat) : State :=
  let a := (s.cut e).aArea
  s.modArun e (fun r => { r with slots := List.filter (fun x : Nat × RingSlot =>
      !((r.roundTiles a x.2.round).all (fun o => r.folded.contains o) &&
        !(s.openPasses e).any (fun p => r.roundOfBlock a p.red == x.2.round) &&
        s.sentAll a.portNext a.vcKv e)) r.slots })

/-- A page's space in the prefetch area is released when no open block reads it, oldest first (R263). -/
def dropPages (used : List Nat) : List (Nat × Nat) → List (Nat × Nat)
  | [] => []
  | x :: xs => if used.contains x.1 then x :: xs else dropPages used xs

/-- Copied pages that no open block reads leave the prefetch area (R263). -/
def State.releasePages (s : State) (e : Nat) : State :=
  let a := (s.cut e).aArea
  let used := ((s.openPasses e).map (fun p => (s.arun e).blockPages a p.red)).flatten
  s.modArun e (fun r => { r with prefetch := dropPages used r.prefetch })

/-! ### A visiting block (R271 to R273) -/

/-- A page table entry of 32 B (R259). -/
def decodePage (bs : List Byte) : PageRow :=
  let w := field bs 0 8
  { pos := bits w 31 0, size := bits w 35 32, fmt := bits w 39 36, res := bit w 40, kBase := field bs 8 8
    vBase := field bs 16 8, ksBase := field bs 24 8 }

/-- Page table entries of a byte string. -/
def decodePages (bs : List Byte) : List PageRow :=
  (List.range (bs.length / 32)).map (fun k => decodePage (bs.drop (32 * k)))

/-- Bytes of a page entry (R259). -/
def PageRow.bytes (p : PageRow) : List Byte :=
  natLe (p.pos + p.size * 2 ^ 32 + p.fmt * 2 ^ 36 + (if p.res then 2 ^ 40 else 0)) 8 ++ natLe p.kBase 8 ++
    natLe p.vBase 8 ++ natLe p.ksBase 8

/-- Bytes of a page's K (or V) values (R260). -/
def PageRow.valueBytes (p : PageRow) (a : AArea) : Nat :=
  a.heads * p.tokens * (64 * ceilDiv (32 * a.dh * typeBits p.fmt / 8) 64)

/-- Bytes of a page's K and V scales (R260). -/
def PageRow.scaleBytes (p : PageRow) (a : AArea) : Nat :=
  if isMx p.fmt then 2 * (a.heads * a.dh * p.tokens) else 0

/-- Bytes of a page. -/
def PageRow.allBytes (p : PageRow) (a : AArea) : Nat := 2 * p.valueBytes a + p.scaleBytes a

/-- Pages laid contiguously from an address on, with RES 0 (R271). -/
def placePages (a : AArea) : Nat → List PageRow → List PageRow
  | _, [] => []
  | at', p :: ps =>
    let v := p.valueBytes a
    { p with res := false, kBase := at', vBase := at' + v, ksBase := if isMx p.fmt then at' + 2 * v else 0 } ::
      placePages a (at' + p.allBytes a) ps

/-- The 256 B header of a block (R272); the places of its fields are the model's (log entry 22). -/
def blockHeader (a : AArea) (owner round entries bytes : Nat) : List Byte :=
  let h := natLe owner 1 ++ natLe round 1 ++ natLe a.qfmt 1 ++ natLe (b2n a.allowNarrow) 1 ++ natLe a.heads 1 ++
    natLe a.dh 1 ++ natLe a.mask 1 ++ natLe 0 1 ++ natLe a.win 4 ++ natLe entries 4 ++ natLe bytes 8
  h ++ List.replicate (256 - h.length) 0

/-- A block header agrees with the cut that receives it in round `round` (R271, R272). -/
def headerFits (a : AArea) (round : Nat) (h : List Byte) : Bool :=
  let own := blockHeader a ((a.ringPos + a.ring - round % max a.ring 1) % max a.ring 1) round 0 0
  decide (h.length = 256) && h.take 12 == own.take 12

/-- The base and length of a slot of RX_MAP (R271). -/
def State.slotArea (s : State) (e k : Nat) : Option (Nat × Nat) :=
  match Tab.find (s.cut e).maps (s.cut e).aArea.rxMap with
  | some m =>
    let len := ((m.span.2 + 1) / 8 - m.span.1 / 8).toNat / 2
    some (m.base + k * len, len)
  | none => none

/-- A block lands in the slot of its round: its bytes go to memory, it is sent on if a further chip needs it, and
its blocks are dealt (R271, R273). -/
def State.landBlock (s : State) (e : Nat) (x : RingSlot) : State :=
  let a := (s.cut e).aArea
  match s.slotArea e (x.round % 2) with
  | none => s
  | some (base, _) =>
    let entries := field x.data 12 4
    let pages := decodePages ((x.data.drop 256).take entries)
    let placed := placePages a (base + 256 + entries) pages
    let hdr := x.data.take 256
    let body := x.data.drop (256 + entries)
    let s1 := s.putFabric base (hdr ++ (placed.map PageRow.bytes).flatten ++ body)
    let next := [BitVec.ofNat 8 (field x.data 0 1), BitVec.ofNat 8 (x.round + 1)] ++ x.data.drop 2
    let s2 := if x.round + 1 < a.ring then s1.sendStream a.portNext a.vcKv e next else s1
    let s3 := s2.modArun e (fun r => { r with
      pages := Tab.set r.pages x.round placed, slots := Tab.set r.slots (x.round % 2) x })
    s3.dealRound e x.round

/-- A waiting block lands once its slot is free (R273). -/
def State.landWaiting (s : State) (e : Nat) : State :=
  match (s.arun e).waitingBlock with
  | x :: rest =>
    if (Tab.find (s.arun e).slots (x.round % 2)).isNone then
      (s.modArun e (fun r => { r with waitingBlock := rest })).landBlock e x
    else s
  | [] => s

/-- Everything that a fold, a partial or a landed block can complete in an A-cut: tiles, rows, rounds, pages and
slots (R263, R268, R269, R273, R274). -/
def State.sweepA (s : State) (e : Nat) : State :=
  let a := (s.cut e).aArea
  let r := s.arun e
  let s1 := (List.range (r.tileBase a r.landed)).foldl (fun t o => t.tryTile e o) s
  let s2 := (List.range (r.rows a)).foldl (fun t k => t.tryRow e k) s1
  let s3 := (List.range a.rounds).foldl (fun t k => t.tryRound e k) s2
  ((s3.releasePages e).freeSlots e).landWaiting e

/-! ### FOLD of an A-cut (R245, R268, R280) -/

/-- The last pass of a block has folded: it counts in BLOCKS (R280). -/
def State.countBlock (s : State) (e : Nat) (p : PassId) : State :=
  if p.stage = 5 ∧ p.sub + 1 = (s.cut e).aArea.stagePasses 5 then
    s.modCut e (fun c => { c with kd0 := satAdd 32 c.kd0 1 })
  else s

/-- FOLD (R59, R79), with what a fold completes in an A-cut. -/
def State.foldAny (s : State) (n b : Nat) : State :=
  match (s.bench n b).shadow with
  | none => s
  | some sh =>
    let s1 := s.fold n b
    if (s.cut sh.cut).desc.kind = 3 ∧ (s.cut sh.cut).passes < (s1.cut sh.cut).passes then
      (s1.countBlock sh.cut sh.pass).sweepA sh.cut
    else s1

/-- FOLD (R59). -/
def execFold (f : Fin 72) (b : Fin 4) (s : State) : Host.Outcome State Fault Refusal :=
  s.on (fun s => s.foldAny f.val b.val)

/-! ### Row sums (R253) -/

/-- Products of a query's Δ: dO against O along the head dimension. -/
def deltaProducts (tdo tout : Nat) (q : DeltaQuery) : List (Val × Val) :=
  let scales := fun (xs : List Nat) (n : Nat) => (List.range n).map (fun k => nth 0 xs (k / 32))
  List.zip (valsOf tdo q.dO (scales q.dOScale q.dO.length)) (valsOf tout q.o (scales q.oScale q.o.length))

/-- Δ of a query: an exact window anchored as a pocket, or the float path; one rounding to FP32; and whether a
product was truncated (R253). -/
def deltaOfQuery (tdo tout : Nat) (q : DeltaQuery) : Fp × Bool :=
  let xs := deltaProducts tdo tout q
  if floatPath (tdo, tout) then (toF32 (floatSum Val.zero xs), false)
  else
    let a := xs.foldl addProduct { p := Pocket.start (anchorOf false (sigmaMax q.dOScale q.oScale)), lost := false }
    (toF32 a.p.val, a.lost)

/-- DELTA_MAKE_DONE: the Δ values of a row are made, rounded, written through MAPS[7] and used (R253). -/
def State.deltaMade (s : State) (e row : Nat) (qs : List DeltaQuery) : State :=
  let c := s.cut e
  match c.desc.area with
  | .a a =>
    let r := s.arun e
    if c.phase = .running ∧ a.deltaMake = true ∧ row < r.rows a ∧ (Tab.find r.delta row).isNone = true then
      match rowOf a.heads a.qbLog2 r.seqs 0 row with
      | none => s
      | some (k, head, j) =>
        let q := nth default r.seqs k
        let ds := qs.map (deltaOfQuery (c.typeOf 4) (c.typeOf 5))
        let es := (ds.zipIdx.take (q.qCount - j * 2 ^ a.qbLog2)).map (fun x =>
          ([some (Int.ofNat (q.qRow + j * 2 ^ a.qbLog2 + x.2)), some (Int.ofNat head)], f32 x.1.1.code))
        let fl := ds.foldl (fun acc x => acc ||| roundFlags x.1.fl ||| (if x.2 then flag 6 else 0)) (flag 26)
        let s1 := ((s.writeOut e 0 (nth 0xFFFF c.desc.maps 7) 13 es).orFlags e fl).modArun e (fun r =>
          { r with delta := Tab.set r.delta row (ds.map (fun x => x.1.code)) })
        (s1.benchList c.desc).foldl (fun t x => t.tryStart x.1 x.2) s1
    else s
  | _ => s

/-- DELTA_MAKE_DONE (R253). -/
def execDeltaMakeDone (e : Fin 4096) (row : Nat) (queries : List DeltaQuery) (s : State) :
    Host.Outcome State Fault Refusal := s.on (fun s => s.deltaMade e.val row queries)

/-! ### The page walker (R263) -/

/-- Pages with RES 1 in the walker's schedule order. -/
def ARun.schedule (r : ARun) : List Nat :=
  let all := distinct ((r.seqs.map (fun q => (List.range q.ptCount).map (fun k => q.ptFirst + k))).flatten)
  all.filter (fun k => (nth default (Tab.get [] r.pages 0) k).res)

/-- The next page to copy. -/
def ARun.nextPage (r : ARun) : Option Nat := r.schedule.find? (fun k => !r.copied.contains k)

/-- Bytes of the prefetch area. -/
def State.prefetchArea (s : State) (e : Nat) : Option (Nat × Nat) :=
  (Tab.find (s.cut e).maps (s.cut e).aArea.pfMap).map (fun m =>
    (m.base, ((m.span.2 + 1) / 8 - m.span.1 / 8).toNat))

/-- PF_STALL_NC of an A-cut (R280): the 4 bytes from 0x3A on. -/
def CutRun.pfStall (c : CutRun) : Nat := c.kd2 / 65536 + c.kd3 % 65536 * 65536

/-- Night cycles for which benches waited for a page, added to PF_STALL_NC (R263, R280). -/
def State.addPfStall (s : State) (e waited : Nat) : State :=
  s.modCut e (fun c =>
    let v := satAdd 32 c.pfStall waited
    { c with kd2 := c.kd2 % 65536 + v % 65536 * 65536, kd3 := v / 65536 })

/-- PAGE_COPY: the next page of the CXL pool, if it fits, goes into the next free space of the ring of bytes
(R263); `waited` is the night cycles for which benches waited for it. -/
def State.pageCopy (s : State) (e page : Nat) (data : List Byte) (waited : Nat) : State :=
  let c := s.cut e
  match c.desc.area, s.prefetchArea e with
  | .a a, some (base, len) =>
    let r := s.arun e
    let size := (nth default (Tab.get [] r.pages 0) page).allBytes a
    let held := (r.prefetch.map Prod.snd).sum
    if c.phase = .running ∧ r.nextPage = some page ∧ data.length = size ∧ held + size ≤ len then
      let bytes := data.mapIdx (fun k x => (base + (r.pfHead + k) % max len 1, x))
      let s1 := (s.handOut (nth 0xFFFF c.desc.hoists 11) (gatherWrites 0 bytes [])).orFlags e (flag 27)
      let s2 := (s1.addPfStall e waited).modArun e (fun r => { r with
        prefetch := r.prefetch ++ [(page, size)], pfHead := (r.pfHead + size) % max len 1
        copied := page :: r.copied })
      (s2.benchList c.desc).foldl (fun t x => t.tryStart x.1 x.2) s2
    else s
  | _, _ => s

/-- PAGE_COPY (R263). -/
def execPageCopy (e : Fin 4096) (page : Nat) (data : List Byte) (waited : Nat) (s : State) :
    Host.Outcome State Fault Refusal := s.on (fun s => s.pageCopy e.val page data waited)

/-! ### Ring arrivals (R271 to R274) -/

/-- RING_BLOCK_ARRIVE: the visiting block of the next round arrives on VC_KV. One that differs from the cut's own
descriptor, or holds a page wider than QFMT without ALLOW_NARROW, ends the cut with 0x50 (R272); one whose slot is
not free waits (R273). -/
def State.ringBlock (s : State) (e : Nat) (header data : List Byte) : State :=
  let c := s.cut e
  match c.desc.area with
  | .a a =>
    let r := s.arun e
    let round := r.landed + r.waitingBlock.length
    if c.phase = .running ∧ 1 < a.ring then
      let s1 := s.takeStream a.portPrev a.vcKv
      let pages := decodePages (data.take (field header 12 4))
      if headerFits a round header && decide (round < a.ring) &&
          pages.all (fun p => a.allowNarrow || !widerThan p.fmt a.qfmt) then
        let s2 := (s1.modArun e (fun r => { r with
          waitingBlock := r.waitingBlock ++ [{ round := round, data := header ++ data }] }))
        if pages.any (fun p => widerThan p.fmt a.qfmt) then ((s2.orFlags e (flag 8)).landWaiting e).sweepA e
        else (s2.landWaiting e).sweepA e
      else s1.breakCut e
    else s
  | _ => s

/-- RING_BLOCK_ARRIVE (R271). -/
def execRingBlockArrive (e : Fin 4096) (header data : List Byte) (s : State) :
    Host.Outcome State Fault Refusal := s.on (fun s => s.ringBlock e.val header data)

/-- RING_PARTIAL_ARRIVE: the partial dK/dV of tile `k` of a round's block arrives on VC_DKV; those of round RING are the
chip's own return, and are written as R269 writes (R274). -/
def State.ringPartial (s : State) (e round k : Nat) (vs : List (List Nat)) : State :=
  let c := s.cut e
  match c.desc.area with
  | .a a =>
    let r := s.arun e
    let o := r.tileBase a round + k
    let s1 := s.takeStream a.portPrev a.vcDkv
    if c.phase = .running ∧ 1 < a.ring ∧ round = a.ring ∧ k < r.tilesIn a 0 ∧ r.returned.contains k = false then
      ((s1.writeKeys e k (a.ring - 1) (fun idx j l => partialVal a.retType vs idx j l)).modArun e (fun r =>
        { r with returned := k :: r.returned })).sweepA e
    else if c.phase = .running ∧ 1 < a.ring ∧ 1 ≤ round ∧ round < a.ring ∧ round < r.landed ∧ k < r.tilesIn a round ∧
        r.folded.contains o = false then
      (s1.modArun e (fun r => { r with partials := Tab.set r.partials o vs })).sweepA e
    else s
  | _ => s

/-- RING_PARTIAL_ARRIVE (R274). -/
def execRingPartialArrive (e : Fin 4096) (round : Nat) (tile : Nat) (values : List (List Nat)) (s : State) :
    Host.Outcome State Fault Refusal := s.on (fun s => s.ringPartial e.val round tile values)

/-- KILN_PARITY_ERROR (R277). -/
def execKilnParityError (f : Fin 72) (s : State) : Host.Outcome State Fault Refusal :=
  s.on (fun s => s.kilnParity f.val)

end Sys2Proof.Machine
end

