-- ==== Sys2Proof/Machine/Dresser.lean ====
section
/-! DEFINITION. The dressers: the update of a slab, freezing, the two weight buffers, writes that wait for a drain,
and slab faults (R281 to R297, R381). -/

namespace Sys2Proof.Machine

/-- The run of an X-cut. -/
def State.xrun (s : State) (e : Nat) : XRun := Tab.get default s.xruns e

/-- The state with an X-cut's run changed, while the cut has one. -/
def State.modXrun (s : State) (e : Nat) (f : XRun → XRun) : State :=
  match Tab.find s.xruns e with
  | some r => { s with xruns := Tab.set s.xruns e (f r) }
  | none => s

/-! ### Units without a spare (R381) -/

/-- Row of R381's table of a kind of unit, counted from 0. -/
def unitRow (kind : Nat) : Nat :=
  match kind with
  | 5 => 0
  | 6 => 1
  | 9 => 2
  | 7 => 3
  | _ => 4

/-- A fault of a unit in a cut: it is counted, and the unit is retired on its second fault within one cut or on an
unrecoverable one (R381). -/
def State.unitStrike (s : State) (kind n : Nat) (e : Option Nat) (unrecoverable : Bool) : State :=
  let u := s.unit kind n
  let mark := match e with
    | some k => k + 1
    | none => 0
  let second := mark != 0 && u.cutFaults == mark
  let s1 := s.modUnit kind n (fun x => { x with faults := satAdd 8 x.faults 1, cutFaults := mark })
  if unrecoverable || second then s1.retireUnit kind n (unitRow kind) 0 else s1

/-- A unit that has not been retired. -/
def State.unitHealthy (s : State) (kind n : Nat) : Bool := !(s.unit kind n).retired

/-- Dressers that have not been retired. -/
def State.healthyDressers (s : State) : List Nat := (List.range 4).filter (fun d => s.unitHealthy 5 d)

/-! ### Slabs of a U-cut (R283, R285, R294) -/

/-- The area of a U-cut. -/
def CutDesc.uArea (c : CutDesc) : UArea :=
  match c.area with
  | .u a => a
  | _ => default

/-- The area of an X-cut. -/
def CutDesc.xArea (c : CutDesc) : XArea :=
  match c.area with
  | .x a => a
  | _ => default

/-- Elements of a slab (R227, R283). -/
def slabLen : Nat := 4096

/-- The W-cut that makes the seam of a U- or X-cut: its SOURCE, or its SOURCE's own (R281, R323). -/
def State.sourceW (s : State) (d : CutDesc) : Nat :=
  match d.area with
  | .u a => match (s.descOf a.source).area with
    | .x x => x.source
    | _ => a.source
  | .x a => a.source
  | _ => 0

/-- Rows and columns of the seam of a U- or X-cut (R227). -/
def State.seamShape (s : State) (d : CutDesc) : Nat × Nat :=
  ((s.descOf (s.sourceW d)).axP, (s.descOf (s.sourceW d)).axL)

/-- Elements of the seam of a U- or X-cut. -/
def State.seamSize (s : State) (d : CutDesc) : Nat := (s.seamShape d).1 * (s.seamShape d).2

/-- Slabs of the seam of a U- or X-cut (R227). -/
def State.seamSlabs (s : State) (d : CutDesc) : Nat := ceilDiv (s.seamSize d) slabLen

/-- The dressers that a U-cut may use: the healthy ones of DRS_MASK, or with none left the lowest-numbered healthy
one (R283, R294, R381). -/
def State.dressersOf (s : State) (a : UArea) : List Nat :=
  let mine := (bitList a.drsMask 4).filter (fun d => s.unitHealthy 5 d)
  if mine.isEmpty then s.healthyDressers.take 1 else mine

/-- The dresser of a slab (R283): position i mod n, or the one that replays it after a dresser fault (R294). -/
def State.slabDresser (s : State) (e slab : Nat) : Option Nat :=
  let ds := s.dressersOf (s.cut e).desc.uArea
  match Tab.find (s.cut e).moved slab with
  | some d => if s.unitHealthy 5 d then some d else ds[slab % max ds.length 1]?
  | none => ds[slab % max ds.length 1]?

/-- The next dresser of a list after one, wrapping round. -/
def nextDresser (ds : List Nat) (d : Nat) : Option Nat :=
  match ds.find? (fun x => decide (d < x)) with
  | some x => some x
  | none => ds[0]?

/-- The run of a U-cut in a step: floor(s / p) (R285). -/
def CutDesc.runIndex (c : CutDesc) (step : Nat) : Nat := step / c.per

/-- The read buffer of a U-cut in a step (R285). -/
def CutDesc.readBuffer (c : CutDesc) (step : Nat) : Nat := (c.runIndex step + c.uArea.bufPhase) % 2

/-- The step of a cut's next run at or after a step (R180). -/
def CutDesc.nextStep (c : CutDesc) (step : Nat) : Nat :=
  let k := step / c.per * c.per + c.phase
  if step ≤ k then k else k + c.per

/-- The map of tensor `t` (0 master, 1 first moment, 2 second moment, 3 working) of a buffer (R284). -/
def CutRun.bufMap (c : CutRun) (buf t : Nat) : Option MapDesc := c.mapOf (4 * buf + t)

/-- The bit address of seam element `idx` in a weight map (R284): map index (k, i). -/
def weightAddr (m : MapDesc) (cols idx : Nat) : Nat :=
  (m.bitAddr [Int.ofNat (idx % max cols 1), Int.ofNat (idx / max cols 1), 0, 0, 0, 0]).toNat

/-! ### The gradient (R282, R316) -/

/-- Bytes of the yard from `a` on, as a number. -/
def State.yardNat (s : State) (a k : Nat) : Nat := leNat (Mem.readBytes s.yard.mem a k)

/-- First byte of a region. -/
def State.regionBase (s : State) (r : Nat) : Option Nat :=
  match s.image with
  | some i => (Tab.find i.regions r).map Region.base
  | none => none

/-- Element `idx` of a reduced seam of `slabs` slabs (R316): +0 where its block was not delivered. -/
def State.reducedElem (s : State) (base slabs idx : Nat) : Fp :=
  let hdr := base + 4096 * slabs + 32 * (idx / slabLen)
  if bit (s.yardNat hdr 16) (idx % slabLen / 32) then
    toF32 (w8Val (s.yardByte (base + idx)) (s.yardByte (hdr + 16)))
  else { code := 0, fl := 0 }

/-- The gradient of an element (R282): from the held seam, from the reduced result, or as it came from the backing
area of an evicted seam. -/
def State.gradient (s : State) (d : CutDesc) (idx : Nat) (given : Nat) : Fp :=
  let a := d.uArea
  match (s.descOf a.source).area with
  | .x x =>
    match s.regionBase x.resultRegion with
    | some base => s.reducedElem base (s.seamSlabs d) idx
    | none => { code := 0, fl := 0 }
  | _ =>
    match Tab.find s.seams a.seamId with
    | some m => if m.phase = .evicted then Fp.ofCode given else s.seamElem m idx
    | none => Fp.ofCode given

/-! ### The update (R289, R291, R292) -/

/-- The hyperparameter at an offset, as an FP32 code (R289). -/
def hyper (bs : List Byte) (off : Nat) : Fp := Fp.ofCode (field bs off 4)

/-- The hyperparameters of R289 that the update reads. -/
structure Hyper where
  lr : Fp
  wd : Fp
  b1 : Fp
  ob1 : Fp
  b2 : Fp
  ob2 : Fp
  eps : Fp
  c1 : Fp
  c2 : Fp
  gscale : Fp
  deriving DecidableEq, Repr

/-- The hyperparameter block decoded (R289). -/
def readHyper (bs : List Byte) : Hyper :=
  { lr := hyper bs 0x00, wd := hyper bs 0x04, b1 := hyper bs 0x08, ob1 := hyper bs 0x0C, b2 := hyper bs 0x10
    ob2 := hyper bs 0x14, eps := hyper bs 0x18, c1 := hyper bs 0x1C, c2 := hyper bs 0x20
    gscale := hyper bs 0x24 }

/-- sign(c): +1, −1, or +0 for either zero (R291). -/
def Fp.sign (c : Fp) : Fp :=
  match f32 c.code with
  | .nan => { code := fmtFp32.nanCode, fl := c.fl ||| flNan }
  | .num m _ => if m = 0 then { code := 0, fl := c.fl }
      else { code := if m < 0 then 0xBF800000 else 0x3F800000, fl := c.fl }

/-- What the update of an element writes. -/
structure Dressed where
  w : Fp
  m : Fp
  v : Fp
  deriving DecidableEq, Repr

/-- dress(r, w, m, v) (R291), one FP32 operation after the other. -/
def dress (opt : Nat) (h : Hyper) (r w m v : Fp) : Dressed :=
  let g := r.mul h.gscale
  if opt = 1 then
    let m1 := (h.b1.mul m).add (h.ob1.mul g)
    let v1 := (h.b2.mul v).add (h.ob2.mul (g.mul g))
    let d := (m1.mul h.c1).div ((v1.mul h.c2).sqrt.add h.eps)
    { w := w.sub (h.lr.mul (d.add (h.wd.mul w))), m := m1, v := v1 }
  else if opt = 2 then
    let m1 := (h.b1.mul m).add (g.add (h.wd.mul w))
    { w := w.sub (h.lr.mul m1), m := m1, v := v }
  else
    let c := (h.b1.mul m).add (h.ob1.mul g)
    { w := w.sub (h.lr.mul (c.sign.add (h.wd.mul w))), m := (h.b2.mul m).add (h.ob2.mul g), v := v }

/-- What a slab writes for one element: codes of w, m, v and the working weight, and the flags of its arithmetic. -/
structure SlabElem where
  w : Nat
  m : Nat
  v : Nat
  working : Nat
  fl : Nat
  deriving DecidableEq, Repr, Inhabited

/-- An element of a slab: copied bit for bit when frozen (R293), updated otherwise (R291). -/
def dressElem (opt : Nat) (h : Hyper) (frozen : Bool) (r : Fp) (x : DressElem) : SlabElem :=
  if frozen then { w := x.w, m := x.m, v := x.v, working := x.working, fl := 0 }
  else
    let d := dress opt h r (Fp.ofCode x.w) (Fp.ofCode x.m) (if opt = 1 then Fp.ofCode x.v else { code := x.v, fl := 0 })
    let wk := fmtBf16.encode (f32 d.w.code)
    { w := d.w.code, m := d.m.code, v := d.v.code, working := wk.code
      fl := roundFlags (d.w.fl ||| d.m.fl ||| (if opt = 1 then d.v.fl else 0) ||| wk.fl) }

/-! ### Writes and the drain (R288, R391) -/

/-- A drain in progress copies the buffer that a run of a U-cut writes (R288, R390): the read buffer of its next run
at the capture. -/
def State.drainsBuffer (s : State) (e buf : Nat) : Bool :=
  s.snap.phase == .draining &&
    match (s.cut s.snap.entry).desc.area with
    | .s a =>
      let d := (s.cut e).desc
      bit a.content 2 && d.readBuffer (d.nextStep (Tab.get 0 s.snap.cap.steps d.working)) == buf
    | _ => false

/-- A drain in progress copies the tailings of an X-cut (R390, R391). -/
def State.drainsTails (s : State) : Bool :=
  s.snap.phase == .draining &&
    match (s.cut s.snap.entry).desc.area with
    | .s a => bit a.content 3
    | _ => false

/-- Lines handed to their hoists. -/
def State.issue (s : State) (ws : List (Nat × LineWrite)) : State :=
  ws.foldl (fun t x => if x.1 < 128 then t.handOut x.1 [x.2] else t) s

/-- The writes of a slab wait until the drain has read the lines they overwrite. -/
def State.holdWrites (s : State) (e slab : Nat) (ws : List (Nat × LineWrite)) : State :=
  { s with snap := { s.snap with
      waiting := s.snap.waiting ++ [{ entry := e, slab := slab, writes := ws, since := s.nc }] } }

/-! ### SLAB_DONE -/

/-- The bytes of a slab's results in one map of the write buffer, under the hoist that carries them. -/
def slabWrites (slab cols first hoist : Nat) (m : Option MapDesc) (type : Nat) (codes : List Nat) :
    List (Nat × LineWrite) :=
  match m with
  | none => []
  | some m =>
    (gatherWrites slab ((codes.mapIdx (fun k c => placeCode type (weightAddr m cols (first + k)) c)).flatten)
      []).map (fun w => (hoist, w))

/-- A U-cut's entry counts (R297): SLABS and GUARDED, FROZEN and their flags. -/
def State.countSlab (s : State) (e : Nat) (guarded : Bool) (frozen : Nat) : State :=
  let s1 := s.modCut e (fun c => { c with
    kd1 := satAdd 16 (c.kd1 % 65536) 1 + 65536 * satAdd 16 (c.kd1 / 65536) (b2n guarded)
    kd2 := satAdd 32 c.kd2 frozen })
  s1.orFlags e ((if guarded then flag 25 else 0) + (if 0 < frozen then flag 24 else 0))

/-- A slab of a U-cut ends on a dresser: PROGRESS in slab order, and the dresser's own count (R283, R429). -/
def State.endSlab (s : State) (e d slab : Nat) : State :=
  (s.modUnit 5 d (fun u => { u with count := u.count + 1, busy := none })).itemDone e slab

/-- Slabs that the dresser of slab `i` has before it (R283). -/
def State.earlierSlabs (s : State) (e d slab : Nat) : Bool :=
  (List.range slab).all (fun k => s.slabDresser e k != some d || (s.cut e).done.contains k)

/-- SLAB_DONE: a dresser ends a slab; its writes go out, or wait for a drain (R283, R288, R291 to R293). -/
def State.slabDone (s : State) (e d slab : Nat) (elems : List DressElem) : State :=
  let c := s.cut e
  let a := c.desc.uArea
  let size := s.seamSize c.desc
  let cols := (s.seamShape c.desc).2
  let first := slab * slabLen
  if c.desc.kind = 4 ∧ c.phase = .running ∧ slab < s.seamSlabs c.desc ∧ c.done.contains slab = false ∧ s.slabDresser e slab = some d ∧
      s.running (unitTile 5 d) = true ∧ (s.unit 5 d).busy.isNone = true ∧ s.earlierSlabs e d slab = true ∧
      elems.length = min slabLen (size - first) then
    let rs := elems.mapIdx (fun k x => s.gradient c.desc (first + k) x.r)
    let guarded := a.nanGuard && rs.any (fun r => (f32 r.code).isNan)
    let frozenAt := fun k => nth false c.freeze ((first + k) / 32)
    let h := readHyper c.hyper
    let out := (List.zip rs elems).mapIdx (fun k x =>
      dressElem a.opt h (guarded || frozenAt k) x.1 x.2)
    let fl := out.foldl (fun acc x => acc ||| x.fl) 0
    let frozen := ((List.range (ceilDiv elems.length 32)).filter (fun k => frozenAt (32 * k))).length
    let buf := 1 - c.desc.readBuffer c.step
    let h2 := nth 0xFFFF c.desc.hoists 2
    let ws := slabWrites slab cols first h2 (c.bufMap buf 0) 4 (out.map SlabElem.w) ++
      slabWrites slab cols first h2 (c.bufMap buf 1) 4 (out.map SlabElem.m) ++
      slabWrites slab cols first h2 (c.bufMap buf 2) 4 (out.map SlabElem.v) ++
      slabWrites slab cols first (nth 0xFFFF c.desc.hoists 3) (c.bufMap buf 3) 3 (out.map SlabElem.working)
    let s1 := (s.orFlags e fl).countSlab e guarded frozen
    if s.drainsBuffer e buf then
      ((s1.orFlags e (flag 26)).holdWrites e slab ws).modUnit 5 d (fun u => { u with
        busy := some e, working := c.desc.working })
    else (s1.issue ws).endSlab e d slab
  else s

/-- SLAB_DONE (R291). -/
def execSlabDone (e : Fin 4096) (d : Fin 4) (slab : Nat) (elems : List DressElem) (s : State) :
    Host.Outcome State Fault Refusal := s.on (fun s => s.slabDone e.val d.val slab elems)

/-! ### SLAB_FAULT (R294, R295, R381) -/

/-- The row "Dresser, selector, drain or digest engine" of R364, counted from 0. -/
def haltUnit : Nat := 10

/-- SLAB_FAULT: the slab replays from its first element; a dresser fault counts against the dresser and moves the slab
to the next healthy one (R294, R295, R381). -/
def State.slabFault (s : State) (e d slab : Nat) (dresser : Bool) : State :=
  let c := s.cut e
  if c.desc.kind = 4 ∧ c.phase = .running ∧ s.slabDresser e slab = some d ∧ c.done.contains slab = false then
    let s1 := (s.orFlags e (flag flFaulted)).setStatus e 0x41
    if dresser then
      let s2 := s1.unitStrike 5 d (some e) false
      match nextDresser (s2.dressersOf c.desc.uArea) d with
      | some x => (s2.modCut e (fun c => { c with moved := Tab.set c.moved slab x })).setStatus e 0
      | none => s2.halt c.desc.working haltUnit d (some e)
    else s1.setStatus e 0
  else s

/-- SLAB_FAULT (R294). -/
def execSlabFault (e : Fin 4096) (d : Fin 4) (slab : Nat) (dresserFault : Bool) (s : State) :
    Host.Outcome State Fault Refusal := s.on (fun s => s.slabFault e.val d.val slab dresserFault)

/-! ### DRAIN_WAIT_END (R288, R391) -/

/-- Held writes of a slab go out: a U-cut's slab ends, and its wait counts in DRAIN_WAIT_NC (R288, R297). -/
def State.issueHeld (s : State) (x : HeldWrite) : State :=
  let s1 := s.issue x.writes
  if (s.cut x.entry).desc.kind = 4 then
    let s2 := s1.modCut x.entry (fun c => { c with kd3 := satAdd 32 c.kd3 (s.nc - x.since) })
    match s.slabDresser x.entry x.slab with
    | some d => s2.endSlab x.entry d x.slab
    | none => s2.itemDone x.entry x.slab
  else s1.modXrun x.entry (fun r => { r with keeper := Tab.drop r.keeper x.slab })

/-- Every held write goes out: the drain has ended. -/
def State.issueAllHeld (s : State) : State :=
  s.snap.waiting.foldl State.issueHeld { s with snap := { s.snap with waiting := [] } }

/-- DRAIN_WAIT_END: the drain has read the last line that a slab's writes overwrite; the read takes effect first, and
the writes go out (R288). -/
def State.drainWaitEnd (s : State) (e slab : Nat) : State :=
  let mine := s.snap.waiting.filter (fun x => x.entry == e && x.slab == slab)
  mine.foldl State.issueHeld { s with snap := { s.snap with
    waiting := s.snap.waiting.filter (fun x => !(x.entry == e && x.slab == slab)) } }

/-- DRAIN_WAIT_END (R288). -/
def execDrainWaitEnd (e : Fin 4096) (slab : Nat) (s : State) : Host.Outcome State Fault Refusal :=
  s.on (fun s => s.drainWaitEnd e.val slab)

end Sys2Proof.Machine
end

