-- ==== Sys2Proof/Machine/Reduce.lean ====
section
/-! DEFINITION. X-cuts: selection, tailings, agreed scales, the merge, the streams of a plan and the delivered result
(R307 to R319, R325). -/

namespace Sys2Proof.Machine

/-! ### Plans and messages (R306, R312, R313) -/

/-- A node with no parent (R306). -/
def Plan.isRoot (p : Plan) : Bool := p.parentPort == 0xFF

/-- Ports of a plan: parent and children. -/
def Plan.ports (p : Plan) : List Nat := (if p.isRoot then [] else [p.parentPort]) ++ bitList p.childMask 4

/-- Bytes added behind what a channel of a port has to send; `tail` closes the stream. -/
def State.pushTx (s : State) (p vc e : Nat) (bs : List Byte) (tail : Bool) : State :=
  s.modPort p (fun q => q.modChan vc (fun c => { c with tx := c.tx ++ [{ bytes := bs, tail := tail, cut := e }] }))

/-- A stream header (R313). -/
def streamHeader (seam plan step slabs run : Nat) : List Byte :=
  natLe seam 4 ++ natLe plan 4 ++ natLe step 4 ++ natLe slabs 2 ++ natLe run 2

/-- A slab message (R36, R313): blocks in ascending index, each with its 32 codes. -/
def slabMessage (slab : Nat) (down : Bool) (blocks : List (Nat × List Nat)) : List Byte :=
  natLe slab 4 ++ natLe blocks.length 1 ++ natLe (b2n down) 1 ++ natLe 0 2 ++
  (blocks.map (fun b => natLe b.1 1 ++ (List.range 32).map (fun k => BitVec.ofNat 8 (nth 0 b.2 k)))).flatten

/-- The block records of a slab message (R36). -/
def readBlocks (bs : List Byte) : Nat → List (Nat × List Nat)
  | 0 => []
  | k + 1 => (field bs 0 1 % 128, ((bs.drop 1).take 32).map BitVec.toNat) :: readBlocks (bs.drop 33) k

/-! ### Agreed scales (R309 to R311) -/

/-- The headroom of a level (R310). -/
def XArea.head (x : XArea) (d : Nat) : Int := if x.hrPreset = 0 then 1 else nth 0 x.headroom d

/-- The read copy's entry of a slab is unknown (R309, R325). -/
def CutRun.scaleUnknown (c : CutRun) (slab : Nat) : Bool := nth 0xFF c.scales slab == 0xFF

/-- e_w of a slab at a level (R310). -/
def CutRun.agreed (c : CutRun) (slab d : Nat) : Nat :=
  let x := c.desc.xArea
  let code := if c.scaleUnknown slab then x.initC else nth 0xFF c.scales slab
  (min (max ((code : Int) - 6 + x.head d) 0) 0xF7).toNat

/-- The scale code of a delivered slab (R311): `none` when nothing but zeros and NaN was delivered. -/
def deliveredCode (vs : List Val) : Nat :=
  let m := vs.foldl (fun a v => if v.isNan then a else a.maxAbs v) Val.zero
  if m.isZero then 0xFF else (min (max (m.log2 + 127) 0) 254).toNat

/-! ### Selection (R307) -/

/-- `a` ranks above `b`: a NaN above every number, all NaNs equal (R41, R307). -/
def ranksAbove (a b : Val) : Bool :=
  match a, b with
  | .nan, .nan => false
  | .nan, _ => true
  | _, .nan => false
  | a, b => b.abs.lt a.abs

/-- The block that ranks first, the lower index among equals. -/
def bestBlock : List (Nat × Val) → Option (Nat × Val)
  | [] => none
  | x :: xs =>
    match bestBlock xs with
    | some y => if ranksAbove y.2 x.2 then some y else some x
    | none => some x

/-- The first `k` blocks in rank order. -/
def topBlocks : Nat → List (Nat × Val) → List Nat
  | 0, _ => []
  | k + 1, xs =>
    match bestBlock xs with
    | none => []
    | some b => b.1 :: topBlocks k (xs.filter (fun x => x.1 != b.1))

/-- The largest magnitude of a block; NaN ranks highest. -/
def blockMax (vs : List Nat) (b : Nat) : Val :=
  ((vs.drop (32 * b)).take 32).foldl (fun a c => a.maxAbs (f32 c)) Val.zero

/-- k of an X-cut (R307). -/
def XArea.topK (x : XArea) : Nat := if x.k = 0 then 8 else x.k

/-- The selected blocks of a slab, ascending (R307). -/
def selectBlocks (k : Nat) (vs : List Nat) (frozen : Nat → Bool) : List Nat :=
  let cands := (List.range (ceilDiv vs.length 32)).map (fun b => (b, blockMax vs b))
  let picked := topBlocks k (cands.filter (fun x => !frozen x.1 && !(x.2.isZero)))
  (List.range 128).filter (fun b => picked.contains b)

/-! ### Encoding (R37, R315) -/

/-- One element encoded: code, residual as an FP32 code, whether it was clamped, whether it is a NaN. -/
structure Coded where
  q : Nat
  res : Fp
  clamped : Bool
  nan : Bool
  deriving DecidableEq, Repr, Inhabited

/-- The W8 encode of an FP32 code under e_w (R37). -/
def encodeW8 (ew c : Nat) : Coded :=
  let v := f32 c
  let r := toW8 v ew
  let exact := match v with
    | .nan => 0
    | .num m e => rneAt m e ((ew : Int) - 127)
  { q := r.1, res := toF32 r.2, clamped := !v.isNan && decide (127 < exact.natAbs), nan := v.isNan }

/-- The blocks of a slab encoded: block, and its 32 elements. -/
def encodeBlocks (ew : Nat) (blocks : List (Nat × List Nat)) : List (Nat × List Coded) :=
  blocks.map (fun b => (b.1, b.2.map (encodeW8 ew)))

/-- The codes of encoded blocks. -/
def codesOf (bs : List (Nat × List Coded)) : List (Nat × List Nat) := bs.map (fun b => (b.1, b.2.map Coded.q))

/-- What an encode adds to a record (R325): SENT, CLAMPED and their flags, and NAN (R315). -/
def State.countEncode (s : State) (e : Nat) (bs : List (Nat × List Coded)) : State :=
  let all := (bs.map Prod.snd).flatten
  let clamped := (all.filter Coded.clamped).length
  (s.modCut e (fun c => { c with kd1 := satAdd 32 c.kd1 bs.length, kd2 := satAdd 32 c.kd2 clamped })).orFlags e
    ((if 0 < clamped then flag 24 else 0) + (if all.any Coded.nan then flag 2 else 0))

/-! ### Tailings (R308, R391) -/

/-- The lines of a slab's tailings in TAIL_MAP (R308). -/
def State.tailWrites (s : State) (e slab : Nat) (vals : List Nat) : List (Nat × LineWrite) × Nat :=
  let c := s.cut e
  match Tab.find c.maps c.desc.xArea.tailMap with
  | none => ([], 0)
  | some m =>
    let cols := (s.seamShape c.desc).2
    let rs := vals.map (fun v => fmtBf16.encode (f32 v))
    let bytes := (rs.mapIdx (fun k r => placeCode 3 (weightAddr m cols (slab * slabLen + k)) r.code)).flatten
    ((gatherWrites (s.seamSlabs c.desc + slab) bytes []).map (fun w => (nth 0xFFFF c.desc.hoists 2, w)),
      rs.foldl (fun a r => a ||| roundFlags r.fl) 0)

/-- A slab has finished at this chip: its tailings go out, or wait for a drain that still reads them (R308, R391). -/
def State.finishTail (s : State) (e slab : Nat) : State :=
  match Tab.find (s.xrun e).keeper slab with
  | none => s
  | some k =>
    let ws := s.tailWrites e slab k.vals
    let s1 := s.orFlags e ws.2
    if s.drainsTails then
      (s1.holdWrites e slab ws.1).modXrun e (fun r => { r with keeper := Tab.set r.keeper slab { k with finished := true } })
    else (s1.issue ws.1).modXrun e (fun r => { r with keeper := Tab.drop r.keeper slab })

/-- Clamp excesses of a node with children join the tailings (R308, R315). -/
def addExcess (vals : List Nat) (bs : List (Nat × List Coded)) : List Nat :=
  bs.foldl (fun vs b => (b.2.zipIdx).foldl (fun us x =>
    if x.1.clamped then
      let i := b.1 * 32 + x.2
      us.set i (Fp.add (Fp.ofCode (nth 0 us i)) x.1.res).code
    else us) vs) vals

/-! ### Sending and delivering an encoded slab (R312) -/

/-- The last slab of a stream. -/
def XRun.lastSlab (r : XRun) (slab : Nat) : Bool := slab + 1 == r.slabs

/-- A slab message to the parent. -/
def State.sendUp (s : State) (e slab : Nat) (blocks : List (Nat × List Nat)) : State :=
  let r := s.xrun e
  s.pushTx r.plan.parentPort (s.cut e).desc.xArea.vc e (slabMessage slab false blocks) (r.lastSlab slab)

/-- A slab message to every child. -/
def State.sendDown (s : State) (e slab : Nat) (blocks : List (Nat × List Nat)) : State :=
  let r := s.xrun e
  (bitList r.plan.childMask 4).foldl (fun t p =>
    t.pushTx p (s.cut e).desc.xArea.vc e (slabMessage slab true blocks) (r.lastSlab slab)) s

/-- Block mask of a list of blocks. -/
def maskOf (blocks : List (Nat × List Nat)) : Nat := blocks.foldl (fun a b => setBit a b.1) 0

/-- A result slab that waits to be written. -/
def State.addDown (s : State) (e slab scale : Nat) (blocks : List (Nat × List Nat)) : State :=
  s.modXrun e (fun r => { r with
    down := r.down ++ [{ slab := slab, scale := scale, mask := maskOf blocks, blocks := blocks }] })

/-- An encoded slab goes where its node sends it: up, or at the root down to every child and into the result. -/
def State.emit (s : State) (e slab ew : Nat) (bs : List (Nat × List Coded)) : State :=
  let codes := codesOf bs
  let s1 := s.countEncode e bs
  if (s.xrun e).plan.isRoot then (s1.sendDown e slab codes).addDown e slab ew codes
  else s1.sendUp e slab codes

/-- The level at which a node encodes (R310): its depth, or 0 at the root. -/
def XRun.level (r : XRun) : Nat := if r.plan.isRoot then 0 else r.plan.depth

/-! ### The merge (R314) -/

/-- Entries of a merge memory. -/
def mergeEntries : Nat := 128

/-- Entries in use of a sluice's merge memory. -/
def State.mergeUsed (s : State) (port : Nat) : Nat :=
  ((List.filter (fun x : Nat × XRun => x.2.plan.mergePort == port) s.xruns).map (fun x => x.2.merge.length)).sum

/-- The oldest slab that is not encoded. -/
def XRun.oldest (r : XRun) : Option Nat := (List.range r.slabs).find? (fun k => !r.encoded.contains k)

/-- A contribution of a slab may enter the merge memory (R314). -/
def State.canMerge (s : State) (e slab : Nat) : Bool :=
  let r := s.xrun e
  let used := s.mergeUsed r.plan.mergePort
  (Tab.find r.merge slab).isSome || decide (used + 1 < mergeEntries) ||
    (decide (used < mergeEntries) && r.oldest == some slab)

/-- An empty entry. -/
def MergeSlab.empty : MergeSlab := { own := false, children := 0, mask := 0, acc := [] }

/-- A contribution added to an entry: blocks of FP32 codes; the flags of the additions. -/
def MergeSlab.add (m : MergeSlab) (blocks : List (Nat × List Nat)) : MergeSlab × Nat :=
  blocks.foldl (fun (a : MergeSlab × Nat) b =>
    let had := bit a.1.mask b.1
    let r := (b.2.zipIdx).foldl (fun (x : Tab Nat × Nat) c =>
      let i := b.1 * 32 + c.2
      if had then
        let v := Fp.add (Fp.ofCode (Tab.get 0 x.1 i)) (Fp.ofCode c.1)
        (Tab.set x.1 i v.code, x.2 ||| v.fl)
      else (Tab.set x.1 i c.1, x.2)) (a.1.acc, a.2)
    ({ a.1 with mask := setBit a.1.mask b.1, acc := r.1 }, r.2)) (m, 0)

/-- A contribution enters a slab's entry: the own one, or a child's (R314). -/
def State.contribute (s : State) (e slab : Nat) (child : Option Nat) (blocks : List (Nat × List Nat)) : State :=
  let m := Tab.get MergeSlab.empty (s.xrun e).merge slab
  let r := m.add blocks
  let m1 := match child with
    | some p => { r.1 with children := setBit r.1.children p }
    | none => { r.1 with own := true }
  (s.modXrun e (fun x => { x with merge := Tab.set x.merge slab m1 })).orFlags e (roundFlags r.2)

/-- The blocks of a node's own selected elements, as FP32 codes padded to 32. -/
def ownBlocks (vs : List Nat) (sel : List Nat) : List (Nat × List Nat) :=
  sel.map (fun b => (b, (List.range 32).map (fun k => nth 0 vs (32 * b + k))))

/-! ### SELECTOR_SLAB (R307, R308, R312) -/

/-- The selector that an X-cut uses (R307, R381): SEL, or the lowest-numbered healthy one when SEL is retired. -/
def State.selectorOf (s : State) (x : XArea) : Option Nat :=
  if s.unitHealthy 6 x.sel then some x.sel else (List.range 4).find? (fun i => s.unitHealthy 6 i)

/-- The values of a slab as the selector receives them (R233, R307): from the held seam, or as they came from the
backing area of an evicted one. -/
def State.slabVals (s : State) (d : CutDesc) (slab : Nat) (evicted : List Nat) : List Fp :=
  let n := min slabLen (s.seamSize d - slab * slabLen)
  match Tab.find s.seams d.xArea.seamId with
  | some m => (List.range n).map (fun k =>
      if m.phase = .evicted then Fp.ofCode (nth 0 evicted k) else s.seamElem m (slab * slabLen + k))
  | none => (List.range n).map (fun k => Fp.ofCode (nth 0 evicted k))

/-- The tailing that an element leaves with the selector (R308). -/
def tailOf (ew : Nat) (leaf : Bool) (selected : Bool) (c : Nat) : Nat :=
  if (f32 c).isNan then 0
  else if !selected then c
  else if leaf then (encodeW8 ew c).res.code
  else 0

/-- SELECTOR_SLAB: the selector delivers the next slab's selected blocks. A leaf, or a root without children, encodes
them; a node with children adds them to its merge, and waits while that or the keeper is full (R307, R308, R312,
R314). -/
def State.selectorSlab (s : State) (e slab : Nat) (evicted : List Nat) : State :=
  let c := s.cut e
  let x := c.desc.xArea
  let r := s.xrun e
  let leaf := r.plan.childMask == 0
  if c.desc.kind = 5 ∧ c.phase = .running ∧ slab = r.selected ∧ slab < r.slabs ∧ r.keeper.length < 64 ∧
      (leaf = true ∨ s.canMerge e slab = true) then
    let fs := s.slabVals c.desc slab evicted
    let vs := fs.map Fp.code
    let frozen := fun b => nth false c.freeze (slab * 128 + b)
    let sel := selectBlocks x.topK vs frozen
    let ew := c.agreed slab r.level
    let spoil := (List.range (ceilDiv vs.length 32)).any frozen
    let fl := fs.foldl (fun a v => a ||| roundFlags v.fl) 0 ||| (if spoil then flag 27 else 0) |||
      (if c.scaleUnknown slab then flag 25 else 0) ||| (if vs.any (fun v => (f32 v).isNan) then flag 2 else 0)
    let tail := vs.mapIdx (fun k v => tailOf ew leaf (sel.contains (k / 32)) v)
    let s1 := (s.orFlags e fl).modXrun e (fun r => { r with
      selected := r.selected + 1, keeper := Tab.set r.keeper slab { vals := tail, finished := false } })
    let s2 := match s.selectorOf x with
      | some i => s1.modUnit 6 i (fun u => { u with count := u.count + 1 })
      | none => s1
    let own := ownBlocks vs sel
    if leaf then
      ((s2.emit e slab ew (encodeBlocks ew own)).modXrun e (fun r => { r with
        encoded := slab :: r.encoded })).finishTail e slab
    else s2.contribute e slab none own
  else s

/-- SELECTOR_SLAB (R307). -/
def execSelectorSlab (e : Fin 4096) (slab : Nat) (evicted : List Nat) (s : State) :
    Host.Outcome State Fault Refusal := s.on (fun s => s.selectorSlab e.val slab evicted)

/-! ### Streams received (R304, R312, R314) -/

/-- Bytes of the stream at the head of a channel, through its TAIL frame. -/
def streamBytes : List RxPiece → List Byte
  | [] => []
  | x :: xs => if x.tail then x.bytes else x.bytes ++ streamBytes xs

/-- The stream at the head of a channel has arrived whole. -/
def streamWhole (rx : List RxPiece) : Bool := rx.any (fun x => x.tail)

/-- `n` bytes taken from the head of a channel: the frames left, the frames freed, and whether the stream's TAIL frame
was among them. -/
def dropRx : Nat → List RxPiece → List RxPiece × Nat × Bool
  | _, [] => ([], 0, false)
  | n, x :: xs =>
    if x.bytes.length ≤ n then
      if x.tail then (xs, 1, true)
      else
        let r := dropRx (n - x.bytes.length) xs
        (r.1, r.2.1 + 1, r.2.2)
    else ({ x with bytes := x.bytes.drop n } :: xs, 0, false)

/-- `n` bytes consumed from a channel (R304): a stream whose last byte is taken is over. -/
def Channel.consume (c : Channel) (n : Nat) : Channel :=
  let r := dropRx n c.rx
  { c with rx := r.1, freed := c.freed + r.2.1, accepted := if r.2.2 then none else c.accepted }

/-- The rest of a channel's accepted stream is discarded through its TAIL frame (R320, R321). -/
def Channel.discardRest (c : Channel) : Channel :=
  if streamWhole c.rx then
    { c with rx := c.rx.drop (throughTail c.rx), freed := c.freed + throughTail c.rx, accepted := none
             discarding := false }
  else { c with rx := [], freed := c.freed + c.rx.length, accepted := none, discarding := true }

/-- The decoded blocks of a child's message (R37, R314). -/
def decodeBlocks (ew : Nat) (blocks : List (Nat × List Nat)) : List (Nat × List Nat) :=
  blocks.map (fun b => (b.1, b.2.map (fun q => (toF32 (w8Val q ew)).code)))

/-- The next slab message of an accepted stream, when it has landed whole: slab, blocks and length. -/
def nextMessage (bs : List Byte) : Option (Nat × List (Nat × List Nat) × Nat) :=
  let n := 8 + 33 * field bs 4 1
  if bs.length < 8 ∨ bs.length < n then none
  else some (field bs 0 4, readBlocks (bs.drop 8) (field bs 4 1), n)

/-- Slab messages of an accepted stream enter the merge or the result, as long as there is room, `fuel` at most. -/
def State.feedN (s : State) (p vc : Nat) : Nat → State
  | 0 => s
  | k + 1 =>
    let ch := (s.port p).chan vc
    match ch.accepted with
    | none => s
    | some e =>
      if (s.cut e).phase = .running ∧ (s.cut e).desc.kind = 5 then
        match nextMessage (streamBytes ch.rx) with
        | none => if streamWhole ch.rx then s.modPort p (fun q => q.modChan vc Channel.discardRest) else s
        | some (slab, blocks, n) =>
          let r := s.xrun e
          let s1 := s.modPort p (fun q => q.modChan vc (fun c => c.consume n))
          if r.plan.parentPort = p then
            State.feedN (s1.addDown e slab ((s.cut e).agreed slab 0) blocks) p vc k
          else if s.canMerge e slab then
            State.feedN (s1.contribute e slab (some p)
              (decodeBlocks ((s.cut e).agreed slab (r.plan.depth + 1)) blocks)) p vc k
          else s
      else s

/-- What has landed on a channel of a port is taken by the cut that accepted its stream. -/
def State.feed (s : State) (p vc : Nat) : State :=
  s.feedN p vc ((streamBytes ((s.port p).chan vc).rx).length / 8 + 1)

/-- What has landed on the ports of an X-cut's plan is taken. -/
def State.feedCut (s : State) (e : Nat) : State :=
  ((s.xrun e).plan.ports).foldl (fun t p => t.feed p (s.cut e).desc.xArea.vc) s

/-! ### MERGE_SLAB_COMPLETE (R314, R315) -/

/-- The blocks of a complete entry, ascending. -/
def MergeSlab.blocks (m : MergeSlab) : List (Nat × List Nat) :=
  (bitList m.mask 128).map (fun b => (b, (List.range 32).map (fun k => Tab.get 0 m.acc (32 * b + k))))

/-- MERGE_SLAB_COMPLETE: a slab with its own and every child's contribution is encoded and goes on; its entry is
freed, its clamp excesses join the tailings, and these are written (R308, R312, R314, R315). -/
def State.mergeComplete (s : State) (e slab : Nat) : State :=
  let c := s.cut e
  let r := s.xrun e
  match (if c.desc.kind = 5 ∧ c.phase = .running then Tab.find r.merge slab else none) with
  | none => s
  | some m =>
    if m.own && m.children == r.plan.childMask then
      let ew := c.agreed slab r.level
      let bs := encodeBlocks ew m.blocks
      let s1 := (s.emit e slab ew bs).modXrun e (fun x => { x with
        encoded := slab :: x.encoded, merge := Tab.drop x.merge slab
        keeper := match Tab.find x.keeper slab with
          | some k => Tab.set x.keeper slab { k with vals := addExcess k.vals bs }
          | none => x.keeper })
      (s1.finishTail e slab).feedCut e
    else s

/-- MERGE_SLAB_COMPLETE (R314). -/
def execMergeSlabComplete (e : Fin 4096) (slab : Nat) (s : State) : Host.Outcome State Fault Refusal :=
  s.on (fun s => s.mergeComplete e.val slab)

/-! ### RESULT_DELIVER (R311, R312, R316, R317) -/

/-- The index of the copy that an X-cut writes in a step (R309). -/
def CutDesc.writeCopy (c : CutDesc) (step : Nat) : Nat := 1 - c.runIndex step % 2

/-- A slab's result written into the region (R316). -/
def State.writeResult (s : State) (base slabs : Nat) (d : DownSlab) : State :=
  let s1 := d.blocks.foldl (fun t b =>
    t.putYard (base + 4096 * d.slab + 32 * b.1) (b.2.map (BitVec.ofNat 8))) s
  s1.putYard (base + 4096 * slabs + 32 * d.slab) (natLe d.mask 16 ++ natLe d.scale 1 ++ natLe 0 15)

/-- A slab's scale code written into the write copy of the scale table (R311). -/
def State.writeScale (s : State) (e slab code : Nat) : State :=
  let c := s.cut e
  match Tab.find c.maps c.desc.xArea.scaleMap with
  | none => s
  | some m =>
    let b := (m.bitAddr [Int.ofNat slab, Int.ofNat (c.desc.writeCopy c.step), 0, 0, 0, 0]).toNat
    s.issue ((gatherWrites ((s.xrun e).slabs + slab) (placeCode 7 b code) []).map (fun w =>
      (nth 0xFFFF c.desc.hoists 5, w)))

/-- RESULT_DELIVER: the next slab's result is written into the region with its scale code, a node sends it on to its
children, and the slab is delivered (R311, R312, R316, R317). -/
def State.resultDeliver (s : State) (e slab : Nat) : State :=
  let c := s.cut e
  let r := s.xrun e
  match r.down.find? (fun d => d.slab == slab), s.regionBase c.desc.xArea.resultRegion with
  | some d, some base =>
    if c.desc.kind = 5 ∧ c.phase = .running ∧ slab = r.delivered then
      let vals := (d.blocks.map (fun b => b.2.map (fun q => w8Val q d.scale))).flatten
      let s1 := ((s.writeResult base r.slabs d).writeScale e slab (deliveredCode vals)).modCut e (fun c =>
        { c with kd3 := max c.kd3 d.blocks.length })
      let s2 := if r.plan.isRoot then s1 else s1.sendDown e slab d.blocks
      ((s2.modXrun e (fun x => { x with
        delivered := x.delivered + 1, down := x.down.filter (fun y => y.slab != slab) })).itemDone e slab).feedCut e
    else s
  | _, _ => s

/-- RESULT_DELIVER (R316). -/
def execResultDeliver (e : Fin 4096) (slab : Nat) (s : State) : Host.Outcome State Fault Refusal :=
  s.on (fun s => s.resultDeliver e.val slab)

end Sys2Proof.Machine
end

