-- ==== Sys2Proof/Machine/Link.lean ====
section
/-! DEFINITION. The link layer of a sluice port: frames, sequence numbers, credits, retries and retraining, control
messages, stream headers, and what the loss of a port does to the cuts that use it (R298 to R305, R313, R320,
R321). -/

namespace Sys2Proof.Machine

/-! ### Frames (R299) -/

/-- Frame types of R299. -/
def ftIdle : Nat := 0
/-- DATA (R299). -/
def ftData : Nat := 1
/-- CONTROL (R299). -/
def ftControl : Nat := 2
/-- RETRY (R299). -/
def ftRetry : Nat := 3

/-- The header and payload of a frame (R299). -/
structure FrameView where
  vc : Nat
  type : Nat
  tail : Bool
  seq : Nat
  ack : Nat
  credVc : Nat
  credTotal : Nat
  payload : List Byte
  deriving DecidableEq, Repr, Inhabited

/-- The 256 bytes of a frame, with its CRC-32C (R299). -/
def frameBytes (f : FrameView) : List Byte :=
  let hdr := natLe (f.vc + f.type * 8 + b2n f.tail * 32 + f.seq * 256 + f.ack % 2 ^ 24 * 2 ^ 32 +
      f.credVc * 2 ^ 56) 8 ++ natLe (f.credTotal % 65536 + f.payload.length * 65536) 4
  let body := hdr ++ f.payload ++ List.replicate (240 - f.payload.length) 0
  body ++ natLe (crc32c body).toNat 4

/-- The frame that 256 bytes hold; `none` when the CRC does not match (R299, R300). -/
def readFrame (bs : List Byte) : Option FrameView :=
  let body := bs.take 252
  if bs.length = 256 ∧ field bs 252 4 = (crc32c body).toNat then
    let w := field bs 0 8
    let v := field bs 8 4
    some { vc := bits w 2 0, type := bits w 4 3, tail := bit w 5, seq := bits w 31 8, ack := bits w 55 32
           credVc := bits w 58 56, credTotal := v % 65536, payload := (bs.drop 12).take (bits v 23 16) }
  else none

/-- The next sequence number (R300). -/
def nextSeq (n : Nat) : Nat := (n + 1) % 2 ^ 24

/-! ### Messages (R302) -/

/-- A HELLO (R302). -/
def helloMsg (sysId port : Nat) : List Byte :=
  natLe 1 8 ++ natLe sysId 8 ++ natLe port 1 ++ natLe 1 1

/-- A CLOSE (R302). -/
def closeMsg : List Byte := natLe 2 1

/-- A BROKEN (R302). -/
def brokenMsg (plan step sysId port : Nat) : List Byte :=
  natLe 3 4 ++ natLe plan 4 ++ natLe step 8 ++ natLe sysId 8 ++ natLe port 1

/-- A MOVE (R302). -/
def moveMsg (plan step : Nat) : List Byte := natLe 4 4 ++ natLe plan 4 ++ natLe step 8

/-- SYS_ID of the image in force (R306). -/
def State.sysId (s : State) : Nat :=
  match s.image with
  | some i => i.sysId
  | none => 0

/-- The link layer of a port runs (R302). -/
def PortState.linked (st : PortState) : Bool := st == .training || st == .up || st == .miswired

/-- A message queued on a port whose link layer runs. -/
def State.sendCtl (s : State) (p : Nat) (msg : List Byte) : State :=
  if (s.port p).st.linked then s.modPort p (fun q => { q with txCtl := q.txCtl ++ [msg] }) else s

/-! ### Port states -/

/-- A port's state changes, with a log record (R446). -/
def State.setPort (s : State) (p : Nat) (st : PortState) : State :=
  if (s.port p).st = st then s
  else (s.modPort p (fun q => { q with st := st })).logEvt 0x0501 (p + portCode st * 16) ((s.port p).peer.toNat)

/-- The frames of whole streams; those of a stream whose TAIL has not come are dropped. -/
def wholeStreams (rx : List RxPiece) : List RxPiece := (rx.reverse.dropWhile (fun x => !x.tail)).reverse

/-- A link layer that starts afresh: numbers, replay and credits from 0; held frames stay (R299, R321; log entry
23). -/
def Port.linkReset (q : Port) : Port :=
  { q with
    rxNext := 0, txNext := 0, replay := [], resend := none, retry := false, waiting := false, rxCtl := [],
    txCtl := [], helloSeq := none, helloAcked := false, helloGood := false, turn := 0, credTurn := 0
    retryTimes := [], trained := false
    chans := q.chans.map (fun c : Nat × Channel => (c.1, { c.2 with
      tx := [], rx := wholeStreams c.2.rx, sent := 0, peerFreed := 0, freed := 0, sending := none, accepted := none
      discarding := false })) }

/-! ### Cuts that use a port (R321) -/

/-- Ports that a running cut uses: those of its plan, those of its ring, or a V-cut's (R321, R397). -/
def State.cutPorts (s : State) (e : Nat) : List Nat :=
  match (s.cut e).desc.area with
  | .x _ => (s.xrun e).plan.ports
  | .a a => if 1 < a.ring then distinct [a.portNext, a.portPrev] else []
  | .v v => [v.port]
  | _ => []

/-- Channels that a cut uses. -/
def CutDesc.cutVcs (d : CutDesc) : List Nat :=
  match d.area with
  | .x x => [x.vc]
  | .a a => [a.vcKv, a.vcDkv]
  | _ => []

/-- GROUP_PLAN_ID that a cut's BROKEN names; 0 for a ring (R302). -/
def State.groupOf (s : State) (e : Nat) : Nat :=
  match (s.cut e).desc.area with
  | .x _ => (s.xrun e).plan.groupId
  | _ => 0

/-- A cut's streams on a channel end with it (R313, R321): a stream begun is closed by an empty TAIL frame, one not begun
is not sent, and the rest of an accepted stream is discarded. -/
def Channel.closeFor (c : Channel) (e : Nat) : Channel :=
  let others := c.tx.filter (fun x => x.cut != e)
  let tx := if c.sending = some e then { bytes := [], tail := true, cut := e } :: others else others
  let c1 := { c with tx := tx }
  if c.accepted = some e then c1.discardRest else c1

/-- A cut that has lost a port ends with 0x50: BROKEN on its other ports, its streams closed or discarded (R321). -/
def State.loseCut (s : State) (e p : Nat) (msg : List Byte) : State :=
  let ports := s.cutPorts e
  let s1 := (ports.filter (· != p)).foldl (fun t q => t.sendCtl q msg) s
  let s2 := ports.foldl (fun t q => (s.cut e).desc.cutVcs.foldl (fun u v =>
    u.modPort q (fun x => x.modChan v (fun c => c.closeFor e))) t) s1
  s2.breakCut e

/-- A drain whose stream went out on a lost port sends it again from its first record (R392, R393). -/
def State.resend (s : State) (p : Nat) : State :=
  s.liveCuts.foldl (fun t e => match (t.cut e).desc.area with
    | .s a => if a.mode = 1 ∧ a.port = p then t.modCut e (fun c => { c with items := 0 }) else t
    | _ => t) s

/-- Every cut that uses a port and has not written its final status loses it (R321, R397). -/
def State.portLoss (s0 : State) (p : Nat) : State :=
  let s := s0.resend p
  (s.liveCuts.filter (fun e => (s.cutPorts e).contains p)).foldl (fun t e =>
    t.loseCut e p (brokenMsg (t.groupOf e) (t.cut e).step t.sysId p)) s

/-- A stream header that differs is the loss of its port to the X-cuts and A-cuts that use it (R320, R321; log entry
66). -/
def State.headerLoss (s : State) (p : Nat) : State :=
  (s.liveCuts.filter (fun e => (s.cutPorts e).contains p && (s.cut e).desc.kind != 7)).foldl (fun t e =>
    t.loseCut e p (brokenMsg (t.groupOf e) (t.cut e).step t.sysId p)) s

/-- A port goes down (R301, R321). -/
def State.portDown (s : State) (p : Nat) : State :=
  if (s.port p).st.linked then
    (s.portLoss p).setPort p .down |>.modPort p Port.linkReset
  else s

/-- A retrain is asked for (R301); a port whose datapath is retired stays down (R381). -/
def State.retrain (s : State) (p : Nat) : State :=
  match (if (s.unit 9 p).retired then PortState.disabled else (s.port p).st) with
  | .disabled => s
  | .down => ((s.modPort p Port.linkReset).setPort p .training)
  | _ => (s.modPort p (fun q => { q with trained := false })).setPort p .training

/-! ### RETRY (R300, R301) -/

/-- A RETRY sent: it is counted, and more than 16 within 2^16 night cycles ask for a retrain (R301). -/
def State.countRetry (s : State) (p : Nat) : State :=
  let times := s.nc :: (s.port p).retryTimes.filter (fun t => decide (s.nc < t + 2 ^ 16))
  let s1 := (s.modPort p (fun q => { q with retryTx := satAdd 32 q.retryTx 1, retryTimes := times })).healthEvent 2 1
  if 16 < times.length then (s1.modPort p (fun q => { q with retryTimes := [] })).retrain p else s1

/-- RETRY_REPEAT: the receiver that waits for a frame sends RETRY again (R300). -/
def State.retryRepeat (s : State) (p : Nat) : State :=
  if (s.port p).waiting then s.modPort p (fun q => { q with retry := true }) else s

/-- RETRY_REPEAT (R300). -/
def execRetryRepeat (p : Fin 4) (s : State) : Host.Outcome State Fault Refusal :=
  s.on (fun s => s.retryRepeat p.val)

/-! ### FRAME_SEND (R299, R300, R304, R305) -/

/-- Up to `n` bytes of one stream from the head of a channel's queue: bytes, whether they end the stream, what is left,
and the cut. -/
def takeTx : Nat → List TxPiece → List Byte × Bool × List TxPiece
  | _, [] => ([], false, [])
  | n, x :: xs =>
    if x.bytes.length ≤ n then
      if x.tail then (x.bytes, true, xs)
      else
        let r := takeTx (n - x.bytes.length) xs
        (x.bytes ++ r.1, r.2.1, r.2.2)
    else (x.bytes.take n, false, { x with bytes := x.bytes.drop n } :: xs)

/-- Channels in round-robin order from the turn on. -/
def turnOrder (turn : Nat) : List Nat := (List.range 8).map (fun k => (turn + k) % 8)

/-- The channel that sends next (R304, R305). -/
def State.nextChannel (s : State) (p : Nat) : Option Nat :=
  (turnOrder (s.port p).turn).find? (fun v =>
    !((s.port p).chan v).tx.isEmpty && decide (0 < s.credits p v))

/-- A frame on the lanes of a port: it carries ACK and the credit total of the next channel in turn (R299). An armed
injection corrupts its CRC (R444). -/
def State.putFrame (s : State) (p vc type : Nat) (tail : Bool) (seq : Nat) (payload : List Byte) : State :=
  let q := s.port p
  let bs := frameBytes { vc := vc, type := type, tail := tail, seq := seq, ack := q.rxNext, credVc := q.credTurn
                         credTotal := (q.chan q.credTurn).freed, payload := payload }
  let inj := s.monitor.armed.any (fun k => k == .frame ⟨p % 4, Nat.mod_lt _ (by decide)⟩)
  let s1 : State := if inj then { s with monitor := { s.monitor with
      armed := s.monitor.armed.filter (fun k => k != .frame ⟨p % 4, Nat.mod_lt _ (by decide)⟩) } } else s
  s1.modPort p (fun q => { q with
    credTurn := (q.credTurn + 1) % 8
    lastTx := if inj then bs.take 252 ++ (bs.drop 252).map (fun b => ~~~ b) else bs })

/-- A frame with a sequence number goes out and into the replay buffer (R300). -/
def State.sendNew (s : State) (p vc type : Nat) (tail : Bool) (payload : List Byte) : State :=
  let n := (s.port p).txNext
  (s.putFrame p vc type tail n payload).modPort p (fun q => { q with
    txNext := nextSeq n
    replay := q.replay ++ [{ vc := vc, type := type, tail := tail, seq := n, payload := payload }] })

/-- A DATA frame of a channel (R304, R313). -/
def State.sendData (s : State) (p v : Nat) : State :=
  let c := (s.port p).chan v
  let r := takeTx 240 c.tx
  let owner := match c.tx with
    | x :: _ => some x.cut
    | [] => none
  let s1 := (s.modPort p (fun q => { q.modChan v (fun c => { c with
    tx := r.2.2, sent := c.sent + 1, sending := if r.2.1 then none else owner }) with
      turn := (v + 1) % 8 })).sendNew p v ftData r.2.1 r.1
  match owner with
  | some e => if (s.cut e).desc.kind = 3 ∧ (s.cut e).live = true then s1.sweepA e else s1
  | none => s1

/-- The replay buffer has room (R300). -/
def Port.room (q : Port) : Bool := decide (q.replay.length < Config.linkFrames)

/-- A frame slot that may carry a DATA frame: at half rate every other one (R358), and none during a trip, while the
links send IDLE (R359). -/
def State.dataSlot (s : State) (p : Nat) : Bool :=
  !s.glb.tripped && !((s.port p).half && (s.port p).credTurn % 2 == 1)

/-- FRAME_SEND: RETRY, CONTROL, resent frames, DATA in round-robin, and IDLE when there is nothing else (R299,
R305). -/
def State.frameSend (s : State) (p : Nat) : State :=
  let q := s.port p
  if !q.st.linked || !q.trained then s
  else if q.retry then
    ((s.putFrame p 0 ftRetry false 0 []).modPort p (fun q => { q with retry := false })).countRetry p
  else
    match (if q.room then q.txCtl else []), q.resend with
    | msg :: rest, _ =>
      let n := q.txNext
      (s.sendNew p 7 ftControl false msg).modPort p (fun q => { q with
        txCtl := rest, helloSeq := if msg.take 1 = [1#8] then some n else q.helloSeq })
    | [], some k =>
      match (if s.dataSlot p then q.replay[k]? else none) with
      | some f => (s.putFrame p f.vc f.type f.tail f.seq f.payload).modPort p (fun q => { q with
          resend := if k + 1 < q.replay.length then some (k + 1) else none })
      | none => (s.putFrame p 0 ftIdle false 0 []).modPort p (fun q => { q with
          resend := if s.dataSlot p then none else q.resend })
    | [], none =>
      match (if q.st == .up && q.room && s.dataSlot p then s.nextChannel p else none) with
      | some v => s.sendData p v
      | none => s.putFrame p 0 ftIdle false 0 []

/-- FRAME_SEND (R305). -/
def execFrameSend (p : Fin 4) (s : State) : Host.Outcome State Fault Refusal := s.on (fun s => s.frameSend p.val)

/-! ### FRAME_RECEIVE (R300, R302, R304) -/

/-- Frames from `n` on in the replay buffer, by sequence number. -/
def replayFrom (n : Nat) : List Frame → List Frame
  | [] => []
  | f :: fs => if f.seq = n then f :: fs else replayFrom n fs

/-- The index of sequence number `n` in the replay buffer. -/
def replayIndex (n : Nat) (fs : List Frame) : Option Nat := fs.findIdx? (fun f => f.seq == n)

/-- The replay buffer after an ACK of everything before `n` (R300). -/
def acked (txNext n : Nat) (fs : List Frame) : List Frame :=
  if n = txNext then [] else if (replayIndex n fs).isSome then replayFrom n fs else fs

/-- A port up: its HELLO acknowledged and a matching one accepted (R302). -/
def State.checkUp (s : State) (p : Nat) : State :=
  let q := s.port p
  if q.st = .training ∧ q.trained = true ∧ q.helloAcked = true ∧ q.helloGood = true then s.setPort p .up else s

/-- ACK and credit total of an accepted frame (R299, R300, R304). -/
def State.takeAck (s : State) (p : Nat) (f : FrameView) : State :=
  let q := s.port p
  let left := acked q.txNext f.ack q.replay
  let gone := q.replay.length - left.length
  let hello := match q.helloSeq with
    | some n => q.helloAcked || (replayIndex n left).isNone
    | none => q.helloAcked
  (s.modPort p (fun q => { q.modChan f.credVc (fun c => { c with
      peerFreed := c.peerFreed + (f.credTotal + 65536 - c.peerFreed % 65536) % 65536 }) with
    replay := left, helloAcked := hello
    resend := match q.resend with
      | some k => if gone ≤ k then some (k - gone) else if left.isEmpty then none else some 0
      | none => none })).checkUp p

/-- A DATA frame reaches its channel; one of a stream that is being discarded is freed at once (R304, R321). -/
def State.takeData (s : State) (p : Nat) (f : FrameView) : State :=
  if ((s.port p).chan f.vc).discarding then
    s.modPort p (fun q => q.modChan f.vc (fun c => { c with freed := c.freed + 1, discarding := !f.tail }))
  else
    (s.modPort p (fun q => q.modChan f.vc (fun c => { c with
      rx := c.rx ++ [{ bytes := f.payload, tail := f.tail }] }))).feed p f.vc

/-- A frame is discarded: RETRY follows (R300). -/
def State.discardFrame (s : State) (p : Nat) : State :=
  s.modPort p (fun q => { q with discards := satAdd 32 q.discards 1, retry := true, waiting := true })

/-- FRAME_RECEIVE: a frame is accepted when its CRC matches and, for DATA and CONTROL, its SEQ is the one expected;
every other frame is discarded (R300). -/
def State.frameReceive (s : State) (p : Nat) (bytes : List Byte) : State :=
  if !(s.port p).st.linked || !(s.port p).trained then s
  else
    match readFrame bytes with
    | none => s.discardFrame p
    | some f =>
      if f.type = ftData ∨ f.type = ftControl then
        if f.seq = (s.port p).rxNext then
          let s1 := (s.modPort p (fun q => { q with rxNext := nextSeq f.seq, waiting := false, retry := false })).takeAck p f
          if f.type = ftData then s1.takeData p f
          else s1.modPort p (fun q => { q with rxCtl := q.rxCtl ++ [f.payload] })
        else s.discardFrame p
      else if f.type = ftRetry then
        let s1 := ((s.modPort p (fun q => { q with retryRx := satAdd 32 q.retryRx 1 })).healthEvent 2 1).takeAck p f
        s1.modPort p (fun q => { q with resend := if q.replay.isEmpty then none else some 0 })
      else s.takeAck p f

/-- FRAME_RECEIVE (R300). -/
def execFrameReceive (p : Fin 4) (bytes : List Byte) (s : State) : Host.Outcome State Fault Refusal :=
  s.on (fun s => s.frameReceive p.val bytes)

/-! ### RETRAIN_DONE and PORT_DOWN (R301) -/

/-- RETRAIN_DONE: after a success the replay buffer is sent again and HELLO follows; three failures in a row take the
port down (R301, R302). -/
def State.retrainDone (s : State) (p : Nat) (ok : Bool) : State :=
  let q := s.port p
  if q.st != .training || q.trained then s
  else
    let s1 := (s.modPort p (fun q => { q with retrains := satAdd 32 q.retrains 1 })).healthEvent 3 1
    if ok then
      s1.modPort p (fun q => { q with
        trained := true, fails := 0, resend := if q.replay.isEmpty then none else some 0
        txCtl := helloMsg s.sysId p :: q.txCtl, helloSeq := none, helloAcked := false, helloGood := false })
    else
      let s2 := s1.modPort p (fun q => { q with fails := satAdd 4 q.fails 1 })
      if 3 ≤ q.fails + 1 then s2.portDown p else s2

/-- RETRAIN_DONE (R301). -/
def execRetrainDone (p : Fin 4) (ok : Bool) (s : State) : Host.Outcome State Fault Refusal :=
  s.on (fun s => s.retrainDone p.val ok)

/-- PORT_DOWN: no frame has been accepted for 2^16 night cycles (R301). -/
def execPortDown (p : Fin 4) (s : State) : Host.Outcome State Fault Refusal := s.on (fun s => s.portDown p.val)

/-- SLC_CFG_RETRAIN (R301). -/
def execSlcCfgRetrain (p : Fin 4) (s : State) : Host.Outcome State Fault Refusal := s.on (fun s => s.retrain p.val)

/-! ### Messages received (R302, R321) -/

/-- The oldest message of a port, if it is of a kind; its frame is freed when it is taken (R304). -/
def State.popCtl (s : State) (p kind : Nat) : Option (List Byte × State) :=
  match (s.port p).rxCtl with
  | m :: rest => if field m 0 1 = kind then
      some (m, s.modPort p (fun q => { q.modChan 7 (fun c => { c with freed := c.freed + 1 }) with rxCtl := rest }))
    else none
  | [] => none

/-- HELLO: a matching one counts towards UP; another leaves the port miswired, sets GLB.EVT.LINK and logs both
identities (R302). -/
def State.hello (s : State) (p : Nat) : State :=
  match s.popCtl p 1, s.portEntry p with
  | some (m, s1), some t =>
    let id := field m 8 8
    let s2 := s1.modPort p (fun q => { q with peer := BitVec.ofNat 64 id })
    if id = t.peerSysId ∧ field m 16 1 = t.peerPort then
      let s3 := s2.modPort p (fun q => { q with helloGood := true })
      (if (s3.port p).st = .miswired then s3.setPort p .training else s3).checkUp p
    else
      (((s2.modPort p (fun q => { q with helloGood := false })).setEvt evLink).setPort p .miswired).logEvt 0x0501
        (p + portCode .miswired * 16) t.peerSysId
  | _, _ => s

/-- HELLO (R302). -/
def execHello (p : Fin 4) (s : State) : Host.Outcome State Fault Refusal := s.on (fun s => s.hello p.val)

/-- CLOSE: the port goes down; for a cut that uses it and has not ended this is a loss (R302, R321). -/
def State.closePort (s : State) (p : Nat) : State :=
  match s.popCtl p 2 with
  | some (_, s1) => s1.portDown p
  | none => s

/-- CLOSE (R302). -/
def execClose (p : Fin 4) (s : State) : Host.Outcome State Fault Refusal := s.on (fun s => s.closePort p.val)

/-- A running cut that a BROKEN of a plan, or of a ring (0), names on a port (R321). -/
def State.namedBy (s : State) (p plan e : Nat) : Bool :=
  (s.cutPorts e).contains p &&
  match (s.cut e).desc.area with
  | .x _ => s.groupOf e == plan
  | .a _ => plan == 0
  | _ => false

/-- BROKEN: the running cut of the plan or ring ends with 0x50 and passes the message on (R321). -/
def State.brokenPort (s : State) (p : Nat) : State :=
  match s.popCtl p 3 with
  | some (m, s1) => (s1.liveCuts.filter (s1.namedBy p (field m 4 4))).foldl (fun t e => t.loseCut e p m) s1
  | none => s

/-- BROKEN (R321). -/
def execBroken (p : Fin 4) (s : State) : Host.Outcome State Fault Refusal := s.on (fun s => s.brokenPort p.val)

/-! ### STREAM_HEADER (R320) -/

/-- The running X-cut whose plan uses a channel of a port and that has not accepted its stream there: a further stream is
the next X-cut's (R320). -/
def State.xcutOn (s : State) (p vc : Nat) : Option Nat :=
  s.liveCuts.find? (fun e => (s.cut e).desc.kind == 5 && (s.cut e).desc.xArea.vc == vc && (s.cutPorts e).contains p &&
    !(s.xrun e).heard.contains p)

/-- What a header means to a running X-cut (R320): 0 taken, 1 stale, 2 mismatch. -/
def State.headerCheck (s : State) (e : Nat) (h : List Byte) : Nat :=
  let c := s.cut e
  let r := s.xrun e
  let same := field h 0 4 == c.desc.xArea.seamId && field h 4 4 == r.plan.groupId && field h 8 4 == c.step % 2 ^ 32
  if same && field h 12 2 == r.slabs % 65536 && field h 14 2 == r.run % 65536 then 0
  else if same && decide (field h 14 2 < r.run) then 1
  else 2

/-- STREAM_HEADER: the stream at the head of a channel is taken, discarded as stale, or ends the X-cut (R320, R321). -/
def State.streamHead (s : State) (p vc : Nat) : State :=
  let ch := (s.port p).chan vc
  let bs := streamBytes ch.rx
  match s.xcutOn p vc with
  | none => s
  | some e =>
    if ch.accepted.isSome || ch.discarding || decide (bs.length < 16) then s
    else
      match s.headerCheck e bs with
      | 0 => ((s.modXrun e (fun r => { r with heard := p :: r.heard })).modPort p (fun q => q.modChan vc (fun c =>
          { c with accepted := some e }.consume 16))).feed p vc
      | 1 => s.modPort p (fun q => q.modChan vc Channel.discardRest)
      | _ => s.headerLoss p

end Sys2Proof.Machine
end

