-- ==== Sys2Proof/Machine/Modules.lean ====
section
/-! DEFINITION. Optical modules: lanes retired, modules flagged, plans moved, ports drained, insertion and removal
(R326 to R330). -/

namespace Sys2Proof.Machine

/-! ### Plans moved (R329) -/

/-- The plan of a working that runs on its ALT from the working's step on (R329). -/
def State.movedNow (s : State) (plan : Nat) (pl : Plan) : Bool :=
  match Tab.find s.moves plan with
  | some eff => decide (eff ≤ (s.work pl.working).step)
  | none => false

/-- The plan, and whether it is the ALT, that an X-cut of plan index `k` runs on in its working's step (R329). -/
def State.planFor (s : State) (k : Nat) : Option (Plan × Bool) :=
  match s.image with
  | none => none
  | some i =>
    match Tab.find i.plans k with
    | none => none
    | some pl =>
      if s.movedNow k pl then
        match Tab.find i.plans pl.alt with
        | some alt => some (alt, true)
        | none => some (pl, false)
      else some (pl, false)

/-- A module event in the log (R446). -/
def State.logModule (s : State) (p event arg : Nat) : State := s.logEvt 0x0502 (p + event * 16) arg

/-- A plan is to run on its ALT from a step on; X-cuts of it that started at or beyond that step end with 0x50 (R329). -/
def State.movePlan (s : State) (k eff : Nat) (pl : Plan) (p : Nat) : State :=
  let s1 := State.logModule { s with moves := Tab.set s.moves k eff } p 5 k
  (s1.liveCuts.filter (fun e => (s1.cut e).desc.kind == 5 && (s1.cut e).desc.xArea.plan == k &&
    (s1.xrun e).plan.groupId == pl.groupId && decide (eff ≤ (s1.cut e).step))).foldl (fun t e =>
      t.loseCut e 0xFF (brokenMsg (t.groupOf e) (t.cut e).step t.sysId p)) s1

/-- A flagged module's plans move to their ALT, two steps above the working's current step; a plan without an ALT and a
ring do not, and are logged (R329). -/
def State.movePlans (s : State) (p : Nat) : State :=
  match s.image with
  | none => s
  | some i =>
    let s1 := i.plans.foldl (fun t x =>
      if x.2.ports.contains p && (Tab.find t.moves x.1).isNone then
        if x.2.alt = 0xFFFF then t.logModule p 2 x.1
        else
          let eff := (t.work x.2.working).step + 2
          (x.2.ports.foldl (fun u q => u.sendCtl q (moveMsg x.2.groupId eff)) t).movePlan x.1 eff x.2 p
      else t) s
    let rings := i.cuts.any (fun c => match c.2.area with
      | .a a => decide (1 < a.ring) && (a.portNext == p || a.portPrev == p)
      | _ => false)
    if rings then s1.logModule p 2 0xFFFF else s1

/-- MOVE: the message is forwarded on the plan's other ports, and the plan's X-cuts run on its ALT from the effective
step on (R329). -/
def State.move (s : State) (p : Nat) : State :=
  match s.popCtl p 4, s.image with
  | some (m, s1), some i =>
    let id := field m 4 4
    let eff := field m 8 8
    i.plans.foldl (fun t x =>
      if x.2.groupId = id ∧ x.2.ports.contains p = true ∧ x.2.alt ≠ 0xFFFF ∧ (Tab.find t.moves x.1).isNone = true then
        (((x.2.ports.filter (· != p)).foldl (fun u q => u.sendCtl q m) t).movePlan x.1 eff x.2 p)
      else t) s1
  | some (_, s1), none => s1
  | none, _ => s

/-- MOVE (R329). -/
def execMove (p : Fin 4) (s : State) : Host.Outcome State Fault Refusal := s.on (fun s => s.move p.val)

/-! ### Drained ports (R330) -/

/-- A plan in force, or a cut that is running or eligible, uses a port (R330). -/
def State.portUsed (s : State) (p : Nat) : Bool :=
  (match s.image with
    | some i => i.plans.any (fun x => x.2.ports.contains p && !s.movedNow x.1 x.2)
    | none => false) ||
  s.cuts.any (fun x => (x.2.live || x.2.phase == .pending) &&
    match (s.descOf x.1).area with
    | .a a => decide (1 < a.ring) && (a.portNext == p || a.portPrev == p)
    | .x y => (match s.planFor y.plan with
      | some (pl, _) => pl.ports.contains p
      | none => false) || (s.cutPorts x.1).contains p
    | _ => false)

/-- DRAINED of every enabled port brought up to date: a port that becomes drained sets GLB.EVT.MODULE (R330). -/
def State.checkDrains (s : State) : State :=
  (List.range 4).foldl (fun t p =>
    let now := (t.port p).st != .disabled && !t.portUsed p
    if now && !(t.port p).drained then
      ((t.modPort p (fun q => { q with drained := true })).setEvt evModule).logModule p 3 0
    else t.modPort p (fun q => { q with drained := now })) s

/-! ### Flags and lanes (R327, R328) -/

/-- The state with a port's module changed. -/
def State.modModule (s : State) (p : Nat) (f : Module → Module) : State :=
  s.modPort p (fun q => { q with module := f q.module })

/-- A module is flagged for replacement (R328, R329). -/
def State.flagModule (s : State) (p : Nat) : State :=
  if (s.port p).module.flagged then s
  else
    ((((s.modModule p (fun m => { m with flagged := true })).setEvt evModule).logModule p 2 0).movePlans p).checkDrains

/-- SLC_CFG_FLAG (R328). -/
def execSlcCfgFlag (p : Fin 4) (s : State) : Host.Outcome State Fault Refusal := s.on (fun s => s.flagModule p.val)

/-- A lane in use is retired: the spare takes its place and the port retrains, or the module is flagged (R327). -/
def State.retireLane (s : State) (p lane : Nat) : State :=
  let m := (s.port p).module
  if !m.laneUsed lane || m.retired.contains lane then s
  else if m.spareFor = 0xF then
    (((s.modModule p (fun m => { m with spareFor := lane, retired := lane :: m.retired })).modSpare (fun x =>
      { x with laneSpare := Tab.set x.laneSpare p lane })).logRemap (unitArg 10 p 0 lane) 8 0).retrain p
  else s.flagModule p

/-! ### MODULE_POLL and LANE_LAYER_REPORT (R326 to R328) -/

/-- Tx bias rise over the reference in percent, rounded down (R430). -/
def biasRise (ref now : Nat) : Nat := if ref = 0 then 0 else min ((now - ref) * 100 / ref) 255

/-- A bias at or above its reference by a percentage (R327, R328). -/
def biasOver (ref now pct : Nat) : Bool := decide (ref * (100 + pct) ≤ now * 100)

/-- The limits of R327 broken by a lane's reading. -/
def laneBad (t : PortEntry) (ref : Nat) (r : LaneReading) : Bool := r.rxLow || biasOver ref r.bias t.biasLanePct

/-- The limits of R328 broken by a lane's reading. -/
def laneFlags (t : PortEntry) (ref : Nat) (r : LaneReading) : Bool :=
  decide (t.agePct ≤ r.age) || biasOver ref r.bias t.biasModPct

/-- MODULE_POLL: a module's state and lanes are read and held against the limits; a fault state is a port loss (R301,
R326 to R328). -/
def State.modulePoll (s : State) (p : Nat) (fault warning : Bool) (lanes : List LaneReading) : State :=
  let m := (s.port p).module
  match (if m.present then s.portEntry p else none) with
  | none => s
  | some t =>
    let ref := fun i => nth 0 m.refBias i
    let s1 := s.modModule p (fun m => { m with
      rise := lanes.mapIdx (fun i r => biasRise (ref i) r.bias), age := lanes.map LaneReading.age })
    if fault then s1.portDown p
    else
      let used := (lanes.zipIdx).filter (fun x => m.laneUsed x.2)
      let s2 := (used.filter (fun x => laneBad t (ref x.2) x.1)).foldl (fun u x => u.retireLane p x.2) s1
      if warning || used.any (fun x => laneFlags t (ref x.2) x.1) then s2.flagModule p else s2

/-- MODULE_POLL (R326). -/
def execModulePoll (p : Fin 4) (fault warning : Bool) (lanes : List LaneReading) (s : State) :
    Host.Outcome State Fault Refusal := s.on (fun s => s.modulePoll p.val fault warning lanes)

/-- LANE_LAYER_REPORT: lost alignment asks for a retrain; a fault on one lane, or a bit error ratio above the limit,
retires the lane (R301, R327). -/
def State.laneReport (s : State) (p : Nat) (r : LaneReport) : State :=
  match r with
  | .lostAlignment => if (s.port p).st.linked then s.retrain p else s
  | .fault l => s.retireLane p l.val
  | .errors l k =>
    match s.portEntry p with
    | some t => if 10 ^ (12 - t.berExp) < k then s.retireLane p l.val else s
    | none => s

/-- LANE_LAYER_REPORT (R301). -/
def execLaneLayerReport (p : Fin 4) (report : LaneReport) (s : State) : Host.Outcome State Fault Refusal :=
  s.on (fun s => s.laneReport p.val report)

/-! ### Insertion and removal (R330) -/

/-- MODULE_INSERT: identity is read; a suitable module of an enabled port is selected and released, another is logged and
its port stays down (R330). -/
def State.moduleInsert (s : State) (p : Nat) (identity : List Byte) (suitable : Bool) : State :=
  let enabled := (s.port p).st != .disabled
  let s1 := (s.modModule p (fun m => { m with
    present := true, identity := identity, selecting := suitable && enabled })).logModule p 0 0
  if suitable then s1 else s1.logModule p 4 0

/-- MODULE_INSERT (R330). -/
def execModuleInsert (p : Fin 4) (identity : List Byte) (suitable : Bool) (s : State) :
    Host.Outcome State Fault Refusal := s.on (fun s => s.moduleInsert p.val identity suitable)

/-- MODULE_READY: lane retirements clear, each lane's Tx bias becomes its reference, and the port trains (R330). -/
def State.moduleReady (s : State) (p : Nat) (bias : List Nat) : State :=
  let q := s.port p
  if q.module.selecting && q.st != .disabled then
    let s1 := (s.modModule p (fun m => { m with
      selecting := false, retired := [], spareFor := 0xF, refBias := bias, rise := [], age := [] })).modSpare
        (fun x => { x with laneSpare := Tab.drop x.laneSpare p })
    (s1.modPort p (fun q => { q with fails := 0 })).retrain p
  else s

/-- MODULE_READY (R330). -/
def execModuleReady (p : Fin 4) (bias : List Nat) (s : State) : Host.Outcome State Fault Refusal :=
  s.on (fun s => s.moduleReady p.val bias)

/-- MODULE_READY_TIMEOUT: the port stays down and the module is logged (R330). -/
def State.moduleTimeout (s : State) (p : Nat) : State :=
  if (s.port p).module.selecting then (s.modModule p (fun m => { m with selecting := false })).logModule p 4 0 else s

/-- MODULE_READY_TIMEOUT (R330). -/
def execModuleReadyTimeout (p : Fin 4) (s : State) : Host.Outcome State Fault Refusal :=
  s.on (fun s => s.moduleTimeout p.val)

/-- MODULE_REMOVE: the flag clears; a removal from a port in use is a port loss (R301, R328, R330). -/
def State.moduleRemove (s : State) (p : Nat) : State :=
  if (s.port p).module.present then
    ((s.modModule p (fun m => { m with
      present := false, flagged := false, selecting := false, identity := [], rise := [], age := [] })).logModule p 1
        0).portDown p
  else s

/-- MODULE_REMOVE (R330). -/
def execModuleRemove (p : Fin 4) (s : State) : Host.Outcome State Fault Refusal :=
  s.on (fun s => s.moduleRemove p.val)

end Sys2Proof.Machine
end

