-- ==== Sys2Proof/Machine/Reset.lean ====
section
/-! DEFINITION. Power, clock and foreman resets, the power-up order, the ready condition and the idle night
cycle (R353, R354, R356, R398, R402 to R412, R417). The HOST reset is in `Machine/Power.lean`. -/

namespace Sys2Proof.Machine

/-! ### Calibration and readiness -/

/-- FMAX_CAL of a face: 14 to 16 (R417); which of the three is free (log entry 5). -/
def faceFmaxCal (n : Nat) : Nat := 14 + Config.fmaxCal n % 3

/-- A face's stored aging (R357, R417). -/
def State.agingOf (s : State) (n : Nat) : Aging := Tab.get { offset := 0, reductions := 0 } s.nv.aging n

/-- A face's effective FMAX (R417). -/
def State.effFmax (s : State) (n : Nat) : Nat :=
  min (s.face n).imgFmax (faceFmaxCal n - (s.agingOf n).reductions)

/-- A face's effective voltage offset in 5 mV steps (R417). -/
def State.effVoff (s : State) (n : Nat) : Int := (s.face n).imgVoff + (s.agingOf n).offset

/-- FMAX and VOFF of PWR_FACE[n] as the boot, a load and a derate write them (R417, R424). -/
def State.writeCal (s : State) (n : Nat) : State :=
  s.modFace n (fun f => { f with fmaxReg := s.effFmax n, voffReg := s.effVoff n })

/-- The ready condition (R412). -/
def State.readyCond (s : State) : Bool :=
  s.glb.boot == 7 && s.foreman.healthy && s.running yardTile && s.yard.cleared && !s.glb.stockfail &&
  !s.glb.tripped

/-- READY sets once every condition holds (R412). -/
def State.checkReady (s : State) : State :=
  if s.readyCond then s.modGlb (fun g => { g with ready := true }) else s

/-! ### Losing and regaining the supply -/

/-- Everything volatile at its reset value, with the store and memory outside the engine kept (R402, R403). -/
def State.coldReset (s : State) (supply : Supply) (cause boot : Nat) : State :=
  { State.reset with
    pending := s.pending, fresh := s.fresh, nv := s.nv, fabric := s.fabric, supply := supply,
    glb := { Glb.reset with cause := cause, boot := boot } }

/-- POWER_ON (R402): the night domain is reset and the foreman boots from ROM. -/
def execPowerOn (s : State) : Host.Outcome State Fault Refusal := .next (s.coldReset .good 0 1)

/-- CLOCK_LOSS (R402, R403): the same losses as the rail's; the engine comes back with NIGHT_CLOCK_PRESENT. -/
def execClockLoss (s : State) : Host.Outcome State Fault Refusal :=
  .next (if s.supply = .good then s.coldReset .noClock 1 0 else s)

/-- ALWAYS_ON_RAIL_LOSS (R403). -/
def execAlwaysOnRailLoss (s : State) : Host.Outcome State Fault Refusal := .next (s.coldReset .noRail 0 0)

/-- NIGHT_CLOCK_PRESENT (R402): after a clock loss the night domain comes out of reset as at power-on. -/
def execNightClockPresent (s : State) : Host.Outcome State Fault Refusal :=
  .next (if s.supply = .noClock then s.coldReset .good 1 1 else s)

/-! ### The power-up order (R406) -/

/-- The state with BOOT set. -/
def State.setBoot (s : State) (b : Nat) : State := s.modGlb (fun g => { g with boot := b })

/-- A firmware slot that the boot ROM can verify: it holds an image, and its bytes are whole. -/
def FwSlot.verifies (x : FwSlot) (damaged : Bool) : Bool := x != .absent && !damaged

/-- The boot ROM starts slot B (`b` true) or A: RESTORE begins, and the log's first record names the reset
(R402, R406). -/
def State.startFirmware (s : State) (b otherOk : Bool) : State :=
  (({ s with foreman := { s.foreman with activeB := b, inactiveOk := otherOk } }).setBoot 2).logEvt 0x0001
    s.glb.cause 2

/-- Phase ROM ends (R407): the selected image, else the other with the failure logged, else BOOT 0xF. -/
def State.bootRom (s : State) (damagedA damagedB : Bool) : State :=
  if s.glb.boot = 1 then
    let okA := s.nv.fwA.verifies damagedA
    let okB := s.nv.fwB.verifies damagedB
    let sel := s.nv.bootB
    let okSel := if sel then okB else okA
    let okOther := if sel then okA else okB
    if okSel then s.startFirmware sel okOther
    else if okOther then (s.startFirmware (!sel) false).logEvt 0x0704 1 (b2n (!sel))
    else (((s.setBoot 0xF).logEvt 0x0001 s.glb.cause 0xF).logEvt 0x0704 1 (b2n sel)).logEvt 0x0704 1
      (b2n (!sel))
  else s

/-- BOOT_ROM_DONE. -/
def execBootRomDone (damagedA damagedB : Bool) (s : State) : Host.Outcome State Fault Refusal :=
  s.on (fun s => s.bootRom damagedA damagedB)

/-- What the restored spare map records of face `n` (R373, R434). -/
def State.restoreFace (s : State) (n : Nat) : State :=
  let role := if s.spare.faceFailed.contains n then FaceRole.failed
    else if s.spare.faceRet.contains n then .retired else .spare
  (s.modFace n (fun f => { f with role := role, benches := min 4 (s.goodBenches n) })).writeCal n

/-- A module that the foreman reached, with the lane map of its port (R326, R373, R406). -/
def State.restoreModule (s : State) (x : Fin 4 × List Byte) : State :=
  (s.modPort x.1.val (fun q => { q with module := { q.module with present := true, identity := x.2 } })).logEvt
    0x0502 x.1.val 0

/-- The lane that a port's spare lane replaces, from the spare map (R329, R373). -/
def State.restoreLane (s : State) (p : Nat) : State :=
  match Tab.find s.spare.laneSpare p with
  | some l => s.modPort p (fun q => { q with module := { q.module with spareFor := l, retired := [l] } })
  | none => s

/-- Phase RESTORE ends (R406): the ledger comes back as the stored value plus 2²⁸ (R356, R424), the maps from
the stored spare map, FMAX and VOFF from the calibration entries, and the yard begins to wake. -/
def State.bootRestore (s : State) (modules : List (Fin 4 × List Byte)) : State :=
  if s.glb.boot = 2 then
    let ledger := s.nv.ledger + Config.ledgerStore
    let s1 : State := { s with
      spare := s.nv.spare
      surge := { s.surge with ledger := ledger, stored := ledger,
                              withdrawn := decide (Config.ledgerLimit ≤ ledger) } }
    let s2 := (List.range 72).foldl State.restoreFace s1
    let s3 := s2.spare.unitRet.foldl (fun t u =>
      t.modUnit (u / 16) (u % 16) (fun x => { x with retired := true })) s2
    let s4 := modules.foldl State.restoreModule ((List.range 4).foldl State.restoreLane s3)
    ((s4.wake yardTile).wake fabricTile).setBoot 3
  else s

/-- BOOT_RESTORE_DONE. -/
def execBootRestoreDone (modules : List (Fin 4 × List Byte)) (s : State) :
    Host.Outcome State Fault Refusal := s.on (fun s => s.bootRestore modules)

/-- Phase YARD ends (R406, R409): the yard runs, holds zero, and failing banks have moved to spares. -/
def State.bootYard (s : State) (failed : List (Fin 288)) : State :=
  if s.glb.boot = 3 then
    let s1 := failed.foldl (fun t b =>
      if t.spare.bankRet.contains b.val then t else t.remapBank b.val) s
    (({ s1 with yard := { s1.yard with mem := [], poison := [], cleared := true } }.setClk yardTile
      .run).setClk fabricTile .run).setBoot 4
  else s

/-- BOOT_YARD_DONE. -/
def execBootYardDone (failed : List (Fin 288)) (s : State) : Host.Outcome State Fault Refusal :=
  s.on (fun s => s.bootYard failed)

/-- Phase STOCKPILE ends (R411): a failing word sets STOCKFAIL, and the foreman logs it. -/
def State.bootStockpile (s : State) (failed : List Nat) : State :=
  if s.glb.boot = 4 then
    let s1 := failed.foldl (fun t a => t.logEvt (Config.unnamedCode 0) a 0) s
    ({ s1 with foreman := { s1.foreman with bootNext := 0 } }.modGlb (fun g =>
      { g with stockfail := !failed.isEmpty })).setBoot 5
  else s

/-- BOOT_STOCKPILE_DONE. -/
def execBootStockpileDone (failed : List Nat) (s : State) : Host.Outcome State Fault Refusal :=
  s.on (fun s => s.bootStockpile failed)

/-- Faces still to be tested, ascending: those that the spare map does not record as retired (R410). -/
def State.untested (s : State) : List Nat :=
  (List.range 72).filter (fun n => decide (s.foreman.bootNext ≤ n) && !s.faceGone n)

/-- One face's self-test result (R409): what a spare lane or bench absorbs is absorbed, and a face that
fails is retired (row 5 of R409's table). -/
def State.bootFace (s : State) (t : FaceTest) : State :=
  let s1 := s.absorbTest t
  if s1.testFails t then s1.retireFace t.face.val 5 0 else s1

/-- A group of up to 8 faces, in ascending face id, ends its test; after the last group phase UNITS begins
(R406). -/
def State.bootFaces (s : State) (results : List FaceTest) : State :=
  if s.glb.boot = 5 then
    let group := s.untested.take 8
    let s1 := (results.filter (fun t => group.contains t.face.val)).foldl State.bootFace s
    let s2 : State := { s1 with foreman := { s1.foreman with
      bootNext := group.foldl (fun a n => max a (n + 1)) s.foreman.bootNext } }
    if (s.untested.drop 8).isEmpty then s2.setBoot 6 else s2
  else s

/-- BOOT_FACE_GROUP_DONE. -/
def execBootFaceGroupDone (results : List FaceTest) (s : State) : Host.Outcome State Fault Refusal :=
  s.on (fun s => s.bootFaces results)

/-- The failures of the shared units (rows 6 to 8 of R409's table): they are retired (R409, R410). -/
def State.absorbUnits (s : State) (r : UnitTest) : State :=
  let s1 := r.buffers.foldl (fun t j => t.retireBuffer j.val 6 0) s
  let s2 := r.dressers.foldl (fun t d => t.retireUnit 5 d.val 7 0) s1
  let s3 := r.selectors.foldl (fun t i => t.retireUnit 6 i.val 7 0) s2
  let s4 := if r.drain then s3.retireUnit 7 0 7 0 else s3
  let s5 := if r.digest then s4.retireUnit 8 0 7 0 else s4
  r.sluices.foldl (fun t p => t.retireUnit 9 p.val 8 0) s5

/-- Buffers that returned to OFF after their self-test (R406). -/
def State.buffersOff (s : State) : State :=
  (List.range 8).foldl (fun t j => t.setClk (bufTile j) .off) s

/-- Phase UNITS ends: BOOT 0x7, and the ready condition is evaluated (R406, R412). -/
def State.bootUnits (s : State) (r : UnitTest) : State :=
  if s.glb.boot = 6 then ((s.absorbUnits r).buffersOff.setBoot 7).checkReady else s

/-- BOOT_UNITS_DONE. -/
def execBootUnitsDone (result : UnitTest) (s : State) : Host.Outcome State Fault Refusal :=
  s.on (fun s => s.bootUnits result)

/-! ### The foreman (R398) -/

/-- The foreman's firmware runs: it has been started and no restart is in progress. -/
def State.foremanUp (s : State) : Bool :=
  decide (2 ≤ s.glb.boot) && s.glb.boot != 0xF && !s.foreman.restarting

/-- A FOREMAN reset (R398, R402): the foreman restarts from slot B (`b` true) or A; READY clears, the session
locks, and the log's next record names the reset. The boot slot flag follows (log entry 8). -/
def State.restartForeman (s : State) (b trial : Bool) : State :=
  ({ s with
      foreman := { s.foreman with
        activeB := b, healthy := false, trial := trial, restarting := true,
        restarts := satAdd 8 s.foreman.restarts 1 }
      nv := { s.nv with bootB := b }
      bus := { s.bus with waiting := s.bus.waiting.filter (fun x => x.who == Requester.host) }
      monitor := { s.monitor with
        unlocked := false, line := [], overlong := false, lastCr := false, command := none, hold := []
        challenge := none, reads := [], owed := false } }.modGlb
    (fun g => { g with cause := 3, ready := false })).logEvt 0x0001 3 s.glb.boot

/-- FIRMWARE_REPORTS_HEALTHY (R398, R412). -/
def execFirmwareReportsHealthy (s : State) : Host.Outcome State Fault Refusal :=
  s.on (fun s =>
    if s.foremanUp then
      State.checkReady { s with foreman := { s.foreman with healthy := true, trial := false } }
    else s)

/-- WATCHDOG_REVERT (R398): a new image that has not reported healthy gives way to the previous one. -/
def execWatchdogRevert (s : State) : Host.Outcome State Fault Refusal :=
  s.on (fun s =>
    if s.foremanUp && s.foreman.trial && !s.foreman.healthy then
      (s.restartForeman (!s.foreman.activeB) false).logEvt 0x0704 3 (b2n (!s.foreman.activeB))
    else s)

/-- Watchdog restarts within 2³⁰ night cycles, with one now. -/
def State.watchdogTimes (s : State) : List Nat :=
  s.nc :: s.foreman.restartTimes.filter (fun t => decide (s.nc - t < 2 ^ 30))

/-- WATCHDOG_RESTART (R398): the third restart within 2³⁰ night cycles boots the other image. -/
def execWatchdogRestart (s : State) : Host.Outcome State Fault Refusal :=
  s.on (fun s =>
    if s.glb.boot ≤ 1 then s
    else
      let times := s.watchdogTimes
      let other := decide (3 ≤ times.length) && s.foreman.inactiveOk
      let s1 : State := { s with foreman := { s.foreman with restartTimes := if other then [] else times } }
      s1.restartForeman (if other then !s.foreman.activeB else s.foreman.activeB) s.foreman.trial)

/-- The monitor's banner and prompt after a restart (R448). -/
def bannerOf (b : Bool) : List MonOut := [.ready b, .prompt]

/-- FOREMAN_RESTART_DONE (R448): the restart is logged, GLB.EVT.FMN sets, and the monitor sends its banner. -/
def execForemanRestartDone (s : State) : Host.Outcome State Fault Refusal :=
  s.on (fun s =>
    if s.foreman.restarting then
      ({ s with
          foreman := { s.foreman with restarting := false }
          monitor := { s.monitor with out := bannerOf s.foreman.activeB } }.setEvt
        evFmn).logEvt 0x0704 2 (b2n s.foreman.activeB)
    else s)

/-! ### The idle night cycle (log entry 2) -/

/-- Surge accounting of one night cycle (R353, R354, R356): a surge cycle counts in its bucket and in the
ledger. -/
def State.surgeCycle (s : State) : State :=
  if s.surging then
    { s with surge := { s.surge with
        ledger := s.surge.ledger + 1
        buckets := match s.surge.buckets with
          | [] => [1]
          | b :: bs => (b + 1) :: bs } }
  else s

/-- A bucket begins every 500,000 night cycles; the window keeps the 100 before it (R354). -/
def State.nextBucket (s : State) : State :=
  if s.nc % Config.surgeBucket = 0 then
    { s with surge := { s.surge with buckets := (0 :: s.surge.buckets).take 101 } }
  else s

/-- One night cycle passes: the surge cycle is counted and NC rises by one (R353, R354, R424). -/
def State.nightCycle (s : State) : State :=
  if s.supply = .good then
    let s1 := s.surgeCycle
    State.nextBucket { s1 with nc := (s1.nc + 1) % 2 ^ 64 }
  else s

end Sys2Proof.Machine
end

