-- ==== Sys2Proof/Machine/Power.lean ====
section
/-! DEFINITION. Power and clocks: idle tiles, waking, sleep, frequency, surge, aging, temperature, trips, crossings and
the HOST reset (R331 to R363, R402, R404). -/

namespace Sys2Proof.Machine

/-! ### Tiles that work needs (R23, R181, R336) -/

/-- Physical buffers that a cut's operands pass through (R107, R183, R278). -/
def State.cutBuffers (s : State) (d : CutDesc) : List Nat :=
  match d.area with
  | .a a => distinct ((List.range 4).map (fun k => s.bufPhys (bits a.bufs (4 * k + 3) (4 * k))))
  | _ =>
    if usesBenches d.kind then
      (if d.shMode = 0 then [] else [s.bufPhys d.shBuf]) ++ (if d.stMode = 0 then [] else [s.bufPhys d.stBuf])
    else []

/-- The engine that drains and restores: the drain engine, or with it retired the lowest-numbered healthy dresser
(R381). A unit is its kind of R446 and its number. -/
def State.drainUnit (s : State) : Option (Nat × Nat) :=
  if s.unitHealthy 7 0 then some (7, 0) else (s.healthyDressers.head?).map (fun d => (5, d))

/-- The engine that computes digests: the digest engine, or with it retired the drain engine or its fallback (R381). -/
def State.digestUnit (s : State) : Option (Nat × Nat) :=
  if s.unitHealthy 8 0 then some (8, 0) else s.drainUnit

/-- The units without a spare that a cut works with (R283, R307, R381). -/
def State.cutUnits (s : State) (d : CutDesc) : List (Nat × Nat) :=
  match d.area with
  | .u a => (s.dressersOf a).map (fun k => (5, k))
  | .x x => ((s.selectorOf x).toList.map (fun k => (6, k))) ++
      (match s.planFor x.plan with
        | some (pl, _) => pl.ports.map (fun p => (9, p))
        | none => [])
  | .a a => if 1 < a.ring then [(9, a.portNext), (9, a.portPrev)] else []
  | .s a => s.drainUnit.toList ++ (if a.mode = 1 then [(9, a.port)] else [])
  | .v a => s.digestUnit.toList ++ [(9, a.port)]
  | _ => []

/-- Every tile that a cut needs in RUN (R23, R181). -/
def State.cutTiles (s : State) (d : CutDesc) : List Nat :=
  [yardTile, fabricTile] ++ (if usesBenches d.kind then s.cutFaces d else []) ++
  (s.cutBuffers d).map bufTile ++ (s.cutUnits d).map (fun u => unitTile u.1 u.2)

/-! ### Idle tiles (R335) -/

/-- A running cut holds a tile, or one whose waits are met names it (R335). -/
def State.tileClaimed (s : State) (k : Nat) : Bool :=
  s.liveCuts.any (fun e => (s.cutTiles (s.cut e).desc).contains k) ||
  s.cuts.any (fun x : Nat × CutRun => x.2.phase == .pending && s.waitsMet x.1 &&
    (s.cutTiles (s.descOf x.1)).contains k) ||
  (decide (k < 72) && s.benches.any (fun b : Nat × Bench =>
    decide (b.1 / 4 = k) && (b.2.cut.isSome || b.2.shadow.isSome)))

/-- A stream or a register access holds data for a tile, or the foreman brings it into service (R335, R377). -/
def State.tileBusy (s : State) (k : Nat) : Bool :=
  s.bus.waiting.any (fun a => tileKey a.tile == k) ||
  ((k == yardTile || k == fabricTile) &&
    (s.load.phase != .idle || s.snapBusy || s.hoists.any (fun h : Nat × Hoist => h.2.cut.isSome))) ||
  (decide (80 ≤ k) && decide (k < 88) && !(Tab.get [] s.tileSlots (k - 80)).isEmpty) ||
  s.fills.queue.any (fun x => x.spare == k && x.phase != .queued) ||
  (decide (k < 72) && (s.face k).req != 0)

/-- A tile is idle (R335). -/
def State.tileIdle (s : State) (k : Nat) : Bool := !s.tileClaimed k && !s.tileBusy k

/-- The state that a sleep level gives a tile (R337): `true` for OFF. -/
def sleepsOff (level k : Nat) : Bool :=
  if k = fabricTile then false else if k = yardTile then level == 2 else true

/-- A tile that has been idle for NAP_IDLE enters NAP, or during sleep its sleep-level state (R335, R337). A link runs
while its port is enabled (R331). -/
def State.napExpire (s : State) (k : Nat) : State :=
  if s.active k && s.tileIdle k && !(decide (102 ≤ k) && decide (k ≤ 105)) then
    if s.glb.asleep != 0 && sleepsOff s.glb.asleep k then s.tileOff k else s.setClk k .nap
  else s

/-- NAP_IDLE_EXPIRE (R335). -/
def execNapIdleExpire (t : Tile) (s : State) : Host.Outcome State Fault Refusal :=
  s.on (fun s => s.napExpire (tileKey t))

/-- A face, buffer or unit that stays idle in NAP for OFF_IDLE enters OFF (R335). -/
def State.offExpire (s : State) (k : Nat) : State :=
  if s.clk k = .nap ∧ s.tileIdle k = true ∧ k ≠ yardTile ∧ k ≠ fabricTile then s.tileOff k else s

/-- OFF_IDLE_EXPIRE (R335). -/
def execOffIdleExpire (t : Tile) (s : State) : Host.Outcome State Fault Refusal :=
  s.on (fun s => s.offExpire (tileKey t))

/-! ### Waking (R333, R334, R336) -/

/-- The words of ACC_MODE and CHK_MODE that the image in force gives a working (R435); their reset values without one. -/
def State.modeWords (s : State) (w : Nat) : Nat × Nat :=
  match s.image with
  | some i => match i.modes with
    | some m => ((m.acc.map (fun l => nth 0 l w)).getD 0, (m.chk.map (fun l => nth 0x41 l w)).getD 0x41)
    | none => (0, 0x41)
  | none => (0, 0x41)

/-- A face takes ACC_MODE and CHK_MODE of a working (R334, R377, R435). -/
def State.giveModes (s : State) (n w : Nat) : State :=
  s.modFace n (fun f => { f with acc := BitVec.ofNat 32 (s.modeWords w).1, chk := BitVec.ofNat 32 (s.modeWords w).2 })

/-- BUDGET and RESUME in force (R354, R355, R363). -/
def State.surgeLimits (s : State) : Nat × Nat :=
  match s.clkPart with
  | some c => if c.surge = 2 then (c.budget, c.resume) else (Config.budgetBasic, Config.surgeBucket)
  | none => (Config.budgetBasic, Config.surgeBucket)

/-- The workings and classes that may surge (R353): every working and class 1 at the basic level. -/
def State.surgeScope (s : State) : Nat × Nat :=
  match s.clkPart with
  | some c => if c.surge = 2 then (c.surgeWorkings, c.surgeClass) else (0xFFFF, 1)
  | none => (0xFFFF, 1)

/-- A face may rise above 1.75 GHz (R353). -/
def State.maySurge (s : State) (n : Nat) : Bool :=
  s.surge.en && !s.surge.withdrawn && s.surge.permitted && bit s.surgeScope.1 (s.face n).working &&
  (s.cutsOnFace n).any (fun e => bit s.surgeScope.2 (kindClass (s.cut e).desc.kind - 1))

/-- The frequency that R350 gives a face, in steps of 125 MHz. -/
def State.faceLimit (s : State) (n : Nat) : Nat :=
  min (min (if s.maySurge n then 16 else 14) (s.face n).ceiling) (min (s.effFmax n) (s.face n).cap)

/-- A face whose clock starts from OFF runs at the frequency of R350; its modes come from the image in force (R334). -/
def State.faceWoken (s : State) (n : Nat) : State :=
  let s1 := s.modFace n (fun f => { f with freq := s.faceLimit n })
  if (s.face n).role = .inService ∨ (s.face n).role = .filling then s1.giveModes n (s.face n).working
  else s1.modFace n (fun f => { f with acc := 0, chk := 0x41 })

/-- Tally writes that waited for the yard take effect (R23). -/
def State.landTallies (s : State) : State :=
  s.tallyWait.foldl (fun t x => t.tallyAdd x.1 x.2) { s with tallyWait := [] }

/-- A tile whose clock runs again ends the stalls on it (R346). -/
def State.endStalls (s : State) (k : Nat) : State :=
  { s with stalls := s.stalls.filter (fun x : Nat × Tile => tileKey x.2 != k)
           hoists := s.hoists.map (fun h : Nat × Hoist =>
             (h.1, if s.stalls.any (fun x : Nat × Tile => x.1 == h.1 && tileKey x.2 == k)
               then { h.2 with sleepStall := false } else h.2)) }

/-- A waking tile reaches RUN (R333, R334). During a trip and while the reset input is asserted wakes wait (R359,
R404). -/
def State.wakeDone (s : State) (k : Nat) : State :=
  if s.glb.tripped || s.glb.resetHeld then s
  else
    match s.clk k with
    | .wakingNap =>
      let s1 := (s.setClk k .run).endStalls k
      if k = yardTile then s1.landTallies else s1
    | .wakingOff =>
      let s1 := (s.setClk k .run).endStalls k
      if k < 72 then s1.faceWoken k else if k = yardTile then s1.landTallies else s1
    | _ => s

/-- WAKE_DONE (R333). -/
def execWakeDone (t : Tile) (s : State) : Host.Outcome State Fault Refusal := s.on (fun s => s.wakeDone (tileKey t))

/-- YARD_CLEAR_DONE: every bank holds zero after the yard's wake from OFF (R334, R412). -/
def State.yardCleared (s : State) : State :=
  if s.running yardTile && !s.yard.cleared then
    State.checkReady { s with yard := { s.yard with mem := [], poison := [], cleared := true } }
  else s

/-- YARD_CLEAR_DONE (R334). -/
def execYardClearDone (s : State) : Host.Outcome State Fault Refusal := s.on State.yardCleared

/-! ### Sleep (R337, R356) -/

/-- A register write that R421 refuses: nothing changes, and the foreman logs it. -/
def State.badWrite (s : State) (off v : Nat) : State := s.logEvt 0x0702 off v

/-- The surge ledger goes to the store (R356). -/
def State.storeLedger (s : State) : State :=
  { s with nv := { s.nv with ledger := s.surge.ledger }, surge := { s.surge with stored := s.surge.ledger } }

/-- A level asked for in GLB.CTL.SLEEP; 0 ends the sleep, and 3 is out of range (R337, R421, R422). -/
def State.sleepWrite (s : State) (level : Nat) : State :=
  if level = 3 then s.badWrite 0x14 3
  else s.modGlb (fun g => { g with sleepReq := level, asleep := if level = 0 then 0 else g.asleep })

/-- SLEEP (R337). -/
def execSleep (level : Fin 4) (s : State) : Host.Outcome State Fault Refusal :=
  s.on (fun s => s.sleepWrite level.val)

/-- Every sequencer is stopped and no cut runs; halted workings count as stopped (R337, R365). A step held open by 0x50
ends alone counts once its sequencer is stopped (R180). -/
def State.quiet (s : State) : Bool :=
  s.working.all (fun w : Nat × Working => w.2.seq == .stopped || w.2.seq == .halted) &&
  s.liveCuts.all (fun e => (s.work (s.cut e).desc.working).seq == .halted)

/-- A port sends CLOSE and its link stops (R337, R404). -/
def State.closeDown (s : State) (st : PortState → Bool) (p : Nat) : State :=
  let q := s.port p
  let s1 := if st q.st && q.trained then s.sendNew p 7 ftControl false closeMsg else s
  (s1.setPort p .disabled).modPort p Port.disable

/-- A tile takes its sleep-level state (R337); a tile that a fill works on stays (R377). -/
def State.sleepTile (s : State) (level k : Nat) : State :=
  if s.fills.queue.any (fun x => x.spare == k && x.phase != .queued) then s
  else if sleepsOff level k then (if s.clk k = .off then s else s.tileOff k)
  else if s.clk k = .off then s else s.setClk k .nap

/-- Tiles that sleep takes: faces, yard, buffers, units and fabric ports. -/
def sleepTiles : List Nat :=
  List.range 72 ++ (List.range 8).map (80 + ·) ++ (List.range 14).map (88 + ·) ++ [yardTile, fabricTile]

/-- The requested level is entered once its conditions hold (R337). -/
def State.sleepEnter (s : State) : State :=
  let level := s.glb.sleepReq
  if level ≠ 0 ∧ s.glb.asleep ≠ level ∧ s.quiet = true ∧ s.load.phase = .idle then
    let s1 := if level = 2 then (List.range 4).foldl (fun t p => t.closeDown PortState.linked p) s else s
    (sleepTiles.foldl (fun t k => t.sleepTile level k) s1.storeLedger).modGlb (fun g => { g with asleep := level })
  else s

/-- SLEEP_ENTER (R337). -/
def execSleepEnter (s : State) : Host.Outcome State Fault Refusal := s.on State.sleepEnter

/-- A data path has waited STALL_NC night cycles on a stopped destination: recorded once (R346). -/
def State.sleepStalled (s : State) (source : Nat) (t : Tile) : State :=
  if s.active (tileKey t) || s.stalls.contains (source, t) then s
  else
    let w := match (s.hoist source).cut with
      | some e => (s.cut e).desc.working
      | none => noWorking
    let s1 : State := { s with
      stalls := (source, t) :: s.stalls
      hoists := s.hoists.map (fun h : Nat × Hoist =>
        (h.1, if h.1 = source && h.2.cut.isSome then { h.2 with sleepStall := true } else h.2)) }
    (s1.setEvt evSleepStall).logRec 0x0606 w 0 source (Config.tileNumber (tileKey t))

/-- SLEEP_STALL (R346). -/
def execSleepStall (source : Nat) (destination : Tile) (s : State) : Host.Outcome State Fault Refusal :=
  s.on (fun s => s.sleepStalled source destination)

/-! ### Face frequency (R350 to R352) -/

/-- One step of 125 MHz toward the frequency of R350 (R351). -/
def State.freqStep (s : State) (n : Nat) : State :=
  if s.active n then
    s.modFace n (fun f =>
      if s.faceLimit n < f.freq then { f with freq := f.freq - 1 }
      else if f.freq < s.faceLimit n then { f with freq := f.freq + 1 }
      else f)
  else s

/-- FREQUENCY_STEP (R351). -/
def execFrequencyStep (n : Fin 72) (s : State) : Host.Outcome State Fault Refusal :=
  s.on (fun s => s.freqStep n.val)

/-- DROOP: the faces on the rail stretch their cycles, and the droop is counted (R352). -/
def State.droop (s : State) (faces : List Nat) : State :=
  if faces.isEmpty then s
  else
    let s1 := faces.foldl (fun t n => t.modFace n (fun f => { f with stretched := true })) s
    State.healthEvent { s1 with surge := { s1.surge with droops := satAdd 32 s1.surge.droops 1 } } 6 1

/-- DROOP (R352). -/
def execDroop (faces : List (Fin 72)) (s : State) : Host.Outcome State Fault Refusal :=
  s.on (fun s => s.droop (faces.map Fin.val))

/-- DROOP_CLEAR: stretching ends (R352). -/
def execDroopClear (faces : List (Fin 72)) (s : State) : Host.Outcome State Fault Refusal :=
  s.on (fun s => faces.foldl (fun t n => t.modFace n.val (fun f => { f with stretched := false })) s)

/-- A write of PWR_FACE: REQ and CAP; a value out of range is ignored as a whole and logged (R350, R421, R424). -/
def State.pwrFaceWrite (s : State) (n v : Nat) : State :=
  let req := bits v 1 0
  let cap := bits v 8 4
  if 2 ≤ req ∨ cap < 8 ∨ 16 < cap then s.badWrite (0x10100 + 4 * n) v
  else s.modFace n (fun f => { f with req := req, cap := cap })

/-- PWR_FACE_CAP_WRITE (R350). -/
def execPwrFaceCapWrite (n : Fin 72) (v : Word) (s : State) : Host.Outcome State Fault Refusal :=
  s.on (fun s => s.pwrFaceWrite n.val v.toNat)

/-! ### Surge (R353 to R356) -/

/-- W(c + 128), with every face in surge staying there and the buckets that leave by then left out (R355). At a state of
night cycle c the cycles before c have been counted. -/
def State.surgeProjected (s : State) : Nat :=
  let leaves := decide (s.nc / Config.surgeBucket < (s.nc + 128) / Config.surgeBucket)
  (s.surge.buckets.take (if leaves then 100 else 101)).sum + 129

/-- SURGE_STEP_DOWN: the governor ends the permission to surge (R355). -/
def State.surgeDown (s : State) : State :=
  if s.surging && decide (s.surgeLimits.1 < s.surgeProjected) then
    { s with surge := { s.surge with permitted := false } }
  else s

/-- SURGE_STEP_DOWN (R355). -/
def execSurgeStepDown (s : State) : Host.Outcome State Fault Refusal := s.on State.surgeDown

/-- SURGE_RESUME: the window has fallen to BUDGET − RESUME (R355). -/
def State.surgeUp (s : State) : State :=
  if s.surgeWindow + s.surgeLimits.2 ≤ s.surgeLimits.1 then { s with surge := { s.surge with permitted := true } }
  else s

/-- SURGE_RESUME (R355). -/
def execSurgeResume (s : State) : Host.Outcome State Fault Refusal := s.on State.surgeUp

/-- LEDGER_STORE: 2^28 surge night cycles have passed since the last store (R356). -/
def execLedgerStore (s : State) : Host.Outcome State Fault Refusal :=
  s.on (fun s => if s.surge.stored + Config.ledgerStore ≤ s.surge.ledger then s.storeLedger else s)

/-- SURGE_WITHDRAW: the ledger has reached the lifetime limit (R356). -/
def State.surgeWithdraw (s : State) : State :=
  if Config.ledgerLimit ≤ s.surge.ledger ∧ s.surge.withdrawn = false then
    (State.setEvt { s with surge := { s.surge with withdrawn := true, en := false } } evSurge).logEvt 0x0604
      (s.surge.ledger % 2 ^ 32) (s.surge.ledger / 2 ^ 32)
  else s

/-- SURGE_WITHDRAW (R356). -/
def execSurgeWithdraw (s : State) : Host.Outcome State Fault Refusal := s.on State.surgeWithdraw

/-! ### Aging (R357, R417) -/

/-- A face short of margin is derated: 5 mV up to +50 mV, then one step of FMAX; below FMIN_SERVICE it is retired
(R357, R375). -/
def State.derate (s : State) (n : Nat) : State :=
  if (s.face n).away then s
  else
    let a := s.agingOf n
    let a1 : Aging := if a.offset < 10 then { a with offset := a.offset + 1 } else { a with reductions := a.reductions + 1 }
    let s1 := State.writeCal { s with nv := { s.nv with aging := Tab.set s.nv.aging n a1 } } n
    let s2 := (s1.setEvt evDerate).logEvt 0x0603 n (s1.effFmax n % 256 + unsigned (s1.effVoff n) 8 * 256)
    if s2.effFmax n < s2.fminService then s2.retireFace n 3 0 else s2

/-- AGING_READ (R357). -/
def execAgingRead (short : List (Fin 72)) (s : State) : Host.Outcome State Fault Refusal :=
  s.on (fun s => (distinct (short.map Fin.val)).foldl State.derate s)

/-! ### Temperature and trips (R358, R359) -/

/-- A hold of R358: night cycles for which a reading has to stay. -/
def heatHold : Nat := 2 ^ 16

/-- The night cycle since which a condition has held, with a reading now. -/
def since (cond : Bool) (old : Option Nat) (nc : Nat) : Option Nat := if cond then some (old.getD nc) else none

/-- A condition has held for 2^16 night cycles. -/
def held (x : Option Nat) (nc : Nat) : Bool :=
  match x with
  | some t => decide (t + heatHold ≤ nc)
  | none => false

/-- ECON_TEMP in force (R363): 102 at the basic level. -/
def State.econLimit (s : State) : Int :=
  match s.clkPart with
  | some c => c.econTemp
  | none => 102

/-- The governor's economy for a face at a reading (R56, R69, R358). -/
def Face.governor (f : Face) (lim t : Int) (nc : Nat) : Face :=
  let low := since (decide (t < lim - 4)) f.econSince nc
  let on := if lim ≤ t ∧ f.accMode.gov = true then true else if held low nc then false else f.econTemp
  { f with econTemp := on, econSince := low }

/-- The ceiling of a face, lowered by a number of steps, down to 1.0 GHz (R358). -/
def lowered (ceiling steps : Nat) : Nat := max 8 (ceiling - steps)

/-- The thermal ceiling and the clock stop of a face at a reading (R358): `yard` yard sensors read 105 °C or more, and
`yardCool` says that all of them read 101 °C or less. -/
def Face.thermal (f : Face) (t : Int) (yard : Nat) (yardCool : Bool) (nc : Nat) : Face :=
  let c1 := lowered f.ceiling (yard + (if 105 ≤ t then 1 else 0))
  let cool := since (decide (t ≤ 101) && yardCool) f.coolSince nc
  let up := held cool nc
  let hot := since (decide (105 ≤ t) && f.freq == 8) f.hotSince nc
  { f with
    ceiling := if up then min 16 (c1 + 1) else c1
    coolSince := if up then some nc else cool
    hotSince := hot
    heat := if f.heat then decide (100 < t) else held hot nc }

/-- A throttling action is in force (R358): a lowered ceiling, a stopped face clock or a sluice at half rate. -/
def State.throttling (s : State) : Bool :=
  s.faces.any (fun e => decide (e.2.ceiling < 16) || e.2.heat) || s.ports.any (fun e => e.2.half)

/-- A trip stops every fast clock but those of the links and asserts the trip output (R359). -/
def State.trip (s : State) (sensor : Nat) (t : Int) : State :=
  if s.glb.tripped then s
  else ((s.modGlb (fun g => { g with tripped := true })).setEvt evTrip).logEvt 0x0602 sensor (unsigned t 32)

/-- The first sensor of a reading at or above a limit. -/
def firstHot (ts : List Int) (lim : Int) : Option Nat := ts.findIdx? (fun t => decide (lim ≤ t))

/-- A sluice at its sensor's reading (R358). -/
def State.sluiceHeat (s : State) (p : Nat) (t : Int) : State :=
  if 105 ≤ t then s.modPort p (fun q => { q with half := true })
  else if t ≤ 101 ∧ (s.port p).half = true then s.modPort p (fun q => { q with half := false })
  else s

/-- The readings of the 84 sensors act as R358 gives. -/
def State.tempRead (s : State) (ts : List Int) : State :=
  let at' := fun k => nth 0 ts k
  let yards := (ts.drop 72).take 8
  let yard := (yards.filter (fun t => decide (105 ≤ t))).length
  let yardCool := yards.all (fun t => decide (t ≤ 101))
  let s0 : State := { s with
    temps := (List.range 84).map (fun k => (k, at' k)), hot := ts.any (fun t => decide (100 < t)) }
  let s1 := (List.range 72).foldl (fun u n => u.modFace n (fun f =>
    (f.governor u.econLimit (at' n) u.nc).thermal (at' n) yard yardCool u.nc)) s0
  let s2 := (List.range 4).foldl (fun u p => u.sluiceHeat p (at' (80 + p))) s1
  let s3 := if s2.throttling && !s.throttling then
      match firstHot ts 105 with
      | some k => (s2.setEvt evThermal).logEvt 0x0601 k (unsigned (at' k) 32)
      | none => s2
    else s2
  match firstHot ts 115 with
  | some k => s3.trip k (at' k)
  | none => s3

/-- The 84 readings, in the order of R424; a sensor that a command gives no reading of keeps its last. -/
def State.readings (s : State) (ts : List Int) : List Int :=
  (List.range 84).map (fun k => ts.getD k (Tab.get 0 s.temps k))

/-- TEMP_READ (R358). -/
def execTempRead (degrees : List Int) (s : State) : Host.Outcome State Fault Refusal :=
  s.on (fun s => s.tempRead (s.readings degrees))

/-- A resumption from a trip: every thermal ceiling starts at 1.5 GHz (R359). -/
def State.tripClear (s : State) : State :=
  if s.glb.tripped && !s.hot then
    State.checkReady ((List.range 72).foldl (fun t n => t.modFace n (fun f => { f with ceiling := 12 }))
      (s.modGlb (fun g => { g with tripped := false })))
  else s

/-- TRIP_CLR (R359). -/
def execTripClr (s : State) : Host.Outcome State Fault Refusal := s.on State.tripClear

/-! ### Crossings (R343 to R345, R368) -/

/-- The mode that a byte or register of a crossing group holds (R363, R424). -/
def groupMode (v : Nat) : GroupMode :=
  { paced := bit v 0, expert := bit v 1, paceDelay3 := bit v 2, syncStages := bits v 4 3 }

/-- A write of CROSS_MODE[g], or its refusal (R344, R424). -/
def State.crossWrite (s : State) (g v : Nat) : State :=
  let m := groupMode v
  if (m.paced && (decide (2 ≤ g) || (g == 1 && (s.crossing 1).forced))) || m.syncStages == 3 then
    s.badWrite (0x20000 + 4 * g) v
  else s.modCross g (fun c => { c with asked := some m })

/-- CROSS_MODE_WRITE (R344). -/
def execCrossModeWrite (g : Fin 5) (v : Word) (s : State) : Host.Outcome State Fault Refusal :=
  s.on (fun s => s.crossWrite g.val v.toNat)

/-- A pending change takes effect once the crossings hold no transfer (R344). -/
def State.crossApply (s : State) (g : Nat) : State :=
  match (s.crossing g).asked with
  | some m => s.modCross g (fun c => { c with mode := m, asked := none })
  | none => s

/-- CROSSING_CHANGE_APPLY (R344). -/
def execCrossingChangeApply (g : Fin 5) (s : State) : Host.Outcome State Fault Refusal :=
  s.on (fun s => s.crossApply g.val)

/-- Fabric cycles in 2^20 night cycles of a locked fabric clock (R343). -/
def lockedCount : Nat := 41943040

/-- FABRIC_LOCK_CHECK: a PACED group 1 whose count is off is forced to FREE (R343). -/
def State.lockCheck (s : State) (count : Nat) : State :=
  let c := s.crossing 1
  if (c.asked.getD c.mode).paced && (decide (count + 2 < lockedCount) || decide (lockedCount + 2 < count)) then
    ((s.modCross 1 (fun c => { c with
      asked := some { (c.asked.getD c.mode) with paced := false }, forced := true })).setEvt evCross).logEvt 0x0605 count 0
  else s

/-- FABRIC_LOCK_CHECK (R343). -/
def execFabricLockCheck (count : Nat) (s : State) : Host.Outcome State Fault Refusal :=
  s.on (fun s => s.lockCheck count)

/-- A crossing mismatch counted against a face; three within 2^26 night cycles retire it (R368, R375). -/
def State.crossMiss (s : State) (n : Nat) : State :=
  let times := s.nc :: (s.face n).mismatches.filter (fun t => decide (s.nc < t + 2 ^ 26))
  let s1 := s.modFace n (fun f => { f with mismatches := times })
  if 3 ≤ times.length then s1.retireFace n 2 0 else s1

/-- A parity mismatch of a crossing, by its path (R345, R368). A fold line is sent again from the shadow and a context
save is repeated, so neither changes the yard. -/
def State.crossParity (s : State) (path : CrossPath) : State :=
  match path with
  | .fabricRead h seq => s.readError h.val seq
  | .benchFeed f b => (s.abortBench f.val b.val).crossMiss f.val
  | .foldLine f _ => s.crossMiss f.val
  | .contextSave f _ => s.crossMiss f.val
  | .register .host => { s with bus := { s.bus with hostErrors := s.bus.hostErrors + 1 } }
  | .register .foreman => { s with bus := { s.bus with foremanErrors := s.bus.foremanErrors + 1 } }

/-- CROSSING_PARITY (R345). -/
def execCrossingParity (path : CrossPath) (s : State) : Host.Outcome State Fault Refusal :=
  s.on (fun s => s.crossParity path)

/-! ### HOST reset (R402, R404) -/

/-- GLB after a HOST reset: reset values but for TRIPPED; BOOT stands, since the boot does not run again (R404, R412). -/
def Glb.hostReset (g : Glb) (held : Bool) : Glb :=
  { Glb.reset with tripped := g.tripped, cause := 2, boot := g.boot, resetHeld := held }

/-- A face's CLK/PWR register after a HOST reset (R404, R424). -/
def Face.pwrReset (f : Face) : Face := { f with req := 0, cap := 16, fmaxReg := 0, voffReg := 0 }

/-- Fast domains in OFF and fabric ports in NAP (R404). -/
def State.allOff (s : State) : State :=
  (((List.range 72 ++ (List.range 8).map (80 + ·) ++ (List.range 14).map (88 + ·) ++ [yardTile]).foldl
    (fun (t : State) k => if (t.clk k == ClkState.off) then t else t.tileOff k) s).yardLost).setClk fabricTile .nap

/-- A HOST reset (R402, R404): CLOSE on every port that is up, every fast domain off, GLB and CLK/PWR at reset values
but for what R404 keeps, the load and the drain abandoned, the session locked. -/
def State.hostReset (s : State) (held : Bool) : State :=
  let s1 := ((List.range 4).foldl (fun t p => t.closeDown (· == .up) p) s).allOff
  let s2 : State := { s1 with
    glb := s1.glb.hostReset held
    faces := s1.faces.map (fun e => (e.1, e.2.pwrReset))
    surge := { s1.surge with droops := 0 }
    temps := [], stalls := [], tallyWait := []
    snap := { s1.snap with phase := .idle, force := false, due := [], waiting := [], blocked := false }
    bus := { s1.bus with waiting := s1.bus.waiting.filter (fun x => x.who == Requester.foreman) }
    monitor := { s1.monitor with unlocked := false } }
  s2.logEvt 0x0001 2 s2.glb.boot

/-- The yard wakes and clears after the reset (R404, R412). -/
def State.resetOver (s : State) : State :=
  (s.modGlb (fun g => { g with resetHeld := false })).wake yardTile

/-- HOST_RESET: the N6's reset input is asserted (R404). -/
def execHostReset (s : State) : Host.Outcome State Fault Refusal := s.on (fun s => s.hostReset true)

/-- ENG_RESET: a write of 1 to GLB.CTL.ENG_RESET, with no input to hold the state (R402, R404). -/
def execEngReset (s : State) : Host.Outcome State Fault Refusal := s.on (fun s => (s.hostReset false).resetOver)

/-- HOST_RESET_RELEASE (R404, R412). -/
def execHostResetRelease (s : State) : Host.Outcome State Fault Refusal :=
  s.on (fun s => if s.glb.resetHeld then s.resetOver else s)

end Sys2Proof.Machine
end

