-- ==== Sys2Proof/Machine/Faults.lean ====
section
/-! DEFINITION. The passes that a cut's benches run, a cut that restarts from its first pass, yard errors, bank
migration, and the fills of spare faces (R206, R229, R369 to R371, R373, R375 to R379). -/

namespace Sys2Proof.Machine

/-! ### The passes of a cut (R206, R229) -/

/-- Passes of a D- or W-cut on the bench of a set and rank, in order (R206, R229). -/
def CutDesc.benchPasses (c : CutDesc) (set rank : Nat) : List PassId :=
  let slices := ((List.range c.perSet).map (fun k => set * c.perSet + k)).filter (fun i => decide (i < c.slices))
  let js := (List.range c.passCount).filter (fun j => j % max c.split 1 == rank)
  if c.kind = 2 then (js.map (fun j => slices.map (fun i => c.pass i j))).flatten
  else (slices.map (fun i => js.map (fun j => c.pass i j))).flatten

/-- A bench that begins a cut, or begins it again, with its passes. -/
def Bench.deal (b : Bench) (e : Nat) (ps : List PassId) : Bench :=
  { Bench.reset with
    cut := some e, work := ps, stopped := b.stopped
    shadow := match b.shadow with
      | some sh => if sh.cut = e then none else some sh
      | none => none }

/-- The benches of a cut take their passes from the first on; an A-cut's come with its round (R206, R229, R265). -/
def State.dealCut (s : State) (e : Nat) : State :=
  let d := (s.cut e).desc
  let s1 := ((s.cutFaces d).zipIdx).foldl (fun t x =>
    (List.range d.benches).foldl (fun u b =>
      u.modBench x.1 b (fun y => y.deal e
        (if d.kind = 3 then [] else d.benchPasses (d.setOf x.2 b) (x.2 % max d.split 1)))) t) s
  if d.kind = 3 then s1.dealRound e 0 else (s.benchList d).foldl (fun t x => t.tryStart x.1 x.2) s1

/-- Passes of a bench that the face has lost go to the other benches that the cut holds on it (R89). -/
def State.shareBench (s : State) (e n b : Nat) : State :=
  if s.benchRetired n (s.physBench n b) && (s.bench n b).cut == some e then
    match s.otherBenches n b e with
    | [] => s.retireFace n 6 0
    | others =>
      let s1 := (s.dealItems n (s.cut e).desc.kind others (s.bench n b).work).modBench n b (fun _ => Bench.reset)
      (s1.orFlags e (flag flReduced)).modFace n (fun f => { f with reduced := true })
  else s

/-- Work of faces and benches that are gone is taken over (R89, R380). -/
def State.shareWork (s : State) (e : Nat) : State :=
  let d := (s.cut e).desc
  let s1 := (s.benchList d).foldl (fun t x => t.shareBench e x.1 x.2) s
  ((s.cutFaces d).filter s.adopted).foldl (fun t n => t.adoptCut n e) s1

/-- The benches of a cut take their passes. -/
def State.dealStart (s : State) (e : Nat) : State := (s.dealCut e).shareWork e

/-! ### A cut that restarts (R371) -/

/-- ACCUM regions that a cut folds into (R207, R227, R267). -/
def State.accRegions (s : State) (d : CutDesc) : List Nat :=
  match d.area with
  | .d a => (List.range (max d.split 1)).map (a.accRegion + ·)
  | .w _ => match s.wRegion d with
    | some r => (List.range (max d.split 1)).map (r + ·)
    | none => []
  | .a a => [a.dqRegion, a.dkvRegion]
  | _ => []

/-- The headers of the tiles that a cut folds are reset, with their promotion slots (R371, R382). -/
def State.resetRegions (s : State) (d : CutDesc) : State :=
  match s.image with
  | none => s
  | some i =>
    (s.accRegions d).foldl (fun t r =>
      match Tab.find i.regions r with
      | some reg => ((List.range (i.regionTiles r reg)).filterMap (i.hdrAddr r)).foldl State.resetTile t
      | none => t) s

/-- A read stream that starts again from its first line; a write stream that drops what it holds. -/
def Hoist.restart (h : Hoist) : Hoist :=
  { h with
    pos := 0, reqs := [], nextSeq := 0, deliver := 0, out := [], occ := 0, taken := h.taken.map (fun _ => 0)
    attached := h.allReceivers, detachedTo := [], ended := false, mark := 0, timer := 0
    st := if h.st = .stopped then .stopped else .stream }

/-- A cut starts over from its first pass: headers reset, nothing done, benches and streams at their beginning (R371).
PROGRESS counts no slice twice. -/
def State.restartCut (s : State) (e : Nat) : State :=
  let c := s.cut e
  let s1 := ((s.resetRegions c.desc).dropTiles e).modCut e (fun c => { c with
    done := [], trees := [], passes := 0, banks := [], kept := []
    kd0 := if c.desc.kind = 3 then 0 else c.kd0
    kd1 := if c.desc.kind = 1 then c.kd1 else 0
    kd2 := if c.desc.kind = 1 then c.kd2 else 0 })
  let s2 : State := { s1 with
    hoists := s1.hoists.map (fun h : Nat × Hoist => (h.1, if h.2.cut = some e then h.2.restart else h.2))
    kilns := s1.kilns.filter (fun k => !(s1.bench (k.1 / 4) (k.1 % 4)).cut == some e) }
  let s3 := s2.modArun e (fun r => { r with
    prefetch := [], copied := [], landed := 0, rowsDone := [], tilesDone := [], partials := [], folded := []
    returned := [] })
  s3.dealStart e

/-- A fault in the yard aborts a cut, which starts over (R371). -/
def State.abortCut (s : State) (e : Nat) : State :=
  let s1 := (s.orFlags e (flag flFaulted)).setStatus e 0x41
  if (s.cut e).phase = .stopped then s1.restartCut e
  else if usesBenches (s.cut e).desc.kind then ((s1.modCut e (fun c => { c with awaiting := [] })).awaitReplay e .cut).restartCut e
  else (s1.restartCut e).setStatus e 0

/-! ### Corrected errors and migration (R369, R370) -/

/-- The physical bank of a yard byte, and its line in the bank (R133, R425). -/
def State.bankAt (s : State) (a : Nat) : Nat × Nat :=
  let b := match s.image with
    | some i => match i.regionAt a with
      | some (_, r) => bankOf r.swz r.masks a
      | none => bankOf 0 [] a
    | none => bankOf 0 [] a
  (b, bankLine a)

/-- A logical bank begins to migrate to the lowest-numbered free spare; with none free it stays, flagged (R370). -/
def State.startMigration (s : State) (b : Nat) (inj : Bool) : State :=
  if (Tab.find s.yard.migrating b).isSome then s
  else
    match s.freeBanks with
    | sp :: _ => { s with yard := { s.yard with
        migrating := Tab.set s.yard.migrating b sp
        injected := if inj then b :: s.yard.injected else s.yard.injected } }
    | [] => (s.setEvt evYard).logRec (Config.unnamedCode 1) noWorking (if inj then fromInject else 0)
        (unitArg 3 0 0 (s.bankPhys b)) 0

/-- An armed injection of the word that an address lies in, if one is armed (R444). -/
def strikes (a : Nat) (k : InjectKind) : Bool :=
  match k with
  | .yard x _ => x / 8 == a / 8
  | _ => false

/-- The armed injection of a yard word is spent: whether there was one, and the state without it (R444). -/
def State.takeYardInject (s : State) (a : Nat) : Bool × State :=
  if s.monitor.armed.any (strikes a) then
    (true, { s with monitor := { s.monitor with armed := s.monitor.armed.filter (fun k => !strikes a k) } })
  else (false, s)

/-- One corrected word: counted, and 16 in its bank within 2^26 night cycles move the bank (R369, R370, R385). -/
def State.correctWord (s : State) (a : Nat) : State :=
  let (inj, s0) := s.takeYardInject a
  let (b, line) := s0.bankAt a
  let times := s0.nc :: (Tab.get [] s0.yard.times b).filter (fun t => decide (s0.nc < t + 2 ^ 26))
  let s1 : State := { s0 with yard := { s0.yard with
    corr := satAdd 16 s0.yard.corr 1, lastBank := s0.bankPhys b, lastLine := line, lastUncorr := false
    times := Tab.set s0.yard.times b times } }
  let s2 := s1.healthEvent 0 1
  if 16 ≤ times.length then s2.startMigration b inj else s2

/-- The outcome of a command on a yard byte: no byte lies beyond the yard (R114). -/
def State.onYard (s : State) (a : Nat) (f : State → State) : Host.Outcome State Fault Refusal :=
  if a < Config.yardBytes then s.on f else .fault (.yardHole a)

/-- YARD_CORRECTED (R369). -/
def execYardCorrected (addr : Nat) (s : State) : Host.Outcome State Fault Refusal :=
  s.onYard addr (fun s => s.correctWord addr)

/-- PATROL_SCRUB: the words of a line that the scrubber corrects (R369). -/
def execPatrolScrub (line : Nat) (errors : List (Fin 8)) (s : State) : Host.Outcome State Fault Refusal :=
  s.onYard (line * 64) (fun s => (distinct (errors.map Fin.val)).foldl (fun t w => t.correctWord (line * 64 + 8 * w)) s)

/-- BANK_MIGRATION_DONE: the bank map switches to the copy (R370). -/
def State.migrationDone (s : State) (b : Nat) : State :=
  match Tab.find s.yard.migrating b with
  | some sp =>
    let old := s.bankPhys b
    let fl := if s.yard.injected.contains b then fromInject else 0
    let s1 : State := { s with yard := { s.yard with
      migrating := Tab.drop s.yard.migrating b, times := Tab.drop s.yard.times b
      injected := s.yard.injected.filter (· != b) } }
    (s1.modSpare (fun m => { m with bankMap := Tab.set m.bankMap b sp, bankRet := old :: m.bankRet })).logRemap
      (unitArg 3 0 0 old) sp fl
  | none => s

/-- BANK_MIGRATION_DONE (R370). -/
def execBankMigrationDone (b : Fin 256) (s : State) : Host.Outcome State Fault Refusal :=
  s.on (fun s => s.migrationDone b.val)

/-! ### Uncorrectable words (R371) -/

/-- A map of a cut covers a yard byte. -/
def CutRun.mapCovers (c : CutRun) (a : Nat) (p : MapDesc → Bool) : Bool :=
  c.maps.any (fun m : Nat × MapDesc => m.2.yard && p m.2 && decide (m.2.span.1 ≤ a) && decide ((a : Int) ≤ m.2.span.2))

/-- A byte of the promotion reserve lies in a slot of a tile of some regions (R61). -/
def State.slotOwned (s : State) (i : Image) (w a base : Nat) (regions : List Nat) : Bool :=
  match Tab.find s.slots (w * 4096 + (a - base) / 131072) with
  | some hdr => regions.any (fun r => match Tab.find i.regions r with
    | some reg => (i.regionAt hdr).any (fun x => x.1 == reg.hdr)
    | none => false)
  | none => false

/-- A byte of a region belongs to what is folded into some ACCUM regions: the regions, their headers, or a slot. -/
def State.foldOwned (s : State) (i : Image) (a r : Nat) (reg : Region) (regions : List Nat) : Bool :=
  match reg.purpose with
  | 1 => regions.contains r
  | 2 => regions.any (fun k => match Tab.find i.regions k with
    | some x => x.hdr == r
    | none => false)
  | 3 => s.slotOwned i reg.working a reg.base regions
  | _ => false

/-- A cut that R371 treats as one of a group or ring: an X-cut, or an A-cut with RING above 1. -/
def CutDesc.grouped (d : CutDesc) : Bool :=
  match d.area with
  | .x _ => true
  | .a a => decide (1 < a.ring)
  | _ => false

/-- Regions that a running cut writes hold a byte (R371). -/
def State.cutOwns (s : State) (i : Image) (e a r : Nat) (reg : Region) : Bool :=
  let c := s.cut e
  s.foldOwned i a r reg (s.accRegions c.desc) ||
  (match c.desc.area with
    | .a x => reg.purpose == 5 && x.kilnRegion == r
    | _ => false) ||
  (reg.purpose == 0 && c.mapCovers a (fun m => m.wmode != wmRead))

/-- Any region of a running X-cut or ring A-cut holds a byte (R371). -/
def State.groupOwns (s : State) (i : Image) (e a r : Nat) (reg : Region) : Bool :=
  let c := s.cut e
  c.desc.grouped && (s.cutOwns i e a r reg || c.mapCovers a (fun _ => true) ||
    match c.desc.area with
    | .x x => x.resultRegion == r
    | _ => false)

/-- A seam that stands in the yard completed and not yet released holds a byte (R371). -/
def State.seamOwns (s : State) (i : Image) (a r : Nat) (reg : Region) : Bool :=
  s.seams.any (fun x : Nat × Seam => x.2.phase != .accumulating && x.2.phase != .evicted &&
    s.foldOwned i a r reg [x.2.region])

/-- The hoist that fetched a byte of a DATA region for a running cut (R371). -/
def State.fetcher (s : State) (a : Nat) : Option Nat :=
  (List.find? (fun h : Nat × Hoist => match h.2.cut, h.2.tmpl with
    | some e, some t => (s.cut e).live && (match Tab.find (s.cut e).maps t.dstMap with
      | some m => m.yard && decide (m.span.1 ≤ a) && decide ((a : Int) ≤ m.span.2)
      | none => false)
    | _, _ => false) s.hoists).map Prod.fst

/-- The hoist reads its data again from source, and the passes of its cut that may have taken the word are aborted
(R95, R371). -/
def State.refetch (s : State) (h : Nat) : State :=
  match (s.hoist h).cut with
  | some e => (s.benches.filter (fun b : Nat × Bench => b.2.cut == some e && b.2.cur.isSome)).foldl
      (fun t b => t.abortBench (b.1 / 4) (b.1 % 4)) (s.modHoist h (fun x => { x with
        pos := 0, nextSeq := 0, deliver := 0, reqs := [], ended := false, mark := 0 }))
  | none => s

/-- The stopped cut whose saved context holds a byte (R371). -/
def State.contextOwner (s : State) (a : Nat) : Option Nat :=
  s.benches.findSome? (fun b : Nat × Bench =>
    match b.2.cut, b.2.saved with
    | some e, some _ => match s.ctxAddr (s.cut e).desc.working (b.1 / 4) (b.1 % 4) with
      | some base => if base ≤ a ∧ a < base + ctxSlot then some e else none
      | none => none
    | _, _ => none) <|>
  s.cuts.findSome? (fun c : Nat × CutRun =>
    match s.image.bind (fun i => i.regionOf c.2.desc.working 4) with
    | some r => if c.2.live && c.2.kept.any (fun k =>
        decide (r.base + k.slot * ctxSlot ≤ a) && decide (a < r.base + k.slot * ctxSlot + ctxSlot)) then some c.1 else none
    | none => none)

/-- Row of R364 of an uncorrectable yard word. -/
def haltYard : Nat := 4

/-- What an uncorrectable word does, by the region that holds it (R371). -/
def State.uncorrectableIn (s : State) (i : Image) (a r : Nat) (reg : Region) : State :=
  match s.liveCuts.find? (fun e => s.groupOwns i e a r reg) with
  | some e => s.halt reg.working haltYard a (some e)
  | none =>
    if s.seamOwns i a r reg || (Tab.find s.results r).isSome then s.halt reg.working haltYard a none
    else
      match s.liveCuts.find? (fun e => s.cutOwns i e a r reg) with
      | some e => s.abortCut e
      | none =>
        match (if reg.purpose = 0 then s.fetcher a else none) with
        | some h => s.refetch h
        | none =>
          match (if reg.purpose = 4 then s.contextOwner a else none) with
          | some e => s.restartCut e
          | none => s

/-- UNCORRECTABLE_YARD: the word reads as uncorrectable until it is written, its bank moves, and its owner's action
follows (R370, R371). -/
def State.uncorrectable (s : State) (a : Nat) : State :=
  let (inj, s0) := s.takeYardInject a
  let (b, line) := s0.bankAt a
  let s1 : State := { s0 with yard := { s0.yard with
    uncorr := satAdd 16 s0.yard.uncorr 1, lastBank := s0.bankPhys b, lastLine := line, lastUncorr := true
    poison := if s0.yard.poison.contains (a / 8) then s0.yard.poison else (a / 8) :: s0.yard.poison } }
  let s2 := s1.startMigration b inj
  match s2.image with
  | some i => match i.regionAt a with
    | some (r, reg) => s2.uncorrectableIn i a r reg
    | none => s2
  | none => s2

/-- UNCORRECTABLE_YARD (R371). -/
def execUncorrectableYard (addr : Nat) (s : State) : Host.Outcome State Fault Refusal :=
  s.onYard addr (fun s => s.uncorrectable addr)

/-! ### Fills (R377 to R379) -/

/-- The fill at the head of the queue, if it is in a phase. -/
def State.fillIn (s : State) (ph : FillPhase) : Option Fill :=
  match s.fills.queue with
  | x :: _ => if x.phase = ph then some x else none
  | [] => none

/-- The fill at the head of the queue moves to a phase, shown in FCE_STAT.FILL (R377, R434). -/
def State.fillTo (s : State) (ph : FillPhase) (code : Nat) : State :=
  match s.fills.queue with
  | x :: rest =>
    State.modFace { s with fills := { s.fills with queue := { x with phase := ph } :: rest } } x.spare
      (fun f => { f with fill := code })
  | [] => s

/-- FILL_WAKE_DONE: the spare runs and its CONFIG begins, or its fill fails (R377, R379). Wakes wait during a trip and
while the reset input is asserted (R359, R404). -/
def State.fillWake (s : State) (woke : Bool) : State :=
  match s.fillIn .wake with
  | some x =>
    if !woke then s.fillFail 4
    else if s.glb.tripped || s.glb.resetHeld then s
    else ((s.setClk x.spare .run).faceWoken x.spare).fillTo .config 2
  | none => s

/-- FILL_WAKE_DONE (R377). -/
def execFillWakeDone (woke : Bool) (s : State) : Host.Outcome State Fault Refusal := s.on (fun s => s.fillWake woke)

/-- FILL_CONFIG_DONE: the spare has its map, the working's modes and its own calibration, and its test begins; or its
fill fails (R377, R379). -/
def State.fillConfig (s : State) (ok : Bool) : State :=
  match s.fillIn .config with
  | some x =>
    if ok then ((s.giveModes x.spare x.working).writeCal x.spare).fillTo .test 3 else s.fillFail 7
  | none => s

/-- FILL_CONFIG_DONE (R377). -/
def execFillConfigDone (ok : Bool) (s : State) : Host.Outcome State Fault Refusal :=
  s.on (fun s => s.fillConfig ok)

/-- FILL_TEST_DONE: what spares absorb is absorbed; the spare joins, or its fill fails (R377, R379). -/
def State.fillTest (s : State) (r : FaceTest) : State :=
  match s.fillIn .test with
  | some x =>
    if r.face.val = x.spare then
      let s1 := s.absorbTest r
      if s1.testFails r then s1.fillFail 7 else s1.join x
    else s
  | none => s

/-- FILL_TEST_DONE (R377). -/
def execFillTestDone (result : FaceTest) (s : State) : Host.Outcome State Fault Refusal :=
  s.on (fun s => s.fillTest result)

/-- WAKE_NOT_COMPLETE: a face that has not woken within 4,000 night cycles is retired; a spare fails its fill (R375,
R377). -/
def State.wakeFailed (s : State) (n : Nat) : State :=
  if s.clk n = .wakingNap ∨ s.clk n = .wakingOff then
    match s.fillIn .wake with
    | some x => if x.spare = n then s.fillFail 4 else s.retireFace n 4 0
    | none => s.retireFace n 4 0
  else s

/-- WAKE_NOT_COMPLETE (R375). -/
def execWakeNotComplete (f : Fin 72) (s : State) : Host.Outcome State Fault Refusal :=
  s.on (fun s => s.wakeFailed f.val)

/-- SPARE_MAP_STORE: the spare map goes to the store (R373). -/
def execSpareMapStore (s : State) : Host.Outcome State Fault Refusal :=
  s.on (fun s => { s with nv := { s.nv with spare := s.spare } })

end Sys2Proof.Machine
end

