-- ==== Sys2Proof/Machine/Snapshot.lean ====
section
/-! DEFINITION. Snapshots, restores and replica digests: capture, drain, commit, peer records, the two reads of a restore,
slices compared by a V-cut, and the faults of units without spares (R381, R388 to R397, R400, R401, R445). -/

namespace Sys2Proof.Machine

/-! ### The drain engine's channel (R303, R393, R397) -/

/-- The channel of a class in the VC map (R303). -/
def State.classVc (s : State) (cls : Nat) : Option Nat :=
  match s.image with
  | some i => i.vcs.findIdx? (fun v => v.cls == cls)
  | none => none

/-- The area of an S-cut. -/
def CutDesc.sArea (c : CutDesc) : SArea :=
  match c.area with
  | .s a => a
  | _ => default

/-- The area of a V-cut. -/
def CutDesc.vArea (c : CutDesc) : VArea :=
  match c.area with
  | .v a => a
  | _ => default

/-! ### SNAPSHOT_CAPTURE (R388, R389) -/

/-- The step that a working opens next: one whose step stands open runs that step again (R389). -/
def Working.nextStep (w : Working) : Nat := if w.isOpen || w.first then w.step else w.step + 1

/-- A working is held: it is at a step close, or stopped; for a test drain, its cuts have reached their stop points
(R389, R445). -/
def State.workingHeld (s : State) (w : Nat) : Bool :=
  let x := s.work w
  x.seq == .stopped || x.seq == .halted ||
  (if s.snap.test then
    (s.liveOf w).all (fun e => (s.cut e).phase == .stopped && !(s.benches.any (fun b : Nat × Bench =>
      b.2.cut == some e && b.2.stopped && b.2.cur.isSome)))
  else !x.isOpen)

/-- Held seams in ascending SEAM_ID (R390): those that stand complete in the yard, one being evicted among them until
its last write is acknowledged (R236). -/
def State.heldSeams (s : State) : List (Nat × Seam) :=
  s.seams.filter (fun x => x.2.phase == .held || x.2.phase == .evicting)

/-- The header array of a held seam (R389). -/
def State.headArray (s : State) (m : Seam) : List Byte :=
  ((s.seamHdrs m 0).map (fun a => Mem.readBytes s.yard.mem a 8)).flatten

/-- What the capture holds (R389). -/
def State.capture (s : State) (content : Nat) : Capture :=
  { tallies := s.tallies
    steps := (List.range 16).map (fun w => (w, (s.work w).nextStep))
    hoists := s.hoists.map (fun h : Nat × Hoist => (h.1, (h.2.k, h.2.pos)))
    heads := if bit content 1 then s.heldSeams.map (fun x : Nat × Seam => (x.1, s.headArray x.2)) else []
    digest := s.cfgDigest, nc := s.nc }

/-- The slot of the snapshot being taken: SEQ mod 2; a test drain takes the slot that does not hold the last committed
snapshot (R390, R445). -/
def State.snapTarget (s : State) : Nat :=
  if s.snap.test && s.snap.valid then 1 - s.snap.slot else (s.snap.seq + 1) % 2

/-- The S-cut's run begins with the capture (R388, R401). -/
def State.beginDrain (s : State) (e : Nat) (cap : Capture) : State :=
  let d := s.descOf e
  let fallback := !s.unitHealthy 7 0
  let s1 := s.modCut e (fun c => { CutRun.reset with
    phase := .running, desc := d, runs := c.runs, step := (s.work d.working).nextStep, startNc := s.nc
    maps := match s.image with
      | some i => i.maps
      | none => []
    kd2 := (s.snap.seq + 1) % 2 ^ 32, kd3 := s.snapTarget })
  let s2 := s1.orFlags e
    ((if s.snap.inserted then flag 24 else 0) + (if s.snap.forced then flag 25 else 0) +
     (if cap.heads.isEmpty then 0 else flag 26) + (if fallback then flag 27 else 0))
  let s3 := match s2.drainUnit with
    | some u => s2.modUnit u.1 u.2 (fun x => { x with busy := some e, working := d.working })
    | none => s2
  (d.hoists.take 2).foldl (fun t h => if h < 128 then
      t.modHoist h (fun x => { x with cut := some e, st := .stream, taken := [0] }) else t) s3

/-- Workings that a test drain pre-empted go on, but for those that software pre-empts (R445). -/
def State.endHold (s : State) : State :=
  (List.range s.workCount).foldl (fun t w =>
    if ((t.work w).seq == .running || (t.work w).seq == .stopping) && !t.preempted w then t.resumeWorking w else t) s

/-- SNAPSHOT_CAPTURE: once every working is held and the drain engine runs, the capture is taken; it clears the pending
request and FORCE, and the drain begins (R388, R389). -/
def State.snapCapture (s : State) : State :=
  if s.snap.phase = .holding ∧ (List.range s.workCount).all s.workingHeld = true then
    match s.drainUnit with
    | some u =>
      if s.active (unitTile u.1 u.2) then
        let e := s.snap.entry
        let cap := s.capture (s.descOf e).sArea.content
        let s1 : State := { s with snap := { s.snap with phase := .draining, cap := cap } }
        let s2 := s1.beginDrain e cap
        if s.snap.test then s2.endHold
        else { s2 with
          health := { s2.health with pending := false }
          snap := { s2.snap with force := false, captureStep := (s.work s.refWorking).nextStep } }
      else s.wake (unitTile u.1 u.2)
    | none => s
  else s

/-- SNAPSHOT_CAPTURE (R389). -/
def execSnapshotCapture (s : State) : Host.Outcome State Fault Refusal := s.on State.snapCapture

/-! ### Sections (R390) -/

/-- The SCHED section (R390). -/
def Capture.sched (c : Capture) : List Byte :=
  ((List.range 1024).map (fun i => natLe (Tab.get 0 c.tallies i) 8)).flatten ++
  ((List.range 128).map (fun h =>
    let x := Tab.get (0, 0) c.hoists h
    natLe x.2 8 ++ natLe x.1 4 ++ natLe 0 4)).flatten

/-- Tiles of a held seam, in slice order. -/
def State.seamTiles (s : State) (m : Seam) : List TileRef :=
  match s.image with
  | some i => (List.range (ceilDiv m.rows (max m.pTile 1) * ceilDiv m.cols (max m.lTile 1))).filterMap
      (fun k => i.wTile (s.cut m.entry).desc m.region k 0 m.e128)
  | none => []

/-- The elements of a tile in its yard format (R390). -/
def State.tileBytes (s : State) (t : TileRef) : List Byte :=
  let h := readHdr s.yard.mem t.hdr
  (t.positions.map (fun p => natLe (s.elemCode t h p.1 p.2) (elemSize h.e128))).flatten

/-- The HELD record of a seam (R390): BYTES counts its headers and elements. -/
def State.heldRecord (s : State) (id : Nat) (heads : List Byte) : List Byte :=
  match Tab.find s.seams id with
  | some m =>
    let elems := ((s.seamTiles m).map s.tileBytes).flatten
    natLe id 4 ++ natLe m.region 2 ++ natLe (b2n m.e128) 1 ++ natLe 0 1 ++
      natLe (heads.length + elems.length) 8 ++ heads ++ elems
  | none => []

/-- The sections of a snapshot by type: SCHED and HELD from the capture and the yard, the others as the drain read them
from fabric memory (R390). -/
def State.snapSections (s : State) (content : Nat) (given : List (Nat × List Byte)) : List (Nat × List Byte) :=
  (bitList content 5).map (fun k =>
    (k + 1,
      match k with
      | 0 => s.snap.cap.sched
      | 1 => (s.snap.cap.heads.map (fun x => s.heldRecord x.1 x.2)).flatten
      | _ => ((given.find? (fun g => g.1 == k + 1)).map Prod.snd).getD []))

/-- A byte string padded with zeros to a multiple of 64. -/
def pad64 (bs : List Byte) : List Byte := bs ++ List.replicate ((64 - bs.length % 64) % 64) 0

/-- Directory entries of the sections that lie from an offset on (R390). -/
def directory : Nat → List (Nat × List Byte) → List Byte
  | _, [] => []
  | off, (ty, bs) :: rest =>
    natLe off 8 ++ natLe bs.length 8 ++ natLe (crc64 bs).toNat 8 ++ natLe ty 2 ++ natLe 0 6 ++
      directory (off + (pad64 bs).length) rest

/-- The header of a snapshot (R390); a test drain's MAGIC differs (R445). -/
def Capture.header (c : Capture) (test : Bool) (count seq content : Nat) : List Byte :=
  natLe (if test then 0x4B525354 else 0x4B52534E) 4 ++ natLe 1 2 ++ natLe count 2 ++ natLe seq 8 ++ natLe c.nc 8 ++
  natLe content 2 ++ natLe 0 6 ++ (c.digest ++ List.replicate (48 - c.digest.length) 0) ++
  ((List.range 16).map (fun w => natLe (Tab.get 0 c.steps w) 8)).flatten ++ List.replicate 48 0

/-- A snapshot's pieces by offset, the header last (R390, R392). -/
def snapPieces (hdr : List Byte) (secs : List (Nat × List Byte)) : List (Nat × List Byte) :=
  let dir := directory 0x200 secs
  [(0x200, (secs.map (fun x => pad64 x.2)).flatten),
   (0x100, dir ++ List.replicate (0x100 - dir.length) 0), (0, hdr)]

/-- A byte string in pieces of at most 4,096 bytes, with their offsets (R393). -/
def chunks : Nat → Nat → List Byte → List (Nat × List Byte)
  | 0, _, _ => []
  | k + 1, off, bs => if bs.isEmpty then [] else (off, bs.take 4096) :: chunks k (off + 4096) (bs.drop 4096)

/-- A record of the SNAPSHOT channel (R393). -/
def peerRecord (slot off : Nat) (bs : List Byte) : List Byte :=
  natLe slot 1 ++ natLe 0 7 ++ natLe off 8 ++ natLe bs.length 8 ++ bs

/-! ### SNAPSHOT_COMMIT (R392, R393) -/

/-- What a committed snapshot reports (R386, R392); a test drain changes neither SNAP_CTL nor the risk estimate (R445). -/
def State.reportSnap (s : State) : State :=
  if s.snap.test then s
  else { s with
    health := { s.health with score := 0 }
    snap := { s.snap with
      seq := s.snap.seq + 1, slot := s.snapTarget, valid := true, lastNc := s.snap.cap.nc
      lastSteps := s.snap.cap.steps } }

/-- The drain is over: its S-cut ends, and what waited for it goes on (R391, R392). -/
def State.drainOver (s : State) (bytes : Nat) : State :=
  let e := s.snap.entry
  let seq := s.snap.seq + 1
  let slot := s.snapTarget
  let s1 := s.reportSnap
  let s2 : State := { s1 with snap := { s1.snap with phase := .idle } }
  let s3 := (s2.setEvt evSnap).logEvt 0x0401 seq slot
  let s4 := s3.modCut e (fun c => { c with kd0 := bytes % 2 ^ 32, kd1 := bytes / 2 ^ 32 % 2 ^ 32 })
  (((s4.endStreams e).endCut e (finalStatus (s4.cut e).flags.toNat)).releaseWaiting).issueAllHeld

/-- A peer snapshot's records are sent (R393). -/
def State.sendSnap (s : State) (e port vc slot : Nat) (ps : List (Nat × List Byte)) : State :=
  let recs := (ps.map (fun x => chunks (x.2.length / 4096 + 1) x.1 x.2)).flatten
  let s1 := (recs.zipIdx).foldl (fun t r =>
    t.pushTx port vc e (peerRecord slot r.1.1 r.1.2) (decide (r.2 + 1 = recs.length))) s
  s1.modCut e (fun c => { c with items := 1 })

/-- Every record of a peer snapshot has been acknowledged (R300, R393). -/
def State.snapAcked (s : State) (e port vc : Nat) : Bool :=
  s.sentAll port vc e && !((s.port port).replay.any (fun f => f.vc == vc && f.type == ftData))

/-- SNAPSHOT_COMMIT: the sections are in place and the header follows; over a peer, the records are sent first, and the
commit waits for the last acknowledgement (R392, R393). -/
def State.snapCommit (s : State) (given : List (Nat × List Byte)) : State :=
  let e := s.snap.entry
  if s.snap.phase = .draining ∧ (s.cut e).phase = .running then
    let a := (s.cut e).desc.sArea
    let secs := s.snapSections a.content given
    let ps := snapPieces (s.snap.cap.header s.snap.test secs.length (s.snap.seq + 1) a.content) secs
    let bytes := (ps.map (fun x => x.2.length)).sum
    if a.mode = 1 then
      match s.classVc 2 with
      | some vc =>
        if (s.cut e).items = 0 then s.sendSnap e a.port vc s.snapTarget ps
        else if s.snapAcked e a.port vc then s.drainOver bytes else s
      | none => s
    else
      let base := nth 0 a.targetBase s.snapTarget
      (ps.foldl (fun t x => t.putFabric (base + x.1) x.2) s).drainOver bytes
  else s

/-- SNAPSHOT_COMMIT (R392). -/
def execSnapshotCommit (sections : List (Nat × List Byte)) (s : State) : Host.Outcome State Fault Refusal :=
  s.on (fun s => s.snapCommit sections)

/-! ### PEER_SNAPSHOT_RECORD (R393) -/

/-- A record leaves the SNAPSHOT channel of the port that holds one. -/
def State.takeRecord (s : State) (n : Nat) : State :=
  match s.classVc 2 with
  | some vc =>
    match (List.range 4).find? (fun p => !((s.port p).chan vc).rx.isEmpty) with
    | some p => s.modPort p (fun q => q.modChan vc (fun c => c.consume (24 + n)))
    | none => s
  | none => s

/-- PEER_SNAPSHOT_RECORD: the record is written into its receive slot, or dropped and logged (R393). -/
def State.peerSnap (s : State) (slot off : Nat) (data : List Byte) : State :=
  let s1 := s.takeRecord data.length
  match s.snapPart with
  | some p =>
    if slot < 2 ∧ data.length ≤ 4096 ∧ off + data.length ≤ p.rxLen then
      s1.putFabric (nth 0 p.rxBase slot + off) data
    else s1.logEvt (Config.unnamedCode 2) slot off
  | none => s1.logEvt (Config.unnamedCode 2) slot off

/-- PEER_SNAPSHOT_RECORD (R393). -/
def execPeerSnapshotRecord (slot : Nat) (offset : Nat) (data : List Byte) (s : State) :
    Host.Outcome State Fault Refusal := s.on (fun s => s.peerSnap slot offset data)

/-! ### Restore (R394, R395) -/

/-- SNAP_CTL.RESTORE: ignored and logged while busy, OUTCOME 2 while a sequencer or a cut runs, else the first read
begins (R394, R432). -/
def State.startRestore (s : State) : State :=
  if s.snapBusy then s.logEvt (Config.unnamedCode 3) 0xE0000 2
  else if s.quiet then { s with snap := { s.snap with phase := .restoreFirst } }
  else { s with snap := { s.snap with outcome := 2 } }

/-- SNAP_CTL_RESTORE (R394). -/
def execSnapCtlRestore (s : State) : Host.Outcome State Fault Refusal := s.on State.startRestore

/-- SNAP_CTL_FORCE: a snapshot is asked for (R388, R432). -/
def execSnapCtlForce (s : State) : Host.Outcome State Fault Refusal :=
  s.on (fun s => { s with snap := { s.snap with force := true } })

/-- The directory of a snapshot: offset, length, CRC and type of each section (R390). -/
def snapDir (bs : List Byte) : List (Nat × Nat × Nat × Nat) :=
  (List.range (min (field bs 6 2) 8)).map (fun k =>
    let a := 0x100 + 32 * k
    (field bs a 8, field bs (a + 8) 8, field bs (a + 16) 8, field bs (a + 24) 2))

/-- Bytes of a section. -/
def sectionBytes (bs : List Byte) (off len : Nat) : List Byte := (bs.drop off).take len

/-- Every section's CRC matches (R390, R394). -/
def crcsOk (bs : List Byte) : Bool :=
  (snapDir bs).all (fun x => (sectionBytes bs x.1 x.2.1).length == x.2.1 &&
    (crc64 (sectionBytes bs x.1 x.2.1)).toNat == x.2.2.1)

/-- The checks of the first read (R394). -/
def State.snapGood (s : State) (bs : List Byte) : Bool :=
  field bs 0 4 == 0x4B52534E && field bs 4 2 == 1 && (bs.drop 0x20).take 48 == s.cfgDigest && crcsOk bs

/-- A restore ends with an outcome (R394, R432). -/
def State.restoreOutcome (s : State) (code : Nat) (bad : Bool) : State :=
  State.setEvt { s with snap := { s.snap with phase := .idle, outcome := code, blocked := bad } } evSnap

/-- RESTORE_FIRST_READ_DONE (R394). -/
def execRestoreFirstReadDone (bytes : List Byte) (s : State) : Host.Outcome State Fault Refusal :=
  s.on (fun s =>
    if s.snap.phase = .restoreFirst then
      if s.snapGood bytes then { s with snap := { s.snap with phase := .restoreSecond } }
      else s.restoreOutcome 2 s.snap.blocked
    else s)

/-- The section of a type, empty when the snapshot has none. -/
def snapSection (bs : List Byte) (ty : Nat) : List Byte :=
  match (snapDir bs).find? (fun x => x.2.2.2 == ty) with
  | some x => sectionBytes bs x.1 x.2.1
  | none => []

/-- Index tuples of a map in canonical order, dimension 0 fastest (R126). -/
def MapDesc.indices (m : MapDesc) : List (List Int) :=
  (List.range 6).foldl (fun acc d =>
    if d < m.dims then
      ((List.range (m.dimAt d).extent).map (fun k => acc.map (fun idx => idx ++ [Int.ofNat k]))).flatten
    else acc.map (fun idx => idx ++ [0])) [[]]

/-- Bytes of an element of a map of whole bytes. -/
def MapDesc.elemBytes (m : MapDesc) : Nat := typeBits m.type / 8

/-- Elements in canonical order written back through a map, those at the given index tuples (R394). -/
def State.writeBack (s : State) (m : MapDesc) (idx : List (List Int)) (bs : List Byte) : State :=
  (idx.zipIdx).foldl (fun t x =>
    t.putFabric ((m.bitAddr x.1).toNat / 8) ((bs.drop (x.2 * m.elemBytes)).take m.elemBytes)) s

/-- Parts of a section written back through the maps they came from, in order. -/
def State.writeParts (s : State) : List (MapDesc × List (List Int)) → List Byte → State
  | [], _ => s
  | (m, idx) :: rest, bs =>
    State.writeParts (s.writeBack m idx bs) rest (bs.drop (idx.length * m.elemBytes))

/-- The maps of the WEIGHTS section: for each U-cut the read buffer of its next run at the given steps (R285, R390). -/
def Image.weightParts (i : Image) (steps : Nat → Nat) : List (MapDesc × List (List Int)) :=
  (i.cuts.map (fun c : Nat × CutDesc =>
    if c.2.kind = 4 then
      let buf := c.2.readBuffer (c.2.nextStep (steps c.2.working))
      (List.range 4).filterMap (fun t =>
        (Tab.find i.maps (nth 0xFFFF c.2.maps (4 * buf + t))).map (fun m => (m, m.indices)))
    else [])).flatten

/-- The maps of the TAILINGS section (R390). -/
def Image.tailParts (i : Image) : List (MapDesc × List (List Int)) :=
  i.cuts.filterMap (fun c : Nat × CutDesc =>
    if c.2.kind = 5 then (Tab.find i.maps c.2.xArea.tailMap).map (fun m => (m, m.indices)) else none)

/-- The copies of the SCALES section: the one that each X-cut's next run reads (R309, R390). -/
def Image.scaleParts (i : Image) (steps : Nat → Nat) : List (MapDesc × List (List Int)) :=
  i.cuts.filterMap (fun c : Nat × CutDesc =>
    if c.2.kind = 5 then
      (Tab.find i.maps c.2.xArea.scaleMap).map (fun m =>
        let copy := c.2.runIndex (c.2.nextStep (steps c.2.working)) % 2
        (m, (List.range (m.dimAt 0).extent).map (fun k => [Int.ofNat k, Int.ofNat copy, 0, 0, 0, 0])))
    else none)

/-- Tallies, steps, and the position and re-arm index of each hoist (R394). -/
def State.restoreSched (s : State) (bs sched : List Byte) : State :=
  { s with
    tallies := (List.range 1024).map (fun k => (k, field sched (8 * k) 8))
    working := (List.range 16).map (fun w => (w, { Working.reset with
      seq := .stopped, step := field bs (0x50 + 8 * w) 8, first := true, restored := true }))
    hoists := s.hoists.map (fun h : Nat × Hoist => (h.1, { h.2 with
      pos := field sched (8192 + 16 * h.1) 8, k := field sched (8192 + 16 * h.1 + 8) 4 })) }

/-- Halted cuts with their saved contexts are discarded; their records keep the status they showed (R365, R394). -/
def State.dropCuts (s : State) : State :=
  { s with
    cuts := s.cuts.map (fun c : Nat × CutRun => (c.1, { CutRun.reset with desc := c.2.desc, runs := 0 }))
    hoists := s.hoists.map (fun h : Nat × Hoist => (h.1, h.2.idleNow))
    units := s.units.map (fun u : Nat × UnitState => (u.1, { u.2 with busy := none, cutFaults := 0 }))
    fills := { s.fills with waiting := [], adopted := [] }
    snap := { s.snap with waiting := [], due := [] }
    benches := [], kilns := [], tileSlots := [], aruns := [], xruns := [], results := [] }

/-- The headers of every ACCUM region reset, with no promoted tile and no seam (R394). -/
def State.resetAccum (s : State) : State :=
  match s.image with
  | some i =>
    let s1 : State := { s with slots := [], seams := [] }
    i.regions.foldl (fun t x =>
      if x.2.purpose = 1 then
        ((List.range (i.regionTiles x.1 x.2)).filterMap (i.hdrAddr x.1)).foldl State.resetTile t
      else t) s1
  | none => s

/-- A tile of a held seam written back: a promoted one takes the lowest free slot (R394). -/
def State.restoreTile (s : State) (t : TileRef) (h : Hdr) (elems : List Byte) : State :=
  let slot := if h.slot = 0xFFFF then none else s.freeSlot t.working
  let h1 : Hdr := { h with slot := slot.getD 0xFFFF }
  let s1 : State := match slot with
    | some k => { s with slots := Tab.set s.slots (t.working * 4096 + k) t.hdr }
    | none => s
  let n := elemSize h.e128
  ((t.positions.zipIdx).foldl (fun u x =>
    u.putYard (u.elemAt t h1 x.1.1 x.1.2) ((elems.drop (x.2 * n)).take n)) s1).putYard t.hdr h1.bytes

/-- Tiles of a held seam written back in ascending order from their headers and elements. -/
def State.restoreTiles (s : State) : List TileRef → List Byte → List Byte → State
  | [], _, _ => s
  | t :: ts, heads, elems =>
    let h := readHdr (Mem.writeBytes [] 0 (heads.take 8)) 0
    let n := t.positions.length * elemSize h.e128
    State.restoreTiles (s.restoreTile t h (elems.take n)) ts (heads.drop 8) (elems.drop n)

/-- The held seam that a W-cut of the image makes (R227, R232). -/
def seamOf (e : Nat) (d : CutDesc) (region : Nat) (e128 : Bool) : Seam :=
  { entry := e, region := region, split := max d.split 1, rows := d.axP, cols := d.axL, pTile := d.pTile
    lTile := d.lTile, e128 := e128, handoff := d.wArea.handoff, phase := .held, evictor := none }

/-- Held seams written back, record by record, at most `fuel` (R390, R394). -/
def State.restoreHeld (s : State) : Nat → List Byte → State
  | 0, _ => s
  | k + 1, bs =>
    if bs.length < 16 then s
    else
      let id := field bs 0 4
      let n := field bs 8 8
      let body := (bs.drop 16).take n
      let s1 := match s.image with
        | none => s
        | some i =>
          match i.cuts.find? (fun c : Nat × CutDesc => c.2.kind == 2 && c.2.wArea.seamId == id) with
          | none => s
          | some (e, d) =>
            let m := seamOf e d (field bs 4 2) (bit (field bs 6 1) 0)
            let t0 := State.modCut { s with seams := Tab.set s.seams id m } e (fun c => { c with desc := d })
            let ts := t0.seamTiles m
            t0.restoreTiles ts body (body.drop (8 * ts.length))
      State.restoreHeld s1 k (bs.drop (16 + n))

/-- The second read applies the snapshot (R394, R395). -/
def State.applySnap (s : State) (bs : List Byte) : State :=
  let steps := fun w => field bs (0x50 + 8 * w) 8
  let s1 := (s.dropCuts.restoreSched bs (snapSection bs 1)).resetAccum
  let s2 := match s1.image with
    | some i => ((s1.writeParts (i.weightParts steps) (snapSection bs 3)).writeParts i.tailParts
        (snapSection bs 4)).writeParts (i.scaleParts steps) (snapSection bs 5)
    | none => s1
  let s3 := s2.restoreHeld 4096 (snapSection bs 2)
  { s3 with snap := { s3.snap with captureStep := steps s3.refWorking } }

/-- A second read whose CRC fails leaves no valid state: what it had applied is a free value (R394; log entry 55). -/
def State.brokenRestore (s : State) (bs : List Byte) : State :=
  let s1 : State := { s with fresh := s.fresh + 1 }
  if Config.restoreBegan s.fresh then s1.applySnap (Config.restoreLeft s.fresh bs) else s1

/-- RESTORE_SECOND_READ_DONE: the snapshot is applied; a CRC mismatch leaves no valid state, and no sequencer starts until
a restore or a whole load succeeds (R394). -/
def execRestoreSecondReadDone (bytes : List Byte) (s : State) : Host.Outcome State Fault Refusal :=
  s.on (fun s =>
    if s.snap.phase = .restoreSecond then
      if crcsOk bytes then (s.applySnap bytes).restoreOutcome 1 false else (s.brokenRestore bytes).restoreOutcome 3 true
    else s)

/-! ### V-cuts (R396, R397, R401) -/

/-- A V-cut's stream header (R397). -/
def vHeader (count step role : Nat) : List Byte := natLe count 4 ++ natLe step 8 ++ natLe role 1 ++ natLe 0 3

/-- Roles that pair (R397): 0 FETCH, 1 SERVE, 2 CHECK. -/
def rolesPair (own peer : Nat) : Bool :=
  (own == 0 && peer == 1) || (own == 1 && (peer == 0 || peer == 1)) || (own == 2 && peer == 2)

/-- The running V-cut whose stream a channel of a port carries. -/
def State.vcutOn (s : State) (p vc : Nat) : Option Nat :=
  if s.classVc 3 = some vc then
    s.liveCuts.find? (fun e => (s.cut e).desc.kind == 7 && (s.cut e).desc.vArea.port == p)
  else none

/-- The peer's stream header reaches a V-cut: list, step and roles have to match, else the cut ends with 0x50 (R397). -/
def State.vHead (s : State) (p vc e : Nat) : State :=
  let c := s.cut e
  let bs := streamBytes ((s.port p).chan vc).rx
  if c.peer.isSome || decide (bs.length < 16) then s
  else
    let role := field bs 12 1
    let s1 := s.modPort p (fun q => q.modChan vc (fun ch => { ch with accepted := some e }.consume 16))
    if field bs 0 4 = c.desc.vArea.listCount ∧ field bs 4 8 = c.step ∧ rolesPair c.desc.vArea.role role = true then
      s1.modCut e (fun c => { c with peer := some role })
    else s1.loseCut e p []

/-- STREAM_HEADER: of an X-cut (R320) or of a V-cut (R397). -/
def execStreamHeader (p : Fin 4) (vc : Fin 8) (s : State) : Host.Outcome State Fault Refusal :=
  s.on (fun s =>
    match s.vcutOn p.val vc.val with
    | some e => s.vHead p.val vc.val e
    | none => s.streamHead p.val vc.val)

/-- A slice that differs, in the FETCH role: the bytes of each attempt are written until one's CRC is the peer's; whether
one was (R397). -/
def State.fetchSlice (s : State) (base : Nat) (crc : DWord) : List (List Byte) → State × Bool
  | [] => (s, false)
  | bs :: rest =>
    let s1 := s.putFabric base bs
    if crc64 bs = crc then (s1, true) else s1.fetchSlice base crc rest

/-- The slice has been compared: counts and flags (R401). -/
def State.countSlice (s : State) (e : Nat) (differs fetched : Bool) : State :=
  let s1 := s.modCut e (fun c => { c with
    kd0 := satAdd 32 c.kd0 1, kd1 := satAdd 32 c.kd1 (b2n differs), kd2 := satAdd 32 c.kd2 (b2n fetched) })
  s1.orFlags e ((if differs then flag 24 else 0) + (if fetched then flag 25 else 0))

/-- V_SLICE_RECORD: the peer's record of the next slice of the list is compared with the own CRC; a slice that differs is
fetched, served or counted (R397). -/
def State.vSlice (s : State) (e index length : Nat) (crc : DWord) (own : List Byte) (fetched : List (List Byte)) :
    State :=
  let c := s.cut e
  let a := c.desc.vArea
  match c.peer, s.classVc 3 with
  | some role, some vc =>
    if c.desc.kind = 7 ∧ c.phase = .running ∧ index = c.done.length ∧ index < c.items then
      let base := (nth (0, 0) c.slices index).1
      let differs := crc64 own != crc || length != own.length
      let s1 := (s.modPort a.port (fun q => q.modChan vc (fun ch => ch.consume 16))).pushTx a.port vc e
        (natLe index 4 ++ natLe own.length 4 ++ natLe (crc64 own).toNat 8) (decide (index + 1 = c.items))
      if !differs then (s1.countSlice e false false).itemDone e index
      else if a.role = 0 then
        let r := s1.fetchSlice base crc (fetched.take a.retries)
        if r.2 then (r.1.countSlice e true true).itemDone e index
        else (r.1.countSlice e true false).loseCut e a.port []
      else
        let s2 := if role = 0 then s1.pushTx a.port vc e own false else s1
        (s2.countSlice e true false).itemDone e index
    else s
  | _, _ => s

/-- V_SLICE_RECORD (R397). -/
def execVSliceRecord (e : Fin 4096) (index length : Nat) (crc : DWord) (own : List Byte)
    (fetched : List (List Byte)) (s : State) : Host.Outcome State Fault Refusal :=
  s.on (fun s => s.vSlice e.val index length crc own fetched)

/-! ### UNIT_FAULT (R381) -/

/-- Running cuts of a kind. -/
def State.liveKind (s : State) (kind : Nat) : List Nat := s.liveCuts.filter (fun e => (s.cut e).desc.kind == kind)

/-- U-cuts whose last dresser is gone halt their workings (R381). -/
def State.haltUndressed (s : State) (d : Nat) : State :=
  if s.healthyDressers.isEmpty then
    (s.liveKind 4).foldl (fun t e => t.halt (t.cut e).desc.working haltUnit d (some e)) s
  else s

/-- X-cuts that use a selector end with 0x50 and send BROKEN (R381). -/
def State.selectorFault (s : State) (i : Nat) : State :=
  ((s.liveKind 5).filter (fun e => s.selectorOf (s.cut e).desc.xArea == some i)).foldl (fun t e =>
    t.loseCut e 0xFF (brokenMsg (t.groupOf e) (t.cut e).step t.sysId 0xFF)) s

/-- The S-cut that drains starts again from its first section, on the fallback once the engine is retired (R381). -/
def State.restartDrain (s : State) : State :=
  (s.liveKind 6).foldl (fun t e =>
    let t1 := t.modCut e (fun c => { c with items := 0, kd0 := 0, kd1 := 0 })
    if t1.unitHealthy 7 0 then t1
    else
      match t1.drainUnit with
      | some u => ((t1.modUnit 7 0 (fun x => { x with busy := none })).modUnit u.1 u.2 (fun x =>
          { x with busy := some e, working := (t.cut e).desc.working })).orFlags e (flag 27)
      | none => t1) s

/-- V-cuts start again from their first slice (R381). -/
def State.restartDigest (s : State) : State :=
  (s.liveKind 7).foldl (fun t e => t.modCut e (fun c => { c with done := [], kd0 := 0, kd1 := 0, kd2 := 0 })) s

/-- A fault of a unit without a spare (R381). -/
def State.unitFault (s : State) (u : Unspared) (bad : Bool) : State :=
  match u with
  | .dresser d => (s.unitStrike 5 d.val (s.unit 5 d.val).busy bad).haltUndressed d.val
  | .selector i => (s.selectorFault i.val).unitStrike 6 i.val (s.unit 6 i.val).busy bad
  | .sluiceDp p => (s.portDown p.val).unitStrike 9 p.val (s.unit 9 p.val).busy bad
  | .drain => (s.unitStrike 7 0 (s.unit 7 0).busy bad).restartDrain
  | .digest => (s.unitStrike 8 0 (s.unit 8 0).busy bad).restartDigest

/-- UNIT_FAULT (R381). -/
def execUnitFault (u : Unspared) (unrecoverable : Bool) (s : State) : Host.Outcome State Fault Refusal :=
  s.on (fun s => s.unitFault u unrecoverable)

end Sys2Proof.Machine
end

