-- ==== Sys2Proof/Machine/Foreman.lean ====
section
/-! DEFINITION. Firmware updates and swaps (R196, R398, R407, R433). -/

namespace Sys2Proof.Machine

/-- The seal in the last 128 bytes verifies the bytes before it with a P-384 public key (R196). -/
def sealOk (key : Nat × Nat) (bs : List Byte) : Bool :=
  let n := bs.length - 128
  decide (128 ≤ bs.length) &&
  ecdsaVerify key (sha384 (bs.take n)) (beNat ((bs.drop n).take 48)) (beNat ((bs.drop (n + 48)).take 48))

/-- FMN_CTL.UPDATE: the update begins, unless one is busy (R398, R433). -/
def State.startUpdate (s : State) : State :=
  if s.foreman.update = 1 then s else { s with foreman := { s.foreman with update := 1 } }

/-- FMN_CTL_UPDATE (R398). -/
def execFmnCtlUpdate (s : State) : Host.Outcome State Fault Refusal := s.on State.startUpdate

/-- The non-volatile store with an image in the slot that does not run (R398, R405). -/
def Nv.writeFw (n : Nv) (activeB : Bool) (bs : List Byte) : Nv :=
  if activeB then { n with fwA := .written bs } else { n with fwB := .written bs }

/-- FW_UPDATE_DONE: the image has been read. One that Aethoiken's key verifies goes into the inactive slot; another is
refused (R398). -/
def State.updateDone (s : State) (bs : List Byte) (err : Bool) : State :=
  if s.foreman.update = 1 then
    if !err && decide (bs.length = s.foreman.fwLen.toNat) && sealOk Config.manufacturerKey bs then
      (State.setEvt { s with
        nv := s.nv.writeFw s.foreman.activeB bs
        foreman := { s.foreman with update := 2, inactiveOk := true } } evFmn).logEvt 0x0704 0 (b2n s.foreman.activeB)
    else
      (State.setEvt { s with foreman := { s.foreman with update := 3 } } evFmn).logEvt 0x0704 1 (b2n s.foreman.activeB)
  else s

/-- FW_UPDATE_DONE (R398). -/
def execFwUpdateDone (bytes : List Byte) (errorResponse : Bool) (s : State) : Host.Outcome State Fault Refusal :=
  s.on (fun s => s.updateDone bytes errorResponse)

/-- FMN_CTL.SWAP: the foreman restarts from the inactive slot; ignored while that slot holds no verified image or an
update is busy (R398, R433), and while no firmware runs to act on it (R407). -/
def State.swapFw (s : State) : State :=
  if s.foreman.inactiveOk && s.foreman.update != 1 && s.foremanUp then s.restartForeman (!s.foreman.activeB) true
  else s

/-- FMN_CTL_SWAP (R398). -/
def execFmnCtlSwap (s : State) : Host.Outcome State Fault Refusal := s.on State.swapFw

end Sys2Proof.Machine
end

