-- ==== Sys2Proof/Machine/ImageDecode.lean ====
section
/-! DEFINITION. The decoder of a Boruene image: header, directory, sections and their items, from the bytes (R113 to
R116, R143 to R145, R158, R172 to R179, R183, R185, R197, R214, R222, R242, R279, R296, R306, R324, R363, R399, R400, R435). -/

namespace Sys2Proof.Machine

/-- Item `k` of a table of items of `size` bytes that begins at `off`. -/
def itemAt (bs : List Byte) (off size k : Nat) : List Byte := (bs.drop (off + k * size)).take size

/-- The items of a table, numbered from 0, decoded by `f`. -/
def tableOf {α : Type} (bs : List Byte) (off size n : Nat) (f : List Byte → α) : Tab α :=
  (List.range n).map (fun k => (k, f (itemAt bs off size k)))

/-- Numbers of `size` bytes each, from `off` on. -/
def fieldsAt (bs : List Byte) (off size n : Nat) : List Nat :=
  (List.range n).map (fun k => field bs (off + k * size) size)

/-! ### Header and directory (R172, R173) -/

/-- The header (R172). -/
def decodeHeader (bs : List Byte) : Header :=
  { magic := field bs 0 4, format := field bs 4 2, kind := field bs 6 1, scope := field bs 7 1
    length := field bs 8 4, keySlot := field bs 0xC 1, commit := field bs 0xD 1, sections := field bs 0xE 2
    imageId := field bs 0x10 8, imageVer := field bs 0x18 4, baseDigest := (bs.drop 0x20).take 48
    recordBase := field bs 0x50 8, recDepth := field bs 0x58 1, workings := field bs 0x59 1
    cuts := field bs 0x5A 2 }

/-- A section as the directory lists it: TYPE, OFFSET, LENGTH (R173). -/
def directoryOf (bs : List Byte) (h : Header) : List (Nat × Nat × Nat) :=
  (List.range (min h.sections 16)).map (fun k =>
    (field bs (0x100 + 16 * k) 2, field bs (0x104 + 16 * k) 4, field bs (0x108 + 16 * k) 4))

/-- The first section of a type; nothing where the image has none. -/
def sectionOf (bs : List Byte) (dir : List (Nat × Nat × Nat)) (ty : Nat) : List Byte :=
  match dir.find? (fun d => d.1 == ty) with
  | some d => (bs.drop d.2.1).take d.2.2
  | none => []

/-- Fields of the header that a whole image supplies for itself (R172). -/
def Header.wholeOk (h : Header) : Bool :=
  h.commit == 0 && h.baseDigest.all (· == 0) && h.recordBase % 64 == 0 && [1, 2, 4, 8].contains h.recDepth &&
  decide (1 ≤ h.workings) && decide (h.workings ≤ 16) && decide (1 ≤ h.cuts) && decide (h.cuts ≤ 4096) &&
  decide (h.recordBase + h.cuts * h.recDepth * 64 ≤ Config.fabricBytes)

/-- The header obeys R172; `n` is the number of bytes read. -/
def Header.ok (h : Header) (n : Nat) : Bool :=
  h.magic == 0x4B524249 && h.format == 1 && decide (h.kind ≤ 2) && h.length == n && h.length % 64 == 0 &&
  decide (h.length ≤ 2 ^ 31) && decide (0x200 + 128 ≤ h.length) && decide (h.keySlot ≤ 3) && decide (h.commit ≤ 1) &&
  decide (1 ≤ h.sections) && decide (h.sections ≤ 16) && (h.kind != 0 || h.wholeOk)

/-- Two sections share no byte. -/
def apart (a b : Nat × Nat × Nat) : Bool :=
  decide (a.2.1 + a.2.2 ≤ b.2.1) || decide (b.2.1 + b.2.2 ≤ a.2.1)

/-- Every two members of a list satisfy `f`. -/
def allPairs {α : Type} (f : α → α → Bool) : List α → Bool
  | [] => true
  | x :: xs => xs.all (f x) && allPairs f xs

/-- The directory obeys R173, and no type of section comes twice (R174). -/
def directoryOk (h : Header) (dir : List (Nat × Nat × Nat)) : Bool :=
  dir.all (fun d => d.2.1 % 64 == 0 && decide (0x200 ≤ d.2.1) && decide (d.2.1 + d.2.2 + 128 ≤ h.length)) &&
  allPairs apart dir && allPairs (fun a b => a.1 != b.1) dir &&
  (h.kind != 0 || (List.range 9).all (fun k => dir.any (fun d => d.1 == k + 1)))

/-! ### PARTITION, YARD, FLOORS (R175 to R178) -/

/-- A working entry (R175). -/
def decodeWorking (b : List Byte) : WorkingEntry :=
  { faces := field b 0 16 % 2 ^ 72, fabRd := field b 0x10 2, fabWr := field b 0x12 2
    autorun := bit (field b 0x14 1) 0 }

/-- A region entry (R176). -/
def decodeRegion (b : List Byte) : Region :=
  { base := field b 0 4, size := field b 4 4, working := field b 8 1, purpose := field b 9 1, swz := field b 0xA 1
    hdr := field b 0xC 2, backing := field b 0xE 2, masks := (fieldsAt b 0x10 2 8).map (· % 32768) }

/-- Regions of a YARD section (R176). -/
def decodeRegions (sec : List Byte) : Tab Region := tableOf sec 64 64 (field sec 0 4) decodeRegion

/-! ### HOISTS (R113 to R116, R143 to R145, R158; log entry 24 gives the section's layout) -/

/-- A dimension record (R116). -/
def decodeDim (b : List Byte) : DimRec :=
  { extent := field b 0 4, stride := signed (field b 4 5) 40, start := signed (field b 9 4) 32
    fill := field b 13 2, fillScale := field b 15 1 }

/-- A map descriptor (R114, R115). -/
def decodeMap (b : List Byte) : MapDesc :=
  let c := field b 0 4
  let bl := field b 0x18 2
  { type := bits c 3 0, dims := bits c 6 4, blkDim := bits c 9 7, yard := bit c 10, wmode := bits c 12 11
    swz := bits c 15 13, gather := bits c 17 16, blYard := bit c 18, scaleMap := field b 4 2, idxMap := field b 6 2
    base := field b 8 8, blBase := field b 0x10 8, blA := bits bl 2 0, blB := bits bl 5 3, blC := bits bl 8 6
    idxDim := field b 0x1A 1 % 8, idxSrc := field b 0x1B 1
    dim := (List.range 6).map (fun d => decodeDim (itemAt b 0x20 16 d))
    masks := (fieldsAt b 0x80 2 8).map (· % 32768), blkExt := fieldsAt b 0x90 4 3 }

/-- A receiver entry (R145). -/
def decodeRecv (x : Nat) : RecvEntry :=
  { face := bits x 6 0, bench := bits x 8 7, port := bits x 10 9, valid := bit x 15 }

/-- A hoist template (R143, R144). -/
def decodeHoist (b : List Byte) : HoistTmpl :=
  let c := field b 0 4
  { working := bits c 3 0, src := bits c 5 4, dst := bits c 8 6, target := bits c 13 9, persist := bit c 14
    detachEn := bit c 15, spillEn := bit c 16, spiller := bit c 17, walker := bit c 18, srcMap := field b 4 2
    dstMap := field b 6 2, floor := field b 8 2, tsize := field b 0xA 1, recvN := field b 0xB 1
    doneTally := field b 0xC 2, detachMask := field b 0xE 2, recv := (fieldsAt b 0x10 2 16).map decodeRecv
    detachCycles := field b 0x30 4, detachBase := field b 0x34 1, spillHoist := field b 0x35 1
    spillMap := field b 0x36 2, rearmFirst := field b 0x38 4, rearmCount := field b 0x3C 2
    borrow := field b 0x3E 2 }

/-- A re-arm entry (R158). -/
def decodeRearm (b : List Byte) : RearmEntry :=
  { srcBase := field b 0 8, srcScaleBase := field b 8 8, dstBase := field b 0x10 8, dstScaleBase := field b 0x18 8
    blBase := field b 0x20 8, idxBase := field b 0x28 8, keep := field b 0x30 2 % 64 }

/-- How many maps, templates and re-arm entries a HOISTS section holds (log entry 24). -/
def hoistCounts (sec : List Byte) : Nat × Nat × Nat := (field sec 0 4, field sec 4 4, field sec 8 4)

/-- Bytes of the index list of a HOISTS section, padded to a line (log entry 24). -/
def hoistIndexBytes (sec : List Byte) : Nat :=
  let (m, t, r) := hoistCounts sec
  ceilDiv (4 * (m + t + r)) 64 * 64

/-- Items of a HOISTS section, from `off` on, with the indices from `first` on in the index list. -/
def indexed {α : Type} (sec : List Byte) (first off size n : Nat) (f : List Byte → α) : Tab α :=
  (List.range n).foldl (fun t k => Tab.set t (field sec (64 + 4 * (first + k)) 4) (f (itemAt sec off size k))) []

/-- The map table of a HOISTS section. -/
def decodeMaps (sec : List Byte) : Tab MapDesc :=
  indexed sec 0 (64 + hoistIndexBytes sec) 192 (hoistCounts sec).1 decodeMap

/-- The templates of a HOISTS section. -/
def decodeHoists (sec : List Byte) : Tab HoistTmpl :=
  let (m, t, _) := hoistCounts sec
  indexed sec m (64 + hoistIndexBytes sec + 192 * m) 64 t decodeHoist

/-- The re-arm table of a HOISTS section. -/
def decodeRearms (sec : List Byte) : Tab RearmEntry :=
  let (m, t, r) := hoistCounts sec
  indexed sec (m + t) (64 + hoistIndexBytes sec + 192 * m + 64 * t) 64 r decodeRearm

/-- Bytes that a HOISTS section's counts call for. -/
def hoistBytes (sec : List Byte) : Nat :=
  let (m, t, r) := hoistCounts sec
  64 + hoistIndexBytes sec + 192 * m + 64 * t + 64 * r

/-! ### SLUICE (R306) -/

/-- A port entry; with HEALTH 0 the basic thresholds apply (R306). -/
def decodePort (b : List Byte) : PortEntry :=
  let x := field b 2 1 == 1
  { enable := bit (field b 0 1) 0, peerPort := field b 1 1, expert := x, peerSysId := field b 8 8
    vcFrames := fieldsAt b 0x10 2 8, berExp := if x then field b 0x20 1 else 5
    biasLanePct := if x then field b 0x21 1 else 20, biasModPct := if x then field b 0x22 1 else 30
    agePct := if x then field b 0x23 1 else 90 }

/-- A VC map entry (R306). -/
def decodeVc (b : List Byte) : VcEntry := { cls := field b 0 1, working := field b 1 1 }

/-- A plan entry (R306). -/
def decodePlan (b : List Byte) : Plan :=
  { groupId := field b 0 4, working := field b 4 1, depth := field b 5 1, parentPort := field b 6 1
    childMask := field b 7 1 % 16, mergePort := field b 8 1, alt := field b 0xA 2 }

/-- Offset of the plan entries in a SLUICE section: 64 B header, four ports, the VC map and 32 B. -/
def planOffset : Nat := 64 + 4 * 64 + 64

/-- Plans of a SLUICE section (R306). -/
def decodePlans (sec : List Byte) : Tab Plan := tableOf sec planOffset 64 (field sec 8 2) decodePlan

/-! ### TABLES (R214, R250) -/

/-- A segment of a table (R214). -/
def decodeSegment (b : List Byte) : Segment :=
  { lo := field b 0 4, c0 := field b 4 4, c1 := field b 8 4, c2 := field b 12 4 }

/-- A table: header and entries (R214). -/
def decodeTable (b : List Byte) : EvalTable :=
  { br1Count := field b 2 1, br1Top := field b 4 4
    segs := (List.range (field b 0 2)).map (fun k => decodeSegment (itemAt b 64 16 k)) }

/-- A derivative slot entry with its table; OFFSET counts from DRV_OFF (R214). -/
def decodeSlot (drv : List Byte) (k : Nat) : DrvSlot :=
  let b := itemAt drv 0 16 k
  { kind := field b 0 1, table := if field b 0 1 = 1 ∨ field b 0 1 = 2 then decodeTable (drv.drop (field b 4 4))
                                  else default }

/-- The parts of a TABLES section; a LEN of 0 means none (R214, R216). -/
def decodeTables (sec : List Byte) : TablesPart :=
  let drv := (sec.drop (field sec 8 4)).take (field sec 12 4)
  { kiln := if field sec 4 4 = 0 then none else some (decodeTable ((sec.drop (field sec 0 4)).take (field sec 4 4)))
    drv := if field sec 12 4 = 0 then none else some ((List.range 8).map (decodeSlot drv)) }

/-! ### MODES (R363, R399, R435) -/

/-- The clock part (R363). -/
def decodeClk (b : List Byte) : ClkPart :=
  { groups := (fieldsAt b 0 1 8).map groupMode, surge := field b 8 1, surgeClass := field b 9 1 % 16
    surgeWorkings := field b 0xA 2, budget := field b 0xC 4, resume := field b 0x10 4
    econTemp := field b 0x14 1, fminService := field b 0x15 1, napIdle := field b 0x18 4, offIdle := field b 0x1C 4
    stallNc := field b 0x20 4, faceFmax := (List.range 72).map (fun n => field b (0x40 + 4 * n) 1)
    faceVoff := (List.range 72).map (fun n => signed (field b (0x41 + 4 * n) 1) 8) }

/-- The RISK part (R399). -/
def decodeRisk (b : List Byte) : RiskPart :=
  { preset := field b 0 1, decayShift := field b 1 1, thr := field b 2 2, weights := fieldsAt b 4 2 8 }

/-- The SNAP part (R399). -/
def decodeSnap (b : List Byte) : SnapPart :=
  { preset := field b 0 1, refWorking := field b 1 1, insertEntry := field b 2 2, minSteps := field b 4 2
    maxSteps := field b 6 2, rxBase := fieldsAt b 8 8 2, rxLen := field b 0x18 8 }

/-- A part of MODES, absent where its offset is 0 (R363). -/
def partOf {α : Type} (sec : List Byte) (hdr : Nat) (f : List Byte → α) : Option α :=
  if field sec hdr 4 = 0 then none else some (f (sec.drop (field sec hdr 4)))

/-- The MODES section (R363). -/
def decodeModes (sec : List Byte) : ModesPart :=
  { acc := partOf sec 0 (fun b => fieldsAt b 0 4 16), chk := partOf sec 4 (fun b => fieldsAt b 0 4 16)
    clk := partOf sec 8 decodeClk, risk := partOf sec 12 decodeRisk, snap := partOf sec 16 decodeSnap }

/-! ### SCHEDULE (R183, R185) -/

/-- The KIND_AREA of a D-cut (R222). -/
def decodeD (b : List Byte) : DArea :=
  { func := field b 0 1, outType := field b 1 1, fuse := field b 2 1, outSlot := bits (field b 3 1) 2 0
    inSlot := bits (field b 3 1) 6 4, accRegion := field b 4 2, savedMap := field b 6 2, signMap := field b 8 2
    privMap := field b 0xA 2, privInMap := field b 0xC 2 }

/-- The KIND_AREA of a W-cut (R242). -/
def decodeW (b : List Byte) : WArea :=
  { seamId := field b 0 4, initMap := field b 4 2, freezeMap := field b 6 2, handoff := field b 8 2
    spill := field b 0xA 1 }

/-- The KIND_AREA of an A-cut (R279). -/
def decodeA (b : List Byte) : AArea :=
  let f := field b 1 1
  { qfmt := field b 0 1, allowNarrow := bit f 0, ktable := bit f 1, deltaMake := bit f 2, mask := field b 2 1
    qbLog2 := field b 3 1, heads := field b 4 1, dh := field b 5 1, ring := field b 6 1, ringPos := field b 7 1
    smScale := field b 8 4, win := field b 0xC 4, seqBase := field b 0x10 8, ptBase := field b 0x18 8
    biasMap := field b 0x20 2, pfMap := field b 0x22 2, rxMap := field b 0x24 2, dkMap := field b 0x26 2
    dvMap := field b 0x28 2, dqRegion := field b 0x2A 2, dkvRegion := field b 0x2C 2, kilnRegion := field b 0x2E 2
    retType := field b 0x30 1, portNext := bits (field b 0x31 1) 1 0, portPrev := bits (field b 0x31 1) 3 2
    vcKv := field b 0x32 1, vcDkv := field b 0x33 1, bufs := field b 0x34 2, segMap := field b 0x36 2
    classLog2 := field b 0x38 1 }

/-- The KIND_AREA of a U-cut (R296). -/
def decodeU (b : List Byte) : UArea :=
  { opt := field b 0 1, nanGuard := bit (field b 1 1) 0, drsMask := field b 2 1 % 16, bufPhase := field b 3 1
    seamId := field b 4 4, source := field b 8 2, freezeMap := field b 0xA 2, hdepth := field b 0xC 2
    hyperBase := field b 0x10 8 }

/-- The KIND_AREA of an X-cut (R324). -/
def decodeX (b : List Byte) : XArea :=
  { seamId := field b 0 4, source := field b 4 2, plan := field b 6 2, k := field b 8 1, vc := field b 9 1
    sel := field b 0xA 1, hrPreset := field b 0xB 1
    headroom := (List.range 8).map (fun i => signed (field b (0xC + i) 1) 8), initC := field b 0x14 1
    tailMap := field b 0x16 2, scaleMap := field b 0x18 2, resultRegion := field b 0x1A 2 }

/-- The KIND_AREA of an S-cut (R400). -/
def decodeS (b : List Byte) : SArea :=
  { content := field b 0 1 % 32, mode := field b 1 1, port := field b 2 1, targetBase := fieldsAt b 8 8 2
    targetLen := field b 0x18 8 }

/-- The KIND_AREA of a V-cut (R400). -/
def decodeV (b : List Byte) : VArea :=
  { role := field b 0 1, port := field b 1 1, retries := field b 2 1, listCount := field b 4 4
    listBase := field b 8 8 }

/-- KIND_AREA by kind (R185). -/
def decodeArea (kind : Nat) (b : List Byte) : KindArea :=
  match kind with
  | 1 => .d (decodeD b)
  | 2 => .w (decodeW b)
  | 3 => .a (decodeA b)
  | 4 => .u (decodeU b)
  | 5 => .x (decodeX b)
  | 6 => .s (decodeS b)
  | 7 => .v (decodeV b)
  | _ => .empty

/-- The walk's dimensions: K in 2 B when there is one (R183). -/
def decodeWalk (b : List Byte) : List WalkDim :=
  if field b 1 1 = 1 then
    [{ taps := field b 2 2, stride := field b 4 1, dilation := field b 5 1, padding := field b 6 1 }]
  else (List.range (min (field b 1 1) 2)).map (fun k =>
    { taps := field b (2 + 4 * k) 1, stride := field b (3 + 4 * k) 1, dilation := field b (4 + 4 * k) 1
      padding := field b (5 + 4 * k) 1 })

/-- A DONE or PROGRESS entry (R183). -/
def decodeDone (b : List Byte) : DoneDesc := { idx := field b 0 2, add := field b 4 4 }

/-- An axis extent: 0 reads as 1 (R183). -/
def extentAt (b : List Byte) (o : Nat) : Nat := max (field b o 4) 1

/-- A cut descriptor (R183). -/
def decodeCut (b : List Byte) : CutDesc :=
  let fl := field b 4 2
  let walk := b.drop 0x118
  { kind := field b 0 1, working := field b 1 1, index := field b 2 2, yields := bit fl 0, release := bit fl 1
    onRestore := bit fl 2, period := field b 6 2, phase := field b 8 2, benches := field b 0xA 1
    split := field b 0xB 1, passL := bits (field b 0xC 4) 12 0, passJ := bits (field b 0xC 4) 17 13
    faces := field b 0x10 16 % 2 ^ 72
    waits := (List.range 4).map (fun k =>
      { idx := field b (0x20 + 16 * k) 2, perStep := field b (0x24 + 16 * k) 4, base := field b (0x28 + 16 * k) 8 })
    dones := (List.range 4).map (fun k => decodeDone (itemAt b 0x60 8 k)), progress := decodeDone (itemAt b 0x80 8 0)
    hoists := fieldsAt b 0x88 2 16, maps := fieldsAt b 0xA8 2 8
    bind := (List.range 8).map (fun k => fieldsAt b (0xB8 + 6 * k) 1 6)
    axR := extentAt b 0xE8, axP := extentAt b 0xEC, axL := extentAt b 0xF0, axB0 := extentAt b 0xF4
    axB1 := extentAt b 0xF8, pTile := field b 0x100 4, lTile := field b 0x104 4, pPadLo := field b 0x108 2
    pPadHi := field b 0x10A 2, lPadLo := field b 0x10C 2, lPadHi := field b 0x10E 2, shMode := field b 0x110 1
    shBuf := field b 0x111 1, shV := field b 0x112 1, shRanges := field b 0x113 1, stMode := field b 0x114 1
    stBuf := field b 0x115 1, stScale := field b 0x116 1, decl := field b 0x117 1, walkMode := field walk 0 1
    walk := decodeWalk walk, area := decodeArea (field b 0 1) (b.drop 0x180) }

/-- Descriptors of a SCHEDULE section, each at its own INDEX (R179). -/
def decodeCuts (sec : List Byte) : Tab CutDesc :=
  (List.range (sec.length / 512)).foldl (fun t k =>
    let d := decodeCut (itemAt sec 0 512 k)
    Tab.set t d.index d) []

/-! ### The image -/

/-- The entries of TALLY (R197). -/
def decodeTallies (sec : List Byte) : Tab Nat :=
  (List.range (field sec 0 4)).foldl (fun t k =>
    Tab.set t (field sec (16 + 16 * k) 2) (field sec (24 + 16 * k) 8)) []

/-- The signed bytes' digest (R196). -/
def imageDigest (bs : List Byte) : List Byte := sha384 (bs.take (bs.length - 128))

/-- The image that the bytes spell. -/
def decodeImage (bs : List Byte) : Image :=
  let h := decodeHeader bs
  let dir := directoryOf bs h
  let sec := sectionOf bs dir
  let part := sec 1
  { header := h, totalRd := field part 0 2, totalWr := field part 2 2
    workings := if part.isEmpty then [] else tableOf part 16 32 16 decodeWorking
    regions := decodeRegions (sec 2)
    floors := if (sec 3).isEmpty then [] else tableOf (sec 3) 0 4 16 (fun b => field b 0 4)
    maps := decodeMaps (sec 4), hoists := decodeHoists (sec 4), rearm := decodeRearms (sec 4)
    sysId := field (sec 5) 0 8
    ports := if (sec 5).isEmpty then [] else (List.range 4).map (fun k => decodePort (itemAt (sec 5) 64 64 k))
    vcs := if (sec 5).isEmpty then [] else (List.range 8).map (fun k => decodeVc (itemAt (sec 5) 320 4 k))
    plans := decodePlans (sec 5)
    tables := if (sec 6).isEmpty then none else some (decodeTables (sec 6))
    modes := if (sec 7).isEmpty then none else some (decodeModes (sec 7))
    cuts := decodeCuts (sec 8), tallies := decodeTallies (sec 9), digest := imageDigest bs
    types := dir.map Prod.fst }

/-! ### The sections are as long as what they hold (log entry 24) -/

/-- A part of a section lies within it. -/
def partFits (sec : List Byte) (off len : Nat) : Bool := decide (off + len ≤ sec.length)

/-- Each derivative slot's table lies within the derivative part. -/
def slotFits (drv : List Byte) (k : Nat) : Bool :=
  let b := itemAt drv 0 16 k
  let off := field b 4 4
  !(field b 0 1 == 1 || field b 0 1 == 2) ||
    (off % 64 == 0 && partFits drv off 64 && partFits drv off (64 + 16 * field (drv.drop off) 0 2))

/-- A TABLES section's parts lie within it (R214). -/
def tablesFit (sec : List Byte) : Bool :=
  let ko := field sec 0 4
  let kl := field sec 4 4
  let d := field sec 8 4
  let dl := field sec 12 4
  let drv := (sec.drop d).take dl
  decide (64 ≤ sec.length) && (kl == 0 || (ko % 64 == 0 && partFits sec ko kl && decide (64 + 16 * 64 ≤ kl))) &&
  (dl == 0 || (d % 64 == 0 && partFits sec d dl && decide (128 ≤ dl) && (List.range 8).all (slotFits drv)))

/-- The parts of MODES lie within it, and a whole image has them all (R363). -/
def modesFit (whole : Bool) (sec : List Byte) : Bool :=
  decide (64 ≤ sec.length) &&
  [(0, 64), (4, 64), (8, 0x160), (12, 64), (16, 64)].all (fun x : Nat × Nat =>
    let off := field sec x.1 4
    if off = 0 then !whole else off % 64 == 0 && partFits sec off x.2)

/-- Every section is as long as its counts say. -/
def sectionsFit (bs : List Byte) (h : Header) (dir : List (Nat × Nat × Nat)) : Bool :=
  dir.all (fun d =>
    let sec := sectionOf bs dir d.1
    match d.1 with
    | 1 => decide (16 + 16 * 32 ≤ sec.length)
    | 2 => decide (1 ≤ field sec 0 4) && decide (field sec 0 4 ≤ 1024) && partFits sec 64 (64 * field sec 0 4)
    | 3 => decide (64 ≤ sec.length)
    | 4 => partFits sec 0 (hoistBytes sec)
    | 5 => decide (field sec 8 2 ≤ 64) && partFits sec planOffset (64 * field sec 8 2)
    | 6 => tablesFit sec
    | 7 => modesFit (h.kind == 0) sec
    | 8 => sec.length % 512 == 0 && (h.kind != 0 ||
        (sec.length == 512 * h.cuts && (List.range h.cuts).all (fun k => field sec (512 * k + 2) 2 == k)))
    | 9 => partFits sec 16 (16 * field sec 0 4)
    | _ => true)

end Sys2Proof.Machine
end

