-- ==== Sys2Proof/Machine/ImageRules.lean ====
section
/-! DEFINITION. The image-level rules, which refuse a load (R18, R66, R132, R146, R158, R175 to R179, R186, R207, R214,
R233, R235, R239, R241, R250, R267, R281, R286, R303, R304, R306, R363, R399, R400, R435), and what a partial may hold. -/

namespace Sys2Proof.Machine

/-! ### PARTITION, YARD, FLOORS (R18, R132, R175 to R178) -/

/-- R18 and the rules of R175. -/
def Image.partitionOk (i : Image) : Bool :=
  let ws := (List.range 16).map (fun w => Tab.get default i.workings w)
  let n := i.header.workings
  (List.range 16).all (fun w => ((nth default ws w).faces != 0) == decide (w < n)) &&
  allPairs (fun a b => a.faces &&& b.faces == 0) ws &&
  decide ((ws.map (fun e => popCount e.faces 72)).sum ≤ 64) &&
  decide (i.totalRd ≤ 32768) && decide (i.totalWr ≤ 32768) &&
  decide ((ws.map WorkingEntry.fabRd).sum ≤ i.totalRd) && decide ((ws.map WorkingEntry.fabWr).sum ≤ i.totalWr)

/-- The fields and bounds of one region (R132, R176, R177). -/
def Region.ok (r : Region) (workings : Nat) : Bool :=
  r.base % 16384 == 0 && r.size % 16384 == 0 && decide (16384 ≤ r.size) &&
  decide (r.base + r.size ≤ Config.yardBytes) && decide (r.working < workings) && decide (r.purpose ≤ 5) &&
  decide (r.swz ≤ 5)

/-- Two regions share no byte. -/
def Region.apart (a b : Region) : Bool := decide (a.base + a.size ≤ b.base) || decide (b.base + b.size ≤ a.base)

/-- Regions of a working and purpose. -/
def Image.regionsOf (i : Image) (w purpose : Nat) : List Region :=
  (i.regions.filter (fun e : Nat × Region => e.2.working == w && e.2.purpose == purpose)).map Prod.snd

/-- Header bytes that a HEADERS region has to hold (R177). -/
def Image.headerBytes (i : Image) (hdr : Nat) : Nat :=
  8 * (i.regions.map (fun e : Nat × Region =>
    if e.2.purpose = 1 ∧ e.2.hdr = hdr then i.regionTiles e.1 e.2 else 0)).sum

/-- An ACCUM region names a HEADERS region of its working (R176). -/
def Image.namesHeaders (i : Image) (r : Region) : Bool :=
  match Tab.find i.regions r.hdr with
  | some h => h.purpose == 2 && h.working == r.working
  | none => false

/-- The region table obeys R132 and R177. -/
def Image.yardOk (i : Image) : Bool :=
  let n := i.header.workings
  i.regions.all (fun e : Nat × Region => e.2.ok n) && allPairs Region.apart (i.regions.map Prod.snd) &&
  (List.range n).all (fun w =>
    (match i.regionsOf w 4 with
      | [r] => decide ((i.workingFaces w).length * 524288 ≤ r.size)
      | _ => false) &&
    decide ((i.regionsOf w 3).length ≤ 1)) &&
  i.regions.all (fun e : Nat × Region =>
    (e.2.purpose != 2 || decide (i.headerBytes e.1 ≤ e.2.size)) && (e.2.purpose != 1 || i.namesHeaders e.2))

/-- Sum of the FLOOR fields of a working's templates (R178). -/
def Image.floorSum (i : Image) (w : Nat) : Nat :=
  (i.hoists.map (fun h : Nat × HoistTmpl => if h.2.working = w then h.2.floor else 0)).sum

/-- R178. -/
def Image.floorsOk (i : Image) : Bool :=
  (List.range 16).all (fun w => Tab.get 0 i.floors w == i.floorSum w) &&
  decide (((List.range 16).map (Tab.get 0 i.floors)).sum ≤ Config.granules)

/-! ### HOISTS (R146, R158) -/

/-- Hoists that a detaching hoist uses: one for each bit of DETACH_MASK, from DETACH_BASE on (R146). -/
def HoistTmpl.detachHoists (t : HoistTmpl) : List Nat :=
  (List.range (popCount t.detachMask 16)).map (t.detachBase + ·)

/-- A map of the image uses a block list. -/
def Image.mapListed (i : Image) (m : Nat) : Bool :=
  match Tab.find i.maps m with
  | some x => x.listed
  | none => false

/-- A map of the image uses the index form. -/
def Image.mapIndexed (i : Image) (m : Nat) : Bool :=
  match Tab.find i.maps m with
  | some x => x.indexed
  | none => false

/-- The codes of CTRL and of the receivers (R144, R145). -/
def HoistTmpl.codesOk (t : HoistTmpl) : Bool :=
  t.src != 3 && decide (t.dst ≤ 4) && (t.dst != 3 || decide (t.target ≤ 5)) &&
  (!(t.dst == 4 || t.src == 2) || decide (t.target ≤ 13)) && decide (1 ≤ t.tsize) && decide (t.tsize ≤ 16) &&
  decide (t.recvN ≤ 16) && (t.recv.take t.recvN).all (fun r => r.valid && decide (r.port ≤ 1))

/-- A detach hoist of a multicast hoist (R146). -/
def Image.detachOk (i : Image) (t : HoistTmpl) (h : Nat) : Bool :=
  decide (h ≤ 127) &&
  match Tab.find i.hoists h with
  | some x => x.working == t.working && x.dst == 2 && x.recvN == 0 && decide (t.tsize ≤ x.floor)
  | none => false

/-- A template obeys R146 and R158. -/
def Image.hoistOk (i : Image) (t : HoistTmpl) : Bool :=
  t.codesOk && decide (t.working < i.header.workings) && decide (4 ≤ t.floor) && decide (t.tsize ≤ t.floor) &&
  (!(t.dst == 2 && decide (2 ≤ t.recvN)) || decide (8 + t.tsize ≤ t.floor)) &&
  (t.recv.take t.recvN).all (fun r => (i.workingFaces t.working).contains r.face) &&
  (!t.detachEn || (t.detachHoists.all (i.detachOk t) && decide (1 ≤ t.detachCycles) &&
    decide (t.detachCycles ≤ 2 ^ 24))) &&
  (!t.spillEn || (match Tab.find i.hoists t.spillHoist with
    | some x => x.working == t.working && x.spiller
    | none => false)) &&
  (List.range (if t.persist then t.rearmCount else 0)).all (fun k =>
    (Tab.find i.rearm (t.rearmFirst + k)).isSome) &&
  (!t.persist || (!(i.mapListed t.srcMap && i.mapListed t.dstMap) &&
    !(i.mapIndexed t.srcMap && i.mapIndexed t.dstMap)))

/-- The hoist templates obey R146 and R158. -/
def Image.hoistsOk (i : Image) : Bool :=
  i.hoists.all (fun h : Nat × HoistTmpl => decide (h.1 < 128) && i.hoistOk h.2) &&
  decide ((i.hoists.map (fun h : Nat × HoistTmpl => h.2.floor)).sum ≤ Config.granules) &&
  i.maps.all (fun m : Nat × MapDesc => decide (m.1 ≤ 16383))

/-! ### SLUICE (R303, R304, R306) -/

/-- R303. -/
def Image.vcsOk (i : Image) : Bool :=
  let cls := i.vcs.map VcEntry.cls
  let count := fun k => (cls.filter (· == k)).length
  cls.all (fun c => decide (c ≤ 4)) && decide (count 1 ≤ 5) && decide (count 2 ≤ 1) && decide (count 3 ≤ 1) &&
  count 4 == 1 && nth 0 cls 7 == 4 &&
  i.vcs.all (fun v => v.cls != 1 || decide (v.working < 16))

/-- R304 for one port. -/
def Image.framesOk (i : Image) (p : PortEntry) : Bool :=
  !p.enable ||
  (nth 0 p.vcFrames 7 == 32 && decide (p.vcFrames.sum ≤ Config.linkFrames) &&
    (List.range 7).all (fun v => (nth default i.vcs v).cls == 0 || decide (64 ≤ nth 0 p.vcFrames v)))

/-- The port entry's fields lie in their ranges, the expert thresholds where HEALTH takes them (R306). -/
def PortEntry.ok (p : PortEntry) : Bool :=
  decide (p.peerPort ≤ 3) && (!p.expert || (decide (3 ≤ p.berExp) && decide (p.berExp ≤ 9) &&
    decide (5 ≤ p.biasLanePct) && decide (p.biasLanePct ≤ 100) && decide (5 ≤ p.biasModPct) &&
    decide (p.biasModPct ≤ 100) && decide (50 ≤ p.agePct) && decide (p.agePct ≤ 100)))

/-- Ports of a plan: its parent's and its children's. -/
def Plan.named (p : Plan) : List Nat :=
  (if p.parentPort = 0xFF then [] else [p.parentPort]) ++ bitList p.childMask 4

/-- A plan obeys R306. -/
def Image.planOk (i : Image) (p : Plan) : Bool :=
  decide (p.working < i.header.workings) && decide (p.depth ≤ 7) && decide (popCount p.childMask 4 ≤ 3) &&
  decide (p.mergePort ≤ 3) &&
  !((p.parentPort != 0xFF) && bit p.childMask p.parentPort) && ((p.depth == 0) == (p.parentPort == 0xFF)) &&
  p.named.all (fun q => decide (q ≤ 3) && (nth default i.ports q).enable) &&
  (p.depth == 0 || p.mergePort == p.parentPort) &&
  (p.alt == 0xFFFF || (match Tab.find i.plans p.alt with
    | some a => a.working == p.working && a.groupId != p.groupId
    | none => false))

/-- The SLUICE section obeys R303, R304 and R306. -/
def Image.sluiceOk (i : Image) : Bool :=
  i.vcsOk && i.ports.all i.framesOk && i.ports.all PortEntry.ok &&
  i.plans.all (fun p : Nat × Plan => decide (p.1 < 64) && i.planOk p.2)

/-! ### TABLES (R214, R216, R250) -/

/-- LO strictly ascends through some segments. -/
def ascends : List Segment → Bool
  | a :: b :: rest => (f32 a.lo).lt (f32 b.lo) && ascends (b :: rest)
  | _ => true

/-- A derivative slot entry obeys R214; KIND 3 only in a partial. -/
def DrvSlot.ok (s : DrvSlot) (partialImage : Bool) : Bool :=
  let t := s.table
  match s.kind with
  | 0 => true
  | 1 => t.segs.length == 64 && decide (1 ≤ t.br1Count) && decide (t.br1Count ≤ 63) &&
      ascends (t.segs.take t.br1Count) && ascends (t.segs.drop t.br1Count)
  | 2 => t.segs.length == 256 && t.br1Count == 0 && t.br1Top == 0 && ascends t.segs
  | 3 => partialImage
  | _ => false

/-- A loaded kiln table obeys R250. -/
def kilnTableOk (t : EvalTable) : Bool :=
  t.segs.length == 64 && t.br1Count == 0 && t.br1Top == 0 && (f32 (nth default t.segs 0).lo).isZero &&
  ascends t.segs && (f32 (nth default t.segs 63).lo).lt (.num 1 0)

/-- The TABLES section obeys R214 and R250. -/
def TablesPart.ok (t : TablesPart) (partialImage : Bool) : Bool :=
  (match t.kiln with
    | some k => kilnTableOk k
    | none => true) &&
  (match t.drv with
    | some l => l.all (fun x => x.ok partialImage)
    | none => true)

/-! ### MODES (R363, R399, R435) -/

/-- The clock part obeys R363. -/
def ClkPart.ok (c : ClkPart) : Bool :=
  (List.range 5).all (fun g =>
    let m := nth default c.groups g
    !(m.paced && decide (2 ≤ g)) && m.syncStages != 3) &&
  decide (c.surge ≤ 2) && (c.surge == 2 || (c.surgeClass == 0 && c.surgeWorkings == 0)) &&
  (c.surge != 2 || (decide (1 ≤ c.budget) && decide (c.budget ≤ Config.budgetBasic) && decide (1 ≤ c.resume) &&
    decide (c.resume ≤ c.budget))) &&
  decide (90 ≤ c.econTemp) && decide (c.econTemp ≤ 104) && decide (8 ≤ c.fminService) &&
  decide (c.fminService ≤ 14) && decide (1 ≤ c.napIdle) && decide (1 ≤ c.stallNc) &&
  c.faceFmax.all (fun m => decide (c.fminService ≤ m) && decide (m ≤ 16)) &&
  c.faceVoff.all (fun v => decide (-20 ≤ v) && decide (v ≤ 20))

/-- The RISK part's fields lie in their ranges: those of the expert level only where it is selected (R202, R399). -/
def RiskPart.ok (r : RiskPart) : Bool :=
  decide (r.preset ≤ 3) &&
  (r.preset != 3 || (decide (1 ≤ r.decayShift) && decide (r.decayShift ≤ 8) && decide (1 ≤ r.thr)))

/-- The SNAP part obeys R399: INSERT_ENTRY is an S-cut, and at the basic level the only one. -/
def Image.snapOk (i : Image) (p : SnapPart) : Bool :=
  decide (p.preset ≤ 1) && decide (p.refWorking ≤ 15) && (p.preset != 1 || decide (1 ≤ p.minSteps)) &&
  (p.insertEntry == 0xFFFF || (match Tab.find i.cuts p.insertEntry with
    | some d => d.kind == 6
    | none => false)) &&
  (p.preset == 1 || i.cuts.all (fun c : Nat × CutDesc => c.2.kind != 6 || c.1 == p.insertEntry))

/-- A word of ACC_MODE names a preset (R435). -/
def accWordOk (w : Nat) : Bool := decide (w % 8 ≤ 4)

/-- A word of CHK_MODE names a preset, with 1 to 3 replays at the expert level (R90, R435). -/
def chkWordOk (w : Nat) : Bool := decide (w % 8 ≤ 3) && (w % 8 != 3 || bits w 7 6 != 0)

/-- The MODES section obeys R363, R399 and R435. -/
def Image.modesOk (i : Image) : Bool :=
  match i.modes with
  | none => true
  | some m =>
    (m.acc.getD []).all accWordOk && (m.chk.getD []).all chkWordOk &&
    (match m.clk with
      | some c => c.ok
      | none => true) &&
    (match m.risk with
      | some r => r.ok
      | none => true) &&
    (match m.snap with
      | some p => i.snapOk p
      | none => true)

/-- The yard format of a working is E128 (R69, R435). -/
def Image.accE128 (i : Image) (w : Nat) : Bool :=
  match i.modes with
  | some m => ({ Face.reset with acc := BitVec.ofNat 32 (nth 0 (m.acc.getD []) w) }).accMode.e128
  | none => false

/-! ### SCHEDULE: relations between entries, regions and channels -/

/-- A region of PURPOSE ACCUM of a working that names a HEADERS region. -/
def Image.accumRegion (i : Image) (w r : Nat) : Option Region :=
  match Tab.find i.regions r with
  | some x => if x.purpose = 1 ∧ x.working = w ∧ i.namesHeaders x = true then some x else none
  | none => none

/-- The s regions of R66, from the cut's own on; those of a W-cut of rank above 0 alone (R227 is a rule on its
map). -/
def Image.splitRegions (i : Image) (d : CutDesc) (first from' : Nat) : Bool :=
  ((List.range d.split).drop from').all (fun k => (i.accumRegion d.working (first + k)).isSome)

/-- A D-cut's ACC_REGION and the regions after it (R66, R207). -/
def Image.dRegionsOk (i : Image) (d : CutDesc) (a : DArea) : Bool :=
  (List.range (max d.split 1)).all (fun k =>
    match i.accumRegion d.working (a.accRegion + k) with
    | some r => decide (2 * 131072 * (d.faceCount / max d.split 1 * d.benches) ≤ r.size)
    | none => false)

/-- The consumer of a W-cut's seam names it (R233). -/
def Image.handoffOk (i : Image) (a : WArea) : Bool :=
  match Tab.find i.cuts a.handoff with
  | some c => (c.kind == 4 || c.kind == 5) && c.seamId == some a.seamId
  | none => false

/-- The backing area of an EVICT W-cut's region (R235): it holds every seam that the image places there. -/
def Image.backingOk (i : Image) (d : CutDesc) : Bool :=
  match i.outRegion d with
  | none => true
  | some r =>
    match (Tab.find i.regions r).bind (fun x => Tab.find i.maps x.backing) with
    | some m => (m.wmode == wmRead || m.wmode == wmStore) && m.type == 4 && !m.yard && m.dims == 1 &&
        i.cuts.all (fun c : Nat × CutDesc => c.2.kind != 2 || i.outRegion c.2 != some r ||
          decide (c.2.axP * c.2.axL ≤ (m.dimAt 0).extent))
    | none => false

/-- A W-cut obeys R66, R233 and R235. -/
def Image.wRulesOk (i : Image) (d : CutDesc) (a : WArea) : Bool :=
  i.handoffOk a &&
  (match i.outRegion d with
    | some r => i.splitRegions d r 1
    | none => true) &&
  (a.spill != 1 || i.backingOk d)

/-- A U-cut's SOURCE (R281). -/
def Image.sourceOk (i : Image) (e : Nat) (a : UArea) : Bool :=
  match Tab.find i.cuts a.source with
  | some c =>
    (match c.area with
      | .w x => x.seamId == a.seamId && x.handoff == e
      | .x x => x.seamId == a.seamId
      | _ => false)
  | none => false

/-- The yard regions of an A-cut (R267): the rows are known only at run time, so the dQ region is held here to one
row. -/
def Image.aRegionsOk (i : Image) (d : CutDesc) (a : AArea) : Bool :=
  let e := i.accE128 d.working
  let qb := 2 ^ a.qbLog2
  (match i.accumRegion d.working a.dqRegion with
    | some r => decide (ceilDiv qb 512 * 512 * (32 * a.dh) * elemSize e ≤ r.size)
    | none => false) &&
  (match i.accumRegion d.working a.dkvRegion with
    | some r => decide (a.slotBytes e ≤ r.size)
    | none => false) &&
  (match Tab.find i.regions a.kilnRegion with
    | some r => r.purpose == 5 && r.working == d.working && decide (d.faceCount * d.benches * 1056 * qb ≤ r.size)
    | none => false)

/-- Elements of a map. -/
def MapDesc.count (m : MapDesc) : Nat := (List.range 6).foldl (fun a d => a * (m.dimAt d).extent) 1

/-- Bytes of the part of a section that maps of the image fill. -/
def Image.mapBytes (i : Image) (maps : List Nat) : Nat :=
  (maps.map (fun k => match Tab.find i.maps k with
    | some m => m.count * m.elemBytes
    | none => 0)).sum

/-- Bytes of a section of a snapshot (R390), every seam counted as held (R400). -/
def Image.sectionSize (i : Image) (k : Nat) : Nat :=
  let per := fun (f : CutDesc → Nat) => (i.cuts.map (fun c : Nat × CutDesc => f c.2)).sum
  match k with
  | 0 => 8 * 1024 + 16 * 128
  | 1 => per (fun d => if d.kind = 2 then
      16 + 8 * (d.pTiles * d.lTiles) + d.axP * d.axL * elemSize (i.accE128 d.working) else 0)
  | 2 => per (fun d => if d.kind = 4 then i.mapBytes (d.maps.take 4) else 0)
  | 3 => per (fun d => match d.area with
    | .x a => i.mapBytes [a.tailMap]
    | _ => 0)
  | _ => per (fun d => match d.area with
    | .x a => (match Tab.find i.maps a.scaleMap with
      | some m => (m.dimAt 0).extent
      | none => 0)
    | _ => 0)

/-- Bytes of a snapshot with a content (R390, R400). -/
def Image.contentSize (i : Image) (content : Nat) : Nat :=
  0x200 + ((bitList content 5).map (fun k => ceilDiv (i.sectionSize k) 64 * 64)).sum

/-- A channel of a class exists (R400). -/
def Image.hasClass (i : Image) (cls : Nat) : Bool := i.vcs.any (fun v => v.cls == cls)

/-- The image-level rules on one schedule entry. -/
def Image.cutRulesOk (i : Image) (e : Nat) (d : CutDesc) : Bool :=
  match d.area with
  | .d a => i.dRegionsOk d a
  | .w a => i.wRulesOk d a
  | .a a => i.aRegionsOk d a
  | .u a => i.sourceOk e a
  | .s a => decide (i.contentSize a.content ≤ a.targetLen) && (a.mode != 1 || i.hasClass 2)
  | .v _ => i.hasClass 3
  | _ => true

/-- SEAM_IDs of the cuts of a kind, with their freeze maps. -/
def Image.seamIds (i : Image) (kind : Nat) : List (Nat × Nat) :=
  i.cuts.filterMap (fun c : Nat × CutDesc =>
    match c.2.area with
    | .w a => if kind = 2 then some (a.seamId, a.freezeMap) else none
    | .u a => if kind = 4 then some (a.seamId, a.freezeMap) else none
    | _ => none)

/-- Relations among the schedule's entries (R207, R233, R235, R239, R241, R267, R281, R400). -/
def Image.scheduleOk (i : Image) : Bool :=
  i.cuts.all (fun c : Nat × CutDesc => i.cutRulesOk c.1 c.2) &&
  allPairs (fun a b => a.1 != b.1) (i.seamIds 2) && allPairs (fun a b => a.1 != b.1) (i.seamIds 4) &&
  (i.seamIds 2).all (fun w => (i.seamIds 4).all (fun u => w.1 != u.1 || w.2 == u.2))

/-- Every image-level rule (R186), on a whole image or on a partial laid over the image in force; `tables` is the
TABLES section that the load carries. -/
def Image.rulesOk (i : Image) (tables : Option TablesPart) (partialImage : Bool) : Bool :=
  i.partitionOk && i.yardOk && i.floorsOk && i.hoistsOk && i.sluiceOk && i.modesOk && i.scheduleOk &&
  i.tallies.all (fun t : Nat × Nat => decide (t.1 < 1024)) &&
  (match tables with
    | some t => t.ok partialImage
    | none => true)

/-! ### A partial laid over the image in force (R174, R179, R200) -/

/-- Items that carry no index of their own: the k-th new item takes the place of the k-th old item of the working,
further ones follow the table, and old ones without a successor go (log entry 25). -/
def replaceOwned {α : Type} (own : α → Bool) : Tab α → List α → Nat → Tab α
  | [], new, next => (new.zipIdx next).map (fun x => (x.2, x.1))
  | (k, v) :: rest, new, next =>
    if own v then
      match new with
      | x :: xs => (k, x) :: replaceOwned own rest xs (max next (k + 1))
      | [] => replaceOwned own rest [] (max next (k + 1))
    else (k, v) :: replaceOwned own rest new (max next (k + 1))

/-- One table laid over another. -/
def overlay {α : Type} (base new : Tab α) : Tab α := new.foldl (fun t x => Tab.set t x.1 x.2) base

/-- The section type is present. -/
def Image.has (p : Image) (ty : Nat) : Bool := p.types.contains ty

/-- A working's word in a list of mode words replaced. -/
def setWord (base new : Option (List Nat)) (w : Nat) : Option (List Nat) :=
  match base, new with
  | some b, some n => some (b.set w (nth 0 n w))
  | b, _ => b

/-- A face's entry of the clock part replaced. -/
def setFaceClk (base new : Option ClkPart) (n : Nat) : Option ClkPart :=
  match base, new with
  | some b, some c => some { b with
      faceFmax := b.faceFmax.set n (nth 16 c.faceFmax n), faceVoff := b.faceVoff.set n (nth 0 c.faceVoff n) }
  | b, _ => b

/-- MODES with the scope's settings replaced (R179, R363, R435). -/
def overModes (base new : Option ModesPart) (h : Header) : Option ModesPart :=
  match base, new with
  | some b, some n =>
    if h.kind = 1 then some { b with acc := setWord b.acc n.acc h.scope, chk := setWord b.chk n.chk h.scope }
    else some { b with clk := setFaceClk b.clk n.clk h.scope }
  | b, _ => b

/-- PARTITION after a face partial: the face leaves every working and joins the one that names it (R174, R201). -/
def overPartition (base new : Tab WorkingEntry) (n : Nat) : Tab WorkingEntry :=
  base.map (fun x : Nat × WorkingEntry => (x.1,
    if bit (Tab.get default new x.1).faces n then { x.2 with faces := setBit x.2.faces n }
    else { x.2 with faces := clrBit x.2.faces n }))

/-- The image in force with a partial laid over it (R200). Header, totals, ports, channels and digest stay the whole
image's. -/
def Image.laidOver (base p : Image) : Image :=
  let w := p.header.scope
  if p.header.kind = 1 then
    { base with
      regions := if p.has 2 then replaceOwned (fun r => r.working == w) base.regions (p.regions.map Prod.snd) 0
                 else base.regions
      floors := if p.has 3 then Tab.set base.floors w (Tab.get 0 p.floors w) else base.floors
      maps := overlay base.maps p.maps, hoists := overlay base.hoists p.hoists, rearm := overlay base.rearm p.rearm
      plans := if p.has 5 then replaceOwned (fun x => x.working == w) base.plans (p.plans.map Prod.snd) 0
               else base.plans
      modes := overModes base.modes p.modes p.header, cuts := overlay base.cuts p.cuts }
  else
    { base with
      workings := if p.has 1 then overPartition base.workings p.workings w else base.workings
      modes := overModes base.modes p.modes p.header }

/-! ### What a load may hold (REASON 0x5) -/

/-- Section types that a KIND permits (R174). -/
def kindTypes (kind : Nat) : List Nat :=
  if kind = 0 then [1, 2, 3, 4, 5, 6, 7, 8, 9] else if kind = 1 then [2, 3, 4, 5, 6, 7, 8] else [1, 7]

/-- Words other than one's own are 0. -/
def othersZero (l : List Nat) (w : Nat) : Bool := (List.range l.length).all (fun k => k == w || nth 0 l k == 0)

/-- Re-arm entries of a partial lie in no other working's range. -/
def Image.rearmOwned (i : Image) (w k : Nat) : Bool :=
  i.hoists.all (fun h : Nat × HoistTmpl => h.2.working == w ||
    !(decide (h.2.rearmFirst ≤ k) && decide (k < h.2.rearmFirst + h.2.rearmCount)))

/-- A working partial holds only items of its scope (R179, R363, R399); `base` is the image in force. -/
def Image.workingScope (p base : Image) : Bool :=
  let w := p.header.scope
  p.regions.all (fun r : Nat × Region => r.2.working == w) && othersZero (p.floors.map Prod.snd) w &&
  p.hoists.all (fun h : Nat × HoistTmpl => h.2.working == w && (Tab.get h.2 base.hoists h.1).working == w) &&
  p.rearm.all (fun r : Nat × RearmEntry => base.rearmOwned w r.1) &&
  p.plans.all (fun x : Nat × Plan => x.2.working == w) &&
  p.cuts.all (fun c : Nat × CutDesc => (c.2.kind == 0 || c.2.working == w) &&
    (let old := Tab.get CutDesc.empty base.cuts c.1
     old.kind == 0 || old.working == w)) &&
  (match p.modes with
    | some m => othersZero (m.acc.getD []) w && othersZero (m.chk.getD []) w && m.clk.isNone && m.risk.isNone &&
        m.snap.isNone
    | none => true) &&
  !(p.has 2 && p.header.commit == 0)

/-- A face partial holds only its face's PARTITION entry and clock entry (R179, R363). -/
def Image.faceScope (p : Image) : Bool :=
  let n := p.header.scope
  p.workings.all (fun x : Nat × WorkingEntry => (bitList x.2.faces 72).all (· == n)) &&
  decide ((p.workings.filter (fun x : Nat × WorkingEntry => bit x.2.faces n)).length ≤ 1) &&
  (match p.modes with
    | some m => m.acc.isNone && m.chk.isNone && m.risk.isNone && m.snap.isNone &&
        (match m.clk with
          | some c => othersZero c.faceFmax n && (c.faceVoff.zipIdx).all (fun x => x.2 == n || x.1 == 0)
          | none => true)
    | none => true)

/-- The load's sections and items are permitted for its KIND and SCOPE (REASON 0x5). -/
def Image.scopeOk (p : Image) (base : Option Image) : Bool :=
  let h := p.header
  p.types.all (fun t => (kindTypes h.kind).contains t) &&
  (match h.kind with
    | 0 => h.scope == 0
    | 1 => decide (h.scope < 16) && (match base with
        | some b => decide (h.scope < b.header.workings) && p.workingScope b
        | none => true)
    | _ => decide (h.scope < 72) && p.faceScope)

/-- A working partial that has to commit AT_STEP says so: a U-cut's BUF_PHASE, PERIOD or maps change, or it comes or
goes (R286). -/
def Image.bufferRule (p base : Image) : Bool :=
  p.header.kind != 1 || p.header.commit == 1 ||
  p.cuts.all (fun c : Nat × CutDesc =>
    let old := Tab.get CutDesc.empty base.cuts c.1
    if old.kind = 4 ∨ c.2.kind = 4 then
      old.kind == c.2.kind && old.uArea.bufPhase == c.2.uArea.bufPhase && old.period == c.2.period &&
        old.maps == c.2.maps
    else true)

end Sys2Proof.Machine
end

