-- ==== Sys2Proof/Machine/CutChecks.lean ====
section
/-! DEFINITION. The checks of a cut descriptor and of its maps, which refuse one cut (R48, R66, R73, R75, R97 to R100,
R129 to R131, R139, R140, R183 to R186, R203 to R205, R211 to R222, R226 to R230, R238, R242, R247, R256, R263 to R265,
R278, R279, R284, R285, R296, R303, R309, R316, R323, R324, R400, R449). -/

namespace Sys2Proof.Machine

/-- The refusal of a failing descriptor offset (R186, R192). -/
def refusal60 (off : Nat) : CutRefusal := { status := 0x60, detailMap := 0xFFFF, detailAux := off }

/-- The refusal of a failing map (R140, R192). -/
def refusal20 (map : Nat) : CutRefusal := { status := 0x20, detailMap := map, detailAux := 0 }

/-- The refusal of an overlap (R130, R131, R192). -/
def refusal21 (map aux : Nat) : CutRefusal := { status := 0x21, detailMap := map, detailAux := aux }

/-- A reference that names something. -/
def named (x : Nat) : Bool := x != 0xFFFF

/-! ### Field ranges and roles common to the kinds (R183, R184, R449) -/

/-- The cut computes on benches: D, W or A. -/
def CutDesc.onBenches (d : CutDesc) : Bool := d.kind == 1 || d.kind == 2 || d.kind == 3

/-- The cut's operands, axes and tiling are its own: D or W. -/
def CutDesc.tiled (d : CutDesc) : Bool := d.kind == 1 || d.kind == 2

/-- A hoist role names a template of the cut's working, or none (R186). -/
def Image.hoistRoleOk (i : Image) (d : CutDesc) (k : Nat) : Bool :=
  let h := nth 0xFFFF d.hoists k
  !named h || (match Tab.find i.hoists h with
    | some t => t.working == d.working
    | none => false)

/-- A tally reference (R183). -/
def tallyOk (k : Nat) : Bool := !named k || decide (k < 1024)

/-- Hoist roles that the cut calls for (R203, R230, R238, R278, R296, R323, R400, R449). `srcW` is the area of the
SOURCE W-cut of an X-cut. -/
def CutDesc.hoistRoles (d : CutDesc) (srcW : WArea) : List Nat :=
  match d.area with
  | .d a => [0, 1, 2] ++ (if a.fuse = 1 ∨ a.fuse = 2 then [3] else []) ++
      (if 1 ≤ a.func ∧ a.func ≤ 7 then [5] else []) ++ (if 5 ≤ a.func ∧ a.func ≤ 7 then [6] else []) ++
      (if 5 ≤ a.func ∧ a.func ≤ 7 ∧ named a.privMap = true then [8] else [])
  | .w a => [0, 1] ++ (if a.spill = 1 then [4] else []) ++ (if named a.initMap then [5] else []) ++
      (if named a.freezeMap then [6] else [])
  | .a a => [0, 1, 2, 5, 6, 7, 8, 9, 10] ++ (if named a.pfMap then [11] else []) ++ (if 1 < a.ring then [12] else []) ++
      [13]
  | .u a => [0, 1, 2, 3] ++ (if named a.freezeMap then [5] else []) ++ [6]
  | .x _ => [0] ++ (if srcW.spill = 1 then [1] else []) ++ [2] ++ (if named srcW.freezeMap then [3] else []) ++
      (if d.release then [4] else []) ++ [5, 6]
  | .s _ => [0, 1]
  | .v a => [0] ++ (if a.role = 0 then [1] else [])
  | .empty => []

/-- Map roles of MAPS that the cut calls for (R203, R278, R284, R449). -/
def CutDesc.mapRoles (d : CutDesc) : List Nat :=
  match d.area with
  | .d a => [0, 1, 2] ++ (if a.fuse = 1 ∨ a.fuse = 2 then [3] else [])
  | .w _ => [0, 1, 2]
  | .a a => [0, 2, 4] ++ (if a.deltaMake then [5] else []) ++ [6, 7]
  | _ => []

/-- The hoist roles: each exists, each called for is there, a U-cut leaves its others at 0xFFFF, and a
W-cut leaves HOISTS[2] there (R186, R225, R296, R449). -/
def Image.hoistChecks (i : Image) (d : CutDesc) (srcW : WArea) : List (Nat × Bool) :=
  let roles := d.hoistRoles srcW
  (List.range 16).map (fun k =>
    (0x88 + 2 * k, i.hoistRoleOk d k && (!roles.contains k || named (nth 0xFFFF d.hoists k)) &&
      (!(d.kind == 4 || (d.kind == 2 && k == 2)) || roles.contains k || !named (nth 0xFFFF d.hoists k))))

/-- The map roles that are called for are there; an A-cut leaves roles 1 and 3 at 0xFFFF (R278, R449). -/
def CutDesc.mapRoleChecks (d : CutDesc) : List (Nat × Bool) :=
  (List.range 8).map (fun k =>
    (0xA8 + 2 * k, (!d.mapRoles.contains k || named (nth 0xFFFF d.maps k)) &&
      !(d.kind == 3 && (k == 1 || k == 3) && named (nth 0xFFFF d.maps k))))

/-- L is at most 2,048 when the stationary operand is BF16 (R73, R204, R226). -/
def Image.longPass (i : Image) (d : CutDesc) : Bool :=
  decide (2048 < d.passL) && (match Tab.find i.maps (nth 0xFFFF d.maps 1) with
    | some m => m.type == 3
    | none => false)

/-- Faces of a cut lie within its working, and their number is a multiple of SPLIT (R66, R186). -/
def Image.facesOk (i : Image) (d : CutDesc) : Bool :=
  (bitList d.faces 72).all (fun n => (i.workingFaces d.working).contains n)

/-- Offsets 0x000 to 0x087 of a descriptor (R66, R183, R186, R278, R285, R296, R323, R400). -/
def Image.headChecks (i : Image) (d : CutDesc) : List (Nat × Bool) :=
  [(0x000, decide (d.kind ≤ 7)), (0x001, decide (d.working < i.header.workings)),
   (0x004, !(d.kind == 4 && d.onRestore)), (0x008, decide (d.phase < max d.period 1)),
   (0x00A, if d.onBenches then decide (1 ≤ d.benches) && decide (d.benches ≤ 4) else d.benches == 0),
   (0x00B, if d.tiled then [1, 2, 4, 8].contains d.split && d.faceCount % max d.split 1 == 0 else d.split == 1),
   (0x00C, !d.tiled || (decide (1 ≤ d.passL) && decide (d.passL ≤ 4096) && decide (1 ≤ d.passJ) &&
      decide (d.passJ ≤ 16) && !i.longPass d)),
   (0x010, !d.onBenches || (d.faces != 0 && i.facesOk d))] ++
  ((List.range 4).map (fun k => (0x20 + 16 * k, tallyOk (nth default d.waits k).idx))) ++
  ((List.range 4).map (fun k => (0x60 + 8 * k, tallyOk (nth default d.dones k).idx))) ++
  [(0x080, tallyOk d.progress.idx)]

/-- Offsets 0x0B8 to 0x10F: axis codes, extents and tiling (R183, R184, R203, R227). -/
def CutDesc.axisChecks (d : CutDesc) : List (Nat × Bool) :=
  if d.tiled then
    let w := d.kind == 2
    ((List.range 48).map (fun k => (0xB8 + k, decide (nth 0 (nth [] d.bind (k / 6)) (k % 6) ≤ 7)))) ++
    [(0x0F0, !w || d.axL % 32 == 0), (0x0F4, !w || d.axB0 == 1), (0x0F8, !w || d.axB1 == 1),
     (0x100, decide (1 ≤ d.pTile) && (if w then d.pTile == d.passJ else
        decide (d.pTile + d.pPadLo + d.pPadHi ≤ d.passJ))),
     (0x104, decide (1 ≤ d.lTile) && decide (d.lTile + d.lPadLo + d.lPadHi ≤ 512) && (!w || d.lTile % 32 == 0)),
     (0x108, !w || d.pPadLo == 0), (0x10A, !w || d.pPadHi == 0), (0x10C, !w || d.lPadLo == 0),
     (0x10E, !w || d.lPadHi == 0)]
  else []

/-- Offsets 0x110 to 0x119: buffer modes, DECL and the walk's codes (R100, R102, R103, R183). -/
def CutDesc.operandChecks (d : CutDesc) : List (Nat × Bool) :=
  if d.tiled then
    [(0x110, decide (d.shMode ≤ 2)), (0x111, d.shMode == 0 || decide (d.shBuf ≤ 5)),
     (0x112, d.shMode != 2 || [8, 16, 32, 64].contains d.shV), (0x113, d.shMode != 2 || [1, 2, 4].contains d.shRanges),
     (0x114, decide (d.stMode ≤ 2)), (0x115, d.stMode == 0 || decide (d.stBuf ≤ 5)), (0x116, decide (d.stScale ≤ 1)),
     (0x117, bits d.decl 1 0 != 3 && bits d.decl 3 2 != 3), (0x118, decide (d.walkMode ≤ 2)),
     (0x119, d.walkMode == 0 || !d.walk.isEmpty)]
  else []

/-! ### KIND_AREA ranges -/

/-- An address is aligned to 64 B and lies in fabric space (R119). -/
def lineAddrOk (a : Nat) : Bool := a % 64 == 0 && decide (a < Config.fabricBytes)

/-- A GROUP channel of a working (R303). -/
def Image.groupVc (i : Image) (w vc : Nat) : Bool :=
  match i.vcs[vc]? with
  | some v => v.cls == 1 && v.working == w
  | none => false

/-- A loaded derivative slot has a kind (R214). -/
def slotKind (drv : List DrvSlot) (k : Nat) : Nat := (nth { kind := 0, table := default } drv k).kind

/-- KIND_AREA of a D-cut (R214, R222, R449); `drv` are the derivative slots in force. -/
def DArea.checks (a : DArea) (drv : List DrvSlot) : List (Nat × Bool) :=
  [(0x180, decide (a.func ≤ 7)), (0x181, [1, 3, 4].contains a.outType), (0x182, decide (a.fuse ≤ 2)),
   (0x183, a.func != 7 || (slotKind drv a.outSlot == 1 && (!named a.privMap || slotKind drv a.inSlot == 2))),
   (0x186, a.func == 0 || named a.savedMap), (0x188, decide (a.func < 5) || named a.signMap)]

/-- KIND_AREA of a W-cut (R242). -/
def WArea.checks (a : WArea) : List (Nat × Bool) := [(0x18A, decide (a.spill ≤ 1))]

/-- A region of a PURPOSE of a working with a least size. -/
def Image.regionFits (i : Image) (w r purpose size : Nat) : Bool :=
  match Tab.find i.regions r with
  | some x => x.working == w && x.purpose == purpose && decide (size ≤ x.size)
  | none => false

/-- KIND_AREA of an A-cut (R247, R250, R263 to R265, R279, R303, R449); `kiln` says that a loaded kiln table is in
force. -/
def Image.aChecks (i : Image) (w : Nat) (a : AArea) (kiln : Bool) : List (Nat × Bool) :=
  let ring := decide (1 < a.ring)
  let vc := fun x => decide (x ≤ 7) && (!ring || i.groupVc w x)
  [(0x180, [0, 2, 3].contains a.qfmt), (0x181, !a.ktable || kiln), (0x182, decide (a.mask ≤ 4)),
   (0x183, decide (8 ≤ a.qbLog2) && decide (a.qbLog2 ≤ 12)), (0x184, decide (1 ≤ a.heads) && decide (a.heads ≤ 128)),
   (0x185, decide (1 ≤ a.dh) && decide (a.dh ≤ 8)), (0x186, decide (1 ≤ a.ring) && decide (a.ring ≤ 128)),
   (0x187, decide (a.ringPos < a.ring)),
   (0x18C, a.mask != 2 || (decide (1 ≤ a.win) && decide (a.win ≤ 2 ^ 22))), (0x190, lineAddrOk a.seqBase),
   (0x198, lineAddrOk a.ptBase), (0x1A4, !ring || named a.rxMap), (0x1A6, named a.dkMap), (0x1A8, named a.dvMap),
   (0x1B0, a.retType == 3 || a.retType == 4), (0x1B2, vc a.vcKv), (0x1B3, vc a.vcDkv && a.vcDkv != a.vcKv),
   (0x1B4, (List.range 4).all (fun k => decide (bits a.bufs (4 * k + 3) (4 * k) ≤ 5))),
   (0x1B6, a.mask < 3 || named a.segMap), (0x1B8, decide (8 ≤ a.classLog2) && decide (a.classLog2 ≤ 22) &&
      decide (a.qbLog2 ≤ a.classLog2))]

/-- KIND_AREA of a U-cut (R296). -/
def UArea.checks (a : UArea) : List (Nat × Bool) :=
  [(0x180, decide (1 ≤ a.opt) && decide (a.opt ≤ 3)), (0x182, a.drsMask != 0), (0x183, decide (a.bufPhase ≤ 1)),
   (0x18C, decide (1 ≤ a.hdepth) && decide (a.hdepth ≤ 256)), (0x190, lineAddrOk a.hyperBase)]

/-- KIND_AREA of an X-cut (R303, R316, R323, R324); `e` is its entry. -/
def Image.xChecks (i : Image) (e w : Nat) (a : XArea) : List (Nat × Bool) :=
  let src := Tab.get CutDesc.empty i.cuts a.source
  let slabs := ceilDiv (src.axP * src.axL) slabLen
  [(0x184, src.kind == 2 && src.wArea.seamId == a.seamId && src.wArea.handoff == e),
   (0x186, match Tab.find i.plans a.plan with
      | some p => p.working == w
      | none => false),
   (0x188, decide (a.k ≤ 128)), (0x189, decide (a.vc ≤ 6) && i.groupVc w a.vc), (0x18A, decide (a.sel ≤ 3)),
   (0x18B, decide (a.hrPreset ≤ 1)),
   (0x18C, a.headroom.all (fun h => decide (-8 ≤ h) && decide (h ≤ 8))), (0x194, decide (a.initC ≤ 0xFE)),
   (0x196, named a.tailMap), (0x198, named a.scaleMap), (0x19A, i.regionFits w a.resultRegion 0 (4128 * slabs))]

/-- KIND_AREA of an S-cut (R400). -/
def SArea.checks (a : SArea) : List (Nat × Bool) :=
  [(0x180, bit a.content 0), (0x181, decide (a.mode ≤ 1)), (0x182, a.mode != 1 || decide (a.port ≤ 3)),
   (0x188, a.targetBase.all lineAddrOk)]

/-- KIND_AREA of a V-cut (R400). -/
def VArea.checks (a : VArea) : List (Nat × Bool) :=
  [(0x180, decide (a.role ≤ 2)), (0x181, decide (a.port ≤ 3)), (0x182, decide (1 ≤ a.retries) && decide (a.retries ≤ 3)),
   (0x184, decide (1 ≤ a.listCount) && decide (a.listCount ≤ 2 ^ 20)), (0x188, lineAddrOk a.listBase)]

/-- The tables in force that descriptors are checked against (R214): derivative slots, and whether a kiln table is
loaded. -/
def Image.areaChecks (i : Image) (tabs : List DrvSlot × Bool) (e : Nat) (d : CutDesc) : List (Nat × Bool) :=
  match d.area with
  | .d a => a.checks tabs.1
  | .w a => a.checks
  | .a a => i.aChecks d.working a tabs.2
  | .u a => a.checks
  | .x a => i.xChecks e d.working a
  | .s a => a.checks
  | .v a => a.checks
  | .empty => []

/-- The SOURCE W-cut's area of an X-cut. -/
def Image.srcW (i : Image) (d : CutDesc) : WArea :=
  match d.area with
  | .x a => (Tab.get CutDesc.empty i.cuts a.source).wArea
  | _ => default

/-- The first failing descriptor offset, in ascending order (R186, R192). -/
def Image.badOffset (i : Image) (tabs : List DrvSlot × Bool) (e : Nat) (d : CutDesc) : Option Nat :=
  ((i.headChecks d ++ i.hoistChecks d (i.srcW d) ++ d.mapRoleChecks ++ d.axisChecks ++ d.operandChecks ++
    i.areaChecks tabs e d).find? (fun x => !x.2)).map Prod.fst

/-! ### Maps (R140) -/

/-- Map references that a KIND_AREA makes, as far as the cut reads them (R211, R230, R238, R264, R309). -/
def CutDesc.areaMaps (d : CutDesc) : List Nat :=
  match d.area with
  | .d a => (if a.func = 0 then [] else [a.savedMap]) ++
      (if a.func < 5 then [] else [a.signMap, a.privMap, a.privInMap])
  | .w a => [a.initMap, a.freezeMap]
  | .a a => [a.biasMap, a.pfMap, a.rxMap, a.dkMap, a.dvMap, a.segMap]
  | .u a => [a.freezeMap]
  | .x a => [a.tailMap, a.scaleMap]
  | _ => []

/-- Maps that a cut names, directly and then through its hoists (R140). -/
def Image.cutMaps (i : Image) (d : CutDesc) : List Nat :=
  let direct := if d.onBenches || d.kind == 4 then d.maps else []
  let hoisted := (d.hoists.filter named).map (fun h => match Tab.find i.hoists h with
    | some t => [t.srcMap, t.dstMap] ++ (if t.spillEn then [t.spillMap] else [])
    | none => [])
  (direct ++ d.areaMaps ++ hoisted.flatten).filter named

/-- A map's six strides, starts and extents agree in extent with another's. -/
def MapDesc.sameShape (a b : MapDesc) : Bool :=
  a.dims == b.dims && (List.range 6).all (fun k => (a.dimAt k).extent == (b.dimAt k).extent)

/-- The axis code of dimension 0 of a role (R184). -/
def CutDesc.innerCode (d : CutDesc) (role : Nat) : Nat := nth 0 (nth [] d.bind role) 0

/-- Dimension 0 of the shared operand runs along the reduction; in CORR a walk dimension is reduced (R98, R99). -/
def CutDesc.sharedInner (d : CutDesc) : Bool :=
  d.innerCode 0 == 1 || (d.walkMode == 1 && (d.innerCode 0 == 6 || d.innerCode 0 == 7))

/-- Dimension 0 of the stationary operand runs along the lanes (R99). -/
def CutDesc.statInner (d : CutDesc) : Bool := d.innerCode 1 == 3

/-- R100 for one operand: buffer mode, stored and declared type, and whether the stored orientation fits. -/
def bufferModeOk (mode stored code : Nat) (fits : Bool) : Bool :=
  let declared := declType stored code
  (code == 0 || stored == 2) &&
  (match mode with
    | 0 => fits && declared == stored
    | 1 => fits && isMx stored && declared != stored
    | _ => !fits && decide (stored ≤ 3))

/-- An operand pair that a bench multiplies (R48): the exact path's pairs of MX types, or a BF16 operand. -/
def pairOk (a b : Nat) : Bool :=
  (a == 3 || b == 3) || [(0, 0), (0, 1), (1, 0), (2, 0), (0, 2), (2, 1), (1, 2), (2, 2)].contains (a, b)

/-- The walk's parameters (R97). -/
def CutDesc.walkOk (d : CutDesc) : Bool :=
  d.walkMode == 0 ||
  d.walk.all (fun w => decide (1 ≤ w.taps) && decide (w.taps ≤ if d.walk.length = 1 then 255 else 15) &&
    decide (1 ≤ w.stride) && decide (w.stride ≤ 8) && decide (1 ≤ w.dilation) && decide (w.dilation ≤ 16) &&
    decide (w.padding ≤ 255))

/-- The stationary operand is blocked along what ST_SCALE says (R75). -/
def CutDesc.scaleModeOk (d : CutDesc) (m : MapDesc) : Bool :=
  !isMx m.type ||
  (let code := nth 0 (nth [] d.bind 1) m.blkDim
   if d.stScale = 0 then code == 1 else code == 3)

/-- A check of a map: its index, for DETAIL_MAP, and whether it holds. -/
abbrev MapCheck := Nat × Bool

/-- Checks of the two operands of a D- or W-cut, with the types that a role takes (R48, R73, R75, R97, R100, R204, R226). -/
def CutDesc.pairChecks (d : CutDesc) (sh st : MapDesc) (shTypes stTypes : List Nat) : List MapCheck :=
  let shD := declType sh.type (bits d.decl 1 0)
  let stD := declType st.type (bits d.decl 3 2)
  [(nth 0xFFFF d.maps 0, shTypes.contains sh.type && bufferModeOk d.shMode sh.type (bits d.decl 1 0) d.sharedInner &&
      d.walkOk),
   (nth 0xFFFF d.maps 1, stTypes.contains st.type && bufferModeOk d.stMode st.type (bits d.decl 3 2) d.statInner &&
      d.scaleModeOk st && pairOk shD stD)]

/-- A companion of the output map (R212). -/
def Image.companion (i : Image) (idx : Nat) (out : MapDesc) (types : List Nat) : MapCheck :=
  (idx, match Tab.find i.maps idx with
    | some m => types.contains m.type && m.sameShape out
    | none => false)

/-- The output map's dimension bound to axis L. -/
def CutDesc.laneDim (d : CutDesc) : Option Nat := (nth [] d.bind 2).findIdx? (· == 3)

/-- Map checks of a D-cut (R203 to R205, R212, R218). -/
def Image.dMapChecks (i : Image) (d : CutDesc) (a : DArea) : List MapCheck :=
  match Tab.find i.maps (nth 0xFFFF d.maps 0), Tab.find i.maps (nth 0xFFFF d.maps 1),
      Tab.find i.maps (nth 0xFFFF d.maps 2) with
  | some sh, some st, some out =>
    d.pairChecks sh st [1, 3] [0, 2, 3] ++
    [(nth 0xFFFF d.maps 2, out.wmode == wmStore && out.type == a.outType &&
        (a.outType != 1 || d.laneDim == some out.blkDim))] ++
    (if a.func = 0 then [] else [i.companion a.savedMap out [0, 2, 3]]) ++
    (if a.func < 5 then [] else [i.companion a.signMap out [8]]) ++
    (if 5 ≤ a.func ∧ named a.privMap = true then
      [(a.privMap, match Tab.find i.maps a.privMap, d.laneDim with
        | some m, some k => m.type == 8 && m.dims == 1 && (m.dimAt 0).extent == (out.dimAt k).extent
        | _, _ => false)] else [])
  | _, _, _ => []

/-- The output map of a W-cut (R227). -/
def Image.wOutOk (i : Image) (d : CutDesc) (m : MapDesc) : Bool :=
  m.wmode == wmAccum && m.yard && m.dims == 2 && d.innerCode 2 == 3 && nth 0 (nth [] d.bind 2) 1 == 2 &&
  (m.dimAt 0).extent == d.axL && (m.dimAt 0).stride == 1 && (m.dimAt 1).extent == d.axP &&
  (m.dimAt 1).stride == (d.axL : Int) && (m.dimAt 0).start == 0 && (m.dimAt 1).start == 0 &&
  (match i.regionAt m.base with
    | some (k, r) => r.base == m.base && r.purpose == 1 &&
        decide (d.axP * d.axL * (typeBits m.type / 8) ≤ r.size) &&
        (List.range (max d.split 1)).all (fun j => match Tab.find i.regions (k + j) with
          | some x => x.size == r.size && x.swz == r.swz && x.masks == r.masks
          | none => false)
    | none => false)

/-- A freeze map of a seam (R238). -/
def Image.freezeOk (i : Image) (idx elems : Nat) : MapCheck :=
  (idx, match Tab.find i.maps idx with
    | some m => m.type == 8 && m.wmode == wmRead && !m.yard && m.dims == 1 && (m.dimAt 0).extent == elems / 32
    | none => false)

/-- A block list on the token dimension has BLK_EXT equal to L (R228). -/
def CutDesc.listExtOk (d : CutDesc) (role : Nat) (m : MapDesc) : Bool :=
  !m.listed || nth 0 (nth [] d.bind role) m.blA != 1 || nth 0 m.blkExt 0 == d.passL

/-- Map checks of a W-cut (R226 to R228, R230, R238). -/
def Image.wMapChecks (i : Image) (d : CutDesc) (a : WArea) : List MapCheck :=
  match Tab.find i.maps (nth 0xFFFF d.maps 0), Tab.find i.maps (nth 0xFFFF d.maps 1),
      Tab.find i.maps (nth 0xFFFF d.maps 2) with
  | some sh, some st, some out =>
    d.pairChecks sh st [0, 2, 3] [1, 3] ++
    [(nth 0xFFFF d.maps 0, d.listExtOk 0 sh), (nth 0xFFFF d.maps 1, d.listExtOk 1 st),
     (nth 0xFFFF d.maps 2, i.wOutOk d out)] ++
    (if named a.initMap then [(a.initMap, match Tab.find i.maps a.initMap with
      | some m => m.type == 3 && m.wmode == wmRead && !m.yard && m.sameShape out
      | none => false)] else []) ++
    (if named a.freezeMap then [i.freezeOk a.freezeMap (d.axP * d.axL)] else [])
  | _, _, _ => []

/-- A map of given types and dimensions. -/
def Image.shapeCheck (i : Image) (idx : Nat) (types : List Nat) (dims : Nat) : MapCheck :=
  (idx, match Tab.find i.maps idx with
    | some m => types.contains m.type && m.dims == dims
    | none => false)

/-- A BF16 READ map of 64 buckets for each head (R256). -/
def Image.biasOk (i : Image) (idx heads : Nat) : MapCheck :=
  (idx, match Tab.find i.maps idx with
    | some m => m.type == 3 && m.wmode == wmRead && m.dims == 2 && (m.dimAt 0).extent == 64 &&
        (m.dimAt 1).extent == heads
    | none => false)

/-- The WMODE of a map. -/
def Image.modeCheck (i : Image) (idx wmode : Nat) : MapCheck :=
  (idx, match Tab.find i.maps idx with
    | some m => m.wmode == wmode
    | none => false)

/-- Map checks of an A-cut (R247, R253, R256, R263, R264, R268, R271). -/
def Image.aMapChecks (i : Image) (d : CutDesc) (a : AArea) : List MapCheck :=
  let m := fun k => nth 0xFFFF d.maps k
  [i.shapeCheck (m 0) (if a.qfmt = 0 then [0, 2] else [a.qfmt]) 3, i.shapeCheck (m 2) [3, 4] 3, i.modeCheck (m 2) wmStore,
   i.shapeCheck (m 4) (if a.qfmt = 3 then [1, 3] else [1]) 3, i.shapeCheck (m 6) [4] 2, i.shapeCheck (m 7) [4] 2,
   i.shapeCheck a.dkMap [3, 4] 3, i.shapeCheck a.dvMap [3, 4] 3] ++
  (if a.deltaMake then [i.shapeCheck (m 5) [0, 1, 2, 3] 3, i.modeCheck (m 7) wmStore] else []) ++
  (if named a.biasMap then [i.biasOk a.biasMap a.heads] else []) ++
  (if named a.pfMap then [(a.pfMap, match Tab.find i.maps a.pfMap with
    | some x => x.dims == 1
    | none => false)] else []) ++
  (if 1 < a.ring then [(a.rxMap, match Tab.find i.maps a.rxMap with
    | some x => x.dims == 1
    | none => false)] else [])

/-- Rows and columns of the seam that a U-cut updates or an X-cut reduces. -/
def Image.seamShape (i : Image) (d : CutDesc) : Nat × Nat :=
  let src := fun e => Tab.get CutDesc.empty i.cuts e
  let w := match d.area with
    | .u a => (match (src a.source).area with
        | .x x => x.source
        | _ => a.source)
    | .x a => a.source
    | _ => 0
  ((src w).axP, (src w).axL)

/-- The tensor types of the four maps of a buffer, 0xFFFF marking the moment that the optimiser does not use (R284). -/
def bufferTypes (opt : Nat) : List (Option Nat) :=
  [some 4, some 4, if opt = 1 then some 4 else none, some 3]

/-- Map checks of a U-cut (R238, R284). -/
def Image.uMapChecks (i : Image) (d : CutDesc) (a : UArea) : List MapCheck :=
  let (rows, cols) := i.seamShape d
  ((List.range 8).map (fun k =>
    let idx := nth 0xFFFF d.maps k
    (idx, match nth none (bufferTypes a.opt) (k % 4) with
      | none => !named idx
      | some ty => (match Tab.find i.maps idx with
          | some m => m.type == ty && !m.yard && m.dims == 2 && (m.dimAt 0).extent == cols &&
              (m.dimAt 1).extent == rows
          | none => false)))) ++
  (if named a.freezeMap then [i.freezeOk a.freezeMap (rows * cols)] else [])

/-- Map checks of an X-cut (R309, R323). -/
def Image.xMapChecks (i : Image) (d : CutDesc) (a : XArea) : List MapCheck :=
  let (rows, cols) := i.seamShape d
  [(a.tailMap, match Tab.find i.maps a.tailMap with
      | some m => m.type == 3 && m.wmode == wmStore && !m.yard && m.dims == 2 && (m.dimAt 0).extent == cols &&
          (m.dimAt 1).extent == rows
      | none => false),
   (a.scaleMap, match Tab.find i.maps a.scaleMap with
      | some m => m.type == 7 && !m.yard && m.dims == 2 && (m.dimAt 0).extent == ceilDiv (rows * cols) slabLen &&
          (m.dimAt 1).extent == 2
      | none => false)]

/-- Checks of a cut's maps that its kind adds to R140. -/
def Image.kindMapChecks (i : Image) (d : CutDesc) : List MapCheck :=
  match d.area with
  | .d a => i.dMapChecks d a
  | .w a => i.wMapChecks d a
  | .a a => i.aMapChecks d a
  | .u a => i.uMapChecks d a
  | .x a => i.xMapChecks d a
  | _ => []

/-- R129 on a STORE map of a cut's role. -/
def Image.blocksBad (i : Image) (d : CutDesc) : Option Nat :=
  let idx := nth 0xFFFF d.maps 2
  match Tab.find i.maps idx with
  | some m => if d.kind = 1 ∧ d.blocksOk 2 m = false then some idx else none
  | none => none

/-- Input maps of a cut that writes through an output map (R131). -/
def CutDesc.inputs (d : CutDesc) : List Nat :=
  match d.area with
  | .d _ => (([0, 1, 3].map (nth 0xFFFF d.maps)) ++ d.areaMaps).filter named
  | .w _ => (([0, 1].map (nth 0xFFFF d.maps)) ++ d.areaMaps).filter named
  | .a a => (([0, 4, 5, 6].map (nth 0xFFFF d.maps)) ++ (if a.deltaMake then [] else [nth 0xFFFF d.maps 7]) ++
      [a.biasMap, a.segMap]).filter named
  | _ => []

/-- Output maps of a cut (R131). -/
def CutDesc.outputs (d : CutDesc) : List Nat :=
  match d.area with
  | .d _ => [nth 0xFFFF d.maps 2]
  | .w _ => [nth 0xFFFF d.maps 2]
  | .a a => [nth 0xFFFF d.maps 2, a.dkMap, a.dvMap]
  | _ => []

/-- The first input map that an output map overlaps (R131); for a U-cut the first read-buffer map that a write-buffer
map meets (R285). -/
def Image.overlapIn (i : Image) (d : CutDesc) : Option Nat :=
  let meets := fun (f : MapDesc → MapDesc → Bool) (o x : Nat) =>
    match Tab.find i.maps o, Tab.find i.maps x with
    | some a, some b => f a b
    | _, _ => false
  if d.kind = 4 then
    ((d.maps.take 4).filter named).find? (fun x => ((d.maps.drop 4).filter named).any (fun o =>
      meets (fun a b => a.yard == b.yard && decide (a.span.1 / 8 ≤ b.span.2 / 8) &&
        decide (b.span.1 / 8 ≤ a.span.2 / 8)) o x))
  else d.inputs.find? (fun x => d.outputs.any (fun o => meets MapDesc.overlaps o x))

/-- The slices of a D- or W-cut meet (R130). -/
def Image.slicesBad (i : Image) (d : CutDesc) : Option Nat :=
  let idx := nth 0xFFFF d.maps 2
  match Tab.find i.maps idx with
  | some m => if d.tiled && m.gather == 0 && d.slicesMeet 2 m then some idx else none
  | none => none

/-- The refusal of a descriptor, if there is one: 0x60 at its first failing offset, then 0x20 for its maps, then 0x21
(R140, R186, R192). -/
def Image.refusalOf (i : Image) (tabs : List DrvSlot × Bool) (e : Nat) (d : CutDesc) : Option CutRefusal :=
  if d.kind = 0 then none
  else
    match i.badOffset tabs e d with
    | some off => some (refusal60 off)
    | none =>
      match (i.cutMaps d).findSome? (i.badMap d.working) with
      | some m => some (refusal20 m)
      | none =>
        match (i.kindMapChecks d).find? (fun x => !x.2) with
        | some x => some (refusal20 x.1)
        | none =>
          match i.blocksBad d with
          | some m => some (refusal20 m)
          | none =>
            match i.slicesBad d with
            | some m => some (refusal21 m 0)
            | none => (i.overlapIn d).map (fun m => refusal21 m 0xFFFF)

/-- The refusals of every entry (R186). -/
def Image.refusals (i : Image) (tabs : List DrvSlot × Bool) : Tab CutRefusal :=
  i.cuts.filterMap (fun c : Nat × CutDesc => (i.refusalOf tabs c.1 c.2).map (fun r => (c.1, r)))

end Sys2Proof.Machine
end

