-- ==== Sys2Proof/Machine/Load.lean ====
section
/-! DEFINITION. Loading an image: the two reads, refusal, the commit of a whole image and of a partial, and the wait for
a table bank (R195 to R201, R214, R216, R250, R286, R374, R382, R389, R413 to R415). -/

namespace Sys2Proof.Machine

/-! ### LOAD_START (R195, R413) -/

/-- START: the first read begins, or the write is counted while a load is in progress or READY is clear (R195, R413). -/
def State.loadStart (s : State) : State :=
  if s.load.phase = .idle ∧ s.glb.ready = true then
    State.wake { s with load := { s.load with phase := .firstRead, staged := none } } fabricTile
  else { s with load := { s.load with ignored := satAdd 16 s.load.ignored 1 } }

/-- LOAD_START (R195). -/
def execLoadStart (s : State) : Host.Outcome State Fault Refusal := s.on State.loadStart

/-! ### Reasons to refuse (R198) -/

/-- The public key of a slot of the foreman's key store (R196, R408). -/
def State.keyOf (s : State) (slot : Nat) : Option (Nat × Nat) :=
  match nth .empty s.nv.keys slot with
  | .manufacturer => some Config.manufacturerKey
  | .key x y => some (x, y)
  | _ => none

/-- The base, size or mode of a region changes (R200). -/
def Region.differs (a b : Region) : Bool := a.base != b.base || a.size != b.size || a.swz != b.swz || a.masks != b.masks

/-- A region holds a seam not yet handed off, or an unfinished fold tile: of a running cut, or promoted (R200). -/
def State.regionLive (s : State) (k : Nat) (r : Region) : Bool :=
  s.seams.any (fun x : Nat × Seam => x.2.occupies k) || s.liveCuts.any (fun e => (s.accRegions (s.cut e).desc).contains k) ||
  (r.purpose == 3 && s.slots.any (fun x : Nat × Nat => x.1 / 4096 == r.working))

/-- A partial changes a live region (R200). -/
def State.changesLive (s : State) (base new : Image) : Bool :=
  base.regions.any (fun x : Nat × Region =>
    (match Tab.find new.regions x.1 with
      | some r => r.differs x.2
      | none => true) && s.regionLive x.1 x.2)

/-- The image that a load would put in force. -/
def State.merged (s : State) (p : Image) : Image :=
  match s.image with
  | some b => if p.header.kind = 0 then p else b.laidOver p
  | none => p

/-- The rules that REASON 0x4 and 0x8 stand for (R198). -/
def State.partialReason (s : State) (p : Image) : Nat :=
  if p.header.kind = 0 then 0
  else
    match s.image with
    | none => 4
    | some b => if p.header.baseDigest ≠ b.digest then 4 else if s.changesLive b (b.laidOver p) then 8 else 0

/-- Every image-level rule of a load holds (REASON 0x6). -/
def State.loadRules (s : State) (bs : List Byte) (p : Image) : Bool :=
  let h := p.header
  sectionsFit bs h (directoryOf bs h) && (s.merged p).rulesOk p.tables (h.kind != 0) &&
  (match s.image with
    | some b => p.bufferRule b
    | none => true)

/-- REASON of the first read, in the order of R198; 0 when the load goes on. -/
def State.loadReason (s : State) (bs : List Byte) (err : Bool) : Nat :=
  let h := decodeHeader bs
  let p := decodeImage bs
  if err ∧ bs.length < 0x200 then 9
  else if h.kind = 0 ∧ s.quiet = false then 7
  else if !(s.load.addr.toNat % 64 == 0 && h.ok (if err then h.length else bs.length) &&
      directoryOk h (directoryOf bs h)) then 1
  else if !p.scopeOk s.image then 5
  else
    match s.keyOf h.keySlot with
    | none => 3
    | some key =>
      if err then 9
      else if !sealOk key bs then 2
      else if s.partialReason p ≠ 0 then s.partialReason p
      else if s.loadRules bs p then 0 else 6

/-- A load is refused: LOAD_STAT, the event and the log record (R198). -/
def State.refuseLoad (s : State) (reason : Nat) : State :=
  (State.setEvt { s with load := { s.load with phase := .idle, code := 0x60, reason := reason, staged := none } }
    evLoadRefused).logEvt 0x0102 reason s.load.addr.toNat

/-! ### Table banks (R216, R250) -/

/-- A slice in progress uses a derivative bank (R216). -/
def State.drvBankUsed (s : State) (b : Bool) : Bool :=
  s.liveCuts.any (fun e => (s.cut e).banks.any (fun x : Nat × Bool => x.2 == b))

/-- A block in progress uses a kiln bank (R250). -/
def State.kilnBankUsed (s : State) (b : Bool) : Bool :=
  s.kilns.any (fun k : Nat × Kiln => match k.2.block with
    | some (_, _, x) => x == b
    | none => false)

/-- A partial's TABLES section would write a bank that is still in use (R216). -/
def State.banksBusy (s : State) (p : Image) : Bool :=
  p.header.kind != 0 &&
  match p.tables with
  | some t => (t.drv.isSome && s.drvBankUsed (!s.tables.drvCur)) || (t.kiln.isSome && s.kilnBankUsed (!s.tables.kilnCur))
  | none => false

/-- The state with a bank of tables changed. -/
def Tables.modBank (t : Tables) (b : Bool) (f : TableBank → TableBank) : Tables :=
  if b then { t with bank1 := f t.bank1 } else { t with bank0 := f t.bank0 }

/-- The derivative slots that follow from a partial's part: KEEP copies the slot in force (R216). -/
def keepSlots (old new : List DrvSlot) : List DrvSlot :=
  (List.range 8).map (fun k =>
    let x := nth { kind := 0, table := default } new k
    if x.kind = 3 then nth { kind := 0, table := default } old k else x)

/-- A partial's tables go into the bank not in use, which becomes current (R216, R250). -/
def Tables.write (t : Tables) (p : TablesPart) : Tables :=
  let t1 := match p.drv with
    | some new => { t.modBank (!t.drvCur) (fun b => { b with drv := keepSlots (t.bank t.drvCur).drv new }) with
        drvCur := !t.drvCur }
    | none => t
  match p.kiln with
  | some k => { t1.modBank (!t1.kilnCur) (fun b => { b with kiln := some k }) with kilnCur := !t1.kilnCur }
  | none => t1

/-- A whole image's tables: every slot and the kiln table, in bank 0 (R216; log entry 26). -/
def Tables.whole (p : Option TablesPart) : Tables :=
  match p with
  | some x => { Tables.reset with bank0 := { drv := x.drv.getD [], kiln := x.kiln } }
  | none => Tables.reset

/-- What descriptors are checked against: the derivative slots and the kiln table in force (R214). -/
def Tables.inForce (t : Tables) : List DrvSlot × Bool := ((t.bank t.drvCur).drv, (t.bank t.kilnCur).kiln.isSome)

/-! ### LOAD_FIRST_READ_DONE and TABLE_BANK_WAIT_END -/

/-- LOAD_FIRST_READ_DONE: the load is refused, waits for a table bank, or begins its second read (R195, R198, R216). -/
def State.firstRead (s : State) (bs : List Byte) (err : Bool) : State :=
  if s.load.phase = .firstRead then
    let r := s.loadReason bs err
    if r ≠ 0 then s.refuseLoad r
    else
      let p := decodeImage bs
      { s with load := { s.load with
        staged := some p, phase := if s.banksBusy p then .bankWait else .secondRead } }
  else s

/-- LOAD_FIRST_READ_DONE (R195). -/
def execLoadFirstReadDone (bytes : List Byte) (errorResponse : Bool) (s : State) : Host.Outcome State Fault Refusal :=
  s.on (fun s => s.firstRead bytes errorResponse)

/-- TABLE_BANK_WAIT_END: no slice or block uses the bank any longer (R216). -/
def State.bankWaitEnd (s : State) : State :=
  match s.load.staged with
  | some p => if s.load.phase = .bankWait ∧ s.banksBusy p = false then
      { s with load := { s.load with phase := .secondRead } } else s
  | none => s

/-- TABLE_BANK_WAIT_END (R216). -/
def execTableBankWaitEnd (s : State) : Host.Outcome State Fault Refusal := s.on State.bankWaitEnd

/-! ### The commit of a whole image (R197, R414, R415) -/

/-- Every seam is released (R234), with the headers and slots of its region. -/
def State.releaseAll (s : State) : State :=
  s.seams.foldl (fun t x => match x.2.phase with
    | .accumulating => { t.resetSeam x.2 (List.range x.2.split) with seams := Tab.drop t.seams x.1 }
    | .evicted => { t with seams := Tab.drop t.seams x.1 }
    | _ => { t.resetSeam x.2 [0] with seams := Tab.drop t.seams x.1 }) s

/-- The regions of cuts that a halt left stopped: their fold tiles go (R365). -/
def State.dropHalted (s : State) : State := s.liveCuts.foldl (fun t e => t.resetRegions (t.cut e).desc) s

/-- The face part of a commit: a face takes its FACE entry and leaves whatever place it held (R363, R414). -/
def State.freshFace (i : Image) (s : State) (n : Nat) : State :=
  let c := match i.modes with
    | some m => m.clk
    | none => none
  (s.modFace n (fun f => { f.unserve with
    reduced := false, acc := 0, chk := 0x41
    imgFmax := match c with
      | some x => nth 16 x.faceFmax n
      | none => f.imgFmax
    imgVoff := match c with
      | some x => nth 0 x.faceVoff n
      | none => f.imgVoff })).writeCal n

/-- The face `m` serves the place of named face `n` of working `w` (R414, R434, R435). -/
def State.serve (s : State) (w n m : Nat) : State :=
  (s.modFace m (fun f => { f with
    role := .inService, working := w, position := s.positionOf w n, serves := if n = m then 0x7F else n
    reduced := decide (s.goodBenches m < 4) })).giveModes m w

/-- A face that the image names: it serves, or, retired, the lowest-numbered free face takes its place; with none left
its work is adopted (R414). -/
def State.seatFace (w : Nat) (s : State) (n : Nat) : State :=
  if s.faceGone n then
    match s.freeFaces with
    | m :: _ => (s.modSpare (fun x => { x with facePlace := Tab.set x.facePlace n m })).serve w n m
    | [] => s
  else s.serve w n n

/-- Every named face takes its place, in ascending face id (R414). -/
def State.seatFaces (s : State) : State :=
  s.namedFaces.foldl (fun t n => match t.workingOf n with
    | some w => State.seatFace w t n
    | none => t) s

/-- RISK_THR of a RISK part (R387). -/
def RiskPart.threshold (r : RiskPart) : Nat :=
  match r.preset with
  | 0 => 16384
  | 1 => 8192
  | 2 => 4096
  | _ => r.thr

/-- The parts of MODES that a whole load puts in force beside the faces' own (R202, R344, R363, R387). -/
def State.giveParts (s : State) : State :=
  let s1 := match s.clkPart with
    | some c =>
      let t := (List.range 5).foldl (fun (u : State) g =>
        let m := nth default c.groups g
        if m.paced && (u.crossing g).forced then u
        else if m = (u.crossing g).mode then u.modCross g (fun x => { x with asked := none })
        else u.modCross g (fun x => { x with asked := some m })) s
      if t.surge.withdrawn then t else { t with surge := { t.surge with en := c.surge != 0 } }
    | none => s
  match s.riskPart with
  | some r => { s1 with health := { s1.health with thr := r.threshold } }
  | none => s1

/-- A port at the commit of a whole load: an enabled one whose module is present is brought up as after an insertion,
and one without a module stays down and sets GLB.EVT.LINK (R306, R415). -/
def State.bringUp (s : State) (p : Nat) : State :=
  let s1 := s.modPort p Port.disable
  match s1.portEntry p with
  | some t =>
    if t.enable then
      let s2 := (s1.setClk (102 + p) .run).setPort p .down
      if (s2.port p).module.present then s2.modModule p (fun m => { m with selecting := true })
      else s2.setEvt evLink
    else (s1.setPort p .disabled).setClk (102 + p) .off
  | none => s1

/-- A template in force on an idle hoist (R143). -/
def armedHoist (t : HoistTmpl) : Hoist := { Hoist.reset with tmpl := some t, st := .idle }

/-- A working after the commit of a whole load (R197). -/
def freshWorking (i : Image) (w : Nat) (x : WorkingEntry) : Working :=
  { Working.reset with seq := if x.autorun && decide (w < i.header.workings) then .running else .stopped }

/-- What an image that is no longer in force leaves behind is gone (R365, R197). -/
def State.clearRun (s : State) : State :=
  { s with
    cuts := [], seams := [], results := [], slots := [], benches := [], kilns := [], tileSlots := [], xruns := [],
    aruns := [], moves := [], hoists := [], refused := []
    units := s.units.map (fun u : Nat × UnitState => (u.1, { u.2 with busy := none, cutFaults := 0 }))
    fills := { queue := [], waiting := [], adopted := [] }
    spare := { s.spare with facePlace := [] }
    snap := { s.snap with phase := if s.snap.phase = .holding then .idle else s.snap.phase
                          due := [], waiting := [], lastSteps := [], captureStep := 0, seq := 0, valid := false
                          blocked := false, lastNc := 0 } }

/-- The commit of a whole image (R197, R234, R414, R415). -/
def State.commitWhole (s : State) (i : Image) : State :=
  let s1 := s.releaseAll.dropHalted.clearRun
  let s2 : State := { s1 with
    image := some i, cfgDigest := i.digest, tallies := i.tallies, tables := Tables.whole i.tables
    load := { s1.load with phase := .idle, code := 1, reason := 0, staged := none }
    working := i.workings.map (fun w : Nat × WorkingEntry => (w.1, freshWorking i w.1 w.2))
    hoists := i.hoists.map (fun h : Nat × HoistTmpl => (h.1, armedHoist h.2)) }
  let s3 : State := { s2 with refused := i.refusals s2.tables.inForce }
  let s4 := ((List.range 72).foldl (State.freshFace i) s3).seatFaces.giveParts
  let s5 := ((List.range 4).foldl State.bringUp s4).checkDrains
  (s5.setEvt evLoadDone).logEvt 0x0101 (i.header.imageId % 2 ^ 32) i.header.imageVer

/-- A whole load refused in its second read leaves no image in force (R198). -/
def State.loseImage (s : State) : State :=
  let s1 := (List.range 4).foldl (fun t p => (t.closeDown PortState.linked p).setClk (102 + p) .off)
    (s.releaseAll.dropHalted.clearRun)
  { s1 with
    image := none, cfgDigest := [], tables := Tables.reset, working := []
    faces := s1.faces.map (fun f : Nat × Face => (f.1, f.2.unserve)) }

/-- LOAD_COMMIT: the second read of a whole image ends (R197, R198). -/
def State.loadCommit (s : State) (bs : List Byte) (err : Bool) : State :=
  match s.load.staged with
  | some i =>
    if s.load.phase = .secondRead ∧ i.header.kind = 0 then
      if err then s.loseImage.refuseLoad 9
      else if imageDigest bs ≠ i.digest then s.loseImage.refuseLoad 0xA
      else s.commitWhole i
    else s
  | none => s

/-- LOAD_COMMIT (R197). -/
def execLoadCommit (bytes : List Byte) (errorResponse : Bool) (s : State) : Host.Outcome State Fault Refusal :=
  s.on (fun s => s.loadCommit bytes errorResponse)

/-! ### A rerun (R382) -/

/-- Entry `e` runs again in its open step: it is pending again, from the beginning, with its regions' headers reset
(R320, R382). -/
def State.runAgain (s : State) (e : Nat) : State :=
  let s1 := s.resetRegions (s.descOf e)
  (s1.modCut e (fun c => { CutRun.reset with
    phase := .pending, step := c.step, runs := c.runs, desc := s.descOf e })).setStatus e 0

/-- The entry ended with 0x50 in a step that R180 holds open for it (R382). -/
def State.mayRerun (s : State) (e : Nat) : Bool :=
  (s.cut e).phase == .ended && (s.cut e).status == 0x50 && (s.work (s.descOf e).working).isOpen

/-! ### The commit of a partial (R199 to R201) -/

/-- The commit point of a partial (R200): `AT_CUT` at once, `AT_STEP` between two steps or with the sequencer stopped,
a face partial when no cut holds a bench of the face. -/
def State.atCommitPoint (s : State) (p : Image) : Bool :=
  let x := s.work p.header.scope
  if p.header.kind = 1 then
    p.header.commit == 0 || !x.isOpen || x.seq == .stopped || x.seq == .halted
  else (s.cutsOnFace (s.placeOf p.header.scope)).isEmpty

/-- Templates that a partial carries: a hoist between streams takes its own at once, another at its stream's end
(R160). -/
def State.giveTemplates (s : State) (p : Image) : State :=
  p.hoists.foldl (fun t x =>
    let h := t.hoist x.1
    if h.cut.isNone then t.modHoist x.1 (fun h => { (t.retmpl x.1 h) with st := .idle }) else t) s

/-- X-cuts that ended with 0x50 run again when a partial at AT_CUT replaces their plan (R382). -/
def State.rerunReplaced (s : State) (p : Image) : State :=
  if p.header.kind = 1 ∧ p.header.commit = 0 ∧ p.has 5 = true then
    (s.entriesOf p.header.scope).foldl (fun t e =>
      if t.mayRerun e && (t.descOf e).kind == 5 then t.runAgain e else t) s
  else s

/-- Plans that a partial replaces are no longer moved (R329). -/
def State.dropMoves (s : State) (p : Image) (i : Image) : State :=
  if p.has 5 then
    { s with moves := s.moves.filter (fun m : Nat × Nat => match Tab.find i.plans m.1 with
      | some x => x.working != p.header.scope
      | none => false) }
  else s

/-- Positions of the faces of every working, after a face has joined or left (R66, R434). -/
def State.renumber (s : State) : State :=
  s.namedFaces.foldl (fun t n => match t.workingOf n with
    | some w => t.modFace (t.placeOf n) (fun f => if f.role = .inService then { f with position := t.positionOf w n } else f)
    | none => t) s

/-- A face leaves its working: it, or the face that held its place, is a spare again (R201). -/
def State.unseat (s : State) (n : Nat) : State :=
  let m := s.placeOf n
  (s.modFace m Face.unserve).modSpare (fun x => { x with facePlace := Tab.drop x.facePlace n })

/-- A face that a face partial names joins through a fill of its own place, which tests it (R201, R374, R377). -/
def State.seatByFill (s : State) (w n : Nat) : State :=
  let x : Fill := { face := n, working := w, position := s.positionOf w n, spare := n, phase := .queued, saved := false }
  State.startFill { s with fills := { s.fills with queue := s.fills.queue ++ [x] } }

/-- The PARTITION entry of a face partial (R174, R201, R374). -/
def State.facePartition (s : State) (old : Option Nat) (n : Nat) : State :=
  let new := s.workingOf n
  let s1 := if old.isSome && old != new then s.unseat n else s
  let s2 := match new with
    | some w => if (s1.face n).role = FaceRole.inService ∨ (s1.face n).role = FaceRole.filling then s1 else s1.seatByFill w n
    | none => s1
  s2.renumber

/-- What MODES of a partial gives faces: its working's words, or its face's FACE entry (R363, R435). -/
def State.partialModes (s : State) (p : Image) : State :=
  let n := p.header.scope
  match p.modes with
  | none => s
  | some m =>
    if p.header.kind = 1 then
      (List.range 72).foldl (fun (t : State) f =>
        if ((t.face f).role == FaceRole.inService || (t.face f).role == FaceRole.filling) && (t.face f).working == n then t.giveModes f n
        else t) s
    else
      match m.clk with
      | some c => (s.modFace n (fun f => { f with
          imgFmax := nth 16 c.faceFmax n, imgVoff := nth 0 c.faceVoff n })).writeCal n
      | none => s

/-- The commit of a partial (R200, R201, R216, R389). -/
def State.commitPartial (s : State) (p : Image) : State :=
  let i := s.merged p
  let old := s.workingOf p.header.scope
  let s1 : State := { s with
    image := some i, cfgDigest := sha384 (s.cfgDigest ++ p.digest)
    tables := match p.tables with
      | some t => s.tables.write t
      | none => s.tables
    load := { s.load with phase := .idle, code := 1, reason := 0, staged := none } }
  let s2 : State := { s1 with refused := i.refusals s1.tables.inForce }
  let s3 := ((s2.giveTemplates p).partialModes p).dropMoves p i
  let s4 := if p.header.kind = 2 ∧ p.has 1 = true then s3.facePartition old p.header.scope else s3
  let s5 := (s4.rerunReplaced p).checkDrains
  (s5.setEvt evLoadDone).logEvt 0x0101 (p.header.imageId % 2 ^ 32) p.header.imageVer

/-- PARTIAL_COMMIT: the second read of a partial has ended and its commit point is reached; a partial refused in its
second read changes nothing (R198 to R200). -/
def State.partialCommit (s : State) (bs : List Byte) (err : Bool) : State :=
  match s.load.staged with
  | some p =>
    if s.load.phase = .secondRead ∧ p.header.kind ≠ 0 then
      if err then s.refuseLoad 9
      else if imageDigest bs ≠ p.digest then s.refuseLoad 0xA
      else if s.atCommitPoint p then s.commitPartial p
      else s
    else s
  | none => s

/-- PARTIAL_COMMIT (R200). -/
def execPartialCommit (bytes : List Byte) (errorResponse : Bool) (s : State) : Host.Outcome State Fault Refusal :=
  s.on (fun s => s.partialCommit bytes errorResponse)

end Sys2Proof.Machine
end

