-- ==== Sys2Proof/Machine/Start.lean ====
section
/-! DEFINITION. Steps and cuts: a step that opens, a cut that starts or is refused at its start, a cut that ends, a
rerun, sequencers started and stopped, and pre-emption (R135, R180 to R182, R218, R219, R227, R228, R235 to R237, R261,
R263 to R265, R285, R289, R290, R309, R316, R320, R321, R382 to R384, R397, R427, R449, R450). -/

namespace Sys2Proof.Machine

/-! ### STEP_OPEN (R180, R450) -/

/-- An entry is eligible in a step (R180): by its PHASE, or with ON_RESTORE in the first step after a restore. An S-cut
starts at a close, never by an opening (R388). -/
def CutDesc.eligible (d : CutDesc) (step : Nat) (restored : Bool) : Bool :=
  if d.onRestore then restored else step % d.per == d.phase

/-- An entry as its step opens: pending with status 0x00, or idle; an S-cut that runs beside the step goes on. -/
def State.openEntry (step : Nat) (restored : Bool) (s : State) (e : Nat) : State :=
  let d := s.descOf e
  if d.kind = 6 then
    if (s.cut e).live || ((s.cut e).phase == .ended && (s.cut e).step == step) then s
    else s.modCut e (fun c => { CutRun.reset with desc := d, runs := 0, step := c.step })
  else if d.eligible step restored then
    (s.modCut e (fun _ => { CutRun.reset with phase := .pending, desc := d, step := step })).setStatus e 0
  else s.modCut e (fun _ => { CutRun.reset with desc := d, step := step })

/-- Entries of a step that were refused at load write their final status as it opens (R450). -/
def State.refuseEntry (step : Nat) (restored : Bool) (s : State) (e : Nat) : State :=
  match Tab.find s.refused e with
  | some r =>
    if (s.descOf e).eligible step restored && e != s.insertEntry && !(s.cut e).live then s.refuse e r else s
  | none => s

/-- A sequencer may open its next step (R180, R383, R389, R394). -/
def State.mayOpen (s : State) (w : Nat) : Bool :=
  (s.work w).seq == .running && !(s.work w).isOpen && s.image.isSome && decide (w < s.workCount) &&
  !s.preempted w && s.snap.phase != .holding && !s.snap.blocked

/-- STEP_OPEN: every cut of the step becomes eligible; refused ones end at once (R180, R450). -/
def State.stepOpen (s : State) (w : Nat) : State :=
  if s.mayOpen w then
    let step := (s.work w).nextStep
    let restored := (s.work w).restored
    let s1 := s.modWork w (fun x => { x with isOpen := true, step := step })
    let s2 := (s1.entriesOf w).foldl (State.openEntry step restored) s1
    ((s2.entriesOf w).foldl (State.refuseEntry step restored) s2).tryClose w
  else s

/-- STEP_OPEN (R180). -/
def execStepOpen (w : Fin 16) (s : State) : Host.Outcome State Fault Refusal := s.on (fun s => s.stepOpen w.val)

/-! ### What a cut waits for (R181) -/

/-- Hoists that a cut names. -/
def CutDesc.hoistList (d : CutDesc) : List Nat := distinct (d.hoists.filter (fun h => decide (h < 128)))

/-- Its hoists are idle. -/
def State.hoistsIdle (s : State) (d : CutDesc) : Bool := d.hoistList.all (fun h => (s.hoist h).isIdle)

/-- The benches that a cut names are held by no other running cut. -/
def State.benchesFree (s : State) (d : CutDesc) : Bool :=
  !usesBenches d.kind || (s.benchList d).all (fun x => (s.bench x.1 x.2).cut.isNone)

/-- Every face of a cut serves, or its work is adopted (R376, R380). -/
def State.facesServe (s : State) (d : CutDesc) : Bool :=
  !usesBenches d.kind ||
    (s.cutFaces d).all (fun n => (s.face n).role == FaceRole.inService || s.adopted n)

/-- Tiles that a start needs in RUN: those of the cut but for retired faces (R23, R181). -/
def State.startTiles (s : State) (d : CutDesc) : List Nat :=
  (s.cutTiles d).filter (fun k => !(decide (k < 72) && s.adopted k))

/-- The ports that a cut would use: those of the plan that runs, or of its ring (R321, R329). -/
def State.startPorts (s : State) (d : CutDesc) : List Nat :=
  match d.area with
  | .x a => match s.planFor a.plan with
    | some (pl, _) => pl.ports
    | none => []
  | .a a => if 1 < a.ring then distinct [a.portNext, a.portPrev] else []
  | .v a => [a.port]
  | _ => []

/-- A port that the start needs is TRAINING. -/
def State.portsTrain (s : State) (d : CutDesc) : Bool := (s.startPorts d).any (fun p => (s.port p).st == .training)

/-- Another running cut of this chip holds the channel of an X-cut on a port of its plan (R320). -/
def State.channelHeld (s : State) (e : Nat) (d : CutDesc) : Bool :=
  match d.area with
  | .x a => s.liveCuts.any (fun k => k != e && (s.cut k).desc.cutVcs.contains a.vc &&
      (s.cutPorts k).any (fun p => (s.startPorts d).contains p))
  | _ => false

/-- The shared unit that a cut claims for its whole run is free: an X-cut's selector, a V-cut's digest engine (R19,
R307, R381). -/
def State.unitFree (s : State) (d : CutDesc) : Bool :=
  match d.area with
  | .x a => match s.selectorOf a with
    | some i => (s.unit 6 i).busy.isNone
    | none => false
  | .v _ => match s.digestUnit with
    | some u => (s.unit u.1 u.2).busy.isNone
    | none => false
  | _ => true

/-- The seam that a cut consumes stands complete: held, or evicted (R232, R237). -/
def State.seamReady (s : State) (d : CutDesc) : Bool :=
  let stands := fun id => match Tab.find s.seams id with
    | some m => m.phase == .held || m.phase == .evicted
    | none => false
  match d.area with
  | .x a => stands a.seamId
  | .u a => (s.descOf a.source).kind != 2 || stands a.seamId
  | _ => true

/-- What the seams and results ask of a start: a W-cut's regions hold none, and its last seam is released (R235); a
consumer's seam stands complete (R237); an X-cut's RESULT_REGION holds no result (R316). -/
def State.seamsAllow (s : State) (d : CutDesc) : Bool :=
  match d.area with
  | .w _ => !s.seamBlocks d
  | .x a => s.seamReady d && (Tab.find s.results a.resultRegion).isNone
  | _ => s.seamReady d

/-- Everything that R181 and the kinds ask of a start but for the tiles in RUN and the reads. -/
def State.startable (s : State) (e : Nat) : Bool :=
  let d := s.descOf e
  d.kind != 6 && s.mayStart e && s.benchesFree d && s.facesServe d && s.hoistsIdle d &&
  s.unitFree d && s.seamsAllow d && !s.channelHeld e d && !s.portsTrain d

/-- Every tile that the start needs is in RUN. -/
def State.tilesRun (s : State) (d : CutDesc) : Bool := (s.startTiles d).all s.active

/-- Two cuts compete for a bench or a hoist. -/
def State.compete (s : State) (d k : CutDesc) : Bool :=
  d.hoistList.any (fun h => k.hoistList.contains h) ||
  (usesBenches d.kind && usesBenches k.kind && (s.benchList d).any (fun x => (s.benchList k).contains x))

/-- A cut of the working that can start now and competes with `e` goes first: the higher class, then the lower INDEX
(R181). -/
def State.outranked (s : State) (e : Nat) : Bool :=
  let d := s.descOf e
  (s.entriesOf d.working).any (fun k =>
    let x := s.descOf k
    k != e && (decide (kindClass x.kind < kindClass d.kind) ||
      (kindClass x.kind == kindClass d.kind && decide (x.index < d.index))) &&
    s.startable k && s.tilesRun x && s.compete d x)

/-! ### Reads of a start, and checks made at it -/

/-- The operand maps of a cut. -/
def CutDesc.operandMaps (d : CutDesc) : List Nat := if d.tiled then [nth 0xFFFF d.maps 0, nth 0xFFFF d.maps 1] else []

/-- Maps with a block list that a cut names (R135). -/
def Image.listedMaps (i : Image) (d : CutDesc) : List Nat :=
  distinct ((i.cutMaps d).filter (fun m => match Tab.find i.maps m with
    | some x => x.listed
    | none => false))

/-- The COUNT that was read for a map. -/
def countOf (r : StartReads) (m : Nat) : Option Nat := (r.counts.find? (fun x => x.1 == m)).map Prod.snd

/-- The extent of dimension 0 of a map. -/
def Image.extent0 (i : Image) (m : Nat) : Nat :=
  match Tab.find i.maps m with
  | some x => (x.dimAt 0).extent
  | none => 0

/-- A bitmap read through a map, if one is named. -/
def Image.bitmapRead (i : Image) (m : Nat) (bs : List Bool) : Bool := m == 0xFFFF || bs.length == i.extent0 m

/-- The sequence table read at a start: COUNT and entries (R264). -/
def readSeqs (bs : List Byte) : Nat × List SeqRow :=
  let n := field bs 0 4
  (n, (List.range n).map (fun k =>
    let a := 64 + 32 * k
    { qRow := field bs a 4, qCount := field bs (a + 4) 4, posQ := field bs (a + 8) 4, ptFirst := field bs (a + 12) 4
      ptCount := field bs (a + 16) 4, kRow := field bs (a + 20) 4, segRow := field bs (a + 24) 4 }))

/-- Page table entries that sequences reach. -/
def pagesReached (qs : List SeqRow) : Nat := qs.foldl (fun a q => max a (q.ptFirst + q.ptCount)) 0

/-- What the start reads has the sizes that the descriptor gives. -/
def State.readsFit (s : State) (i : Image) (d : CutDesc) (r : StartReads) : Bool :=
  (i.listedMaps d).all (fun m => (countOf r m).isSome) &&
  match d.area with
  | .d a => decide (a.func < 5) || i.bitmapRead a.privMap r.priv
  | .w a => i.bitmapRead a.freezeMap r.freeze
  | .a _ =>
    let n := field r.seqs 0 4
    r.seqs.length == 64 + 32 * min n 65535 &&
      (n == 0 || decide (65535 < n) || decide (32 * pagesReached (readSeqs r.seqs).2 ≤ r.pages.length))
  | .u a => r.hyper.length == 64 && i.bitmapRead a.freezeMap r.freeze
  | .x a => r.scales.length == s.seamSlabs d &&
      i.bitmapRead ((Tab.get CutDesc.empty i.cuts a.source).wArea.freezeMap) r.freeze
  | .v a => r.slices.length == a.listCount
  | _ => true

/-- The map of a cut whose block list is out of range, or whose list address is not on a line (R135, R140). -/
def Image.badList (i : Image) (d : CutDesc) (r : StartReads) : Option Nat :=
  (i.listedMaps d).find? (fun m =>
    decide (16777215 < (countOf r m).getD 0) || (match Tab.find i.maps m with
      | some x => x.blBase % 64 != 0
      | none => false))

/-- A hoist of the cut stands at a re-arm entry whose bases failed (R159): its source map. -/
def State.badHoist (s : State) (d : CutDesc) : Option Nat :=
  (d.hoistList.find? (fun h => (s.hoist h).badRearm)).map (fun h => match (s.hoist h).tmpl with
    | some t => t.srcMap
    | none => 0xFFFF)

/-- Bits set in a bitmap. -/
def setBits (bs : List Bool) : Nat := (bs.filter (fun b => b)).length

/-- PRIV_IN_MAP fits the output map and the bitmap (R219). -/
def Image.privInOk (i : Image) (d : CutDesc) (m bits : Nat) : Bool :=
  match Tab.find i.maps m, Tab.find i.maps (nth 0xFFFF d.maps 2), d.laneDim with
  | some x, some out, some lane => x.type == 0 && x.dims == out.dims && (List.range 6).all (fun k =>
      (x.dimAt k).extent == if k = lane then bits else (out.dimAt k).extent)
  | _, _, _ => false

/-- Checks of a D-cut at its start (R218, R219, R449). -/
def Image.dStart (i : Image) (d : CutDesc) (a : DArea) (r : StartReads) : Option CutRefusal :=
  let n := setBits r.priv
  if a.func < 5 ∨ a.privMap = 0xFFFF then none
  else if i.extent0 a.privMap / 64 < n then some (refusal20 a.privMap)
  else if n = 0 then none
  else if nth 0xFFFF d.hoists 7 = 0xFFFF then some (refusal60 0x96)
  else if a.privInMap = 0xFFFF then some (refusal60 0x18C)
  else if i.privInOk d a.privInMap n then none
  else some (refusal20 a.privInMap)

/-- The operand maps of a W-cut that carry a block list on the token dimension (R228). -/
def Image.tokenLists (i : Image) (d : CutDesc) : List Nat :=
  ([0, 1].filter (fun role => match Tab.find i.maps (nth 0xFFFF d.maps role) with
    | some m => m.listed && nth 0 (nth [] d.bind role) m.blA == 1
    | none => false)).map (nth 0xFFFF d.maps)

/-- Checks of a W-cut at its start (R227, R228). -/
def State.wStart (s : State) (i : Image) (d : CutDesc) (r : StartReads) : Option CutRefusal :=
  let out := nth 0xFFFF d.maps 2
  let e128 := match Tab.find i.maps out with
    | some m => m.type == 6
    | none => false
  if (s.cutFaces d).any (fun n => (s.face n).accMode.e128 != e128) then some (refusal20 out)
  else
    match i.tokenLists d with
    | [x, y] => if countOf r x = countOf r y then none else some (refusal20 y)
    | _ => none

/-- An entry of the page table is well formed (R259, R261). -/
def PageRow.ok (p : PageRow) : Bool :=
  decide (p.size ≤ 10) && decide (p.fmt ≤ 3) && p.kBase % 64 == 0 && p.vBase % 64 == 0 && p.ksBase % 64 == 0 &&
  p.pos % p.tokens == 0 && decide (p.pos + p.tokens ≤ 2 ^ 22)

/-- The pages of a list ascend without overlap (R261). -/
def pagesAscend : List PageRow → Bool
  | p :: q :: ps => decide (p.pos + p.tokens ≤ q.pos) && pagesAscend (q :: ps)
  | _ => true

/-- Bytes of the dQ tiles of every row (R267). -/
def dqBytes (a : AArea) (rows : Nat) (e128 : Bool) : Nat := rows * a.groups * a.chunks * 8192 * elemSize e128

/-- A refusal that names no map. -/
def plainRefusal (status : Nat) : CutRefusal := { status := status, detailMap := 0xFFFF, detailAux := 0 }

/-- The run of an A-cut as it starts, from what it read (R261, R264). -/
def startRun (r : StartReads) : ARun :=
  let qs := (readSeqs r.seqs).2
  { (default : ARun) with seqs := qs, pages := [(0, decodePages (r.pages.take (32 * pagesReached qs)))], segs := r.segs }

/-- Checks of an A-cut at its start (R261, R263 to R265, R267, R449). -/
def State.aStart (s : State) (i : Image) (d : CutDesc) (a : AArea) (r : StartReads) : Option CutRefusal :=
  let n := field r.seqs 0 4
  if n = 0 ∨ 65535 < n ∨ (1 < a.ring ∧ n ≠ 1) then some (refusal60 0x8000)
  else
    let x := startRun r
    let lists := x.seqs.map (fun q => x.pagesOf 0 q)
    let far := (lists.flatten).filter PageRow.res
    let e128 := (s.face (nth 0 (s.cutFaces d) 0)).accMode.e128
    if !(lists.all (fun ps => ps.all PageRow.ok && pagesAscend ps)) then some (plainRefusal 0x20)
    else if !a.allowNarrow && lists.flatten.any (fun p => widerThan p.fmt a.qfmt) then some (plainRefusal 0x22)
    else if x.seqs.any (fun q => decide (2 ^ a.classLog2 < q.qCount) || decide (2 ^ a.classLog2 < x.keyCount 0 q)) then
      some (plainRefusal 0x20)
    else if !far.isEmpty && a.pfMap == 0xFFFF then some (refusal60 0x1A2)
    else if !far.isEmpty && (match Tab.find i.maps a.pfMap with
        | some m => decide (((m.span.2 + 1) / 8 - m.span.1 / 8).toNat <
            2 * far.foldl (fun z p => max z (p.allBytes a)) 0)
        | none => true) then some (refusal20 a.pfMap)
    else match Tab.find i.regions a.dqRegion with
      | some reg => if reg.size < dqBytes a (x.rows a) e128 then some (refusal60 0x1AA) else none
      | none => some (refusal60 0x1AA)

/-- Offsets of the hyperparameters that an optimiser uses (R289). -/
def usedHyper (opt : Nat) : List Nat :=
  if opt = 1 then [0x00, 0x04, 0x08, 0x0C, 0x10, 0x14, 0x18, 0x1C, 0x20, 0x24]
  else if opt = 2 then [0x00, 0x04, 0x08, 0x24]
  else [0x00, 0x04, 0x08, 0x0C, 0x10, 0x14, 0x24]

/-- An FP32 code is a finite number. -/
def finiteCode (c : Nat) : Bool := c / 2 ^ 23 % 256 != 255

/-- The first field of the hyperparameter block that fails (R290). -/
def badHyper (opt step : Nat) (bs : List Byte) : Option Nat :=
  let bad := fun off =>
    if off = 0x28 then field bs 0x28 4 != step % 2 ^ 32
    else !finiteCode (field bs off 4) ||
      (opt == 1 && off == 0x18 && !(Val.lt (.num 0 0) (f32 (field bs off 4))))
  (usedHyper opt ++ [0x28]).find? bad

/-- The refusal that the checks of a start give (R135, R140, R159, R186, R450). -/
def State.startRefusal (s : State) (i : Image) (e : Nat) (d : CutDesc) (r : StartReads) : Option CutRefusal :=
  match Tab.find s.refused e with
  | some x => some x
  | none =>
    match i.badList d r with
    | some m => some (refusal20 m)
    | none =>
      match s.badHoist d with
      | some m => some (refusal20 m)
      | none =>
        match d.area with
        | .d a => i.dStart d a r
        | .w _ => s.wStart i d r
        | .a a => s.aStart i d a r
        | .u a => (badHyper a.opt (s.work d.working).step r.hyper).map (fun off => refusal60 (0x8000 + off))
        | _ => none

/-! ### The start -/

/-- Two index tuples of a map's box share an address (R127), for the maps of a cut without axes. -/
def MapDesc.selfAlias (m : MapDesc) : Bool :=
  m.gather == 0 && m.wmode != wmRead && aliases (((List.range m.dims).filterMap (fun k =>
    let x := m.dimAt k
    if x.extent ≤ 1 then none else some (x.extent - 1, x.stride))).foldr insertAxis [])

/-- The cut writes through an aliasing map (R127). -/
def Image.aliasing (i : Image) (d : CutDesc) : Bool :=
  let through := fun (f : MapDesc → Bool) (k : Nat) => match Tab.find i.maps k with
    | some m => f m
    | none => false
  match d.area with
  | .d _ => through (d.writesAlias 2) (nth 0xFFFF d.maps 2)
  | .w _ => through (d.writesAlias 2) (nth 0xFFFF d.maps 2)
  | .a a => [nth 0xFFFF d.maps 2, a.dkMap, a.dvMap].any (through MapDesc.selfAlias)
  | .u _ => d.maps.any (through MapDesc.selfAlias)
  | .x a => [a.tailMap, a.scaleMap].any (through MapDesc.selfAlias)
  | _ => false

/-- The descriptor as COUNT leaves it: an operand map without entries gives no passes (R135), and a list on the token
dimension of a W-cut gives one pass for each entry (R228). -/
def Image.countedDesc (i : Image) (d : CutDesc) (r : StartReads) : CutDesc :=
  match d.area with
  | .d _ => if d.operandMaps.any (fun m => countOf r m == some 0) then { d with axR := 0 } else d
  | .w _ => match i.tokenLists d with
    | m :: _ => { d with axR := (countOf r m).getD 0 * d.passL }
    | [] => d
  | _ => d

/-- Items that PROGRESS counts: slices, rounds, slabs or list entries (R190, R243, R280, R283, R317, R401). -/
def State.itemsOf (s : State) (d : CutDesc) : Nat :=
  match d.area with
  | .d _ => if d.axR = 0 then 0 else d.slices
  | .w _ => d.slices
  | .a a => a.rounds
  | .u _ => s.seamSlabs d
  | .x _ => s.seamSlabs d
  | .v a => a.listCount
  | _ => 0

/-- KIND_DATA as the cut starts (R223, R243, R297, R325): SEAM_ID, PRIV, and the night cycles that a W-cut waited. -/
def startKd (d : CutDesc) (waited : Nat) (r : StartReads) : Nat × Nat × Nat :=
  match d.area with
  | .d a => (0, if 5 ≤ a.func ∧ named a.privMap = true then setBits r.priv else 0, 0)
  | .w a => (a.seamId, 0, satAdd 32 0 waited)
  | .u a => (a.seamId, 0, 0)
  | .x a => (a.seamId, 0, 0)
  | _ => (0, 0, 0)

/-- A hoist whose stream begins: every receiver attached, at its beginning (R147, R153, R159). -/
def Hoist.begin (h : Hoist) (e : Nat) : Hoist :=
  { h with
    cut := some e, st := .stream, pos := 0, occ := 0, attached := h.allReceivers
    taken := List.replicate h.receivers 0, detachedTo := [], source := none, timer := 0, reqs := [], nextSeq := 0
    deliver := 0, out := [], parked := [], parkedCount := 0, sleepStall := false, ended := false, mark := 0 }

/-- Flags that a start sets (R127, R238, R261, R325). -/
def State.startFlags (s : State) (i : Image) (d : CutDesc) (r : StartReads) : Nat :=
  (if i.aliasing d then flag 7 else 0) +
  match d.area with
  | .w _ => if r.freeze.any (fun b => b) then flag 27 else 0
  | .a a => if (startRun r).seqs.any (fun q => ((startRun r).pagesOf 0 q).any (fun p => widerThan p.fmt a.qfmt)) then
      flag 8 else 0
  | .x a => match s.planFor a.plan with
    | some (_, true) => flag 26
    | _ => 0
  | _ => 0

/-- The entry and its hoists as the cut starts (R142, R181, R201). -/
def State.claimAll (s : State) (i : Image) (e : Nat) (r : StartReads) : State :=
  let d := i.countedDesc (s.descOf e) r
  let waited := match (s.cut e).metNc with
    | some t => s.nc - t
    | none => 0
  let kd := startKd d waited r
  let s1 := s.modCut e (fun c => { CutRun.reset with
    phase := .running, step := (s.work d.working).step, flags := c.flags, startNc := s.nc, runs := c.runs + 1
    desc := d, maps := i.maps, items := s.itemsOf d, metNc := c.metNc, priv := r.priv, freeze := r.freeze
    hyper := r.hyper, scales := r.scales, slices := r.slices, kd0 := kd.1, kd2 := kd.2.1, kd3 := kd.2.2 })
  (d.hoistList.foldl (fun t h => t.modHoist h (fun x => x.begin e)) s1).orFlags e (s.startFlags i d r)

/-- The seam of a W-cut begins to accumulate (R227, R232); with no pass and no initial value its slices stand complete
at once (R228). -/
def State.startW (s : State) (e : Nat) : State :=
  let d := (s.cut e).desc
  match s.wRegion d with
  | some region =>
    let m := { seamOf e d region ((s.cut e).typeOf 2 == 6) with phase := .accumulating }
    let s1 := State.dealStart { s with seams := Tab.set s.seams d.wArea.seamId m } e
    if d.axR = 0 ∧ d.wArea.initMap = 0xFFFF then (List.range d.slices).foldl (fun t k => t.checkSlice e k) s1
    else s1
  | none => s

/-- The own block of a ring chip goes to the next chip (R273). -/
def State.sendOwn (s : State) (e : Nat) (a : AArea) (r : StartReads) : State :=
  if 1 < a.ring then
    let x := s.arun e
    let q := nth default x.seqs 0
    let entries := ((x.pagesOf 0 q).map PageRow.bytes).flatten
    s.sendStream a.portNext a.vcKv e
      (blockHeader a a.ringPos 1 entries.length r.ring.length ++ entries ++ r.ring)
  else s

/-- An A-cut begins with round 0 (R264 to R266, R273). -/
def State.startA (s : State) (e : Nat) (a : AArea) (r : StartReads) : State :=
  let s1 : State := { s with aruns := Tab.set s.aruns e (startRun r) }
  ((s1.sendOwn e a r).dealStart e).sweepA e

/-- A U-cut begins; with no dresser left it halts its working (R381). -/
def State.startU (s : State) (e : Nat) : State :=
  if s.healthyDressers.isEmpty then s.halt (s.cut e).desc.working haltUnit 0 (some e) else s

/-- An X-cut begins: its run, its selector, and a stream header on each link (R307, R313). -/
def State.startX (s : State) (e : Nat) (x : XArea) : State :=
  match s.planFor x.plan with
  | none => s
  | some (plan, alt) =>
    let c := s.cut e
    let slabs := s.seamSlabs c.desc
    let run : XRun := { plan := plan, onAlt := alt, run := c.runs - 1, slabs := slabs, selected := 0, encoded := []
                        merge := [], keeper := [], down := [], delivered := 0, heard := [] }
    let s1 : State := { s with xruns := Tab.set s.xruns e run }
    let s2 := match s1.selectorOf x with
      | some i => s1.modUnit 6 i (fun u => { u with busy := some e, working := c.desc.working })
      | none => s1
    plan.ports.foldl (fun t p =>
      t.pushTx p x.vc e (streamHeader x.seamId plan.groupId (c.step % 2 ^ 32) slabs (c.runs - 1)) false) s2

/-- A V-cut begins: its engine, and its stream header (R397). -/
def State.startV (s : State) (e : Nat) (a : VArea) : State :=
  let c := s.cut e
  let s1 := match s.digestUnit with
    | some u => s.modUnit u.1 u.2 (fun x => { x with busy := some e, working := c.desc.working })
    | none => s
  match s.classVc 3 with
  | some vc => s1.pushTx a.port vc e (vHeader a.listCount c.step a.role) false
  | none => s1

/-- The cut begins its work. -/
def State.beginCut (s : State) (e : Nat) (r : StartReads) : State :=
  match (s.cut e).desc.area with
  | .d _ => s.dealStart e
  | .w _ => s.startW e
  | .a a => s.startA e a r
  | .u _ => s.startU e
  | .x x => s.startX e x
  | .v a => s.startV e a
  | _ => s

/-- A cut that would start with a port of its plan or ring lost ends with 0x50 without starting, and BROKEN goes to its
other ports that are up (R321). -/
def State.startLost (s : State) (e : Nat) (p : Nat) : State :=
  let d := s.descOf e
  let step := (s.work d.working).step
  let group := match d.area with
    | .x a => match s.planFor a.plan with
      | some (pl, _) => pl.groupId
      | none => 0
    | _ => 0
  let msg := brokenMsg group step s.sysId p
  let s1 := if d.kind = 7 then s else ((s.startPorts d).filter (fun q => q != p && (s.port q).st == .up)).foldl
    (fun t q => t.sendCtl q msg) s
  (s1.modCut e (fun c => { CutRun.reset with
    desc := d, step := step, startNc := s.nc, runs := c.runs, flags := c.flags })).endCut e 0x50

/-- A cut whose waits are met and which does not start yet: its stopped tiles wake (R336), and a W-cut notes that a
region holds it up (R243). -/
def State.awaitStart (s : State) (e : Nat) : State :=
  let d := s.descOf e
  if d.kind != 6 && s.mayStart e then
    let s1 := s.wakeAll (s.startTiles d)
    if d.kind = 2 ∧ s.seamBlocks d = true then s1.noteHeld e else s1
  else s

/-- CUT_START: an eligible cut starts once everything it needs is there; checks made at its start can refuse it (R181,
R321, R450). -/
def State.cutStart (s : State) (e : Nat) (r : StartReads) : State :=
  let d := s.descOf e
  match s.image with
  | none => s
  | some i =>
    if !(s.startable e && s.tilesRun d) then s.awaitStart e
    else if s.outranked e then s
    else
      match (s.startPorts d).find? (fun p => (s.port p).st != .up) with
      | some p => s.startLost e p
      | none =>
        if !s.readsFit i d r then s
        else
          match s.startRefusal i e d r with
          | some x => s.refuse e x
          | none => (s.claimAll i e r).beginCut e r

/-- CUT_START (R181). -/
def execCutStart (e : Fin 4096) (reads : StartReads) (s : State) : Host.Outcome State Fault Refusal :=
  s.on (fun s => s.cutStart e.val reads)

/-- EVICTION_DONE: the eviction completes, and the W-cut that carried it starts (R235, R236). -/
def State.evictionDone (s : State) (e : Nat) (r : StartReads) : State :=
  let s1 := s.finishEviction e
  if s1 = s then s else s1.cutStart e r

/-- EVICTION_DONE (R236). -/
def execEvictionDone (e : Fin 4096) (reads : StartReads) (s : State) : Host.Outcome State Fault Refusal :=
  s.on (fun s => s.evictionDone e.val reads)

/-! ### CUT_END (R190, R274, R317) -/

/-- Every write that a cut's hoists carry is acknowledged, and none waits for a drain (R190, R288). -/
def State.writesDone (s : State) (e : Nat) : Bool :=
  s.hoists.all (fun h : Nat × Hoist => h.2.cut != some e || (h.2.out.isEmpty && h.2.parked.isEmpty)) &&
  !(s.snap.waiting.any (fun x => x.entry == e))

/-- What a cut sent on a channel of a port has been acknowledged (R300, R317). -/
def State.sentAcked (s : State) (p vc e : Nat) : Bool :=
  s.sentAll p vc e && !((s.port p).replay.any (fun f => f.vc == vc && f.type == ftData))

/-- What the kind of a cut asks of its end. -/
def State.kindDone (s : State) (e : Nat) : Bool :=
  let d := (s.cut e).desc
  match d.area with
  | .a a =>
    let r := s.arun e
    decide (r.rowsDone.length = r.rows a) &&
    (decide (a.ring ≤ 1) || ((List.range (r.tilesIn a 0)).all (fun k => r.returned.contains k) &&
      s.sentAll a.portNext a.vcKv e && s.sentAll a.portNext a.vcDkv e))
  | .x x =>
    let r := s.xrun e
    r.keeper.isEmpty && r.down.isEmpty && r.plan.ports.all (fun p => s.sentAcked p x.vc e)
  | .v a => match s.classVc 3 with
    | some vc => s.sentAll a.port vc e
    | none => true
  | .s _ => false
  | _ => true

/-- Everything of a running cut is done: its items are published, no pass is open, its writes are acknowledged. -/
def State.cutDone (s : State) (e : Nat) : Bool :=
  let c := s.cut e
  c.phase == .running && c.published == c.items && (s.openPasses e).isEmpty && s.writesDone e && s.kindDone e

/-- CUT_END: the record is written, then the DONE tallies (R190). -/
def State.cutEnd (s : State) (e : Nat) : State :=
  let s1 := s.publish e
  if s1.cutDone e then (s1.endStreams e).endCut e (finalStatus (s1.cut e).flags.toNat) else s1

/-- CUT_END (R190). -/
def execCutEnd (e : Fin 4096) (s : State) : Host.Outcome State Fault Refusal := s.on (fun s => s.cutEnd e.val)

/-! ### RERUN (R382, R427) -/

/-- A write of an entry to SCHED.RERUN: the cut runs again, or the write is ignored and logged (R382, R427). -/
def State.rerunWrite (s : State) (e : Nat) : State :=
  if s.mayRerun e then s.runAgain e else s.badWrite 0x6011C e

/-- RERUN (R382). -/
def execRerun (e : Fin 4096) (s : State) : Host.Outcome State Fault Refusal := s.on (fun s => s.rerunWrite e.val)

/-! ### WRK_CTL (R180, R365, R427) -/

/-- A sequencer starts or restarts; a halted working's cuts resume (R365, R394, R427). -/
def State.runWorking (s : State) (w : Nat) : State :=
  if s.image.isSome && decide (w < s.workCount) && !s.snap.blocked then
    let halted := (s.work w).seq == .halted
    let s1 := s.modWork w (fun x => { x with seq := .running })
    if halted && s1.mayGoOn w then s1.resumeWorking w else s1
  else s

/-- WRK_CTL_RUN (R427). -/
def execWrkCtlRun (w : Fin 16) (s : State) : Host.Outcome State Fault Refusal := s.on (fun s => s.runWorking w.val)

/-- A sequencer stops: at once between two steps or while its step is held open only by 0x50 ends, and else at the
close of its step (R180, R427). -/
def State.stopWorking (s : State) (w : Nat) : State :=
  let x := s.work w
  if x.seq = .running ∨ x.seq = .stopping then
    s.modWork w (fun x => { x with seq := if !x.isOpen || s.heldByBroken w then .stopped else .stopping })
  else s

/-- WRK_CTL_STOP (R427). -/
def execWrkCtlStop (w : Fin 16) (s : State) : Host.Outcome State Fault Refusal := s.on (fun s => s.stopWorking w.val)

/-! ### GLB.PREEMPT (R383, R384) -/

/-- A bit of GLB.PREEMPT set: every running cut of the working stops (R383). -/
def State.preemptSet (s : State) (w : Nat) : State :=
  (s.modGlb (fun g => { g with preempt := g.preempt ||| BitVec.ofNat 16 (2 ^ w) })).preemptWorking w

/-- A bit of GLB.PREEMPT cleared: every cut resumes where it stopped, but for those of a halted working, those held for
a test drain's capture, and those whose faces are still to join (R376, R383, R384, R445). -/
def State.preemptClear (s : State) (w : Nat) : State :=
  if s.preempted w then
    let s1 := s.modGlb (fun g => { g with preempt := g.preempt &&& ~~~ BitVec.ofNat 16 (2 ^ w) })
    if s1.mayGoOn w then s1.resumeWorking w else s1
  else s

/-- GLB_PREEMPT_SET (R383). -/
def execGlbPreemptSet (w : Fin 16) (s : State) : Host.Outcome State Fault Refusal := s.on (fun s => s.preemptSet w.val)

/-- GLB_PREEMPT_CLEAR (R383). -/
def execGlbPreemptClear (w : Fin 16) (s : State) : Host.Outcome State Fault Refusal :=
  s.on (fun s => s.preemptClear w.val)

end Sys2Proof.Machine
end

