-- ==== Sys2Proof/Machine/RegWrite.lean ====
section
/-! DEFINITION. Register accesses: what a write of each register does (R6 to R10, R418 to R435), pairs, accesses that
wait for a stopped tile (R347), and tally writes (R23, R187). -/

namespace Sys2Proof.Machine

/-! ### Fields without a command of their own (R10, R421) -/

/-- RISK_THR: the threshold of R386; one that falls to the score or below it sets PENDING (R431). -/
def State.riskThrWrite (s : State) (v : Nat) : State :=
  let thr := bits v 15 0
  if thr = 0 then s.badWrite 0xD0004 v
  else
    let old := s.health.thr
    let s1 : State := { s with health := { s.health with thr := thr } }
    if thr < old ∧ thr ≤ s.health.score ∧ s.health.pending = false then s1.setPending else s1

/-- UART.BAUD, in units of 100 baud (R433). -/
def State.baudWrite (s : State) (v : Nat) : State :=
  let b := bits v 15 0
  if b < 96 ∨ 30000 < b then s.badWrite 0xF0018 v
  else { s with foreman := { s.foreman with baud := b } }

/-- SURGE_CTL.EN: ignored while surge is withdrawn (R353, R424). -/
def State.surgeWrite (s : State) (v : Nat) : State :=
  if s.surge.withdrawn then s else { s with surge := { s.surge with en := bit v 0 } }

/-- GLB.CTL: the sleep level, the end of a trip, and the HOST reset, each if its bit asks for it (R337, R359, R402,
R422). A level out of range drops the whole write (R421). -/
def State.ctlWrite (s : State) (v : Nat) : State :=
  if bits v 1 0 = 3 then s.badWrite 0x14 v
  else
    let s1 := s.sleepWrite (bits v 1 0)
    let s2 := if bit v 4 then s1.tripClear else s1
    if bit v 8 then (s2.hostReset false).resetOver else s2

/-- GLB.PREEMPT: each bit that changes pre-empts or resumes its working (R383). -/
def State.preemptWrite (s : State) (v : Nat) : State :=
  (List.range 16).foldl (fun t w =>
    if bit v w && !t.preempted w then t.preemptSet w
    else if !bit v w && t.preempted w then t.preemptClear w else t) s

/-- GLB (R422). -/
def State.glbWrite (s : State) (off v : Nat) : State :=
  if off = 0x14 then s.ctlWrite v
  else if off = 0x1C then s.modGlb (fun g => { g with evt := g.evt &&& ~~~ BitVec.ofNat 32 v })
  else if off = 0x20 then s.modGlb (fun g => { g with evtEn := BitVec.ofNat 32 (bits v 19 0) })
  else if off = 0x24 then s.preemptWrite v
  else s

/-- CLK/PWR and CROSS (R424). -/
def State.powerWrite (s : State) (off v : Nat) : State :=
  if off = 0x10000 then s.surgeWrite v
  else if 0x10100 ≤ off ∧ off < 0x10220 then s.pwrFaceWrite ((off - 0x10100) / 4) v
  else if 0x20000 ≤ off ∧ off < 0x20014 then s.crossWrite ((off - 0x20000) / 4) v
  else s

/-- SCHED, but for its pairs (R427). -/
def State.schedWrite (s : State) (o v : Nat) : State :=
  if o < 0x40 then (if bit v 0 then s.runWorking (o / 4) else s.stopWorking (o / 4))
  else if o = 0x108 then (if bit v 0 then s.loadStart else s)
  else if o = 0x11C then s.rerunWrite (bits v 11 0)
  else if 0x6000 ≤ o ∧ o < 0x7000 then s.tallyAdd ((o - 0x6000) / 4) v
  else s

/-- SLC[p] (R430). -/
def State.slcWrite (s : State) (p o v : Nat) : State :=
  if o = 0 then
    let s1 := if bit v 1 then s.flagModule p else s
    if bit v 0 then s1.retrain p else s1
  else s

/-- SNAP, but for its pairs (R432). -/
def State.snapWrite (s : State) (v : Nat) : State :=
  let s1 : State := if bit v 0 then { s with snap := { s.snap with force := true } } else s
  if bit v 1 then s1.startRestore else s1

/-- FMN, but for its pairs (R433). -/
def State.fmnWrite (s : State) (o v : Nat) : State :=
  if o = 0x04 then
    let s1 := if bit v 0 then s.startUpdate else s
    if bit v 1 then s1.swapFw else s1
  else if o = 0x10 then { s with foreman := { s.foreman with fwLen := BitVec.ofNat 32 v } }
  else if o = 0x18 then s.baudWrite v
  else s

/-- RWL fields are locked while a sealed image is in force, but for the time between the first read of a whole load and
its commit (R10). -/
def State.rwlLocked (s : State) : Bool :=
  s.image.isSome && !(s.load.phase == .secondRead && (match s.load.staged with
    | some i => i.header.kind == 0
    | none => false))

/-- A write to an RWL field that is locked: ignored, flagged and logged (R10, R422). -/
def State.lockedWrite (s : State) (off v : Nat) : State := (s.setEvt evLockw).logEvt 0x0701 off v

/-- The counters of a face that CNT_CLR clears (R434). -/
def Face.clearCounts (f : Face) : Face := { f with unchk := [], reloc := [], frz := [] }

/-- FCE[n], but for its pairs (R434). A retired or failed face ignores every write (R419). -/
def State.fceWrite (s : State) (n o v : Nat) : State :=
  if (s.face n).away then s
  else if o = 0x0000 then (if bit v 0 then s.modFace n Face.clearCounts else s)
  else if o = 0x0008 then
    if s.rwlLocked then s.lockedWrite (0x100000 + 0x10000 * n + o) v
    else if 4 < bits v 2 0 then s.badWrite (0x100000 + 0x10000 * n + o) v
    else s.modFace n (fun f => { f with acc := BitVec.ofNat 32 v &&& 0xF7 })
  else if o = 0x000C then
    if s.rwlLocked then s.lockedWrite (0x100000 + 0x10000 * n + o) v
    else if 3 < bits v 2 0 ∨ bits v 7 6 = 0 then s.badWrite (0x100000 + 0x10000 * n + o) v
    else s.modFace n (fun f => { f with chk := BitVec.ofNat 32 v &&& 0x1F7 })
  else s

/-- An aligned 32-bit write of a register that is no half of a pair. A write of an offset without a register, or of a
register that is read-only, does nothing (R7, R10). -/
def State.regWrite (s : State) (off v : Nat) : State :=
  if off < 0x10000 then s.glbWrite off v
  else if off < 0x30000 then s.powerWrite off v
  else if off < 0x40000 then
    (if off = 0x30000 then { s with yard := { s.yard with swzRegion := bits v 9 0 } } else s)
  else if off < 0x60000 then s
  else if off < 0x80000 then s.schedWrite (off - 0x60000) v
  else if off < 0xC0000 then s
  else if off < 0xD0000 then s.slcWrite ((off - 0xC0000) / 0x4000) (off % 0x4000) v
  else if off < 0xE0000 then
    if off = 0xD0004 then s.riskThrWrite v
    else if off = 0xD0104 then { s with health := { s.health with logSel := v } }
    else s
  else if off < 0xF0000 then (if off = 0xE0000 then s.snapWrite v else s)
  else if off < 0x100000 then s.fmnWrite (off - 0xF0000) v
  else if off < 0x580000 then s.fceWrite ((off - 0x100000) / 0x10000) (off % 0x10000) v
  else s

/-! ### Pairs (R8, R9) -/

/-- The key of a pair for one requester. -/
def pairKey (who : Requester) (lo : Nat) : Nat := lo * 2 + (if who = .foreman then 1 else 0)

/-- What a pair holds for a requester. -/
def State.pairSide (s : State) (who : Requester) (lo : Nat) : PairSide :=
  Tab.get { shadow := none, staged := none } s.pairs (pairKey who lo)

/-- The state with a requester's side of a pair changed. -/
def State.modPair (s : State) (who : Requester) (lo : Nat) (f : PairSide → PairSide) : State :=
  { s with pairs := Tab.update { shadow := none, staged := none } s.pairs (pairKey who lo) f }

/-- The register at an offset belongs to a retired or failed face, for which the night domain answers (R419). -/
def State.answeredAway (s : State) (off : Nat) : Bool :=
  decide (0x100000 ≤ off) && decide (off < 0x580000) && (s.face ((off - 0x100000) / 0x10000)).away

/-- A 64-bit quantity that software may set takes a value (R8, R427, R432, R433). -/
def State.setPair (s : State) (lo : Nat) (v : Nat) : State :=
  if lo = 0x60100 then { s with load := { s.load with addr := BitVec.ofNat 64 v } }
  else if 0x64000 ≤ lo ∧ lo < 0x66000 then { s with tallies := Tab.set s.tallies ((lo - 0x64000) / 8) v }
  else if lo = 0xE0010 then { s with snap := { s.snap with restoreAddr := BitVec.ofNat 64 v } }
  else if lo = 0xF0008 then { s with foreman := { s.foreman with fwAddr := BitVec.ofNat 64 v } }
  else s

/-- A write of name_LO: staged for its requester (R8). -/
def State.stage (s : State) (who : Requester) (lo : Nat) (v : Nat) : State :=
  s.modPair who lo (fun p => { p with staged := some (BitVec.ofNat 32 v) })

/-- A write of name_HI: both halves are committed, the low one from the staging or else as it stands (R8). -/
def State.commitPair (s : State) (who : Requester) (lo : Nat) (v : Nat) : State :=
  let low := match (s.pairSide who lo).staged with
    | some x => x.toNat
    | none => s.regValue lo
  (s.setPair lo (v % 2 ^ 32 * 2 ^ 32 + low)).modPair who lo (fun p => { p with staged := none })

/-- A write reaches its register (R6, R8, R10): one that is not an aligned 32-bit write is ignored. -/
def State.writeNow (s : State) (who : Requester) (off size v : Nat) : State :=
  if size = 4 ∧ off % 4 = 0 then
    if s.answeredAway off then s
    else match pairLo off with
      | some lo => if off = lo then s.stage who lo v else s.commitPair who lo v
      | none => s.regWrite off v
  else s

/-- What an aligned 32-bit read returns: the shadow of an upper half that a read of its lower half latched, or the
register (R8). -/
def State.readValue (s : State) (who : Requester) (off : Nat) : Nat :=
  match pairLo off with
  | some lo =>
    if off = lo ∨ s.answeredAway off then s.regValue off
    else match (s.pairSide who lo).shadow with
      | some x => x.toNat
      | none => s.regValue off
  | none => s.regValue off

/-- The data that a requester received. -/
def State.giveData (s : State) (who : Requester) (v : Nat) : State :=
  match who with
  | .host => { s with bus := { s.bus with hostData := BitVec.ofNat 32 v } }
  | .foreman => { s with bus := { s.bus with foremanData := BitVec.ofNat 32 v } }

/-- An aligned 32-bit read of a register: a read of name_LO latches the upper half, and one of name_HI uses the shadow up
(R8). -/
def State.readNow (s : State) (who : Requester) (off : Nat) : State :=
  let s1 := s.giveData who (s.readValue who off)
  if s.answeredAway off then s1
  else match pairLo off with
    | some lo =>
      if off = lo then s1.modPair who lo (fun p => { p with shadow := some (BitVec.ofNat 32 (s.regValue (pairHi lo))) })
      else s1.modPair who lo (fun p => { p with shadow := none })
    | none => s1

/-! ### Stopped tiles (R347) -/

/-- The tile with a number of `regTile`: a face or the yard. -/
def tileOf (k : Nat) : Tile := if h : k < 72 then .face ⟨k, h⟩ else .yard

/-- The tile that an access has to wait for: its clock is stopped, or older accesses to it wait. The night domain answers
at once, during a trip the registers do, and for a face that is retired or failed the night domain does (R347, R419). -/
def State.waitTile (s : State) (off : Nat) : Option Tile :=
  match regTile off with
  | some k =>
    if s.answeredAway off then none
    else if s.bus.waiting.any (fun x => x.tile == tileOf k) then some (tileOf k)
    else if s.running k || s.glb.tripped then none
    else some (tileOf k)
  | none => none

/-- An access joins those that wait for its tile, which is woken (R347). -/
def State.waitAccess (s : State) (x : BusAccess) : State :=
  State.wake { s with bus := { s.bus with waiting := s.bus.waiting ++ [x] } } (tileKey x.tile)

/-- A write by a requester: at once, or after the tile's wake (R347). -/
def State.busWrite (s : State) (who : Requester) (off size v : Nat) : State :=
  match s.waitTile off with
  | some t => s.waitAccess { tile := t, who := who, write := true, off := off, size := size, value := BitVec.ofNat 32 v }
  | none => s.writeNow who off size v

/-- A read by a requester: at once, or after the tile's wake (R347). -/
def State.busRead (s : State) (who : Requester) (off : Nat) : State :=
  match s.waitTile off with
  | some t => s.waitAccess { tile := t, who := who, write := false, off := off, size := 4, value := 0 }
  | none => s.readNow who off

/-- REGISTER_WRITE (R10). -/
def execRegisterWrite (who : Requester) (off size : Nat) (v : Word) (s : State) :
    Host.Outcome State Fault Refusal := s.on (fun s => s.busWrite who off size v.toNat)

/-- The operand of a pair command is the offset it needs. -/
def pairOffset (off : Nat) (hi : Bool) : Bool :=
  match pairLo off with
  | some lo => if hi then off != lo else off == lo
  | none => false

/-- PAIR_LO_READ (R8). -/
def execPairLoRead (who : Requester) (off : Nat) (s : State) : Host.Outcome State Fault Refusal :=
  s.on (fun s => if pairOffset off false then s.busRead who off else s)

/-- PAIR_LO_WRITE (R8). -/
def execPairLoWrite (who : Requester) (off : Nat) (v : Word) (s : State) : Host.Outcome State Fault Refusal :=
  s.on (fun s => if pairOffset off false then s.busWrite who off 4 v.toNat else s)

/-- PAIR_HI_WRITE (R8). -/
def execPairHiWrite (who : Requester) (off : Nat) (v : Word) (s : State) : Host.Outcome State Fault Refusal :=
  s.on (fun s => if pairOffset off true then s.busWrite who off 4 v.toNat else s)

/-! ### Commands for single fields -/

/-- FCE_CTL_CNT_CLR: a write of 1 to the face's CNT_CLR by the host (R434). -/
def execFceCtlCntClr (n : Fin 72) (s : State) : Host.Outcome State Fault Refusal :=
  s.on (fun s => s.busWrite .host (0x100000 + 0x10000 * n.val) 4 1)

/-- RISK_THR_WRITE (R431). -/
def execRiskThrWrite (v : Word) (s : State) : Host.Outcome State Fault Refusal := s.on (fun s => s.riskThrWrite v.toNat)

/-- UART_BAUD_WRITE (R433). -/
def execUartBaudWrite (v : Word) (s : State) : Host.Outcome State Fault Refusal := s.on (fun s => s.baudWrite v.toNat)

/-! ### Tally writes (R23, R187) -/

/-- An amount for a tally: at once, or, while the schedule block's clock is stopped, once it runs (R23). -/
def State.tallyWrite (s : State) (i k : Nat) : State :=
  if s.running yardTile then s.tallyAdd i k
  else State.wake { s with tallyWait := s.tallyWait ++ [(i, k)] } yardTile

/-- TALLY_ADD (R187); during a trip the register takes the value without a wake (R347). -/
def execTallyAdd (i : Fin 1024) (v : Word) (s : State) : Host.Outcome State Fault Refusal :=
  s.on (fun s => if s.glb.tripped then s.tallyAdd i.val v.toNat else s.tallyWrite i.val v.toNat)

/-- A write to the tally aperture of 8 KiB: one of another size or alignment is counted and ignored; one outside the
aperture is none of the engine's (R187). -/
def State.apertureWrite (s : State) (off size v : Nat) : State :=
  if 8192 ≤ off then s
  else if size = 8 ∧ off % 8 = 0 then s.tallyWrite (off / 8) v
  else { s with apertureErr := satAdd 32 s.apertureErr 1 }

/-- TALLY_APERTURE_WRITE (R187). -/
def execTallyApertureWrite (off size : Nat) (v : DWord) (s : State) : Host.Outcome State Fault Refusal :=
  s.on (fun s => s.apertureWrite off size v.toNat)

end Sys2Proof.Machine
end

