-- ==== Sys2Proof/Machine/Monitor.lean ====
section
/-! DEFINITION. The foreman's serial monitor: characters, lines, sessions and commands (R436 to R448), and register
accesses that complete after a tile's wake (R347). -/

namespace Sys2Proof.Machine

/-! ### Text (R437, R438) -/

/-- The characters of a text. -/
def chars (cs : List Char) : List Byte := cs.map (fun c => BitVec.ofNat 8 c.toNat)

/-- A letter in lower case. -/
def lower (c : Byte) : Byte := if 0x41 ≤ c.toNat ∧ c.toNat ≤ 0x5A then BitVec.ofNat 8 (c.toNat + 32) else c

/-- The words of a line: what spaces separate, in lower case (R438). -/
def wordsOf : List Byte → List Byte → List (List Byte)
  | acc, [] => if acc.isEmpty then [] else [acc.reverse]
  | acc, c :: cs =>
    if c = 0x20 then (if acc.isEmpty then wordsOf [] cs else acc.reverse :: wordsOf [] cs)
    else wordsOf (lower c :: acc) cs

/-- The value of a digit. -/
def digit (c : Byte) : Option Nat :=
  if 0x30 ≤ c.toNat ∧ c.toNat ≤ 0x39 then some (c.toNat - 0x30)
  else if 0x61 ≤ c.toNat ∧ c.toNat ≤ 0x66 then some (c.toNat - 0x61 + 10)
  else none

/-- The value of digits of a base. -/
def digits (base : Nat) : Nat → List Byte → Option Nat
  | a, [] => some a
  | a, c :: cs =>
    match digit c with
    | some d => if d < base then digits base (a * base + d) cs else none
    | none => none

/-- An underscore after every fourth digit of a reversed number, but not after its last (R3). -/
def group4 : Nat → List Byte → List Byte
  | _, [] => []
  | k, c :: cs => if k = 4 then 0x5F :: c :: group4 1 cs else c :: group4 (k + 1) cs

/-- Digits of a base, plain or with underscores as R3 places them. -/
def grouped (base : Nat) (cs : List Byte) : Option Nat :=
  let plain := cs.filter (· != 0x5F)
  if plain.isEmpty then none
  else if cs == plain || cs == (group4 0 plain.reverse).reverse then digits base 0 plain
  else none

/-- A number: decimal, or hexadecimal after 0x (R438). -/
def number (cs : List Byte) : Option Nat :=
  match cs with
  | 0x30 :: 0x78 :: rest => grouped 16 rest
  | _ => grouped 10 cs

/-- A number below a bound. -/
def numBelow (n : Nat) (cs : List Byte) : Option (Fin n) :=
  match number cs with
  | some v => if h : v < n then some ⟨v, h⟩ else none
  | none => none

/-- A response: two groups of four hexadecimal digits (R441). -/
def response (cs : List Byte) : Option Word :=
  if cs.length = 9 ∧ cs.getD 4 0 = 0x2D then
    (digits 16 0 (cs.take 4 ++ cs.drop 5)).map (BitVec.ofNat 32)
  else none

/-! ### Lines (R439) -/

/-- What a complete line is. -/
inductive Parsed where
  | empty
  | bad (code : Nat)
  | command (i : Instr)
  deriving DecidableEq, Repr

/-- A word, to compare with. -/
def isWord (w : List Byte) (cs : List Char) : Bool := w == chars cs

/-- ERR 03 where an argument is missing or malformed (R438). -/
def orBad (i : Option Instr) : Parsed :=
  match i with
  | some i => .command i
  | none => .bad 3

/-- The kinds of `return` (R443). -/
def parseReturn (args : List (List Byte)) : Option Instr :=
  match args with
  | [k, x] =>
    if isWord k ['f', 'a', 'c', 'e'] then (numBelow 72 x).map (fun f => .return_ (.face f) false)
    else if isWord k ['b', 'a', 'n', 'k'] then (numBelow 288 x).map (fun b => .return_ (.bank b) false)
    else if isWord k ['b', 'u', 'f', 'f', 'e', 'r'] then (numBelow 8 x).map (fun j => .return_ (.buffer j) false)
    else if isWord k ['d', 'p'] then (numBelow 4 x).map (fun p => .return_ (.dp p) false)
    else none
  | [k, x, y] =>
    if isWord k ['b', 'e', 'n', 'c', 'h'] then
      match numBelow 72 x, numBelow 5 y with
      | some f, some b => some (.return_ (.bench f b) false)
      | _, _ => none
    else none
  | _ => none

/-- The kinds of `inject` (R444). -/
def parseInject (args : List (List Byte)) : Option Instr :=
  match args with
  | [k] => if isWord k ['c', 'l', 'e', 'a', 'r'] then some .injectClear else none
  | [k, x] =>
    if isWord k ['f', 'r', 'a', 'm', 'e'] then (numBelow 4 x).map (fun p => .inject (.frame p))
    else if isWord k ['t', 'p', 'b'] then (numBelow 8 x).map (fun j => .inject (.tpb j))
    else if isWord k ['t', 'a', 'b', 'l', 'e'] then (numBelow 72 x).map (fun f => .inject (.table f))
    else none
  | [k, x, y] =>
    if isWord k ['y', 'a', 'r', 'd'] then
      match number x, numBelow 3 y with
      | some a, some b => some (.inject (.yard a b))
      | _, _ => none
    else none
  | [k, x, y, z] =>
    if isWord k ['l', 'a', 'n', 'e'] then
      match numBelow 72 x, numBelow 4 y, numBelow 512 z with
      | some f, some b, some l => some (.inject (.lane f b l))
      | _, _, _ => none
    else none
  | [k, x, y, z, u] =>
    if isWord k ['l', 'a', 'n', 'e', 's'] then
      match numBelow 72 x, numBelow 4 y, numBelow 512 z, numBelow 512 u with
      | some f, some b, some l1, some l2 => some (.inject (.lanes f b l1 l2))
      | _, _, _, _ => none
    else none
  | _ => none

/-- `log` (R439). -/
def parseLog (args : List (List Byte)) : Option Instr :=
  match args with
  | [] => some (.log 16 none)
  | [n] => (number n).map (fun n => .log n none)
  | [f, q] => if isWord f ['f', 'r', 'o', 'm'] then (number q).map (fun q => .log 16 (some q)) else none
  | [n, f, q] =>
    if isWord f ['f', 'r', 'o', 'm'] then
      match number n, number q with
      | some n, some q => some (.log n (some q))
      | _, _ => none
    else none
  | _ => none

/-- `slc` (R439). -/
def parseSlc (args : List (List Byte)) : Option Instr :=
  match args with
  | [p] => (numBelow 4 p).map .slc
  | [p, k] =>
    if isWord k ['f', 'l', 'a', 'g'] then (numBelow 4 p).map .slcFlag
    else if isWord k ['r', 'e', 't', 'r', 'a', 'i', 'n'] then (numBelow 4 p).map .slcRetrain
    else none
  | _ => none

/-- `key` (R439). How `hex` spells a public key is not given: the coordinates come with the command (log entry 28). -/
def parseKey (args : List (List Byte)) : Option Instr :=
  match args with
  | [k, n] => if isWord k ['r', 'e', 'v', 'o', 'k', 'e'] then (numBelow 4 n).map .keyRevoke else none
  | [k, n, h] =>
    if isWord k ['i', 'n', 's', 't', 'a', 'l', 'l'] && (digits 16 0 (h.filter (· != 0x5F))).isSome then
      (numBelow 4 n).map (fun n => .keyInstall n 0 0)
    else none
  | _ => none

/-- `tile` (R439). -/
def parseTile (args : List (List Byte)) : Option Instr :=
  match args with
  | [x] =>
    if isWord x ['a', 'l', 'l'] then some (.tile 0 true) else (numBelow 72 x).map (fun f => .tile f false)
  | _ => none

/-- `rd` (R439). -/
def parseRd (args : List (List Byte)) : Option Instr :=
  match args with
  | [o] => (number o).map (fun o => .rd o 1)
  | [o, n] =>
    match number o, number n with
    | some o, some n => some (.rd o n)
    | _, _ => none
  | _ => none

/-- `wr` (R439). -/
def parseWr (args : List (List Byte)) : Option Instr :=
  match args with
  | [o, v] =>
    match number o, number v with
    | some o, some v => if v < 2 ^ 32 then some (.wr o (BitVec.ofNat 32 v)) else none
    | _, _ => none
  | _ => none

/-- A command without arguments. -/
def noArgs (args : List (List Byte)) (i : Instr) : Option Instr := if args.isEmpty then some i else none

/-- A command whose one argument is a number below a bound. -/
def oneArg (n : Nat) (args : List (List Byte)) (f : Fin n → Instr) : Option Instr :=
  match args with
  | [x] => (numBelow n x).map f
  | _ => none

/-- `snap` (R439). -/
def parseSnap (args : List (List Byte)) : Option Instr :=
  match args with
  | [] => some .snap
  | [k] =>
    if isWord k ['f', 'o', 'r', 'c', 'e'] then some .snapForce
    else if isWord k ['d', 'r', 'a', 'i', 'n'] then some .snapDrain
    else none
  | _ => none

/-- `retire` (R439). -/
def parseRetire (args : List (List Byte)) : Option Instr :=
  match args with
  | [k, x] => if isWord k ['f', 'a', 'c', 'e'] then (numBelow 72 x).map .retireFace else none
  | _ => none

/-- `fw` (R439). -/
def parseFw (args : List (List Byte)) : Option Instr :=
  match args with
  | [] => some .fw
  | [k] => if isWord k ['s', 'w', 'a', 'p'] then some .fwSwap else none
  | _ => none

/-- `baud` (R439). -/
def parseBaud (args : List (List Byte)) : Option Instr :=
  match args with
  | [r] => (number r).map .baud
  | _ => none

/-- `unlock` (R441); the challenge comes from the random source with the command. -/
def parseUnlock (args : List (List Byte)) : Option Instr :=
  match args with
  | [] => some (.unlock 0)
  | [r] => (response r).map .unlockResponse
  | _ => none

/-- A line's command word and arguments (R438, R439). -/
def parseWords (w : List Byte) (args : List (List Byte)) : Parsed :=
  if isWord w ['h', 'e', 'l', 'p'] then orBad (noArgs args .help)
  else if isWord w ['r', 'd'] then orBad (parseRd args)
  else if isWord w ['w', 'r'] then orBad (parseWr args)
  else if isWord w ['t', 'i', 'l', 'e'] then orBad (parseTile args)
  else if isWord w ['r', 'e', 't', 'i', 'r', 'e'] then orBad (parseRetire args)
  else if isWord w ['r', 'e', 't', 'u', 'r', 'n'] then orBad (parseReturn args)
  else if isWord w ['i', 'm', 'a', 'g', 'e'] then orBad (noArgs args .image)
  else if isWord w ['l', 'o', 'g'] then orBad (parseLog args)
  else if isWord w ['r', 'i', 's', 'k'] then orBad (noArgs args .risk)
  else if isWord w ['s', 'n', 'a', 'p'] then orBad (parseSnap args)
  else if isWord w ['c', 'l', 'k'] then orBad (noArgs args .clk)
  else if isWord w ['s', 'l', 'c'] then orBad (parseSlc args)
  else if isWord w ['p', 'r', 'e', 'e', 'm', 'p', 't'] then orBad (oneArg 16 args .preempt)
  else if isWord w ['r', 'e', 's', 'u', 'm', 'e'] then orBad (oneArg 16 args .resume)
  else if isWord w ['i', 'n', 'j', 'e', 'c', 't'] then orBad (parseInject args)
  else if isWord w ['k', 'e', 'y'] then orBad (parseKey args)
  else if isWord w ['f', 'w'] then orBad (parseFw args)
  else if isWord w ['b', 'a', 'u', 'd'] then orBad (parseBaud args)
  else if isWord w ['u', 'n', 'l', 'o', 'c', 'k'] then orBad (parseUnlock args)
  else if isWord w ['l', 'o', 'c', 'k'] then orBad (noArgs args .lock)
  else .bad 2

/-- A complete line (R438). -/
def parseLine (line : List Byte) : Parsed :=
  match wordsOf [] line with
  | [] => .empty
  | w :: args => parseWords w args

/-- A command as its line spells it: without what the command brings beside its line (a self-test's result, a challenge
drawn, a key's coordinates). -/
def Parsed.ofCommand (i : Instr) : Parsed :=
  match i with
  | .return_ k _ => .command (.return_ k false)
  | .unlock _ => .command (.unlock 0)
  | .keyInstall n _ _ => .command (.keyInstall n 0 0)
  | i => .command i

/-! ### The monitor's side of a command (R437, R439, R448) -/

/-- The state with the monitor changed. -/
def State.modMon (s : State) (f : Monitor → Monitor) : State := { s with monitor := f s.monitor }

/-- What the monitor sends. -/
def State.say (s : State) (ms : List MonOut) : State := s.modMon (fun m => { m with out := m.out ++ ms })

/-- A command runs: a complete line waits to be carried out, or an access has still to complete. -/
def Monitor.busy (m : Monitor) : Bool := m.command.isSome || m.owed

/-- The end of a line: a line of more than 128 characters answers ERR 01, an empty one brings the prompt again, and any
other is a command (R437, R438). -/
def Monitor.endLine (m : Monitor) : Monitor :=
  let m1 : Monitor := { m with line := [], overlong := false }
  if m.overlong then { m1 with out := m1.out ++ [.err 1, .prompt] }
  else match parseLine m.line with
    | .empty => { m1 with out := m1.out ++ [.prompt] }
    | .bad c => { m1 with out := m1.out ++ [.err c, .prompt] }
    | .command _ => { m1 with command := some m.line }

/-- A character of a line (R437). -/
def Monitor.lineChar (m : Monitor) (c : Byte) : Monitor :=
  if c = 0x0D then { m.endLine with lastCr := true }
  else if c = 0x0A then (if m.lastCr then { m with lastCr := false } else m.endLine)
  else if c = 0x08 ∨ c = 0x7F then { m with line := m.line.dropLast, lastCr := false }
  else if m.line.length < 128 then { m with line := m.line ++ [c], lastCr := false }
  else { m with overlong := true, lastCr := false }

/-- A character that arrives: while a command runs it is held, in a buffer of 256 characters (R437). -/
def Monitor.take (m : Monitor) (c : Byte) : Monitor :=
  if m.busy then { m with hold := if m.hold.length < 256 then m.hold ++ [c] else m.hold } else m.lineChar c

/-- The prompt after a response, and then the characters that were held (R437). While the foreman restarts there is no
prompt (R448). -/
def State.endCommand (s : State) : State :=
  if s.monitor.busy || s.foreman.restarting then s
  else s.modMon (fun m => m.hold.foldl Monitor.take { m with out := m.out ++ [.prompt], hold := [] })

/-- Records written for a monitor command carry MONITOR (R446). -/
def State.markMonitor (s : State) (head : Nat) : State :=
  { s with log := { s.log with recs := s.log.recs.map (fun r : LogRec =>
      if head < r.seq then { r with flags := r.flags ||| fromMonitor } else r) } }

/-- A monitor command: nothing while the foreman does not run (R448), while another command runs, or while the line
that waits is another command's. -/
def State.monitorDo (s : State) (i : Instr) (f : State → State) : State :=
  let mine := match s.monitor.command with
    | some l => parseLine l == Parsed.ofCommand i
    | none => true
  if s.foremanUp && !s.monitor.owed && mine then
    ((f (s.modMon (fun m => { m with command := none, out := [] }))).markMonitor s.log.head).endCommand
  else s

/-- A command whose answer is its last line alone. -/
def State.answer (s : State) (o : MonOut) : State := s.say [o]

/-- The record of a locked command carried out: its row in R439, counted from 0, and its first argument (R439, R446). -/
def State.logCommand (s : State) (index arg : Nat) : State := s.logEvt 0x0703 index arg

/-- A locked command: ERR 04 unless the session is unlocked, an error where it may not run, and else its record, its
effect and OK (R439). -/
def State.lockedDo (s : State) (index arg : Nat) (error : Option Nat) (f : State → State) : State :=
  if !s.monitor.unlocked then s.answer (.err 4)
  else match error with
    | some c => s.answer (.err c)
    | none => (f (s.logCommand index arg)).answer .ok

/-! ### Characters (R437) -/

/-- MONITOR_CHAR: the character is echoed and taken (R437); while the foreman restarts it is discarded (R448). -/
def State.monitorChar (s : State) (c : Byte) : State :=
  if s.foremanUp then s.modMon (fun m => Monitor.take { m with out := [.echo c] } c) else s

/-- MONITOR_CHAR (R437). -/
def execMonitorChar (c : Byte) (s : State) : Host.Outcome State Fault Refusal := s.on (fun s => s.monitorChar c)

/-! ### Reads (R439, R440) -/

/-- The offset that a read of the monitor accesses first. -/
def MonRead.offset : MonRead → Nat
  | .reg off => off
  | .face n => 0x100004 + 0x10000 * n
  | .image => 0x60110

/-- A read made, with its lines (R439). -/
def State.performRead (s : State) (r : MonRead) : State :=
  match r with
  | .reg off =>
    let s1 := s.readNow .foreman off
    s1.say [.reg off s1.bus.foremanData.toNat]
  | .face n =>
    let s1 := s.readNow .foreman r.offset
    s1.say [.face n s1.bus.foremanData.toNat (bits (s.pwrFace n) 13 9) (Tab.get 0 s.temps n)]
  | .image =>
    s.say [.values 6 0 [s.imgId], .values 6 1 [s.imgVer], .values 6 2 (s.imgDigest.map (fun b : Byte => (b.toNat : Int))),
           .values 6 3 (s.cfgDigest.map (fun b : Byte => (b.toNat : Int))), .values 6 4 [(s.loadStat : Int)]]

/-- The reads of a command in order; one that has to wait for its tile leaves the rest for its completion (R347). -/
def State.readsOn : List MonRead → State → State
  | [], s => (s.modMon (fun m => { m with reads := [], owed := false })).say [.ok]
  | r :: rest, s =>
    match s.waitTile r.offset with
    | some t =>
      (s.waitAccess { tile := t, who := .foreman, write := false, off := r.offset, size := 4, value := 0 }).modMon
        (fun m => { m with reads := r :: rest, owed := true })
    | none => State.readsOn rest (s.performRead r)

/-- Registers of the 16 MiB window (R5, R439). -/
def inWindow (off n : Nat) : Bool := decide (off + 4 * n ≤ 2 ^ 24)

/-- RD (R439, R440). -/
def State.rd (s : State) (off n : Nat) : State :=
  if off % 4 = 0 ∧ 1 ≤ n ∧ n ≤ 64 ∧ inWindow off n = true then
    State.readsOn ((List.range n).map (fun i => .reg (off + 4 * i))) s
  else s.answer (.err 3)

/-- RD (R439). -/
def execRd (off : Nat) (n : Nat) (s : State) : Host.Outcome State Fault Refusal :=
  s.on (fun s => s.monitorDo (.rd off n) (fun t => t.rd off n))

/-- TILE (R439). -/
def execTile (first : Fin 72) (all : Bool) (s : State) : Host.Outcome State Fault Refusal :=
  s.on (fun s => s.monitorDo (.tile first all) (State.readsOn
    (if all then (List.range 72).map .face else [.face first.val])))

/-- IMAGE (R439). -/
def execImage (s : State) : Host.Outcome State Fault Refusal :=
  s.on (fun s => s.monitorDo .image (State.readsOn [.image]))

/-- WR: the write, and OK once it has reached its register (R347, R439, R440). -/
def State.wr (s : State) (off v : Nat) : State :=
  if 2 ^ 24 ≤ off then s.answer (.err 3)
  else if !s.monitor.unlocked then s.answer (.err 4)
  else
    let s1 := s.logCommand 2 off
    let s2 := s1.busWrite .foreman off 4 v
    if (s1.waitTile off).isSome then s2.modMon (fun m => { m with owed := true }) else s2.answer .ok

/-- WR (R439). -/
def execWr (off : Nat) (v : Word) (s : State) : Host.Outcome State Fault Refusal :=
  s.on (fun s => s.monitorDo (.wr off v) (fun t => t.wr off v.toNat))

/-- A monitor access has completed: the command goes on (R347, R440). -/
def State.monitorGoesOn (s : State) (x : BusAccess) : State :=
  if s.monitor.owed then
    let s1 := s.modMon (fun m => { m with out := [] })
    if x.write then
      ((s1.writeNow .foreman x.off x.size x.value.toNat).modMon (fun m => { m with owed := false })).answer .ok
    else match s1.monitor.reads with
      | r :: rest => State.readsOn rest (s1.performRead r)
      | [] => State.readsOn [] s1
  else if x.write then s.writeNow .foreman x.off x.size x.value.toNat
  else s.readNow .foreman x.off

/-- A waiting access reaches its register (R347). -/
def State.completeAccess (s : State) (x : BusAccess) : State :=
  let s1 : State := { s with bus := { s.bus with waiting := s.bus.waiting.erase x } }
  match x.who with
  | .host => if x.write then s1.writeNow .host x.off x.size x.value.toNat else s1.readNow .host x.off
  | .foreman => ((s1.monitorGoesOn x).markMonitor s.log.head).endCommand

/-- REGISTER_ACCESS_COMPLETE: the oldest access that waits for a tile completes once the tile is in RUN, and at once
during a trip or where the night domain has come to answer for the face. A tile that was stopped again is asked to wake
again (R347, R419). -/
def State.accessComplete (s : State) (t : Tile) : State :=
  match s.bus.waiting.find? (fun x => x.tile == t) with
  | some x =>
    if s.running (tileKey t) || s.glb.tripped || s.answeredAway x.off then s.completeAccess x
    else s.wake (tileKey t)
  | none => s

/-- REGISTER_ACCESS_COMPLETE (R347). -/
def execRegisterAccessComplete (t : Tile) (s : State) : Host.Outcome State Fault Refusal :=
  s.on (fun s => s.accessComplete t)

/-! ### Reports of night-domain registers (R439) -/

/-- Command words of R439. -/
def commandWords : Nat := 20

/-- HELP (R439). -/
def execHelp (s : State) : Host.Outcome State Fault Refusal :=
  s.on (fun s => s.monitorDo .help (fun t => t.say ((List.range commandWords).map .word ++ [.ok])))

/-- Record numbers that `log` prints: `n` of them, ending at `last`. -/
def logRange (n last : Nat) : List Nat := (List.range (min n last)).map (fun i => last + 1 - min n last + i)

/-- The line of a record number (R447). -/
def State.logLine (s : State) (seq : Nat) : MonOut :=
  match s.logFind seq with
  | some r => .record r
  | none => .gone seq

/-- LOG (R439, R447). -/
def State.logCmd (s : State) (n : Nat) (seq : Option Nat) : State :=
  let last := seq.getD s.log.head
  if 1 ≤ n ∧ n ≤ 256 ∧ last ≤ s.log.head then s.say ((logRange n last).map s.logLine ++ [.ok])
  else s.answer (.err 3)

/-- LOG (R439). -/
def execLog (n : Nat) (seq : Option Nat) (s : State) : Host.Outcome State Fault Refusal :=
  s.on (fun s => s.monitorDo (.log n seq) (fun t => t.logCmd n seq))

/-- RISK (R439). -/
def execRisk (s : State) : Host.Outcome State Fault Refusal :=
  s.on (fun s => s.monitorDo .risk (fun t => t.say
    [.values 8 0 [t.hlthReg 0], .values 8 1 [t.hlthReg 4],
     .values 8 2 ((List.range 8).map (fun i => (t.hlthReg (0x10 + 4 * i) : Int))), .ok]))

/-- SNAP (R439). -/
def execSnap (s : State) : Host.Outcome State Fault Refusal :=
  s.on (fun s => s.monitorDo .snap (fun t => t.say
    [.values 9 0 [t.snapReg 0, t.snap.seq, t.snap.slot],
     .values 9 1 ((List.range 16).map (fun w => ((Tab.get (0 : Nat) t.snap.lastSteps w : Nat) : Int))), .ok]))

/-- CLK: a line for each face, one for the sensors of yard and sluices, one for surge (R439). -/
def execClk (s : State) : Host.Outcome State Fault Refusal :=
  s.on (fun s => s.monitorDo .clk (fun t => t.say
    ((List.range 72).map (fun n => MonOut.values 12 n [bits (t.pwrFace n) 13 9, bits (t.pwrFace n) 15 14]) ++
     [.values 12 72 ((List.range 12).map (fun i => Tab.get 0 t.temps (72 + i))),
      .values 12 73 [t.nightReg 0x10000, t.surgeWindow, t.surge.ledger], .ok])))

/-- SLC: status, peer, counts, the nine lanes, and the module's identity (R439). -/
def execSlc (p : Fin 4) (s : State) : Host.Outcome State Fault Refusal :=
  s.on (fun s => s.monitorDo (.slc p) (fun t => t.say
    ([.values 13 0 [t.slcReg p.val 0x004], .values 13 1 [(t.port p.val).peer.toNat],
      .values 13 2 [t.slcReg p.val 0x008, t.slcReg p.val 0x00C, t.slcReg p.val 0x010]] ++
     (List.range 9).map (fun i => MonOut.values 13 (3 + i) [t.slcReg p.val (0x020 + 4 * i)]) ++
     [.values 13 12 ((List.range 61).map (fun k => (modIdByte (t.port p.val).module k : Int))), .ok])))

/-- FW (R439). -/
def execFw (s : State) : Host.Outcome State Fault Refusal :=
  s.on (fun s => s.monitorDo .fw (fun t => t.say [.values 19 0 [t.fmnReg 0], .ok]))

/-! ### The session (R441, R442) -/

/-- The response to a challenge: the leading 32 bits of SHA-384 over the secret and the challenge (R441). -/
def unlockAnswer (c : Word) : Word :=
  BitVec.ofNat 32 (beNat ((sha384 (natBe Config.unlockSecret.toNat 32 ++ natLe c.toNat 4)).take 4))

/-- UNLOCK: a challenge is drawn and the session locks; ERR 09 while one is withheld (R441). -/
def State.unlock (s : State) (draw : Word) : State :=
  if s.monitor.withheld then s.answer (.err 9)
  else (s.modMon (fun m => { m with challenge := some draw, unlocked := false })).say [.challenge draw.toNat, .ok]

/-- UNLOCK (R441). -/
def execUnlock (draw : Word) (s : State) : Host.Outcome State Fault Refusal :=
  s.on (fun s => s.monitorDo (.unlock draw) (fun t => t.unlock draw))

/-- UNLOCK_RESPONSE: the response to the challenge in hand unlocks the session; any other answers ERR 05, and the next
challenge is withheld (R441). -/
def State.unlockResponse (s : State) (resp : Word) : State :=
  if s.monitor.withheld then s.answer (.err 9)
  else if s.monitor.challenge.map unlockAnswer = some resp then
    (s.modMon (fun m => { m with challenge := none, unlocked := true })).answer .ok
  else (s.modMon (fun m => { m with challenge := none, withheld := true })).answer (.err 5)

/-- UNLOCK_RESPONSE (R441). -/
def execUnlockResponse (resp : Word) (s : State) : Host.Outcome State Fault Refusal :=
  s.on (fun s => s.monitorDo (.unlockResponse resp) (fun t => t.unlockResponse resp))

/-- The session locks (R442). -/
def State.lockSession (s : State) : State := s.modMon (fun m => { m with unlocked := false })

/-- LOCK (R442). -/
def execLock (s : State) : Host.Outcome State Fault Refusal :=
  s.on (fun s => s.monitorDo .lock (fun t => t.lockSession.answer .ok))

/-- SESSION_TIMEOUT: 2^30 night cycles without a complete line (R442). -/
def execSessionTimeout (s : State) : Host.Outcome State Fault Refusal := s.on State.lockSession

/-- CHALLENGE_WITHHOLD_END: 2^27 night cycles after a wrong response (R441). -/
def execChallengeWithholdEnd (s : State) : Host.Outcome State Fault Refusal :=
  s.on (fun s => s.modMon (fun m => { m with withheld := false }))

/-- BAUD: the final line, then the new rate, then the prompt; the session locks (R439, R442). -/
def State.baudCmd (s : State) (rate : Nat) : State :=
  if rate % 100 = 0 ∧ 9600 ≤ rate ∧ rate ≤ 3000000 then
    ((s.answer .ok).lockSession).baudWrite (rate / 100)
  else s.answer (.err 3)

/-- BAUD (R439). -/
def execBaud (rate : Nat) (s : State) : Host.Outcome State Fault Refusal :=
  s.on (fun s => s.monitorDo (.baud rate) (fun t => t.baudCmd rate))

/-! ### Retiring and returning (R374, R443) -/

/-- RETIRE_FACE: the face retires, its pockets saved (R375, R376, R443). -/
def State.retireCmd (s : State) (n : Nat) : State :=
  s.lockedDo 4 (Config.wordArg (4 * 16)) (if (s.face n).away then some 6 else none)
    (fun t => t.retireFace n 5 fromMonitor)

/-- RETIRE_FACE (R443). -/
def execRetireFace (f : Fin 72) (s : State) : Host.Outcome State Fault Refusal :=
  s.on (fun s => s.monitorDo (.retireFace f) (fun t => t.retireCmd f.val))

/-- Logical benches whose physical bench is retired take the face's spare bench (R89, R374). -/
def State.refillBench (s : State) (n : Nat) : State :=
  ((List.range 4).foldl (fun t b =>
    if t.benchRetired n (t.physBench n b) then
      match t.spareBench n with
      | some k => t.modSpare (fun m => { m with benchMap := Tab.set m.benchMap (n * 4 + b) k })
      | none => t
    else t) s).modFace n (fun f => { f with
      benches := min 4 (s.goodBenches n), reduced := f.reduced && decide (s.goodBenches n < 4) })

/-- A bench returns to its face (R374). -/
def State.returnBench (s : State) (n k : Nat) : State :=
  (s.modSpare (fun m => { m with
    benchRet := Tab.update 0 m.benchRet n (fun x => clrBit x k) })).refillBench n

/-- Logical buffers whose physical buffer is retired take the lowest-numbered healthy one not in service (R111,
R374). -/
def State.refillBuffers (s : State) : State :=
  (List.range 6).foldl (fun t k =>
    let inUse := fun j => (List.range 6).any (fun i => Tab.get i t.spare.bufMap i == j)
    if t.spare.bufRet.contains (Tab.get k t.spare.bufMap k) then
      match t.healthyBufs.find? (fun j => !inUse j) with
      | some j => t.modSpare (fun m => { m with bufMap := Tab.set m.bufMap k j })
      | none => t
    else t) s

/-- A sluice datapath returns: its port, down until now, trains again (R381). -/
def State.returnDp (s : State) (p : Nat) : State :=
  State.retrain ((s.modUnit 9 p (fun u => { u with retired := false })).modSpare (fun m =>
    { m with unitRet := m.unitRet.filter (· != 9 * 16 + p) })) p

/-- The unit that `return` names is retired, and where it is a bench its face is in service (R443). -/
def State.mayReturn (s : State) (k : ReturnKind) : Bool :=
  match k with
  | .face f => s.faceGone f.val
  | .bench f k => s.benchRetired f.val k.val && (s.face f.val).role == .inService
  | .bank b => s.spare.bankRet.contains b.val
  | .buffer j => s.spare.bufRet.contains j.val
  | .dp p => (s.unit 9 p.val).retired

/-- A unit that passed its self-test returns (R374). -/
def State.returnUnit (s : State) (k : ReturnKind) : State :=
  match k with
  | .face f => ((s.rejoin f.val).joinCuts f.val).recheckBenches
  | .bench f k => s.returnBench f.val k.val
  | .bank b => s.modSpare (fun m => { m with bankRet := m.bankRet.filter (· != b.val) })
  | .buffer j => (s.modSpare (fun m => { m with bufRet := m.bufRet.filter (· != j.val) })).refillBuffers
  | .dp p => s.returnDp p.val

/-- The number of a kind among the words of `return`. -/
def returnWord : ReturnKind → Nat
  | .face _ => 0
  | .bench _ _ => 1
  | .bank _ => 2
  | .buffer _ => 3
  | .dp _ => 4

/-- RETURN (R443). -/
def State.returnCmd (s : State) (k : ReturnKind) (passed : Bool) : State :=
  s.lockedDo 5 (Config.wordArg (5 * 16 + returnWord k)) (if s.mayReturn k && passed then none else some 6)
    (fun t => t.returnUnit k)

/-- RETURN (R443). -/
def execReturn (kind : ReturnKind) (passed : Bool) (s : State) : Host.Outcome State Fault Refusal :=
  s.on (fun s => s.monitorDo (.return_ kind passed) (fun t => t.returnCmd kind passed))

/-! ### Injection (R444) -/

/-- The number of a kind among the words of `inject`. -/
def injectWord : InjectKind → Nat
  | .lane _ _ _ => 0
  | .lanes _ _ _ _ => 1
  | .yard _ _ => 2
  | .frame _ => 3
  | .tpb _ => 4
  | .table _ => 5

/-- Arguments in range: a yard byte that exists with one bit or two, and two different lanes (R444). -/
def injectOk : InjectKind → Bool
  | .yard a b => decide (a < Config.yardBytes) && (b == 1 || b == 2)
  | .lanes _ _ l1 l2 => l1 != l2
  | _ => true

/-- One armed fault of each kind at most (R444). -/
def armFault (k : InjectKind) (armed : List InjectKind) : List InjectKind :=
  k :: armed.filter (fun x => injectWord x != injectWord k)

/-- INJECT (R444). -/
def State.injectCmd (s : State) (k : InjectKind) : State :=
  if injectOk k then
    s.lockedDo 17 (Config.wordArg (17 * 16 + injectWord k)) none
      (fun t => t.modMon (fun m => { m with armed := armFault k m.armed }))
  else s.answer (.err 3)

/-- INJECT (R444). -/
def execInject (kind : InjectKind) (s : State) : Host.Outcome State Fault Refusal :=
  s.on (fun s => s.monitorDo (.inject kind) (fun t => t.injectCmd kind))

/-- INJECT_CLEAR (R444). -/
def execInjectClear (s : State) : Host.Outcome State Fault Refusal :=
  s.on (fun s => s.monitorDo .injectClear (fun t =>
    t.lockedDo 17 (Config.wordArg (17 * 16 + 6)) none (fun u => u.modMon (fun m => { m with armed := [] }))))

/-! ### Keys and firmware (R408, R398) -/

/-- The key store with a slot changed. -/
def State.setKey (s : State) (slot : Nat) (k : KeySlot) : State :=
  { s with nv := { s.nv with keys := s.nv.keys.set slot k } }

/-- KEY_INSTALL: into an empty slot of 1 to 3 (R408). -/
def State.keyInstall (s : State) (slot x y : Nat) : State :=
  s.lockedDo 18 (Config.wordArg (18 * 16)) (if slot != 0 && nth .empty s.nv.keys slot == .empty then none else some 6)
    (fun t => t.setKey slot (.key x y))

/-- KEY_INSTALL (R408). -/
def execKeyInstall (slot : Fin 4) (x y : Nat) (s : State) : Host.Outcome State Fault Refusal :=
  s.on (fun s => s.monitorDo (.keyInstall slot x y) (fun t => t.keyInstall slot.val x y))

/-- KEY_REVOKE: a slot of 1 to 3 that holds a key (R408). -/
def State.keyRevoke (s : State) (slot : Nat) : State :=
  let held := match nth .empty s.nv.keys slot with
    | .key _ _ => true
    | _ => false
  s.lockedDo 18 (Config.wordArg (18 * 16 + 1)) (if held then none else some 6) (fun t => t.setKey slot .revoked)

/-- KEY_REVOKE (R408). -/
def execKeyRevoke (slot : Fin 4) (s : State) : Host.Outcome State Fault Refusal :=
  s.on (fun s => s.monitorDo (.keyRevoke slot) (fun t => t.keyRevoke slot.val))

/-- FW_SWAP: FMN_CTL.SWAP (R398, R439); ERR 07 while an update is busy, ERR 06 without a verified image. OK goes out
before the restart. -/
def State.fwSwapCmd (s : State) : State :=
  if !s.monitor.unlocked then s.answer (.err 4)
  else if s.foreman.update = 1 then s.answer (.err 7)
  else if !s.foreman.inactiveOk then s.answer (.err 6)
  else ((s.logCommand 19 (Config.wordArg (19 * 16))).answer .ok).swapFw

/-- FW_SWAP (R439). -/
def execFwSwap (s : State) : Host.Outcome State Fault Refusal :=
  s.on (fun s => s.monitorDo .fwSwap State.fwSwapCmd)

/-! ### Commands that write one field (R439) -/

/-- SNAP_FORCE (R388, R439). -/
def execSnapForce (s : State) : Host.Outcome State Fault Refusal :=
  s.on (fun s => s.monitorDo .snapForce (fun t => (t.snapWrite 1).answer .ok))

/-- SLC_FLAG (R328, R439). -/
def execSlcFlag (p : Fin 4) (s : State) : Host.Outcome State Fault Refusal :=
  s.on (fun s => s.monitorDo (.slcFlag p) (fun t => t.lockedDo 14 p.val none (fun u => u.flagModule p.val)))

/-- SLC_RETRAIN (R301, R439). -/
def execSlcRetrain (p : Fin 4) (s : State) : Host.Outcome State Fault Refusal :=
  s.on (fun s => s.monitorDo (.slcRetrain p) (fun t => t.lockedDo 15 p.val none (fun u => u.retrain p.val)))

/-- PREEMPT (R383, R439). -/
def execPreempt (w : Fin 16) (s : State) : Host.Outcome State Fault Refusal :=
  s.on (fun s => s.monitorDo (.preempt w) (fun t => t.lockedDo 16 w.val none (fun u => u.preemptSet w.val)))

/-- RESUME (R383, R439). -/
def execResume (w : Fin 16) (s : State) : Host.Outcome State Fault Refusal :=
  s.on (fun s => s.monitorDo (.resume w) (fun t => t.lockedDo 16 w.val none (fun u => u.preemptClear w.val)))

/-! ### The test drain (R445) -/

/-- The test drain begins: every running working is pre-empted for the capture (R445). -/
def State.testDrain (s : State) : State :=
  let s1 : State := { s with snap := { s.snap with
    phase := .holding, entry := s.insertEntry, test := true, inserted := false, forced := false } }
  (List.range s.workCount).foldl (fun t w =>
    if (t.work w).seq == .running || (t.work w).seq == .stopping then t.preemptWorking w else t) s1

/-- SNAP_DRAIN: ERR 07 with no INSERT_ENTRY or with a drain or restore in progress (R445). -/
def State.snapDrain (s : State) : State :=
  s.lockedDo 11 (Config.wordArg (11 * 16)) (if s.insertEntry != 0xFFFF && s.snap.phase == .idle then none else some 7)
    State.testDrain

/-- SNAP_DRAIN (R445). -/
def execSnapDrain (s : State) : Host.Outcome State Fault Refusal :=
  s.on (fun s => s.monitorDo .snapDrain State.snapDrain)

/-! ### The text of what the monitor sends (R437 to R448) -/

/-- A hexadecimal digit, in upper case. -/
def hexDigit (d : Nat) : Byte := BitVec.ofNat 8 (if d < 10 then 0x30 + d else 0x37 + d)

/-- `n` hexadecimal digits of a value, the lowest first. -/
def hexRev : Nat → Nat → List Byte
  | 0, _ => []
  | n + 1, v => hexDigit (v % 16) :: hexRev n (v / 16)

/-- A value in hexadecimal with `n` digits, an underscore every four (R3). -/
def hexText (n v : Nat) : List Byte := chars ['0', 'x'] ++ (group4 0 (hexRev n v)).reverse

/-- Decimal digits, the lowest first. -/
def decRev : Nat → Nat → List Byte
  | 0, _ => []
  | k + 1, v => hexDigit (v % 10) :: (if v < 10 then [] else decRev k (v / 10))

/-- A value in decimal. -/
def decText (v : Nat) : List Byte := (decRev 20 v).reverse

/-- A signed value in decimal. -/
def intText (v : Int) : List Byte := if v < 0 then 0x2D :: decText v.natAbs else decText v.natAbs

/-- Names of FCE_STAT.ROLE (R434). -/
def roleText (r : Nat) : List Byte :=
  match r with
  | 0 => chars ['S', 'P', 'A', 'R', 'E']
  | 1 => chars ['I', 'N', '_', 'S', 'E', 'R', 'V', 'I', 'C', 'E']
  | 2 => chars ['F', 'I', 'L', 'L', 'I', 'N', 'G']
  | 3 => chars ['R', 'E', 'T', 'I', 'R', 'E', 'D']
  | _ => chars ['F', 'A', 'I', 'L', 'E', 'D']

/-- Names of FCE_STAT.CLK (R434). -/
def clkText (c : Nat) : List Byte :=
  match c with
  | 0 => chars ['R', 'U', 'N']
  | 1 => chars ['N', 'A', 'P']
  | _ => chars ['O', 'F', 'F']

/-- Names of FCE_STAT.FILL (R434). -/
def fillText (f : Nat) : List Byte :=
  match f with
  | 0 => chars ['n', 'o', 'n', 'e']
  | 1 => chars ['W', 'A', 'K', 'E']
  | 2 => chars ['C', 'O', 'N', 'F', 'I', 'G']
  | 3 => chars ['T', 'E', 'S', 'T']
  | _ => chars ['J', 'O', 'I', 'N']

/-- Texts with one space between them. -/
def spaced : List (List Byte) → List Byte
  | [] => []
  | [t] => t
  | t :: ts => t ++ 0x20 :: spaced ts

/-- The `tile` line (R439). -/
def faceText (n stat m : Nat) (deg : Int) : List Byte :=
  spaced [chars ['f', 'a', 'c', 'e'], decText n, roleText (bits stat 2 0), clkText (bits stat 5 4),
    0x77 :: decText (bits stat 9 6), 0x70 :: decText (bits stat 15 10), chars ['f', 'i', 'l', 'l'],
    fillText (bits stat 18 16), 0x62 :: decText (bits stat 22 19), chars ['s', 'e', 'r', 'v', 'e', 's'],
    (if bits stat 30 24 = 0x7F then [0x2D] else decText (bits stat 30 24)), decText m, intText deg, hexText 8 stat]

/-- The name of an event in a `log` line: R448's example names a retirement; the others are open (log entry 27). -/
def eventText (code : Nat) : List Byte :=
  if code = 0x0301 then chars ['R', 'E', 'T', 'I', 'R', 'E'] else Config.lineText 0x100 [code]

/-- A `log` line (R447). -/
def recordText (r : LogRec) : List Byte :=
  spaced ([decText r.seq, chars ['n', 'c', '='] ++ hexText 16 r.nc,
    0x77 :: (if r.working = noWorking then [0x2D] else decText r.working), chars ['s', '='] ++ decText r.step,
    hexText 4 r.code, eventText r.code, hexText 8 r.arg0, hexText 8 r.arg1] ++
    (if bit r.flags 0 then [chars ['i', 'n', 'j']] else []))

/-- An offset of the window: six digits (R439). -/
def offText (off : Nat) : List Byte := hexText 6 off

/-- A challenge: two groups of four digits (R441). -/
def chalText (c : Nat) : List Byte := (hexRev 4 (c / 2 ^ 16)).reverse ++ 0x2D :: (hexRev 4 c).reverse

/-- A line ends with CR LF (R437). -/
def crlf (t : List Byte) : List Byte := t ++ [0x0D, 0x0A]

/-- The characters of one thing that the monitor sends. -/
def MonOut.text : MonOut → List Byte
  | .echo c => [c]
  | .reg off v => crlf (spaced [offText off, [0x3D], hexText 8 v])
  | .face n stat m deg => crlf (faceText n stat m deg)
  | .record r => crlf (recordText r)
  | .gone q => crlf (spaced [decText q, chars ['g', 'o', 'n', 'e']])
  | .challenge c => crlf (spaced [chars ['C', 'H', 'A', 'L'], chalText c])
  | .word i => crlf (Config.lineText 0x200 [i])
  | .values index line vs => crlf (Config.lineText (0x300 + index * 0x100 + line) vs)
  | .ok => crlf (chars ['O', 'K'])
  | .err c => crlf (spaced ([chars ['E', 'R', 'R'], hexDigit (c / 10) :: [hexDigit (c % 10)],
      if c = 4 then chars ['l', 'o', 'c', 'k', 'e', 'd'] else Config.lineText 0x101 [c]]))
  | .prompt => chars ['k', 'r', 's', '>', ' ']
  | .ready b => crlf (spaced [chars ['k', 'r', 's'], chars ['f', 'o', 'r', 'e', 'm', 'a', 'n'],
      chars [if b then 'B' else 'A'], chars ['r', 'e', 'a', 'd', 'y']])

/-- What the last event made the monitor send on its line. -/
def Monitor.sent (m : Monitor) : List Byte := (m.out.map MonOut.text).flatten

end Sys2Proof.Machine
end

