-- ==== Sys2Proof/Machine/Dispatch.lean ====
section
/-! DEFINITION. The meaning of every command: one arm for each constructor of `Instr`. -/

namespace Sys2Proof.Machine

def exec (i : Instr) (s : State) : Host.Outcome State Fault Refusal :=
  match i with
  | .powerOn => Sys2Proof.Machine.execPowerOn s
  | .clockLoss => Sys2Proof.Machine.execClockLoss s
  | .hostReset => Sys2Proof.Machine.execHostReset s
  | .engReset => Sys2Proof.Machine.execEngReset s
  | .bootRomDone damagedA damagedB => Sys2Proof.Machine.execBootRomDone damagedA damagedB s
  | .bootRestoreDone modules => Sys2Proof.Machine.execBootRestoreDone modules s
  | .bootYardDone failed => Sys2Proof.Machine.execBootYardDone failed s
  | .bootStockpileDone failed => Sys2Proof.Machine.execBootStockpileDone failed s
  | .bootFaceGroupDone results => Sys2Proof.Machine.execBootFaceGroupDone results s
  | .bootUnitsDone result => Sys2Proof.Machine.execBootUnitsDone result s
  | .watchdogRevert => Sys2Proof.Machine.execWatchdogRevert s
  | .watchdogRestart => Sys2Proof.Machine.execWatchdogRestart s
  | .foremanRestartDone => Sys2Proof.Machine.execForemanRestartDone s
  | .pairLoRead who off => Sys2Proof.Machine.execPairLoRead who off s
  | .pairLoWrite who off v => Sys2Proof.Machine.execPairLoWrite who off v s
  | .pairHiWrite who off v => Sys2Proof.Machine.execPairHiWrite who off v s
  | .registerWrite who off size v => Sys2Proof.Machine.execRegisterWrite who off size v s
  | .registerAccessComplete t => Sys2Proof.Machine.execRegisterAccessComplete t s
  | .tallyAdd i0 v => Sys2Proof.Machine.execTallyAdd i0 v s
  | .tallyApertureWrite off size v => Sys2Proof.Machine.execTallyApertureWrite off size v s
  | .loadStart => Sys2Proof.Machine.execLoadStart s
  | .loadFirstReadDone bytes errorResponse => Sys2Proof.Machine.execLoadFirstReadDone bytes errorResponse s
  | .loadCommit bytes errorResponse => Sys2Proof.Machine.execLoadCommit bytes errorResponse s
  | .partialCommit bytes errorResponse => Sys2Proof.Machine.execPartialCommit bytes errorResponse s
  | .tableBankWaitEnd => Sys2Proof.Machine.execTableBankWaitEnd s
  | .sleep level => Sys2Proof.Machine.execSleep level s
  | .sleepEnter => Sys2Proof.Machine.execSleepEnter s
  | .tripClr => Sys2Proof.Machine.execTripClr s
  | .glbPreemptSet w => Sys2Proof.Machine.execGlbPreemptSet w s
  | .glbPreemptClear w => Sys2Proof.Machine.execGlbPreemptClear w s
  | .wrkCtlRun w => Sys2Proof.Machine.execWrkCtlRun w s
  | .wrkCtlStop w => Sys2Proof.Machine.execWrkCtlStop w s
  | .rerun e => Sys2Proof.Machine.execRerun e s
  | .snapCtlForce => Sys2Proof.Machine.execSnapCtlForce s
  | .snapCtlRestore => Sys2Proof.Machine.execSnapCtlRestore s
  | .fmnCtlUpdate => Sys2Proof.Machine.execFmnCtlUpdate s
  | .fwUpdateDone bytes errorResponse => Sys2Proof.Machine.execFwUpdateDone bytes errorResponse s
  | .fmnCtlSwap => Sys2Proof.Machine.execFmnCtlSwap s
  | .slcCfgRetrain p => Sys2Proof.Machine.execSlcCfgRetrain p s
  | .slcCfgFlag p => Sys2Proof.Machine.execSlcCfgFlag p s
  | .fceCtlCntClr n => Sys2Proof.Machine.execFceCtlCntClr n s
  | .crossModeWrite g v => Sys2Proof.Machine.execCrossModeWrite g v s
  | .crossingChangeApply g => Sys2Proof.Machine.execCrossingChangeApply g s
  | .pwrFaceCapWrite n v => Sys2Proof.Machine.execPwrFaceCapWrite n v s
  | .riskThrWrite v => Sys2Proof.Machine.execRiskThrWrite v s
  | .uartBaudWrite v => Sys2Proof.Machine.execUartBaudWrite v s
  | .stepOpen w => Sys2Proof.Machine.execStepOpen w s
  | .cutStart e reads => Sys2Proof.Machine.execCutStart e reads s
  | .cutEnd e => Sys2Proof.Machine.execCutEnd e s
  | .passBoundary f b shared errors frozen => Sys2Proof.Machine.execPassBoundary f b shared errors frozen s
  | .stationaryLoadFull f b tag load => Sys2Proof.Machine.execStationaryLoadFull f b tag load s
  | .scaleUnitDone f b preamble => Sys2Proof.Machine.execScaleUnitDone f b preamble s
  | .checkEnd f b => Sys2Proof.Machine.execCheckEnd f b s
  | .fold f b => Sys2Proof.Machine.execFold f b s
  | .treeCombination e slice level rank => Sys2Proof.Machine.execTreeCombination e slice level rank s
  | .kilnDrainDone f b => Sys2Proof.Machine.execKilnDrainDone f b s
  | .contextSaveDone f b shared group pocket => Sys2Proof.Machine.execContextSaveDone f b shared group pocket s
  | .contextRestoreDone f b active idle preamble => Sys2Proof.Machine.execContextRestoreDone f b active idle preamble s
  | .readoutDone f b elems => Sys2Proof.Machine.execReadoutDone f b elems s
  | .tableParityError f => Sys2Proof.Machine.execTableParityError f s
  | .tileLoadDone buf stream fmt cut rows scales stalls => Sys2Proof.Machine.execTileLoadDone buf stream fmt cut rows scales stalls s
  | .tpbFault j => Sys2Proof.Machine.execTpbFault j s
  | .hoistClaim h lines => Sys2Proof.Machine.execHoistClaim h lines s
  | .fabricReadReturn h seq data => Sys2Proof.Machine.execFabricReadReturn h seq data s
  | .fabricWriteAck h => Sys2Proof.Machine.execFabricWriteAck h s
  | .fabricReadError h seq => Sys2Proof.Machine.execFabricReadError h seq s
  | .fabricWriteError h => Sys2Proof.Machine.execFabricWriteError h s
  | .receiverTake h r => Sys2Proof.Machine.execReceiverTake h r s
  | .streamEnd h => Sys2Proof.Machine.execStreamEnd h s
  | .detach h => Sys2Proof.Machine.execDetach h s
  | .spillPark h data => Sys2Proof.Machine.execSpillPark h data s
  | .spillReadback h => Sys2Proof.Machine.execSpillReadback h s
  | .stockpileEccError h uncorrectable => Sys2Proof.Machine.execStockpileEccError h uncorrectable s
  | .initialFoldDone e slice values => Sys2Proof.Machine.execInitialFoldDone e slice values s
  | .evictionStart e => Sys2Proof.Machine.execEvictionStart e s
  | .evictionDone e reads => Sys2Proof.Machine.execEvictionDone e reads s
  | .kilnResult f b lane pocket pair => Sys2Proof.Machine.execKilnResult f b lane pocket pair s
  | .deltaMakeDone e row queries => Sys2Proof.Machine.execDeltaMakeDone e row queries s
  | .pageCopy e page data waited => Sys2Proof.Machine.execPageCopy e page data waited s
  | .ringBlockArrive e header data => Sys2Proof.Machine.execRingBlockArrive e header data s
  | .ringPartialArrive e round tile values => Sys2Proof.Machine.execRingPartialArrive e round tile values s
  | .kilnParityError f => Sys2Proof.Machine.execKilnParityError f s
  | .slabDone e d slab elems => Sys2Proof.Machine.execSlabDone e d slab elems s
  | .slabFault e d slab dresserFault => Sys2Proof.Machine.execSlabFault e d slab dresserFault s
  | .drainWaitEnd e slab => Sys2Proof.Machine.execDrainWaitEnd e slab s
  | .frameReceive p bytes => Sys2Proof.Machine.execFrameReceive p bytes s
  | .frameSend p => Sys2Proof.Machine.execFrameSend p s
  | .retryRepeat p => Sys2Proof.Machine.execRetryRepeat p s
  | .retrainDone p ok => Sys2Proof.Machine.execRetrainDone p ok s
  | .portDown p => Sys2Proof.Machine.execPortDown p s
  | .hello p => Sys2Proof.Machine.execHello p s
  | .close p => Sys2Proof.Machine.execClose p s
  | .broken p => Sys2Proof.Machine.execBroken p s
  | .move p => Sys2Proof.Machine.execMove p s
  | .streamHeader p vc => Sys2Proof.Machine.execStreamHeader p vc s
  | .selectorSlab e slab evicted => Sys2Proof.Machine.execSelectorSlab e slab evicted s
  | .mergeSlabComplete e slab => Sys2Proof.Machine.execMergeSlabComplete e slab s
  | .resultDeliver e slab => Sys2Proof.Machine.execResultDeliver e slab s
  | .modulePoll p fault warning lanes => Sys2Proof.Machine.execModulePoll p fault warning lanes s
  | .moduleInsert p identity suitable => Sys2Proof.Machine.execModuleInsert p identity suitable s
  | .moduleRemove p => Sys2Proof.Machine.execModuleRemove p s
  | .moduleReady p bias => Sys2Proof.Machine.execModuleReady p bias s
  | .napIdleExpire t => Sys2Proof.Machine.execNapIdleExpire t s
  | .offIdleExpire t => Sys2Proof.Machine.execOffIdleExpire t s
  | .wakeDone t => Sys2Proof.Machine.execWakeDone t s
  | .yardClearDone => Sys2Proof.Machine.execYardClearDone s
  | .crossingParity path => Sys2Proof.Machine.execCrossingParity path s
  | .sleepStall source destination => Sys2Proof.Machine.execSleepStall source destination s
  | .frequencyStep n => Sys2Proof.Machine.execFrequencyStep n s
  | .droop faces => Sys2Proof.Machine.execDroop faces s
  | .droopClear faces => Sys2Proof.Machine.execDroopClear faces s
  | .surgeStepDown => Sys2Proof.Machine.execSurgeStepDown s
  | .surgeResume => Sys2Proof.Machine.execSurgeResume s
  | .ledgerStore => Sys2Proof.Machine.execLedgerStore s
  | .surgeWithdraw => Sys2Proof.Machine.execSurgeWithdraw s
  | .agingRead short => Sys2Proof.Machine.execAgingRead short s
  | .tempRead degrees => Sys2Proof.Machine.execTempRead degrees s
  | .fabricLockCheck count => Sys2Proof.Machine.execFabricLockCheck count s
  | .yardCorrected addr => Sys2Proof.Machine.execYardCorrected addr s
  | .patrolScrub line errors => Sys2Proof.Machine.execPatrolScrub line errors s
  | .uncorrectableYard addr => Sys2Proof.Machine.execUncorrectableYard addr s
  | .bankMigrationDone b => Sys2Proof.Machine.execBankMigrationDone b s
  | .fillWakeDone woke => Sys2Proof.Machine.execFillWakeDone woke s
  | .fillConfigDone ok => Sys2Proof.Machine.execFillConfigDone ok s
  | .fillTestDone result => Sys2Proof.Machine.execFillTestDone result s
  | .unitFault u unrecoverable => Sys2Proof.Machine.execUnitFault u unrecoverable s
  | .spareMapStore => Sys2Proof.Machine.execSpareMapStore s
  | .snapshotCapture => Sys2Proof.Machine.execSnapshotCapture s
  | .snapshotCommit sections => Sys2Proof.Machine.execSnapshotCommit sections s
  | .peerSnapshotRecord slot offset data => Sys2Proof.Machine.execPeerSnapshotRecord slot offset data s
  | .restoreFirstReadDone bytes => Sys2Proof.Machine.execRestoreFirstReadDone bytes s
  | .restoreSecondReadDone bytes => Sys2Proof.Machine.execRestoreSecondReadDone bytes s
  | .vSliceRecord e index length crc own fetched => Sys2Proof.Machine.execVSliceRecord e index length crc own fetched s
  | .monitorChar c => Sys2Proof.Machine.execMonitorChar c s
  | .help => Sys2Proof.Machine.execHelp s
  | .rd off n => Sys2Proof.Machine.execRd off n s
  | .wr off v => Sys2Proof.Machine.execWr off v s
  | .tile first all => Sys2Proof.Machine.execTile first all s
  | .retireFace f => Sys2Proof.Machine.execRetireFace f s
  | .return_ kind passed => Sys2Proof.Machine.execReturn kind passed s
  | .image => Sys2Proof.Machine.execImage s
  | .log n seq => Sys2Proof.Machine.execLog n seq s
  | .risk => Sys2Proof.Machine.execRisk s
  | .snap => Sys2Proof.Machine.execSnap s
  | .snapForce => Sys2Proof.Machine.execSnapForce s
  | .snapDrain => Sys2Proof.Machine.execSnapDrain s
  | .clk => Sys2Proof.Machine.execClk s
  | .slc p => Sys2Proof.Machine.execSlc p s
  | .slcFlag p => Sys2Proof.Machine.execSlcFlag p s
  | .slcRetrain p => Sys2Proof.Machine.execSlcRetrain p s
  | .preempt w => Sys2Proof.Machine.execPreempt w s
  | .resume w => Sys2Proof.Machine.execResume w s
  | .inject kind => Sys2Proof.Machine.execInject kind s
  | .injectClear => Sys2Proof.Machine.execInjectClear s
  | .keyInstall slot x y => Sys2Proof.Machine.execKeyInstall slot x y s
  | .keyRevoke slot => Sys2Proof.Machine.execKeyRevoke slot s
  | .fw => Sys2Proof.Machine.execFw s
  | .fwSwap => Sys2Proof.Machine.execFwSwap s
  | .baud rate => Sys2Proof.Machine.execBaud rate s
  | .unlock draw => Sys2Proof.Machine.execUnlock draw s
  | .unlockResponse resp => Sys2Proof.Machine.execUnlockResponse resp s
  | .lock => Sys2Proof.Machine.execLock s
  | .sessionTimeout => Sys2Proof.Machine.execSessionTimeout s
  | .challengeWithholdEnd => Sys2Proof.Machine.execChallengeWithholdEnd s
  | .hostResetRelease => Sys2Proof.Machine.execHostResetRelease s
  | .alwaysOnRailLoss => Sys2Proof.Machine.execAlwaysOnRailLoss s
  | .nightClockPresent => Sys2Proof.Machine.execNightClockPresent s
  | .firmwareReportsHealthy => Sys2Proof.Machine.execFirmwareReportsHealthy s
  | .laneLayerReport p report => Sys2Proof.Machine.execLaneLayerReport p report s
  | .wakeNotComplete f => Sys2Proof.Machine.execWakeNotComplete f s
  | .moduleReadyTimeout p => Sys2Proof.Machine.execModuleReadyTimeout p s

end Sys2Proof.Machine
end

