-- ==== Sys2Proof/Safety.lean ====
section
/-! DEFINITION. The terms in which claims are made: what a command leads to, what it changes and what it leaves,
the records it logs, what a safe step is, and the invariants of the machine. -/

namespace Sys2Proof.Machine

/-- In state `s`, command `c` completes: it has a next state, and `P` holds of that state. -/
def Leads (c : Instr) (s : State) (P : State → Prop) : Prop := ∃ t, exec c s = .next t ∧ P t

/-- Command `c` completes in state `s` and changes nothing. -/
def Ignored (c : Instr) (s : State) : Prop := exec c s = .next s

/-- A step from `s` neither faults nor refuses. -/
def State.safeStep (s : State) : Prop := ∃ t, step s = .next t

/-- The newest record of the event log of `t` is one more than those of `s`, and says this (R431, R446). -/
def Logged (s t : State) (code working flags arg0 arg1 : Nat) : Prop :=
  t.log.head = s.log.head + 1 ∧
  ∃ r rs, t.log.recs = r :: rs ∧ r.seq = s.log.head + 1 ∧ r.code = code ∧ r.working = working ∧
    r.flags = flags ∧ r.nc = s.nc ∧ r.arg0 = arg0 % 2 ^ 32 ∧ r.arg1 = arg1 % 2 ^ 32

/-- Bit `i` of GLB.EVT is set, and every other bit stands as it did (R422). -/
def Raised (s t : State) (i : Nat) : Prop := t.glb.evt = s.glb.evt ||| BitVec.ofNat 32 (2 ^ i)

/-- The yard reads as before. -/
def SameYard (s t : State) : Prop := ∀ a, Mem.read t.yard.mem a = Mem.read s.yard.mem a

/-- The yard reads as before outside the `n` bytes from `a` on. -/
def SameYardOutside (s t : State) (a n : Nat) : Prop :=
  ∀ b, b < a ∨ a + n ≤ b → Mem.read t.yard.mem b = Mem.read s.yard.mem b

/-- The byte that the engine has written at a fabric address, if it has written one. -/
def State.fabricByte (s : State) (a : Nat) : Option Byte := Tab.find s.fabric a

/-- Fabric memory holds the bytes `bs` from `a` on, and elsewhere what it held. -/
def FabricWritten (s t : State) (a : Nat) (bs : List Byte) : Prop :=
  ∀ b, t.fabricByte b = if a ≤ b ∧ b < a + bs.length then some (nth 0#8 bs (b - a)) else s.fabricByte b

/-- INVARIANT. The yard's memory is in canonical form. -/
def YardCanonical (s : State) : Prop := Mem.wf s.yard.mem = true

/-- INVARIANT. Key slot 0 holds the manufacturer's key (R408). -/
def ManufacturerKey (s : State) : Prop := nth KeySlot.empty s.nv.keys 0 = .manufacturer

/-- INVARIANT. The event log holds at most 4,096 records (R431), none with a number above the newest's (R446). -/
def LogOrdered (s : State) : Prop := s.log.recs.length ≤ 4096 ∧ ∀ r ∈ s.log.recs, r.seq ≤ s.log.head

/-- INVARIANT. The yard is in canonical form, the risk estimate has 16 bits (R385), the event log is in order (R431,
R446), and every tally, and every tally of an image whose load is in progress, has 64 bits (R187, R197). -/
def Sound (s : State) : Prop :=
  Mem.wf s.yard.mem = true ∧ s.health.score ≤ 65535 ∧ LogOrdered s ∧
  (∀ e ∈ s.tallies, e.2 < 2 ^ 64) ∧ ∀ i, s.load.staged = some i → ∀ e ∈ i.tallies, e.2 < 2 ^ 64

/-- The monitor takes a command: the foreman runs, no line waits to be carried out, no access has still to complete and
no character is held (R437, R448); the event log is in order. -/
def MonitorReady (s : State) : Prop :=
  s.supply = .good ∧ s.foremanUp = true ∧ s.monitor.command = none ∧ s.monitor.owed = false ∧ s.monitor.hold = [] ∧
  LogOrdered s

/-- Monitor command `c` answers with `out` and the prompt, and changes nothing else (R437, R438). -/
def Answers (c : Instr) (s : State) (out : List MonOut) : Prop :=
  exec c s = .next { s with monitor := { s.monitor with out := out ++ [.prompt] } }

/-! ### The parts of the state, and which of them a command may change -/

/-- A part of the state: a field of `State`. -/
inductive Part where
  | pending
  | fresh
  | supply
  | nc
  | glb
  | tiles
  | faces
  | benches
  | kilns
  | yard
  | fabric
  | image
  | cfgDigest
  | load
  | tables
  | refused
  | tallies
  | apertureErr
  | working
  | cuts
  | seams
  | results
  | slots
  | hoists
  | tpbs
  | tileSlots
  | klnPerr
  | drvPerr
  | ports
  | xruns
  | aruns
  | units
  | surge
  | cross
  | temps
  | hot
  | health
  | spare
  | fills
  | snap
  | nv
  | foreman
  | log
  | monitor
  | pairs
  | bus
  | stalls
  | moves
  | tallyWait
  deriving DecidableEq, Repr

/-- A part holds in `t` what it holds in `s`. -/
def Part.same (p : Part) (s t : State) : Prop :=
  match p with
  | .pending => t.pending = s.pending
  | .fresh => t.fresh = s.fresh
  | .supply => t.supply = s.supply
  | .nc => t.nc = s.nc
  | .glb => t.glb = s.glb
  | .tiles => t.tiles = s.tiles
  | .faces => t.faces = s.faces
  | .benches => t.benches = s.benches
  | .kilns => t.kilns = s.kilns
  | .yard => t.yard = s.yard
  | .fabric => t.fabric = s.fabric
  | .image => t.image = s.image
  | .cfgDigest => t.cfgDigest = s.cfgDigest
  | .load => t.load = s.load
  | .tables => t.tables = s.tables
  | .refused => t.refused = s.refused
  | .tallies => t.tallies = s.tallies
  | .apertureErr => t.apertureErr = s.apertureErr
  | .working => t.working = s.working
  | .cuts => t.cuts = s.cuts
  | .seams => t.seams = s.seams
  | .results => t.results = s.results
  | .slots => t.slots = s.slots
  | .hoists => t.hoists = s.hoists
  | .tpbs => t.tpbs = s.tpbs
  | .tileSlots => t.tileSlots = s.tileSlots
  | .klnPerr => t.klnPerr = s.klnPerr
  | .drvPerr => t.drvPerr = s.drvPerr
  | .ports => t.ports = s.ports
  | .xruns => t.xruns = s.xruns
  | .aruns => t.aruns = s.aruns
  | .units => t.units = s.units
  | .surge => t.surge = s.surge
  | .cross => t.cross = s.cross
  | .temps => t.temps = s.temps
  | .hot => t.hot = s.hot
  | .health => t.health = s.health
  | .spare => t.spare = s.spare
  | .fills => t.fills = s.fills
  | .snap => t.snap = s.snap
  | .nv => t.nv = s.nv
  | .foreman => t.foreman = s.foreman
  | .log => t.log = s.log
  | .monitor => t.monitor = s.monitor
  | .pairs => t.pairs = s.pairs
  | .bus => t.bus = s.bus
  | .stalls => t.stalls = s.stalls
  | .moves => t.moves = s.moves
  | .tallyWait => t.tallyWait = s.tallyWait

/-- `t` differs from `s` in the parts `ps` at most. -/
def OnlyParts (ps : List Part) (s t : State) : Prop := ∀ p : Part, p ∉ ps → p.same s t

/-- The parts that a command may change. Every other part is its frame: a register, memory, FIFO or flag of another part
is as before after the command. -/
def partsOf (c : Instr) : List Part :=
  match c with
  | .powerOn | .clockLoss | .alwaysOnRailLoss | .nightClockPresent =>
    [.supply, .nc, .glb, .tiles, .faces, .benches, .kilns, .yard, .image, .cfgDigest, .load, .tables,
     .refused, .tallies, .apertureErr, .working, .cuts, .seams, .results, .slots, .hoists, .tpbs,
     .tileSlots, .klnPerr, .drvPerr, .ports, .xruns, .aruns, .units, .surge, .cross, .temps, .hot, .health,
     .spare, .fills, .snap, .foreman, .log, .monitor, .pairs, .bus, .stalls, .moves, .tallyWait]
  | .hostReset | .engReset =>
    [.glb, .tiles, .faces, .benches, .kilns, .yard, .image, .cfgDigest, .load, .tables, .refused, .tallies,
     .apertureErr, .working, .cuts, .seams, .results, .slots, .hoists, .tpbs, .tileSlots, .klnPerr,
     .drvPerr, .ports, .xruns, .aruns, .units, .surge, .temps, .fills, .snap, .log, .monitor, .pairs, .bus,
     .stalls, .moves, .tallyWait]
  | .bootRomDone _ _ | .bootStockpileDone _ =>
    [.glb, .foreman, .log]
  | .bootRestoreDone _ =>
    [.glb, .tiles, .faces, .ports, .units, .surge, .spare, .log]
  | .bootYardDone _ =>
    [.glb, .tiles, .yard, .spare, .log]
  | .bootFaceGroupDone _ =>
    [.glb, .tiles, .faces, .benches, .fabric, .working, .cuts, .hoists, .tileSlots, .spare, .fills,
     .foreman, .log]
  | .bootUnitsDone _ =>
    [.glb, .tiles, .tileSlots, .units, .spare, .log]
  | .watchdogRevert | .watchdogRestart | .fmnCtlSwap | .fwSwap =>
    [.glb, .nv, .foreman, .log, .monitor, .bus]
  | .foremanRestartDone =>
    [.glb, .foreman, .log, .monitor]
  | .pairLoRead _ _ | .pairLoWrite _ _ _ =>
    [.tiles, .pairs, .bus]
  | .pairHiWrite _ _ _ =>
    [.tiles, .load, .tallies, .snap, .foreman, .pairs, .bus]
  | .registerWrite _ _ _ _ | .registerAccessComplete _ | .wr _ _ =>
    [.glb, .tiles, .faces, .benches, .kilns, .yard, .fabric, .image, .cfgDigest, .load, .tables, .refused,
     .tallies, .apertureErr, .working, .cuts, .seams, .results, .slots, .hoists, .tpbs, .tileSlots,
     .klnPerr, .drvPerr, .ports, .xruns, .aruns, .units, .surge, .cross, .temps, .health, .fills, .snap,
     .nv, .foreman, .log, .monitor, .pairs, .bus, .stalls, .moves, .tallyWait]
  | .tallyAdd _ _ =>
    [.glb, .tiles, .tallies, .log, .tallyWait]
  | .tallyApertureWrite _ _ _ =>
    [.glb, .tiles, .tallies, .apertureErr, .log, .tallyWait]
  | .loadStart =>
    [.tiles, .load]
  | .loadFirstReadDone _ _ =>
    [.glb, .load, .log]
  | .loadCommit _ _ =>
    [.glb, .tiles, .faces, .benches, .kilns, .yard, .image, .cfgDigest, .load, .tables, .refused, .tallies,
     .working, .cuts, .seams, .results, .slots, .hoists, .tileSlots, .ports, .xruns, .aruns, .units,
     .surge, .cross, .health, .spare, .fills, .snap, .log, .monitor, .moves]
  | .partialCommit _ _ =>
    [.glb, .tiles, .faces, .yard, .fabric, .image, .cfgDigest, .load, .tables, .refused, .cuts, .slots,
     .hoists, .ports, .spare, .fills, .log, .moves]
  | .tableBankWaitEnd =>
    [.load]
  | .sleep _ =>
    [.glb, .log]
  | .sleepEnter =>
    [.glb, .tiles, .faces, .benches, .kilns, .yard, .image, .cfgDigest, .load, .tables, .refused, .tallies,
     .apertureErr, .working, .cuts, .seams, .results, .slots, .hoists, .tpbs, .tileSlots, .klnPerr,
     .drvPerr, .ports, .xruns, .aruns, .units, .surge, .fills, .nv, .log, .monitor, .pairs, .moves]
  | .tripClr =>
    [.glb, .faces]
  | .glbPreemptSet _ =>
    [.glb, .benches, .fabric, .cuts, .hoists, .tileSlots]
  | .glbPreemptClear _ =>
    [.glb, .benches, .fabric, .cuts, .hoists]
  | .wrkCtlRun _ =>
    [.benches, .fabric, .working, .cuts, .hoists]
  | .wrkCtlStop _ =>
    [.working]
  | .rerun _ =>
    [.yard, .fabric, .cuts, .slots, .log]
  | .snapCtlForce =>
    [.snap]
  | .snapCtlRestore =>
    [.snap, .log]
  | .fmnCtlUpdate =>
    [.foreman]
  | .fwUpdateDone _ _ =>
    [.glb, .nv, .foreman, .log]
  | .slcCfgRetrain _ | .moduleInsert _ _ _ | .moduleReadyTimeout _ =>
    [.ports, .log]
  | .slcCfgFlag _ | .move _ =>
    [.glb, .faces, .benches, .kilns, .yard, .fabric, .tallies, .working, .cuts, .seams, .results, .slots,
     .hoists, .tileSlots, .ports, .xruns, .aruns, .units, .health, .fills, .snap, .log, .moves]
  | .fceCtlCntClr _ =>
    [.tiles, .faces, .bus]
  | .crossModeWrite _ _ =>
    [.cross, .log]
  | .crossingChangeApply _ =>
    [.cross]
  | .pwrFaceCapWrite _ _ =>
    [.faces, .log]
  | .riskThrWrite _ =>
    [.glb, .health, .log]
  | .uartBaudWrite _ =>
    [.foreman, .log]
  | .stepOpen _ =>
    [.glb, .yard, .fabric, .working, .cuts, .seams, .slots, .health, .snap, .log]
  | .cutStart _ _ | .evictionDone _ _ =>
    [.glb, .tiles, .faces, .benches, .kilns, .yard, .fabric, .tallies, .working, .cuts, .seams, .results,
     .slots, .hoists, .tileSlots, .ports, .xruns, .aruns, .units, .health, .spare, .fills, .snap, .log]
  | .cutEnd _ =>
    [.glb, .faces, .benches, .kilns, .yard, .fabric, .tallies, .working, .cuts, .seams, .results, .slots,
     .hoists, .tileSlots, .xruns, .aruns, .units, .health, .fills, .snap, .log]
  | .passBoundary _ _ _ _ _ =>
    [.fresh, .faces, .benches, .kilns, .fabric, .cuts, .hoists, .tileSlots, .monitor]
  | .stationaryLoadFull _ _ _ _ =>
    [.faces, .benches, .kilns, .fabric, .cuts, .tileSlots]
  | .scaleUnitDone _ _ _ | .kilnDrainDone _ _ =>
    [.faces, .benches, .kilns, .fabric, .cuts]
  | .checkEnd _ _ =>
    [.glb, .tiles, .faces, .benches, .kilns, .fabric, .working, .cuts, .hoists, .tileSlots, .health,
     .spare, .fills, .log]
  | .fold _ _ | .ringPartialArrive _ _ _ _ =>
    [.glb, .faces, .benches, .kilns, .yard, .fabric, .tallies, .cuts, .slots, .hoists, .ports, .aruns, .log]
  | .treeCombination _ _ _ _ | .initialFoldDone _ _ _ =>
    [.glb, .yard, .tallies, .cuts, .slots, .log]
  | .contextSaveDone _ _ _ _ _ =>
    [.glb, .faces, .benches, .yard, .fabric, .working, .cuts, .hoists, .tileSlots, .fills, .log]
  | .contextRestoreDone _ _ _ _ _ =>
    [.benches]
  | .readoutDone _ _ _ =>
    [.glb, .yard, .fabric, .tallies, .cuts, .slots, .hoists, .log]
  | .tableParityError _ =>
    [.glb, .tiles, .faces, .benches, .fabric, .working, .cuts, .hoists, .tileSlots, .drvPerr, .spare,
     .fills, .log]
  | .tileLoadDone _ _ _ _ _ _ _ | .tpbFault _ =>
    [.glb, .tiles, .faces, .benches, .kilns, .fabric, .working, .cuts, .hoists, .tpbs, .tileSlots, .spare,
     .log, .monitor]
  | .hoistClaim _ _ | .spillReadback _ =>
    [.yard, .hoists]
  | .fabricReadReturn _ _ _ =>
    [.yard, .fabric, .cuts, .hoists]
  | .fabricWriteAck _ =>
    [.glb, .fabric, .tallies, .cuts, .hoists, .log]
  | .fabricReadError _ _ =>
    [.glb, .faces, .benches, .kilns, .fabric, .working, .cuts, .hoists, .tileSlots, .log]
  | .fabricWriteError _ =>
    [.fresh, .glb, .benches, .fabric, .working, .cuts, .seams, .hoists, .tileSlots, .log]
  | .receiverTake _ _ | .spillPark _ _ =>
    [.hoists]
  | .streamEnd _ =>
    [.glb, .tallies, .hoists, .log]
  | .detach _ =>
    [.cuts, .hoists, .log]
  | .stockpileEccError _ _ =>
    [.faces, .benches, .kilns, .fabric, .cuts, .seams, .hoists]
  | .evictionStart _ =>
    [.cuts, .seams, .hoists]
  | .kilnResult _ _ _ _ _ =>
    [.glb, .tiles, .faces, .benches, .kilns, .yard, .fabric, .working, .cuts, .hoists, .tileSlots,
     .klnPerr, .spare, .fills, .log, .monitor]
  | .deltaMakeDone _ _ _ =>
    [.faces, .benches, .kilns, .yard, .fabric, .cuts, .hoists, .aruns]
  | .pageCopy _ _ _ _ =>
    [.faces, .benches, .kilns, .fabric, .cuts, .hoists, .aruns]
  | .ringBlockArrive _ _ _ | .retrainDone _ _ | .portDown _ | .close _ | .broken _ | .streamHeader _ _
  | .moduleRemove _ | .snapshotCommit _ | .vSliceRecord _ _ _ _ _ _ =>
    [.glb, .faces, .benches, .kilns, .yard, .fabric, .tallies, .working, .cuts, .seams, .results, .slots,
     .hoists, .tileSlots, .ports, .xruns, .aruns, .units, .health, .fills, .snap, .log]
  | .kilnParityError _ =>
    [.glb, .tiles, .faces, .benches, .kilns, .fabric, .working, .cuts, .hoists, .tileSlots, .klnPerr,
     .spare, .fills, .log, .monitor]
  | .slabDone _ _ _ _ =>
    [.glb, .tallies, .cuts, .hoists, .units, .snap, .log]
  | .slabFault _ _ _ _ =>
    [.glb, .benches, .fabric, .working, .cuts, .hoists, .tileSlots, .units, .spare, .log]
  | .drainWaitEnd _ _ =>
    [.glb, .tallies, .cuts, .hoists, .xruns, .units, .snap, .log]
  | .frameReceive _ _ =>
    [.glb, .cuts, .ports, .xruns, .health, .log]
  | .frameSend _ =>
    [.glb, .faces, .benches, .kilns, .yard, .fabric, .tallies, .cuts, .slots, .hoists, .ports, .aruns,
     .health, .log, .monitor]
  | .retryRepeat _ =>
    [.ports]
  | .hello _ =>
    [.glb, .ports, .log]
  | .selectorSlab _ _ _ =>
    [.cuts, .hoists, .ports, .xruns, .units, .snap]
  | .mergeSlabComplete _ _ =>
    [.cuts, .hoists, .ports, .xruns, .snap]
  | .resultDeliver _ _ =>
    [.glb, .yard, .tallies, .cuts, .hoists, .ports, .xruns, .log]
  | .modulePoll _ _ _ _ | .laneLayerReport _ _ =>
    [.glb, .faces, .benches, .kilns, .yard, .fabric, .tallies, .working, .cuts, .seams, .results, .slots,
     .hoists, .tileSlots, .ports, .xruns, .aruns, .units, .health, .spare, .fills, .snap, .log, .moves]
  | .moduleReady _ _ =>
    [.ports, .spare, .log]
  | .napIdleExpire _ | .offIdleExpire _ =>
    [.tiles, .faces, .benches, .kilns, .yard, .image, .cfgDigest, .load, .tables, .refused, .tallies,
     .apertureErr, .working, .cuts, .seams, .results, .slots, .hoists, .tpbs, .tileSlots, .klnPerr,
     .drvPerr, .ports, .xruns, .aruns, .units, .fills, .pairs, .moves]
  | .wakeDone _ =>
    [.glb, .tiles, .faces, .tallies, .hoists, .log, .stalls, .tallyWait]
  | .yardClearDone =>
    [.glb, .yard]
  | .crossingParity _ =>
    [.glb, .tiles, .faces, .benches, .kilns, .fabric, .working, .cuts, .hoists, .tileSlots, .spare, .fills,
     .log, .bus]
  | .sleepStall _ _ =>
    [.glb, .hoists, .log, .stalls]
  | .frequencyStep _ | .droopClear _ =>
    [.faces]
  | .droop _ =>
    [.glb, .faces, .surge, .health, .log]
  | .surgeStepDown | .surgeResume =>
    [.surge]
  | .ledgerStore =>
    [.surge, .nv]
  | .surgeWithdraw =>
    [.glb, .surge, .log]
  | .agingRead _ =>
    [.glb, .tiles, .faces, .benches, .fabric, .working, .cuts, .hoists, .tileSlots, .spare, .fills, .nv,
     .log]
  | .tempRead _ =>
    [.glb, .faces, .ports, .temps, .hot, .log]
  | .fabricLockCheck _ =>
    [.glb, .cross, .log]
  | .yardCorrected _ | .patrolScrub _ _ =>
    [.glb, .yard, .health, .log, .monitor]
  | .uncorrectableYard _ =>
    [.glb, .tiles, .faces, .benches, .kilns, .yard, .fabric, .working, .cuts, .slots, .hoists, .tileSlots, .aruns,
     .spare, .fills, .log, .monitor]
  | .bankMigrationDone _ =>
    [.glb, .yard, .spare, .log]
  | .fillWakeDone _ | .fillConfigDone _ | .fillTestDone _ | .wakeNotComplete _ =>
    [.glb, .tiles, .faces, .benches, .fabric, .working, .cuts, .hoists, .tileSlots, .spare, .fills, .log]
  | .unitFault _ _ =>
    [.glb, .faces, .benches, .kilns, .yard, .fabric, .tallies, .working, .cuts, .seams, .results, .slots,
     .hoists, .tileSlots, .ports, .xruns, .aruns, .units, .health, .spare, .fills, .snap, .log]
  | .spareMapStore =>
    [.nv]
  | .snapshotCapture =>
    [.tiles, .benches, .fabric, .cuts, .hoists, .units, .health, .snap]
  | .peerSnapshotRecord _ _ _ =>
    [.fabric, .ports, .log]
  | .restoreFirstReadDone _ =>
    [.glb, .snap]
  | .restoreSecondReadDone _ =>
    [.fresh, .glb, .benches, .kilns, .yard, .fabric, .tallies, .working, .cuts, .seams, .results, .slots, .hoists,
     .tileSlots, .xruns, .aruns, .units, .fills, .snap]
  | .monitorChar _ | .sessionTimeout | .challengeWithholdEnd =>
    [.monitor]
  | .help | .log _ _ | .risk | .snap | .clk | .slc _ | .inject _ | .injectClear | .fw | .unlock _
  | .unlockResponse _ | .lock =>
    [.log, .monitor]
  | .rd _ _ | .tile _ _ | .image =>
    [.tiles, .log, .monitor, .pairs, .bus]
  | .retireFace _ =>
    [.glb, .tiles, .faces, .benches, .fabric, .working, .cuts, .hoists, .tileSlots, .spare, .fills, .log,
     .monitor]
  | .return_ _ _ =>
    [.glb, .tiles, .faces, .benches, .fabric, .working, .cuts, .hoists, .tileSlots, .ports, .units, .spare,
     .fills, .log, .monitor]
  | .snapForce =>
    [.snap, .log, .monitor]
  | .snapDrain =>
    [.benches, .fabric, .cuts, .hoists, .tileSlots, .snap, .log, .monitor]
  | .slcFlag _ =>
    [.glb, .faces, .benches, .kilns, .yard, .fabric, .tallies, .working, .cuts, .seams, .results, .slots,
     .hoists, .tileSlots, .ports, .xruns, .aruns, .units, .health, .fills, .snap, .log, .monitor, .moves]
  | .slcRetrain _ =>
    [.ports, .log, .monitor]
  | .preempt _ =>
    [.glb, .benches, .fabric, .cuts, .hoists, .tileSlots, .log, .monitor]
  | .resume _ =>
    [.glb, .benches, .fabric, .cuts, .hoists, .log, .monitor]
  | .keyInstall _ _ _ | .keyRevoke _ =>
    [.nv, .log, .monitor]
  | .baud _ =>
    [.foreman, .log, .monitor]
  | .hostResetRelease =>
    [.glb, .tiles]
  | .firmwareReportsHealthy =>
    [.glb, .foreman]

end Sys2Proof.Machine
end

