-- ==== Sys2Proof/Certificates/Slice0/Obligations.lean ====
section
/-! DEFINITION. What is stated of the model, for the provers: one proposition for each entry of
OBLIGATIONS.json. `Leads c s P` (Safety) says that command `c` completes in state `s` with a next state that `P`
holds of; an equation `t = { s with … }` says that everything not named in it stands as it was. -/

open Sys2Proof Sys2Proof.Machine

/-! ### Resets, boot and the foreman -/

/-- R402, R403: what each loss and return of the always-on rail and the night clock leaves. Everything volatile is at
its reset value; the non-volatile store and memory outside the engine stand. CAUSE is 0 for POWER-ON and 1 for
CLOCK-LOSS. -/
def Obligations.SupplyLossAndReturn : Prop :=
  ∀ s : State,
    Leads .powerOn s (fun t => t = { State.reset with
      pending := s.pending, fresh := s.fresh, nv := s.nv, fabric := s.fabric, supply := .good,
      glb := { Glb.reset with cause := 0, boot := 1 } }) ∧
    (s.supply = .good → Leads .clockLoss s (fun t => t = { State.reset with
      pending := s.pending, fresh := s.fresh, nv := s.nv, fabric := s.fabric, supply := .noClock,
      glb := { Glb.reset with cause := 1, boot := 0 } })) ∧
    (s.supply ≠ .good → Ignored .clockLoss s) ∧
    Leads .alwaysOnRailLoss s (fun t => t = { State.reset with
      pending := s.pending, fresh := s.fresh, nv := s.nv, fabric := s.fabric, supply := .noRail,
      glb := Glb.reset }) ∧
    (s.supply = .noClock → Leads .nightClockPresent s (fun t => t = { State.reset with
      pending := s.pending, fresh := s.fresh, nv := s.nv, fabric := s.fabric, supply := .good,
      glb := { Glb.reset with cause := 1, boot := 1 } })) ∧
    (s.supply ≠ .noClock → Ignored .nightClockPresent s)

/-- R404: a HOST reset, by the reset input or by ENG_RESET. GLB returns to its reset values but for TRIPPED, CAUSE
names the reset, and BOOT stands because the boot does not run again (R412; DEDUCED, log entry 39). The fast domains
lose what they held; the night domain and the store keep theirs; the session locks (R441). The input holds the yard
in OFF until it is released, and then the yard wakes. -/
def Obligations.HostReset : Prop :=
  ∀ s : State, s.supply = .good →
    Leads .hostReset s (fun t =>
      t.glb = { Glb.reset with tripped := s.glb.tripped, cause := 2, boot := s.glb.boot, resetHeld := true } ∧
      (∀ n : Fin 72, t.clk n.val = .off) ∧ t.clk 72 = .off ∧ t.clk 106 = .nap ∧
      t.image = none ∧ t.tallies = [] ∧ t.cuts = [] ∧ t.hoists = [] ∧ t.load = LoadState.reset ∧
      t.snap.phase = .idle ∧ t.snap.valid = s.snap.valid ∧ t.snap.slot = s.snap.slot ∧ t.snap.seq = s.snap.seq ∧
      (∀ p : Fin 4, (t.port p.val).st = .disabled) ∧ t.monitor.unlocked = false ∧
      t.surge = { s.surge with droops := 0 } ∧ t.nc = s.nc ∧ t.spare = s.spare ∧ t.nv = s.nv ∧
      t.foreman = s.foreman ∧ t.health = s.health ∧ t.pending = s.pending) ∧
    Leads .engReset s (fun t =>
      t.glb = { Glb.reset with tripped := s.glb.tripped, cause := 2, boot := s.glb.boot, resetHeld := false } ∧
      (∀ n : Fin 72, t.clk n.val = .off) ∧ t.clk 72 = .wakingOff ∧ t.clk 106 = .nap ∧
      t.image = none ∧ t.tallies = [] ∧ t.cuts = [] ∧ t.hoists = [] ∧ t.load = LoadState.reset ∧
      t.snap.phase = .idle ∧ t.monitor.unlocked = false ∧ t.surge = { s.surge with droops := 0 } ∧
      t.nc = s.nc ∧ t.spare = s.spare ∧ t.nv = s.nv ∧ t.foreman = s.foreman ∧ t.pending = s.pending) ∧
    (s.glb.resetHeld = true → s.clk 72 = .off → Leads .hostResetRelease s (fun t =>
      t = { s with glb := { s.glb with resetHeld := false }, tiles := t.tiles } ∧ t.clk 72 = .wakingOff ∧
      ∀ k, k ≠ 72 → t.clk k = s.clk k)) ∧
    (s.glb.resetHeld = false → Ignored .hostResetRelease s)

/-- R402, R406, R407: phase ROM. The slot that the boot slot flag names starts if it verifies; else the other slot,
with the failure logged; else BOOT holds 0xF. A slot verifies if it holds an image whose bytes are whole. The boot
slot flag is read as log entry 8 says. -/
def Obligations.BootRom : Prop :=
  ∀ (s : State) (dA dB : Bool), s.supply = .good → s.glb.boot = 1 →
    let okA := s.nv.fwA ≠ .absent ∧ dA = false
    let okB := s.nv.fwB ≠ .absent ∧ dB = false
    let okSel := (s.nv.bootB = true → okB) ∧ (s.nv.bootB = false → okA)
    let okOther := (s.nv.bootB = true → okA) ∧ (s.nv.bootB = false → okB)
    (okSel → Leads (.bootRomDone dA dB) s (fun t =>
      t = { s with foreman := t.foreman, glb := { s.glb with boot := 2 }, log := t.log } ∧
      t.foreman.activeB = s.nv.bootB ∧ (t.foreman.inactiveOk = true ↔ okOther) ∧
      Logged s t 0x0001 0xFF 0 s.glb.cause 2)) ∧
    (¬ okSel → okOther → Leads (.bootRomDone dA dB) s (fun t =>
      t = { s with foreman := t.foreman, glb := { s.glb with boot := 2 }, log := t.log } ∧
      t.foreman.activeB = !s.nv.bootB ∧ t.foreman.inactiveOk = false ∧ t.log.head = s.log.head + 2)) ∧
    (¬ okSel → ¬ okOther → Leads (.bootRomDone dA dB) s (fun t =>
      t = { s with glb := { s.glb with boot := 0xF }, log := t.log } ∧ t.log.head = s.log.head + 3))

/-- R356, R406: phase RESTORE. The ledger comes back as the stored value plus 2^28, the maps come from the store, and
the yard and the fabric ports begin to wake. R406, R409, R411, R412: phases YARD, STOCKPILE, FACES and UNITS end. A
failing bank moves to the lowest-numbered free spare bank; a failing stockpile word sets STOCKFAIL; the faces are
tested in groups of up to 8; READY follows from its conditions once BOOT is 7. -/
def Obligations.BootPhases : Prop :=
  (∀ (s : State) (ms : List (Fin 4 × List Byte)), s.supply = .good → s.glb.boot = 2 →
     s.clk 72 = .off → s.clk 106 = .nap →
     Leads (.bootRestoreDone ms) s (fun t =>
       t.glb = { s.glb with boot := 3 } ∧ t.spare = s.nv.spare ∧
       t.surge = { s.surge with ledger := s.nv.ledger + 2 ^ 28, stored := s.nv.ledger + 2 ^ 28,
                                withdrawn := decide (360000000000000 ≤ s.nv.ledger + 2 ^ 28) } ∧
       t.clk 72 = .wakingOff ∧ t.clk 106 = .wakingNap ∧ t.log.head = s.log.head + ms.length ∧
       (∀ m rest, ms = m :: rest → ∃ q, t.port m.1.val = q ∧ q.module.present = true) ∧
       t = { s with glb := t.glb, spare := t.spare, surge := t.surge, faces := t.faces, units := t.units,
                    ports := t.ports, tiles := t.tiles, log := t.log })) ∧
  (∀ s : State, s.supply = .good →
     (∀ banks : List (Fin 288), s.glb.boot = 3 → Leads (.bootYardDone banks) s (fun t =>
       t.glb.boot = 4 ∧ t.yard.mem = [] ∧ t.yard.cleared = true ∧ t.clk 72 = .run ∧ t.clk 106 = .run ∧
       t = { s with glb := t.glb, yard := t.yard, tiles := t.tiles, spare := t.spare, log := t.log } ∧
       (banks = [] → t.spare = s.spare ∧ t.log = s.log ∧ t.glb = { s.glb with boot := 4 }))) ∧
     (∀ words : List Nat, s.glb.boot = 4 → Leads (.bootStockpileDone words) s (fun t =>
       t = { s with glb := { s.glb with boot := 5, stockfail := !words.isEmpty },
                    foreman := { s.foreman with bootNext := 0 }, log := t.log } ∧
       t.log.head = s.log.head + words.length)) ∧
     (∀ results : List FaceTest, s.glb.boot = 5 → Leads (.bootFaceGroupDone results) s (fun t =>
       (t.glb.boot = if s.untested.length ≤ 8 then 6 else 5) ∧
       (∀ n ∈ s.untested.take 8, n < t.foreman.bootNext) ∧ t.nc = s.nc ∧ t.nv = s.nv)) ∧
     (∀ r : UnitTest, s.glb.boot = 6 → Leads (.bootUnitsDone r) s (fun t =>
       t.glb.boot = 7 ∧
       (s.foreman.healthy = true → s.clk 72 = .run → s.yard.cleared = true → s.glb.stockfail = false →
         s.glb.tripped = false → t.glb.ready = true) ∧
       (s.glb.ready = false → (s.foreman.healthy = false ∨ s.glb.stockfail = true ∨ s.glb.tripped = true) →
         t.glb.ready = false))))

/-- R398, R402, R412, R448: the foreman restarts, by the watchdog or at a swap, and comes back. A restart clears
READY, locks the session, and is named by CAUSE 3 and by the next record; what the foreman keeps survives. R398,
R407, R433, R446: a firmware update is read, and an image that the manufacturer's key verifies goes into the slot
that does not run; another is refused. SWAP restarts the foreman from that slot; it does nothing without a verified
image or while an update is busy (the boot slot flag: log entry 8). -/
def Obligations.Firmware : Prop :=
  (∀ s : State, s.supply = .good → 2 ≤ s.glb.boot → s.glb.boot < 0xF →
     (s.foreman.restarting = false → s.foreman.trial = true → s.foreman.healthy = false →
       Leads .watchdogRevert s (fun t =>
         t = { s with foreman := t.foreman, nv := { s.nv with bootB := !s.foreman.activeB }, bus := t.bus,
                      monitor := t.monitor, glb := { s.glb with cause := 3, ready := false }, log := t.log } ∧
         t.foreman = { s.foreman with activeB := !s.foreman.activeB, trial := false, restarting := true,
                                      restarts := min (s.foreman.restarts + 1) 255 } ∧
         t.monitor.unlocked = false ∧ t.log.head = s.log.head + 2)) ∧
     Leads .watchdogRestart s (fun t =>
       t = { s with foreman := t.foreman, nv := { s.nv with bootB := t.foreman.activeB }, bus := t.bus,
                    monitor := t.monitor, glb := { s.glb with cause := 3, ready := false }, log := t.log } ∧
       t.foreman.restarting = true ∧ t.foreman.healthy = false ∧
       t.foreman.restarts = min (s.foreman.restarts + 1) 255 ∧ t.monitor.unlocked = false ∧
       (s.foreman.activeB ≠ t.foreman.activeB ↔
         2 ≤ (s.foreman.restartTimes.filter (fun x => decide (s.nc - x < 2 ^ 30))).length ∧
         s.foreman.inactiveOk = true)) ∧
     (s.foreman.restarting = true → Leads .foremanRestartDone s (fun t =>
       t = { s with foreman := { s.foreman with restarting := false }, monitor := t.monitor, glb := t.glb,
                    log := t.log } ∧
       t.monitor.out = [.ready s.foreman.activeB, .prompt] ∧ Raised s t 19 ∧
       Logged s t 0x0704 0xFF 0 2 (if s.foreman.activeB then 1 else 0))) ∧
     (s.foreman.restarting = false → Leads .firmwareReportsHealthy s (fun t =>
       t = { s with foreman := { s.foreman with healthy := true, trial := false }, glb := t.glb } ∧
       (t.glb = { s.glb with ready := s.glb.ready || (s.glb.boot == 7 && s.clk 72 == .run && s.yard.cleared &&
         !s.glb.stockfail && !s.glb.tripped) })))) ∧
  (∀ (s : State) (bs : List Byte) (err : Bool), s.supply = .good →
     let good := err = false ∧ bs.length = s.foreman.fwLen.toNat ∧ sealOk Config.manufacturerKey bs = true
     (s.foreman.update ≠ 1 → Leads .fmnCtlUpdate s (fun t => t = { s with foreman := { s.foreman with update := 1 } }) ∧
       Ignored (.fwUpdateDone bs err) s) ∧
     (s.foreman.update = 1 → Ignored .fmnCtlUpdate s ∧ Ignored .fmnCtlSwap s ∧
       (good → Leads (.fwUpdateDone bs err) s (fun t =>
         t = { s with nv := t.nv, foreman := { s.foreman with update := 2, inactiveOk := true }, glb := t.glb, log := t.log } ∧
         (s.foreman.activeB = true → t.nv = { s.nv with fwA := .written bs }) ∧
         (s.foreman.activeB = false → t.nv = { s.nv with fwB := .written bs }) ∧
         Raised s t 19 ∧ Logged s t 0x0704 0xFF 0 0 (if s.foreman.activeB then 1 else 0))) ∧
       (¬ good → Leads (.fwUpdateDone bs err) s (fun t =>
         t = { s with foreman := { s.foreman with update := 3 }, glb := t.glb, log := t.log } ∧ Raised s t 19 ∧
         Logged s t 0x0704 0xFF 0 1 (if s.foreman.activeB then 1 else 0)))) ∧
     (s.foreman.inactiveOk = false ∨ s.foremanUp = false → Ignored .fmnCtlSwap s) ∧
     (s.foreman.inactiveOk = true → s.foreman.update ≠ 1 → s.foremanUp = true → Leads .fmnCtlSwap s (fun t =>
       t = { s with foreman := t.foreman, nv := { s.nv with bootB := !s.foreman.activeB }, bus := t.bus,
                    monitor := t.monitor, glb := { s.glb with cause := 3, ready := false }, log := t.log } ∧
       t.foreman = { s.foreman with activeB := !s.foreman.activeB, healthy := false, trial := true, restarting := true,
                                    restarts := min (s.foreman.restarts + 1) 255 } ∧
       t.monitor.unlocked = false ∧ Logged s t 0x0001 0xFF 0 3 s.glb.boot)))

/-! ### The machine as a whole -/

/-- The model's step: the command at the front of the queue runs with the queue's rest, and its outcome is the
step's. -/
def Obligations.StepTakesFront : Prop :=
  ∀ (c : Instr) (rest : List Instr) (s : State),
    step { s with pending := c :: rest } = exec c { s with pending := rest }

/-- R424, with log entry 2 (DESIGN CHOICE: the table has no command for a tick): a step on an empty queue is one
night cycle. The night-cycle counter rises by one and wraps at 2^64; without a supply or the night clock nothing
happens. Only the counter and the surge part change. R403: without its rail or its night clock the engine does
nothing: every command but the three that tell of the supply leaves the whole state as it is, if it has a next state
at all. -/
def Obligations.IdleNight : Prop :=
  (∀ s : State, s.pending = [] →
     (s.supply = .good → ∃ t, step s = .next t ∧ t.nc = (s.nc + 1) % 2 ^ 64 ∧ OnlyParts [.nc, .surge] s t) ∧
     (s.supply ≠ .good → step s = .next s)) ∧
  (∀ (c : Instr) (s t : State), s.supply ≠ .good → c ≠ .powerOn → c ≠ .alwaysOnRailLoss → c ≠ .nightClockPresent →
     exec c s = .next t → t = s)

/-- R402, R422, R425, R427, R431, R432: what registers read after the POWER-ON reset: the engine's identity and
sizes, GLB at its reset values, the yard's, the load path's and the snapshot unit's registers, RISK and its
threshold, and every tally. No image is in force, nothing is in the yard, and no port is up. -/
def Obligations.ResetRegisters : Prop :=
  State.reset.regValue 0x00 = 0x4B520100 ∧
  bits (State.reset.regValue 0x04) 7 0 = 72 ∧ bits (State.reset.regValue 0x04) 11 8 = 5 ∧
  bits (State.reset.regValue 0x04) 23 12 = 516 ∧ bits (State.reset.regValue 0x04) 31 24 = 8 ∧
  bits (State.reset.regValue 0x08) 15 0 = 384 ∧ bits (State.reset.regValue 0x08) 31 16 = 6144 ∧
  bits (State.reset.regValue 0x0C) 7 0 = 128 ∧ bits (State.reset.regValue 0x0C) 10 8 = 4 ∧
  bits (State.reset.regValue 0x0C) 26 16 = 1024 ∧ bits (State.reset.regValue 0x0C) 31 27 = 16 ∧
  bits (State.reset.regValue 0x10) 7 0 = 50 ∧ bits (State.reset.regValue 0x10) 15 8 = 14 ∧
  bits (State.reset.regValue 0x10) 23 16 = 16 ∧
  (∀ off ∈ [0x14, 0x18, 0x1C, 0x20, 0x24], State.reset.regValue off = 0) ∧
  (∀ i : Fin 1024, State.reset.tally i.val = 0) ∧ State.reset.image = none ∧
  State.reset.yard.mem = [] ∧ (∀ a, Mem.read State.reset.yard.mem a = 0) ∧ (∀ p : Fin 4, (State.reset.port p.val).st = .disabled) ∧
  State.reset.health.score = 0 ∧ State.reset.health.thr = 8192 ∧ State.reset.health.pending = false ∧
  State.reset.supply = .good ∧ State.reset.log.recs = [] ∧ State.reset.pending = []

/-- Every command has a next state in every state, but for the three that name a byte of the yard: they fault where
the yard has no such byte (R114, R176), and nowhere else. No command is refused. -/
def Obligations.EveryCommandRuns : Prop :=
  ∀ (c : Instr) (s : State),
    (∃ t, exec c s = .next t) ∨
    ∃ a, Config.yardBytes ≤ a ∧ exec c s = .fault (.yardHole a) ∧
      (c = .yardCorrected a ∨ c = .uncorrectableYard a ∨ ∃ line es, c = .patrolScrub line es ∧ a = line * 64)

/-- THE FRAME OF EVERY COMMAND. A command that has a next state changes no part of the state but those that `partsOf`
lists for it: every other register, flag, counter, buffer, memory and FIFO is as before. -/
def Obligations.Frames : Prop :=
  ∀ (c : Instr) (s t : State), exec c s = .next t → OnlyParts (partsOf c) s t

/-- INVARIANT, at reset. -/
def Obligations.SoundAtReset : Prop :=
  Sound State.reset ∧ ManufacturerKey State.reset

/-- INVARIANT. From every sound state a step leads to a sound one: the yard's memory stays canonical, RISK keeps
within 16 bits (R385), the event log within 4,096 records with none above the newest (R431, R446), and every tally
within 64 bits (R187). -/
def Obligations.SoundKept : Prop :=
  ∀ s t : State, Sound s → step s = .next t → Sound t

/-- R408, the key store. It has the four slots that KEY_SLOT names. Slot 0 holds the manufacturer's key, and no step
changes it; slots 1 to 3 start empty. A key is installed into an empty slot through a locked monitor command; the
slot is then fixed until it is revoked, and a revoked slot stays revoked at every step. No other command changes a
slot, the losses of the supply among them. A load that names a revoked slot fails with REASON 3, unless a reason that
R198 puts before it is met. -/
def Obligations.KeyStoreKept : Prop :=
  (State.reset.nv.keys.length = 4 ∧ nth KeySlot.empty State.reset.nv.keys 0 = .manufacturer ∧
    ∀ k ∈ [1, 2, 3], nth KeySlot.empty State.reset.nv.keys k = .empty) ∧
  (∀ s t : State, step s = .next t →
    t.nv.keys.length = s.nv.keys.length ∧ (ManufacturerKey s → ManufacturerKey t) ∧
    ∀ k, nth KeySlot.empty s.nv.keys k = .revoked → nth KeySlot.empty t.nv.keys k = .revoked) ∧
  (∀ (c : Instr) (s t : State), exec c s = .next t →
    ((∀ slot x y, c ≠ .keyInstall slot x y) → (∀ slot, c ≠ .keyRevoke slot) → t.nv.keys = s.nv.keys) ∧
    ∀ k x y, nth KeySlot.empty s.nv.keys k = .key x y → nth KeySlot.empty t.nv.keys k ≠ .key x y →
      nth KeySlot.empty t.nv.keys k = .revoked ∧ ∃ slot : Fin 4, c = .keyRevoke slot ∧ slot.val = k) ∧
  (∀ (s : State) (slot : Fin 4) (x y : Nat), MonitorReady s → s.nv.keys.length = 4 → slot ≠ 0 →
    (s.monitor.unlocked = true → nth KeySlot.empty s.nv.keys slot.val = .empty →
      Leads (.keyInstall slot x y) s (fun t => nth KeySlot.empty t.nv.keys slot.val = .key x y ∧
        ∀ k, k ≠ slot.val → nth KeySlot.empty t.nv.keys k = nth KeySlot.empty s.nv.keys k)) ∧
    (s.monitor.unlocked = true → nth KeySlot.empty s.nv.keys slot.val = .key x y →
      Leads (.keyRevoke slot) s (fun t => nth KeySlot.empty t.nv.keys slot.val = .revoked ∧
        ∀ k, k ≠ slot.val → nth KeySlot.empty t.nv.keys k = nth KeySlot.empty s.nv.keys k)) ∧
    (s.monitor.unlocked = false → Leads (.keyInstall slot x y) s (fun t => t.nv.keys = s.nv.keys) ∧
      Leads (.keyRevoke slot) s (fun t => t.nv.keys = s.nv.keys))) ∧
  (∀ (s : State) (bs : List Byte) (err : Bool), s.supply = .good → s.load.phase = .firstRead →
    nth KeySlot.empty s.nv.keys (decodeHeader bs).keySlot = .revoked →
    Leads (.loadFirstReadDone bs err) s (fun t => t.load.code = 0x60 ∧ t.load.reason ∈ [3, 7, 1, 5, 9] ∧
      t.image = s.image ∧ (t.load.reason = 9 → err = true ∧ bs.length < 0x200)) ∧
    ((decodeHeader bs).kind ≠ 0 ∨ s.quiet = true → s.load.addr.toNat % 64 = 0 → (decodeHeader bs).ok bs.length = true →
      directoryOk (decodeHeader bs) (directoryOf bs (decodeHeader bs)) = true →
      (decodeImage bs).scopeOk s.image = true →
      Leads (.loadFirstReadDone bs false) s (fun t => t.load.code = 0x60 ∧ t.load.reason = 3)))

/-- R403, R446: the number of the newest record never falls but where the rail or the night clock is lost or comes
back, and the night-cycle counter changes with no other command (R424). R406, R407: GLB.STAT.BOOT changes only with
the phases' ends and the losses and returns of the supply. -/
def Obligations.CountersKept : Prop :=
  (∀ (c : Instr) (s t : State), c ≠ .powerOn → c ≠ .clockLoss → c ≠ .alwaysOnRailLoss → c ≠ .nightClockPresent →
     exec c s = .next t → s.log.head ≤ t.log.head ∧ t.nc = s.nc ∧ t.supply = s.supply) ∧
  (∀ (c : Instr) (s t : State), c ≠ .powerOn → c ≠ .clockLoss → c ≠ .alwaysOnRailLoss → c ≠ .nightClockPresent →
     (∀ a b, c ≠ .bootRomDone a b) → (∀ m, c ≠ .bootRestoreDone m) → (∀ b, c ≠ .bootYardDone b) →
     (∀ w, c ≠ .bootStockpileDone w) → (∀ r, c ≠ .bootFaceGroupDone r) → (∀ r, c ≠ .bootUnitsDone r) →
     exec c s = .next t → t.glb.boot = s.glb.boot)

/-! ### Registers: pairs, accesses, single fields -/

/-- R8: a read of a pair's low half gives it and latches the upper half for the requester; a write of the low half is
staged for the requester and changes nothing else; a write of the upper half commits both, the low half from what the
requester staged or else as it stands. Another requester's latches and stagings, and those of other pairs, stand. -/
def Obligations.RegisterPairs : Prop :=
  ∀ (s : State) (who : Requester) (off : Nat) (v : Word), s.supply = .good →
    (pairOffset off false = true → s.waitTile off = none → s.answeredAway off = false →
      Leads (.pairLoRead who off) s (fun t =>
        t = { s with bus := t.bus, pairs := t.pairs } ∧ t.bus.waiting = s.bus.waiting ∧
        (who = .host → t.bus.hostData = BitVec.ofNat 32 (s.regValue off)) ∧
        (who = .foreman → t.bus.foremanData = BitVec.ofNat 32 (s.regValue off)) ∧
        t.pairSide who off = { shadow := some (BitVec.ofNat 32 (s.regValue (off + 4))), staged := (s.pairSide who off).staged } ∧
        ∀ w lo, w ≠ who ∨ lo ≠ off → t.pairSide w lo = s.pairSide w lo) ∧
      Leads (.pairLoWrite who off v) s (fun t =>
        t = { s with pairs := t.pairs } ∧
        t.pairSide who off = { shadow := (s.pairSide who off).shadow, staged := some v } ∧
        ∀ w lo, w ≠ who ∨ lo ≠ off → t.pairSide w lo = s.pairSide w lo)) ∧
    (∀ lo, s.waitTile (lo + 4) = none →
      let low := match (s.pairSide who lo).staged with
        | some x => x.toNat
        | none => s.regValue lo
      let value := v.toNat * 2 ^ 32 + low
      (lo = 0x60100 → Leads (.pairHiWrite who (lo + 4) v) s (fun t =>
        t = { s with load := { s.load with addr := BitVec.ofNat 64 value }, pairs := t.pairs } ∧
        (t.pairSide who lo).staged = none)) ∧
      (lo = 0xE0010 → Leads (.pairHiWrite who (lo + 4) v) s (fun t =>
        t = { s with snap := { s.snap with restoreAddr := BitVec.ofNat 64 value }, pairs := t.pairs } ∧
        (t.pairSide who lo).staged = none)) ∧
      (lo = 0xF0008 → Leads (.pairHiWrite who (lo + 4) v) s (fun t =>
        t = { s with foreman := { s.foreman with fwAddr := BitVec.ofNat 64 value }, pairs := t.pairs } ∧
        (t.pairSide who lo).staged = none)) ∧
      (∀ i : Fin 1024, lo = 0x64000 + 8 * i.val → Leads (.pairHiWrite who (lo + 4) v) s (fun t =>
        t = { s with tallies := t.tallies, pairs := t.pairs } ∧ t.tally i.val = value ∧
        (∀ j, j ≠ i.val → t.tally j = s.tally j) ∧ (t.pairSide who lo).staged = none)))

/-- R6, R10, R347, R418 to R422: a write that is not an aligned 32-bit one is ignored; one to a tile whose clock is
stopped, or behind older ones, waits and wakes the tile; W1C bits clear where a 1 is written; a write to an RWL field
under an image is ignored, flagged and logged, and before an image it takes; offsets that are read-only or hold no
register ignore it. A waiting host write reaches its register once the tile runs. -/
def Obligations.RegisterWrites : Prop :=
  ∀ (s : State) (who : Requester) (off size : Nat) (v : Word), s.supply = .good →
    (s.waitTile off = none → size ≠ 4 ∨ off % 4 ≠ 0 → Ignored (.registerWrite who off size v) s) ∧
    (∀ k, s.waitTile off = some k → Leads (.registerWrite who off size v) s (fun t =>
      t = { s with tiles := t.tiles, bus := { s.bus with waiting := s.bus.waiting ++
              [{ tile := k, who := who, write := true, off := off, size := size, value := v }] } } ∧
      (s.clk (tileKey k) = .nap → t.clk (tileKey k) = .wakingNap) ∧
      (s.clk (tileKey k) = .off → t.clk (tileKey k) = .wakingOff))) ∧
    Leads (.registerWrite who 0x1C 4 v) s (fun t => t = { s with glb := { s.glb with evt := s.glb.evt &&& ~~~v } }) ∧
    Leads (.registerWrite who 0x20 4 v) s (fun t =>
      t = { s with glb := { s.glb with evtEn := v &&& 0xFFFFF#32 } }) ∧
    (∀ o ∈ [0x00, 0x04, 0x08, 0x0C, 0x10, 0x18], Ignored (.registerWrite who o 4 v) s) ∧
    (∀ n : Fin 72, s.image.isSome = true → s.load.phase ≠ .secondRead → s.clk n.val = .run →
      (s.face n.val).away = false → (∀ x ∈ s.bus.waiting, tileKey x.tile ≠ n.val) →
      Leads (.registerWrite who (0x100008 + 0x10000 * n.val) 4 v) s (fun t =>
        t = { s with glb := t.glb, log := t.log } ∧ Raised s t 16 ∧
        Logged s t 0x0701 0xFF 0 (0x100008 + 0x10000 * n.val) v.toNat)) ∧
    (∀ n : Fin 72, s.image = none → s.clk n.val = .run → (s.face n.val).away = false →
      bits v.toNat 2 0 ≤ 4 → (∀ x ∈ s.bus.waiting, tileKey x.tile ≠ n.val) →
      Leads (.registerWrite who (0x100008 + 0x10000 * n.val) 4 v) s (fun t =>
        t = { s with faces := t.faces } ∧ (t.face n.val) = { s.face n.val with acc := v &&& 0xF7#32 } ∧
        ∀ m, m ≠ n.val → t.face m = s.face m)) ∧
    (∀ (k : Tile) (x : BusAccess), s.bus.waiting.find? (fun y => y.tile == k) = some x → x.who = .host → x.write = true →
      s.running (tileKey k) = true → Leads (.registerAccessComplete k) s (fun t =>
        t = State.writeNow { s with bus := { s.bus with waiting := s.bus.waiting.erase x } } .host x.off x.size
          x.value.toNat)) ∧
    (∀ k : Tile, s.bus.waiting.find? (fun y => y.tile == k) = none → Ignored (.registerAccessComplete k) s)

/-- R187: an addition to a tally saturates at 2^64 − 1 and raises TALLY_SAT there. R23: it waits for the yard's
clock, and wakes it. A write to the aperture has to be one of 8 bytes on 8; another is counted and ignored. R421,
R424, R431, R433, R434: commands that write one field. A value out of range leaves the field and is logged with
0x0702; a threshold that falls to the score sets PENDING and raises RISK. CNT_CLR clears the three counters of its
face. -/
def Obligations.FieldWrites : Prop :=
  (∀ (s : State) (i : Fin 1024) (v : Word), s.supply = .good →
     ((s.glb.tripped = true ∨ s.running 72 = true) → s.tally i.val + v.toNat < 2 ^ 64 →
       Leads (.tallyAdd i v) s (fun t => t = { s with tallies := t.tallies } ∧ t.tally i.val = s.tally i.val + v.toNat ∧
         ∀ j, j ≠ i.val → t.tally j = s.tally j)) ∧
     ((s.glb.tripped = true ∨ s.running 72 = true) → 2 ^ 64 ≤ s.tally i.val + v.toNat →
       Leads (.tallyAdd i v) s (fun t => t = { s with tallies := t.tallies, glb := t.glb, log := t.log } ∧
         t.tally i.val = 2 ^ 64 - 1 ∧ (∀ j, j ≠ i.val → t.tally j = s.tally j) ∧ Raised s t 4 ∧
         Logged s t 0x0705 0xFF 0 i.val 0)) ∧
     (s.glb.tripped = false → s.running 72 = false → Leads (.tallyAdd i v) s (fun t =>
       t = { s with tiles := t.tiles, tallyWait := s.tallyWait ++ [(i.val, v.toNat)] } ∧
       (s.clk 72 = .nap → t.clk 72 = .wakingNap) ∧ (s.clk 72 = .off → t.clk 72 = .wakingOff))) ∧
     (∀ w : DWord, s.running 72 = true → s.tally i.val + w.toNat < 2 ^ 64 →
       Leads (.tallyApertureWrite (8 * i.val) 8 w) s (fun t => t = { s with tallies := t.tallies } ∧
         t.tally i.val = s.tally i.val + w.toNat ∧ ∀ j, j ≠ i.val → t.tally j = s.tally j)) ∧
     (∀ (off size : Nat) (w : DWord), off < 8192 → size ≠ 8 ∨ off % 8 ≠ 0 →
       Leads (.tallyApertureWrite off size w) s (fun t =>
         t = { s with apertureErr := min (s.apertureErr + 1) (2 ^ 32 - 1) }))) ∧
  (∀ (s : State) (v : Word), s.supply = .good →
     (bits v.toNat 15 0 = 0 → Leads (.riskThrWrite v) s (fun t =>
       t = { s with log := t.log } ∧ Logged s t 0x0702 0xFF 0 0xD0004 v.toNat)) ∧
     (0 < bits v.toNat 15 0 → (s.health.score < bits v.toNat 15 0 ∨ s.health.thr ≤ bits v.toNat 15 0 ∨ s.health.pending = true) →
       Leads (.riskThrWrite v) s (fun t => t = { s with health := { s.health with thr := bits v.toNat 15 0 } })) ∧
     (0 < bits v.toNat 15 0 → bits v.toNat 15 0 ≤ s.health.score → bits v.toNat 15 0 < s.health.thr →
       s.health.pending = false → Leads (.riskThrWrite v) s (fun t =>
         t = { s with health := { s.health with thr := bits v.toNat 15 0, pending := true }, glb := t.glb, log := t.log } ∧
         Raised s t 17 ∧ Logged s t 0x0402 0xFF 0 s.health.score (bits v.toNat 15 0))) ∧
     (96 ≤ bits v.toNat 15 0 → bits v.toNat 15 0 ≤ 30000 → Leads (.uartBaudWrite v) s (fun t =>
       t = { s with foreman := { s.foreman with baud := bits v.toNat 15 0 } })) ∧
     (bits v.toNat 15 0 < 96 ∨ 30000 < bits v.toNat 15 0 → Leads (.uartBaudWrite v) s (fun t =>
       t = { s with log := t.log } ∧ Logged s t 0x0702 0xFF 0 0xF0018 v.toNat)) ∧
     (∀ n : Fin 72, bits v.toNat 1 0 < 2 → 8 ≤ bits v.toNat 8 4 → bits v.toNat 8 4 ≤ 16 →
       Leads (.pwrFaceCapWrite n v) s (fun t => t = { s with faces := t.faces } ∧
         t.face n.val = { s.face n.val with req := bits v.toNat 1 0, cap := bits v.toNat 8 4 } ∧
         ∀ m, m ≠ n.val → t.face m = s.face m)) ∧
     (∀ n : Fin 72, 2 ≤ bits v.toNat 1 0 ∨ bits v.toNat 8 4 < 8 ∨ 16 < bits v.toNat 8 4 →
       Leads (.pwrFaceCapWrite n v) s (fun t => t = { s with log := t.log } ∧
         Logged s t 0x0702 0xFF 0 (0x10100 + 4 * n.val) v.toNat)) ∧
     (∀ n : Fin 72, (s.face n.val).away = false → s.clk n.val = .run →
       (∀ x ∈ s.bus.waiting, tileKey x.tile ≠ n.val) → Leads (.fceCtlCntClr n) s (fun t => t = { s with faces := t.faces } ∧
         t.face n.val = { s.face n.val with unchk := [], reloc := [], frz := [] } ∧ ∀ m, m ≠ n.val → t.face m = s.face m)))

/-- R343, R344: a write of a crossing group's mode is held until no transfer crosses, then it takes effect. PACED for
the groups that may not be paced, for group 1 once it was forced to FREE, or a reserved number of stages is refused.
A fabric clock off by more than 2 cycles in 2^20 night cycles forces group 1 to FREE. R345, R368: a parity mismatch
at a crossing. On a register path the requester gets a bus error; on a fold line or a context save the transfer is
made again, and the mismatch counts against its face, which is retired at the third within 2^26 night cycles. -/
def Obligations.Crossings : Prop :=
  (∀ (s : State) (g : Fin 5) (v : Word), s.supply = .good →
     (let bad := (bit v.toNat 0 = true ∧ (2 ≤ g.val ∨ (g.val = 1 ∧ (s.crossing 1).forced = true))) ∨ bits v.toNat 4 3 = 3
      (bad → Leads (.crossModeWrite g v) s (fun t => t = { s with log := t.log } ∧
        Logged s t 0x0702 0xFF 0 (0x20000 + 4 * g.val) v.toNat)) ∧
      (¬ bad → Leads (.crossModeWrite g v) s (fun t => t = { s with cross := t.cross } ∧
        t.crossing g.val = { s.crossing g.val with asked := some (groupMode v.toNat) } ∧
        ∀ m, m ≠ g.val → t.crossing m = s.crossing m))) ∧
     (∀ m, (s.crossing g.val).asked = some m → Leads (.crossingChangeApply g) s (fun t => t = { s with cross := t.cross } ∧
       t.crossing g.val = { s.crossing g.val with mode := m, asked := none } ∧
       ∀ k, k ≠ g.val → t.crossing k = s.crossing k)) ∧
     ((s.crossing g.val).asked = none → Ignored (.crossingChangeApply g) s) ∧
     (∀ count : Nat, ((s.crossing 1).asked.getD (s.crossing 1).mode).paced = true →
       count + 2 < 41943040 ∨ 41943040 + 2 < count → Leads (.fabricLockCheck count) s (fun t =>
         t = { s with cross := t.cross, glb := t.glb, log := t.log } ∧ Raised s t 10 ∧
         Logged s t 0x0605 0xFF 0 count 0 ∧ (t.crossing 1).forced = true ∧
         ((t.crossing 1).asked.getD (t.crossing 1).mode).paced = false ∧ ∀ k, k ≠ 1 → t.crossing k = s.crossing k)) ∧
     (∀ count : Nat, ((s.crossing 1).asked.getD (s.crossing 1).mode).paced = false ∨
       (41943038 ≤ count ∧ count ≤ 41943042) → Ignored (.fabricLockCheck count) s)) ∧
  (∀ (s : State) (n : Fin 72) (b : Fin 4), s.supply = .good →
     Leads (.crossingParity (.register .host)) s (fun t =>
       t = { s with bus := { s.bus with hostErrors := s.bus.hostErrors + 1 } }) ∧
     Leads (.crossingParity (.register .foreman)) s (fun t =>
       t = { s with bus := { s.bus with foremanErrors := s.bus.foremanErrors + 1 } }) ∧
     (((s.face n.val).mismatches.filter (fun x => decide (s.nc < x + 2 ^ 26))).length < 2 →
       ∀ path, path = .foldLine n b ∨ path = .contextSave n b → Leads (.crossingParity path) s (fun t =>
         t = { s with faces := t.faces } ∧ (t.face n.val).mismatches =
           s.nc :: (s.face n.val).mismatches.filter (fun x => decide (s.nc < x + 2 ^ 26)) ∧
         (t.face n.val).role = (s.face n.val).role ∧ ∀ m, m ≠ n.val → t.face m = s.face m)) ∧
     (2 ≤ ((s.face n.val).mismatches.filter (fun x => decide (s.nc < x + 2 ^ 26))).length →
       (s.face n.val).role = .spare → s.faceGone n.val = false →
       Leads (.crossingParity (.foldLine n b)) s (fun t => (t.face n.val).role = .retired ∧ n.val ∈ t.spare.faceRet ∧
         t.clk n.val = .off ∧ t.yard = s.yard)) ∧
     (∀ (h : Fin 128) (seq : Nat), (s.hoist h.val).cut = none → Ignored (.crossingParity (.fabricRead h seq)) s) ∧
     (Leads (.crossingParity (.benchFeed n b)) s (fun t => t.yard = s.yard ∧ t.tallies = s.tallies)))

/-- R419: the night domain answers for a face whose ROLE is RETIRED or FAILED, and the face does not wake. FCE_STAT
reads the face's stored fields, with CLK as OFF; every other register of the face reads 0, and every write to one is
ignored. -/
def Obligations.AwayFaces : Prop :=
  ∀ (s : State) (n : Fin 72), s.supply = .good → (s.face n.val).role = .retired ∨ (s.face n.val).role = .failed →
    let f := s.face n.val
    let base := 0x100000 + 0x10000 * n.val
    (∀ who : Requester,
      let v := s.readValue who (base + 4)
      bits v 2 0 = (if f.role = .retired then 3 else 4) ∧ bits v 5 4 = 2 ∧ bits v 9 6 = f.working % 16 ∧
      bits v 15 10 = f.position % 64 ∧ bits v 18 16 = f.fill % 8 ∧ bits v 22 19 = f.benches % 16 ∧ bits v 23 23 = 0 ∧
      bits v 30 24 = f.serves % 128 ∧ bits v 31 31 = 0) ∧
    ∀ o, o < 0x10000 →
      s.waitTile (base + o) = none ∧
      (∀ (who : Requester) (size : Nat) (v : Word), Ignored (.registerWrite who (base + o) size v) s ∧
        Ignored (.pairLoWrite who (base + o) v) s ∧ Ignored (.pairHiWrite who (base + o) v) s) ∧
      (o % 4 = 0 → o ≠ 4 → ∀ who : Requester, s.readValue who (base + o) = 0) ∧
      (o % 4 = 0 → MonitorReady s → Leads (.rd (base + o) 1) s (fun t =>
        t.monitor.out = [.reg (base + o) (s.readValue .foreman (base + o)), .ok, .prompt] ∧ t.tiles = s.tiles ∧
        t.faces = s.faces)) ∧
      Ignored (.fceCtlCntClr n) s

/-! ### Clocks, sleep, frequency, surge, heat -/

/-- R331, R335, R337: an idle tile goes from RUN to NAP, and to its sleep-level state while the engine sleeps; from
NAP a tile that may be off goes OFF; a tile in use stays. A tile that goes OFF loses what it held: the yard's loss is
that of the image, the tallies and the registers of its domain (R334). R333, R334, R346, R359, R404: a waking tile
reaches RUN, which ends the stalls recorded on it; a face that wakes from OFF takes the frequency of R350 and the
modes of its working; the yard then takes the tally writes that waited. During a trip and while the reset input is
held, wakes wait. The yard, awake, holds zero once it has been cleared, and READY follows from its conditions (R412). -/
def Obligations.TileClocks : Prop :=
  (∀ (s : State) (k : Tile), s.supply = .good →
     (s.active (tileKey k) = true → s.tileIdle (tileKey k) = true → (∀ p, k ≠ .link p) → s.glb.asleep = 0 →
       Leads (.napIdleExpire k) s (fun t => t = { s with tiles := t.tiles } ∧ t.clk (tileKey k) = .nap ∧
         ∀ j, j ≠ tileKey k → t.clk j = s.clk j)) ∧
     (s.active (tileKey k) = true → s.tileIdle (tileKey k) = true → k = .yard → s.glb.asleep = 2 →
       Leads (.napIdleExpire k) s (fun t => t.clk 72 = .off ∧ t.image = none ∧ t.tallies = [] ∧ t.cuts = [] ∧
         t.seams = [] ∧ t.yard.cleared = false ∧ t.spare = s.spare ∧ t.log = s.log ∧ t.glb = s.glb)) ∧
     (s.active (tileKey k) = false ∨ s.tileIdle (tileKey k) = false → Ignored (.napIdleExpire k) s) ∧
     (s.clk (tileKey k) = .nap → s.tileIdle (tileKey k) = true → 72 < tileKey k → k ≠ .fabric →
       Leads (.offIdleExpire k) s (fun t => t = { s with tiles := t.tiles } ∧ t.clk (tileKey k) = .off ∧
         ∀ j, j ≠ tileKey k → t.clk j = s.clk j)) ∧
     (∀ n : Fin 72, k = .face n → s.clk n.val = .nap → s.tileIdle n.val = true → Leads (.offIdleExpire k) s (fun t =>
       t.clk n.val = .off ∧ t.yard = s.yard ∧ t.log = s.log ∧ ∀ j, j ≠ n.val → t.clk j = s.clk j)) ∧
     (k = .yard ∨ k = .fabric → Ignored (.offIdleExpire k) s)) ∧
  (∀ (s : State) (k : Tile), s.supply = .good →
     (s.glb.tripped = true ∨ s.glb.resetHeld = true → Ignored (.wakeDone k) s) ∧
     (s.glb.tripped = false → s.glb.resetHeld = false → k ≠ .yard →
       (s.clk (tileKey k) = .wakingNap → Leads (.wakeDone k) s (fun t =>
         t = { s with tiles := t.tiles, stalls := t.stalls, hoists := t.hoists } ∧ t.clk (tileKey k) = .run ∧
         (∀ j, j ≠ tileKey k → t.clk j = s.clk j) ∧
         t.stalls = s.stalls.filter (fun x => tileKey x.2 != tileKey k))) ∧
       (∀ n : Fin 72, k = .face n → s.clk n.val = .wakingOff → Leads (.wakeDone k) s (fun t =>
         t = { s with tiles := t.tiles, stalls := t.stalls, hoists := t.hoists, faces := t.faces } ∧
         t.clk n.val = .run ∧ (t.face n.val).freq = s.faceLimit n.val ∧
         ((s.face n.val).role = .inService → (t.face n.val).acc = BitVec.ofNat 32 (s.modeWords (s.face n.val).working).1) ∧
         ((s.face n.val).role = .spare → (t.face n.val).acc = 0 ∧ (t.face n.val).chk = 0x41#32) ∧
         ∀ m, m ≠ n.val → t.face m = s.face m))) ∧
     (s.glb.tripped = false → s.glb.resetHeld = false → s.clk 72 = .wakingNap ∨ s.clk 72 = .wakingOff →
       s.tallyWait = [] → Leads (.wakeDone .yard) s (fun t => t.clk 72 = .run ∧ t.tallies = s.tallies ∧ t.yard = s.yard)) ∧
     (s.clk (tileKey k) = .run ∨ s.clk (tileKey k) = .nap ∨ s.clk (tileKey k) = .off → Ignored (.wakeDone k) s) ∧
     (s.clk 72 = .run → s.yard.cleared = false → Leads .yardClearDone s (fun t =>
       t = { s with yard := { s.yard with mem := [], poison := [], cleared := true }, glb := t.glb } ∧
       t.glb.ready = (s.glb.ready || (s.glb.boot == 7 && s.foreman.healthy && !s.glb.stockfail && !s.glb.tripped)))) ∧
     (s.yard.cleared = true → Ignored .yardClearDone s))

/-- R337, R356, R421: GLB.CTL.SLEEP asks for a level, 0 ends the sleep, and 3 is out of range. The level is entered
once every sequencer is stopped, no cut runs and no load is in progress; the ledger is stored before. At level 1 the
yard and the fabric ports keep their state in NAP, and what the yard holds stays. R346: a data path that has waited
on a stopped destination is recorded once, with its event and its log record; a repeat, and a destination that runs,
change nothing. -/
def Obligations.SleepLevels : Prop :=
  (∀ s : State, s.supply = .good →
     Leads (.sleep 0) s (fun t => t = { s with glb := { s.glb with sleepReq := 0, asleep := 0 } }) ∧
     Leads (.sleep 1) s (fun t => t = { s with glb := { s.glb with sleepReq := 1 } }) ∧
     Leads (.sleep 2) s (fun t => t = { s with glb := { s.glb with sleepReq := 2 } }) ∧
     Leads (.sleep 3) s (fun t => t = { s with log := t.log } ∧ Logged s t 0x0702 0xFF 0 0x14 3) ∧
     (s.glb.sleepReq = 1 → s.glb.asleep ≠ 1 → s.quiet = true → s.load.phase = .idle → s.fills.queue = [] →
       Leads .sleepEnter s (fun t => t.glb = { s.glb with asleep := 1 } ∧ t.nv = { s.nv with ledger := s.surge.ledger } ∧
         t.surge.stored = s.surge.ledger ∧ (∀ n : Fin 72, t.clk n.val = .off) ∧
         (s.clk 72 ≠ .off → t.clk 72 = .nap ∧ t.yard = s.yard ∧ t.tallies = s.tallies ∧ t.image = s.image) ∧
         (∀ p : Fin 4, t.port p.val = s.port p.val) ∧ t.log = s.log)) ∧
     (s.glb.sleepReq = 2 → s.glb.asleep ≠ 2 → s.quiet = true → s.load.phase = .idle → s.fills.queue = [] →
       Leads .sleepEnter s (fun t => t.glb.asleep = 2 ∧ t.nv.ledger = s.surge.ledger ∧
         (∀ n : Fin 72, t.clk n.val = .off) ∧ t.clk 72 = .off ∧ (∀ p : Fin 4, (t.port p.val).st = .disabled))) ∧
     (s.glb.sleepReq = 0 ∨ s.glb.asleep = s.glb.sleepReq ∨ s.quiet = false ∨ s.load.phase ≠ .idle →
       Ignored .sleepEnter s)) ∧
  (∀ (s : State) (source : Nat) (k : Tile), s.supply = .good →
     (s.active (tileKey k) = false → (source, k) ∉ s.stalls → Leads (.sleepStall source k) s (fun t =>
       t = { s with stalls := (source, k) :: s.stalls, hoists := t.hoists, glb := t.glb, log := t.log } ∧ Raised s t 9 ∧
       t.log.head = s.log.head + 1 ∧ ((s.hoist source).cut = none → Logged s t 0x0606 0xFF 0 source (Config.tileNumber (tileKey k))))) ∧
     (s.active (tileKey k) = true ∨ (source, k) ∈ s.stalls → Ignored (.sleepStall source k) s))

/-- R350 to R352: a face's frequency moves one step of 125 MHz toward the limit of R350, the least of surge, ceiling,
FMAX and CAP; a droop stretches the faces on its rail, counts once and is input 6 of the health model, and ends.
R357, R417: a face short of margin gains 5 mV of offset up to 50 mV, and after that loses a step of FMAX, kept in the
store; DERATE is raised and logged. One whose FMAX stays at or above FMIN_SERVICE is not retired by it, and the faces
not named are as before. -/
def Obligations.FaceFrequency : Prop :=
  (∀ (s : State) (n : Fin 72), s.supply = .good →
     (s.active n.val = true → Leads (.frequencyStep n) s (fun t => t = { s with faces := t.faces } ∧
       (s.faceLimit n.val < (s.face n.val).freq → t.face n.val = { s.face n.val with freq := (s.face n.val).freq - 1 }) ∧
       ((s.face n.val).freq < s.faceLimit n.val → t.face n.val = { s.face n.val with freq := (s.face n.val).freq + 1 }) ∧
       ((s.face n.val).freq = s.faceLimit n.val → t.face n.val = s.face n.val) ∧
       ∀ m, m ≠ n.val → t.face m = s.face m)) ∧
     (s.active n.val = false → Ignored (.frequencyStep n) s) ∧
     (∀ fs : List (Fin 72), fs ≠ [] → Leads (.droop fs) s (fun t =>
       (∀ m ∈ fs, (t.face m.val).stretched = true) ∧ (∀ m : Fin 72, m ∉ fs → t.face m.val = s.face m.val) ∧
       t.surge = { s.surge with droops := min (s.surge.droops + 1) (2 ^ 32 - 1) } ∧
       t.health.score = min (s.health.score + s.riskWeight 6) 65535)) ∧
     Ignored (.droop []) s ∧
     (∀ fs : List (Fin 72), Leads (.droopClear fs) s (fun t => t = { s with faces := t.faces } ∧
       (∀ m ∈ fs, (t.face m.val).stretched = false) ∧ ∀ m : Fin 72, m ∉ fs → t.face m.val = s.face m.val))) ∧
  (∀ (s : State) (n : Fin 72), s.supply = .good → (s.face n.val).away = false →
     ((s.agingOf n.val).offset < 10 → s.fminService ≤ s.effFmax n.val → Leads (.agingRead [n]) s (fun t =>
       t = { s with nv := t.nv, faces := t.faces, glb := t.glb, log := t.log } ∧
       t.agingOf n.val = { s.agingOf n.val with offset := (s.agingOf n.val).offset + 1 } ∧
       (t.face n.val).voffReg = s.effVoff n.val + 1 ∧ Raised s t 14 ∧ t.log.head = s.log.head + 1 ∧
       ∀ m, m ≠ n.val → t.face m = s.face m ∧ t.agingOf m = s.agingOf m)) ∧
     (10 ≤ (s.agingOf n.val).offset → s.fminService ≤ min (s.face n.val).imgFmax (faceFmaxCal n.val - (s.agingOf n.val).reductions - 1) →
       Leads (.agingRead [n]) s (fun t =>
         t = { s with nv := t.nv, faces := t.faces, glb := t.glb, log := t.log } ∧
         t.agingOf n.val = { s.agingOf n.val with reductions := (s.agingOf n.val).reductions + 1 } ∧
         Raised s t 14 ∧ t.log.head = s.log.head + 1 ∧
         ∀ m, m ≠ n.val → t.face m = s.face m ∧ t.agingOf m = s.agingOf m)) ∧
     Ignored (.agingRead []) s)

/-- R355, R356: the governor withdraws the permission to surge when the window with the 129 cycles it takes to step
down would pass BUDGET, and gives it back at BUDGET − RESUME; the ledger is stored after every 2^28 surge cycles; at
the lifetime limit surge is withdrawn for good, with SURGE and a record of the ledger. -/
def Obligations.SurgeAccount : Prop :=
  ∀ s : State, s.supply = .good →
    (s.surging = true → s.surgeLimits.1 < s.surgeProjected → Leads .surgeStepDown s (fun t =>
      t = { s with surge := { s.surge with permitted := false } })) ∧
    (s.surging = false ∨ s.surgeProjected ≤ s.surgeLimits.1 → Ignored .surgeStepDown s) ∧
    (s.surgeWindow + s.surgeLimits.2 ≤ s.surgeLimits.1 → Leads .surgeResume s (fun t =>
      t = { s with surge := { s.surge with permitted := true } })) ∧
    (s.surgeLimits.1 < s.surgeWindow + s.surgeLimits.2 → Ignored .surgeResume s) ∧
    (s.surge.stored + 2 ^ 28 ≤ s.surge.ledger → Leads .ledgerStore s (fun t =>
      t = { s with nv := { s.nv with ledger := s.surge.ledger }, surge := { s.surge with stored := s.surge.ledger } })) ∧
    (s.surge.ledger < s.surge.stored + 2 ^ 28 → Ignored .ledgerStore s) ∧
    (360000000000000 ≤ s.surge.ledger → s.surge.withdrawn = false → Leads .surgeWithdraw s (fun t =>
      t = { s with surge := { s.surge with withdrawn := true, en := false }, glb := t.glb, log := t.log } ∧ Raised s t 13 ∧
      Logged s t 0x0604 0xFF 0 s.surge.ledger (s.surge.ledger / 2 ^ 32))) ∧
    (s.surge.ledger < 360000000000000 ∨ s.surge.withdrawn = true → Ignored .surgeWithdraw s)

/-- R358, R359: readings of the sensors. Every reading is kept; one at or above 105 °C lowers its face's ceiling by a
step, a yard's reading all of them, and a sluice's halves its rate; one at or above 115 °C trips the engine, once. A
trip is cleared only when no sensor last read above 100 °C; the ceilings then start at 1.5 GHz. -/
def Obligations.HeatAndTrips : Prop :=
  ∀ s : State, s.supply = .good →
    (∀ ts : List Int, ts.length = 84 → Leads (.tempRead ts) s (fun t =>
      (∀ k < 84, Tab.get 0 t.temps k = nth 0 ts k) ∧ (t.hot = true ↔ ∃ x ∈ ts, 100 < x) ∧
      ((∃ x ∈ ts, 115 ≤ x) → t.glb.tripped = true) ∧ ((∀ x ∈ ts, x < 115) → t.glb.tripped = s.glb.tripped) ∧
      (∀ n : Fin 72, 105 ≤ nth 0 ts n.val → (∀ k < 8, nth 0 ts (72 + k) < 105) →
        (t.face n.val).ceiling = max 8 ((s.face n.val).ceiling - 1)) ∧
      (∀ p : Fin 4, 105 ≤ nth 0 ts (80 + p.val) → (t.port p.val).half = true) ∧
      (∀ p : Fin 4, nth 0 ts (80 + p.val) ≤ 101 → (t.port p.val).half = false) ∧
      ((∀ x ∈ ts, x < 105) → t.log = s.log ∧ t.glb = s.glb))) ∧
    (s.glb.tripped = true → s.hot = false → Leads .tripClr s (fun t =>
      t = { s with glb := t.glb, faces := t.faces } ∧ t.glb.tripped = false ∧ (∀ n : Fin 72, (t.face n.val).ceiling = 12) ∧
      t.glb.evt = s.glb.evt)) ∧
    (s.glb.tripped = false ∨ s.hot = true → Ignored .tripClr s)

/-! ### Loading an image; steps and cuts -/

/-- R195, R198, R216, R413: a load begins when none is in progress and READY is set, and another LOAD_START is
counted. Its first read ends in a refusal, with its reason in LOAD_STAT, the event and the record; or the image is
taken in and waits for a table bank that is in use, or goes on to the second read. An error response within the first
512 bytes has reason 9, and a whole image while a cut runs has reason 7. -/
def Obligations.LoadReads : Prop :=
  ∀ (s : State) (bs : List Byte) (err : Bool), s.supply = .good →
    (s.load.phase = .idle → s.glb.ready = true → Leads .loadStart s (fun t =>
      t = { s with load := { s.load with phase := .firstRead, staged := none }, tiles := t.tiles } ∧
      (s.clk 106 = .nap → t.clk 106 = .wakingNap) ∧ (s.clk 106 = .off → t.clk 106 = .wakingOff) ∧
      ∀ k, k ≠ 106 → t.clk k = s.clk k)) ∧
    (s.load.phase ≠ .idle ∨ s.glb.ready = false → Leads .loadStart s (fun t =>
      t = { s with load := { s.load with ignored := min (s.load.ignored + 1) 65535 } })) ∧
    (s.load.phase = .firstRead → s.loadReason bs err = 0 → Leads (.loadFirstReadDone bs err) s (fun t =>
      t = { s with load := { s.load with
        staged := some (decodeImage bs)
        phase := if s.banksBusy (decodeImage bs) then .bankWait else .secondRead } })) ∧
    (s.load.phase = .firstRead → s.loadReason bs err ≠ 0 → Leads (.loadFirstReadDone bs err) s (fun t =>
      t = { s with load := { s.load with phase := .idle, code := 0x60, reason := s.loadReason bs err, staged := none },
                   glb := t.glb, log := t.log } ∧
      Raised s t 1 ∧ Logged s t 0x0102 0xFF 0 (s.loadReason bs err) s.load.addr.toNat)) ∧
    (bs.length < 0x200 → s.loadReason bs true = 9) ∧
    ((decodeHeader bs).kind = 0 → s.quiet = false → s.loadReason bs false = 7) ∧
    (s.load.phase ≠ .firstRead → Ignored (.loadFirstReadDone bs err) s) ∧
    (∀ p, s.load.staged = some p → s.load.phase = .bankWait → s.banksBusy p = false →
      Leads .tableBankWaitEnd s (fun t => t = { s with load := { s.load with phase := .secondRead } })) ∧
    (∀ p, s.load.staged = some p → (s.load.phase ≠ .bankWait ∨ s.banksBusy p = true) → Ignored .tableBankWaitEnd s)

/-- R197, R198, R214, R216: the second read of a whole image. Read without an error and with the digest of the first
read, the image is in force: its digest, its tallies and its tables; every cut, seam and result of the image before
is gone, and each working's sequencer runs if AUTORUN says so. Else the load is refused with reason 9 or 0xA, and no
image is in force. R198 to R200, R216: the second read of a partial. At its commit point it is laid over the image in
force, which counts its digest in; tallies and seams stand. Before its commit point it waits, and refused in its
second read it changes nothing but LOAD_STAT. -/
def Obligations.LoadCommits : Prop :=
  (∀ (s : State) (i : Image) (bs : List Byte) (err : Bool), s.supply = .good → s.load.phase = .secondRead →
     s.load.staged = some i → i.header.kind = 0 →
     (err = false → imageDigest bs = i.digest → Leads (.loadCommit bs err) s (fun t =>
       t.image = some i ∧ t.cfgDigest = i.digest ∧ t.tallies = i.tallies ∧ t.tables = Tables.whole i.tables ∧
       t.load = { s.load with phase := .idle, code := 1, reason := 0, staged := none } ∧
       t.cuts = [] ∧ t.seams = [] ∧ t.results = [] ∧ t.moves = [] ∧
       t.working = i.workings.map (fun w => (w.1, freshWorking i w.1 w.2)) ∧
       t.refused = i.refusals (Tables.whole i.tables).inForce ∧ t.glb.evt &&& 1 = 1 ∧
       (∃ r rs, t.log.recs = r :: rs ∧ r.code = 0x0101 ∧ r.arg0 = i.header.imageId % 2 ^ 32 ∧
         r.arg1 = i.header.imageVer % 2 ^ 32) ∧ t.nv = s.nv)) ∧
     (err = true ∨ imageDigest bs ≠ i.digest → Leads (.loadCommit bs err) s (fun t =>
       t.image = none ∧ t.cfgDigest = [] ∧ t.working = [] ∧ t.cuts = [] ∧ t.seams = [] ∧ t.tables = Tables.reset ∧
       t.load = { s.load with phase := .idle, code := 0x60, reason := if err then 9 else 0xA, staged := none } ∧
       t.glb.evt &&& 2 = 2 ∧ t.nv = s.nv))) ∧
  (∀ (s : State) (p : Image) (bs : List Byte) (err : Bool), s.supply = .good → s.load.phase = .secondRead →
     s.load.staged = some p → p.header.kind ≠ 0 →
     (err = false → imageDigest bs = p.digest → s.atCommitPoint p = true → Leads (.partialCommit bs err) s (fun t =>
       t.image = some (s.merged p) ∧ t.cfgDigest = sha384 (s.cfgDigest ++ p.digest) ∧
       t.load = { s.load with phase := .idle, code := 1, reason := 0, staged := none } ∧
       (p.tables = none → t.tables = s.tables) ∧ (∀ x, p.tables = some x → t.tables = s.tables.write x) ∧
       t.refused = (s.merged p).refusals t.tables.inForce ∧ t.tallies = s.tallies ∧ t.seams = s.seams ∧
       t.glb.evt &&& 1 = 1 ∧
       (∃ r rs, t.log.recs = r :: rs ∧ r.code = 0x0101 ∧ r.arg0 = p.header.imageId % 2 ^ 32 ∧
         r.arg1 = p.header.imageVer % 2 ^ 32))) ∧
     (err = false → imageDigest bs = p.digest → s.atCommitPoint p = false → Ignored (.partialCommit bs err) s) ∧
     (err = true ∨ imageDigest bs ≠ p.digest → Leads (.partialCommit bs err) s (fun t =>
       t = { s with load := { s.load with phase := .idle, code := 0x60, reason := if err then 9 else 0xA, staged := none },
                    glb := t.glb, log := t.log } ∧
       Raised s t 1 ∧ Logged s t 0x0102 0xFF 0 (if err then 9 else 0xA) s.load.addr.toNat)))

/-- R180, R394, R427: RUN and STOP of a sequencer. A running one stops at once between two steps and else at the
close of its step; with no image, for a working it has not, or after a refused restore RUN does nothing. A halted
working that runs again resumes its stopped cuts, unless it is pre-empted or a test drain's capture holds it (R383,
R445). R15, R383, R384: a working's bit of GLB.PREEMPT stops its running cuts, with status 0x40 and PREEMPTED, and
its clearing lets them resume; another working's cuts are not touched. -/
def Obligations.Sequencers : Prop :=
  (∀ (s : State) (w : Fin 16), s.supply = .good →
     (s.image.isSome = true → w.val < s.workCount → s.snap.blocked = false →
       ((s.work w.val).seq ≠ .halted ∨ s.preempted w.val = true ∨ (s.snap.phase = .holding ∧ s.snap.test = true) →
         Leads (.wrkCtlRun w) s (fun t =>
         t = { s with working := t.working } ∧ t.work w.val = { s.work w.val with seq := .running } ∧
         ∀ v, v ≠ w.val → t.work v = s.work v)) ∧
       ((s.work w.val).seq = .halted → s.preempted w.val = false →
         (s.snap.phase ≠ .holding ∨ s.snap.test = false) → Leads (.wrkCtlRun w) s (fun t =>
         t.work w.val = { s.work w.val with seq := .running } ∧ t.tallies = s.tallies ∧ t.glb = s.glb ∧
         (∀ e, (s.cut e).phase = .stopped → (s.cut e).desc.working = w.val → s.waitsForFace e = false →
           (t.cut e).phase = .running ∧ (t.cut e).status = 0) ∧
         (∀ e, (s.cut e).phase ≠ .stopped ∨ (s.cut e).desc.working ≠ w.val → t.cut e = s.cut e)))) ∧
     (s.image = none ∨ s.workCount ≤ w.val ∨ s.snap.blocked = true → Ignored (.wrkCtlRun w) s) ∧
     ((s.work w.val).seq = .running → (s.work w.val).isOpen = false → Leads (.wrkCtlStop w) s (fun t =>
       t = { s with working := t.working } ∧ t.work w.val = { s.work w.val with seq := .stopped } ∧
       ∀ v, v ≠ w.val → t.work v = s.work v)) ∧
     ((s.work w.val).seq = .running → (s.work w.val).isOpen = true → s.heldByBroken w.val = false →
       Leads (.wrkCtlStop w) s (fun t => t = { s with working := t.working } ∧
         t.work w.val = { s.work w.val with seq := .stopping } ∧ ∀ v, v ≠ w.val → t.work v = s.work v)) ∧
     ((s.work w.val).seq = .stopped ∨ (s.work w.val).seq = .halted → Ignored (.wrkCtlStop w) s)) ∧
  (∀ (s : State) (w : Fin 16), s.supply = .good →
     Leads (.glbPreemptSet w) s (fun t =>
       t.preempted w.val = true ∧ (∀ v, v ≠ w.val → t.preempted v = s.preempted v) ∧
       (∀ e, (s.cut e).phase = .running → (s.cut e).desc.working = w.val → (t.cut e).phase = .stopped ∧
         (t.cut e).status = 0x40 ∧ (t.cut e).flags = (s.cut e).flags ||| 0x2000#32) ∧
       (∀ e, (s.cut e).phase ≠ .running ∨ (s.cut e).desc.working ≠ w.val → t.cut e = s.cut e) ∧
       t.tallies = s.tallies ∧ t.working = s.working ∧ t.log = s.log ∧ t.yard = s.yard ∧ t.glb.evt = s.glb.evt) ∧
     (s.preempted w.val = true → (s.work w.val).seq ≠ .halted → (s.snap.phase ≠ .holding ∨ s.snap.test = false) →
       Leads (.glbPreemptClear w) s (fun t =>
       t.preempted w.val = false ∧ (∀ v, v ≠ w.val → t.preempted v = s.preempted v) ∧
       (∀ e, (s.cut e).phase = .stopped → (s.cut e).desc.working = w.val → s.waitsForFace e = false →
         (t.cut e).phase = .running ∧ (t.cut e).status = 0) ∧
       (∀ e, (s.cut e).phase ≠ .stopped ∨ (s.cut e).desc.working ≠ w.val → t.cut e = s.cut e) ∧
       t.tallies = s.tallies ∧ t.working = s.working ∧ t.log = s.log ∧ t.yard = s.yard)) ∧
     (s.preempted w.val = true → (s.work w.val).seq = .halted ∨ (s.snap.phase = .holding ∧ s.snap.test = true) →
       Leads (.glbPreemptClear w) s (fun t =>
       t = { s with glb := { s.glb with preempt := s.glb.preempt &&& ~~~BitVec.ofNat 16 (2 ^ w.val) } })) ∧
     (s.preempted w.val = false → Ignored (.glbPreemptClear w) s))

/-- R180, R183, R382: a step opens, with every entry whose PHASE is the step's remainder by PERIOD pending at status
0 and the others idle (ON_RESTORE entries: in the first step after a restore alone); an entry that ended with 0x50 in
an open step runs again from the beginning; a RERUN of another is ignored and logged. -/
def Obligations.StepsOpen : Prop :=
  ∀ (s : State) (w : Fin 16), s.supply = .good →
    (s.mayOpen w.val = true → s.refused = [] → (∀ e ∈ s.entriesOf w.val, (s.descOf e).kind ≠ 6) →
      (∃ e ∈ s.entriesOf w.val, (s.descOf e).eligible (s.work w.val).nextStep (s.work w.val).restored = true) →
      Leads (.stepOpen w) s (fun t =>
        t = { s with working := t.working, cuts := t.cuts, fabric := t.fabric } ∧
        t.work w.val = { s.work w.val with isOpen := true, step := (s.work w.val).nextStep } ∧
        (∀ v, v ≠ w.val → t.work v = s.work v) ∧
        (∀ e ∈ s.entriesOf w.val, t.cut e = { CutRun.reset with
          phase := if (s.descOf e).eligible (s.work w.val).nextStep (s.work w.val).restored then .pending else .idle
          desc := s.descOf e, step := (s.work w.val).nextStep }) ∧
        (∀ e, e ∉ s.entriesOf w.val → t.cut e = s.cut e))) ∧
    (s.mayOpen w.val = false → Ignored (.stepOpen w) s) ∧
    (∀ e : Fin 4096, s.mayRerun e.val = true → Leads (.rerun e) s (fun t =>
      t.cut e.val = { CutRun.reset with phase := .pending, step := (s.cut e.val).step, runs := (s.cut e.val).runs,
                                        desc := s.descOf e.val } ∧
      (∀ k, k ≠ e.val → t.cut k = s.cut k) ∧ t.working = s.working ∧ t.tallies = s.tallies ∧ t.log = s.log ∧
      t.glb = s.glb ∧ t.hoists = s.hoists)) ∧
    (∀ e : Fin 4096, s.mayRerun e.val = false → Leads (.rerun e) s (fun t =>
      t = { s with log := t.log } ∧ Logged s t 0x0702 0xFF 0 0x6011C e.val))

/-- R15, R181, R186, R191 to R194, R336, R450: an eligible cut starts, or a check made at its start refuses it. A cut
that starts takes its hoists, its maps as they stand, and a fresh record with the night cycle; a D-cut takes its
benches. A refused one has its status and DETAIL at once, raises CUT_REFUSED, and adds to no tally. A cut whose waits
are met wakes the tiles that it needs; one that may not start yet changes nothing. R190 to R194, R223: a running cut
whose items are published and whose passes and writes are done ends: its record has the final status that its FLAGS
give and the night cycle, its hoists' streams end with it and its DONE tallies rise, and what it held is free. One
that is not done yet brings PROGRESS up to date and runs on. -/
def Obligations.CutsRun : Prop :=
  (∀ (s : State) (i : Image) (e : Fin 4096) (r : StartReads), s.supply = .good → s.image = some i →
     let d := s.descOf e.val
     (s.startable e.val = true → s.tilesRun d = true → s.outranked e.val = false →
       (∀ p ∈ s.startPorts d, (s.port p).st = .up) → s.readsFit i d r = true →
       (s.startRefusal i e.val d r = none → (∃ a, d.area = .u a) → s.healthyDressers ≠ [] → Leads (.cutStart e r) s (fun t =>
         t = { s with cuts := t.cuts, hoists := t.hoists } ∧ (t.cut e.val).phase = .running ∧
         (t.cut e.val).startNc = s.nc ∧ (t.cut e.val).runs = (s.cut e.val).runs + 1 ∧ (t.cut e.val).maps = i.maps ∧
         (t.cut e.val).items = s.seamSlabs d ∧ (∀ k, k ≠ e.val → t.cut k = s.cut k) ∧
         ∀ h ∈ d.hoistList, (t.hoist h).cut = some e.val ∧ (t.hoist h).st = .stream)) ∧
       (s.startRefusal i e.val d r = none → (∃ a, d.area = .d a) → d.kind = 1 →
         (∀ x ∈ s.benchList d, s.benchRetired x.1 (s.physBench x.1 x.2) = false) →
         (∀ n ∈ s.cutFaces d, s.adopted n = false) → Leads (.cutStart e r) s (fun t =>
         (t.cut e.val).phase = .running ∧ (t.cut e.val).startNc = s.nc ∧ (t.cut e.val).step = (s.work d.working).step ∧
         (∀ x ∈ s.benchList d, (t.bench x.1 x.2).cut = some e.val) ∧ t.tallies = s.tallies ∧ t.yard = s.yard ∧
         t.log = s.log ∧ t.glb = s.glb)) ∧
       (∀ x, s.startRefusal i e.val d r = some x → Leads (.cutStart e r) s (fun t =>
         (t.cut e.val).phase = .ended ∧ (t.cut e.val).status = x.status ∧ (t.cut e.val).detailMap = x.detailMap ∧
         (t.cut e.val).detailAux = x.detailAux ∧ (t.cut e.val).startNc = s.nc ∧ (t.cut e.val).endNc = s.nc ∧
         t.glb.evt &&& 4 = 4 ∧ t.tallies = s.tallies ∧ t.hoists = s.hoists ∧ t.benches = s.benches))) ∧
     (s.startable e.val = false ∨ s.tilesRun d = false → d.kind ≠ 6 → d.kind ≠ 2 → s.mayStart e.val = true →
       Leads (.cutStart e r) s (fun t => t = { s with tiles := t.tiles } ∧
         ∀ k ∈ s.startTiles d, (s.clk k = .nap → t.clk k = .wakingNap) ∧ (s.clk k = .off → t.clk k = .wakingOff))) ∧
     (s.mayStart e.val = false → Ignored (.cutStart e r) s)) ∧
  (∀ (s : State) (e : Fin 4096), s.supply = .good →
     let u := s.publish e.val
     (u.cutDone e.val = true → Leads (.cutEnd e) s (fun t =>
       (t.cut e.val).phase = .ended ∧ (t.cut e.val).status = finalStatus (u.cut e.val).flags.toNat ∧
       (t.cut e.val).endNc = s.nc ∧ (t.cut e.val).flags = (u.cut e.val).flags ∧
       t.tallies = ((u.endStreams e.val).doneTallies (u.cut e.val).desc).tallies ∧
       (∀ n b, (u.bench n b).cut = some e.val → (u.bench n b).yielded = none → (t.bench n b).cut = none) ∧
       ∀ h, (t.hoist h).cut ≠ some e.val)) ∧
     (u.cutDone e.val = false → Leads (.cutEnd e) s (fun t => t = u ∧
       t = { s with cuts := t.cuts, tallies := t.tallies, glb := t.glb, log := t.log })))

/-! ### Benches, folds, readouts and buffers -/

/-- R74, R76, R78, R80, R81: what fills a bench. A load sets the idle side's full bit with its tag unless the side is
still held; the scale unit's result waits for the next pass, or starts it at once on a free bench, with its preamble,
its σ_max and the face's checking mode. Every other bench is as before. R15: a cut whose one replay that starts so
had been waited for shows status 0x00 again. -/
def Obligations.BenchFilling : Prop :=
  ∀ (s : State) (n : Fin 72) (b : Fin 4) (e : Nat), s.supply = .good → (s.bench n.val b.val).cut = some e →
    (s.cut e).desc.kind ≠ 3 →
    let x := s.bench n.val b.val
    (∀ (tag : Nat) (load : StatLoad), x.idle.held = false → x.cur.isSome = true →
      Leads (.stationaryLoadFull n b tag load) s (fun t =>
        t = { s with benches := t.benches, tileSlots := t.tileSlots } ∧
        (t.bench n.val b.val).idle.tag = some tag ∧ (t.bench n.val b.val).idle.full = true ∧
        (t.bench n.val b.val).idle.load = load ∧ (t.bench n.val b.val).active = x.active ∧
        (t.bench n.val b.val).cur = x.cur ∧
        ∀ (m : Fin 72) (c : Fin 4), m ≠ n ∨ c ≠ b → t.bench m.val c.val = s.bench m.val c.val)) ∧
    (∀ (tag : Nat) (load : StatLoad), x.idle.held = true → Ignored (.stationaryLoadFull n b tag load) s) ∧
    (∀ (pre : List (List Nat)) (p : PassId) (rest : List PassId), x.work = p :: rest → x.nextSide.tag = some p.tag →
      x.nextSide.full = true →
      (x.cur.isSome = true → Leads (.scaleUnitDone n b pre) s (fun t => t = { s with benches := t.benches } ∧
        t.bench n.val b.val = { x with nextPre := some pre, nextSigma := sigmas (s.cut e).across x.nextSide.load pre } ∧
        ∀ (m : Fin 72) (c : Fin 4), m ≠ n ∨ c ≠ b → t.bench m.val c.val = s.bench m.val c.val)) ∧
      (x.cur = none → x.stopped = false → x.saved = none → (s.cut e).phase = .running → s.blockReady e n.val b.val = true →
        Leads (.scaleUnitDone n b pre) s (fun t =>
          t = { s with benches := t.benches, cuts := t.cuts, faces := t.faces, fabric := t.fabric } ∧
          ((s.cut e).awaiting = [] → t.fabric = s.fabric ∧ (t.cut e).status = (s.cut e).status) ∧
          ((s.cut e).awaiting = [.pass n.val b.val] → (t.cut e).status = 0 ∧ (t.cut e).awaiting = []) ∧
          (t.bench n.val b.val).cur = some p ∧ (t.bench n.val b.val).work = rest ∧
          (t.bench n.val b.val).preamble = pre ∧
          (t.bench n.val b.val).sigma = sigmas (s.cut e).across x.nextSide.load pre ∧
          (t.bench n.val b.val).active.load = x.nextSide.load ∧ (t.bench n.val b.val).pockets = [] ∧
          (t.bench n.val b.val).chk = (s.face n.val).chkMode ∧
          ∀ (m : Fin 72) (c : Fin 4), m ≠ n ∨ c ≠ b → t.bench m.val c.val = s.bench m.val c.val))) ∧
    (∀ (pre : List (List Nat)), x.nextSide.full = false → Ignored (.scaleUnitDone n b pre) s)

/-- R79, R81, R82: at the boundary of a pass its pockets move to the free shadow, unchecked or waiting for its check,
and an unchecked one counts in UNCHK; with the shadow still held the bench freezes as shadow busy, and the cycles
that each cause held it count. A stopped bench has no boundary. R92 to R94: a stopped bench saves its context in its
slot of the CONTEXT region, and nothing else of the yard changes; the work of a retired face may then be adopted
(R380); a bench that runs saves none. A restore, while the cut runs, gives both feeder sides back with their tags,
computes σ_max again and goes on at the saved cursor. -/
def Obligations.PassBoundaries : Prop :=
  (∀ (s : State) (n : Fin 72) (b : Fin 4) (e : Nat) (p : PassId) (shared : List (List Nat)) (frozen : List (Fin 6 × Nat)),
     s.supply = .good → (s.bench n.val b.val).cut = some e → (s.bench n.val b.val).cur = some p →
     let x := s.bench n.val b.val
     let d := x.passData (s.cut e) p shared
     let acc := d.pockets x.pockets (cursorTerms d.types x.group x.pocket) (fun _ => 4096)
     let sh := makeShadow e p d acc x.chk x.active.wide x.span false []
     (x.stopped = false → (s.cut e).phase = .running → x.shadow.isSome = true →
       Leads (.passBoundary n b shared [] frozen) s (fun t =>
         t = { s with benches := t.benches, faces := t.faces } ∧ t.bench n.val b.val = { x with frozen := some 3 } ∧
         (frozen = [] → ∀ m, t.face m = s.face m) ∧
         (∀ m, m ≠ n.val → t.face m = s.face m) ∧
         ∀ (m : Fin 72) (c : Fin 4), m ≠ n ∨ c ≠ b → t.bench m.val c.val = s.bench m.val c.val)) ∧
     (x.stopped = false → (s.cut e).phase = .running → x.shadow = none → s.monitor.armed = [] →
       Leads (.passBoundary n b shared [] frozen) s (fun t =>
         (t.bench n.val b.val).shadow = some sh ∧ (sh.cleared = true ↔ sh.unchecked = true) ∧ sh.drained = false ∧
         (t.face n.val).unchk = (if sh.unchecked then
           Tab.update 0 (s.face n.val).unchk b.val (fun v => min (v + 1) (2 ^ 32 - 1)) else (s.face n.val).unchk) ∧
         (x.work = [] → (t.bench n.val b.val).cur = none) ∧ t.yard = s.yard ∧ t.tallies = s.tallies ∧ t.log = s.log ∧
         t.spare = s.spare ∧
         ∀ (m : Fin 72) (c : Fin 4), m ≠ n ∨ c ≠ b → t.bench m.val c.val = s.bench m.val c.val)) ∧
     (x.stopped = true ∨ (s.cut e).phase ≠ .running → Ignored (.passBoundary n b shared [] frozen) s)) ∧
  (∀ (s : State) (n : Fin 72) (b : Fin 4) (e : Nat) (p : PassId), s.supply = .good →
     (s.bench n.val b.val).cut = some e →
     let x := s.bench n.val b.val
     (∀ (shared : List (List Nat)) (group pocket : Nat), x.cur = some p → x.stopped = true → shared.length ≤ 16 →
       x.active.load.lanes.length ≤ 512 → Leads (.contextSaveDone n b shared group pocket) s (fun t' =>
         ∃ t : State, t' = t.settle n.val ∧ (s.faceGone n.val = false → t' = t) ∧
         t = { s with benches := t.benches, yard := t.yard } ∧
         (t.bench n.val b.val).saved = some p ∧ (t.bench n.val b.val).cur = none ∧
         (t.bench n.val b.val).group = group ∧ (t.bench n.val b.val).pocket = pocket ∧
         (t.bench n.val b.val).stopped = true ∧
         (s.ctxAddr (s.cut e).desc.working n.val b.val = none → t.yard = s.yard) ∧
         (∀ a, s.ctxAddr (s.cut e).desc.working n.val b.val = some a → SameYardOutside s t a 131072) ∧
         ∀ (m : Fin 72) (c : Fin 4), m ≠ n ∨ c ≠ b → t.bench m.val c.val = s.bench m.val c.val)) ∧
     (∀ (shared : List (List Nat)) (group pocket : Nat), x.cur = none ∨ x.stopped = false →
       Ignored (.contextSaveDone n b shared group pocket) s) ∧
     (∀ (active idle : StatLoad) (pre : List (List Nat)), x.saved = some p → (s.cut e).phase = .running →
       Leads (.contextRestoreDone n b active idle pre) s (fun t => t = { s with benches := t.benches } ∧
         (t.bench n.val b.val).cur = some p ∧ (t.bench n.val b.val).saved = none ∧
         (t.bench n.val b.val).stopped = false ∧ (t.bench n.val b.val).pockets = x.pockets ∧
         (t.bench n.val b.val).group = x.group ∧ (t.bench n.val b.val).pocket = x.pocket ∧
         (t.bench n.val b.val).active.tag = x.savedTags.1 ∧ (t.bench n.val b.val).active.load = active ∧
         (t.bench n.val b.val).idle.tag = x.savedTags.2 ∧ (t.bench n.val b.val).idle.load = idle ∧
         (t.bench n.val b.val).sigma = sigmas (s.cut e).across active pre)) ∧
     (∀ (active idle : StatLoad) (pre : List (List Nat)), x.saved = none ∨ (s.cut e).phase ≠ .running →
       Ignored (.contextRestoreDone n b active idle pre) s))

/-- R77, R79, R83, R84, R88, R89: the end of a check. One that passes frees the shadow to fold and the side it held;
one that locates a lane, with a spare lane and a replay left, moves the lane to the spare and replays the pass; one
that locates none retires the bench, with FLAGS bit 12. -/
def Obligations.ChecksEnd : Prop :=
  ∀ (s : State) (n : Fin 72) (b : Fin 4), s.supply = .good →
    let x := s.bench n.val b.val
    let phys := s.physBench n.val b.val
    (x.shadow = none → Ignored (.checkEnd n b) s) ∧
    (∀ sh, x.shadow = some sh →
      (sh.cleared = true → Ignored (.checkEnd n b) s) ∧
      (sh.cleared = false → sh.check (s.freeLanes n.val phys) = .pass → Leads (.checkEnd n b) s (fun t =>
        t = { s with benches := t.benches } ∧
        t.bench n.val b.val = { x with
          shadow := some { sh with cleared := true }, replays := 0
          feedA := { x.feedA with held := false }, feedB := { x.feedB with held := false } } ∧
        ∀ (m : Fin 72) (c : Fin 4), m ≠ n ∨ c ≠ b → t.bench m.val c.val = s.bench m.val c.val)) ∧
      (∀ l, sh.cleared = false → sh.check (s.freeLanes n.val phys) = .located [l] → x.replays < sh.chk.replays →
        0 < s.freeLanes n.val phys → Leads (.checkEnd n b) s (fun t =>
          t.physLane n.val phys l = 512 + Tab.get 0 s.spare.laneUsed (n.val * 5 + phys) ∧
          t.freeLanes n.val phys = s.freeLanes n.val phys - 1 ∧
          (t.bench n.val b.val).shadow = none ∧ (t.bench n.val b.val).replays = x.replays + 1 ∧
          (t.cut sh.cut).replays = min ((s.cut sh.cut).replays + 1) 65535 ∧
          (t.cut sh.cut).flags &&& 0x800#32 = 0x800#32 ∧ t.glb.evt &&& 0x40000#32 = 0x40000#32 ∧
          t.yard = s.yard ∧ t.tallies = s.tallies)) ∧
      (sh.cleared = false → sh.check (s.freeLanes n.val phys) = .unlocated → Leads (.checkEnd n b) s (fun t =>
        t.benchRetired n.val phys = true ∧ (t.cut sh.cut).flags &&& 0x1000#32 = 0x1000#32 ∧ t.yard = s.yard ∧
        t.tallies = s.tallies)))

/-- R57 to R59, R79: a fold. The shadow, checked or unchecked, folds in its turn into its tile: FOLDS rises by one,
the shadow is free, and the one element that a shadow of one pocket names takes the sum, rounded once in G40 and
added in E128. A shadow that has not passed its check folds nothing. R67, R230: a combination of two ranks, once both
are complete, adds their counts into the lower rank's header; it is made once. A promoted partner of a G40 tile gives
its slot up, and any other partner's header stands. The initial fold of a slice is its first. -/
def Obligations.FoldsAdd : Prop :=
  (∀ (s : State) (n : Fin 72) (b : Fin 4) (sh : Shadow) (u : TileRef), s.supply = .good → YardCanonical s →
     (s.bench n.val b.val).shadow = some sh → s.passTile sh.cut n.val sh.pass = some u →
     let h := readHdr s.yard.mem u.hdr
     (sh.cleared = true → (s.cut sh.cut).desc.kind ≠ 3 → s.orderMet sh.cut n.val sh.pass = true →
       s.slotFree sh.cut n.val sh.pass = true → s.initialMet sh.cut sh.pass u = true →
       Leads (.fold n b) s (fun t =>
         (readHdr t.yard.mem u.hdr).folds = min (h.folds + 1) (2 ^ 32 - 1) ∧
         (t.bench n.val b.val).shadow = none ∧ (t.cut sh.cut).passes = (s.cut sh.cut).passes + 1 ∧
         (0 < h.folds → h.folds < 65536 ∨ h.e128 = true ∨ h.longsum = true → h.slot = 0xFFFF →
           ∀ j l v, sh.contributions = [((j, l), v)] → j < u.rows → l < u.cols →
             (u.hdr + 8 ≤ s.elemAt u h j l ∨ s.elemAt u h j l + elemSize h.e128 ≤ u.hdr) →
             t.elemCode u (readHdr t.yard.mem u.hdr) j l = (foldElem h.e128 (s.elemCode u h j l) v).1 ∧
             ∀ a, a < s.elemAt u h j l ∨ s.elemAt u h j l + elemSize h.e128 ≤ a → a < u.hdr ∨ u.hdr + 8 ≤ a →
               Mem.read t.yard.mem a = Mem.read s.yard.mem a))) ∧
     (sh.cleared = false → Ignored (.fold n b) s)) ∧
  (∀ (s : State) (e : Fin 4096) (slice level rank : Nat), s.supply = .good → YardCanonical s →
     let c := s.cut e.val
     let other := rank + 2 ^ (level - 1)
     (∀ u v, 1 ≤ level → level ≤ c.desc.levels → rank % 2 ^ level = 0 → other < c.desc.split → slice < c.desc.slices →
       c.live = true → s.levelDone e.val slice rank (level - 1) = true → s.levelDone e.val slice other (level - 1) = true →
       treeKey slice rank level ∉ c.trees → s.rankTile e.val slice rank = some u → s.rankTile e.val slice other = some v →
       u.hdr + 8 ≤ v.hdr ∨ v.hdr + 8 ≤ u.hdr →
       Leads (.treeCombination e slice level rank) s (fun t =>
         treeKey slice rank level ∈ (t.cut e.val).trees ∧
         (readHdr t.yard.mem u.hdr).folds =
           min ((readHdr s.yard.mem u.hdr).folds + (readHdr s.yard.mem v.hdr).folds) (2 ^ 32 - 1) ∧
         ((readHdr s.yard.mem u.hdr).e128 = false → (readHdr s.yard.mem v.hdr).e128 = true →
           (readHdr t.yard.mem v.hdr).slot = 0xFFFF) ∧
         ((readHdr s.yard.mem u.hdr).e128 = true ∨ (readHdr s.yard.mem v.hdr).e128 = false →
           readHdr t.yard.mem v.hdr = readHdr s.yard.mem v.hdr) ∧
         t.hoists = s.hoists ∧ t.benches = s.benches)) ∧
     (level = 0 ∨ rank % 2 ^ level ≠ 0 ∨ treeKey slice rank level ∈ c.trees →
       Ignored (.treeCombination e slice level rank) s) ∧
     (∀ (values : List (List Nat)) u, c.desc.kind = 2 → c.phase = .running → c.desc.wArea.initMap ≠ 0xFFFF →
       slice < c.desc.slices → s.rankTile e.val slice 0 = some u →
       ((readHdr s.yard.mem u.hdr).folds = 0 → Leads (.initialFoldDone e slice values) s (fun t =>
         (readHdr t.yard.mem u.hdr).folds = 1 ∧ (t.cut e.val).flags &&& 0x1000000#32 = 0x1000000#32 ∧
         t.hoists = s.hoists ∧ t.benches = s.benches)) ∧
       ((readHdr s.yard.mem u.hdr).folds ≠ 0 → Ignored (.initialFoldDone e slice values) s)))

/-- R208, R217, R223: a readout reads the first ready slice of the bench, counts it in the record, resets its header
and completes its item; with none ready nothing happens. A parity error of the derivative tables counts, and once in
a cut it leaves the face in service; with a readout to begin again the cut shows 0x41 until it is done. -/
def Obligations.Readouts : Prop :=
  ∀ (s : State) (n : Fin 72) (b : Fin 4) (es : List ReadElem), s.supply = .good → YardCanonical s →
    (∀ e item m u, s.liveCuts.find? (fun e => (s.cut e).desc.kind == 1 && (s.cut e).phase == .running &&
        (s.readySlice e n.val b.val).isSome) = some e → s.readySlice e n.val b.val = some item →
      (s.cut e).mapOf 2 = some m → s.rankTile e item 0 = some u → (s.cut e).desc.split = 1 →
      Leads (.readoutDone n b es) s (fun t =>
        item ∈ (t.cut e).done ∧ (t.cut e).kd0 = (s.cut e).kd0 + 1 ∧ readHdr t.yard.mem u.hdr = Hdr.reset ∧
        (∀ k, k ≠ e → t.cut k = s.cut k) ∧ t.benches = s.benches ∧
        (.readout n.val ∉ (s.cut e).awaiting → t.fabric = s.fabric ∧ (t.cut e).status = (s.cut e).status) ∧
        ((s.cut e).awaiting = [.readout n.val] → (t.cut e).status = 0))) ∧
    ((∀ e ∈ s.liveCuts, s.readySlice e n.val b.val = none) → Ignored (.readoutDone n b es) s) ∧
    ((∀ e ∈ s.liveCuts, n.val ∉ s.cutFaces (s.cut e).desc) → Leads (.tableParityError n) s (fun t =>
      t = { s with drvPerr := t.drvPerr } ∧ Tab.get 0 t.drvPerr n.val = min (Tab.get 0 s.drvPerr n.val + 1) 65535 ∧
      ∀ m, m ≠ n.val → Tab.get 0 t.drvPerr m = Tab.get 0 s.drvPerr m)) ∧
    (∀ e, s.liveCuts.find? (fun e => (s.cut e).desc.kind == 1 && (s.cut e).phase == .running &&
        (s.cutFaces (s.cut e).desc).contains n.val) = some e → Tab.get 0 (s.cut e).parity n.val = 0 →
      Leads (.tableParityError n) s (fun t => t = { s with drvPerr := t.drvPerr, cuts := t.cuts, fabric := t.fabric } ∧
        Tab.get 0 t.drvPerr n.val = min (Tab.get 0 s.drvPerr n.val + 1) 65535 ∧
        (t.cut e).flags = (s.cut e).flags ||| 0x4000#32 ∧
        (t.cut e).status = (if (List.range 4).any (fun b => (s.readySlice e n.val b).isSome) then 0x41
          else (s.cut e).status) ∧
        Tab.get 0 (t.cut e).parity n.val = 1 ∧ ∀ k, k ≠ e → t.cut k = s.cut k))

/-- R102, R104, R107, R111: a tile takes a slot of its stream's share, with its segments in emission order; a stream
that has its 2, or a buffer with its 4, takes no more. A fault retires the physical buffer, which goes OFF with its
tiles. -/
def Obligations.Buffers : Prop :=
  ∀ s : State, s.supply = .good →
    (∀ (k : Fin 6) (st : TileStream) (fmt : Fin 4) (e : Fin 4096) (rows scales : List (List Nat))
      (stalls : List (Fin 4 × Nat)),
      let j := s.bufPhys k.val
      let ts := Tab.get [] s.tileSlots j
      (∀ o, (s.cut e.val).phase = .running → (s.cut e.val).tileOperand st fmt.val = some (k.val, o) →
        j ∉ s.spare.bufRet → ts.length < 4 → streamTiles ts e.val st < 2 → s.monitor.armed = [] →
        Leads (.tileLoadDone k st fmt e rows scales stalls) s (fun t =>
          t = { s with tileSlots := t.tileSlots, cuts := t.cuts, tpbs := t.tpbs } ∧
          t.tpb j = (s.tpb j).addStalls stalls ∧ (∀ i, i ≠ j → t.tpb i = s.tpb i) ∧
          Tab.get [] t.tileSlots j = ts ++ [TileSlot.mk e.val st ((o.segments rows scales).map Prod.fst)
            ((o.segments rows scales).map Prod.snd)] ∧
          (∀ i, i ≠ j → Tab.get [] t.tileSlots i = Tab.get [] s.tileSlots i) ∧
          (o.narrows = false → t.cuts = s.cuts) ∧
          (o.narrows = true → (t.cut e.val).flags = (s.cut e.val).flags ||| BitVec.ofNat 32 (o.rowFlags rows scales) ∧
            (t.cut e.val).flags &&& 0x100#32 = 0x100#32 ∧ ∀ i, i ≠ e.val → t.cut i = s.cut i))) ∧
      (4 ≤ ts.length ∨ 2 ≤ streamTiles ts e.val st ∨ (s.cut e.val).phase ≠ .running →
        Ignored (.tileLoadDone k st fmt e rows scales stalls) s)) ∧
    (∀ j : Fin 8, j.val ∉ s.spare.bufRet → Leads (.tpbFault j) s (fun t =>
      j.val ∈ t.spare.bufRet ∧ (t.tpb j.val).sumErr = min ((s.tpb j.val).sumErr + 1) 65535 ∧
      (∀ i, i ≠ j.val → t.tpb i = s.tpb i) ∧ Tab.get [] t.tileSlots j.val = [] ∧ t.clk (80 + j.val) = .off ∧
      t.glb.evt &&& 0x40000#32 = 0x40000#32 ∧ t.yard = s.yard ∧ t.tallies = s.tallies)) ∧
    (∀ j : Fin 8, j.val ∈ s.spare.bufRet → Ignored (.tpbFault j) s)

/-! ### Hoists and the stockpile -/

/-- R123, R147, R150, R166, R366: a hoist claims the granules of a transfer, or waits; a line that comes back has
fill beyond its valid bytes, and goes on in stream order alone; a line that comes back with an error is asked for
again, and the fourth error in a row halts the working. R322: an X-cut that reads lines again shows 0x41 meanwhile. -/
def Obligations.HoistReads : Prop :=
  ∀ (s : State) (n : Fin 128) (t₀ t₁ : HoistTmpl) (e : Nat), s.supply = .good →
    (s.hoist n.val).tmpl = some t₀ → s.streamTmpl (s.hoist n.val) = some t₁ → (s.hoist n.val).cut = some e →
    let h := s.hoist n.val
    (∀ (lines : List LinePoint) (sm : MapDesc), s.hoistView (s.cut e) h false = some sm → h.st ≠ .stopped →
      h.ended = false → 0 < granulesOf lines.length → granulesOf lines.length ≤ t₁.tsize → h.parked = [] →
      (s.canClaim h (granulesOf lines.length) = false → Leads (.hoistClaim n lines) s (fun t =>
        t = { s with hoists := t.hoists } ∧ t.hoist n.val = { h with st := .claim } ∧
        ∀ k, k ≠ n.val → t.hoist k = s.hoist k)) ∧
      (s.canClaim h (granulesOf lines.length) = true → Leads (.hoistClaim n lines) s (fun t =>
        t = { s with hoists := t.hoists, yard := t.yard } ∧
        (t.hoist n.val).occ = h.occ + granulesOf lines.length ∧
        (t.hoist n.val).nextSeq = h.nextSeq + lines.length ∧
        (t.hoist n.val).reqs.length = h.reqs.length + lines.length ∧
        (t₀.dst ≠ 1 → t.yard = s.yard) ∧ ∀ k, k ≠ n.val → t.hoist k = s.hoist k))) ∧
    (∀ lines : List LinePoint, h.st = .stopped ∨ h.ended = true ∨ h.parked ≠ [] → Ignored (.hoistClaim n lines) s) ∧
    (∀ (seq : Nat) (data : List Byte) (q : LineReq), h.waitingFor seq = some q →
      Leads (.fabricReadReturn n seq data) s (fun t =>
        t = { s with hoists := t.hoists, yard := t.yard, cuts := t.cuts, fabric := t.fabric } ∧
        ((∀ k, .lines n.val k ∉ (s.cut e).awaiting) → t.cuts = s.cuts ∧ t.fabric = s.fabric) ∧
        (∃ r ∈ (t.hoist n.val).reqs, r.seq = seq ∧ r.data = some (data.take q.valid ++ q.fill.drop q.valid) ∧
          r.errors = 0) ∧
        ((∀ r ∈ h.reqs, r.seq = h.deliver → r.data = none) → seq ≠ h.deliver →
          (t.hoist n.val).deliver = h.deliver ∧ t.yard = s.yard ∧ (t.hoist n.val).out = h.out) ∧
        ∀ k, k ≠ n.val → t.hoist k = s.hoist k)) ∧
    (∀ (seq : Nat) (data : List Byte), h.waitingFor seq = none →
      Ignored (.fabricReadReturn n seq data) s ∧ Ignored (.fabricReadError n seq) s) ∧
    (∀ (seq : Nat) (q : LineReq), h.waitingFor seq = some q → s.fedPasses h = [] →
      (q.errors < 3 → Leads (.fabricReadError n seq) s (fun t =>
        t = { s with hoists := t.hoists, cuts := t.cuts, fabric := t.fabric } ∧
        ((s.cut e).desc.kind ≠ 5 ∨ h.out ≠ [] → t.cuts = s.cuts ∧ t.fabric = s.fabric) ∧
        ((s.cut e).desc.kind = 5 → h.out = [] → (t.cut e).status = 0x41 ∧ .lines n.val (seq + 1) ∈ (t.cut e).awaiting) ∧
        t.hoist n.val = { h.modReq seq (fun r => { r with errors := r.errors + 1 }) with
          errRd := min (h.errRd + 1) 255 } ∧ ∀ k, k ≠ n.val → t.hoist k = s.hoist k)) ∧
      (3 ≤ q.errors → Leads (.fabricReadError n seq) s (fun t =>
        (t.work (s.cut e).desc.working).seq = .halted ∧ (t.hoist n.val).errRd = min (h.errRd + 1) 255 ∧
        Raised s t 5 ∧ Logged s t 0x0205 (s.cut e).desc.working 0 7 (q.addr.getD 0) ∧ t.yard = s.yard ∧
        t.tallies = s.tallies)))

/-- R147, R151, R153, R167, R367: a write acknowledged is in fabric memory, byte for byte, and nothing else there
changes; one that failed is issued again, up to three times, each byte holding its old or its written value (log
entry 4); the fourth error halts the working. A receiver takes its next granule; a stream that has ended counts in
its tally. -/
def Obligations.HoistWrites : Prop :=
  ∀ (s : State) (n : Fin 128), s.supply = .good →
    let h := s.hoist n.val
    (∀ (w : LineWrite) (rest : List LineWrite), h.out = w :: rest →
      Leads (.fabricWriteAck n) s (fun t =>
        FabricWritten s t w.addr w.bytes ∧ (t.hoist n.val).out = rest ∧ (t.hoist n.val).bytes = h.bytes + w.bytes.length ∧
        (∀ k, k ≠ n.val → t.hoist k = s.hoist k) ∧ t.yard = s.yard ∧
        (h.cut = none → t = { s with hoists := t.hoists, fabric := t.fabric })) ∧
      (w.errors < 3 → Leads (.fabricWriteError n) s (fun t =>
        t = { s with hoists := t.hoists, fabric := t.fabric, fresh := s.fresh + w.bytes.length } ∧
        t.hoist n.val = { h with errWr := min (h.errWr + 1) 255, out := { w with errors := w.errors + 1 } :: rest } ∧
        (∀ k, k ≠ n.val → t.hoist k = s.hoist k) ∧
        ∀ b, t.fabricByte b = s.fabricByte b ∨
          (w.addr ≤ b ∧ b < w.addr + w.bytes.length ∧ t.fabricByte b = some (nth 0 w.bytes (b - w.addr))))) ∧
      (∀ e, 3 ≤ w.errors → h.cut = some e → (∀ m ∈ s.seams, m.2.phase ≠ .evicting) →
        Leads (.fabricWriteError n) s (fun t => (t.work (s.descOf e).working).seq = .halted ∧ Raised s t 5 ∧
          Logged s t 0x0205 (s.descOf e).working 0 7 w.addr ∧ t.seams = s.seams ∧ t.tallies = s.tallies))) ∧
    (h.out = [] → Ignored (.fabricWriteAck n) s ∧ Ignored (.fabricWriteError n) s) ∧
    (∀ r : Fin 16, h.cut.isSome = true → h.st ≠ .stopped → h.takes r.val = true → r.val < h.taken.length →
      (h.refused r.val = false → h.granuleReady (h.pos1 r.val) = true → Leads (.receiverTake n r) s (fun t =>
        t = { s with hoists := t.hoists } ∧ (t.hoist n.val).pos1 r.val = h.pos1 r.val + 1 ∧
        (∀ k, k ≠ r.val → (t.hoist n.val).pos1 k = h.pos1 k) ∧ (t.hoist n.val).occ ≤ h.occ ∧
        ∀ k, k ≠ n.val → t.hoist k = s.hoist k)) ∧
      (h.refused r.val = true ∨ h.granuleReady (h.pos1 r.val) = false → Ignored (.receiverTake n r) s)) ∧
    (∀ t₀ : HoistTmpl, h.tmpl = some t₀ → h.cut.isSome = true → h.ended = false → h.st ≠ .stopped → h.source = none →
      h.drained = true → h.detachedTo = [] →
      (t₀.doneTally = 0xFFFF ∨ s.tally t₀.doneTally + 1 < 2 ^ 64) → Leads (.streamEnd n) s (fun t =>
        t = { s with hoists := t.hoists, tallies := t.tallies } ∧
        (t.hoist n.val).ended = true ∧ (t.hoist n.val).st = .idle ∧ (t.hoist n.val).occ = 0 ∧
        (t.hoist n.val).reqs = [] ∧ (t.hoist n.val).cut = h.cut ∧
        (t₀.doneTally = 0xFFFF → t.tallies = s.tallies) ∧
        (t₀.doneTally ≠ 0xFFFF → t.tally t₀.doneTally = s.tally t₀.doneTally + 1 ∧
          ∀ i, i ≠ t₀.doneTally → t.tally i = s.tally i) ∧
        ∀ k, k ≠ n.val → t.hoist k = s.hoist k)) ∧
    (h.ended = true ∨ h.cut = none → Ignored (.streamEnd n) s)

/-- R154 to R156, R161, R171: a receiver that holds up a stream goes over to its detach hoist, which reads the stream
again from where the receiver stands; a transfer that finds no room is parked in the spill area, in order, and comes
back in order (layout: log entry 16); a corrected stockpile word is counted, and an uncorrectable one makes a read
stream read its lines again. -/
def Obligations.DetachAndSpill : Prop :=
  ∀ (s : State) (n : Fin 128) (t₀ : HoistTmpl), s.supply = .good → (s.hoist n.val).tmpl = some t₀ →
    let h := s.hoist n.val
    (∀ r e, h.cut = some e → t₀.detachEn = true → h.st ≠ .stopped → (∃ x ∈ h.attachedList, h.refused x = true) →
      h.attachedList.filter (fun x => h.pos1 x == h.posMin && bit t₀.detachMask x) = [r] →
      (s.hoist (t₀.detachHoist r)).isIdle = true → t₀.detachHoist r ≠ n.val → Leads (.detach n) s (fun t =>
        let d := t.hoist (t₀.detachHoist r)
        t = { s with hoists := t.hoists, cuts := t.cuts, log := t.log } ∧
        d.cut = some e ∧ d.source = some n.val ∧ d.taken = [h.pos1 r] ∧ d.nextSeq = h.pos1 r * 64 ∧ d.st = .stream ∧
        (t.hoist n.val).attached = clrBit h.attached r ∧ (t.hoist n.val).timer = 0 ∧
        (t.hoist n.val).detaches = min (h.detaches + 1) 65535 ∧
        (t.cut e).detaches = min ((s.cut e).detaches + 1) 65535 ∧ (∀ k, k ≠ e → t.cut k = s.cut k) ∧
        Logged s t (Config.unnamedCode 6) 0xFF 0 n.val r)) ∧
    (t₀.detachEn = false ∨ (∀ x ∈ h.attachedList, h.refused x = false) → Ignored (.detach n) s) ∧
    (∀ (e base len : Nat) (data : List Byte), h.cut = some e → s.spillArea t₀ = some (base, len) → t₀.spillHoist ≠ n.val →
      let held := (h.parked.map List.length).sum
      (t₀.spillEn = true → (s.cut e).desc.release = true → h.st ≠ .stopped → held + data.length ≤ len →
        (h.parked ≠ [] ∨ s.canClaim h (granulesOf (ceilDiv data.length 64)) = false) →
        Leads (.spillPark n data) s (fun t => t = { s with hoists := t.hoists } ∧
          t.hoist n.val = { h with parked := h.parked ++ [data], parkedCount := min (h.parkedCount + 1) (2 ^ 32 - 1) } ∧
          (t.hoist t₀.spillHoist).out = (s.hoist t₀.spillHoist).out ++ linesAt 0 (base + held) data ∧
          ∀ k, k ≠ n.val → k ≠ t₀.spillHoist → t.hoist k = s.hoist k)) ∧
      (t₀.spillEn = false ∨ len < held + data.length → Ignored (.spillPark n data) s)) ∧
    (∀ (d : List Byte) (rest : List (List Byte)), h.parked = d :: rest → h.st ≠ .stopped →
      let g := granulesOf (ceilDiv d.length 64)
      (s.canClaim h g = true → Leads (.spillReadback n) s (fun t => t = { s with hoists := t.hoists, yard := t.yard } ∧
        (t.hoist n.val).parked = rest ∧ (t.hoist n.val).occ = h.occ + g ∧
        (t.hoist n.val).nextSeq = h.nextSeq + ceilDiv d.length 64 ∧ ∀ k, k ≠ n.val → t.hoist k = s.hoist k)) ∧
      (s.canClaim h g = false → Ignored (.spillReadback n) s)) ∧
    (h.parked = [] → Ignored (.spillReadback n) s) ∧
    Leads (.stockpileEccError n false) s (fun t => t = { s with hoists := t.hoists } ∧
      t.hoist n.val = { h with spCorr := min (h.spCorr + 1) 255 } ∧ ∀ k, k ≠ n.val → t.hoist k = s.hoist k) ∧
    (h.cut = none → Leads (.stockpileEccError n true) s (fun t => t = { s with hoists := t.hoists } ∧
      t.hoist n.val = { h with spUncorr := min (h.spUncorr + 1) 255 } ∧ ∀ k, k ≠ n.val → t.hoist k = s.hoist k)) ∧
    (∀ e, h.cut = some e → h.out = [] → s.fedPasses h = [] → Leads (.stockpileEccError n true) s (fun t =>
      t = { s with hoists := t.hoists, cuts := t.cuts, fabric := t.fabric } ∧
      ((s.cut e).desc.kind ≠ 5 → t.cuts = s.cuts ∧ t.fabric = s.fabric) ∧
      ((s.cut e).desc.kind = 5 → (t.cut e).status = 0x41) ∧
      (t.hoist n.val).spUncorr = min (h.spUncorr + 1) 255 ∧
      (∀ q ∈ (t.hoist n.val).reqs, q.addr.isSome = true → q.data = none) ∧
      ∀ k, k ≠ n.val → t.hoist k = s.hoist k))

/-! ### Seams, attention backward, dressers -/

/-- R235, R236, R243: the eviction of a held seam. A W-cut that may start takes its spill hoist and hands it every
element of the seam; the seam is on its way to the backing area, and HELD is set. Once the last write is acknowledged
the seam stands evicted, the hoist is free, and the W-cut goes on to start. -/
def Obligations.SeamEviction : Prop :=
  ∀ (s : State) (e : Fin 4096) (r : StartReads), s.supply = .good →
    let d := s.descOf e.val
    let h := nth 0xFFFF d.hoists 4
    (∀ id m bm, d.kind = 2 → s.mayStart e.val = true → (s.hoist h).isIdle = true → s.drainsSeams = false →
      s.evictable d = some (id, m) → s.backingMap m.region = some bm → Leads (.evictionStart e) s (fun t =>
        t = { s with cuts := t.cuts, seams := t.seams, hoists := t.hoists } ∧
        Tab.find t.seams id = some { m with phase := .evicting, evictor := some e.val } ∧
        (∀ k, k ≠ id → Tab.find t.seams k = Tab.find s.seams k) ∧ (t.hoist h).cut = some e.val ∧
        (t.hoist h).out = (s.hoist h).out ++ s.evictWrites m bm ∧ (∀ k, k ≠ h → t.hoist k = s.hoist k) ∧
        (t.cut e.val).flags = (s.cut e.val).flags ||| 0x4000000#32 ∧ (∀ k, k ≠ e.val → t.cut k = s.cut k))) ∧
    (s.mayStart e.val = false ∨ s.evictable d = none → Ignored (.evictionStart e) s) ∧
    (∀ id m, s.seams.find? (fun x => x.2.phase == .evicting && x.2.evictor == some e.val) = some (id, m) →
      Tab.find s.seams id = some m → (s.hoist h).out = [] → s.drainsSeams = false →
      Leads (.evictionDone e r) s (fun t => ∃ u : State,
        u = { s with yard := u.yard, slots := u.slots, seams := u.seams, cuts := u.cuts, hoists := u.hoists } ∧
        Tab.find u.seams id = some { m with phase := .evicted, evictor := none } ∧ (u.hoist h).cut = none ∧
        (u.cut e.val).flags = (s.cut e.val).flags ||| 0x2000000#32 ∧ t = u.cutStart e.val r)) ∧
    ((∀ x ∈ s.seams, x.2.phase ≠ .evicting) ∨ (s.hoist h).out ≠ [] → Ignored (.evictionDone e r) s)

/-- R77, R79, R245, R248 to R252, R277: the kiln. A pocket of a stage 1 shadow comes back as P, one of stage 3 as dS,
and 0 where the mask or a segment keeps the pair out; it waits while the idle side is held. A stage's shadow is free
once every pocket is back. A parity error counts, and once in a cut it leaves the face in service; the benches in a
stage of the kiln begin it again, and the cut shows 0x41 until they have (R15). -/
def Obligations.Kilns : Prop :=
  ∀ (s : State) (n : Fin 72) (b : Fin 4), s.supply = .good → s.monitor.armed = [] →
    let key := n.val * 4 + b.val
    (∀ sh a base (l : Fin 512) (j : Fin 16) (pair : KilnPair), (s.bench n.val b.val).shadow = some sh →
      (s.cut sh.cut).desc.area = .a a → s.stagingBase (s.cut sh.cut).desc a n.val b.val = some base →
      (s.cut sh.cut).phase = .running →
      let q := sh.pass.sub * 16 + j.val
      let g := (Tab.get Pocket.zero sh.pockets (pocketKey j.val l.val)).val
      ((s.bench n.val b.val).idle.held = false → sh.pass.stage = 1 → Leads (.kilnResult n b l j pair) s (fun t =>
        t = { s with kilns := t.kilns, benches := t.benches, yard := t.yard } ∧
        Tab.find (Tab.get Kiln.reset t.kilns key).byKey (l.val * 4096 + q) =
          some (kilnP (s.kilnTable a n.val b.val) a pair g).1.code ∧
        (a.keeps pair = false → Tab.find (Tab.get Kiln.reset t.kilns key).byKey (l.val * 4096 + q) = some 0) ∧
        pocketKey j.val l.val ∈ (Tab.get Kiln.reset t.kilns key).seen ∧
        ∀ i, i ≠ key → Tab.get Kiln.reset t.kilns i = Tab.get Kiln.reset s.kilns i)) ∧
      ((s.bench n.val b.val).idle.held = false → sh.pass.stage = 3 → Leads (.kilnResult n b l j pair) s (fun t =>
        t = { s with kilns := t.kilns, benches := t.benches, yard := t.yard } ∧
        Tab.find (Tab.get Kiln.reset t.kilns key).byKey (l.val * 4096 + q) =
          some (kilnDS a pair ((s.arun sh.cut).deltaOf a sh.pass.item q pair.row)
            (s.stagedP base (2 ^ a.qbLog2) q l.val) g).code ∧
        pocketKey j.val l.val ∈ (Tab.get Kiln.reset t.kilns key).seen)) ∧
      ((s.bench n.val b.val).idle.held = true → Ignored (.kilnResult n b l j pair) s)) ∧
    (∀ sh, (s.bench n.val b.val).shadow = some sh →
      (sh.cleared = true → kilnStage sh.pass = true → (s.cut sh.cut).desc.kind = 3 → s.kilnAll n.val b.val sh = true →
        Leads (.kilnDrainDone n b) s (fun t =>
          t = { s with benches := t.benches, kilns := t.kilns, cuts := t.cuts, faces := t.faces, fabric := t.fabric } ∧
          ((s.cut sh.cut).awaiting = [] → (s.bench n.val b.val).cut = some sh.cut → t.fabric = s.fabric) ∧
          (t.bench n.val b.val).shadow = none ∧ (t.cut sh.cut).passes = (s.cut sh.cut).passes + 1 ∧
          (Tab.get Kiln.reset t.kilns key).seen = [])) ∧
      (sh.cleared = false ∨ s.kilnAll n.val b.val sh = false → Ignored (.kilnDrainDone n b) s)) ∧
    ((∀ e ∈ s.liveCuts, n.val ∉ s.cutFaces (s.cut e).desc) → Leads (.kilnParityError n) s (fun t =>
      t = { s with klnPerr := t.klnPerr } ∧ Tab.get 0 t.klnPerr n.val = min (Tab.get 0 s.klnPerr n.val + 1) 65535 ∧
      ∀ m, m ≠ n.val → Tab.get 0 t.klnPerr m = Tab.get 0 s.klnPerr m)) ∧
    (∀ e, s.liveCuts.find? (fun e => (s.cut e).desc.kind == 3 && (s.cut e).phase == .running &&
        (s.cutFaces (s.cut e).desc).contains n.val) = some e → Tab.get 0 (s.cut e).parity n.val = 0 →
      Leads (.kilnParityError n) s (fun t =>
        Tab.get 0 t.klnPerr n.val = min (Tab.get 0 s.klnPerr n.val + 1) 65535 ∧
        (t.cut e).flags &&& 0x4000#32 = 0x4000#32 ∧ Tab.get 0 (t.cut e).parity n.val = 1 ∧
        ((∀ b < 4, (s.bench n.val b).cut = some e → (s.bench n.val b).restages = false) →
          (t.cut e).status = (s.cut e).status ∧ t.benches = s.benches) ∧
        ((∃ b < 4, (s.bench n.val b).cut = some e ∧ (s.bench n.val b).restages = true) →
          (∀ p, kilnStage p = true → floatPath ((s.cut e).passTypes p) = false) → (t.cut e).status = 0x41) ∧
        t.yard = s.yard ∧ t.tallies = s.tallies ∧ t.log = s.log))

/-- R253, R259, R263: the row sums of a row are made once, rounded to FP32 and used; the page walker copies the next
page of its schedule, and only where it fits the prefetch area beside those not yet released. R271 to R274, R304:
arrivals on the ring. A visiting block is taken off its channel; one that agrees with the cut lands in the slot of
its round, one that does not ends the cut with 0x50. A partial is kept until its tile takes it, or is the chip's own
return; one that has been folded is not taken twice. The layouts are log entry 22's. -/
def Obligations.AttentionPages : Prop :=
  (∀ (s : State) (e : Fin 4096) (a : AArea), s.supply = .good → (s.cut e.val).desc.area = .a a →
     (s.cut e.val).phase = .running →
     let r := s.arun e.val
     (∀ (row : Nat) (qs : List DeltaQuery) (x : Nat × Nat × Nat), a.deltaMake = true → row < r.rows a →
       rowOf a.heads a.qbLog2 r.seqs 0 row = some x →
       (Tab.find r.delta row = none → Leads (.deltaMakeDone e row qs) s (fun t =>
         Tab.find (t.arun e.val).delta row =
           some (qs.map (fun q => (deltaOfQuery ((s.cut e.val).typeOf 4) ((s.cut e.val).typeOf 5) q).1.code)) ∧
         (∀ k, k ≠ row → Tab.find (t.arun e.val).delta k = Tab.find r.delta k) ∧
         (t.cut e.val).flags &&& 0x4000000#32 = 0x4000000#32 ∧ t.tallies = s.tallies ∧ t.log = s.log)) ∧
       (Tab.find r.delta row ≠ none → Ignored (.deltaMakeDone e row qs) s)) ∧
     (∀ (page : Nat) (data : List Byte) (waited base len : Nat), s.prefetchArea e.val = some (base, len) →
       let size := (nth default (Tab.get [] r.pages 0) page).allBytes a
       let held := (r.prefetch.map Prod.snd).sum
       (r.nextPage = some page → data.length = size → held + size ≤ len → Leads (.pageCopy e page data waited) s (fun t =>
         (t.arun e.val).copied = page :: r.copied ∧ (t.arun e.val).prefetch = r.prefetch ++ [(page, size)] ∧
         (t.arun e.val).pfHead = (r.pfHead + size) % max len 1 ∧
         (t.cut e.val).flags &&& 0x8000000#32 = 0x8000000#32 ∧
         (t.cut e.val).pfStall = min ((s.cut e.val).pfStall + waited) (2 ^ 32 - 1) ∧ t.yard = s.yard ∧ t.tallies = s.tallies)) ∧
       (r.nextPage ≠ some page ∨ len < held + size → Ignored (.pageCopy e page data waited) s))) ∧
  (∀ (s : State) (e : Fin 4096) (a : AArea), s.supply = .good → (s.cut e.val).desc.area = .a a →
     (s.cut e.val).phase = .running →
     let r := s.arun e.val
     (∀ (header data : List Byte), 1 < a.ring → r.waitingBlock = [] →
       let pages := decodePages (data.take (field header 12 4))
       (headerFits a r.landed header = true → r.landed < a.ring → (∀ p ∈ pages, a.allowNarrow = true ∨ widerThan p.fmt a.qfmt = false) →
         Tab.find r.slots (r.landed % 2) = none → (s.slotArea e.val (r.landed % 2)).isSome = true →
         Leads (.ringBlockArrive e header data) s (fun t =>
           (t.arun e.val).landed = r.landed + 1 ∧ (t.cut e.val).phase = .running ∧
           ((t.port a.portPrev).chan a.vcKv).rx =
             (((s.port a.portPrev).chan a.vcKv).rx).drop (throughTail ((s.port a.portPrev).chan a.vcKv).rx) ∧
           t.working = s.working)) ∧
       (headerFits a r.landed header = false ∨ a.ring ≤ r.landed → Leads (.ringBlockArrive e header data) s (fun t =>
         (t.cut e.val).phase = .ended ∧ (t.cut e.val).status = 0x50))) ∧
     (∀ (round k : Nat) (vs : List (List Nat)), 1 < a.ring →
       let o := r.tileBase a round + k
       (1 ≤ round → round < a.ring → round < r.landed → k < r.tilesIn a round → o ∉ r.folded →
         Leads (.ringPartialArrive e round k vs) s (fun t =>
           (o ∈ (t.arun e.val).folded ∨ Tab.find (t.arun e.val).partials o = some vs) ∧ (t.cut e.val).phase = .running)) ∧
       (round = a.ring → k < r.tilesIn a 0 → k ∉ r.returned → Leads (.ringPartialArrive e round k vs) s (fun t =>
         k ∈ (t.arun e.val).returned ∧ (t.cut e.val).phase = .running)) ∧
       (round = 0 ∨ a.ring < round ∨ round < a.ring ∧ o ∈ r.folded ∨ round = a.ring ∧ k ∈ r.returned →
         Ignored (.ringPartialArrive e round k vs) s)) ∧
     (∀ (header data : List Byte) (round o : Nat) (vs : List (List Nat)), a.ring ≤ 1 →
       Ignored (.ringBlockArrive e header data) s ∧ Ignored (.ringPartialArrive e round o vs) s))

/-- R283, R288, R291, R294, R297, R381, R391, R429: a dresser ends a slab: it counts, and the slab is complete, or
its writes wait for a drain that still has to read what they overwrite. A slab fault replays the slab; a dresser's
moves it to the next dresser, and a second one in the cut retires the dresser. -/
def Obligations.Dressers : Prop :=
  ∀ (s : State) (e : Fin 4096) (d : Fin 4) (slab : Nat), s.supply = .good → (s.cut e.val).desc.kind = 4 →
    (s.cut e.val).phase = .running → s.slabDresser e.val slab = some d.val →
    let c := s.cut e.val
    (∀ elems : List DressElem, slab < s.seamSlabs c.desc → slab ∉ c.done → s.running (88 + d.val) = true →
      (s.unit 5 d.val).busy = none → s.earlierSlabs e.val d.val slab = true →
      elems.length = min 4096 (s.seamSize c.desc - slab * 4096) →
      (s.drainsBuffer e.val (1 - c.desc.readBuffer c.step) = false → Leads (.slabDone e d slab elems) s (fun t =>
        slab ∈ (t.cut e.val).done ∧ (t.unit 5 d.val).count = (s.unit 5 d.val).count + 1 ∧
        (t.unit 5 d.val).busy = none ∧ (t.cut e.val).kd1 % 65536 = min (c.kd1 % 65536 + 1) 65535 ∧
        (∀ k, k ≠ e.val → t.cut k = s.cut k) ∧ t.yard = s.yard ∧ t.snap = s.snap ∧ t.fabric = s.fabric)) ∧
      (s.drainsBuffer e.val (1 - c.desc.readBuffer c.step) = true → Leads (.slabDone e d slab elems) s (fun t =>
        (∃ x, t.snap = { s.snap with waiting := s.snap.waiting ++ [x] } ∧ x.entry = e.val ∧ x.slab = slab ∧ x.since = s.nc) ∧
        (t.unit 5 d.val).busy = some e.val ∧ (t.cut e.val).done = c.done ∧
        (t.cut e.val).flags &&& 0x4000000#32 = 0x4000000#32 ∧ t.hoists = s.hoists ∧ t.tallies = s.tallies))) ∧
    (∀ elems : List DressElem, slab ∈ c.done ∨ s.running (88 + d.val) = false → Ignored (.slabDone e d slab elems) s) ∧
    (slab ∉ c.done → Leads (.slabFault e d slab false) s (fun t => t = { s with cuts := t.cuts, fabric := t.fabric } ∧
      (t.cut e.val).flags = c.flags ||| 0x4000#32 ∧ (t.cut e.val).status = 0 ∧ (t.cut e.val).done = c.done ∧
      ∀ k, k ≠ e.val → t.cut k = s.cut k)) ∧
    (∀ x, slab ∉ c.done → (s.unit 5 d.val).cutFaults ≠ e.val + 1 → nextDresser (s.dressersOf c.desc.uArea) d.val = some x →
      Leads (.slabFault e d slab true) s (fun t =>
        t = { s with cuts := t.cuts, fabric := t.fabric, units := t.units } ∧
        (t.unit 5 d.val).faults = min ((s.unit 5 d.val).faults + 1) 255 ∧
        (t.unit 5 d.val).retired = (s.unit 5 d.val).retired ∧ Tab.find (t.cut e.val).moved slab = some x ∧
        (t.cut e.val).status = 0)) ∧
    (slab ∉ c.done → (s.unit 5 d.val).cutFaults = e.val + 1 → (s.unit 5 d.val).retired = false →
      Leads (.slabFault e d slab true) s (fun t => (t.unit 5 d.val).retired = true ∧ 80 + d.val ∈ t.spare.unitRet ∧
        t.yard = s.yard ∧ t.tallies = s.tallies)) ∧
    (slab ∈ c.done → Ignored (.slabFault e d slab false) s ∧ Ignored (.slabFault e d slab true) s) ∧
    (∀ x, s.snap.waiting.filter (fun y => y.entry == e.val && y.slab == slab) = [x] → slab ∉ c.done →
      Leads (.drainWaitEnd e slab) s (fun t =>
        t.snap = { s.snap with waiting := s.snap.waiting.filter (fun y => !(y.entry == e.val && y.slab == slab)) } ∧
        slab ∈ (t.cut e.val).done ∧ (t.unit 5 d.val).busy = none ∧
        (t.cut e.val).kd3 = min (c.kd3 + (s.nc - x.since)) (2 ^ 32 - 1) ∧ t.yard = s.yard)) ∧
    ((∀ x ∈ s.snap.waiting, x.entry ≠ e.val ∨ x.slab ≠ slab) → Ignored (.drainWaitEnd e slab) s)

/-! ### The link layer, X-cuts, modules -/

/-- R299, R300: every frame that a port can send is read back from its 256 bytes as it was: channel, type, TAIL, SEQ,
ACK, credit and payload, with a CRC that matches. -/
def Obligations.FramesReadBack : Prop :=
  ∀ f : FrameView, f.vc < 8 → f.type < 4 → f.seq < 2 ^ 24 → f.ack < 2 ^ 24 → f.credVc < 8 → f.credTotal < 65536 →
    f.payload.length ≤ 240 → (frameBytes f).length = 256 ∧ readFrame (frameBytes f) = some f

/-- R299 to R301, R304, R305: what a port that is trained puts in its next frame slot: a RETRY that it owes, else a
control message, else a DATA frame of the next channel that has data and credit, else IDLE. DATA and CONTROL take the
next SEQ and stay in the replay buffer; RETRY and IDLE do not. R300, R302, R304: what a trained port does with a
frame. One whose CRC fails, or whose SEQ is not the one expected, is discarded and RETRY is owed; a CONTROL frame
waits to be read; a DATA frame reaches its channel; a RETRY makes the replay buffer go out again from its oldest
frame. -/
def Obligations.FramesPass : Prop :=
  (∀ (s : State) (p : Fin 4), s.supply = .good → s.monitor.armed = [] →
     let q := s.port p.val
     let view := fun (vc type : Nat) (tail : Bool) (seq : Nat) (payload : List Byte) (cr : Nat) =>
       frameBytes { vc := vc, type := type, tail := tail, seq := seq, ack := q.rxNext, credVc := q.credTurn,
                    credTotal := cr, payload := payload }
     let cred := (q.chan q.credTurn).freed
     (q.st.linked = false ∨ q.trained = false → Ignored (.frameSend p) s) ∧
     (q.st.linked = true → q.trained = true → q.retry = true → Leads (.frameSend p) s (fun t =>
       (t.port p.val).lastTx = view 0 3 false 0 [] cred ∧ (t.port p.val).retry = false ∧
       (t.port p.val).retryTx = min (q.retryTx + 1) (2 ^ 32 - 1) ∧ (t.port p.val).txNext = q.txNext ∧
       (t.port p.val).replay = q.replay ∧ ∀ k, k ≠ p.val → t.port k = s.port k)) ∧
     (∀ msg rest, q.st.linked = true → q.trained = true → q.retry = false → q.room = true → q.txCtl = msg :: rest →
       Leads (.frameSend p) s (fun t => t = { s with ports := t.ports } ∧
         (t.port p.val).lastTx = view 7 2 false q.txNext msg cred ∧ (t.port p.val).txNext = nextSeq q.txNext ∧
         (t.port p.val).replay = q.replay ++ [{ vc := 7, type := 2, tail := false, seq := q.txNext, payload := msg }] ∧
         (t.port p.val).txCtl = rest ∧ ∀ k, k ≠ p.val → t.port k = s.port k)) ∧
     (∀ v, q.st = .up → q.trained = true → q.retry = false → q.room = true → q.txCtl = [] → q.resend = none →
       s.dataSlot p.val = true → s.nextChannel p.val = some v →
       (∀ x xs, (q.chan v).tx = x :: xs → (s.cut x.cut).desc.kind ≠ 3) → Leads (.frameSend p) s (fun t =>
         let r := takeTx 240 (q.chan v).tx
         t = { s with ports := t.ports } ∧ (t.port p.val).txNext = nextSeq q.txNext ∧
         (t.port p.val).replay = q.replay ++ [{ vc := v, type := 1, tail := r.2.1, seq := q.txNext, payload := r.1 }] ∧
         ((t.port p.val).chan v).tx = r.2.2 ∧ ((t.port p.val).chan v).sent = (q.chan v).sent + 1 ∧
         (t.port p.val).lastTx = view v 1 r.2.1 q.txNext r.1 cred ∧ (t.port p.val).turn = (v + 1) % 8 ∧
         ∀ k, k ≠ p.val → t.port k = s.port k)) ∧
     (q.st.linked = true → q.trained = true → q.retry = false → q.txCtl = [] → q.resend = none →
       (q.st ≠ .up ∨ q.room = false ∨ s.dataSlot p.val = false ∨ s.nextChannel p.val = none) → Leads (.frameSend p) s (fun t =>
         t = { s with ports := t.ports } ∧ (t.port p.val).lastTx = view 0 0 false 0 [] cred ∧
         (t.port p.val).txNext = q.txNext ∧ (t.port p.val).replay = q.replay ∧ ∀ k, k ≠ p.val → t.port k = s.port k)) ∧
     (q.waiting = true → Leads (.retryRepeat p) s (fun t => t = { s with ports := t.ports } ∧
       t.port p.val = { q with retry := true } ∧ ∀ k, k ≠ p.val → t.port k = s.port k)) ∧
     (q.waiting = false → Ignored (.retryRepeat p) s)) ∧
  (∀ (s : State) (p : Fin 4) (bs : List Byte), s.supply = .good →
     let q := s.port p.val
     (q.st.linked = false ∨ q.trained = false → Ignored (.frameReceive p bs) s) ∧
     (q.st.linked = true → q.trained = true →
       (readFrame bs = none → Leads (.frameReceive p bs) s (fun t => t = { s with ports := t.ports } ∧
         t.port p.val = { q with discards := min (q.discards + 1) (2 ^ 32 - 1), retry := true, waiting := true } ∧
         ∀ k, k ≠ p.val → t.port k = s.port k)) ∧
       (∀ f, readFrame bs = some f → (f.type = 1 ∨ f.type = 2) → f.seq ≠ q.rxNext →
         Leads (.frameReceive p bs) s (fun t => t = { s with ports := t.ports } ∧
           t.port p.val = { q with discards := min (q.discards + 1) (2 ^ 32 - 1), retry := true, waiting := true })) ∧
       (∀ f, readFrame bs = some f → f.type = 2 → f.seq = q.rxNext → Leads (.frameReceive p bs) s (fun t =>
         t = { s with ports := t.ports, log := t.log } ∧ (t.port p.val).rxNext = nextSeq f.seq ∧
         (t.port p.val).rxCtl = q.rxCtl ++ [f.payload] ∧ (t.port p.val).waiting = false ∧
         (t.port p.val).discards = q.discards ∧ ∀ k, k ≠ p.val → t.port k = s.port k)) ∧
       (∀ f, readFrame bs = some f → f.type = 1 → f.seq = q.rxNext → (q.chan f.vc).discarding = false →
         (q.chan f.vc).accepted = none → Leads (.frameReceive p bs) s (fun t =>
           t = { s with ports := t.ports, log := t.log } ∧ (t.port p.val).rxNext = nextSeq f.seq ∧
           ((t.port p.val).chan f.vc).rx = (q.chan f.vc).rx ++ [{ bytes := f.payload, tail := f.tail }] ∧
           ((t.port p.val).chan f.vc).freed = (q.chan f.vc).freed ∧ ∀ k, k ≠ p.val → t.port k = s.port k)) ∧
       (∀ f, readFrame bs = some f → f.type = 3 → Leads (.frameReceive p bs) s (fun t =>
         (t.port p.val).retryRx = min (q.retryRx + 1) (2 ^ 32 - 1) ∧ (t.port p.val).rxNext = q.rxNext ∧
         (t.port p.val).replay = acked q.txNext f.ack q.replay ∧
         (t.port p.val).resend = (if acked q.txNext f.ack q.replay = [] then none else some 0)))))

/-- R301, R302, R321, R381: a retrain that succeeds sends HELLO and the replay buffer again; three failures in a row,
or no frame for too long, take the port down, its link layer starts afresh, and every cut that uses it ends with
0x50. RETRAIN acts on a port that is not disabled and whose datapath is in service. -/
def Obligations.PortStates : Prop :=
  ∀ (s : State) (p : Fin 4), s.supply = .good →
    let q := s.port p.val
    (q.st = .training → q.trained = false → Leads (.retrainDone p true) s (fun t =>
      (t.port p.val).st = .training ∧ (t.port p.val).trained = true ∧ (t.port p.val).fails = 0 ∧
      (t.port p.val).retrains = min (q.retrains + 1) (2 ^ 32 - 1) ∧
      (t.port p.val).txCtl = helloMsg s.sysId p.val :: q.txCtl ∧
      (t.port p.val).resend = (if q.replay = [] then none else some 0) ∧ ∀ k, k ≠ p.val → t.port k = s.port k)) ∧
    (q.st = .training → q.trained = false → q.fails < 2 → Leads (.retrainDone p false) s (fun t =>
      (t.port p.val).st = .training ∧ (t.port p.val).trained = false ∧ (t.port p.val).fails = q.fails + 1 ∧
      (t.port p.val).retrains = min (q.retrains + 1) (2 ^ 32 - 1))) ∧
    (q.st = .training → q.trained = false → 2 ≤ q.fails → Leads (.retrainDone p false) s (fun t =>
      (t.port p.val).st = .down)) ∧
    (∀ ok, q.st ≠ .training ∨ q.trained = true → Ignored (.retrainDone p ok) s) ∧
    (q.st.linked = true → Leads (.portDown p) s (fun t =>
      (t.port p.val).st = .down ∧ (t.port p.val).replay = [] ∧ (t.port p.val).rxNext = 0 ∧ (t.port p.val).txNext = 0 ∧
      (∀ e, (s.cut e).live = true → p.val ∈ s.cutPorts e → (t.cut e).phase = .ended ∧ (t.cut e).status = 0x50))) ∧
    (q.st.linked = false → Ignored (.portDown p) s) ∧
    (q.st.linked = true → (s.unit 9 p.val).retired = false → Leads (.slcCfgRetrain p) s (fun t =>
      t = { s with ports := t.ports, log := t.log } ∧ t.port p.val = { q with st := .training, trained := false } ∧
      ∀ k, k ≠ p.val → t.port k = s.port k)) ∧
    (q.st = .down → (s.unit 9 p.val).retired = false → Leads (.slcCfgRetrain p) s (fun t =>
      t = { s with ports := t.ports, log := t.log } ∧ (t.port p.val).st = .training ∧ (t.port p.val).rxNext = 0 ∧
      (t.port p.val).txNext = 0 ∧ ∀ k, k ≠ p.val → t.port k = s.port k)) ∧
    (q.st = .disabled ∨ (s.unit 9 p.val).retired = true → Ignored (.slcCfgRetrain p) s)

/-- R302, R321, R329: the messages of a port. HELLO with the neighbour's identity counts toward UP, and with another
the port is miswired, with GLB.EVT.LINK and both identities logged; CLOSE takes the port down; BROKEN ends the cuts
that it names with 0x50; MOVE makes a plan run on its ALT from the step that it gives. A port without such a message
is as before. R320, R321: the header of a stream whose channel a running X-cut uses. A stale one is discarded with
its stream; one that differs ends the X- and A-cuts that use the port with 0x50 (log entry 66); one that agrees is
taken, and the channel carries the cut's stream. With no X-cut that waits for a stream there, it stays held. -/
def Obligations.PortMessages : Prop :=
  (∀ (s : State) (p : Fin 4), s.supply = .good →
     let q := s.port p.val
     (∀ m rest, q.rxCtl = m :: rest →
       (∀ t₀, field m 0 1 = 1 → s.portEntry p.val = some t₀ →
         (field m 8 8 = t₀.peerSysId → field m 16 1 = t₀.peerPort → Leads (.hello p) s (fun t =>
           (t.port p.val).helloGood = true ∧ (t.port p.val).peer = BitVec.ofNat 64 (field m 8 8) ∧
           (t.port p.val).rxCtl = rest ∧ ((t.port p.val).chan 7).freed = (q.chan 7).freed + 1 ∧ t.glb = s.glb ∧
           (q.helloAcked = true → q.trained = true → (q.st = .training ∨ q.st = .miswired) → (t.port p.val).st = .up))) ∧
         (field m 8 8 ≠ t₀.peerSysId ∨ field m 16 1 ≠ t₀.peerPort → Leads (.hello p) s (fun t =>
           (t.port p.val).st = .miswired ∧ (t.port p.val).helloGood = false ∧ (t.port p.val).rxCtl = rest ∧ Raised s t 7 ∧
           ∃ r rs, t.log.recs = r :: rs ∧ r.code = 0x0501 ∧ r.arg1 = t₀.peerSysId % 2 ^ 32))) ∧
       (field m 0 1 = 2 → q.st.linked = true → Leads (.close p) s (fun t =>
         (t.port p.val).st = .down ∧ (∀ e, (s.cut e).live = true → p.val ∈ s.cutPorts e →
           (t.cut e).phase = .ended ∧ (t.cut e).status = 0x50))) ∧
       (field m 0 1 = 3 → Leads (.broken p) s (fun t =>
         (t.port p.val).rxCtl = rest ∧
         (∀ e, (s.cut e).live = true → s.namedBy p.val (field m 4 4) e = true → (t.cut e).phase = .ended ∧ (t.cut e).status = 0x50) ∧
         ((∀ e ∈ s.liveCuts, s.namedBy p.val (field m 4 4) e = false) → t = { s with ports := t.ports }))) ∧
       (∀ i, field m 0 1 = 4 → s.image = some i → Leads (.move p) s (fun t =>
         (t.port p.val).rxCtl = rest ∧
         (∀ x ∈ i.plans, x.2.groupId = field m 4 4 → p.val ∈ x.2.ports → x.2.alt ≠ 0xFFFF → Tab.find s.moves x.1 = none →
           Tab.find t.moves x.1 = some (field m 8 8)) ∧
         (∀ k v, Tab.find s.moves k = some v → Tab.find t.moves k = some v)))) ∧
     ((∀ m rest, q.rxCtl = m :: rest → field m 0 1 ≠ 1) → Ignored (.hello p) s) ∧
     ((∀ m rest, q.rxCtl = m :: rest → field m 0 1 ≠ 2) → Ignored (.close p) s) ∧
     ((∀ m rest, q.rxCtl = m :: rest → field m 0 1 ≠ 3) → Ignored (.broken p) s) ∧
     ((∀ m rest, q.rxCtl = m :: rest → field m 0 1 ≠ 4) → Ignored (.move p) s)) ∧
  (∀ (s : State) (p : Fin 4) (vc : Fin 8), s.supply = .good →
     let ch := (s.port p.val).chan vc.val
     ∀ e, s.vcutOn p.val vc.val = none → s.xcutOn p.val vc.val = some e →
       (ch.accepted = none → ch.discarding = false → 16 ≤ (streamBytes ch.rx).length →
         (s.headerCheck e (streamBytes ch.rx) = 0 → (dropRx 16 ch.rx).2.2 = false →
           nextMessage (streamBytes (dropRx 16 ch.rx).1) = none → streamWhole (dropRx 16 ch.rx).1 = false →
           Leads (.streamHeader p vc) s (fun t => t = { s with ports := t.ports, xruns := t.xruns } ∧
             (∀ r, Tab.find s.xruns e = some r → Tab.find t.xruns e = some { r with heard := p.val :: r.heard }) ∧
             ((t.port p.val).chan vc.val).accepted = some e ∧ ((t.port p.val).chan vc.val).rx = (dropRx 16 ch.rx).1)) ∧
         (s.headerCheck e (streamBytes ch.rx) = 1 → Leads (.streamHeader p vc) s (fun t =>
           t = { s with ports := t.ports } ∧ (t.port p.val).chan vc.val = ch.discardRest ∧
           ∀ k, k ≠ p.val → t.port k = s.port k)) ∧
         (s.headerCheck e (streamBytes ch.rx) = 2 → Leads (.streamHeader p vc) s (fun t =>
           (∀ k, (s.cut k).live = true → p.val ∈ s.cutPorts k → (s.cut k).desc.kind ≠ 7 →
             (t.cut k).phase = .ended ∧ (t.cut k).status = 0x50) ∧ t.tallies = s.tallies))) ∧
       (ch.accepted.isSome = true ∨ ch.discarding = true ∨ (streamBytes ch.rx).length < 16 →
         Ignored (.streamHeader p vc) s))

/-- R307, R308, R310 to R312, R314, R316, R317: a slab of an X-cut. The selector takes the next one, while its merge
and keeper have room: a leaf encodes it, another node enters it into its merge. A merge with every contribution is
encoded. A result is delivered in order, with its header in the region. -/
def Obligations.ReducedSlabs : Prop :=
  ∀ (s : State) (e : Fin 4096) (slab : Nat) (r : XRun), s.supply = .good → (s.cut e.val).desc.kind = 5 →
    (s.cut e.val).phase = .running → Tab.find s.xruns e.val = some r →
    (∀ ev : List Nat, slab = r.selected → slab < r.slabs → r.keeper.length < 64 →
      (r.plan.childMask = 0 → Leads (.selectorSlab e slab ev) s (fun t =>
        (t.xrun e.val).selected = r.selected + 1 ∧ slab ∈ (t.xrun e.val).encoded ∧
        (∀ i, s.selectorOf (s.cut e.val).desc.xArea = some i → (t.unit 6 i).count = (s.unit 6 i).count + 1) ∧
        t.yard = s.yard ∧ t.tallies = s.tallies)) ∧
      (r.plan.childMask ≠ 0 → s.canMerge e.val slab = true → Leads (.selectorSlab e slab ev) s (fun t =>
        (t.xrun e.val).selected = r.selected + 1 ∧
        (∃ m, Tab.find (t.xrun e.val).merge slab = some m ∧ m.own = true ∧
          m.children = (Tab.get MergeSlab.empty r.merge slab).children) ∧
        (Tab.find (t.xrun e.val).keeper slab).isSome = true ∧ t.ports = s.ports ∧ t.yard = s.yard))) ∧
    (∀ ev : List Nat, slab ≠ r.selected ∨ r.slabs ≤ slab ∨ 64 ≤ r.keeper.length → Ignored (.selectorSlab e slab ev) s) ∧
    (∀ m, Tab.find r.merge slab = some m →
      (m.own = true → m.children = r.plan.childMask → Leads (.mergeSlabComplete e slab) s (fun t =>
        (t.xrun e.val).encoded = slab :: r.encoded ∧ (t.xrun e.val).selected = r.selected ∧ t.yard = s.yard)) ∧
      (m.own = false ∨ m.children ≠ r.plan.childMask → Ignored (.mergeSlabComplete e slab) s)) ∧
    (Tab.find r.merge slab = none → Ignored (.mergeSlabComplete e slab) s) ∧
    (∀ d base, r.down.find? (fun d => d.slab == slab) = some d → s.regionBase (s.cut e.val).desc.xArea.resultRegion = some base →
      (slab = r.delivered → YardCanonical s → Leads (.resultDeliver e slab) s (fun t =>
        (t.xrun e.val).delivered = r.delivered + 1 ∧ slab ∈ (t.cut e.val).done ∧
        Mem.readBytes t.yard.mem (base + 4096 * r.slabs + 32 * slab) 17 = natLe d.mask 16 ++ natLe d.scale 1 ∧
        (t.cut e.val).kd3 = max (s.cut e.val).kd3 d.blocks.length)) ∧
      (slab ≠ r.delivered → Ignored (.resultDeliver e slab) s))

/-- R326 to R330: modules. An inserted module is identified and, if it suits an enabled port, released; once ready
its lane retirements are cleared, its biases are the reference, and the port trains. A removal from a port in use,
and a fault state, take the port down. A lane that fails is replaced by the spare; a flagged module sets
GLB.EVT.MODULE. -/
def Obligations.Modules : Prop :=
  ∀ (s : State) (p : Fin 4), s.supply = .good →
    let q := s.port p.val
    (∀ (id : List Byte) (ok : Bool), Leads (.moduleInsert p id ok) s (fun t => t = { s with ports := t.ports, log := t.log } ∧
      t.port p.val = { q with module := { q.module with
        present := true, identity := id, selecting := ok && decide (q.st ≠ .disabled) } } ∧
      (∀ k, k ≠ p.val → t.port k = s.port k) ∧ t.log.head = s.log.head + (if ok then 1 else 2) ∧
      (ok = true → Logged s t 0x0502 0xFF 0 p.val 0))) ∧
    (∀ bias : List Nat, q.module.selecting = true → q.st ≠ .disabled → Leads (.moduleReady p bias) s (fun t =>
      t = { s with ports := t.ports, spare := t.spare, log := t.log } ∧
      (t.port p.val).module = { q.module with selecting := false, retired := [], spareFor := 0xF, refBias := bias, rise := [], age := [] } ∧
      Tab.find t.spare.laneSpare p.val = none ∧ ((s.unit 9 p.val).retired = false → (t.port p.val).st = .training) ∧
      ∀ k, k ≠ p.val → t.port k = s.port k)) ∧
    (∀ bias : List Nat, q.module.selecting = false ∨ q.st = .disabled → Ignored (.moduleReady p bias) s) ∧
    (q.module.selecting = true → Leads (.moduleReadyTimeout p) s (fun t => t = { s with ports := t.ports, log := t.log } ∧
      t.port p.val = { q with module := { q.module with selecting := false } } ∧ Logged s t 0x0502 0xFF 0 (p.val + 64) 0)) ∧
    (q.module.selecting = false → Ignored (.moduleReadyTimeout p) s) ∧
    (q.module.present = true → Leads (.moduleRemove p) s (fun t => (t.port p.val).module.present = false ∧
      (t.port p.val).module.flagged = false ∧ (q.st.linked = true → (t.port p.val).st = .down) ∧
      (q.st.linked = false → Logged s t 0x0502 0xFF 0 (p.val + 16) 0))) ∧
    (q.module.present = false → Ignored (.moduleRemove p) s) ∧
    (∀ (lanes : List LaneReading) (t₀ : PortEntry), q.module.present = true → s.portEntry p.val = some t₀ →
      (q.st.linked = true → Leads (.modulePoll p true false lanes) s (fun t => (t.port p.val).st = .down)) ∧
      ((∀ x ∈ lanes.zipIdx, laneBad t₀ (nth 0 q.module.refBias x.2) x.1 = false ∧
          laneFlags t₀ (nth 0 q.module.refBias x.2) x.1 = false) → Leads (.modulePoll p false false lanes) s (fun t =>
        t = { s with ports := t.ports } ∧ t.port p.val = { q with module := { q.module with
          rise := lanes.mapIdx (fun i x => biasRise (nth 0 q.module.refBias i) x.bias), age := lanes.map LaneReading.age } } ∧
        ∀ k, k ≠ p.val → t.port k = s.port k))) ∧
    (∀ fault warning lanes, q.module.present = false → Ignored (.modulePoll p fault warning lanes) s) ∧
    (q.st.linked = true → (s.unit 9 p.val).retired = false → Leads (.laneLayerReport p .lostAlignment) s (fun t =>
      t = { s with ports := t.ports, log := t.log } ∧ (t.port p.val).st = .training ∧ (t.port p.val).trained = false)) ∧
    (∀ l : Fin 9, q.module.laneUsed l.val = true → l.val ∉ q.module.retired → q.module.spareFor = 0xF →
      Leads (.laneLayerReport p (.fault l)) s (fun t => t = { s with ports := t.ports, spare := t.spare, glb := t.glb, log := t.log } ∧
        (t.port p.val).module = { q.module with spareFor := l.val, retired := l.val :: q.module.retired } ∧
        Tab.find t.spare.laneSpare p.val = some l.val ∧ Raised s t 18)) ∧
    (∀ (l : Fin 9) (k : Nat) (t₀ : PortEntry), s.portEntry p.val = some t₀ → k ≤ 10 ^ (12 - t₀.berExp) →
      Ignored (.laneLayerReport p (.errors l k)) s) ∧
    (q.module.flagged = false → Leads (.slcCfgFlag p) s (fun t => (t.port p.val).module.flagged = true ∧
      t.glb.evt &&& 0x100#32 = 0x100#32 ∧ t.nv = s.nv ∧ t.spare = s.spare)) ∧
    (q.module.flagged = true → Ignored (.slcCfgFlag p) s)

/-! ### Yard errors, fills, units without spares -/

/-- R369, R370, R385: a corrected yard word is counted, for the yard, for its bank and for the health model, and
stays as it was; the sixteenth of a bank within 2^26 night cycles, and any uncorrectable word, begins to move the
bank to the lowest-numbered free spare, whose copy then takes its place in the bank map. The scrubber corrects in the
same way. R370, R371: an uncorrectable yard word stays so until it is written, its bank begins to move, and its owner
decides the rest: what no cut uses has no action; what a running cut on faces and benches in service writes aborts
the cut, which starts over; a held seam, a result, and what a group or ring uses halt the working. -/
def Obligations.YardErrors : Prop :=
  (∀ s : State, s.supply = .good → s.monitor.armed = [] →
     (∀ a, a < Config.yardBytes →
       let b := (s.bankAt a).1
       let recent := (Tab.get [] s.yard.times b).filter (fun x => decide (s.nc < x + 2 ^ 26))
       Leads (.yardCorrected a) s (fun t =>
         t = { s with yard := t.yard, health := t.health, glb := t.glb, log := t.log } ∧
         t.yard.corr = min (s.yard.corr + 1) 65535 ∧ t.yard.lastBank = s.bankPhys b ∧
         t.yard.lastLine = (s.bankAt a).2 ∧ t.yard.lastUncorr = false ∧ t.yard.mem = s.yard.mem ∧
         t.health.score = min (s.health.score + s.riskWeight 0) 65535 ∧
         Tab.get [] t.yard.times b = s.nc :: recent ∧
         (recent.length < 15 → t.yard.migrating = s.yard.migrating) ∧
         (∀ x rest, 15 ≤ recent.length → Tab.find s.yard.migrating b = none → s.freeBanks = x :: rest →
           Tab.find t.yard.migrating b = some x))) ∧
     (∀ line : Nat, line * 64 < Config.yardBytes → Ignored (.patrolScrub line []) s ∧
       ∀ w : Fin 8, Leads (.patrolScrub line [w]) s (fun t =>
         exec (.yardCorrected (line * 64 + 8 * w.val)) s = .next t)) ∧
     (∀ b : Fin 256,
       (∀ x, Tab.find s.yard.migrating b.val = some x → Leads (.bankMigrationDone b) s (fun t =>
         t = { s with yard := t.yard, spare := t.spare, glb := t.glb, log := t.log } ∧
         t.bankPhys b.val = x ∧ (∀ k, k ≠ b.val → t.bankPhys k = s.bankPhys k) ∧
         t.spare.bankRet = s.bankPhys b.val :: s.spare.bankRet ∧ Tab.find t.yard.migrating b.val = none ∧
         t.yard.mem = s.yard.mem ∧ Raised s t 18 ∧
         Logged s t 0x0302 0xFF (if s.yard.injected.contains b.val then 1 else 0) (3 * 2 ^ 24 + s.bankPhys b.val) x)) ∧
       (Tab.find s.yard.migrating b.val = none → Ignored (.bankMigrationDone b) s)) ∧
     Leads .spareMapStore s (fun t => t = { s with nv := { s.nv with spare := s.spare } })) ∧
  (∀ (s : State) (a : Nat), s.supply = .good → s.monitor.armed = [] → a < Config.yardBytes →
     let b := (s.bankAt a).1
     let counted := fun t : State =>
       t.yard.uncorr = min (s.yard.uncorr + 1) 65535 ∧ t.yard.lastUncorr = true ∧ a / 8 ∈ t.yard.poison
     ((∀ i, s.image = some i → i.regionAt a = none) → Leads (.uncorrectableYard a) s (fun t =>
       t = { s with yard := t.yard, glb := t.glb, log := t.log } ∧ counted t ∧ t.yard.mem = s.yard.mem ∧
       (∀ x rest, Tab.find s.yard.migrating b = none → s.freeBanks = x :: rest →
         Tab.find t.yard.migrating b = some x ∧ t.glb = s.glb ∧ t.log = s.log) ∧
       (Tab.find s.yard.migrating b = none → s.freeBanks = [] → Raised s t 15 ∧ t.yard.migrating = s.yard.migrating))) ∧
     (∀ i r reg, s.image = some i → i.regionAt a = some (r, reg) →
       (∀ e, s.liveCuts.find? (fun e => s.groupOwns i e a r reg) = some e → Leads (.uncorrectableYard a) s (fun t =>
         (t.work reg.working).seq = .halted ∧ t.glb.evt &&& 0x20#32 = 0x20#32 ∧ t.yard.uncorr = min (s.yard.uncorr + 1) 65535 ∧
         ∃ x xs, t.log.recs = x :: xs ∧ x.code = 0x0205 ∧ x.working = reg.working ∧ x.arg0 = 4 ∧ x.arg1 = a % 2 ^ 32)) ∧
       (s.liveCuts.find? (fun e => s.groupOwns i e a r reg) = none →
         (s.seamOwns i a r reg = true ∨ (Tab.find s.results r).isSome = true → Leads (.uncorrectableYard a) s (fun t =>
           (t.work reg.working).seq = .halted ∧ t.glb.evt &&& 0x20#32 = 0x20#32 ∧
           ∃ x xs, t.log.recs = x :: xs ∧ x.code = 0x0205 ∧ x.working = reg.working ∧ x.arg0 = 4 ∧ x.arg1 = a % 2 ^ 32)) ∧
         (∀ e, s.seamOwns i a r reg = false → Tab.find s.results r = none →
           s.liveCuts.find? (fun e => s.cutOwns i e a r reg) = some e → (s.cut e).phase = .running →
           (∀ n ∈ s.cutFaces (s.cut e).desc, s.faceGone n = false) →
           (∀ x ∈ s.benchList (s.cut e).desc, s.benchRetired x.1 (s.physBench x.1 x.2) = false) →
           Leads (.uncorrectableYard a) s (fun t =>
             (t.cut e).flags &&& 0x4000#32 = 0x4000#32 ∧ (t.cut e).done = [] ∧
             (t.cut e).status = (if usesBenches (s.cut e).desc.kind then 0x41 else 0) ∧
             (t.cut e).phase = .running ∧ t.working = s.working ∧ t.tallies = s.tallies)))))

/-- R333, R375 to R377, R379: a face that has not woken is retired, and with a spare face free a fill begins; the
phases of a fill lead its spare through WAKE, CONFIG and TEST into the retired face's place, with its working and
position. A spare that fails a phase is marked failed and goes OFF. Without a fill in the phase nothing happens. -/
def Obligations.Fills : Prop :=
  ∀ s : State, s.supply = .good →
    (∀ f : Fin 72, s.clk f.val = .run ∨ s.clk f.val = .nap ∨ s.clk f.val = .off → Ignored (.wakeNotComplete f) s) ∧
    (∀ (f : Fin 72) (sp : Nat) (rest : List Nat), s.clk f.val = .wakingNap ∨ s.clk f.val = .wakingOff →
      s.fills.queue = [] → s.faceGone f.val = false → (s.face f.val).role = .inService → s.freeFaces = sp :: rest →
      Leads (.wakeNotComplete f) s (fun t =>
        t.spare.faceRet = f.val :: s.spare.faceRet ∧ (t.face f.val).role = .retired ∧ t.clk f.val = .off ∧
        t.fills.queue = [Fill.mk f.val (s.face f.val).working (s.face f.val).position sp .wake true] ∧
        (t.face sp).role = .filling ∧ (t.face sp).fill = 1 ∧ (s.clk sp = .off → t.clk sp = .wakingOff) ∧
        Raised s t 18 ∧ t.tallies = s.tallies ∧ t.yard = s.yard)) ∧
    (∀ (x : Fill) (rest : List Fill), s.fills.queue = x :: rest → (∀ y ∈ rest, y.spare ≠ x.spare) →
      let failed := fun t : State =>
        x.spare ∈ t.spare.faceFailed ∧ (t.face x.spare).role = .failed ∧ t.clk x.spare = .off ∧
        t.glb.evt &&& 0x40000#32 = 0x40000#32
      (x.phase = .wake →
        (s.glb.tripped = false → s.glb.resetHeld = false → Leads (.fillWakeDone true) s (fun t =>
          t = { s with tiles := t.tiles, faces := t.faces, fills := t.fills } ∧ t.clk x.spare = .run ∧
          t.fills.queue = { x with phase := .config } :: rest ∧ (t.face x.spare).fill = 2 ∧
          (t.face x.spare).freq = s.faceLimit x.spare)) ∧
        (s.glb.tripped = true ∨ s.glb.resetHeld = true → Ignored (.fillWakeDone true) s) ∧
        Leads (.fillWakeDone false) s failed) ∧
      (x.phase = .config →
        Leads (.fillConfigDone true) s (fun t =>
          t = { s with faces := t.faces, fills := t.fills } ∧ t.fills.queue = { x with phase := .test } :: rest ∧
          (t.face x.spare).fill = 3 ∧ (t.face x.spare).acc = BitVec.ofNat 32 (s.modeWords x.working).1 ∧
          (t.face x.spare).chk = BitVec.ofNat 32 (s.modeWords x.working).2 ∧
          (t.face x.spare).fmaxReg = s.effFmax x.spare ∧ (t.face x.spare).voffReg = s.effVoff x.spare) ∧
        Leads (.fillConfigDone false) s failed) ∧
      (∀ f : Fin 72, x.phase = .test → f.val = x.spare →
        (x.spare ≠ x.face → 4 ≤ s.goodBenches f.val → Leads (.fillTestDone (FaceTest.mk f [] [] false)) s (fun t =>
          t.placeOf (s.namedOf x.face) = x.spare ∧ (t.face x.spare).role = .inService ∧
          (t.face x.spare).working = x.working ∧ (t.face x.spare).position = x.position ∧
          (t.face x.spare).serves = s.namedOf x.face ∧ t.fills.queue.length = rest.length ∧ t.tallies = s.tallies ∧
          t.yard = s.yard)) ∧
        Leads (.fillTestDone (FaceTest.mk f [] [] true)) s failed) ∧
      (x.phase ≠ .wake → Ignored (.fillWakeDone true) s ∧ Ignored (.fillWakeDone false) s) ∧
      (x.phase ≠ .config → Ignored (.fillConfigDone true) s ∧ Ignored (.fillConfigDone false) s) ∧
      (∀ r : FaceTest, x.phase ≠ .test ∨ r.face.val ≠ x.spare → Ignored (.fillTestDone r) s)) ∧
    (s.fills.queue = [] → ∀ (b : Bool) (r : FaceTest),
      Ignored (.fillWakeDone b) s ∧ Ignored (.fillConfigDone b) s ∧ Ignored (.fillTestDone r) s)

/-- R381, R401: a fault of a unit without a spare counts; an unrecoverable one, and a second one in a cut, retires
it. The X-cuts of a selector end with 0x50, a sluice datapath's port goes down, the S-cut starts again from its first
section, on the fallback once the drain engine is retired, and V-cuts from their first slice. -/
def Obligations.UnitFaults : Prop :=
  ∀ s : State, s.supply = .good →
    (∀ d : Fin 4,
      ((s.unit 5 d.val).busy = none → s.healthyDressers ≠ [] → Leads (.unitFault (.dresser d) false) s (fun t =>
        t = { s with units := t.units } ∧ (t.unit 5 d.val).faults = min ((s.unit 5 d.val).faults + 1) 255 ∧
        (t.unit 5 d.val).retired = (s.unit 5 d.val).retired)) ∧
      ((s.unit 5 d.val).retired = false → Leads (.unitFault (.dresser d) true) s (fun t =>
        (t.unit 5 d.val).retired = true ∧ 80 + d.val ∈ t.spare.unitRet ∧ t.glb.evt &&& 0x40000#32 = 0x40000#32)) ∧
      (∀ e, (s.unit 5 d.val).retired = false → (s.unit 5 d.val).busy = some e → (s.unit 5 d.val).cutFaults = e + 1 →
        Leads (.unitFault (.dresser d) false) s (fun t => (t.unit 5 d.val).retired = true ∧ 80 + d.val ∈ t.spare.unitRet))) ∧
    (∀ (i : Fin 4) (bad : Bool), Leads (.unitFault (.selector i) bad) s (fun t =>
      (t.unit 6 i.val).faults = min ((s.unit 6 i.val).faults + 1) 255 ∧ (bad = true → (t.unit 6 i.val).retired = true) ∧
      (∀ e, (s.cut e).live = true → (s.cut e).desc.kind = 5 → s.selectorOf (s.cut e).desc.xArea = some i.val →
        (t.cut e).phase = .ended ∧ (t.cut e).status = 0x50))) ∧
    (∀ (p : Fin 4) (bad : Bool), Leads (.unitFault (.sluiceDp p) bad) s (fun t =>
      ((s.port p.val).st.linked = true → (t.port p.val).st = .down) ∧ (bad = true → (t.unit 9 p.val).retired = true) ∧
      (t.unit 9 p.val).faults = min ((s.unit 9 p.val).faults + 1) 255)) ∧
    (∀ bad : Bool, Leads (.unitFault .drain bad) s (fun t =>
      (bad = true → (t.unit 7 0).retired = true) ∧
      (∀ e, (s.cut e).live = true → (s.cut e).desc.kind = 6 →
        (t.cut e).items = 0 ∧ (t.cut e).kd0 = 0 ∧ (t.cut e).kd1 = 0 ∧ (t.cut e).phase = (s.cut e).phase ∧
        (bad = true → s.healthyDressers ≠ [] → (t.cut e).flags &&& 0x8000000#32 = 0x8000000#32)) ∧
      t.yard = s.yard ∧ t.fabric = s.fabric)) ∧
    (∀ bad : Bool, Leads (.unitFault .digest bad) s (fun t =>
      (bad = true → (t.unit 8 0).retired = true) ∧
      (∀ e, (s.cut e).live = true → (s.cut e).desc.kind = 7 →
        (t.cut e).done = [] ∧ (t.cut e).kd0 = 0 ∧ (t.cut e).phase = (s.cut e).phase) ∧
      t.yard = s.yard ∧ t.fabric = s.fabric))

/-! ### Snapshots, replica digests, firmware -/

/-- R388, R389, R400, R401: a snapshot asked for; its capture, once every working is held and the engine that drains
runs. The capture takes the tallies, the next steps, the hoists' positions, the held seams' headers, the digest and
the night cycle; it clears the pending request and FORCE; the S-cut runs, with its SEQ (DEDUCED, log entry 55), its
slot and its flags. R386, R390, R392, R393: a drain that has written its sections writes the header and is committed:
SNAP_CTL shows the new SEQ, slot and steps, the risk estimate is zero, GLB.EVT.SNAP is set and the S-cut ends. Over a
peer the records are sent first and the commit waits. A peer's record is written at its place in the receive slot, or
dropped and logged. -/
def Obligations.Snapshots : Prop :=
  (∀ s : State, s.supply = .good →
     Leads .snapCtlForce s (fun t => t = { s with snap := { s.snap with force := true } }) ∧
     (s.snap.phase ≠ .holding ∨ (List.range s.workCount).all s.workingHeld = false ∨ s.drainUnit = none →
       Ignored .snapshotCapture s) ∧
     (∀ u : Nat × Nat, s.snap.phase = .holding → (List.range s.workCount).all s.workingHeld = true →
       s.drainUnit = some u →
       (s.active (unitTile u.1 u.2) = false → Leads .snapshotCapture s (fun t => t = { s with tiles := t.tiles } ∧
         (s.clk (unitTile u.1 u.2) = .off → t.clk (unitTile u.1 u.2) = .wakingOff) ∧
         (s.clk (unitTile u.1 u.2) = .nap → t.clk (unitTile u.1 u.2) = .wakingNap))) ∧
       (s.active (unitTile u.1 u.2) = true → s.snap.test = false → Leads .snapshotCapture s (fun t =>
         let e := s.snap.entry
         let cap := s.capture (s.descOf e).sArea.content
         t = { s with snap := t.snap, health := { s.health with pending := false }, cuts := t.cuts, units := t.units,
                      hoists := t.hoists } ∧
         t.snap = { s.snap with phase := .draining, cap := cap, force := false,
                                captureStep := (s.work s.refWorking).nextStep } ∧
         (t.cut e).phase = .running ∧ (t.cut e).kd2 = (s.snap.seq + 1) % 2 ^ 32 ∧ (t.cut e).kd3 = (s.snap.seq + 1) % 2 ∧
         (t.cut e).startNc = s.nc ∧
         ((t.cut e).flags &&& 0x1000000#32 ≠ 0 ↔ s.snap.inserted = true) ∧
         ((t.cut e).flags &&& 0x2000000#32 ≠ 0 ↔ s.snap.forced = true) ∧
         ((t.cut e).flags &&& 0x4000000#32 ≠ 0 ↔ cap.heads ≠ []) ∧
         ((t.cut e).flags &&& 0x8000000#32 ≠ 0 ↔ (s.unit 7 0).retired = true) ∧
         (∀ k, k ≠ e → t.cut k = s.cut k) ∧ (t.unit u.1 u.2).busy = some e)))) ∧
  (∀ (s : State) (given : List (Nat × List Byte)), s.supply = .good →
     let e := s.snap.entry
     let a := (s.cut e).desc.sArea
     let secs := s.snapSections a.content given
     let hdr := s.snap.cap.header s.snap.test secs.length (s.snap.seq + 1) a.content
     (s.snap.phase = .draining → (s.cut e).phase = .running → a.mode ≠ 1 → Leads (.snapshotCommit given) s (fun t =>
       (t.cut e).phase = .ended ∧ t.glb.evt &&& 0x40#32 = 0x40#32 ∧
       (s.snap.test = false → t.snap.seq = s.snap.seq + 1 ∧ t.snap.slot = s.snapTarget ∧ t.snap.valid = true ∧
         t.snap.lastNc = s.snap.cap.nc ∧ t.snap.lastSteps = s.snap.cap.steps) ∧
       (s.snap.test = true → t.snap.seq = s.snap.seq ∧ t.snap.slot = s.snap.slot ∧ t.snap.valid = s.snap.valid) ∧
       ((s.cut e).desc.working ≠ s.refWorking → t.snap.phase = .idle ∧ (s.snap.test = false → t.health.score = 0)) ∧
       ∀ k, k < hdr.length →
         (∀ i, s.image = some i → nth 0 a.targetBase s.snapTarget + k < recordAddr i.header e (s.cut e).step ∨
           recordAddr i.header e (s.cut e).step + 64 ≤ nth 0 a.targetBase s.snapTarget + k) →
         t.fabricByte (nth 0 a.targetBase s.snapTarget + k) = some (nth 0 hdr k))) ∧
     (∀ vc, s.snap.phase = .draining → (s.cut e).phase = .running → a.mode = 1 → s.classVc 2 = some vc →
       ((s.cut e).items = 0 → Leads (.snapshotCommit given) s (fun t =>
         t = { s with ports := t.ports, cuts := t.cuts } ∧ t.cut e = { s.cut e with items := 1 })) ∧
       ((s.cut e).items ≠ 0 → s.snapAcked e a.port vc = false → Ignored (.snapshotCommit given) s) ∧
       ((s.cut e).items ≠ 0 → s.snapAcked e a.port vc = true → s.snap.test = false →
         Leads (.snapshotCommit given) s (fun t => (t.cut e).phase = .ended ∧ t.snap.seq = s.snap.seq + 1 ∧
           t.glb.evt &&& 0x40#32 = 0x40#32))) ∧
     (s.snap.phase ≠ .draining ∨ (s.cut e).phase ≠ .running → Ignored (.snapshotCommit given) s) ∧
     (∀ (slot off : Nat) (data : List Byte) (p : SnapPart), s.snapPart = some p →
       (slot < 2 → data.length ≤ 4096 → off + data.length ≤ p.rxLen → Leads (.peerSnapshotRecord slot off data) s (fun t =>
         t = { s with ports := t.ports, fabric := t.fabric } ∧ FabricWritten s t (nth 0 p.rxBase slot + off) data)) ∧
       (2 ≤ slot ∨ 4096 < data.length ∨ p.rxLen < off + data.length → Leads (.peerSnapshotRecord slot off data) s (fun t =>
         t = { s with ports := t.ports, log := t.log } ∧ Logged s t (Config.unnamedCode 2) 0xFF 0 slot off))))

/-- R394, R432: a restore. RESTORE is ignored while a drain or a restore is in progress, and refused with OUTCOME 2
while a sequencer or a cut runs. A first read that fails refuses it and changes nothing; the second read applies the
snapshot's tallies, steps and hoist positions, or, with a CRC that fails, leaves no valid state but every sequencer
blocked (what it had applied is a free value: log entry 55). R397, R401: a V-cut compares the peer's record of its
next slice with its own. A slice that agrees counts; one that differs is counted, or in the FETCH role fetched until
an attempt has the peer's CRC, and written; if none has, the cut ends with 0x50. -/
def Obligations.Restores : Prop :=
  (∀ (s : State) (bs : List Byte), s.supply = .good →
     (s.snapBusy = true → Leads .snapCtlRestore s (fun t =>
       t = { s with log := t.log } ∧ Logged s t (Config.unnamedCode 3) 0xFF 0 0xE0000 2)) ∧
     (s.snapBusy = false → s.quiet = true → Leads .snapCtlRestore s (fun t =>
       t = { s with snap := { s.snap with phase := .restoreFirst } })) ∧
     (s.snapBusy = false → s.quiet = false → Leads .snapCtlRestore s (fun t =>
       t = { s with snap := { s.snap with outcome := 2 } })) ∧
     (s.snap.phase = .restoreFirst →
       (s.snapGood bs = true → Leads (.restoreFirstReadDone bs) s (fun t =>
         t = { s with snap := { s.snap with phase := .restoreSecond } })) ∧
       (s.snapGood bs = false → Leads (.restoreFirstReadDone bs) s (fun t =>
         t = { s with snap := { s.snap with phase := .idle, outcome := 2 }, glb := t.glb } ∧ Raised s t 6))) ∧
     (s.snap.phase ≠ .restoreFirst → Ignored (.restoreFirstReadDone bs) s) ∧
     (s.snap.phase = .restoreSecond →
       (crcsOk bs = true → Leads (.restoreSecondReadDone bs) s (fun t =>
         t.snap.phase = .idle ∧ t.snap.outcome = 1 ∧ t.snap.blocked = false ∧ Raised s t 6 ∧
         (∀ i : Fin 1024, t.tally i.val = field (snapSection bs 1) (8 * i.val) 8) ∧
         (∀ w : Fin 16, (t.work w.val).step = field bs (0x50 + 8 * w.val) 8 ∧ (t.work w.val).seq = .stopped ∧
           (t.work w.val).isOpen = false) ∧
         (∀ h, (Tab.find s.hoists h).isSome = true →
           (t.hoist h).pos = field (snapSection bs 1) (8192 + 16 * h) 8 ∧
           (t.hoist h).k = field (snapSection bs 1) (8192 + 16 * h + 8) 4 ∧ (t.hoist h).cut = none) ∧
         (∀ e, (t.cut e).phase = .idle) ∧ t.results = [] ∧ t.log = s.log ∧ t.image = s.image)) ∧
       (crcsOk bs = false → Leads (.restoreSecondReadDone bs) s (fun t =>
         t.snap.phase = .idle ∧ t.snap.outcome = 3 ∧ t.snap.blocked = true ∧ Raised s t 6 ∧ t.log = s.log ∧
         t.image = s.image ∧ t.spare = s.spare ∧ t.nv = s.nv))) ∧
     (s.snap.phase ≠ .restoreSecond → Ignored (.restoreSecondReadDone bs) s)) ∧
  (∀ (s : State) (e : Fin 4096) (index length : Nat) (crc : DWord) (own : List Byte) (fetched : List (List Byte))
       (role vc : Nat), s.supply = .good → (s.cut e.val).peer = some role → s.classVc 3 = some vc →
     let c := s.cut e.val
     let a := c.desc.vArea
     (c.desc.kind = 7 → c.phase = .running → index = c.done.length → index < c.items →
       (crc64 own = crc → length = own.length → Leads (.vSliceRecord e index length crc own fetched) s (fun t =>
         (t.cut e.val).kd0 = min (c.kd0 + 1) (2 ^ 32 - 1) ∧ (t.cut e.val).kd1 = min c.kd1 (2 ^ 32 - 1) ∧
         (t.cut e.val).flags = c.flags ∧
         (index ∉ c.done → (t.cut e.val).done = index :: c.done) ∧ (t.cut e.val).phase = .running ∧ t.fabric = s.fabric)) ∧
       ((crc64 own ≠ crc ∨ length ≠ own.length) → a.role ≠ 0 → Leads (.vSliceRecord e index length crc own fetched) s (fun t =>
         (t.cut e.val).kd0 = min (c.kd0 + 1) (2 ^ 32 - 1) ∧ (t.cut e.val).kd1 = min (c.kd1 + 1) (2 ^ 32 - 1) ∧
         (t.cut e.val).kd2 = min c.kd2 (2 ^ 32 - 1) ∧ (t.cut e.val).flags = c.flags ||| 0x1000000#32 ∧ (t.cut e.val).phase = .running ∧
         t.fabric = s.fabric)) ∧
       ((crc64 own ≠ crc ∨ length ≠ own.length) → a.role = 0 →
         (∀ bs rest, fetched = bs :: rest → 0 < a.retries → crc64 bs = crc →
           Leads (.vSliceRecord e index length crc own fetched) s (fun t =>
             FabricWritten s t (nth (0, 0) c.slices index).1 bs ∧ (t.cut e.val).kd2 = min (c.kd2 + 1) (2 ^ 32 - 1) ∧
             (t.cut e.val).flags = c.flags ||| 0x3000000#32 ∧ (t.cut e.val).phase = .running)) ∧
         ((∀ bs ∈ fetched, crc64 bs ≠ crc) → Leads (.vSliceRecord e index length crc own fetched) s (fun t =>
           (t.cut e.val).phase = .ended ∧ (t.cut e.val).status = 0x50)))) ∧
     (c.desc.kind ≠ 7 ∨ c.phase ≠ .running ∨ index ≠ c.done.length ∨ c.items ≤ index →
       Ignored (.vSliceRecord e index length crc own fetched) s))

/-! ### The foreman's serial monitor -/

/-- R437, R441, R442: a character is echoed and joins the line; backspace and delete take the last one off; CR or LF
ends the line, once where LF follows CR. A line of more than 128 characters answers ERR 01, an empty one brings the
prompt, and a command waits to run, while further characters are held. Time locks the session and lifts the
withholding. -/
def Obligations.MonitorLines : Prop :=
  ∀ (s : State) (c : Byte), s.supply = .good →
    let m := s.monitor
    (s.foremanUp = false → Ignored (.monitorChar c) s) ∧
    (s.foremanUp = true → (m.command.isSome = true ∨ m.owed = true) → Leads (.monitorChar c) s (fun t =>
      t = { s with monitor := { m with out := [.echo c], hold := if m.hold.length < 256 then m.hold ++ [c] else m.hold } })) ∧
    (s.foremanUp = true → m.command = none → m.owed = false →
      (c ≠ 0x0D#8 → c ≠ 0x0A#8 → c ≠ 0x08#8 → c ≠ 0x7F#8 → Leads (.monitorChar c) s (fun t => t = { s with
        monitor := { m with out := [.echo c], lastCr := false, line := if m.line.length < 128 then m.line ++ [c] else m.line,
                            overlong := m.overlong || decide (128 ≤ m.line.length) } })) ∧
      (c = 0x08#8 ∨ c = 0x7F#8 → Leads (.monitorChar c) s (fun t =>
        t = { s with monitor := { m with out := [.echo c], line := m.line.dropLast, lastCr := false } })) ∧
      (c = 0x0A#8 → m.lastCr = true → Leads (.monitorChar c) s (fun t =>
        t = { s with monitor := { m with out := [.echo c], lastCr := false } })) ∧
      ((c = 0x0D#8 ∨ (c = 0x0A#8 ∧ m.lastCr = false)) → Leads (.monitorChar c) s (fun t =>
        t = { s with monitor := t.monitor } ∧ t.monitor.line = [] ∧ t.monitor.overlong = false ∧
        t.monitor.lastCr = decide (c = 0x0D#8) ∧ t.monitor.unlocked = m.unlocked ∧
        (m.overlong = true → t.monitor.out = [.echo c, .err 1, .prompt] ∧ t.monitor.command = none) ∧
        (m.overlong = false →
          (parseLine m.line = .empty → t.monitor.out = [.echo c, .prompt] ∧ t.monitor.command = none) ∧
          (∀ k, parseLine m.line = .bad k → t.monitor.out = [.echo c, .err k, .prompt] ∧ t.monitor.command = none) ∧
          (∀ i, parseLine m.line = .command i → t.monitor.out = [.echo c] ∧ t.monitor.command = some m.line))))) ∧
    Leads .sessionTimeout s (fun t => t = { s with monitor := { m with unlocked := false } }) ∧
    Leads .challengeWithholdEnd s (fun t => t = { s with monitor := { m with withheld := false } })

/-- R439, R447, R448: the commands that report answer with their data lines, OK and the prompt, and change nothing;
`log` with a record count or number out of range answers ERR 03. While the foreman restarts no command does anything.
The texts of the lines are open but for R439's and R447's forms (log entry 27). -/
def Obligations.MonitorReports : Prop :=
  ∀ s : State,
    (MonitorReady s →
      Answers .help s ((List.range 20).map .word ++ [.ok]) ∧
      Answers .risk s [.values 8 0 [s.hlthReg 0], .values 8 1 [s.hlthReg 4],
        .values 8 2 ((List.range 8).map (fun i => (s.hlthReg (0x10 + 4 * i) : Int))), .ok] ∧
      Answers .snap s [.values 9 0 [s.snapReg 0, s.snap.seq, s.snap.slot],
        .values 9 1 ((List.range 16).map (fun w => ((Tab.get (0 : Nat) s.snap.lastSteps w : Nat) : Int))), .ok] ∧
      Answers .clk s ((List.range 72).map (fun n => MonOut.values 12 n [bits (s.pwrFace n) 13 9, bits (s.pwrFace n) 15 14]) ++
        [.values 12 72 ((List.range 12).map (fun i => Tab.get 0 s.temps (72 + i))),
         .values 12 73 [s.nightReg 0x10000, s.surgeWindow, s.surge.ledger], .ok]) ∧
      Answers .fw s [.values 19 0 [s.fmnReg 0], .ok] ∧
      (∀ p : Fin 4, Answers (.slc p) s ([.values 13 0 [s.slcReg p.val 0x004], .values 13 1 [(s.port p.val).peer.toNat],
          .values 13 2 [s.slcReg p.val 0x008, s.slcReg p.val 0x00C, s.slcReg p.val 0x010]] ++
        (List.range 9).map (fun i => MonOut.values 13 (3 + i) [s.slcReg p.val (0x020 + 4 * i)]) ++
        [.values 13 12 ((List.range 61).map (fun k => (modIdByte (s.port p.val).module k : Int))), .ok])) ∧
      (∀ (n : Nat) (seq : Option Nat),
        (1 ≤ n → n ≤ 256 → seq.getD s.log.head ≤ s.log.head →
          Answers (.log n seq) s ((logRange n (seq.getD s.log.head)).map s.logLine ++ [.ok])) ∧
        (n = 0 ∨ 256 < n ∨ s.log.head < seq.getD s.log.head → Answers (.log n seq) s [.err 3]))) ∧
    (s.foremanUp = false ∨ s.monitor.owed = true →
      (∀ c ∈ [Instr.help, .risk, .snap, .clk, .fw, .image, .lock, .snapForce, .snapDrain, .injectClear, .fwSwap],
        Ignored c s) ∧
      (∀ p : Fin 4, Ignored (.slc p) s ∧ Ignored (.slcFlag p) s ∧ Ignored (.slcRetrain p) s) ∧
      (∀ n q, Ignored (.log n q) s ∧ Ignored (.rd n n) s ∧ Ignored (.baud n) s) ∧
      (∀ w : Fin 16, Ignored (.preempt w) s ∧ Ignored (.resume w) s) ∧
      (∀ f : Fin 72, Ignored (.retireFace f) s ∧ Ignored (.tile f true) s))

/-- R347, R438 to R440: `rd`, `tile` and `image` read registers as the host does, one line each; a register of a
stopped tile makes the command wait, and wakes the tile. `wr` needs an unlocked session: it is logged (log entry 35),
writes and answers OK. Waiting reads: log entry 37. -/
def Obligations.MonitorAccesses : Prop :=
  ∀ s : State, MonitorReady s →
    (∀ off : Nat, off % 4 = 0 → off + 4 ≤ 2 ^ 24 →
      (s.waitTile off = none → Leads (.rd off 1) s (fun t =>
        let v := BitVec.ofNat 32 (s.readValue .foreman off)
        t = { s with bus := t.bus, pairs := t.pairs, monitor := { s.monitor with
          reads := [], out := [.reg off v.toNat, .ok, .prompt] } } ∧
        t.bus = { s.bus with foremanData := v } ∧ (pairLo off = none → t.pairs = s.pairs))) ∧
      (∀ k, s.waitTile off = some k → Leads (.rd off 1) s (fun t =>
        t = { s with tiles := t.tiles, monitor := { s.monitor with reads := [.reg off], owed := true, out := [] },
                     bus := { s.bus with waiting := s.bus.waiting ++
                       [{ tile := k, who := .foreman, write := false, off := off, size := 4, value := 0 }] } } ∧
        (s.clk (tileKey k) = .nap → t.clk (tileKey k) = .wakingNap) ∧
        (s.clk (tileKey k) = .off → t.clk (tileKey k) = .wakingOff)))) ∧
    (∀ off n : Nat, off % 4 ≠ 0 ∨ n = 0 ∨ 64 < n ∨ 2 ^ 24 < off + 4 * n → Answers (.rd off n) s [.err 3]) ∧
    (∀ (f : Fin 72) (all : Bool),
      let ns := if all then List.range 72 else [f.val]
      (∀ n ∈ ns, s.waitTile (0x100004 + 0x10000 * n) = none) → Leads (.tile f all) s (fun t =>
        t = { s with bus := t.bus, monitor := t.monitor } ∧ t.bus.waiting = s.bus.waiting ∧
        t.monitor.out = ns.map (fun n => MonOut.face n
          (BitVec.ofNat 32 (s.regValue (0x100004 + 0x10000 * n))).toNat (bits (s.pwrFace n) 13 9) (Tab.get 0 s.temps n)) ++
          [.ok, .prompt])) ∧
    (s.waitTile 0x60110 = none → Leads .image s (fun t =>
      t = { s with monitor := { s.monitor with
        reads := []
        out := [.values 6 0 [s.imgId], .values 6 1 [s.imgVer], .values 6 2 (s.imgDigest.map (fun b : Byte => (b.toNat : Int))),
          .values 6 3 (s.cfgDigest.map (fun b : Byte => (b.toNat : Int))), .values 6 4 [(s.loadStat : Int)], .ok, .prompt] } })) ∧
    (∀ (off : Nat) (v : Word),
      (2 ^ 24 ≤ off → Answers (.wr off v) s [.err 3]) ∧
      (off < 2 ^ 24 → s.monitor.unlocked = false → Answers (.wr off v) s [.err 4]) ∧
      (off < 2 ^ 24 → s.monitor.unlocked = true →
        (s.waitTile off = none → Leads (.wr off v) s (fun t => ∃ u,
          u = State.writeNow (State.logCommand { s with monitor := { s.monitor with out := [] } } 2 off) .foreman off 4 v.toNat ∧
          t = { u with monitor := t.monitor, log := t.log } ∧ t.log.head = u.log.head)) ∧
        (∀ k, s.waitTile off = some k → Leads (.wr off v) s (fun t =>
          t = { s with tiles := t.tiles, log := t.log, monitor := { s.monitor with owed := true, out := [] },
                       bus := { s.bus with waiting := s.bus.waiting ++
                         [{ tile := k, who := .foreman, write := true, off := off, size := 4, value := v }] } } ∧
          Logged s t 0x0703 0xFF 2 2 off)))) ∧
    (∀ v : Word, s.monitor.unlocked = true → Leads (.wr 0x20 v) s (fun t =>
      t = { s with glb := { s.glb with evtEn := v &&& 0xFFFFF#32 }, log := t.log,
                   monitor := { s.monitor with out := [.ok, .prompt] } } ∧ Logged s t 0x0703 0xFF 2 2 0x20))

/-- R438, R439, R441, R442: the session. `unlock` draws a challenge and locks; the right response unlocks, a wrong
one answers ERR 05 and withholds the next challenge, during which ERR 09; `lock` and `baud` lock. A locked command in
a locked session answers ERR 04. Where several codes apply, log entry 36. -/
def Obligations.MonitorSession : Prop :=
  ∀ s : State, MonitorReady s →
    let m := s.monitor
    (∀ c : Word,
      (m.withheld = true → Answers (.unlock c) s [.err 9] ∧ Answers (.unlockResponse c) s [.err 9]) ∧
      (m.withheld = false → Leads (.unlock c) s (fun t => t = { s with monitor := { m with
        challenge := some c, unlocked := false, out := [.challenge c.toNat, .ok, .prompt] } })) ∧
      (∀ q, m.withheld = false → m.challenge = some q → c = unlockAnswer q → Leads (.unlockResponse c) s (fun t =>
        t = { s with monitor := { m with challenge := none, unlocked := true, out := [.ok, .prompt] } })) ∧
      (m.withheld = false → (∀ q, m.challenge = some q → c ≠ unlockAnswer q) → Leads (.unlockResponse c) s (fun t =>
        t = { s with monitor := { m with challenge := none, withheld := true, out := [.err 5, .prompt] } }))) ∧
    Leads .lock s (fun t => t = { s with monitor := { m with unlocked := false, out := [.ok, .prompt] } }) ∧
    (∀ rate : Nat,
      (rate % 100 = 0 → 9600 ≤ rate → rate ≤ 3000000 → Leads (.baud rate) s (fun t =>
        t = { s with foreman := { s.foreman with baud := rate / 100 },
                     monitor := { m with unlocked := false, out := [.ok, .prompt] } })) ∧
      (rate % 100 ≠ 0 ∨ rate < 9600 ∨ 3000000 < rate → Answers (.baud rate) s [.err 3])) ∧
    (m.unlocked = false →
      (∀ c ∈ [Instr.snapDrain, .injectClear, .fwSwap], Answers c s [.err 4]) ∧
      (∀ f : Fin 72, Answers (.retireFace f) s [.err 4]) ∧ (∀ k b, Answers (.return_ k b) s [.err 4]) ∧
      (∀ p : Fin 4, Answers (.slcFlag p) s [.err 4] ∧ Answers (.slcRetrain p) s [.err 4]) ∧
      (∀ w : Fin 16, Answers (.preempt w) s [.err 4] ∧ Answers (.resume w) s [.err 4]) ∧
      (∀ k, injectOk k = true → Answers (.inject k) s [.err 4]) ∧
      (∀ (slot : Fin 4) (x y : Nat), Answers (.keyInstall slot x y) s [.err 4] ∧ Answers (.keyRevoke slot) s [.err 4]))

/-- R442: an unlocked session locks on `lock`, after 2^30 night cycles without a complete line, on a `baud` command,
and on every reset: the losses and returns of the supply, a HOST reset by either way, and a FOREMAN reset by the
watchdog or by a swap. -/
def Obligations.SessionLocks : Prop :=
  ∀ s : State,
    (MonitorReady s → Leads .lock s (fun t => t.monitor.unlocked = false) ∧
      ∀ rate, rate % 100 = 0 → 9600 ≤ rate → rate ≤ 3000000 → Leads (.baud rate) s (fun t => t.monitor.unlocked = false)) ∧
    (s.supply = .good → Leads .sessionTimeout s (fun t => t.monitor.unlocked = false)) ∧
    (∀ c ∈ [Instr.powerOn, .alwaysOnRailLoss], Leads c s (fun t => t.monitor.unlocked = false)) ∧
    (s.supply = .good → ∀ c ∈ [Instr.clockLoss, .hostReset, .engReset],
      Leads c s (fun t => t.monitor.unlocked = false)) ∧
    (s.supply = .noClock → Leads .nightClockPresent s (fun t => t.monitor.unlocked = false)) ∧
    (s.supply = .good → 2 ≤ s.glb.boot → s.glb.boot < 0xF →
      Leads .watchdogRestart s (fun t => t.foreman.restarting = true ∧ t.monitor.unlocked = false) ∧
      (s.foreman.restarting = false → s.foreman.trial = true → s.foreman.healthy = false →
        Leads .watchdogRevert s (fun t => t.foreman.restarting = true ∧ t.monitor.unlocked = false))) ∧
    (s.supply = .good → s.foremanUp = true → s.foreman.inactiveOk = true → s.foreman.update ≠ 1 →
      Leads .fmnCtlSwap s (fun t => t.foreman.restarting = true ∧ t.monitor.unlocked = false) ∧
      (MonitorReady s → s.monitor.unlocked = true →
        Leads .fwSwap s (fun t => t.foreman.restarting = true ∧ t.monitor.unlocked = false)))

/-- R301, R328, R374 to R376, R383, R439, R443: locked commands on units in an unlocked session. `retire` retires a
face in service, with its Retirement record marked MONITOR; a face gone already answers ERR 06. `return` gives back a
retired unit that passes its test, and answers ERR 06 for any other. `slc flag`, `slc retrain`, `preempt` and
`resume` act as their fields. Answers and record numbers are as log entries 35, 36 and 38 read them. -/
def Obligations.MonitorUnits : Prop :=
  ∀ s : State, MonitorReady s → s.monitor.unlocked = true →
    (∀ f : Fin 72,
      ((s.face f.val).away = true → Answers (.retireFace f) s [.err 6]) ∧
      (∀ sp rest, (s.face f.val).role = .inService → s.faceGone f.val = false → s.freeFaces = sp :: rest → s.fills.queue = [] →
        Leads (.retireFace f) s (fun t =>
          t.monitor.out = [.ok, .prompt] ∧ t.spare.faceRet = f.val :: s.spare.faceRet ∧ (t.face f.val).role = .retired ∧
          t.clk f.val = .off ∧ (t.face sp).role = .filling ∧
          t.fills.queue = [Fill.mk f.val (s.face f.val).working (s.face f.val).position sp .wake true] ∧
          Raised s t 18 ∧ t.log.head = s.log.head + 3 ∧ t.yard = s.yard ∧ t.tallies = s.tallies ∧
          ∃ r rs, t.log.recs = r :: rs ∧ r.code = 0x0301 ∧ r.working = (s.face f.val).working ∧ r.flags = 2 ∧
            r.arg0 = 0x2000000 + f.val ∧ r.arg1 = 5))) ∧
    (∀ k ok, s.mayReturn k = false ∨ ok = false → Answers (.return_ k ok) s [.err 6]) ∧
    (∀ f : Fin 72, s.mayReturn (.face f) = true → 4 ≤ s.goodBenches f.val → Leads (.return_ (.face f) true) s (fun t =>
      t.monitor.out = [.ok, .prompt] ∧ f.val ∉ t.spare.faceRet ∧ f.val ∉ t.spare.faceFailed)) ∧
    (∀ (f : Fin 72) (k : Fin 5), s.mayReturn (.bench f k) = true → Leads (.return_ (.bench f k) true) s (fun t =>
      t.monitor.out = [.ok, .prompt] ∧ t.benchRetired f.val k.val = false ∧ (t.face f.val).role = .inService ∧
      t = { s with spare := t.spare, faces := t.faces, log := t.log, monitor := t.monitor })) ∧
    (∀ b : Fin 288, s.mayReturn (.bank b) = true → Leads (.return_ (.bank b) true) s (fun t =>
      t.monitor.out = [.ok, .prompt] ∧ b.val ∉ t.spare.bankRet ∧
      t = { s with spare := { s.spare with bankRet := t.spare.bankRet }, log := t.log, monitor := t.monitor })) ∧
    (∀ j : Fin 8, s.mayReturn (.buffer j) = true → Leads (.return_ (.buffer j) true) s (fun t =>
      t.monitor.out = [.ok, .prompt] ∧ j.val ∉ t.spare.bufRet ∧
      t = { s with spare := t.spare, log := t.log, monitor := t.monitor })) ∧
    (∀ p : Fin 4, s.mayReturn (.dp p) = true → Leads (.return_ (.dp p) true) s (fun t =>
      t.monitor.out = [.ok, .prompt] ∧ (t.unit 9 p.val).retired = false ∧
      ((s.port p.val).st ≠ .disabled → (t.port p.val).st = .training))) ∧
    (∀ p : Fin 4,
      Leads (.slcFlag p) s (fun t => t.monitor.out = [.ok, .prompt] ∧ (t.port p.val).module.flagged = true) ∧
      Leads (.slcRetrain p) s (fun t => t = { s with ports := t.ports, log := t.log, monitor := t.monitor } ∧
        t.monitor.out = [.ok, .prompt] ∧ ((s.unit 9 p.val).retired = false → (s.port p.val).st ≠ .disabled →
          (t.port p.val).st = .training ∧ (t.port p.val).trained = false))) ∧
    (∀ w : Fin 16,
      Leads (.preempt w) s (fun t => t.monitor.out = [.ok, .prompt] ∧ Logged s t 0x0703 0xFF 2 16 w.val ∧
        t.preempted w.val = true ∧ (∀ e, (s.cut e).phase = .running → (s.cut e).desc.working = w.val →
          (t.cut e).phase = .stopped ∧ (t.cut e).status = 0x40)) ∧
      (s.preempted w.val = true → (s.work w.val).seq ≠ .halted → s.snap.phase ≠ .holding →
        Leads (.resume w) s (fun t => t.monitor.out = [.ok, .prompt] ∧ Logged s t 0x0703 0xFF 2 16 w.val ∧
          t.preempted w.val = false ∧ (∀ e, (s.cut e).phase = .stopped → (s.cut e).desc.working = w.val →
            s.waitsForFace e = false → (t.cut e).phase = .running ∧ (t.cut e).status = 0))))

/-- R388, R398, R408, R438, R439, R444, R445: `snap force` asks for a snapshot. `snap drain` begins a test drain,
which pre-empts every running working, or answers ERR 07. `inject` arms one fault of a kind, `inject clear` none.
`key install` fills an empty slot other than 0, `key revoke` retires a key; else ERR 06. `fw swap` restarts from a
verified image: OK, and no prompt. Operands, answers and record numbers are as log entries 28, 35 and 36 read them. -/
def Obligations.MonitorTools : Prop :=
  ∀ s : State, MonitorReady s →
    Leads .snapForce s (fun t => t = { s with
      snap := { s.snap with force := true }, monitor := { s.monitor with out := [.ok, .prompt] } }) ∧
    (∀ k, injectOk k = false → Answers (.inject k) s [.err 3]) ∧
    (s.monitor.unlocked = true →
      (s.insertEntry = 0xFFFF ∨ s.snap.phase ≠ .idle → Answers .snapDrain s [.err 7]) ∧
      (s.insertEntry ≠ 0xFFFF → s.snap.phase = .idle → Leads .snapDrain s (fun t =>
        t.snap = { s.snap with phase := .holding, entry := s.insertEntry, test := true, inserted := false, forced := false } ∧
        t.monitor.out = [.ok, .prompt] ∧ Logged s t 0x0703 0xFF 2 11 (Config.wordArg 176) ∧
        (∀ e, (s.cut e).phase = .running → (s.cut e).desc.working < s.workCount →
          (s.work (s.cut e).desc.working).seq = .running → (t.cut e).phase = .stopped ∧ (t.cut e).status = 0x40) ∧
        t.tallies = s.tallies ∧ t.working = s.working ∧ t.yard = s.yard)) ∧
      (∀ k, injectOk k = true → Leads (.inject k) s (fun t =>
        t = { s with log := t.log, monitor := { s.monitor with
          armed := k :: s.monitor.armed.filter (fun x => injectWord x != injectWord k), out := [.ok, .prompt] } } ∧
        Logged s t 0x0703 0xFF 2 17 (Config.wordArg (272 + injectWord k)))) ∧
      Leads .injectClear s (fun t =>
        t = { s with log := t.log, monitor := { s.monitor with armed := [], out := [.ok, .prompt] } } ∧
        Logged s t 0x0703 0xFF 2 17 (Config.wordArg 278)) ∧
      (∀ (slot : Fin 4) (x y : Nat),
        (slot ≠ 0 → nth .empty s.nv.keys slot.val = .empty → Leads (.keyInstall slot x y) s (fun t =>
          t = { s with nv := { s.nv with keys := s.nv.keys.set slot.val (.key x y) }, log := t.log,
                       monitor := { s.monitor with out := [.ok, .prompt] } } ∧
          Logged s t 0x0703 0xFF 2 18 (Config.wordArg 288))) ∧
        (slot = 0 ∨ nth .empty s.nv.keys slot.val ≠ .empty → Answers (.keyInstall slot x y) s [.err 6]) ∧
        (nth .empty s.nv.keys slot.val = .key x y → Leads (.keyRevoke slot) s (fun t =>
          t = { s with nv := { s.nv with keys := s.nv.keys.set slot.val .revoked }, log := t.log,
                       monitor := { s.monitor with out := [.ok, .prompt] } } ∧
          Logged s t 0x0703 0xFF 2 18 (Config.wordArg 289)))) ∧
      (∀ slot : Fin 4, (∀ x y, nth .empty s.nv.keys slot.val ≠ .key x y) → Answers (.keyRevoke slot) s [.err 6]) ∧
      (s.foreman.update = 1 → Answers .fwSwap s [.err 7]) ∧
      (s.foreman.update ≠ 1 → s.foreman.inactiveOk = false → Answers .fwSwap s [.err 6]) ∧
      (s.foreman.update ≠ 1 → s.foreman.inactiveOk = true → Leads .fwSwap s (fun t =>
        t.foreman = { s.foreman with activeB := !s.foreman.activeB, healthy := false, trial := true, restarting := true,
                                     restarts := min (s.foreman.restarts + 1) 255 } ∧
        t.nv = { s.nv with bootB := !s.foreman.activeB } ∧ t.monitor.out = [.ok] ∧ t.monitor.unlocked = false ∧
        t.glb = { s.glb with cause := 3, ready := false } ∧ t.log.head = s.log.head + 2)))
end

