-- ==== Sys2Proof/Laws/Tab.lean ====
section
/-! SUPPORT. The laws of sparse arrays and of memory: a read after a write gives the value written, a
write leaves every other place alone, and every memory operation keeps the canonical form. -/

namespace Sys2Proof

@[simp] theorem Tab.get_set_same {α : Type} (d : α) (t : Tab α) (k : Nat) (v : α) :
    Tab.get d (Tab.set t k v) k = v := by
  induction t with
  | nil => simp [Tab.set, Tab.get]
  | cons e t ih =>
    obtain ⟨i, w⟩ := e
    simp only [Tab.set]
    split
    · simp [Tab.get]
    · split
      · simp [Tab.get]
      · simp [Tab.get, *]

theorem Tab.get_set_other {α : Type} (d : α) (t : Tab α) (k j : Nat) (v : α) (h : j ≠ k) :
    Tab.get d (Tab.set t k v) j = Tab.get d t j := by
  induction t with
  | nil => simp [Tab.set, Tab.get, h]
  | cons e t ih =>
    obtain ⟨i, w⟩ := e
    simp only [Tab.set]
    split
    · simp [Tab.get, h]
    · split
      · rename_i h2
        subst h2
        simp [Tab.get, h]
      · simp [Tab.get, ih]

@[simp] theorem Tab.get_update_same {α : Type} (d : α) (t : Tab α) (k : Nat) (f : α → α) :
    Tab.get d (Tab.update d t k f) k = f (Tab.get d t k) := by
  simp [Tab.update]

theorem Tab.get_update_other {α : Type} (d : α) (t : Tab α) (k j : Nat) (f : α → α) (h : j ≠ k) :
    Tab.get d (Tab.update d t k f) j = Tab.get d t j := by
  simp [Tab.update, Tab.get_set_other, h]

@[simp] theorem Tab.find_set_same {α : Type} (t : Tab α) (k : Nat) (v : α) :
    Tab.find (Tab.set t k v) k = some v := by
  induction t with
  | nil => simp [Tab.set, Tab.find]
  | cons e t ih =>
    obtain ⟨i, w⟩ := e
    simp only [Tab.set]
    split
    · simp [Tab.find]
    · split
      · simp [Tab.find]
      · simp [Tab.find, *]

theorem Tab.find_set_other {α : Type} (t : Tab α) (k j : Nat) (v : α) (h : j ≠ k) :
    Tab.find (Tab.set t k v) j = Tab.find t j := by
  induction t with
  | nil => simp [Tab.set, Tab.find, h]
  | cons e t ih =>
    obtain ⟨i, w⟩ := e
    simp only [Tab.set]
    split
    · simp [Tab.find, h]
    · split
      · rename_i h2
        subst h2
        simp [Tab.find, h]
      · simp [Tab.find, ih]

/-- An address at or below the bound of a memory in canonical form is not listed in it. -/
theorem Mem.get_of_wfFrom (m : Mem) (lo a : Nat) (h : Mem.wfFrom (some lo) m = true) (ha : a ≤ lo) :
    Tab.get 0#8 m a = 0 := by
  induction m generalizing lo with
  | nil => rfl
  | cons e m ih =>
    obtain ⟨i, v⟩ := e
    simp only [Mem.wfFrom, Bool.and_eq_true, decide_eq_true_eq] at h
    have hne : a ≠ i := by omega
    simp only [Tab.get, hne, if_false]
    exact ih i h.2 (by omega)

theorem Mem.wfFrom_weaken (m : Mem) (lo lo' : Nat) (h : Mem.wfFrom (some lo) m = true)
    (hl : lo' ≤ lo) : Mem.wfFrom (some lo') m = true := by
  cases m with
  | nil => rfl
  | cons e m =>
    obtain ⟨i, v⟩ := e
    simp only [Mem.wfFrom, Bool.and_eq_true, decide_eq_true_eq] at h ⊢
    exact ⟨⟨by omega, h.1.2⟩, h.2⟩

theorem Mem.write_wfFrom (m : Mem) (lo a : Nat) (v : Byte) (h : Mem.wfFrom (some lo) m = true)
    (ha : lo < a) : Mem.wfFrom (some lo) (Mem.write m a v) = true := by
  induction m generalizing lo with
  | nil =>
    simp only [Mem.write]
    split
    · rfl
    · rename_i hv
      simp [Mem.wfFrom, ha, hv]
  | cons e m ih =>
    obtain ⟨i, w⟩ := e
    simp only [Mem.wfFrom, Bool.and_eq_true, decide_eq_true_eq] at h
    simp only [Mem.write]
    split
    · rename_i hai
      split
      · simp [Mem.wfFrom, h]
      · rename_i hv
        simp [Mem.wfFrom, ha, hai, hv, h]
    · rename_i hai
      split
      · rename_i hae
        split
        · exact Mem.wfFrom_weaken m i lo h.2 (by omega)
        · rename_i hv
          subst hae
          simp [Mem.wfFrom, ha, hv, h]
      · simp only [Mem.wfFrom, Bool.and_eq_true, decide_eq_true_eq]
        exact ⟨h.1, ih i h.2 (by omega)⟩

/-- Writing a byte keeps the canonical form. -/
theorem Mem.write_wf (m : Mem) (a : Nat) (v : Byte) (h : Mem.wf m = true) :
    Mem.wf (Mem.write m a v) = true := by
  cases m with
  | nil =>
    simp only [Mem.write]
    split
    · rfl
    · rename_i hv
      simp [Mem.wf, Mem.wfFrom, hv]
  | cons e m =>
    obtain ⟨i, w⟩ := e
    simp only [Mem.wf, Mem.wfFrom, Bool.and_eq_true, decide_eq_true_eq] at h
    simp only [Mem.write]
    split
    · rename_i hai
      split
      · simp [Mem.wf, Mem.wfFrom, h]
      · rename_i hv
        simp [Mem.wf, Mem.wfFrom, hai, hv, h]
    · split
      · rename_i hae
        subst hae
        split
        · revert h
          cases m with
          | nil => intro _; rfl
          | cons e m =>
            obtain ⟨j, u⟩ := e
            intro h
            simp only [Mem.wfFrom, Bool.and_eq_true, decide_eq_true_eq] at h
            simp [Mem.wf, Mem.wfFrom, h]
        · rename_i hv
          simp [Mem.wf, Mem.wfFrom, hv, h]
      · simp only [Mem.wf, Mem.wfFrom, Bool.and_eq_true, decide_eq_true_eq]
        exact ⟨h.1, Mem.write_wfFrom m i a v h.2 (by omega)⟩

/-- Writing bytes keeps the canonical form. -/
theorem Mem.writeBytes_wf (bs : List Byte) (m : Mem) (a : Nat) (h : Mem.wf m = true) :
    Mem.wf (Mem.writeBytes m a bs) = true := by
  induction bs generalizing m a with
  | nil => exact h
  | cons b bs ih => exact ih _ _ (Mem.write_wf m a b h)

theorem Mem.filter_wfFrom (p : Host.Cell → Bool) (m : Mem) (lo : Nat)
    (h : Mem.wfFrom (some lo) m = true) : Mem.wfFrom (some lo) (m.filter p) = true := by
  induction m generalizing lo with
  | nil => rfl
  | cons e m ih =>
    obtain ⟨i, v⟩ := e
    simp only [Mem.wfFrom, Bool.and_eq_true, decide_eq_true_eq] at h
    simp only [List.filter]
    split
    · simp only [Mem.wfFrom, Bool.and_eq_true, decide_eq_true_eq]
      exact ⟨h.1, ih i h.2⟩
    · exact ih lo (Mem.wfFrom_weaken m i lo h.2 (by omega))

theorem Mem.wf_of_wfFrom (m : Mem) (lo : Nat) (h : Mem.wfFrom (some lo) m = true) :
    Mem.wf m = true := by
  cases m with
  | nil => rfl
  | cons e m =>
    obtain ⟨i, v⟩ := e
    simp only [Mem.wf, Mem.wfFrom, Bool.and_eq_true, decide_eq_true_eq] at h ⊢
    exact ⟨⟨trivial, h.1.2⟩, h.2⟩

/-- Clearing a range keeps the canonical form. -/
theorem Mem.clear_wf (m : Mem) (a n : Nat) (h : Mem.wf m = true) :
    Mem.wf (Mem.clear m a n) = true := by
  unfold Mem.clear
  cases m with
  | nil => rfl
  | cons e m =>
    obtain ⟨i, v⟩ := e
    simp only [Mem.wf, Mem.wfFrom, Bool.and_eq_true, decide_eq_true_eq] at h
    simp only [List.filter]
    split
    · simp only [Mem.wf, Mem.wfFrom, Bool.and_eq_true, decide_eq_true_eq]
      exact ⟨h.1, Mem.filter_wfFrom _ m i h.2⟩
    · exact Mem.wf_of_wfFrom _ i (Mem.filter_wfFrom _ m i h.2)

/-- A read gives the byte last written, in a memory in canonical form. -/
theorem Mem.read_write_same (m : Mem) (a : Nat) (v : Byte) (h : Mem.wf m = true) :
    Mem.read (Mem.write m a v) a = v := by
  have gen : ∀ (m : Mem) (o : Option Nat), Mem.wfFrom o m = true →
      Tab.get 0#8 (Mem.write m a v) a = v := by
    intro m
    induction m with
    | nil =>
      intro o _
      simp only [Mem.write]
      split
      · rename_i hv; simp [Tab.get, hv]
      · simp [Tab.get]
    | cons e m ih =>
      intro o h
      obtain ⟨i, w⟩ := e
      simp only [Mem.wfFrom, Bool.and_eq_true, decide_eq_true_eq] at h
      simp only [Mem.write]
      split
      · rename_i hai
        split
        · rename_i hv
          have hne : a ≠ i := by omega
          simp only [Tab.get, hne, if_false, hv]
          exact Mem.get_of_wfFrom m i a h.2 (by omega)
        · simp [Tab.get]
      · split
        · rename_i hae
          split
          · rename_i hv
            rw [hv]
            exact Mem.get_of_wfFrom m i a h.2 (by omega)
          · simp [Tab.get]
        · rename_i hne
          simp only [Tab.get, hne, if_false]
          exact ih (some i) h.2
  exact gen m none h

/-- A write leaves every other byte alone. -/
theorem Mem.read_write_other (m : Mem) (a b : Nat) (v : Byte) (hb : b ≠ a) :
    Mem.read (Mem.write m a v) b = Mem.read m b := by
  simp only [Mem.read]
  induction m with
  | nil =>
    simp only [Mem.write]
    split
    · rfl
    · simp [Tab.get, hb]
  | cons e m ih =>
    obtain ⟨i, w⟩ := e
    simp only [Mem.write]
    split
    · split
      · rfl
      · simp [Tab.get, hb]
    · split
      · rename_i hae
        subst hae
        split
        · simp [Tab.get, hb]
        · simp [Tab.get, hb]
      · simp [Tab.get, ih]

/-- Writing bytes leaves every byte outside them alone. -/
theorem Mem.read_writeBytes_other (bs : List Byte) (m : Mem) (a b : Nat)
    (hb : b < a ∨ a + bs.length ≤ b) : Mem.read (Mem.writeBytes m a bs) b = Mem.read m b := by
  induction bs generalizing m a with
  | nil => rfl
  | cons c bs ih =>
    simp only [List.length_cons] at hb
    rw [Mem.writeBytes, ih _ _ (by omega), Mem.read_write_other _ _ _ _ (by omega)]

/-- What holds of every listed value holds of every value listed after a value of which it holds is set. -/
theorem Tab.set_all {α : Type} (P : α → Prop) (t : Tab α) (k : Nat) (v : α) (h : ∀ e ∈ t, P e.2) (hv : P v) :
    ∀ e ∈ Tab.set t k v, P e.2 := by
  induction t with
  | nil => simpa [Tab.set] using hv
  | cons e t ih =>
    obtain ⟨i, w⟩ := e
    have ht : ∀ e ∈ t, P e.2 := fun e he => h e (List.mem_cons_of_mem _ he)
    simp only [Tab.set]
    split
    · intro x hx
      rcases List.mem_cons.mp hx with rfl | hx
      · exact hv
      · exact h x hx
    · split
      · intro x hx
        rcases List.mem_cons.mp hx with rfl | hx
        · exact hv
        · exact ht x hx
      · intro x hx
        rcases List.mem_cons.mp hx with rfl | hx
        · exact h _ List.mem_cons_self
        · exact ih ht x hx

/-- A little-endian number of `n` bytes has 8n bits. -/
theorem leNat_lt (bs : List Byte) : leNat bs < 256 ^ bs.length := by
  induction bs with
  | nil => simp [leNat]
  | cons b bs ih =>
    have hb := b.isLt
    simp only [leNat, List.length_cons, Nat.pow_succ]
    omega

/-- A field of `k` bytes has 8k bits. -/
theorem field_lt (bs : List Byte) (o k : Nat) : field bs o k < 256 ^ k := by
  refine Nat.lt_of_lt_of_le (leNat_lt _) (Nat.pow_le_pow_right (by decide) ?_)
  rw [List.length_take]
  omega

end Sys2Proof
end

