-- ==== Sys2Proof/Laws/State.lean ====
section
/-! SUPPORT. One lemma for each field and each named update of the state, true by unfolding, and the laws of
reading a part after it was changed. -/

namespace Sys2Proof.Machine

theorem State.on_good (s : State) (f : State → State) (h : s.supply = .good) : s.on f = .next (f s) := by
  simp [State.on, h]

theorem State.on_bad (s : State) (f : State → State) (h : s.supply ≠ .good) : s.on f = .next s := by
  simp [State.on, h]

/-! `State.modFace` -/

@[simp] theorem State.modFace_pending (s : State) (n : Nat) (f : Face → Face) : (s.modFace n f).pending = s.pending := rfl
@[simp] theorem State.modFace_fresh (s : State) (n : Nat) (f : Face → Face) : (s.modFace n f).fresh = s.fresh := rfl
@[simp] theorem State.modFace_supply (s : State) (n : Nat) (f : Face → Face) : (s.modFace n f).supply = s.supply := rfl
@[simp] theorem State.modFace_nc (s : State) (n : Nat) (f : Face → Face) : (s.modFace n f).nc = s.nc := rfl
@[simp] theorem State.modFace_glb (s : State) (n : Nat) (f : Face → Face) : (s.modFace n f).glb = s.glb := rfl
@[simp] theorem State.modFace_tiles (s : State) (n : Nat) (f : Face → Face) : (s.modFace n f).tiles = s.tiles := rfl
@[simp] theorem State.modFace_benches (s : State) (n : Nat) (f : Face → Face) : (s.modFace n f).benches = s.benches := rfl
@[simp] theorem State.modFace_kilns (s : State) (n : Nat) (f : Face → Face) : (s.modFace n f).kilns = s.kilns := rfl
@[simp] theorem State.modFace_yard (s : State) (n : Nat) (f : Face → Face) : (s.modFace n f).yard = s.yard := rfl
@[simp] theorem State.modFace_fabric (s : State) (n : Nat) (f : Face → Face) : (s.modFace n f).fabric = s.fabric := rfl
@[simp] theorem State.modFace_image (s : State) (n : Nat) (f : Face → Face) : (s.modFace n f).image = s.image := rfl
@[simp] theorem State.modFace_cfgDigest (s : State) (n : Nat) (f : Face → Face) : (s.modFace n f).cfgDigest = s.cfgDigest := rfl
@[simp] theorem State.modFace_load (s : State) (n : Nat) (f : Face → Face) : (s.modFace n f).load = s.load := rfl
@[simp] theorem State.modFace_tables (s : State) (n : Nat) (f : Face → Face) : (s.modFace n f).tables = s.tables := rfl
@[simp] theorem State.modFace_refused (s : State) (n : Nat) (f : Face → Face) : (s.modFace n f).refused = s.refused := rfl
@[simp] theorem State.modFace_tallies (s : State) (n : Nat) (f : Face → Face) : (s.modFace n f).tallies = s.tallies := rfl
@[simp] theorem State.modFace_apertureErr (s : State) (n : Nat) (f : Face → Face) : (s.modFace n f).apertureErr = s.apertureErr := rfl
@[simp] theorem State.modFace_working (s : State) (n : Nat) (f : Face → Face) : (s.modFace n f).working = s.working := rfl
@[simp] theorem State.modFace_cuts (s : State) (n : Nat) (f : Face → Face) : (s.modFace n f).cuts = s.cuts := rfl
@[simp] theorem State.modFace_seams (s : State) (n : Nat) (f : Face → Face) : (s.modFace n f).seams = s.seams := rfl
@[simp] theorem State.modFace_results (s : State) (n : Nat) (f : Face → Face) : (s.modFace n f).results = s.results := rfl
@[simp] theorem State.modFace_slots (s : State) (n : Nat) (f : Face → Face) : (s.modFace n f).slots = s.slots := rfl
@[simp] theorem State.modFace_hoists (s : State) (n : Nat) (f : Face → Face) : (s.modFace n f).hoists = s.hoists := rfl
@[simp] theorem State.modFace_tpbs (s : State) (n : Nat) (f : Face → Face) : (s.modFace n f).tpbs = s.tpbs := rfl
@[simp] theorem State.modFace_tileSlots (s : State) (n : Nat) (f : Face → Face) : (s.modFace n f).tileSlots = s.tileSlots := rfl
@[simp] theorem State.modFace_klnPerr (s : State) (n : Nat) (f : Face → Face) : (s.modFace n f).klnPerr = s.klnPerr := rfl
@[simp] theorem State.modFace_drvPerr (s : State) (n : Nat) (f : Face → Face) : (s.modFace n f).drvPerr = s.drvPerr := rfl
@[simp] theorem State.modFace_ports (s : State) (n : Nat) (f : Face → Face) : (s.modFace n f).ports = s.ports := rfl
@[simp] theorem State.modFace_xruns (s : State) (n : Nat) (f : Face → Face) : (s.modFace n f).xruns = s.xruns := rfl
@[simp] theorem State.modFace_aruns (s : State) (n : Nat) (f : Face → Face) : (s.modFace n f).aruns = s.aruns := rfl
@[simp] theorem State.modFace_units (s : State) (n : Nat) (f : Face → Face) : (s.modFace n f).units = s.units := rfl
@[simp] theorem State.modFace_surge (s : State) (n : Nat) (f : Face → Face) : (s.modFace n f).surge = s.surge := rfl
@[simp] theorem State.modFace_cross (s : State) (n : Nat) (f : Face → Face) : (s.modFace n f).cross = s.cross := rfl
@[simp] theorem State.modFace_temps (s : State) (n : Nat) (f : Face → Face) : (s.modFace n f).temps = s.temps := rfl
@[simp] theorem State.modFace_hot (s : State) (n : Nat) (f : Face → Face) : (s.modFace n f).hot = s.hot := rfl
@[simp] theorem State.modFace_health (s : State) (n : Nat) (f : Face → Face) : (s.modFace n f).health = s.health := rfl
@[simp] theorem State.modFace_spare (s : State) (n : Nat) (f : Face → Face) : (s.modFace n f).spare = s.spare := rfl
@[simp] theorem State.modFace_fills (s : State) (n : Nat) (f : Face → Face) : (s.modFace n f).fills = s.fills := rfl
@[simp] theorem State.modFace_snap (s : State) (n : Nat) (f : Face → Face) : (s.modFace n f).snap = s.snap := rfl
@[simp] theorem State.modFace_nv (s : State) (n : Nat) (f : Face → Face) : (s.modFace n f).nv = s.nv := rfl
@[simp] theorem State.modFace_foreman (s : State) (n : Nat) (f : Face → Face) : (s.modFace n f).foreman = s.foreman := rfl
@[simp] theorem State.modFace_log (s : State) (n : Nat) (f : Face → Face) : (s.modFace n f).log = s.log := rfl
@[simp] theorem State.modFace_monitor (s : State) (n : Nat) (f : Face → Face) : (s.modFace n f).monitor = s.monitor := rfl
@[simp] theorem State.modFace_pairs (s : State) (n : Nat) (f : Face → Face) : (s.modFace n f).pairs = s.pairs := rfl
@[simp] theorem State.modFace_bus (s : State) (n : Nat) (f : Face → Face) : (s.modFace n f).bus = s.bus := rfl
@[simp] theorem State.modFace_stalls (s : State) (n : Nat) (f : Face → Face) : (s.modFace n f).stalls = s.stalls := rfl
@[simp] theorem State.modFace_moves (s : State) (n : Nat) (f : Face → Face) : (s.modFace n f).moves = s.moves := rfl
@[simp] theorem State.modFace_tallyWait (s : State) (n : Nat) (f : Face → Face) : (s.modFace n f).tallyWait = s.tallyWait := rfl

/-! `State.modBench` -/

@[simp] theorem State.modBench_pending (s : State) (n b : Nat) (f : Bench → Bench) : (s.modBench n b f).pending = s.pending := rfl
@[simp] theorem State.modBench_fresh (s : State) (n b : Nat) (f : Bench → Bench) : (s.modBench n b f).fresh = s.fresh := rfl
@[simp] theorem State.modBench_supply (s : State) (n b : Nat) (f : Bench → Bench) : (s.modBench n b f).supply = s.supply := rfl
@[simp] theorem State.modBench_nc (s : State) (n b : Nat) (f : Bench → Bench) : (s.modBench n b f).nc = s.nc := rfl
@[simp] theorem State.modBench_glb (s : State) (n b : Nat) (f : Bench → Bench) : (s.modBench n b f).glb = s.glb := rfl
@[simp] theorem State.modBench_tiles (s : State) (n b : Nat) (f : Bench → Bench) : (s.modBench n b f).tiles = s.tiles := rfl
@[simp] theorem State.modBench_faces (s : State) (n b : Nat) (f : Bench → Bench) : (s.modBench n b f).faces = s.faces := rfl
@[simp] theorem State.modBench_kilns (s : State) (n b : Nat) (f : Bench → Bench) : (s.modBench n b f).kilns = s.kilns := rfl
@[simp] theorem State.modBench_yard (s : State) (n b : Nat) (f : Bench → Bench) : (s.modBench n b f).yard = s.yard := rfl
@[simp] theorem State.modBench_fabric (s : State) (n b : Nat) (f : Bench → Bench) : (s.modBench n b f).fabric = s.fabric := rfl
@[simp] theorem State.modBench_image (s : State) (n b : Nat) (f : Bench → Bench) : (s.modBench n b f).image = s.image := rfl
@[simp] theorem State.modBench_cfgDigest (s : State) (n b : Nat) (f : Bench → Bench) : (s.modBench n b f).cfgDigest = s.cfgDigest := rfl
@[simp] theorem State.modBench_load (s : State) (n b : Nat) (f : Bench → Bench) : (s.modBench n b f).load = s.load := rfl
@[simp] theorem State.modBench_tables (s : State) (n b : Nat) (f : Bench → Bench) : (s.modBench n b f).tables = s.tables := rfl
@[simp] theorem State.modBench_refused (s : State) (n b : Nat) (f : Bench → Bench) : (s.modBench n b f).refused = s.refused := rfl
@[simp] theorem State.modBench_tallies (s : State) (n b : Nat) (f : Bench → Bench) : (s.modBench n b f).tallies = s.tallies := rfl
@[simp] theorem State.modBench_apertureErr (s : State) (n b : Nat) (f : Bench → Bench) : (s.modBench n b f).apertureErr = s.apertureErr := rfl
@[simp] theorem State.modBench_working (s : State) (n b : Nat) (f : Bench → Bench) : (s.modBench n b f).working = s.working := rfl
@[simp] theorem State.modBench_cuts (s : State) (n b : Nat) (f : Bench → Bench) : (s.modBench n b f).cuts = s.cuts := rfl
@[simp] theorem State.modBench_seams (s : State) (n b : Nat) (f : Bench → Bench) : (s.modBench n b f).seams = s.seams := rfl
@[simp] theorem State.modBench_results (s : State) (n b : Nat) (f : Bench → Bench) : (s.modBench n b f).results = s.results := rfl
@[simp] theorem State.modBench_slots (s : State) (n b : Nat) (f : Bench → Bench) : (s.modBench n b f).slots = s.slots := rfl
@[simp] theorem State.modBench_hoists (s : State) (n b : Nat) (f : Bench → Bench) : (s.modBench n b f).hoists = s.hoists := rfl
@[simp] theorem State.modBench_tpbs (s : State) (n b : Nat) (f : Bench → Bench) : (s.modBench n b f).tpbs = s.tpbs := rfl
@[simp] theorem State.modBench_tileSlots (s : State) (n b : Nat) (f : Bench → Bench) : (s.modBench n b f).tileSlots = s.tileSlots := rfl
@[simp] theorem State.modBench_klnPerr (s : State) (n b : Nat) (f : Bench → Bench) : (s.modBench n b f).klnPerr = s.klnPerr := rfl
@[simp] theorem State.modBench_drvPerr (s : State) (n b : Nat) (f : Bench → Bench) : (s.modBench n b f).drvPerr = s.drvPerr := rfl
@[simp] theorem State.modBench_ports (s : State) (n b : Nat) (f : Bench → Bench) : (s.modBench n b f).ports = s.ports := rfl
@[simp] theorem State.modBench_xruns (s : State) (n b : Nat) (f : Bench → Bench) : (s.modBench n b f).xruns = s.xruns := rfl
@[simp] theorem State.modBench_aruns (s : State) (n b : Nat) (f : Bench → Bench) : (s.modBench n b f).aruns = s.aruns := rfl
@[simp] theorem State.modBench_units (s : State) (n b : Nat) (f : Bench → Bench) : (s.modBench n b f).units = s.units := rfl
@[simp] theorem State.modBench_surge (s : State) (n b : Nat) (f : Bench → Bench) : (s.modBench n b f).surge = s.surge := rfl
@[simp] theorem State.modBench_cross (s : State) (n b : Nat) (f : Bench → Bench) : (s.modBench n b f).cross = s.cross := rfl
@[simp] theorem State.modBench_temps (s : State) (n b : Nat) (f : Bench → Bench) : (s.modBench n b f).temps = s.temps := rfl
@[simp] theorem State.modBench_hot (s : State) (n b : Nat) (f : Bench → Bench) : (s.modBench n b f).hot = s.hot := rfl
@[simp] theorem State.modBench_health (s : State) (n b : Nat) (f : Bench → Bench) : (s.modBench n b f).health = s.health := rfl
@[simp] theorem State.modBench_spare (s : State) (n b : Nat) (f : Bench → Bench) : (s.modBench n b f).spare = s.spare := rfl
@[simp] theorem State.modBench_fills (s : State) (n b : Nat) (f : Bench → Bench) : (s.modBench n b f).fills = s.fills := rfl
@[simp] theorem State.modBench_snap (s : State) (n b : Nat) (f : Bench → Bench) : (s.modBench n b f).snap = s.snap := rfl
@[simp] theorem State.modBench_nv (s : State) (n b : Nat) (f : Bench → Bench) : (s.modBench n b f).nv = s.nv := rfl
@[simp] theorem State.modBench_foreman (s : State) (n b : Nat) (f : Bench → Bench) : (s.modBench n b f).foreman = s.foreman := rfl
@[simp] theorem State.modBench_log (s : State) (n b : Nat) (f : Bench → Bench) : (s.modBench n b f).log = s.log := rfl
@[simp] theorem State.modBench_monitor (s : State) (n b : Nat) (f : Bench → Bench) : (s.modBench n b f).monitor = s.monitor := rfl
@[simp] theorem State.modBench_pairs (s : State) (n b : Nat) (f : Bench → Bench) : (s.modBench n b f).pairs = s.pairs := rfl
@[simp] theorem State.modBench_bus (s : State) (n b : Nat) (f : Bench → Bench) : (s.modBench n b f).bus = s.bus := rfl
@[simp] theorem State.modBench_stalls (s : State) (n b : Nat) (f : Bench → Bench) : (s.modBench n b f).stalls = s.stalls := rfl
@[simp] theorem State.modBench_moves (s : State) (n b : Nat) (f : Bench → Bench) : (s.modBench n b f).moves = s.moves := rfl
@[simp] theorem State.modBench_tallyWait (s : State) (n b : Nat) (f : Bench → Bench) : (s.modBench n b f).tallyWait = s.tallyWait := rfl

/-! `State.modWork` -/

@[simp] theorem State.modWork_pending (s : State) (w : Nat) (f : Working → Working) : (s.modWork w f).pending = s.pending := rfl
@[simp] theorem State.modWork_fresh (s : State) (w : Nat) (f : Working → Working) : (s.modWork w f).fresh = s.fresh := rfl
@[simp] theorem State.modWork_supply (s : State) (w : Nat) (f : Working → Working) : (s.modWork w f).supply = s.supply := rfl
@[simp] theorem State.modWork_nc (s : State) (w : Nat) (f : Working → Working) : (s.modWork w f).nc = s.nc := rfl
@[simp] theorem State.modWork_glb (s : State) (w : Nat) (f : Working → Working) : (s.modWork w f).glb = s.glb := rfl
@[simp] theorem State.modWork_tiles (s : State) (w : Nat) (f : Working → Working) : (s.modWork w f).tiles = s.tiles := rfl
@[simp] theorem State.modWork_faces (s : State) (w : Nat) (f : Working → Working) : (s.modWork w f).faces = s.faces := rfl
@[simp] theorem State.modWork_benches (s : State) (w : Nat) (f : Working → Working) : (s.modWork w f).benches = s.benches := rfl
@[simp] theorem State.modWork_kilns (s : State) (w : Nat) (f : Working → Working) : (s.modWork w f).kilns = s.kilns := rfl
@[simp] theorem State.modWork_yard (s : State) (w : Nat) (f : Working → Working) : (s.modWork w f).yard = s.yard := rfl
@[simp] theorem State.modWork_fabric (s : State) (w : Nat) (f : Working → Working) : (s.modWork w f).fabric = s.fabric := rfl
@[simp] theorem State.modWork_image (s : State) (w : Nat) (f : Working → Working) : (s.modWork w f).image = s.image := rfl
@[simp] theorem State.modWork_cfgDigest (s : State) (w : Nat) (f : Working → Working) : (s.modWork w f).cfgDigest = s.cfgDigest := rfl
@[simp] theorem State.modWork_load (s : State) (w : Nat) (f : Working → Working) : (s.modWork w f).load = s.load := rfl
@[simp] theorem State.modWork_tables (s : State) (w : Nat) (f : Working → Working) : (s.modWork w f).tables = s.tables := rfl
@[simp] theorem State.modWork_refused (s : State) (w : Nat) (f : Working → Working) : (s.modWork w f).refused = s.refused := rfl
@[simp] theorem State.modWork_tallies (s : State) (w : Nat) (f : Working → Working) : (s.modWork w f).tallies = s.tallies := rfl
@[simp] theorem State.modWork_apertureErr (s : State) (w : Nat) (f : Working → Working) : (s.modWork w f).apertureErr = s.apertureErr := rfl
@[simp] theorem State.modWork_cuts (s : State) (w : Nat) (f : Working → Working) : (s.modWork w f).cuts = s.cuts := rfl
@[simp] theorem State.modWork_seams (s : State) (w : Nat) (f : Working → Working) : (s.modWork w f).seams = s.seams := rfl
@[simp] theorem State.modWork_results (s : State) (w : Nat) (f : Working → Working) : (s.modWork w f).results = s.results := rfl
@[simp] theorem State.modWork_slots (s : State) (w : Nat) (f : Working → Working) : (s.modWork w f).slots = s.slots := rfl
@[simp] theorem State.modWork_hoists (s : State) (w : Nat) (f : Working → Working) : (s.modWork w f).hoists = s.hoists := rfl
@[simp] theorem State.modWork_tpbs (s : State) (w : Nat) (f : Working → Working) : (s.modWork w f).tpbs = s.tpbs := rfl
@[simp] theorem State.modWork_tileSlots (s : State) (w : Nat) (f : Working → Working) : (s.modWork w f).tileSlots = s.tileSlots := rfl
@[simp] theorem State.modWork_klnPerr (s : State) (w : Nat) (f : Working → Working) : (s.modWork w f).klnPerr = s.klnPerr := rfl
@[simp] theorem State.modWork_drvPerr (s : State) (w : Nat) (f : Working → Working) : (s.modWork w f).drvPerr = s.drvPerr := rfl
@[simp] theorem State.modWork_ports (s : State) (w : Nat) (f : Working → Working) : (s.modWork w f).ports = s.ports := rfl
@[simp] theorem State.modWork_xruns (s : State) (w : Nat) (f : Working → Working) : (s.modWork w f).xruns = s.xruns := rfl
@[simp] theorem State.modWork_aruns (s : State) (w : Nat) (f : Working → Working) : (s.modWork w f).aruns = s.aruns := rfl
@[simp] theorem State.modWork_units (s : State) (w : Nat) (f : Working → Working) : (s.modWork w f).units = s.units := rfl
@[simp] theorem State.modWork_surge (s : State) (w : Nat) (f : Working → Working) : (s.modWork w f).surge = s.surge := rfl
@[simp] theorem State.modWork_cross (s : State) (w : Nat) (f : Working → Working) : (s.modWork w f).cross = s.cross := rfl
@[simp] theorem State.modWork_temps (s : State) (w : Nat) (f : Working → Working) : (s.modWork w f).temps = s.temps := rfl
@[simp] theorem State.modWork_hot (s : State) (w : Nat) (f : Working → Working) : (s.modWork w f).hot = s.hot := rfl
@[simp] theorem State.modWork_health (s : State) (w : Nat) (f : Working → Working) : (s.modWork w f).health = s.health := rfl
@[simp] theorem State.modWork_spare (s : State) (w : Nat) (f : Working → Working) : (s.modWork w f).spare = s.spare := rfl
@[simp] theorem State.modWork_fills (s : State) (w : Nat) (f : Working → Working) : (s.modWork w f).fills = s.fills := rfl
@[simp] theorem State.modWork_snap (s : State) (w : Nat) (f : Working → Working) : (s.modWork w f).snap = s.snap := rfl
@[simp] theorem State.modWork_nv (s : State) (w : Nat) (f : Working → Working) : (s.modWork w f).nv = s.nv := rfl
@[simp] theorem State.modWork_foreman (s : State) (w : Nat) (f : Working → Working) : (s.modWork w f).foreman = s.foreman := rfl
@[simp] theorem State.modWork_log (s : State) (w : Nat) (f : Working → Working) : (s.modWork w f).log = s.log := rfl
@[simp] theorem State.modWork_monitor (s : State) (w : Nat) (f : Working → Working) : (s.modWork w f).monitor = s.monitor := rfl
@[simp] theorem State.modWork_pairs (s : State) (w : Nat) (f : Working → Working) : (s.modWork w f).pairs = s.pairs := rfl
@[simp] theorem State.modWork_bus (s : State) (w : Nat) (f : Working → Working) : (s.modWork w f).bus = s.bus := rfl
@[simp] theorem State.modWork_stalls (s : State) (w : Nat) (f : Working → Working) : (s.modWork w f).stalls = s.stalls := rfl
@[simp] theorem State.modWork_moves (s : State) (w : Nat) (f : Working → Working) : (s.modWork w f).moves = s.moves := rfl
@[simp] theorem State.modWork_tallyWait (s : State) (w : Nat) (f : Working → Working) : (s.modWork w f).tallyWait = s.tallyWait := rfl

/-! `State.modCut` -/

@[simp] theorem State.modCut_pending (s : State) (e : Nat) (f : CutRun → CutRun) : (s.modCut e f).pending = s.pending := rfl
@[simp] theorem State.modCut_fresh (s : State) (e : Nat) (f : CutRun → CutRun) : (s.modCut e f).fresh = s.fresh := rfl
@[simp] theorem State.modCut_supply (s : State) (e : Nat) (f : CutRun → CutRun) : (s.modCut e f).supply = s.supply := rfl
@[simp] theorem State.modCut_nc (s : State) (e : Nat) (f : CutRun → CutRun) : (s.modCut e f).nc = s.nc := rfl
@[simp] theorem State.modCut_glb (s : State) (e : Nat) (f : CutRun → CutRun) : (s.modCut e f).glb = s.glb := rfl
@[simp] theorem State.modCut_tiles (s : State) (e : Nat) (f : CutRun → CutRun) : (s.modCut e f).tiles = s.tiles := rfl
@[simp] theorem State.modCut_faces (s : State) (e : Nat) (f : CutRun → CutRun) : (s.modCut e f).faces = s.faces := rfl
@[simp] theorem State.modCut_benches (s : State) (e : Nat) (f : CutRun → CutRun) : (s.modCut e f).benches = s.benches := rfl
@[simp] theorem State.modCut_kilns (s : State) (e : Nat) (f : CutRun → CutRun) : (s.modCut e f).kilns = s.kilns := rfl
@[simp] theorem State.modCut_yard (s : State) (e : Nat) (f : CutRun → CutRun) : (s.modCut e f).yard = s.yard := rfl
@[simp] theorem State.modCut_fabric (s : State) (e : Nat) (f : CutRun → CutRun) : (s.modCut e f).fabric = s.fabric := rfl
@[simp] theorem State.modCut_image (s : State) (e : Nat) (f : CutRun → CutRun) : (s.modCut e f).image = s.image := rfl
@[simp] theorem State.modCut_cfgDigest (s : State) (e : Nat) (f : CutRun → CutRun) : (s.modCut e f).cfgDigest = s.cfgDigest := rfl
@[simp] theorem State.modCut_load (s : State) (e : Nat) (f : CutRun → CutRun) : (s.modCut e f).load = s.load := rfl
@[simp] theorem State.modCut_tables (s : State) (e : Nat) (f : CutRun → CutRun) : (s.modCut e f).tables = s.tables := rfl
@[simp] theorem State.modCut_refused (s : State) (e : Nat) (f : CutRun → CutRun) : (s.modCut e f).refused = s.refused := rfl
@[simp] theorem State.modCut_tallies (s : State) (e : Nat) (f : CutRun → CutRun) : (s.modCut e f).tallies = s.tallies := rfl
@[simp] theorem State.modCut_apertureErr (s : State) (e : Nat) (f : CutRun → CutRun) : (s.modCut e f).apertureErr = s.apertureErr := rfl
@[simp] theorem State.modCut_working (s : State) (e : Nat) (f : CutRun → CutRun) : (s.modCut e f).working = s.working := rfl
@[simp] theorem State.modCut_seams (s : State) (e : Nat) (f : CutRun → CutRun) : (s.modCut e f).seams = s.seams := rfl
@[simp] theorem State.modCut_results (s : State) (e : Nat) (f : CutRun → CutRun) : (s.modCut e f).results = s.results := rfl
@[simp] theorem State.modCut_slots (s : State) (e : Nat) (f : CutRun → CutRun) : (s.modCut e f).slots = s.slots := rfl
@[simp] theorem State.modCut_hoists (s : State) (e : Nat) (f : CutRun → CutRun) : (s.modCut e f).hoists = s.hoists := rfl
@[simp] theorem State.modCut_tpbs (s : State) (e : Nat) (f : CutRun → CutRun) : (s.modCut e f).tpbs = s.tpbs := rfl
@[simp] theorem State.modCut_tileSlots (s : State) (e : Nat) (f : CutRun → CutRun) : (s.modCut e f).tileSlots = s.tileSlots := rfl
@[simp] theorem State.modCut_klnPerr (s : State) (e : Nat) (f : CutRun → CutRun) : (s.modCut e f).klnPerr = s.klnPerr := rfl
@[simp] theorem State.modCut_drvPerr (s : State) (e : Nat) (f : CutRun → CutRun) : (s.modCut e f).drvPerr = s.drvPerr := rfl
@[simp] theorem State.modCut_ports (s : State) (e : Nat) (f : CutRun → CutRun) : (s.modCut e f).ports = s.ports := rfl
@[simp] theorem State.modCut_xruns (s : State) (e : Nat) (f : CutRun → CutRun) : (s.modCut e f).xruns = s.xruns := rfl
@[simp] theorem State.modCut_aruns (s : State) (e : Nat) (f : CutRun → CutRun) : (s.modCut e f).aruns = s.aruns := rfl
@[simp] theorem State.modCut_units (s : State) (e : Nat) (f : CutRun → CutRun) : (s.modCut e f).units = s.units := rfl
@[simp] theorem State.modCut_surge (s : State) (e : Nat) (f : CutRun → CutRun) : (s.modCut e f).surge = s.surge := rfl
@[simp] theorem State.modCut_cross (s : State) (e : Nat) (f : CutRun → CutRun) : (s.modCut e f).cross = s.cross := rfl
@[simp] theorem State.modCut_temps (s : State) (e : Nat) (f : CutRun → CutRun) : (s.modCut e f).temps = s.temps := rfl
@[simp] theorem State.modCut_hot (s : State) (e : Nat) (f : CutRun → CutRun) : (s.modCut e f).hot = s.hot := rfl
@[simp] theorem State.modCut_health (s : State) (e : Nat) (f : CutRun → CutRun) : (s.modCut e f).health = s.health := rfl
@[simp] theorem State.modCut_spare (s : State) (e : Nat) (f : CutRun → CutRun) : (s.modCut e f).spare = s.spare := rfl
@[simp] theorem State.modCut_fills (s : State) (e : Nat) (f : CutRun → CutRun) : (s.modCut e f).fills = s.fills := rfl
@[simp] theorem State.modCut_snap (s : State) (e : Nat) (f : CutRun → CutRun) : (s.modCut e f).snap = s.snap := rfl
@[simp] theorem State.modCut_nv (s : State) (e : Nat) (f : CutRun → CutRun) : (s.modCut e f).nv = s.nv := rfl
@[simp] theorem State.modCut_foreman (s : State) (e : Nat) (f : CutRun → CutRun) : (s.modCut e f).foreman = s.foreman := rfl
@[simp] theorem State.modCut_log (s : State) (e : Nat) (f : CutRun → CutRun) : (s.modCut e f).log = s.log := rfl
@[simp] theorem State.modCut_monitor (s : State) (e : Nat) (f : CutRun → CutRun) : (s.modCut e f).monitor = s.monitor := rfl
@[simp] theorem State.modCut_pairs (s : State) (e : Nat) (f : CutRun → CutRun) : (s.modCut e f).pairs = s.pairs := rfl
@[simp] theorem State.modCut_bus (s : State) (e : Nat) (f : CutRun → CutRun) : (s.modCut e f).bus = s.bus := rfl
@[simp] theorem State.modCut_stalls (s : State) (e : Nat) (f : CutRun → CutRun) : (s.modCut e f).stalls = s.stalls := rfl
@[simp] theorem State.modCut_moves (s : State) (e : Nat) (f : CutRun → CutRun) : (s.modCut e f).moves = s.moves := rfl
@[simp] theorem State.modCut_tallyWait (s : State) (e : Nat) (f : CutRun → CutRun) : (s.modCut e f).tallyWait = s.tallyWait := rfl

/-! `State.modHoist` -/

@[simp] theorem State.modHoist_pending (s : State) (h : Nat) (f : Hoist → Hoist) : (s.modHoist h f).pending = s.pending := rfl
@[simp] theorem State.modHoist_fresh (s : State) (h : Nat) (f : Hoist → Hoist) : (s.modHoist h f).fresh = s.fresh := rfl
@[simp] theorem State.modHoist_supply (s : State) (h : Nat) (f : Hoist → Hoist) : (s.modHoist h f).supply = s.supply := rfl
@[simp] theorem State.modHoist_nc (s : State) (h : Nat) (f : Hoist → Hoist) : (s.modHoist h f).nc = s.nc := rfl
@[simp] theorem State.modHoist_glb (s : State) (h : Nat) (f : Hoist → Hoist) : (s.modHoist h f).glb = s.glb := rfl
@[simp] theorem State.modHoist_tiles (s : State) (h : Nat) (f : Hoist → Hoist) : (s.modHoist h f).tiles = s.tiles := rfl
@[simp] theorem State.modHoist_faces (s : State) (h : Nat) (f : Hoist → Hoist) : (s.modHoist h f).faces = s.faces := rfl
@[simp] theorem State.modHoist_benches (s : State) (h : Nat) (f : Hoist → Hoist) : (s.modHoist h f).benches = s.benches := rfl
@[simp] theorem State.modHoist_kilns (s : State) (h : Nat) (f : Hoist → Hoist) : (s.modHoist h f).kilns = s.kilns := rfl
@[simp] theorem State.modHoist_yard (s : State) (h : Nat) (f : Hoist → Hoist) : (s.modHoist h f).yard = s.yard := rfl
@[simp] theorem State.modHoist_fabric (s : State) (h : Nat) (f : Hoist → Hoist) : (s.modHoist h f).fabric = s.fabric := rfl
@[simp] theorem State.modHoist_image (s : State) (h : Nat) (f : Hoist → Hoist) : (s.modHoist h f).image = s.image := rfl
@[simp] theorem State.modHoist_cfgDigest (s : State) (h : Nat) (f : Hoist → Hoist) : (s.modHoist h f).cfgDigest = s.cfgDigest := rfl
@[simp] theorem State.modHoist_load (s : State) (h : Nat) (f : Hoist → Hoist) : (s.modHoist h f).load = s.load := rfl
@[simp] theorem State.modHoist_tables (s : State) (h : Nat) (f : Hoist → Hoist) : (s.modHoist h f).tables = s.tables := rfl
@[simp] theorem State.modHoist_refused (s : State) (h : Nat) (f : Hoist → Hoist) : (s.modHoist h f).refused = s.refused := rfl
@[simp] theorem State.modHoist_tallies (s : State) (h : Nat) (f : Hoist → Hoist) : (s.modHoist h f).tallies = s.tallies := rfl
@[simp] theorem State.modHoist_apertureErr (s : State) (h : Nat) (f : Hoist → Hoist) : (s.modHoist h f).apertureErr = s.apertureErr := rfl
@[simp] theorem State.modHoist_working (s : State) (h : Nat) (f : Hoist → Hoist) : (s.modHoist h f).working = s.working := rfl
@[simp] theorem State.modHoist_cuts (s : State) (h : Nat) (f : Hoist → Hoist) : (s.modHoist h f).cuts = s.cuts := rfl
@[simp] theorem State.modHoist_seams (s : State) (h : Nat) (f : Hoist → Hoist) : (s.modHoist h f).seams = s.seams := rfl
@[simp] theorem State.modHoist_results (s : State) (h : Nat) (f : Hoist → Hoist) : (s.modHoist h f).results = s.results := rfl
@[simp] theorem State.modHoist_slots (s : State) (h : Nat) (f : Hoist → Hoist) : (s.modHoist h f).slots = s.slots := rfl
@[simp] theorem State.modHoist_tpbs (s : State) (h : Nat) (f : Hoist → Hoist) : (s.modHoist h f).tpbs = s.tpbs := rfl
@[simp] theorem State.modHoist_tileSlots (s : State) (h : Nat) (f : Hoist → Hoist) : (s.modHoist h f).tileSlots = s.tileSlots := rfl
@[simp] theorem State.modHoist_klnPerr (s : State) (h : Nat) (f : Hoist → Hoist) : (s.modHoist h f).klnPerr = s.klnPerr := rfl
@[simp] theorem State.modHoist_drvPerr (s : State) (h : Nat) (f : Hoist → Hoist) : (s.modHoist h f).drvPerr = s.drvPerr := rfl
@[simp] theorem State.modHoist_ports (s : State) (h : Nat) (f : Hoist → Hoist) : (s.modHoist h f).ports = s.ports := rfl
@[simp] theorem State.modHoist_xruns (s : State) (h : Nat) (f : Hoist → Hoist) : (s.modHoist h f).xruns = s.xruns := rfl
@[simp] theorem State.modHoist_aruns (s : State) (h : Nat) (f : Hoist → Hoist) : (s.modHoist h f).aruns = s.aruns := rfl
@[simp] theorem State.modHoist_units (s : State) (h : Nat) (f : Hoist → Hoist) : (s.modHoist h f).units = s.units := rfl
@[simp] theorem State.modHoist_surge (s : State) (h : Nat) (f : Hoist → Hoist) : (s.modHoist h f).surge = s.surge := rfl
@[simp] theorem State.modHoist_cross (s : State) (h : Nat) (f : Hoist → Hoist) : (s.modHoist h f).cross = s.cross := rfl
@[simp] theorem State.modHoist_temps (s : State) (h : Nat) (f : Hoist → Hoist) : (s.modHoist h f).temps = s.temps := rfl
@[simp] theorem State.modHoist_hot (s : State) (h : Nat) (f : Hoist → Hoist) : (s.modHoist h f).hot = s.hot := rfl
@[simp] theorem State.modHoist_health (s : State) (h : Nat) (f : Hoist → Hoist) : (s.modHoist h f).health = s.health := rfl
@[simp] theorem State.modHoist_spare (s : State) (h : Nat) (f : Hoist → Hoist) : (s.modHoist h f).spare = s.spare := rfl
@[simp] theorem State.modHoist_fills (s : State) (h : Nat) (f : Hoist → Hoist) : (s.modHoist h f).fills = s.fills := rfl
@[simp] theorem State.modHoist_snap (s : State) (h : Nat) (f : Hoist → Hoist) : (s.modHoist h f).snap = s.snap := rfl
@[simp] theorem State.modHoist_nv (s : State) (h : Nat) (f : Hoist → Hoist) : (s.modHoist h f).nv = s.nv := rfl
@[simp] theorem State.modHoist_foreman (s : State) (h : Nat) (f : Hoist → Hoist) : (s.modHoist h f).foreman = s.foreman := rfl
@[simp] theorem State.modHoist_log (s : State) (h : Nat) (f : Hoist → Hoist) : (s.modHoist h f).log = s.log := rfl
@[simp] theorem State.modHoist_monitor (s : State) (h : Nat) (f : Hoist → Hoist) : (s.modHoist h f).monitor = s.monitor := rfl
@[simp] theorem State.modHoist_pairs (s : State) (h : Nat) (f : Hoist → Hoist) : (s.modHoist h f).pairs = s.pairs := rfl
@[simp] theorem State.modHoist_bus (s : State) (h : Nat) (f : Hoist → Hoist) : (s.modHoist h f).bus = s.bus := rfl
@[simp] theorem State.modHoist_stalls (s : State) (h : Nat) (f : Hoist → Hoist) : (s.modHoist h f).stalls = s.stalls := rfl
@[simp] theorem State.modHoist_moves (s : State) (h : Nat) (f : Hoist → Hoist) : (s.modHoist h f).moves = s.moves := rfl
@[simp] theorem State.modHoist_tallyWait (s : State) (h : Nat) (f : Hoist → Hoist) : (s.modHoist h f).tallyWait = s.tallyWait := rfl

/-! `State.modPort` -/

@[simp] theorem State.modPort_pending (s : State) (p : Nat) (f : Port → Port) : (s.modPort p f).pending = s.pending := rfl
@[simp] theorem State.modPort_fresh (s : State) (p : Nat) (f : Port → Port) : (s.modPort p f).fresh = s.fresh := rfl
@[simp] theorem State.modPort_supply (s : State) (p : Nat) (f : Port → Port) : (s.modPort p f).supply = s.supply := rfl
@[simp] theorem State.modPort_nc (s : State) (p : Nat) (f : Port → Port) : (s.modPort p f).nc = s.nc := rfl
@[simp] theorem State.modPort_glb (s : State) (p : Nat) (f : Port → Port) : (s.modPort p f).glb = s.glb := rfl
@[simp] theorem State.modPort_tiles (s : State) (p : Nat) (f : Port → Port) : (s.modPort p f).tiles = s.tiles := rfl
@[simp] theorem State.modPort_faces (s : State) (p : Nat) (f : Port → Port) : (s.modPort p f).faces = s.faces := rfl
@[simp] theorem State.modPort_benches (s : State) (p : Nat) (f : Port → Port) : (s.modPort p f).benches = s.benches := rfl
@[simp] theorem State.modPort_kilns (s : State) (p : Nat) (f : Port → Port) : (s.modPort p f).kilns = s.kilns := rfl
@[simp] theorem State.modPort_yard (s : State) (p : Nat) (f : Port → Port) : (s.modPort p f).yard = s.yard := rfl
@[simp] theorem State.modPort_fabric (s : State) (p : Nat) (f : Port → Port) : (s.modPort p f).fabric = s.fabric := rfl
@[simp] theorem State.modPort_image (s : State) (p : Nat) (f : Port → Port) : (s.modPort p f).image = s.image := rfl
@[simp] theorem State.modPort_cfgDigest (s : State) (p : Nat) (f : Port → Port) : (s.modPort p f).cfgDigest = s.cfgDigest := rfl
@[simp] theorem State.modPort_load (s : State) (p : Nat) (f : Port → Port) : (s.modPort p f).load = s.load := rfl
@[simp] theorem State.modPort_tables (s : State) (p : Nat) (f : Port → Port) : (s.modPort p f).tables = s.tables := rfl
@[simp] theorem State.modPort_refused (s : State) (p : Nat) (f : Port → Port) : (s.modPort p f).refused = s.refused := rfl
@[simp] theorem State.modPort_tallies (s : State) (p : Nat) (f : Port → Port) : (s.modPort p f).tallies = s.tallies := rfl
@[simp] theorem State.modPort_apertureErr (s : State) (p : Nat) (f : Port → Port) : (s.modPort p f).apertureErr = s.apertureErr := rfl
@[simp] theorem State.modPort_working (s : State) (p : Nat) (f : Port → Port) : (s.modPort p f).working = s.working := rfl
@[simp] theorem State.modPort_cuts (s : State) (p : Nat) (f : Port → Port) : (s.modPort p f).cuts = s.cuts := rfl
@[simp] theorem State.modPort_seams (s : State) (p : Nat) (f : Port → Port) : (s.modPort p f).seams = s.seams := rfl
@[simp] theorem State.modPort_results (s : State) (p : Nat) (f : Port → Port) : (s.modPort p f).results = s.results := rfl
@[simp] theorem State.modPort_slots (s : State) (p : Nat) (f : Port → Port) : (s.modPort p f).slots = s.slots := rfl
@[simp] theorem State.modPort_hoists (s : State) (p : Nat) (f : Port → Port) : (s.modPort p f).hoists = s.hoists := rfl
@[simp] theorem State.modPort_tpbs (s : State) (p : Nat) (f : Port → Port) : (s.modPort p f).tpbs = s.tpbs := rfl
@[simp] theorem State.modPort_tileSlots (s : State) (p : Nat) (f : Port → Port) : (s.modPort p f).tileSlots = s.tileSlots := rfl
@[simp] theorem State.modPort_klnPerr (s : State) (p : Nat) (f : Port → Port) : (s.modPort p f).klnPerr = s.klnPerr := rfl
@[simp] theorem State.modPort_drvPerr (s : State) (p : Nat) (f : Port → Port) : (s.modPort p f).drvPerr = s.drvPerr := rfl
@[simp] theorem State.modPort_xruns (s : State) (p : Nat) (f : Port → Port) : (s.modPort p f).xruns = s.xruns := rfl
@[simp] theorem State.modPort_aruns (s : State) (p : Nat) (f : Port → Port) : (s.modPort p f).aruns = s.aruns := rfl
@[simp] theorem State.modPort_units (s : State) (p : Nat) (f : Port → Port) : (s.modPort p f).units = s.units := rfl
@[simp] theorem State.modPort_surge (s : State) (p : Nat) (f : Port → Port) : (s.modPort p f).surge = s.surge := rfl
@[simp] theorem State.modPort_cross (s : State) (p : Nat) (f : Port → Port) : (s.modPort p f).cross = s.cross := rfl
@[simp] theorem State.modPort_temps (s : State) (p : Nat) (f : Port → Port) : (s.modPort p f).temps = s.temps := rfl
@[simp] theorem State.modPort_hot (s : State) (p : Nat) (f : Port → Port) : (s.modPort p f).hot = s.hot := rfl
@[simp] theorem State.modPort_health (s : State) (p : Nat) (f : Port → Port) : (s.modPort p f).health = s.health := rfl
@[simp] theorem State.modPort_spare (s : State) (p : Nat) (f : Port → Port) : (s.modPort p f).spare = s.spare := rfl
@[simp] theorem State.modPort_fills (s : State) (p : Nat) (f : Port → Port) : (s.modPort p f).fills = s.fills := rfl
@[simp] theorem State.modPort_snap (s : State) (p : Nat) (f : Port → Port) : (s.modPort p f).snap = s.snap := rfl
@[simp] theorem State.modPort_nv (s : State) (p : Nat) (f : Port → Port) : (s.modPort p f).nv = s.nv := rfl
@[simp] theorem State.modPort_foreman (s : State) (p : Nat) (f : Port → Port) : (s.modPort p f).foreman = s.foreman := rfl
@[simp] theorem State.modPort_log (s : State) (p : Nat) (f : Port → Port) : (s.modPort p f).log = s.log := rfl
@[simp] theorem State.modPort_monitor (s : State) (p : Nat) (f : Port → Port) : (s.modPort p f).monitor = s.monitor := rfl
@[simp] theorem State.modPort_pairs (s : State) (p : Nat) (f : Port → Port) : (s.modPort p f).pairs = s.pairs := rfl
@[simp] theorem State.modPort_bus (s : State) (p : Nat) (f : Port → Port) : (s.modPort p f).bus = s.bus := rfl
@[simp] theorem State.modPort_stalls (s : State) (p : Nat) (f : Port → Port) : (s.modPort p f).stalls = s.stalls := rfl
@[simp] theorem State.modPort_moves (s : State) (p : Nat) (f : Port → Port) : (s.modPort p f).moves = s.moves := rfl
@[simp] theorem State.modPort_tallyWait (s : State) (p : Nat) (f : Port → Port) : (s.modPort p f).tallyWait = s.tallyWait := rfl

/-! `State.modUnit` -/

@[simp] theorem State.modUnit_pending (s : State) (k n : Nat) (f : UnitState → UnitState) : (s.modUnit k n f).pending = s.pending := rfl
@[simp] theorem State.modUnit_fresh (s : State) (k n : Nat) (f : UnitState → UnitState) : (s.modUnit k n f).fresh = s.fresh := rfl
@[simp] theorem State.modUnit_supply (s : State) (k n : Nat) (f : UnitState → UnitState) : (s.modUnit k n f).supply = s.supply := rfl
@[simp] theorem State.modUnit_nc (s : State) (k n : Nat) (f : UnitState → UnitState) : (s.modUnit k n f).nc = s.nc := rfl
@[simp] theorem State.modUnit_glb (s : State) (k n : Nat) (f : UnitState → UnitState) : (s.modUnit k n f).glb = s.glb := rfl
@[simp] theorem State.modUnit_tiles (s : State) (k n : Nat) (f : UnitState → UnitState) : (s.modUnit k n f).tiles = s.tiles := rfl
@[simp] theorem State.modUnit_faces (s : State) (k n : Nat) (f : UnitState → UnitState) : (s.modUnit k n f).faces = s.faces := rfl
@[simp] theorem State.modUnit_benches (s : State) (k n : Nat) (f : UnitState → UnitState) : (s.modUnit k n f).benches = s.benches := rfl
@[simp] theorem State.modUnit_kilns (s : State) (k n : Nat) (f : UnitState → UnitState) : (s.modUnit k n f).kilns = s.kilns := rfl
@[simp] theorem State.modUnit_yard (s : State) (k n : Nat) (f : UnitState → UnitState) : (s.modUnit k n f).yard = s.yard := rfl
@[simp] theorem State.modUnit_fabric (s : State) (k n : Nat) (f : UnitState → UnitState) : (s.modUnit k n f).fabric = s.fabric := rfl
@[simp] theorem State.modUnit_image (s : State) (k n : Nat) (f : UnitState → UnitState) : (s.modUnit k n f).image = s.image := rfl
@[simp] theorem State.modUnit_cfgDigest (s : State) (k n : Nat) (f : UnitState → UnitState) : (s.modUnit k n f).cfgDigest = s.cfgDigest := rfl
@[simp] theorem State.modUnit_load (s : State) (k n : Nat) (f : UnitState → UnitState) : (s.modUnit k n f).load = s.load := rfl
@[simp] theorem State.modUnit_tables (s : State) (k n : Nat) (f : UnitState → UnitState) : (s.modUnit k n f).tables = s.tables := rfl
@[simp] theorem State.modUnit_refused (s : State) (k n : Nat) (f : UnitState → UnitState) : (s.modUnit k n f).refused = s.refused := rfl
@[simp] theorem State.modUnit_tallies (s : State) (k n : Nat) (f : UnitState → UnitState) : (s.modUnit k n f).tallies = s.tallies := rfl
@[simp] theorem State.modUnit_apertureErr (s : State) (k n : Nat) (f : UnitState → UnitState) : (s.modUnit k n f).apertureErr = s.apertureErr := rfl
@[simp] theorem State.modUnit_working (s : State) (k n : Nat) (f : UnitState → UnitState) : (s.modUnit k n f).working = s.working := rfl
@[simp] theorem State.modUnit_cuts (s : State) (k n : Nat) (f : UnitState → UnitState) : (s.modUnit k n f).cuts = s.cuts := rfl
@[simp] theorem State.modUnit_seams (s : State) (k n : Nat) (f : UnitState → UnitState) : (s.modUnit k n f).seams = s.seams := rfl
@[simp] theorem State.modUnit_results (s : State) (k n : Nat) (f : UnitState → UnitState) : (s.modUnit k n f).results = s.results := rfl
@[simp] theorem State.modUnit_slots (s : State) (k n : Nat) (f : UnitState → UnitState) : (s.modUnit k n f).slots = s.slots := rfl
@[simp] theorem State.modUnit_hoists (s : State) (k n : Nat) (f : UnitState → UnitState) : (s.modUnit k n f).hoists = s.hoists := rfl
@[simp] theorem State.modUnit_tpbs (s : State) (k n : Nat) (f : UnitState → UnitState) : (s.modUnit k n f).tpbs = s.tpbs := rfl
@[simp] theorem State.modUnit_tileSlots (s : State) (k n : Nat) (f : UnitState → UnitState) : (s.modUnit k n f).tileSlots = s.tileSlots := rfl
@[simp] theorem State.modUnit_klnPerr (s : State) (k n : Nat) (f : UnitState → UnitState) : (s.modUnit k n f).klnPerr = s.klnPerr := rfl
@[simp] theorem State.modUnit_drvPerr (s : State) (k n : Nat) (f : UnitState → UnitState) : (s.modUnit k n f).drvPerr = s.drvPerr := rfl
@[simp] theorem State.modUnit_ports (s : State) (k n : Nat) (f : UnitState → UnitState) : (s.modUnit k n f).ports = s.ports := rfl
@[simp] theorem State.modUnit_xruns (s : State) (k n : Nat) (f : UnitState → UnitState) : (s.modUnit k n f).xruns = s.xruns := rfl
@[simp] theorem State.modUnit_aruns (s : State) (k n : Nat) (f : UnitState → UnitState) : (s.modUnit k n f).aruns = s.aruns := rfl
@[simp] theorem State.modUnit_surge (s : State) (k n : Nat) (f : UnitState → UnitState) : (s.modUnit k n f).surge = s.surge := rfl
@[simp] theorem State.modUnit_cross (s : State) (k n : Nat) (f : UnitState → UnitState) : (s.modUnit k n f).cross = s.cross := rfl
@[simp] theorem State.modUnit_temps (s : State) (k n : Nat) (f : UnitState → UnitState) : (s.modUnit k n f).temps = s.temps := rfl
@[simp] theorem State.modUnit_hot (s : State) (k n : Nat) (f : UnitState → UnitState) : (s.modUnit k n f).hot = s.hot := rfl
@[simp] theorem State.modUnit_health (s : State) (k n : Nat) (f : UnitState → UnitState) : (s.modUnit k n f).health = s.health := rfl
@[simp] theorem State.modUnit_spare (s : State) (k n : Nat) (f : UnitState → UnitState) : (s.modUnit k n f).spare = s.spare := rfl
@[simp] theorem State.modUnit_fills (s : State) (k n : Nat) (f : UnitState → UnitState) : (s.modUnit k n f).fills = s.fills := rfl
@[simp] theorem State.modUnit_snap (s : State) (k n : Nat) (f : UnitState → UnitState) : (s.modUnit k n f).snap = s.snap := rfl
@[simp] theorem State.modUnit_nv (s : State) (k n : Nat) (f : UnitState → UnitState) : (s.modUnit k n f).nv = s.nv := rfl
@[simp] theorem State.modUnit_foreman (s : State) (k n : Nat) (f : UnitState → UnitState) : (s.modUnit k n f).foreman = s.foreman := rfl
@[simp] theorem State.modUnit_log (s : State) (k n : Nat) (f : UnitState → UnitState) : (s.modUnit k n f).log = s.log := rfl
@[simp] theorem State.modUnit_monitor (s : State) (k n : Nat) (f : UnitState → UnitState) : (s.modUnit k n f).monitor = s.monitor := rfl
@[simp] theorem State.modUnit_pairs (s : State) (k n : Nat) (f : UnitState → UnitState) : (s.modUnit k n f).pairs = s.pairs := rfl
@[simp] theorem State.modUnit_bus (s : State) (k n : Nat) (f : UnitState → UnitState) : (s.modUnit k n f).bus = s.bus := rfl
@[simp] theorem State.modUnit_stalls (s : State) (k n : Nat) (f : UnitState → UnitState) : (s.modUnit k n f).stalls = s.stalls := rfl
@[simp] theorem State.modUnit_moves (s : State) (k n : Nat) (f : UnitState → UnitState) : (s.modUnit k n f).moves = s.moves := rfl
@[simp] theorem State.modUnit_tallyWait (s : State) (k n : Nat) (f : UnitState → UnitState) : (s.modUnit k n f).tallyWait = s.tallyWait := rfl

/-! `State.modCross` -/

@[simp] theorem State.modCross_pending (s : State) (g : Nat) (f : CrossGroup → CrossGroup) : (s.modCross g f).pending = s.pending := rfl
@[simp] theorem State.modCross_fresh (s : State) (g : Nat) (f : CrossGroup → CrossGroup) : (s.modCross g f).fresh = s.fresh := rfl
@[simp] theorem State.modCross_supply (s : State) (g : Nat) (f : CrossGroup → CrossGroup) : (s.modCross g f).supply = s.supply := rfl
@[simp] theorem State.modCross_nc (s : State) (g : Nat) (f : CrossGroup → CrossGroup) : (s.modCross g f).nc = s.nc := rfl
@[simp] theorem State.modCross_glb (s : State) (g : Nat) (f : CrossGroup → CrossGroup) : (s.modCross g f).glb = s.glb := rfl
@[simp] theorem State.modCross_tiles (s : State) (g : Nat) (f : CrossGroup → CrossGroup) : (s.modCross g f).tiles = s.tiles := rfl
@[simp] theorem State.modCross_faces (s : State) (g : Nat) (f : CrossGroup → CrossGroup) : (s.modCross g f).faces = s.faces := rfl
@[simp] theorem State.modCross_benches (s : State) (g : Nat) (f : CrossGroup → CrossGroup) : (s.modCross g f).benches = s.benches := rfl
@[simp] theorem State.modCross_kilns (s : State) (g : Nat) (f : CrossGroup → CrossGroup) : (s.modCross g f).kilns = s.kilns := rfl
@[simp] theorem State.modCross_yard (s : State) (g : Nat) (f : CrossGroup → CrossGroup) : (s.modCross g f).yard = s.yard := rfl
@[simp] theorem State.modCross_fabric (s : State) (g : Nat) (f : CrossGroup → CrossGroup) : (s.modCross g f).fabric = s.fabric := rfl
@[simp] theorem State.modCross_image (s : State) (g : Nat) (f : CrossGroup → CrossGroup) : (s.modCross g f).image = s.image := rfl
@[simp] theorem State.modCross_cfgDigest (s : State) (g : Nat) (f : CrossGroup → CrossGroup) : (s.modCross g f).cfgDigest = s.cfgDigest := rfl
@[simp] theorem State.modCross_load (s : State) (g : Nat) (f : CrossGroup → CrossGroup) : (s.modCross g f).load = s.load := rfl
@[simp] theorem State.modCross_tables (s : State) (g : Nat) (f : CrossGroup → CrossGroup) : (s.modCross g f).tables = s.tables := rfl
@[simp] theorem State.modCross_refused (s : State) (g : Nat) (f : CrossGroup → CrossGroup) : (s.modCross g f).refused = s.refused := rfl
@[simp] theorem State.modCross_tallies (s : State) (g : Nat) (f : CrossGroup → CrossGroup) : (s.modCross g f).tallies = s.tallies := rfl
@[simp] theorem State.modCross_apertureErr (s : State) (g : Nat) (f : CrossGroup → CrossGroup) : (s.modCross g f).apertureErr = s.apertureErr := rfl
@[simp] theorem State.modCross_working (s : State) (g : Nat) (f : CrossGroup → CrossGroup) : (s.modCross g f).working = s.working := rfl
@[simp] theorem State.modCross_cuts (s : State) (g : Nat) (f : CrossGroup → CrossGroup) : (s.modCross g f).cuts = s.cuts := rfl
@[simp] theorem State.modCross_seams (s : State) (g : Nat) (f : CrossGroup → CrossGroup) : (s.modCross g f).seams = s.seams := rfl
@[simp] theorem State.modCross_results (s : State) (g : Nat) (f : CrossGroup → CrossGroup) : (s.modCross g f).results = s.results := rfl
@[simp] theorem State.modCross_slots (s : State) (g : Nat) (f : CrossGroup → CrossGroup) : (s.modCross g f).slots = s.slots := rfl
@[simp] theorem State.modCross_hoists (s : State) (g : Nat) (f : CrossGroup → CrossGroup) : (s.modCross g f).hoists = s.hoists := rfl
@[simp] theorem State.modCross_tpbs (s : State) (g : Nat) (f : CrossGroup → CrossGroup) : (s.modCross g f).tpbs = s.tpbs := rfl
@[simp] theorem State.modCross_tileSlots (s : State) (g : Nat) (f : CrossGroup → CrossGroup) : (s.modCross g f).tileSlots = s.tileSlots := rfl
@[simp] theorem State.modCross_klnPerr (s : State) (g : Nat) (f : CrossGroup → CrossGroup) : (s.modCross g f).klnPerr = s.klnPerr := rfl
@[simp] theorem State.modCross_drvPerr (s : State) (g : Nat) (f : CrossGroup → CrossGroup) : (s.modCross g f).drvPerr = s.drvPerr := rfl
@[simp] theorem State.modCross_ports (s : State) (g : Nat) (f : CrossGroup → CrossGroup) : (s.modCross g f).ports = s.ports := rfl
@[simp] theorem State.modCross_xruns (s : State) (g : Nat) (f : CrossGroup → CrossGroup) : (s.modCross g f).xruns = s.xruns := rfl
@[simp] theorem State.modCross_aruns (s : State) (g : Nat) (f : CrossGroup → CrossGroup) : (s.modCross g f).aruns = s.aruns := rfl
@[simp] theorem State.modCross_units (s : State) (g : Nat) (f : CrossGroup → CrossGroup) : (s.modCross g f).units = s.units := rfl
@[simp] theorem State.modCross_surge (s : State) (g : Nat) (f : CrossGroup → CrossGroup) : (s.modCross g f).surge = s.surge := rfl
@[simp] theorem State.modCross_temps (s : State) (g : Nat) (f : CrossGroup → CrossGroup) : (s.modCross g f).temps = s.temps := rfl
@[simp] theorem State.modCross_hot (s : State) (g : Nat) (f : CrossGroup → CrossGroup) : (s.modCross g f).hot = s.hot := rfl
@[simp] theorem State.modCross_health (s : State) (g : Nat) (f : CrossGroup → CrossGroup) : (s.modCross g f).health = s.health := rfl
@[simp] theorem State.modCross_spare (s : State) (g : Nat) (f : CrossGroup → CrossGroup) : (s.modCross g f).spare = s.spare := rfl
@[simp] theorem State.modCross_fills (s : State) (g : Nat) (f : CrossGroup → CrossGroup) : (s.modCross g f).fills = s.fills := rfl
@[simp] theorem State.modCross_snap (s : State) (g : Nat) (f : CrossGroup → CrossGroup) : (s.modCross g f).snap = s.snap := rfl
@[simp] theorem State.modCross_nv (s : State) (g : Nat) (f : CrossGroup → CrossGroup) : (s.modCross g f).nv = s.nv := rfl
@[simp] theorem State.modCross_foreman (s : State) (g : Nat) (f : CrossGroup → CrossGroup) : (s.modCross g f).foreman = s.foreman := rfl
@[simp] theorem State.modCross_log (s : State) (g : Nat) (f : CrossGroup → CrossGroup) : (s.modCross g f).log = s.log := rfl
@[simp] theorem State.modCross_monitor (s : State) (g : Nat) (f : CrossGroup → CrossGroup) : (s.modCross g f).monitor = s.monitor := rfl
@[simp] theorem State.modCross_pairs (s : State) (g : Nat) (f : CrossGroup → CrossGroup) : (s.modCross g f).pairs = s.pairs := rfl
@[simp] theorem State.modCross_bus (s : State) (g : Nat) (f : CrossGroup → CrossGroup) : (s.modCross g f).bus = s.bus := rfl
@[simp] theorem State.modCross_stalls (s : State) (g : Nat) (f : CrossGroup → CrossGroup) : (s.modCross g f).stalls = s.stalls := rfl
@[simp] theorem State.modCross_moves (s : State) (g : Nat) (f : CrossGroup → CrossGroup) : (s.modCross g f).moves = s.moves := rfl
@[simp] theorem State.modCross_tallyWait (s : State) (g : Nat) (f : CrossGroup → CrossGroup) : (s.modCross g f).tallyWait = s.tallyWait := rfl

/-! `State.modTpb` -/

@[simp] theorem State.modTpb_pending (s : State) (j : Nat) (f : Tpb → Tpb) : (s.modTpb j f).pending = s.pending := rfl
@[simp] theorem State.modTpb_fresh (s : State) (j : Nat) (f : Tpb → Tpb) : (s.modTpb j f).fresh = s.fresh := rfl
@[simp] theorem State.modTpb_supply (s : State) (j : Nat) (f : Tpb → Tpb) : (s.modTpb j f).supply = s.supply := rfl
@[simp] theorem State.modTpb_nc (s : State) (j : Nat) (f : Tpb → Tpb) : (s.modTpb j f).nc = s.nc := rfl
@[simp] theorem State.modTpb_glb (s : State) (j : Nat) (f : Tpb → Tpb) : (s.modTpb j f).glb = s.glb := rfl
@[simp] theorem State.modTpb_tiles (s : State) (j : Nat) (f : Tpb → Tpb) : (s.modTpb j f).tiles = s.tiles := rfl
@[simp] theorem State.modTpb_faces (s : State) (j : Nat) (f : Tpb → Tpb) : (s.modTpb j f).faces = s.faces := rfl
@[simp] theorem State.modTpb_benches (s : State) (j : Nat) (f : Tpb → Tpb) : (s.modTpb j f).benches = s.benches := rfl
@[simp] theorem State.modTpb_kilns (s : State) (j : Nat) (f : Tpb → Tpb) : (s.modTpb j f).kilns = s.kilns := rfl
@[simp] theorem State.modTpb_yard (s : State) (j : Nat) (f : Tpb → Tpb) : (s.modTpb j f).yard = s.yard := rfl
@[simp] theorem State.modTpb_fabric (s : State) (j : Nat) (f : Tpb → Tpb) : (s.modTpb j f).fabric = s.fabric := rfl
@[simp] theorem State.modTpb_image (s : State) (j : Nat) (f : Tpb → Tpb) : (s.modTpb j f).image = s.image := rfl
@[simp] theorem State.modTpb_cfgDigest (s : State) (j : Nat) (f : Tpb → Tpb) : (s.modTpb j f).cfgDigest = s.cfgDigest := rfl
@[simp] theorem State.modTpb_load (s : State) (j : Nat) (f : Tpb → Tpb) : (s.modTpb j f).load = s.load := rfl
@[simp] theorem State.modTpb_tables (s : State) (j : Nat) (f : Tpb → Tpb) : (s.modTpb j f).tables = s.tables := rfl
@[simp] theorem State.modTpb_refused (s : State) (j : Nat) (f : Tpb → Tpb) : (s.modTpb j f).refused = s.refused := rfl
@[simp] theorem State.modTpb_tallies (s : State) (j : Nat) (f : Tpb → Tpb) : (s.modTpb j f).tallies = s.tallies := rfl
@[simp] theorem State.modTpb_apertureErr (s : State) (j : Nat) (f : Tpb → Tpb) : (s.modTpb j f).apertureErr = s.apertureErr := rfl
@[simp] theorem State.modTpb_working (s : State) (j : Nat) (f : Tpb → Tpb) : (s.modTpb j f).working = s.working := rfl
@[simp] theorem State.modTpb_cuts (s : State) (j : Nat) (f : Tpb → Tpb) : (s.modTpb j f).cuts = s.cuts := rfl
@[simp] theorem State.modTpb_seams (s : State) (j : Nat) (f : Tpb → Tpb) : (s.modTpb j f).seams = s.seams := rfl
@[simp] theorem State.modTpb_results (s : State) (j : Nat) (f : Tpb → Tpb) : (s.modTpb j f).results = s.results := rfl
@[simp] theorem State.modTpb_slots (s : State) (j : Nat) (f : Tpb → Tpb) : (s.modTpb j f).slots = s.slots := rfl
@[simp] theorem State.modTpb_hoists (s : State) (j : Nat) (f : Tpb → Tpb) : (s.modTpb j f).hoists = s.hoists := rfl
@[simp] theorem State.modTpb_tileSlots (s : State) (j : Nat) (f : Tpb → Tpb) : (s.modTpb j f).tileSlots = s.tileSlots := rfl
@[simp] theorem State.modTpb_klnPerr (s : State) (j : Nat) (f : Tpb → Tpb) : (s.modTpb j f).klnPerr = s.klnPerr := rfl
@[simp] theorem State.modTpb_drvPerr (s : State) (j : Nat) (f : Tpb → Tpb) : (s.modTpb j f).drvPerr = s.drvPerr := rfl
@[simp] theorem State.modTpb_ports (s : State) (j : Nat) (f : Tpb → Tpb) : (s.modTpb j f).ports = s.ports := rfl
@[simp] theorem State.modTpb_xruns (s : State) (j : Nat) (f : Tpb → Tpb) : (s.modTpb j f).xruns = s.xruns := rfl
@[simp] theorem State.modTpb_aruns (s : State) (j : Nat) (f : Tpb → Tpb) : (s.modTpb j f).aruns = s.aruns := rfl
@[simp] theorem State.modTpb_units (s : State) (j : Nat) (f : Tpb → Tpb) : (s.modTpb j f).units = s.units := rfl
@[simp] theorem State.modTpb_surge (s : State) (j : Nat) (f : Tpb → Tpb) : (s.modTpb j f).surge = s.surge := rfl
@[simp] theorem State.modTpb_cross (s : State) (j : Nat) (f : Tpb → Tpb) : (s.modTpb j f).cross = s.cross := rfl
@[simp] theorem State.modTpb_temps (s : State) (j : Nat) (f : Tpb → Tpb) : (s.modTpb j f).temps = s.temps := rfl
@[simp] theorem State.modTpb_hot (s : State) (j : Nat) (f : Tpb → Tpb) : (s.modTpb j f).hot = s.hot := rfl
@[simp] theorem State.modTpb_health (s : State) (j : Nat) (f : Tpb → Tpb) : (s.modTpb j f).health = s.health := rfl
@[simp] theorem State.modTpb_spare (s : State) (j : Nat) (f : Tpb → Tpb) : (s.modTpb j f).spare = s.spare := rfl
@[simp] theorem State.modTpb_fills (s : State) (j : Nat) (f : Tpb → Tpb) : (s.modTpb j f).fills = s.fills := rfl
@[simp] theorem State.modTpb_snap (s : State) (j : Nat) (f : Tpb → Tpb) : (s.modTpb j f).snap = s.snap := rfl
@[simp] theorem State.modTpb_nv (s : State) (j : Nat) (f : Tpb → Tpb) : (s.modTpb j f).nv = s.nv := rfl
@[simp] theorem State.modTpb_foreman (s : State) (j : Nat) (f : Tpb → Tpb) : (s.modTpb j f).foreman = s.foreman := rfl
@[simp] theorem State.modTpb_log (s : State) (j : Nat) (f : Tpb → Tpb) : (s.modTpb j f).log = s.log := rfl
@[simp] theorem State.modTpb_monitor (s : State) (j : Nat) (f : Tpb → Tpb) : (s.modTpb j f).monitor = s.monitor := rfl
@[simp] theorem State.modTpb_pairs (s : State) (j : Nat) (f : Tpb → Tpb) : (s.modTpb j f).pairs = s.pairs := rfl
@[simp] theorem State.modTpb_bus (s : State) (j : Nat) (f : Tpb → Tpb) : (s.modTpb j f).bus = s.bus := rfl
@[simp] theorem State.modTpb_stalls (s : State) (j : Nat) (f : Tpb → Tpb) : (s.modTpb j f).stalls = s.stalls := rfl
@[simp] theorem State.modTpb_moves (s : State) (j : Nat) (f : Tpb → Tpb) : (s.modTpb j f).moves = s.moves := rfl
@[simp] theorem State.modTpb_tallyWait (s : State) (j : Nat) (f : Tpb → Tpb) : (s.modTpb j f).tallyWait = s.tallyWait := rfl

/-! `State.modGlb` -/

@[simp] theorem State.modGlb_pending (s : State) (f : Glb → Glb) : (s.modGlb f).pending = s.pending := rfl
@[simp] theorem State.modGlb_fresh (s : State) (f : Glb → Glb) : (s.modGlb f).fresh = s.fresh := rfl
@[simp] theorem State.modGlb_supply (s : State) (f : Glb → Glb) : (s.modGlb f).supply = s.supply := rfl
@[simp] theorem State.modGlb_nc (s : State) (f : Glb → Glb) : (s.modGlb f).nc = s.nc := rfl
@[simp] theorem State.modGlb_tiles (s : State) (f : Glb → Glb) : (s.modGlb f).tiles = s.tiles := rfl
@[simp] theorem State.modGlb_faces (s : State) (f : Glb → Glb) : (s.modGlb f).faces = s.faces := rfl
@[simp] theorem State.modGlb_benches (s : State) (f : Glb → Glb) : (s.modGlb f).benches = s.benches := rfl
@[simp] theorem State.modGlb_kilns (s : State) (f : Glb → Glb) : (s.modGlb f).kilns = s.kilns := rfl
@[simp] theorem State.modGlb_yard (s : State) (f : Glb → Glb) : (s.modGlb f).yard = s.yard := rfl
@[simp] theorem State.modGlb_fabric (s : State) (f : Glb → Glb) : (s.modGlb f).fabric = s.fabric := rfl
@[simp] theorem State.modGlb_image (s : State) (f : Glb → Glb) : (s.modGlb f).image = s.image := rfl
@[simp] theorem State.modGlb_cfgDigest (s : State) (f : Glb → Glb) : (s.modGlb f).cfgDigest = s.cfgDigest := rfl
@[simp] theorem State.modGlb_load (s : State) (f : Glb → Glb) : (s.modGlb f).load = s.load := rfl
@[simp] theorem State.modGlb_tables (s : State) (f : Glb → Glb) : (s.modGlb f).tables = s.tables := rfl
@[simp] theorem State.modGlb_refused (s : State) (f : Glb → Glb) : (s.modGlb f).refused = s.refused := rfl
@[simp] theorem State.modGlb_tallies (s : State) (f : Glb → Glb) : (s.modGlb f).tallies = s.tallies := rfl
@[simp] theorem State.modGlb_apertureErr (s : State) (f : Glb → Glb) : (s.modGlb f).apertureErr = s.apertureErr := rfl
@[simp] theorem State.modGlb_working (s : State) (f : Glb → Glb) : (s.modGlb f).working = s.working := rfl
@[simp] theorem State.modGlb_cuts (s : State) (f : Glb → Glb) : (s.modGlb f).cuts = s.cuts := rfl
@[simp] theorem State.modGlb_seams (s : State) (f : Glb → Glb) : (s.modGlb f).seams = s.seams := rfl
@[simp] theorem State.modGlb_results (s : State) (f : Glb → Glb) : (s.modGlb f).results = s.results := rfl
@[simp] theorem State.modGlb_slots (s : State) (f : Glb → Glb) : (s.modGlb f).slots = s.slots := rfl
@[simp] theorem State.modGlb_hoists (s : State) (f : Glb → Glb) : (s.modGlb f).hoists = s.hoists := rfl
@[simp] theorem State.modGlb_tpbs (s : State) (f : Glb → Glb) : (s.modGlb f).tpbs = s.tpbs := rfl
@[simp] theorem State.modGlb_tileSlots (s : State) (f : Glb → Glb) : (s.modGlb f).tileSlots = s.tileSlots := rfl
@[simp] theorem State.modGlb_klnPerr (s : State) (f : Glb → Glb) : (s.modGlb f).klnPerr = s.klnPerr := rfl
@[simp] theorem State.modGlb_drvPerr (s : State) (f : Glb → Glb) : (s.modGlb f).drvPerr = s.drvPerr := rfl
@[simp] theorem State.modGlb_ports (s : State) (f : Glb → Glb) : (s.modGlb f).ports = s.ports := rfl
@[simp] theorem State.modGlb_xruns (s : State) (f : Glb → Glb) : (s.modGlb f).xruns = s.xruns := rfl
@[simp] theorem State.modGlb_aruns (s : State) (f : Glb → Glb) : (s.modGlb f).aruns = s.aruns := rfl
@[simp] theorem State.modGlb_units (s : State) (f : Glb → Glb) : (s.modGlb f).units = s.units := rfl
@[simp] theorem State.modGlb_surge (s : State) (f : Glb → Glb) : (s.modGlb f).surge = s.surge := rfl
@[simp] theorem State.modGlb_cross (s : State) (f : Glb → Glb) : (s.modGlb f).cross = s.cross := rfl
@[simp] theorem State.modGlb_temps (s : State) (f : Glb → Glb) : (s.modGlb f).temps = s.temps := rfl
@[simp] theorem State.modGlb_hot (s : State) (f : Glb → Glb) : (s.modGlb f).hot = s.hot := rfl
@[simp] theorem State.modGlb_health (s : State) (f : Glb → Glb) : (s.modGlb f).health = s.health := rfl
@[simp] theorem State.modGlb_spare (s : State) (f : Glb → Glb) : (s.modGlb f).spare = s.spare := rfl
@[simp] theorem State.modGlb_fills (s : State) (f : Glb → Glb) : (s.modGlb f).fills = s.fills := rfl
@[simp] theorem State.modGlb_snap (s : State) (f : Glb → Glb) : (s.modGlb f).snap = s.snap := rfl
@[simp] theorem State.modGlb_nv (s : State) (f : Glb → Glb) : (s.modGlb f).nv = s.nv := rfl
@[simp] theorem State.modGlb_foreman (s : State) (f : Glb → Glb) : (s.modGlb f).foreman = s.foreman := rfl
@[simp] theorem State.modGlb_log (s : State) (f : Glb → Glb) : (s.modGlb f).log = s.log := rfl
@[simp] theorem State.modGlb_monitor (s : State) (f : Glb → Glb) : (s.modGlb f).monitor = s.monitor := rfl
@[simp] theorem State.modGlb_pairs (s : State) (f : Glb → Glb) : (s.modGlb f).pairs = s.pairs := rfl
@[simp] theorem State.modGlb_bus (s : State) (f : Glb → Glb) : (s.modGlb f).bus = s.bus := rfl
@[simp] theorem State.modGlb_stalls (s : State) (f : Glb → Glb) : (s.modGlb f).stalls = s.stalls := rfl
@[simp] theorem State.modGlb_moves (s : State) (f : Glb → Glb) : (s.modGlb f).moves = s.moves := rfl
@[simp] theorem State.modGlb_tallyWait (s : State) (f : Glb → Glb) : (s.modGlb f).tallyWait = s.tallyWait := rfl

/-! `State.modSpare` -/

@[simp] theorem State.modSpare_pending (s : State) (f : SpareMap → SpareMap) : (s.modSpare f).pending = s.pending := rfl
@[simp] theorem State.modSpare_fresh (s : State) (f : SpareMap → SpareMap) : (s.modSpare f).fresh = s.fresh := rfl
@[simp] theorem State.modSpare_supply (s : State) (f : SpareMap → SpareMap) : (s.modSpare f).supply = s.supply := rfl
@[simp] theorem State.modSpare_nc (s : State) (f : SpareMap → SpareMap) : (s.modSpare f).nc = s.nc := rfl
@[simp] theorem State.modSpare_glb (s : State) (f : SpareMap → SpareMap) : (s.modSpare f).glb = s.glb := rfl
@[simp] theorem State.modSpare_tiles (s : State) (f : SpareMap → SpareMap) : (s.modSpare f).tiles = s.tiles := rfl
@[simp] theorem State.modSpare_faces (s : State) (f : SpareMap → SpareMap) : (s.modSpare f).faces = s.faces := rfl
@[simp] theorem State.modSpare_benches (s : State) (f : SpareMap → SpareMap) : (s.modSpare f).benches = s.benches := rfl
@[simp] theorem State.modSpare_kilns (s : State) (f : SpareMap → SpareMap) : (s.modSpare f).kilns = s.kilns := rfl
@[simp] theorem State.modSpare_yard (s : State) (f : SpareMap → SpareMap) : (s.modSpare f).yard = s.yard := rfl
@[simp] theorem State.modSpare_fabric (s : State) (f : SpareMap → SpareMap) : (s.modSpare f).fabric = s.fabric := rfl
@[simp] theorem State.modSpare_image (s : State) (f : SpareMap → SpareMap) : (s.modSpare f).image = s.image := rfl
@[simp] theorem State.modSpare_cfgDigest (s : State) (f : SpareMap → SpareMap) : (s.modSpare f).cfgDigest = s.cfgDigest := rfl
@[simp] theorem State.modSpare_load (s : State) (f : SpareMap → SpareMap) : (s.modSpare f).load = s.load := rfl
@[simp] theorem State.modSpare_tables (s : State) (f : SpareMap → SpareMap) : (s.modSpare f).tables = s.tables := rfl
@[simp] theorem State.modSpare_refused (s : State) (f : SpareMap → SpareMap) : (s.modSpare f).refused = s.refused := rfl
@[simp] theorem State.modSpare_tallies (s : State) (f : SpareMap → SpareMap) : (s.modSpare f).tallies = s.tallies := rfl
@[simp] theorem State.modSpare_apertureErr (s : State) (f : SpareMap → SpareMap) : (s.modSpare f).apertureErr = s.apertureErr := rfl
@[simp] theorem State.modSpare_working (s : State) (f : SpareMap → SpareMap) : (s.modSpare f).working = s.working := rfl
@[simp] theorem State.modSpare_cuts (s : State) (f : SpareMap → SpareMap) : (s.modSpare f).cuts = s.cuts := rfl
@[simp] theorem State.modSpare_seams (s : State) (f : SpareMap → SpareMap) : (s.modSpare f).seams = s.seams := rfl
@[simp] theorem State.modSpare_results (s : State) (f : SpareMap → SpareMap) : (s.modSpare f).results = s.results := rfl
@[simp] theorem State.modSpare_slots (s : State) (f : SpareMap → SpareMap) : (s.modSpare f).slots = s.slots := rfl
@[simp] theorem State.modSpare_hoists (s : State) (f : SpareMap → SpareMap) : (s.modSpare f).hoists = s.hoists := rfl
@[simp] theorem State.modSpare_tpbs (s : State) (f : SpareMap → SpareMap) : (s.modSpare f).tpbs = s.tpbs := rfl
@[simp] theorem State.modSpare_tileSlots (s : State) (f : SpareMap → SpareMap) : (s.modSpare f).tileSlots = s.tileSlots := rfl
@[simp] theorem State.modSpare_klnPerr (s : State) (f : SpareMap → SpareMap) : (s.modSpare f).klnPerr = s.klnPerr := rfl
@[simp] theorem State.modSpare_drvPerr (s : State) (f : SpareMap → SpareMap) : (s.modSpare f).drvPerr = s.drvPerr := rfl
@[simp] theorem State.modSpare_ports (s : State) (f : SpareMap → SpareMap) : (s.modSpare f).ports = s.ports := rfl
@[simp] theorem State.modSpare_xruns (s : State) (f : SpareMap → SpareMap) : (s.modSpare f).xruns = s.xruns := rfl
@[simp] theorem State.modSpare_aruns (s : State) (f : SpareMap → SpareMap) : (s.modSpare f).aruns = s.aruns := rfl
@[simp] theorem State.modSpare_units (s : State) (f : SpareMap → SpareMap) : (s.modSpare f).units = s.units := rfl
@[simp] theorem State.modSpare_surge (s : State) (f : SpareMap → SpareMap) : (s.modSpare f).surge = s.surge := rfl
@[simp] theorem State.modSpare_cross (s : State) (f : SpareMap → SpareMap) : (s.modSpare f).cross = s.cross := rfl
@[simp] theorem State.modSpare_temps (s : State) (f : SpareMap → SpareMap) : (s.modSpare f).temps = s.temps := rfl
@[simp] theorem State.modSpare_hot (s : State) (f : SpareMap → SpareMap) : (s.modSpare f).hot = s.hot := rfl
@[simp] theorem State.modSpare_health (s : State) (f : SpareMap → SpareMap) : (s.modSpare f).health = s.health := rfl
@[simp] theorem State.modSpare_fills (s : State) (f : SpareMap → SpareMap) : (s.modSpare f).fills = s.fills := rfl
@[simp] theorem State.modSpare_snap (s : State) (f : SpareMap → SpareMap) : (s.modSpare f).snap = s.snap := rfl
@[simp] theorem State.modSpare_nv (s : State) (f : SpareMap → SpareMap) : (s.modSpare f).nv = s.nv := rfl
@[simp] theorem State.modSpare_foreman (s : State) (f : SpareMap → SpareMap) : (s.modSpare f).foreman = s.foreman := rfl
@[simp] theorem State.modSpare_log (s : State) (f : SpareMap → SpareMap) : (s.modSpare f).log = s.log := rfl
@[simp] theorem State.modSpare_monitor (s : State) (f : SpareMap → SpareMap) : (s.modSpare f).monitor = s.monitor := rfl
@[simp] theorem State.modSpare_pairs (s : State) (f : SpareMap → SpareMap) : (s.modSpare f).pairs = s.pairs := rfl
@[simp] theorem State.modSpare_bus (s : State) (f : SpareMap → SpareMap) : (s.modSpare f).bus = s.bus := rfl
@[simp] theorem State.modSpare_stalls (s : State) (f : SpareMap → SpareMap) : (s.modSpare f).stalls = s.stalls := rfl
@[simp] theorem State.modSpare_moves (s : State) (f : SpareMap → SpareMap) : (s.modSpare f).moves = s.moves := rfl
@[simp] theorem State.modSpare_tallyWait (s : State) (f : SpareMap → SpareMap) : (s.modSpare f).tallyWait = s.tallyWait := rfl

/-! `State.modArun` -/

@[simp] theorem State.modArun_pending (s : State) (e : Nat) (f : ARun → ARun) : (s.modArun e f).pending = s.pending := rfl
@[simp] theorem State.modArun_fresh (s : State) (e : Nat) (f : ARun → ARun) : (s.modArun e f).fresh = s.fresh := rfl
@[simp] theorem State.modArun_supply (s : State) (e : Nat) (f : ARun → ARun) : (s.modArun e f).supply = s.supply := rfl
@[simp] theorem State.modArun_nc (s : State) (e : Nat) (f : ARun → ARun) : (s.modArun e f).nc = s.nc := rfl
@[simp] theorem State.modArun_glb (s : State) (e : Nat) (f : ARun → ARun) : (s.modArun e f).glb = s.glb := rfl
@[simp] theorem State.modArun_tiles (s : State) (e : Nat) (f : ARun → ARun) : (s.modArun e f).tiles = s.tiles := rfl
@[simp] theorem State.modArun_faces (s : State) (e : Nat) (f : ARun → ARun) : (s.modArun e f).faces = s.faces := rfl
@[simp] theorem State.modArun_benches (s : State) (e : Nat) (f : ARun → ARun) : (s.modArun e f).benches = s.benches := rfl
@[simp] theorem State.modArun_kilns (s : State) (e : Nat) (f : ARun → ARun) : (s.modArun e f).kilns = s.kilns := rfl
@[simp] theorem State.modArun_yard (s : State) (e : Nat) (f : ARun → ARun) : (s.modArun e f).yard = s.yard := rfl
@[simp] theorem State.modArun_fabric (s : State) (e : Nat) (f : ARun → ARun) : (s.modArun e f).fabric = s.fabric := rfl
@[simp] theorem State.modArun_image (s : State) (e : Nat) (f : ARun → ARun) : (s.modArun e f).image = s.image := rfl
@[simp] theorem State.modArun_cfgDigest (s : State) (e : Nat) (f : ARun → ARun) : (s.modArun e f).cfgDigest = s.cfgDigest := rfl
@[simp] theorem State.modArun_load (s : State) (e : Nat) (f : ARun → ARun) : (s.modArun e f).load = s.load := rfl
@[simp] theorem State.modArun_tables (s : State) (e : Nat) (f : ARun → ARun) : (s.modArun e f).tables = s.tables := rfl
@[simp] theorem State.modArun_refused (s : State) (e : Nat) (f : ARun → ARun) : (s.modArun e f).refused = s.refused := rfl
@[simp] theorem State.modArun_tallies (s : State) (e : Nat) (f : ARun → ARun) : (s.modArun e f).tallies = s.tallies := rfl
@[simp] theorem State.modArun_apertureErr (s : State) (e : Nat) (f : ARun → ARun) : (s.modArun e f).apertureErr = s.apertureErr := rfl
@[simp] theorem State.modArun_working (s : State) (e : Nat) (f : ARun → ARun) : (s.modArun e f).working = s.working := rfl
@[simp] theorem State.modArun_cuts (s : State) (e : Nat) (f : ARun → ARun) : (s.modArun e f).cuts = s.cuts := rfl
@[simp] theorem State.modArun_seams (s : State) (e : Nat) (f : ARun → ARun) : (s.modArun e f).seams = s.seams := rfl
@[simp] theorem State.modArun_results (s : State) (e : Nat) (f : ARun → ARun) : (s.modArun e f).results = s.results := rfl
@[simp] theorem State.modArun_slots (s : State) (e : Nat) (f : ARun → ARun) : (s.modArun e f).slots = s.slots := rfl
@[simp] theorem State.modArun_hoists (s : State) (e : Nat) (f : ARun → ARun) : (s.modArun e f).hoists = s.hoists := rfl
@[simp] theorem State.modArun_tpbs (s : State) (e : Nat) (f : ARun → ARun) : (s.modArun e f).tpbs = s.tpbs := rfl
@[simp] theorem State.modArun_tileSlots (s : State) (e : Nat) (f : ARun → ARun) : (s.modArun e f).tileSlots = s.tileSlots := rfl
@[simp] theorem State.modArun_klnPerr (s : State) (e : Nat) (f : ARun → ARun) : (s.modArun e f).klnPerr = s.klnPerr := rfl
@[simp] theorem State.modArun_drvPerr (s : State) (e : Nat) (f : ARun → ARun) : (s.modArun e f).drvPerr = s.drvPerr := rfl
@[simp] theorem State.modArun_ports (s : State) (e : Nat) (f : ARun → ARun) : (s.modArun e f).ports = s.ports := rfl
@[simp] theorem State.modArun_xruns (s : State) (e : Nat) (f : ARun → ARun) : (s.modArun e f).xruns = s.xruns := rfl
@[simp] theorem State.modArun_units (s : State) (e : Nat) (f : ARun → ARun) : (s.modArun e f).units = s.units := rfl
@[simp] theorem State.modArun_surge (s : State) (e : Nat) (f : ARun → ARun) : (s.modArun e f).surge = s.surge := rfl
@[simp] theorem State.modArun_cross (s : State) (e : Nat) (f : ARun → ARun) : (s.modArun e f).cross = s.cross := rfl
@[simp] theorem State.modArun_temps (s : State) (e : Nat) (f : ARun → ARun) : (s.modArun e f).temps = s.temps := rfl
@[simp] theorem State.modArun_hot (s : State) (e : Nat) (f : ARun → ARun) : (s.modArun e f).hot = s.hot := rfl
@[simp] theorem State.modArun_health (s : State) (e : Nat) (f : ARun → ARun) : (s.modArun e f).health = s.health := rfl
@[simp] theorem State.modArun_spare (s : State) (e : Nat) (f : ARun → ARun) : (s.modArun e f).spare = s.spare := rfl
@[simp] theorem State.modArun_fills (s : State) (e : Nat) (f : ARun → ARun) : (s.modArun e f).fills = s.fills := rfl
@[simp] theorem State.modArun_snap (s : State) (e : Nat) (f : ARun → ARun) : (s.modArun e f).snap = s.snap := rfl
@[simp] theorem State.modArun_nv (s : State) (e : Nat) (f : ARun → ARun) : (s.modArun e f).nv = s.nv := rfl
@[simp] theorem State.modArun_foreman (s : State) (e : Nat) (f : ARun → ARun) : (s.modArun e f).foreman = s.foreman := rfl
@[simp] theorem State.modArun_log (s : State) (e : Nat) (f : ARun → ARun) : (s.modArun e f).log = s.log := rfl
@[simp] theorem State.modArun_monitor (s : State) (e : Nat) (f : ARun → ARun) : (s.modArun e f).monitor = s.monitor := rfl
@[simp] theorem State.modArun_pairs (s : State) (e : Nat) (f : ARun → ARun) : (s.modArun e f).pairs = s.pairs := rfl
@[simp] theorem State.modArun_bus (s : State) (e : Nat) (f : ARun → ARun) : (s.modArun e f).bus = s.bus := rfl
@[simp] theorem State.modArun_stalls (s : State) (e : Nat) (f : ARun → ARun) : (s.modArun e f).stalls = s.stalls := rfl
@[simp] theorem State.modArun_moves (s : State) (e : Nat) (f : ARun → ARun) : (s.modArun e f).moves = s.moves := rfl
@[simp] theorem State.modArun_tallyWait (s : State) (e : Nat) (f : ARun → ARun) : (s.modArun e f).tallyWait = s.tallyWait := rfl

/-! `State.modMon` -/

@[simp] theorem State.modMon_pending (s : State) (f : Monitor → Monitor) : (s.modMon f).pending = s.pending := rfl
@[simp] theorem State.modMon_fresh (s : State) (f : Monitor → Monitor) : (s.modMon f).fresh = s.fresh := rfl
@[simp] theorem State.modMon_supply (s : State) (f : Monitor → Monitor) : (s.modMon f).supply = s.supply := rfl
@[simp] theorem State.modMon_nc (s : State) (f : Monitor → Monitor) : (s.modMon f).nc = s.nc := rfl
@[simp] theorem State.modMon_glb (s : State) (f : Monitor → Monitor) : (s.modMon f).glb = s.glb := rfl
@[simp] theorem State.modMon_tiles (s : State) (f : Monitor → Monitor) : (s.modMon f).tiles = s.tiles := rfl
@[simp] theorem State.modMon_faces (s : State) (f : Monitor → Monitor) : (s.modMon f).faces = s.faces := rfl
@[simp] theorem State.modMon_benches (s : State) (f : Monitor → Monitor) : (s.modMon f).benches = s.benches := rfl
@[simp] theorem State.modMon_kilns (s : State) (f : Monitor → Monitor) : (s.modMon f).kilns = s.kilns := rfl
@[simp] theorem State.modMon_yard (s : State) (f : Monitor → Monitor) : (s.modMon f).yard = s.yard := rfl
@[simp] theorem State.modMon_fabric (s : State) (f : Monitor → Monitor) : (s.modMon f).fabric = s.fabric := rfl
@[simp] theorem State.modMon_image (s : State) (f : Monitor → Monitor) : (s.modMon f).image = s.image := rfl
@[simp] theorem State.modMon_cfgDigest (s : State) (f : Monitor → Monitor) : (s.modMon f).cfgDigest = s.cfgDigest := rfl
@[simp] theorem State.modMon_load (s : State) (f : Monitor → Monitor) : (s.modMon f).load = s.load := rfl
@[simp] theorem State.modMon_tables (s : State) (f : Monitor → Monitor) : (s.modMon f).tables = s.tables := rfl
@[simp] theorem State.modMon_refused (s : State) (f : Monitor → Monitor) : (s.modMon f).refused = s.refused := rfl
@[simp] theorem State.modMon_tallies (s : State) (f : Monitor → Monitor) : (s.modMon f).tallies = s.tallies := rfl
@[simp] theorem State.modMon_apertureErr (s : State) (f : Monitor → Monitor) : (s.modMon f).apertureErr = s.apertureErr := rfl
@[simp] theorem State.modMon_working (s : State) (f : Monitor → Monitor) : (s.modMon f).working = s.working := rfl
@[simp] theorem State.modMon_cuts (s : State) (f : Monitor → Monitor) : (s.modMon f).cuts = s.cuts := rfl
@[simp] theorem State.modMon_seams (s : State) (f : Monitor → Monitor) : (s.modMon f).seams = s.seams := rfl
@[simp] theorem State.modMon_results (s : State) (f : Monitor → Monitor) : (s.modMon f).results = s.results := rfl
@[simp] theorem State.modMon_slots (s : State) (f : Monitor → Monitor) : (s.modMon f).slots = s.slots := rfl
@[simp] theorem State.modMon_hoists (s : State) (f : Monitor → Monitor) : (s.modMon f).hoists = s.hoists := rfl
@[simp] theorem State.modMon_tpbs (s : State) (f : Monitor → Monitor) : (s.modMon f).tpbs = s.tpbs := rfl
@[simp] theorem State.modMon_tileSlots (s : State) (f : Monitor → Monitor) : (s.modMon f).tileSlots = s.tileSlots := rfl
@[simp] theorem State.modMon_klnPerr (s : State) (f : Monitor → Monitor) : (s.modMon f).klnPerr = s.klnPerr := rfl
@[simp] theorem State.modMon_drvPerr (s : State) (f : Monitor → Monitor) : (s.modMon f).drvPerr = s.drvPerr := rfl
@[simp] theorem State.modMon_ports (s : State) (f : Monitor → Monitor) : (s.modMon f).ports = s.ports := rfl
@[simp] theorem State.modMon_xruns (s : State) (f : Monitor → Monitor) : (s.modMon f).xruns = s.xruns := rfl
@[simp] theorem State.modMon_aruns (s : State) (f : Monitor → Monitor) : (s.modMon f).aruns = s.aruns := rfl
@[simp] theorem State.modMon_units (s : State) (f : Monitor → Monitor) : (s.modMon f).units = s.units := rfl
@[simp] theorem State.modMon_surge (s : State) (f : Monitor → Monitor) : (s.modMon f).surge = s.surge := rfl
@[simp] theorem State.modMon_cross (s : State) (f : Monitor → Monitor) : (s.modMon f).cross = s.cross := rfl
@[simp] theorem State.modMon_temps (s : State) (f : Monitor → Monitor) : (s.modMon f).temps = s.temps := rfl
@[simp] theorem State.modMon_hot (s : State) (f : Monitor → Monitor) : (s.modMon f).hot = s.hot := rfl
@[simp] theorem State.modMon_health (s : State) (f : Monitor → Monitor) : (s.modMon f).health = s.health := rfl
@[simp] theorem State.modMon_spare (s : State) (f : Monitor → Monitor) : (s.modMon f).spare = s.spare := rfl
@[simp] theorem State.modMon_fills (s : State) (f : Monitor → Monitor) : (s.modMon f).fills = s.fills := rfl
@[simp] theorem State.modMon_snap (s : State) (f : Monitor → Monitor) : (s.modMon f).snap = s.snap := rfl
@[simp] theorem State.modMon_nv (s : State) (f : Monitor → Monitor) : (s.modMon f).nv = s.nv := rfl
@[simp] theorem State.modMon_foreman (s : State) (f : Monitor → Monitor) : (s.modMon f).foreman = s.foreman := rfl
@[simp] theorem State.modMon_log (s : State) (f : Monitor → Monitor) : (s.modMon f).log = s.log := rfl
@[simp] theorem State.modMon_pairs (s : State) (f : Monitor → Monitor) : (s.modMon f).pairs = s.pairs := rfl
@[simp] theorem State.modMon_bus (s : State) (f : Monitor → Monitor) : (s.modMon f).bus = s.bus := rfl
@[simp] theorem State.modMon_stalls (s : State) (f : Monitor → Monitor) : (s.modMon f).stalls = s.stalls := rfl
@[simp] theorem State.modMon_moves (s : State) (f : Monitor → Monitor) : (s.modMon f).moves = s.moves := rfl
@[simp] theorem State.modMon_tallyWait (s : State) (f : Monitor → Monitor) : (s.modMon f).tallyWait = s.tallyWait := rfl

/-! `State.modPair` -/

@[simp] theorem State.modPair_pending (s : State) (who : Requester) (lo : Nat) (f : PairSide → PairSide) : (s.modPair who lo f).pending = s.pending := rfl
@[simp] theorem State.modPair_fresh (s : State) (who : Requester) (lo : Nat) (f : PairSide → PairSide) : (s.modPair who lo f).fresh = s.fresh := rfl
@[simp] theorem State.modPair_supply (s : State) (who : Requester) (lo : Nat) (f : PairSide → PairSide) : (s.modPair who lo f).supply = s.supply := rfl
@[simp] theorem State.modPair_nc (s : State) (who : Requester) (lo : Nat) (f : PairSide → PairSide) : (s.modPair who lo f).nc = s.nc := rfl
@[simp] theorem State.modPair_glb (s : State) (who : Requester) (lo : Nat) (f : PairSide → PairSide) : (s.modPair who lo f).glb = s.glb := rfl
@[simp] theorem State.modPair_tiles (s : State) (who : Requester) (lo : Nat) (f : PairSide → PairSide) : (s.modPair who lo f).tiles = s.tiles := rfl
@[simp] theorem State.modPair_faces (s : State) (who : Requester) (lo : Nat) (f : PairSide → PairSide) : (s.modPair who lo f).faces = s.faces := rfl
@[simp] theorem State.modPair_benches (s : State) (who : Requester) (lo : Nat) (f : PairSide → PairSide) : (s.modPair who lo f).benches = s.benches := rfl
@[simp] theorem State.modPair_kilns (s : State) (who : Requester) (lo : Nat) (f : PairSide → PairSide) : (s.modPair who lo f).kilns = s.kilns := rfl
@[simp] theorem State.modPair_yard (s : State) (who : Requester) (lo : Nat) (f : PairSide → PairSide) : (s.modPair who lo f).yard = s.yard := rfl
@[simp] theorem State.modPair_fabric (s : State) (who : Requester) (lo : Nat) (f : PairSide → PairSide) : (s.modPair who lo f).fabric = s.fabric := rfl
@[simp] theorem State.modPair_image (s : State) (who : Requester) (lo : Nat) (f : PairSide → PairSide) : (s.modPair who lo f).image = s.image := rfl
@[simp] theorem State.modPair_cfgDigest (s : State) (who : Requester) (lo : Nat) (f : PairSide → PairSide) : (s.modPair who lo f).cfgDigest = s.cfgDigest := rfl
@[simp] theorem State.modPair_load (s : State) (who : Requester) (lo : Nat) (f : PairSide → PairSide) : (s.modPair who lo f).load = s.load := rfl
@[simp] theorem State.modPair_tables (s : State) (who : Requester) (lo : Nat) (f : PairSide → PairSide) : (s.modPair who lo f).tables = s.tables := rfl
@[simp] theorem State.modPair_refused (s : State) (who : Requester) (lo : Nat) (f : PairSide → PairSide) : (s.modPair who lo f).refused = s.refused := rfl
@[simp] theorem State.modPair_tallies (s : State) (who : Requester) (lo : Nat) (f : PairSide → PairSide) : (s.modPair who lo f).tallies = s.tallies := rfl
@[simp] theorem State.modPair_apertureErr (s : State) (who : Requester) (lo : Nat) (f : PairSide → PairSide) : (s.modPair who lo f).apertureErr = s.apertureErr := rfl
@[simp] theorem State.modPair_working (s : State) (who : Requester) (lo : Nat) (f : PairSide → PairSide) : (s.modPair who lo f).working = s.working := rfl
@[simp] theorem State.modPair_cuts (s : State) (who : Requester) (lo : Nat) (f : PairSide → PairSide) : (s.modPair who lo f).cuts = s.cuts := rfl
@[simp] theorem State.modPair_seams (s : State) (who : Requester) (lo : Nat) (f : PairSide → PairSide) : (s.modPair who lo f).seams = s.seams := rfl
@[simp] theorem State.modPair_results (s : State) (who : Requester) (lo : Nat) (f : PairSide → PairSide) : (s.modPair who lo f).results = s.results := rfl
@[simp] theorem State.modPair_slots (s : State) (who : Requester) (lo : Nat) (f : PairSide → PairSide) : (s.modPair who lo f).slots = s.slots := rfl
@[simp] theorem State.modPair_hoists (s : State) (who : Requester) (lo : Nat) (f : PairSide → PairSide) : (s.modPair who lo f).hoists = s.hoists := rfl
@[simp] theorem State.modPair_tpbs (s : State) (who : Requester) (lo : Nat) (f : PairSide → PairSide) : (s.modPair who lo f).tpbs = s.tpbs := rfl
@[simp] theorem State.modPair_tileSlots (s : State) (who : Requester) (lo : Nat) (f : PairSide → PairSide) : (s.modPair who lo f).tileSlots = s.tileSlots := rfl
@[simp] theorem State.modPair_klnPerr (s : State) (who : Requester) (lo : Nat) (f : PairSide → PairSide) : (s.modPair who lo f).klnPerr = s.klnPerr := rfl
@[simp] theorem State.modPair_drvPerr (s : State) (who : Requester) (lo : Nat) (f : PairSide → PairSide) : (s.modPair who lo f).drvPerr = s.drvPerr := rfl
@[simp] theorem State.modPair_ports (s : State) (who : Requester) (lo : Nat) (f : PairSide → PairSide) : (s.modPair who lo f).ports = s.ports := rfl
@[simp] theorem State.modPair_xruns (s : State) (who : Requester) (lo : Nat) (f : PairSide → PairSide) : (s.modPair who lo f).xruns = s.xruns := rfl
@[simp] theorem State.modPair_aruns (s : State) (who : Requester) (lo : Nat) (f : PairSide → PairSide) : (s.modPair who lo f).aruns = s.aruns := rfl
@[simp] theorem State.modPair_units (s : State) (who : Requester) (lo : Nat) (f : PairSide → PairSide) : (s.modPair who lo f).units = s.units := rfl
@[simp] theorem State.modPair_surge (s : State) (who : Requester) (lo : Nat) (f : PairSide → PairSide) : (s.modPair who lo f).surge = s.surge := rfl
@[simp] theorem State.modPair_cross (s : State) (who : Requester) (lo : Nat) (f : PairSide → PairSide) : (s.modPair who lo f).cross = s.cross := rfl
@[simp] theorem State.modPair_temps (s : State) (who : Requester) (lo : Nat) (f : PairSide → PairSide) : (s.modPair who lo f).temps = s.temps := rfl
@[simp] theorem State.modPair_hot (s : State) (who : Requester) (lo : Nat) (f : PairSide → PairSide) : (s.modPair who lo f).hot = s.hot := rfl
@[simp] theorem State.modPair_health (s : State) (who : Requester) (lo : Nat) (f : PairSide → PairSide) : (s.modPair who lo f).health = s.health := rfl
@[simp] theorem State.modPair_spare (s : State) (who : Requester) (lo : Nat) (f : PairSide → PairSide) : (s.modPair who lo f).spare = s.spare := rfl
@[simp] theorem State.modPair_fills (s : State) (who : Requester) (lo : Nat) (f : PairSide → PairSide) : (s.modPair who lo f).fills = s.fills := rfl
@[simp] theorem State.modPair_snap (s : State) (who : Requester) (lo : Nat) (f : PairSide → PairSide) : (s.modPair who lo f).snap = s.snap := rfl
@[simp] theorem State.modPair_nv (s : State) (who : Requester) (lo : Nat) (f : PairSide → PairSide) : (s.modPair who lo f).nv = s.nv := rfl
@[simp] theorem State.modPair_foreman (s : State) (who : Requester) (lo : Nat) (f : PairSide → PairSide) : (s.modPair who lo f).foreman = s.foreman := rfl
@[simp] theorem State.modPair_log (s : State) (who : Requester) (lo : Nat) (f : PairSide → PairSide) : (s.modPair who lo f).log = s.log := rfl
@[simp] theorem State.modPair_monitor (s : State) (who : Requester) (lo : Nat) (f : PairSide → PairSide) : (s.modPair who lo f).monitor = s.monitor := rfl
@[simp] theorem State.modPair_bus (s : State) (who : Requester) (lo : Nat) (f : PairSide → PairSide) : (s.modPair who lo f).bus = s.bus := rfl
@[simp] theorem State.modPair_stalls (s : State) (who : Requester) (lo : Nat) (f : PairSide → PairSide) : (s.modPair who lo f).stalls = s.stalls := rfl
@[simp] theorem State.modPair_moves (s : State) (who : Requester) (lo : Nat) (f : PairSide → PairSide) : (s.modPair who lo f).moves = s.moves := rfl
@[simp] theorem State.modPair_tallyWait (s : State) (who : Requester) (lo : Nat) (f : PairSide → PairSide) : (s.modPair who lo f).tallyWait = s.tallyWait := rfl

/-! `State.setEvt` -/

@[simp] theorem State.setEvt_pending (s : State) (i : Nat) : (s.setEvt i).pending = s.pending := rfl
@[simp] theorem State.setEvt_fresh (s : State) (i : Nat) : (s.setEvt i).fresh = s.fresh := rfl
@[simp] theorem State.setEvt_supply (s : State) (i : Nat) : (s.setEvt i).supply = s.supply := rfl
@[simp] theorem State.setEvt_nc (s : State) (i : Nat) : (s.setEvt i).nc = s.nc := rfl
@[simp] theorem State.setEvt_tiles (s : State) (i : Nat) : (s.setEvt i).tiles = s.tiles := rfl
@[simp] theorem State.setEvt_faces (s : State) (i : Nat) : (s.setEvt i).faces = s.faces := rfl
@[simp] theorem State.setEvt_benches (s : State) (i : Nat) : (s.setEvt i).benches = s.benches := rfl
@[simp] theorem State.setEvt_kilns (s : State) (i : Nat) : (s.setEvt i).kilns = s.kilns := rfl
@[simp] theorem State.setEvt_yard (s : State) (i : Nat) : (s.setEvt i).yard = s.yard := rfl
@[simp] theorem State.setEvt_fabric (s : State) (i : Nat) : (s.setEvt i).fabric = s.fabric := rfl
@[simp] theorem State.setEvt_image (s : State) (i : Nat) : (s.setEvt i).image = s.image := rfl
@[simp] theorem State.setEvt_cfgDigest (s : State) (i : Nat) : (s.setEvt i).cfgDigest = s.cfgDigest := rfl
@[simp] theorem State.setEvt_load (s : State) (i : Nat) : (s.setEvt i).load = s.load := rfl
@[simp] theorem State.setEvt_tables (s : State) (i : Nat) : (s.setEvt i).tables = s.tables := rfl
@[simp] theorem State.setEvt_refused (s : State) (i : Nat) : (s.setEvt i).refused = s.refused := rfl
@[simp] theorem State.setEvt_tallies (s : State) (i : Nat) : (s.setEvt i).tallies = s.tallies := rfl
@[simp] theorem State.setEvt_apertureErr (s : State) (i : Nat) : (s.setEvt i).apertureErr = s.apertureErr := rfl
@[simp] theorem State.setEvt_working (s : State) (i : Nat) : (s.setEvt i).working = s.working := rfl
@[simp] theorem State.setEvt_cuts (s : State) (i : Nat) : (s.setEvt i).cuts = s.cuts := rfl
@[simp] theorem State.setEvt_seams (s : State) (i : Nat) : (s.setEvt i).seams = s.seams := rfl
@[simp] theorem State.setEvt_results (s : State) (i : Nat) : (s.setEvt i).results = s.results := rfl
@[simp] theorem State.setEvt_slots (s : State) (i : Nat) : (s.setEvt i).slots = s.slots := rfl
@[simp] theorem State.setEvt_hoists (s : State) (i : Nat) : (s.setEvt i).hoists = s.hoists := rfl
@[simp] theorem State.setEvt_tpbs (s : State) (i : Nat) : (s.setEvt i).tpbs = s.tpbs := rfl
@[simp] theorem State.setEvt_tileSlots (s : State) (i : Nat) : (s.setEvt i).tileSlots = s.tileSlots := rfl
@[simp] theorem State.setEvt_klnPerr (s : State) (i : Nat) : (s.setEvt i).klnPerr = s.klnPerr := rfl
@[simp] theorem State.setEvt_drvPerr (s : State) (i : Nat) : (s.setEvt i).drvPerr = s.drvPerr := rfl
@[simp] theorem State.setEvt_ports (s : State) (i : Nat) : (s.setEvt i).ports = s.ports := rfl
@[simp] theorem State.setEvt_xruns (s : State) (i : Nat) : (s.setEvt i).xruns = s.xruns := rfl
@[simp] theorem State.setEvt_aruns (s : State) (i : Nat) : (s.setEvt i).aruns = s.aruns := rfl
@[simp] theorem State.setEvt_units (s : State) (i : Nat) : (s.setEvt i).units = s.units := rfl
@[simp] theorem State.setEvt_surge (s : State) (i : Nat) : (s.setEvt i).surge = s.surge := rfl
@[simp] theorem State.setEvt_cross (s : State) (i : Nat) : (s.setEvt i).cross = s.cross := rfl
@[simp] theorem State.setEvt_temps (s : State) (i : Nat) : (s.setEvt i).temps = s.temps := rfl
@[simp] theorem State.setEvt_hot (s : State) (i : Nat) : (s.setEvt i).hot = s.hot := rfl
@[simp] theorem State.setEvt_health (s : State) (i : Nat) : (s.setEvt i).health = s.health := rfl
@[simp] theorem State.setEvt_spare (s : State) (i : Nat) : (s.setEvt i).spare = s.spare := rfl
@[simp] theorem State.setEvt_fills (s : State) (i : Nat) : (s.setEvt i).fills = s.fills := rfl
@[simp] theorem State.setEvt_snap (s : State) (i : Nat) : (s.setEvt i).snap = s.snap := rfl
@[simp] theorem State.setEvt_nv (s : State) (i : Nat) : (s.setEvt i).nv = s.nv := rfl
@[simp] theorem State.setEvt_foreman (s : State) (i : Nat) : (s.setEvt i).foreman = s.foreman := rfl
@[simp] theorem State.setEvt_log (s : State) (i : Nat) : (s.setEvt i).log = s.log := rfl
@[simp] theorem State.setEvt_monitor (s : State) (i : Nat) : (s.setEvt i).monitor = s.monitor := rfl
@[simp] theorem State.setEvt_pairs (s : State) (i : Nat) : (s.setEvt i).pairs = s.pairs := rfl
@[simp] theorem State.setEvt_bus (s : State) (i : Nat) : (s.setEvt i).bus = s.bus := rfl
@[simp] theorem State.setEvt_stalls (s : State) (i : Nat) : (s.setEvt i).stalls = s.stalls := rfl
@[simp] theorem State.setEvt_moves (s : State) (i : Nat) : (s.setEvt i).moves = s.moves := rfl
@[simp] theorem State.setEvt_tallyWait (s : State) (i : Nat) : (s.setEvt i).tallyWait = s.tallyWait := rfl

/-! `State.setClk` -/

@[simp] theorem State.setClk_pending (s : State) (k : Nat) (c : ClkState) : (s.setClk k c).pending = s.pending := rfl
@[simp] theorem State.setClk_fresh (s : State) (k : Nat) (c : ClkState) : (s.setClk k c).fresh = s.fresh := rfl
@[simp] theorem State.setClk_supply (s : State) (k : Nat) (c : ClkState) : (s.setClk k c).supply = s.supply := rfl
@[simp] theorem State.setClk_nc (s : State) (k : Nat) (c : ClkState) : (s.setClk k c).nc = s.nc := rfl
@[simp] theorem State.setClk_glb (s : State) (k : Nat) (c : ClkState) : (s.setClk k c).glb = s.glb := rfl
@[simp] theorem State.setClk_faces (s : State) (k : Nat) (c : ClkState) : (s.setClk k c).faces = s.faces := rfl
@[simp] theorem State.setClk_benches (s : State) (k : Nat) (c : ClkState) : (s.setClk k c).benches = s.benches := rfl
@[simp] theorem State.setClk_kilns (s : State) (k : Nat) (c : ClkState) : (s.setClk k c).kilns = s.kilns := rfl
@[simp] theorem State.setClk_yard (s : State) (k : Nat) (c : ClkState) : (s.setClk k c).yard = s.yard := rfl
@[simp] theorem State.setClk_fabric (s : State) (k : Nat) (c : ClkState) : (s.setClk k c).fabric = s.fabric := rfl
@[simp] theorem State.setClk_image (s : State) (k : Nat) (c : ClkState) : (s.setClk k c).image = s.image := rfl
@[simp] theorem State.setClk_cfgDigest (s : State) (k : Nat) (c : ClkState) : (s.setClk k c).cfgDigest = s.cfgDigest := rfl
@[simp] theorem State.setClk_load (s : State) (k : Nat) (c : ClkState) : (s.setClk k c).load = s.load := rfl
@[simp] theorem State.setClk_tables (s : State) (k : Nat) (c : ClkState) : (s.setClk k c).tables = s.tables := rfl
@[simp] theorem State.setClk_refused (s : State) (k : Nat) (c : ClkState) : (s.setClk k c).refused = s.refused := rfl
@[simp] theorem State.setClk_tallies (s : State) (k : Nat) (c : ClkState) : (s.setClk k c).tallies = s.tallies := rfl
@[simp] theorem State.setClk_apertureErr (s : State) (k : Nat) (c : ClkState) : (s.setClk k c).apertureErr = s.apertureErr := rfl
@[simp] theorem State.setClk_working (s : State) (k : Nat) (c : ClkState) : (s.setClk k c).working = s.working := rfl
@[simp] theorem State.setClk_cuts (s : State) (k : Nat) (c : ClkState) : (s.setClk k c).cuts = s.cuts := rfl
@[simp] theorem State.setClk_seams (s : State) (k : Nat) (c : ClkState) : (s.setClk k c).seams = s.seams := rfl
@[simp] theorem State.setClk_results (s : State) (k : Nat) (c : ClkState) : (s.setClk k c).results = s.results := rfl
@[simp] theorem State.setClk_slots (s : State) (k : Nat) (c : ClkState) : (s.setClk k c).slots = s.slots := rfl
@[simp] theorem State.setClk_hoists (s : State) (k : Nat) (c : ClkState) : (s.setClk k c).hoists = s.hoists := rfl
@[simp] theorem State.setClk_tpbs (s : State) (k : Nat) (c : ClkState) : (s.setClk k c).tpbs = s.tpbs := rfl
@[simp] theorem State.setClk_tileSlots (s : State) (k : Nat) (c : ClkState) : (s.setClk k c).tileSlots = s.tileSlots := rfl
@[simp] theorem State.setClk_klnPerr (s : State) (k : Nat) (c : ClkState) : (s.setClk k c).klnPerr = s.klnPerr := rfl
@[simp] theorem State.setClk_drvPerr (s : State) (k : Nat) (c : ClkState) : (s.setClk k c).drvPerr = s.drvPerr := rfl
@[simp] theorem State.setClk_ports (s : State) (k : Nat) (c : ClkState) : (s.setClk k c).ports = s.ports := rfl
@[simp] theorem State.setClk_xruns (s : State) (k : Nat) (c : ClkState) : (s.setClk k c).xruns = s.xruns := rfl
@[simp] theorem State.setClk_aruns (s : State) (k : Nat) (c : ClkState) : (s.setClk k c).aruns = s.aruns := rfl
@[simp] theorem State.setClk_units (s : State) (k : Nat) (c : ClkState) : (s.setClk k c).units = s.units := rfl
@[simp] theorem State.setClk_surge (s : State) (k : Nat) (c : ClkState) : (s.setClk k c).surge = s.surge := rfl
@[simp] theorem State.setClk_cross (s : State) (k : Nat) (c : ClkState) : (s.setClk k c).cross = s.cross := rfl
@[simp] theorem State.setClk_temps (s : State) (k : Nat) (c : ClkState) : (s.setClk k c).temps = s.temps := rfl
@[simp] theorem State.setClk_hot (s : State) (k : Nat) (c : ClkState) : (s.setClk k c).hot = s.hot := rfl
@[simp] theorem State.setClk_health (s : State) (k : Nat) (c : ClkState) : (s.setClk k c).health = s.health := rfl
@[simp] theorem State.setClk_spare (s : State) (k : Nat) (c : ClkState) : (s.setClk k c).spare = s.spare := rfl
@[simp] theorem State.setClk_fills (s : State) (k : Nat) (c : ClkState) : (s.setClk k c).fills = s.fills := rfl
@[simp] theorem State.setClk_snap (s : State) (k : Nat) (c : ClkState) : (s.setClk k c).snap = s.snap := rfl
@[simp] theorem State.setClk_nv (s : State) (k : Nat) (c : ClkState) : (s.setClk k c).nv = s.nv := rfl
@[simp] theorem State.setClk_foreman (s : State) (k : Nat) (c : ClkState) : (s.setClk k c).foreman = s.foreman := rfl
@[simp] theorem State.setClk_log (s : State) (k : Nat) (c : ClkState) : (s.setClk k c).log = s.log := rfl
@[simp] theorem State.setClk_monitor (s : State) (k : Nat) (c : ClkState) : (s.setClk k c).monitor = s.monitor := rfl
@[simp] theorem State.setClk_pairs (s : State) (k : Nat) (c : ClkState) : (s.setClk k c).pairs = s.pairs := rfl
@[simp] theorem State.setClk_bus (s : State) (k : Nat) (c : ClkState) : (s.setClk k c).bus = s.bus := rfl
@[simp] theorem State.setClk_stalls (s : State) (k : Nat) (c : ClkState) : (s.setClk k c).stalls = s.stalls := rfl
@[simp] theorem State.setClk_moves (s : State) (k : Nat) (c : ClkState) : (s.setClk k c).moves = s.moves := rfl
@[simp] theorem State.setClk_tallyWait (s : State) (k : Nat) (c : ClkState) : (s.setClk k c).tallyWait = s.tallyWait := rfl

/-! `State.setBoot` -/

@[simp] theorem State.setBoot_pending (s : State) (b : Nat) : (s.setBoot b).pending = s.pending := rfl
@[simp] theorem State.setBoot_fresh (s : State) (b : Nat) : (s.setBoot b).fresh = s.fresh := rfl
@[simp] theorem State.setBoot_supply (s : State) (b : Nat) : (s.setBoot b).supply = s.supply := rfl
@[simp] theorem State.setBoot_nc (s : State) (b : Nat) : (s.setBoot b).nc = s.nc := rfl
@[simp] theorem State.setBoot_tiles (s : State) (b : Nat) : (s.setBoot b).tiles = s.tiles := rfl
@[simp] theorem State.setBoot_faces (s : State) (b : Nat) : (s.setBoot b).faces = s.faces := rfl
@[simp] theorem State.setBoot_benches (s : State) (b : Nat) : (s.setBoot b).benches = s.benches := rfl
@[simp] theorem State.setBoot_kilns (s : State) (b : Nat) : (s.setBoot b).kilns = s.kilns := rfl
@[simp] theorem State.setBoot_yard (s : State) (b : Nat) : (s.setBoot b).yard = s.yard := rfl
@[simp] theorem State.setBoot_fabric (s : State) (b : Nat) : (s.setBoot b).fabric = s.fabric := rfl
@[simp] theorem State.setBoot_image (s : State) (b : Nat) : (s.setBoot b).image = s.image := rfl
@[simp] theorem State.setBoot_cfgDigest (s : State) (b : Nat) : (s.setBoot b).cfgDigest = s.cfgDigest := rfl
@[simp] theorem State.setBoot_load (s : State) (b : Nat) : (s.setBoot b).load = s.load := rfl
@[simp] theorem State.setBoot_tables (s : State) (b : Nat) : (s.setBoot b).tables = s.tables := rfl
@[simp] theorem State.setBoot_refused (s : State) (b : Nat) : (s.setBoot b).refused = s.refused := rfl
@[simp] theorem State.setBoot_tallies (s : State) (b : Nat) : (s.setBoot b).tallies = s.tallies := rfl
@[simp] theorem State.setBoot_apertureErr (s : State) (b : Nat) : (s.setBoot b).apertureErr = s.apertureErr := rfl
@[simp] theorem State.setBoot_working (s : State) (b : Nat) : (s.setBoot b).working = s.working := rfl
@[simp] theorem State.setBoot_cuts (s : State) (b : Nat) : (s.setBoot b).cuts = s.cuts := rfl
@[simp] theorem State.setBoot_seams (s : State) (b : Nat) : (s.setBoot b).seams = s.seams := rfl
@[simp] theorem State.setBoot_results (s : State) (b : Nat) : (s.setBoot b).results = s.results := rfl
@[simp] theorem State.setBoot_slots (s : State) (b : Nat) : (s.setBoot b).slots = s.slots := rfl
@[simp] theorem State.setBoot_hoists (s : State) (b : Nat) : (s.setBoot b).hoists = s.hoists := rfl
@[simp] theorem State.setBoot_tpbs (s : State) (b : Nat) : (s.setBoot b).tpbs = s.tpbs := rfl
@[simp] theorem State.setBoot_tileSlots (s : State) (b : Nat) : (s.setBoot b).tileSlots = s.tileSlots := rfl
@[simp] theorem State.setBoot_klnPerr (s : State) (b : Nat) : (s.setBoot b).klnPerr = s.klnPerr := rfl
@[simp] theorem State.setBoot_drvPerr (s : State) (b : Nat) : (s.setBoot b).drvPerr = s.drvPerr := rfl
@[simp] theorem State.setBoot_ports (s : State) (b : Nat) : (s.setBoot b).ports = s.ports := rfl
@[simp] theorem State.setBoot_xruns (s : State) (b : Nat) : (s.setBoot b).xruns = s.xruns := rfl
@[simp] theorem State.setBoot_aruns (s : State) (b : Nat) : (s.setBoot b).aruns = s.aruns := rfl
@[simp] theorem State.setBoot_units (s : State) (b : Nat) : (s.setBoot b).units = s.units := rfl
@[simp] theorem State.setBoot_surge (s : State) (b : Nat) : (s.setBoot b).surge = s.surge := rfl
@[simp] theorem State.setBoot_cross (s : State) (b : Nat) : (s.setBoot b).cross = s.cross := rfl
@[simp] theorem State.setBoot_temps (s : State) (b : Nat) : (s.setBoot b).temps = s.temps := rfl
@[simp] theorem State.setBoot_hot (s : State) (b : Nat) : (s.setBoot b).hot = s.hot := rfl
@[simp] theorem State.setBoot_health (s : State) (b : Nat) : (s.setBoot b).health = s.health := rfl
@[simp] theorem State.setBoot_spare (s : State) (b : Nat) : (s.setBoot b).spare = s.spare := rfl
@[simp] theorem State.setBoot_fills (s : State) (b : Nat) : (s.setBoot b).fills = s.fills := rfl
@[simp] theorem State.setBoot_snap (s : State) (b : Nat) : (s.setBoot b).snap = s.snap := rfl
@[simp] theorem State.setBoot_nv (s : State) (b : Nat) : (s.setBoot b).nv = s.nv := rfl
@[simp] theorem State.setBoot_foreman (s : State) (b : Nat) : (s.setBoot b).foreman = s.foreman := rfl
@[simp] theorem State.setBoot_log (s : State) (b : Nat) : (s.setBoot b).log = s.log := rfl
@[simp] theorem State.setBoot_monitor (s : State) (b : Nat) : (s.setBoot b).monitor = s.monitor := rfl
@[simp] theorem State.setBoot_pairs (s : State) (b : Nat) : (s.setBoot b).pairs = s.pairs := rfl
@[simp] theorem State.setBoot_bus (s : State) (b : Nat) : (s.setBoot b).bus = s.bus := rfl
@[simp] theorem State.setBoot_stalls (s : State) (b : Nat) : (s.setBoot b).stalls = s.stalls := rfl
@[simp] theorem State.setBoot_moves (s : State) (b : Nat) : (s.setBoot b).moves = s.moves := rfl
@[simp] theorem State.setBoot_tallyWait (s : State) (b : Nat) : (s.setBoot b).tallyWait = s.tallyWait := rfl

/-! `State.logRec` -/

@[simp] theorem State.logRec_pending (s : State) (code w fl a0 a1 : Nat) : (s.logRec code w fl a0 a1).pending = s.pending := rfl
@[simp] theorem State.logRec_fresh (s : State) (code w fl a0 a1 : Nat) : (s.logRec code w fl a0 a1).fresh = s.fresh := rfl
@[simp] theorem State.logRec_supply (s : State) (code w fl a0 a1 : Nat) : (s.logRec code w fl a0 a1).supply = s.supply := rfl
@[simp] theorem State.logRec_nc (s : State) (code w fl a0 a1 : Nat) : (s.logRec code w fl a0 a1).nc = s.nc := rfl
@[simp] theorem State.logRec_glb (s : State) (code w fl a0 a1 : Nat) : (s.logRec code w fl a0 a1).glb = s.glb := rfl
@[simp] theorem State.logRec_tiles (s : State) (code w fl a0 a1 : Nat) : (s.logRec code w fl a0 a1).tiles = s.tiles := rfl
@[simp] theorem State.logRec_faces (s : State) (code w fl a0 a1 : Nat) : (s.logRec code w fl a0 a1).faces = s.faces := rfl
@[simp] theorem State.logRec_benches (s : State) (code w fl a0 a1 : Nat) : (s.logRec code w fl a0 a1).benches = s.benches := rfl
@[simp] theorem State.logRec_kilns (s : State) (code w fl a0 a1 : Nat) : (s.logRec code w fl a0 a1).kilns = s.kilns := rfl
@[simp] theorem State.logRec_yard (s : State) (code w fl a0 a1 : Nat) : (s.logRec code w fl a0 a1).yard = s.yard := rfl
@[simp] theorem State.logRec_fabric (s : State) (code w fl a0 a1 : Nat) : (s.logRec code w fl a0 a1).fabric = s.fabric := rfl
@[simp] theorem State.logRec_image (s : State) (code w fl a0 a1 : Nat) : (s.logRec code w fl a0 a1).image = s.image := rfl
@[simp] theorem State.logRec_cfgDigest (s : State) (code w fl a0 a1 : Nat) : (s.logRec code w fl a0 a1).cfgDigest = s.cfgDigest := rfl
@[simp] theorem State.logRec_load (s : State) (code w fl a0 a1 : Nat) : (s.logRec code w fl a0 a1).load = s.load := rfl
@[simp] theorem State.logRec_tables (s : State) (code w fl a0 a1 : Nat) : (s.logRec code w fl a0 a1).tables = s.tables := rfl
@[simp] theorem State.logRec_refused (s : State) (code w fl a0 a1 : Nat) : (s.logRec code w fl a0 a1).refused = s.refused := rfl
@[simp] theorem State.logRec_tallies (s : State) (code w fl a0 a1 : Nat) : (s.logRec code w fl a0 a1).tallies = s.tallies := rfl
@[simp] theorem State.logRec_apertureErr (s : State) (code w fl a0 a1 : Nat) : (s.logRec code w fl a0 a1).apertureErr = s.apertureErr := rfl
@[simp] theorem State.logRec_working (s : State) (code w fl a0 a1 : Nat) : (s.logRec code w fl a0 a1).working = s.working := rfl
@[simp] theorem State.logRec_cuts (s : State) (code w fl a0 a1 : Nat) : (s.logRec code w fl a0 a1).cuts = s.cuts := rfl
@[simp] theorem State.logRec_seams (s : State) (code w fl a0 a1 : Nat) : (s.logRec code w fl a0 a1).seams = s.seams := rfl
@[simp] theorem State.logRec_results (s : State) (code w fl a0 a1 : Nat) : (s.logRec code w fl a0 a1).results = s.results := rfl
@[simp] theorem State.logRec_slots (s : State) (code w fl a0 a1 : Nat) : (s.logRec code w fl a0 a1).slots = s.slots := rfl
@[simp] theorem State.logRec_hoists (s : State) (code w fl a0 a1 : Nat) : (s.logRec code w fl a0 a1).hoists = s.hoists := rfl
@[simp] theorem State.logRec_tpbs (s : State) (code w fl a0 a1 : Nat) : (s.logRec code w fl a0 a1).tpbs = s.tpbs := rfl
@[simp] theorem State.logRec_tileSlots (s : State) (code w fl a0 a1 : Nat) : (s.logRec code w fl a0 a1).tileSlots = s.tileSlots := rfl
@[simp] theorem State.logRec_klnPerr (s : State) (code w fl a0 a1 : Nat) : (s.logRec code w fl a0 a1).klnPerr = s.klnPerr := rfl
@[simp] theorem State.logRec_drvPerr (s : State) (code w fl a0 a1 : Nat) : (s.logRec code w fl a0 a1).drvPerr = s.drvPerr := rfl
@[simp] theorem State.logRec_ports (s : State) (code w fl a0 a1 : Nat) : (s.logRec code w fl a0 a1).ports = s.ports := rfl
@[simp] theorem State.logRec_xruns (s : State) (code w fl a0 a1 : Nat) : (s.logRec code w fl a0 a1).xruns = s.xruns := rfl
@[simp] theorem State.logRec_aruns (s : State) (code w fl a0 a1 : Nat) : (s.logRec code w fl a0 a1).aruns = s.aruns := rfl
@[simp] theorem State.logRec_units (s : State) (code w fl a0 a1 : Nat) : (s.logRec code w fl a0 a1).units = s.units := rfl
@[simp] theorem State.logRec_surge (s : State) (code w fl a0 a1 : Nat) : (s.logRec code w fl a0 a1).surge = s.surge := rfl
@[simp] theorem State.logRec_cross (s : State) (code w fl a0 a1 : Nat) : (s.logRec code w fl a0 a1).cross = s.cross := rfl
@[simp] theorem State.logRec_temps (s : State) (code w fl a0 a1 : Nat) : (s.logRec code w fl a0 a1).temps = s.temps := rfl
@[simp] theorem State.logRec_hot (s : State) (code w fl a0 a1 : Nat) : (s.logRec code w fl a0 a1).hot = s.hot := rfl
@[simp] theorem State.logRec_health (s : State) (code w fl a0 a1 : Nat) : (s.logRec code w fl a0 a1).health = s.health := rfl
@[simp] theorem State.logRec_spare (s : State) (code w fl a0 a1 : Nat) : (s.logRec code w fl a0 a1).spare = s.spare := rfl
@[simp] theorem State.logRec_fills (s : State) (code w fl a0 a1 : Nat) : (s.logRec code w fl a0 a1).fills = s.fills := rfl
@[simp] theorem State.logRec_snap (s : State) (code w fl a0 a1 : Nat) : (s.logRec code w fl a0 a1).snap = s.snap := rfl
@[simp] theorem State.logRec_nv (s : State) (code w fl a0 a1 : Nat) : (s.logRec code w fl a0 a1).nv = s.nv := rfl
@[simp] theorem State.logRec_foreman (s : State) (code w fl a0 a1 : Nat) : (s.logRec code w fl a0 a1).foreman = s.foreman := rfl
@[simp] theorem State.logRec_monitor (s : State) (code w fl a0 a1 : Nat) : (s.logRec code w fl a0 a1).monitor = s.monitor := rfl
@[simp] theorem State.logRec_pairs (s : State) (code w fl a0 a1 : Nat) : (s.logRec code w fl a0 a1).pairs = s.pairs := rfl
@[simp] theorem State.logRec_bus (s : State) (code w fl a0 a1 : Nat) : (s.logRec code w fl a0 a1).bus = s.bus := rfl
@[simp] theorem State.logRec_stalls (s : State) (code w fl a0 a1 : Nat) : (s.logRec code w fl a0 a1).stalls = s.stalls := rfl
@[simp] theorem State.logRec_moves (s : State) (code w fl a0 a1 : Nat) : (s.logRec code w fl a0 a1).moves = s.moves := rfl
@[simp] theorem State.logRec_tallyWait (s : State) (code w fl a0 a1 : Nat) : (s.logRec code w fl a0 a1).tallyWait = s.tallyWait := rfl

/-! `State.logEvt` -/

@[simp] theorem State.logEvt_pending (s : State) (code a0 a1 : Nat) : (s.logEvt code a0 a1).pending = s.pending := rfl
@[simp] theorem State.logEvt_fresh (s : State) (code a0 a1 : Nat) : (s.logEvt code a0 a1).fresh = s.fresh := rfl
@[simp] theorem State.logEvt_supply (s : State) (code a0 a1 : Nat) : (s.logEvt code a0 a1).supply = s.supply := rfl
@[simp] theorem State.logEvt_nc (s : State) (code a0 a1 : Nat) : (s.logEvt code a0 a1).nc = s.nc := rfl
@[simp] theorem State.logEvt_glb (s : State) (code a0 a1 : Nat) : (s.logEvt code a0 a1).glb = s.glb := rfl
@[simp] theorem State.logEvt_tiles (s : State) (code a0 a1 : Nat) : (s.logEvt code a0 a1).tiles = s.tiles := rfl
@[simp] theorem State.logEvt_faces (s : State) (code a0 a1 : Nat) : (s.logEvt code a0 a1).faces = s.faces := rfl
@[simp] theorem State.logEvt_benches (s : State) (code a0 a1 : Nat) : (s.logEvt code a0 a1).benches = s.benches := rfl
@[simp] theorem State.logEvt_kilns (s : State) (code a0 a1 : Nat) : (s.logEvt code a0 a1).kilns = s.kilns := rfl
@[simp] theorem State.logEvt_yard (s : State) (code a0 a1 : Nat) : (s.logEvt code a0 a1).yard = s.yard := rfl
@[simp] theorem State.logEvt_fabric (s : State) (code a0 a1 : Nat) : (s.logEvt code a0 a1).fabric = s.fabric := rfl
@[simp] theorem State.logEvt_image (s : State) (code a0 a1 : Nat) : (s.logEvt code a0 a1).image = s.image := rfl
@[simp] theorem State.logEvt_cfgDigest (s : State) (code a0 a1 : Nat) : (s.logEvt code a0 a1).cfgDigest = s.cfgDigest := rfl
@[simp] theorem State.logEvt_load (s : State) (code a0 a1 : Nat) : (s.logEvt code a0 a1).load = s.load := rfl
@[simp] theorem State.logEvt_tables (s : State) (code a0 a1 : Nat) : (s.logEvt code a0 a1).tables = s.tables := rfl
@[simp] theorem State.logEvt_refused (s : State) (code a0 a1 : Nat) : (s.logEvt code a0 a1).refused = s.refused := rfl
@[simp] theorem State.logEvt_tallies (s : State) (code a0 a1 : Nat) : (s.logEvt code a0 a1).tallies = s.tallies := rfl
@[simp] theorem State.logEvt_apertureErr (s : State) (code a0 a1 : Nat) : (s.logEvt code a0 a1).apertureErr = s.apertureErr := rfl
@[simp] theorem State.logEvt_working (s : State) (code a0 a1 : Nat) : (s.logEvt code a0 a1).working = s.working := rfl
@[simp] theorem State.logEvt_cuts (s : State) (code a0 a1 : Nat) : (s.logEvt code a0 a1).cuts = s.cuts := rfl
@[simp] theorem State.logEvt_seams (s : State) (code a0 a1 : Nat) : (s.logEvt code a0 a1).seams = s.seams := rfl
@[simp] theorem State.logEvt_results (s : State) (code a0 a1 : Nat) : (s.logEvt code a0 a1).results = s.results := rfl
@[simp] theorem State.logEvt_slots (s : State) (code a0 a1 : Nat) : (s.logEvt code a0 a1).slots = s.slots := rfl
@[simp] theorem State.logEvt_hoists (s : State) (code a0 a1 : Nat) : (s.logEvt code a0 a1).hoists = s.hoists := rfl
@[simp] theorem State.logEvt_tpbs (s : State) (code a0 a1 : Nat) : (s.logEvt code a0 a1).tpbs = s.tpbs := rfl
@[simp] theorem State.logEvt_tileSlots (s : State) (code a0 a1 : Nat) : (s.logEvt code a0 a1).tileSlots = s.tileSlots := rfl
@[simp] theorem State.logEvt_klnPerr (s : State) (code a0 a1 : Nat) : (s.logEvt code a0 a1).klnPerr = s.klnPerr := rfl
@[simp] theorem State.logEvt_drvPerr (s : State) (code a0 a1 : Nat) : (s.logEvt code a0 a1).drvPerr = s.drvPerr := rfl
@[simp] theorem State.logEvt_ports (s : State) (code a0 a1 : Nat) : (s.logEvt code a0 a1).ports = s.ports := rfl
@[simp] theorem State.logEvt_xruns (s : State) (code a0 a1 : Nat) : (s.logEvt code a0 a1).xruns = s.xruns := rfl
@[simp] theorem State.logEvt_aruns (s : State) (code a0 a1 : Nat) : (s.logEvt code a0 a1).aruns = s.aruns := rfl
@[simp] theorem State.logEvt_units (s : State) (code a0 a1 : Nat) : (s.logEvt code a0 a1).units = s.units := rfl
@[simp] theorem State.logEvt_surge (s : State) (code a0 a1 : Nat) : (s.logEvt code a0 a1).surge = s.surge := rfl
@[simp] theorem State.logEvt_cross (s : State) (code a0 a1 : Nat) : (s.logEvt code a0 a1).cross = s.cross := rfl
@[simp] theorem State.logEvt_temps (s : State) (code a0 a1 : Nat) : (s.logEvt code a0 a1).temps = s.temps := rfl
@[simp] theorem State.logEvt_hot (s : State) (code a0 a1 : Nat) : (s.logEvt code a0 a1).hot = s.hot := rfl
@[simp] theorem State.logEvt_health (s : State) (code a0 a1 : Nat) : (s.logEvt code a0 a1).health = s.health := rfl
@[simp] theorem State.logEvt_spare (s : State) (code a0 a1 : Nat) : (s.logEvt code a0 a1).spare = s.spare := rfl
@[simp] theorem State.logEvt_fills (s : State) (code a0 a1 : Nat) : (s.logEvt code a0 a1).fills = s.fills := rfl
@[simp] theorem State.logEvt_snap (s : State) (code a0 a1 : Nat) : (s.logEvt code a0 a1).snap = s.snap := rfl
@[simp] theorem State.logEvt_nv (s : State) (code a0 a1 : Nat) : (s.logEvt code a0 a1).nv = s.nv := rfl
@[simp] theorem State.logEvt_foreman (s : State) (code a0 a1 : Nat) : (s.logEvt code a0 a1).foreman = s.foreman := rfl
@[simp] theorem State.logEvt_monitor (s : State) (code a0 a1 : Nat) : (s.logEvt code a0 a1).monitor = s.monitor := rfl
@[simp] theorem State.logEvt_pairs (s : State) (code a0 a1 : Nat) : (s.logEvt code a0 a1).pairs = s.pairs := rfl
@[simp] theorem State.logEvt_bus (s : State) (code a0 a1 : Nat) : (s.logEvt code a0 a1).bus = s.bus := rfl
@[simp] theorem State.logEvt_stalls (s : State) (code a0 a1 : Nat) : (s.logEvt code a0 a1).stalls = s.stalls := rfl
@[simp] theorem State.logEvt_moves (s : State) (code a0 a1 : Nat) : (s.logEvt code a0 a1).moves = s.moves := rfl
@[simp] theorem State.logEvt_tallyWait (s : State) (code a0 a1 : Nat) : (s.logEvt code a0 a1).tallyWait = s.tallyWait := rfl

/-! `State.putYard` -/

@[simp] theorem State.putYard_pending (s : State) (a : Nat) (bs : List Byte) : (s.putYard a bs).pending = s.pending := rfl
@[simp] theorem State.putYard_fresh (s : State) (a : Nat) (bs : List Byte) : (s.putYard a bs).fresh = s.fresh := rfl
@[simp] theorem State.putYard_supply (s : State) (a : Nat) (bs : List Byte) : (s.putYard a bs).supply = s.supply := rfl
@[simp] theorem State.putYard_nc (s : State) (a : Nat) (bs : List Byte) : (s.putYard a bs).nc = s.nc := rfl
@[simp] theorem State.putYard_glb (s : State) (a : Nat) (bs : List Byte) : (s.putYard a bs).glb = s.glb := rfl
@[simp] theorem State.putYard_tiles (s : State) (a : Nat) (bs : List Byte) : (s.putYard a bs).tiles = s.tiles := rfl
@[simp] theorem State.putYard_faces (s : State) (a : Nat) (bs : List Byte) : (s.putYard a bs).faces = s.faces := rfl
@[simp] theorem State.putYard_benches (s : State) (a : Nat) (bs : List Byte) : (s.putYard a bs).benches = s.benches := rfl
@[simp] theorem State.putYard_kilns (s : State) (a : Nat) (bs : List Byte) : (s.putYard a bs).kilns = s.kilns := rfl
@[simp] theorem State.putYard_fabric (s : State) (a : Nat) (bs : List Byte) : (s.putYard a bs).fabric = s.fabric := rfl
@[simp] theorem State.putYard_image (s : State) (a : Nat) (bs : List Byte) : (s.putYard a bs).image = s.image := rfl
@[simp] theorem State.putYard_cfgDigest (s : State) (a : Nat) (bs : List Byte) : (s.putYard a bs).cfgDigest = s.cfgDigest := rfl
@[simp] theorem State.putYard_load (s : State) (a : Nat) (bs : List Byte) : (s.putYard a bs).load = s.load := rfl
@[simp] theorem State.putYard_tables (s : State) (a : Nat) (bs : List Byte) : (s.putYard a bs).tables = s.tables := rfl
@[simp] theorem State.putYard_refused (s : State) (a : Nat) (bs : List Byte) : (s.putYard a bs).refused = s.refused := rfl
@[simp] theorem State.putYard_tallies (s : State) (a : Nat) (bs : List Byte) : (s.putYard a bs).tallies = s.tallies := rfl
@[simp] theorem State.putYard_apertureErr (s : State) (a : Nat) (bs : List Byte) : (s.putYard a bs).apertureErr = s.apertureErr := rfl
@[simp] theorem State.putYard_working (s : State) (a : Nat) (bs : List Byte) : (s.putYard a bs).working = s.working := rfl
@[simp] theorem State.putYard_cuts (s : State) (a : Nat) (bs : List Byte) : (s.putYard a bs).cuts = s.cuts := rfl
@[simp] theorem State.putYard_seams (s : State) (a : Nat) (bs : List Byte) : (s.putYard a bs).seams = s.seams := rfl
@[simp] theorem State.putYard_results (s : State) (a : Nat) (bs : List Byte) : (s.putYard a bs).results = s.results := rfl
@[simp] theorem State.putYard_slots (s : State) (a : Nat) (bs : List Byte) : (s.putYard a bs).slots = s.slots := rfl
@[simp] theorem State.putYard_hoists (s : State) (a : Nat) (bs : List Byte) : (s.putYard a bs).hoists = s.hoists := rfl
@[simp] theorem State.putYard_tpbs (s : State) (a : Nat) (bs : List Byte) : (s.putYard a bs).tpbs = s.tpbs := rfl
@[simp] theorem State.putYard_tileSlots (s : State) (a : Nat) (bs : List Byte) : (s.putYard a bs).tileSlots = s.tileSlots := rfl
@[simp] theorem State.putYard_klnPerr (s : State) (a : Nat) (bs : List Byte) : (s.putYard a bs).klnPerr = s.klnPerr := rfl
@[simp] theorem State.putYard_drvPerr (s : State) (a : Nat) (bs : List Byte) : (s.putYard a bs).drvPerr = s.drvPerr := rfl
@[simp] theorem State.putYard_ports (s : State) (a : Nat) (bs : List Byte) : (s.putYard a bs).ports = s.ports := rfl
@[simp] theorem State.putYard_xruns (s : State) (a : Nat) (bs : List Byte) : (s.putYard a bs).xruns = s.xruns := rfl
@[simp] theorem State.putYard_aruns (s : State) (a : Nat) (bs : List Byte) : (s.putYard a bs).aruns = s.aruns := rfl
@[simp] theorem State.putYard_units (s : State) (a : Nat) (bs : List Byte) : (s.putYard a bs).units = s.units := rfl
@[simp] theorem State.putYard_surge (s : State) (a : Nat) (bs : List Byte) : (s.putYard a bs).surge = s.surge := rfl
@[simp] theorem State.putYard_cross (s : State) (a : Nat) (bs : List Byte) : (s.putYard a bs).cross = s.cross := rfl
@[simp] theorem State.putYard_temps (s : State) (a : Nat) (bs : List Byte) : (s.putYard a bs).temps = s.temps := rfl
@[simp] theorem State.putYard_hot (s : State) (a : Nat) (bs : List Byte) : (s.putYard a bs).hot = s.hot := rfl
@[simp] theorem State.putYard_health (s : State) (a : Nat) (bs : List Byte) : (s.putYard a bs).health = s.health := rfl
@[simp] theorem State.putYard_spare (s : State) (a : Nat) (bs : List Byte) : (s.putYard a bs).spare = s.spare := rfl
@[simp] theorem State.putYard_fills (s : State) (a : Nat) (bs : List Byte) : (s.putYard a bs).fills = s.fills := rfl
@[simp] theorem State.putYard_snap (s : State) (a : Nat) (bs : List Byte) : (s.putYard a bs).snap = s.snap := rfl
@[simp] theorem State.putYard_nv (s : State) (a : Nat) (bs : List Byte) : (s.putYard a bs).nv = s.nv := rfl
@[simp] theorem State.putYard_foreman (s : State) (a : Nat) (bs : List Byte) : (s.putYard a bs).foreman = s.foreman := rfl
@[simp] theorem State.putYard_log (s : State) (a : Nat) (bs : List Byte) : (s.putYard a bs).log = s.log := rfl
@[simp] theorem State.putYard_monitor (s : State) (a : Nat) (bs : List Byte) : (s.putYard a bs).monitor = s.monitor := rfl
@[simp] theorem State.putYard_pairs (s : State) (a : Nat) (bs : List Byte) : (s.putYard a bs).pairs = s.pairs := rfl
@[simp] theorem State.putYard_bus (s : State) (a : Nat) (bs : List Byte) : (s.putYard a bs).bus = s.bus := rfl
@[simp] theorem State.putYard_stalls (s : State) (a : Nat) (bs : List Byte) : (s.putYard a bs).stalls = s.stalls := rfl
@[simp] theorem State.putYard_moves (s : State) (a : Nat) (bs : List Byte) : (s.putYard a bs).moves = s.moves := rfl
@[simp] theorem State.putYard_tallyWait (s : State) (a : Nat) (bs : List Byte) : (s.putYard a bs).tallyWait = s.tallyWait := rfl

/-! `State.putFabric` -/

@[simp] theorem State.putFabric_pending (s : State) (a : Nat) (bs : List Byte) : (s.putFabric a bs).pending = s.pending := rfl
@[simp] theorem State.putFabric_fresh (s : State) (a : Nat) (bs : List Byte) : (s.putFabric a bs).fresh = s.fresh := rfl
@[simp] theorem State.putFabric_supply (s : State) (a : Nat) (bs : List Byte) : (s.putFabric a bs).supply = s.supply := rfl
@[simp] theorem State.putFabric_nc (s : State) (a : Nat) (bs : List Byte) : (s.putFabric a bs).nc = s.nc := rfl
@[simp] theorem State.putFabric_glb (s : State) (a : Nat) (bs : List Byte) : (s.putFabric a bs).glb = s.glb := rfl
@[simp] theorem State.putFabric_tiles (s : State) (a : Nat) (bs : List Byte) : (s.putFabric a bs).tiles = s.tiles := rfl
@[simp] theorem State.putFabric_faces (s : State) (a : Nat) (bs : List Byte) : (s.putFabric a bs).faces = s.faces := rfl
@[simp] theorem State.putFabric_benches (s : State) (a : Nat) (bs : List Byte) : (s.putFabric a bs).benches = s.benches := rfl
@[simp] theorem State.putFabric_kilns (s : State) (a : Nat) (bs : List Byte) : (s.putFabric a bs).kilns = s.kilns := rfl
@[simp] theorem State.putFabric_yard (s : State) (a : Nat) (bs : List Byte) : (s.putFabric a bs).yard = s.yard := rfl
@[simp] theorem State.putFabric_image (s : State) (a : Nat) (bs : List Byte) : (s.putFabric a bs).image = s.image := rfl
@[simp] theorem State.putFabric_cfgDigest (s : State) (a : Nat) (bs : List Byte) : (s.putFabric a bs).cfgDigest = s.cfgDigest := rfl
@[simp] theorem State.putFabric_load (s : State) (a : Nat) (bs : List Byte) : (s.putFabric a bs).load = s.load := rfl
@[simp] theorem State.putFabric_tables (s : State) (a : Nat) (bs : List Byte) : (s.putFabric a bs).tables = s.tables := rfl
@[simp] theorem State.putFabric_refused (s : State) (a : Nat) (bs : List Byte) : (s.putFabric a bs).refused = s.refused := rfl
@[simp] theorem State.putFabric_tallies (s : State) (a : Nat) (bs : List Byte) : (s.putFabric a bs).tallies = s.tallies := rfl
@[simp] theorem State.putFabric_apertureErr (s : State) (a : Nat) (bs : List Byte) : (s.putFabric a bs).apertureErr = s.apertureErr := rfl
@[simp] theorem State.putFabric_working (s : State) (a : Nat) (bs : List Byte) : (s.putFabric a bs).working = s.working := rfl
@[simp] theorem State.putFabric_cuts (s : State) (a : Nat) (bs : List Byte) : (s.putFabric a bs).cuts = s.cuts := rfl
@[simp] theorem State.putFabric_seams (s : State) (a : Nat) (bs : List Byte) : (s.putFabric a bs).seams = s.seams := rfl
@[simp] theorem State.putFabric_results (s : State) (a : Nat) (bs : List Byte) : (s.putFabric a bs).results = s.results := rfl
@[simp] theorem State.putFabric_slots (s : State) (a : Nat) (bs : List Byte) : (s.putFabric a bs).slots = s.slots := rfl
@[simp] theorem State.putFabric_hoists (s : State) (a : Nat) (bs : List Byte) : (s.putFabric a bs).hoists = s.hoists := rfl
@[simp] theorem State.putFabric_tpbs (s : State) (a : Nat) (bs : List Byte) : (s.putFabric a bs).tpbs = s.tpbs := rfl
@[simp] theorem State.putFabric_tileSlots (s : State) (a : Nat) (bs : List Byte) : (s.putFabric a bs).tileSlots = s.tileSlots := rfl
@[simp] theorem State.putFabric_klnPerr (s : State) (a : Nat) (bs : List Byte) : (s.putFabric a bs).klnPerr = s.klnPerr := rfl
@[simp] theorem State.putFabric_drvPerr (s : State) (a : Nat) (bs : List Byte) : (s.putFabric a bs).drvPerr = s.drvPerr := rfl
@[simp] theorem State.putFabric_ports (s : State) (a : Nat) (bs : List Byte) : (s.putFabric a bs).ports = s.ports := rfl
@[simp] theorem State.putFabric_xruns (s : State) (a : Nat) (bs : List Byte) : (s.putFabric a bs).xruns = s.xruns := rfl
@[simp] theorem State.putFabric_aruns (s : State) (a : Nat) (bs : List Byte) : (s.putFabric a bs).aruns = s.aruns := rfl
@[simp] theorem State.putFabric_units (s : State) (a : Nat) (bs : List Byte) : (s.putFabric a bs).units = s.units := rfl
@[simp] theorem State.putFabric_surge (s : State) (a : Nat) (bs : List Byte) : (s.putFabric a bs).surge = s.surge := rfl
@[simp] theorem State.putFabric_cross (s : State) (a : Nat) (bs : List Byte) : (s.putFabric a bs).cross = s.cross := rfl
@[simp] theorem State.putFabric_temps (s : State) (a : Nat) (bs : List Byte) : (s.putFabric a bs).temps = s.temps := rfl
@[simp] theorem State.putFabric_hot (s : State) (a : Nat) (bs : List Byte) : (s.putFabric a bs).hot = s.hot := rfl
@[simp] theorem State.putFabric_health (s : State) (a : Nat) (bs : List Byte) : (s.putFabric a bs).health = s.health := rfl
@[simp] theorem State.putFabric_spare (s : State) (a : Nat) (bs : List Byte) : (s.putFabric a bs).spare = s.spare := rfl
@[simp] theorem State.putFabric_fills (s : State) (a : Nat) (bs : List Byte) : (s.putFabric a bs).fills = s.fills := rfl
@[simp] theorem State.putFabric_snap (s : State) (a : Nat) (bs : List Byte) : (s.putFabric a bs).snap = s.snap := rfl
@[simp] theorem State.putFabric_nv (s : State) (a : Nat) (bs : List Byte) : (s.putFabric a bs).nv = s.nv := rfl
@[simp] theorem State.putFabric_foreman (s : State) (a : Nat) (bs : List Byte) : (s.putFabric a bs).foreman = s.foreman := rfl
@[simp] theorem State.putFabric_log (s : State) (a : Nat) (bs : List Byte) : (s.putFabric a bs).log = s.log := rfl
@[simp] theorem State.putFabric_monitor (s : State) (a : Nat) (bs : List Byte) : (s.putFabric a bs).monitor = s.monitor := rfl
@[simp] theorem State.putFabric_pairs (s : State) (a : Nat) (bs : List Byte) : (s.putFabric a bs).pairs = s.pairs := rfl
@[simp] theorem State.putFabric_bus (s : State) (a : Nat) (bs : List Byte) : (s.putFabric a bs).bus = s.bus := rfl
@[simp] theorem State.putFabric_stalls (s : State) (a : Nat) (bs : List Byte) : (s.putFabric a bs).stalls = s.stalls := rfl
@[simp] theorem State.putFabric_moves (s : State) (a : Nat) (bs : List Byte) : (s.putFabric a bs).moves = s.moves := rfl
@[simp] theorem State.putFabric_tallyWait (s : State) (a : Nat) (bs : List Byte) : (s.putFabric a bs).tallyWait = s.tallyWait := rfl

/-! `State.orFlags` -/

@[simp] theorem State.orFlags_pending (s : State) (e k : Nat) : (s.orFlags e k).pending = s.pending := rfl
@[simp] theorem State.orFlags_fresh (s : State) (e k : Nat) : (s.orFlags e k).fresh = s.fresh := rfl
@[simp] theorem State.orFlags_supply (s : State) (e k : Nat) : (s.orFlags e k).supply = s.supply := rfl
@[simp] theorem State.orFlags_nc (s : State) (e k : Nat) : (s.orFlags e k).nc = s.nc := rfl
@[simp] theorem State.orFlags_glb (s : State) (e k : Nat) : (s.orFlags e k).glb = s.glb := rfl
@[simp] theorem State.orFlags_tiles (s : State) (e k : Nat) : (s.orFlags e k).tiles = s.tiles := rfl
@[simp] theorem State.orFlags_faces (s : State) (e k : Nat) : (s.orFlags e k).faces = s.faces := rfl
@[simp] theorem State.orFlags_benches (s : State) (e k : Nat) : (s.orFlags e k).benches = s.benches := rfl
@[simp] theorem State.orFlags_kilns (s : State) (e k : Nat) : (s.orFlags e k).kilns = s.kilns := rfl
@[simp] theorem State.orFlags_yard (s : State) (e k : Nat) : (s.orFlags e k).yard = s.yard := rfl
@[simp] theorem State.orFlags_fabric (s : State) (e k : Nat) : (s.orFlags e k).fabric = s.fabric := rfl
@[simp] theorem State.orFlags_image (s : State) (e k : Nat) : (s.orFlags e k).image = s.image := rfl
@[simp] theorem State.orFlags_cfgDigest (s : State) (e k : Nat) : (s.orFlags e k).cfgDigest = s.cfgDigest := rfl
@[simp] theorem State.orFlags_load (s : State) (e k : Nat) : (s.orFlags e k).load = s.load := rfl
@[simp] theorem State.orFlags_tables (s : State) (e k : Nat) : (s.orFlags e k).tables = s.tables := rfl
@[simp] theorem State.orFlags_refused (s : State) (e k : Nat) : (s.orFlags e k).refused = s.refused := rfl
@[simp] theorem State.orFlags_tallies (s : State) (e k : Nat) : (s.orFlags e k).tallies = s.tallies := rfl
@[simp] theorem State.orFlags_apertureErr (s : State) (e k : Nat) : (s.orFlags e k).apertureErr = s.apertureErr := rfl
@[simp] theorem State.orFlags_working (s : State) (e k : Nat) : (s.orFlags e k).working = s.working := rfl
@[simp] theorem State.orFlags_seams (s : State) (e k : Nat) : (s.orFlags e k).seams = s.seams := rfl
@[simp] theorem State.orFlags_results (s : State) (e k : Nat) : (s.orFlags e k).results = s.results := rfl
@[simp] theorem State.orFlags_slots (s : State) (e k : Nat) : (s.orFlags e k).slots = s.slots := rfl
@[simp] theorem State.orFlags_hoists (s : State) (e k : Nat) : (s.orFlags e k).hoists = s.hoists := rfl
@[simp] theorem State.orFlags_tpbs (s : State) (e k : Nat) : (s.orFlags e k).tpbs = s.tpbs := rfl
@[simp] theorem State.orFlags_tileSlots (s : State) (e k : Nat) : (s.orFlags e k).tileSlots = s.tileSlots := rfl
@[simp] theorem State.orFlags_klnPerr (s : State) (e k : Nat) : (s.orFlags e k).klnPerr = s.klnPerr := rfl
@[simp] theorem State.orFlags_drvPerr (s : State) (e k : Nat) : (s.orFlags e k).drvPerr = s.drvPerr := rfl
@[simp] theorem State.orFlags_ports (s : State) (e k : Nat) : (s.orFlags e k).ports = s.ports := rfl
@[simp] theorem State.orFlags_xruns (s : State) (e k : Nat) : (s.orFlags e k).xruns = s.xruns := rfl
@[simp] theorem State.orFlags_aruns (s : State) (e k : Nat) : (s.orFlags e k).aruns = s.aruns := rfl
@[simp] theorem State.orFlags_units (s : State) (e k : Nat) : (s.orFlags e k).units = s.units := rfl
@[simp] theorem State.orFlags_surge (s : State) (e k : Nat) : (s.orFlags e k).surge = s.surge := rfl
@[simp] theorem State.orFlags_cross (s : State) (e k : Nat) : (s.orFlags e k).cross = s.cross := rfl
@[simp] theorem State.orFlags_temps (s : State) (e k : Nat) : (s.orFlags e k).temps = s.temps := rfl
@[simp] theorem State.orFlags_hot (s : State) (e k : Nat) : (s.orFlags e k).hot = s.hot := rfl
@[simp] theorem State.orFlags_health (s : State) (e k : Nat) : (s.orFlags e k).health = s.health := rfl
@[simp] theorem State.orFlags_spare (s : State) (e k : Nat) : (s.orFlags e k).spare = s.spare := rfl
@[simp] theorem State.orFlags_fills (s : State) (e k : Nat) : (s.orFlags e k).fills = s.fills := rfl
@[simp] theorem State.orFlags_snap (s : State) (e k : Nat) : (s.orFlags e k).snap = s.snap := rfl
@[simp] theorem State.orFlags_nv (s : State) (e k : Nat) : (s.orFlags e k).nv = s.nv := rfl
@[simp] theorem State.orFlags_foreman (s : State) (e k : Nat) : (s.orFlags e k).foreman = s.foreman := rfl
@[simp] theorem State.orFlags_log (s : State) (e k : Nat) : (s.orFlags e k).log = s.log := rfl
@[simp] theorem State.orFlags_monitor (s : State) (e k : Nat) : (s.orFlags e k).monitor = s.monitor := rfl
@[simp] theorem State.orFlags_pairs (s : State) (e k : Nat) : (s.orFlags e k).pairs = s.pairs := rfl
@[simp] theorem State.orFlags_bus (s : State) (e k : Nat) : (s.orFlags e k).bus = s.bus := rfl
@[simp] theorem State.orFlags_stalls (s : State) (e k : Nat) : (s.orFlags e k).stalls = s.stalls := rfl
@[simp] theorem State.orFlags_moves (s : State) (e k : Nat) : (s.orFlags e k).moves = s.moves := rfl
@[simp] theorem State.orFlags_tallyWait (s : State) (e k : Nat) : (s.orFlags e k).tallyWait = s.tallyWait := rfl

/-! Parts read after `State.modFace` -/

@[simp] theorem State.modFace_read_bench (s : State) (n : Nat) (f : Face → Face) (x y : Nat) : (s.modFace n f).bench x y = s.bench x y := rfl
@[simp] theorem State.modFace_read_work (s : State) (n : Nat) (f : Face → Face) (x : Nat) : (s.modFace n f).work x = s.work x := rfl
@[simp] theorem State.modFace_read_cut (s : State) (n : Nat) (f : Face → Face) (x : Nat) : (s.modFace n f).cut x = s.cut x := rfl
@[simp] theorem State.modFace_read_hoist (s : State) (n : Nat) (f : Face → Face) (x : Nat) : (s.modFace n f).hoist x = s.hoist x := rfl
@[simp] theorem State.modFace_read_port (s : State) (n : Nat) (f : Face → Face) (x : Nat) : (s.modFace n f).port x = s.port x := rfl
@[simp] theorem State.modFace_read_unit (s : State) (n : Nat) (f : Face → Face) (x y : Nat) : (s.modFace n f).unit x y = s.unit x y := rfl
@[simp] theorem State.modFace_read_crossing (s : State) (n : Nat) (f : Face → Face) (x : Nat) : (s.modFace n f).crossing x = s.crossing x := rfl
@[simp] theorem State.modFace_read_tpb (s : State) (n : Nat) (f : Face → Face) (x : Nat) : (s.modFace n f).tpb x = s.tpb x := rfl
@[simp] theorem State.modFace_read_clk (s : State) (n : Nat) (f : Face → Face) (x : Nat) : (s.modFace n f).clk x = s.clk x := rfl
@[simp] theorem State.modFace_read_arun (s : State) (n : Nat) (f : Face → Face) (x : Nat) : (s.modFace n f).arun x = s.arun x := rfl
@[simp] theorem State.modFace_read_tally (s : State) (n : Nat) (f : Face → Face) (x : Nat) : (s.modFace n f).tally x = s.tally x := rfl
@[simp] theorem State.modFace_read_preempted (s : State) (n : Nat) (f : Face → Face) (x : Nat) : (s.modFace n f).preempted x = s.preempted x := rfl
@[simp] theorem State.modFace_read_descOf (s : State) (n : Nat) (f : Face → Face) (x : Nat) : (s.modFace n f).descOf x = s.descOf x := rfl
@[simp] theorem State.modFace_read_running (s : State) (n : Nat) (f : Face → Face) (x : Nat) : (s.modFace n f).running x = s.running x := rfl

/-! Parts read after `State.modBench` -/

@[simp] theorem State.modBench_read_face (s : State) (n b : Nat) (f : Bench → Bench) (x : Nat) : (s.modBench n b f).face x = s.face x := rfl
@[simp] theorem State.modBench_read_work (s : State) (n b : Nat) (f : Bench → Bench) (x : Nat) : (s.modBench n b f).work x = s.work x := rfl
@[simp] theorem State.modBench_read_cut (s : State) (n b : Nat) (f : Bench → Bench) (x : Nat) : (s.modBench n b f).cut x = s.cut x := rfl
@[simp] theorem State.modBench_read_hoist (s : State) (n b : Nat) (f : Bench → Bench) (x : Nat) : (s.modBench n b f).hoist x = s.hoist x := rfl
@[simp] theorem State.modBench_read_port (s : State) (n b : Nat) (f : Bench → Bench) (x : Nat) : (s.modBench n b f).port x = s.port x := rfl
@[simp] theorem State.modBench_read_unit (s : State) (n b : Nat) (f : Bench → Bench) (x y : Nat) : (s.modBench n b f).unit x y = s.unit x y := rfl
@[simp] theorem State.modBench_read_crossing (s : State) (n b : Nat) (f : Bench → Bench) (x : Nat) : (s.modBench n b f).crossing x = s.crossing x := rfl
@[simp] theorem State.modBench_read_tpb (s : State) (n b : Nat) (f : Bench → Bench) (x : Nat) : (s.modBench n b f).tpb x = s.tpb x := rfl
@[simp] theorem State.modBench_read_clk (s : State) (n b : Nat) (f : Bench → Bench) (x : Nat) : (s.modBench n b f).clk x = s.clk x := rfl
@[simp] theorem State.modBench_read_arun (s : State) (n b : Nat) (f : Bench → Bench) (x : Nat) : (s.modBench n b f).arun x = s.arun x := rfl
@[simp] theorem State.modBench_read_tally (s : State) (n b : Nat) (f : Bench → Bench) (x : Nat) : (s.modBench n b f).tally x = s.tally x := rfl
@[simp] theorem State.modBench_read_preempted (s : State) (n b : Nat) (f : Bench → Bench) (x : Nat) : (s.modBench n b f).preempted x = s.preempted x := rfl
@[simp] theorem State.modBench_read_descOf (s : State) (n b : Nat) (f : Bench → Bench) (x : Nat) : (s.modBench n b f).descOf x = s.descOf x := rfl
@[simp] theorem State.modBench_read_running (s : State) (n b : Nat) (f : Bench → Bench) (x : Nat) : (s.modBench n b f).running x = s.running x := rfl

/-! Parts read after `State.modWork` -/

@[simp] theorem State.modWork_read_face (s : State) (w : Nat) (f : Working → Working) (x : Nat) : (s.modWork w f).face x = s.face x := rfl
@[simp] theorem State.modWork_read_bench (s : State) (w : Nat) (f : Working → Working) (x y : Nat) : (s.modWork w f).bench x y = s.bench x y := rfl
@[simp] theorem State.modWork_read_cut (s : State) (w : Nat) (f : Working → Working) (x : Nat) : (s.modWork w f).cut x = s.cut x := rfl
@[simp] theorem State.modWork_read_hoist (s : State) (w : Nat) (f : Working → Working) (x : Nat) : (s.modWork w f).hoist x = s.hoist x := rfl
@[simp] theorem State.modWork_read_port (s : State) (w : Nat) (f : Working → Working) (x : Nat) : (s.modWork w f).port x = s.port x := rfl
@[simp] theorem State.modWork_read_unit (s : State) (w : Nat) (f : Working → Working) (x y : Nat) : (s.modWork w f).unit x y = s.unit x y := rfl
@[simp] theorem State.modWork_read_crossing (s : State) (w : Nat) (f : Working → Working) (x : Nat) : (s.modWork w f).crossing x = s.crossing x := rfl
@[simp] theorem State.modWork_read_tpb (s : State) (w : Nat) (f : Working → Working) (x : Nat) : (s.modWork w f).tpb x = s.tpb x := rfl
@[simp] theorem State.modWork_read_clk (s : State) (w : Nat) (f : Working → Working) (x : Nat) : (s.modWork w f).clk x = s.clk x := rfl
@[simp] theorem State.modWork_read_arun (s : State) (w : Nat) (f : Working → Working) (x : Nat) : (s.modWork w f).arun x = s.arun x := rfl
@[simp] theorem State.modWork_read_tally (s : State) (w : Nat) (f : Working → Working) (x : Nat) : (s.modWork w f).tally x = s.tally x := rfl
@[simp] theorem State.modWork_read_preempted (s : State) (w : Nat) (f : Working → Working) (x : Nat) : (s.modWork w f).preempted x = s.preempted x := rfl
@[simp] theorem State.modWork_read_descOf (s : State) (w : Nat) (f : Working → Working) (x : Nat) : (s.modWork w f).descOf x = s.descOf x := rfl
@[simp] theorem State.modWork_read_running (s : State) (w : Nat) (f : Working → Working) (x : Nat) : (s.modWork w f).running x = s.running x := rfl

/-! Parts read after `State.modCut` -/

@[simp] theorem State.modCut_read_face (s : State) (e : Nat) (f : CutRun → CutRun) (x : Nat) : (s.modCut e f).face x = s.face x := rfl
@[simp] theorem State.modCut_read_bench (s : State) (e : Nat) (f : CutRun → CutRun) (x y : Nat) : (s.modCut e f).bench x y = s.bench x y := rfl
@[simp] theorem State.modCut_read_work (s : State) (e : Nat) (f : CutRun → CutRun) (x : Nat) : (s.modCut e f).work x = s.work x := rfl
@[simp] theorem State.modCut_read_hoist (s : State) (e : Nat) (f : CutRun → CutRun) (x : Nat) : (s.modCut e f).hoist x = s.hoist x := rfl
@[simp] theorem State.modCut_read_port (s : State) (e : Nat) (f : CutRun → CutRun) (x : Nat) : (s.modCut e f).port x = s.port x := rfl
@[simp] theorem State.modCut_read_unit (s : State) (e : Nat) (f : CutRun → CutRun) (x y : Nat) : (s.modCut e f).unit x y = s.unit x y := rfl
@[simp] theorem State.modCut_read_crossing (s : State) (e : Nat) (f : CutRun → CutRun) (x : Nat) : (s.modCut e f).crossing x = s.crossing x := rfl
@[simp] theorem State.modCut_read_tpb (s : State) (e : Nat) (f : CutRun → CutRun) (x : Nat) : (s.modCut e f).tpb x = s.tpb x := rfl
@[simp] theorem State.modCut_read_clk (s : State) (e : Nat) (f : CutRun → CutRun) (x : Nat) : (s.modCut e f).clk x = s.clk x := rfl
@[simp] theorem State.modCut_read_arun (s : State) (e : Nat) (f : CutRun → CutRun) (x : Nat) : (s.modCut e f).arun x = s.arun x := rfl
@[simp] theorem State.modCut_read_tally (s : State) (e : Nat) (f : CutRun → CutRun) (x : Nat) : (s.modCut e f).tally x = s.tally x := rfl
@[simp] theorem State.modCut_read_preempted (s : State) (e : Nat) (f : CutRun → CutRun) (x : Nat) : (s.modCut e f).preempted x = s.preempted x := rfl
@[simp] theorem State.modCut_read_descOf (s : State) (e : Nat) (f : CutRun → CutRun) (x : Nat) : (s.modCut e f).descOf x = s.descOf x := rfl
@[simp] theorem State.modCut_read_running (s : State) (e : Nat) (f : CutRun → CutRun) (x : Nat) : (s.modCut e f).running x = s.running x := rfl

/-! Parts read after `State.modHoist` -/

@[simp] theorem State.modHoist_read_face (s : State) (h : Nat) (f : Hoist → Hoist) (x : Nat) : (s.modHoist h f).face x = s.face x := rfl
@[simp] theorem State.modHoist_read_bench (s : State) (h : Nat) (f : Hoist → Hoist) (x y : Nat) : (s.modHoist h f).bench x y = s.bench x y := rfl
@[simp] theorem State.modHoist_read_work (s : State) (h : Nat) (f : Hoist → Hoist) (x : Nat) : (s.modHoist h f).work x = s.work x := rfl
@[simp] theorem State.modHoist_read_cut (s : State) (h : Nat) (f : Hoist → Hoist) (x : Nat) : (s.modHoist h f).cut x = s.cut x := rfl
@[simp] theorem State.modHoist_read_port (s : State) (h : Nat) (f : Hoist → Hoist) (x : Nat) : (s.modHoist h f).port x = s.port x := rfl
@[simp] theorem State.modHoist_read_unit (s : State) (h : Nat) (f : Hoist → Hoist) (x y : Nat) : (s.modHoist h f).unit x y = s.unit x y := rfl
@[simp] theorem State.modHoist_read_crossing (s : State) (h : Nat) (f : Hoist → Hoist) (x : Nat) : (s.modHoist h f).crossing x = s.crossing x := rfl
@[simp] theorem State.modHoist_read_tpb (s : State) (h : Nat) (f : Hoist → Hoist) (x : Nat) : (s.modHoist h f).tpb x = s.tpb x := rfl
@[simp] theorem State.modHoist_read_clk (s : State) (h : Nat) (f : Hoist → Hoist) (x : Nat) : (s.modHoist h f).clk x = s.clk x := rfl
@[simp] theorem State.modHoist_read_arun (s : State) (h : Nat) (f : Hoist → Hoist) (x : Nat) : (s.modHoist h f).arun x = s.arun x := rfl
@[simp] theorem State.modHoist_read_tally (s : State) (h : Nat) (f : Hoist → Hoist) (x : Nat) : (s.modHoist h f).tally x = s.tally x := rfl
@[simp] theorem State.modHoist_read_preempted (s : State) (h : Nat) (f : Hoist → Hoist) (x : Nat) : (s.modHoist h f).preempted x = s.preempted x := rfl
@[simp] theorem State.modHoist_read_descOf (s : State) (h : Nat) (f : Hoist → Hoist) (x : Nat) : (s.modHoist h f).descOf x = s.descOf x := rfl
@[simp] theorem State.modHoist_read_running (s : State) (h : Nat) (f : Hoist → Hoist) (x : Nat) : (s.modHoist h f).running x = s.running x := rfl

/-! Parts read after `State.modPort` -/

@[simp] theorem State.modPort_read_face (s : State) (p : Nat) (f : Port → Port) (x : Nat) : (s.modPort p f).face x = s.face x := rfl
@[simp] theorem State.modPort_read_bench (s : State) (p : Nat) (f : Port → Port) (x y : Nat) : (s.modPort p f).bench x y = s.bench x y := rfl
@[simp] theorem State.modPort_read_work (s : State) (p : Nat) (f : Port → Port) (x : Nat) : (s.modPort p f).work x = s.work x := rfl
@[simp] theorem State.modPort_read_cut (s : State) (p : Nat) (f : Port → Port) (x : Nat) : (s.modPort p f).cut x = s.cut x := rfl
@[simp] theorem State.modPort_read_hoist (s : State) (p : Nat) (f : Port → Port) (x : Nat) : (s.modPort p f).hoist x = s.hoist x := rfl
@[simp] theorem State.modPort_read_unit (s : State) (p : Nat) (f : Port → Port) (x y : Nat) : (s.modPort p f).unit x y = s.unit x y := rfl
@[simp] theorem State.modPort_read_crossing (s : State) (p : Nat) (f : Port → Port) (x : Nat) : (s.modPort p f).crossing x = s.crossing x := rfl
@[simp] theorem State.modPort_read_tpb (s : State) (p : Nat) (f : Port → Port) (x : Nat) : (s.modPort p f).tpb x = s.tpb x := rfl
@[simp] theorem State.modPort_read_clk (s : State) (p : Nat) (f : Port → Port) (x : Nat) : (s.modPort p f).clk x = s.clk x := rfl
@[simp] theorem State.modPort_read_arun (s : State) (p : Nat) (f : Port → Port) (x : Nat) : (s.modPort p f).arun x = s.arun x := rfl
@[simp] theorem State.modPort_read_tally (s : State) (p : Nat) (f : Port → Port) (x : Nat) : (s.modPort p f).tally x = s.tally x := rfl
@[simp] theorem State.modPort_read_preempted (s : State) (p : Nat) (f : Port → Port) (x : Nat) : (s.modPort p f).preempted x = s.preempted x := rfl
@[simp] theorem State.modPort_read_descOf (s : State) (p : Nat) (f : Port → Port) (x : Nat) : (s.modPort p f).descOf x = s.descOf x := rfl
@[simp] theorem State.modPort_read_running (s : State) (p : Nat) (f : Port → Port) (x : Nat) : (s.modPort p f).running x = s.running x := rfl

/-! Parts read after `State.modUnit` -/

@[simp] theorem State.modUnit_read_face (s : State) (k n : Nat) (f : UnitState → UnitState) (x : Nat) : (s.modUnit k n f).face x = s.face x := rfl
@[simp] theorem State.modUnit_read_bench (s : State) (k n : Nat) (f : UnitState → UnitState) (x y : Nat) : (s.modUnit k n f).bench x y = s.bench x y := rfl
@[simp] theorem State.modUnit_read_work (s : State) (k n : Nat) (f : UnitState → UnitState) (x : Nat) : (s.modUnit k n f).work x = s.work x := rfl
@[simp] theorem State.modUnit_read_cut (s : State) (k n : Nat) (f : UnitState → UnitState) (x : Nat) : (s.modUnit k n f).cut x = s.cut x := rfl
@[simp] theorem State.modUnit_read_hoist (s : State) (k n : Nat) (f : UnitState → UnitState) (x : Nat) : (s.modUnit k n f).hoist x = s.hoist x := rfl
@[simp] theorem State.modUnit_read_port (s : State) (k n : Nat) (f : UnitState → UnitState) (x : Nat) : (s.modUnit k n f).port x = s.port x := rfl
@[simp] theorem State.modUnit_read_crossing (s : State) (k n : Nat) (f : UnitState → UnitState) (x : Nat) : (s.modUnit k n f).crossing x = s.crossing x := rfl
@[simp] theorem State.modUnit_read_tpb (s : State) (k n : Nat) (f : UnitState → UnitState) (x : Nat) : (s.modUnit k n f).tpb x = s.tpb x := rfl
@[simp] theorem State.modUnit_read_clk (s : State) (k n : Nat) (f : UnitState → UnitState) (x : Nat) : (s.modUnit k n f).clk x = s.clk x := rfl
@[simp] theorem State.modUnit_read_arun (s : State) (k n : Nat) (f : UnitState → UnitState) (x : Nat) : (s.modUnit k n f).arun x = s.arun x := rfl
@[simp] theorem State.modUnit_read_tally (s : State) (k n : Nat) (f : UnitState → UnitState) (x : Nat) : (s.modUnit k n f).tally x = s.tally x := rfl
@[simp] theorem State.modUnit_read_preempted (s : State) (k n : Nat) (f : UnitState → UnitState) (x : Nat) : (s.modUnit k n f).preempted x = s.preempted x := rfl
@[simp] theorem State.modUnit_read_descOf (s : State) (k n : Nat) (f : UnitState → UnitState) (x : Nat) : (s.modUnit k n f).descOf x = s.descOf x := rfl
@[simp] theorem State.modUnit_read_running (s : State) (k n : Nat) (f : UnitState → UnitState) (x : Nat) : (s.modUnit k n f).running x = s.running x := rfl

/-! Parts read after `State.modCross` -/

@[simp] theorem State.modCross_read_face (s : State) (g : Nat) (f : CrossGroup → CrossGroup) (x : Nat) : (s.modCross g f).face x = s.face x := rfl
@[simp] theorem State.modCross_read_bench (s : State) (g : Nat) (f : CrossGroup → CrossGroup) (x y : Nat) : (s.modCross g f).bench x y = s.bench x y := rfl
@[simp] theorem State.modCross_read_work (s : State) (g : Nat) (f : CrossGroup → CrossGroup) (x : Nat) : (s.modCross g f).work x = s.work x := rfl
@[simp] theorem State.modCross_read_cut (s : State) (g : Nat) (f : CrossGroup → CrossGroup) (x : Nat) : (s.modCross g f).cut x = s.cut x := rfl
@[simp] theorem State.modCross_read_hoist (s : State) (g : Nat) (f : CrossGroup → CrossGroup) (x : Nat) : (s.modCross g f).hoist x = s.hoist x := rfl
@[simp] theorem State.modCross_read_port (s : State) (g : Nat) (f : CrossGroup → CrossGroup) (x : Nat) : (s.modCross g f).port x = s.port x := rfl
@[simp] theorem State.modCross_read_unit (s : State) (g : Nat) (f : CrossGroup → CrossGroup) (x y : Nat) : (s.modCross g f).unit x y = s.unit x y := rfl
@[simp] theorem State.modCross_read_tpb (s : State) (g : Nat) (f : CrossGroup → CrossGroup) (x : Nat) : (s.modCross g f).tpb x = s.tpb x := rfl
@[simp] theorem State.modCross_read_clk (s : State) (g : Nat) (f : CrossGroup → CrossGroup) (x : Nat) : (s.modCross g f).clk x = s.clk x := rfl
@[simp] theorem State.modCross_read_arun (s : State) (g : Nat) (f : CrossGroup → CrossGroup) (x : Nat) : (s.modCross g f).arun x = s.arun x := rfl
@[simp] theorem State.modCross_read_tally (s : State) (g : Nat) (f : CrossGroup → CrossGroup) (x : Nat) : (s.modCross g f).tally x = s.tally x := rfl
@[simp] theorem State.modCross_read_preempted (s : State) (g : Nat) (f : CrossGroup → CrossGroup) (x : Nat) : (s.modCross g f).preempted x = s.preempted x := rfl
@[simp] theorem State.modCross_read_descOf (s : State) (g : Nat) (f : CrossGroup → CrossGroup) (x : Nat) : (s.modCross g f).descOf x = s.descOf x := rfl
@[simp] theorem State.modCross_read_running (s : State) (g : Nat) (f : CrossGroup → CrossGroup) (x : Nat) : (s.modCross g f).running x = s.running x := rfl

/-! Parts read after `State.modTpb` -/

@[simp] theorem State.modTpb_read_face (s : State) (j : Nat) (f : Tpb → Tpb) (x : Nat) : (s.modTpb j f).face x = s.face x := rfl
@[simp] theorem State.modTpb_read_bench (s : State) (j : Nat) (f : Tpb → Tpb) (x y : Nat) : (s.modTpb j f).bench x y = s.bench x y := rfl
@[simp] theorem State.modTpb_read_work (s : State) (j : Nat) (f : Tpb → Tpb) (x : Nat) : (s.modTpb j f).work x = s.work x := rfl
@[simp] theorem State.modTpb_read_cut (s : State) (j : Nat) (f : Tpb → Tpb) (x : Nat) : (s.modTpb j f).cut x = s.cut x := rfl
@[simp] theorem State.modTpb_read_hoist (s : State) (j : Nat) (f : Tpb → Tpb) (x : Nat) : (s.modTpb j f).hoist x = s.hoist x := rfl
@[simp] theorem State.modTpb_read_port (s : State) (j : Nat) (f : Tpb → Tpb) (x : Nat) : (s.modTpb j f).port x = s.port x := rfl
@[simp] theorem State.modTpb_read_unit (s : State) (j : Nat) (f : Tpb → Tpb) (x y : Nat) : (s.modTpb j f).unit x y = s.unit x y := rfl
@[simp] theorem State.modTpb_read_crossing (s : State) (j : Nat) (f : Tpb → Tpb) (x : Nat) : (s.modTpb j f).crossing x = s.crossing x := rfl
@[simp] theorem State.modTpb_read_clk (s : State) (j : Nat) (f : Tpb → Tpb) (x : Nat) : (s.modTpb j f).clk x = s.clk x := rfl
@[simp] theorem State.modTpb_read_arun (s : State) (j : Nat) (f : Tpb → Tpb) (x : Nat) : (s.modTpb j f).arun x = s.arun x := rfl
@[simp] theorem State.modTpb_read_tally (s : State) (j : Nat) (f : Tpb → Tpb) (x : Nat) : (s.modTpb j f).tally x = s.tally x := rfl
@[simp] theorem State.modTpb_read_preempted (s : State) (j : Nat) (f : Tpb → Tpb) (x : Nat) : (s.modTpb j f).preempted x = s.preempted x := rfl
@[simp] theorem State.modTpb_read_descOf (s : State) (j : Nat) (f : Tpb → Tpb) (x : Nat) : (s.modTpb j f).descOf x = s.descOf x := rfl
@[simp] theorem State.modTpb_read_running (s : State) (j : Nat) (f : Tpb → Tpb) (x : Nat) : (s.modTpb j f).running x = s.running x := rfl

/-! Parts read after `State.modGlb` -/

@[simp] theorem State.modGlb_read_face (s : State) (f : Glb → Glb) (x : Nat) : (s.modGlb f).face x = s.face x := rfl
@[simp] theorem State.modGlb_read_bench (s : State) (f : Glb → Glb) (x y : Nat) : (s.modGlb f).bench x y = s.bench x y := rfl
@[simp] theorem State.modGlb_read_work (s : State) (f : Glb → Glb) (x : Nat) : (s.modGlb f).work x = s.work x := rfl
@[simp] theorem State.modGlb_read_cut (s : State) (f : Glb → Glb) (x : Nat) : (s.modGlb f).cut x = s.cut x := rfl
@[simp] theorem State.modGlb_read_hoist (s : State) (f : Glb → Glb) (x : Nat) : (s.modGlb f).hoist x = s.hoist x := rfl
@[simp] theorem State.modGlb_read_port (s : State) (f : Glb → Glb) (x : Nat) : (s.modGlb f).port x = s.port x := rfl
@[simp] theorem State.modGlb_read_unit (s : State) (f : Glb → Glb) (x y : Nat) : (s.modGlb f).unit x y = s.unit x y := rfl
@[simp] theorem State.modGlb_read_crossing (s : State) (f : Glb → Glb) (x : Nat) : (s.modGlb f).crossing x = s.crossing x := rfl
@[simp] theorem State.modGlb_read_tpb (s : State) (f : Glb → Glb) (x : Nat) : (s.modGlb f).tpb x = s.tpb x := rfl
@[simp] theorem State.modGlb_read_clk (s : State) (f : Glb → Glb) (x : Nat) : (s.modGlb f).clk x = s.clk x := rfl
@[simp] theorem State.modGlb_read_arun (s : State) (f : Glb → Glb) (x : Nat) : (s.modGlb f).arun x = s.arun x := rfl
@[simp] theorem State.modGlb_read_tally (s : State) (f : Glb → Glb) (x : Nat) : (s.modGlb f).tally x = s.tally x := rfl
@[simp] theorem State.modGlb_read_descOf (s : State) (f : Glb → Glb) (x : Nat) : (s.modGlb f).descOf x = s.descOf x := rfl
@[simp] theorem State.modGlb_read_running (s : State) (f : Glb → Glb) (x : Nat) : (s.modGlb f).running x = s.running x := rfl

/-! Parts read after `State.modSpare` -/

@[simp] theorem State.modSpare_read_face (s : State) (f : SpareMap → SpareMap) (x : Nat) : (s.modSpare f).face x = s.face x := rfl
@[simp] theorem State.modSpare_read_bench (s : State) (f : SpareMap → SpareMap) (x y : Nat) : (s.modSpare f).bench x y = s.bench x y := rfl
@[simp] theorem State.modSpare_read_work (s : State) (f : SpareMap → SpareMap) (x : Nat) : (s.modSpare f).work x = s.work x := rfl
@[simp] theorem State.modSpare_read_cut (s : State) (f : SpareMap → SpareMap) (x : Nat) : (s.modSpare f).cut x = s.cut x := rfl
@[simp] theorem State.modSpare_read_hoist (s : State) (f : SpareMap → SpareMap) (x : Nat) : (s.modSpare f).hoist x = s.hoist x := rfl
@[simp] theorem State.modSpare_read_port (s : State) (f : SpareMap → SpareMap) (x : Nat) : (s.modSpare f).port x = s.port x := rfl
@[simp] theorem State.modSpare_read_unit (s : State) (f : SpareMap → SpareMap) (x y : Nat) : (s.modSpare f).unit x y = s.unit x y := rfl
@[simp] theorem State.modSpare_read_crossing (s : State) (f : SpareMap → SpareMap) (x : Nat) : (s.modSpare f).crossing x = s.crossing x := rfl
@[simp] theorem State.modSpare_read_tpb (s : State) (f : SpareMap → SpareMap) (x : Nat) : (s.modSpare f).tpb x = s.tpb x := rfl
@[simp] theorem State.modSpare_read_clk (s : State) (f : SpareMap → SpareMap) (x : Nat) : (s.modSpare f).clk x = s.clk x := rfl
@[simp] theorem State.modSpare_read_arun (s : State) (f : SpareMap → SpareMap) (x : Nat) : (s.modSpare f).arun x = s.arun x := rfl
@[simp] theorem State.modSpare_read_tally (s : State) (f : SpareMap → SpareMap) (x : Nat) : (s.modSpare f).tally x = s.tally x := rfl
@[simp] theorem State.modSpare_read_preempted (s : State) (f : SpareMap → SpareMap) (x : Nat) : (s.modSpare f).preempted x = s.preempted x := rfl
@[simp] theorem State.modSpare_read_descOf (s : State) (f : SpareMap → SpareMap) (x : Nat) : (s.modSpare f).descOf x = s.descOf x := rfl
@[simp] theorem State.modSpare_read_running (s : State) (f : SpareMap → SpareMap) (x : Nat) : (s.modSpare f).running x = s.running x := rfl

/-! Parts read after `State.modArun` -/

@[simp] theorem State.modArun_read_face (s : State) (e : Nat) (f : ARun → ARun) (x : Nat) : (s.modArun e f).face x = s.face x := rfl
@[simp] theorem State.modArun_read_bench (s : State) (e : Nat) (f : ARun → ARun) (x y : Nat) : (s.modArun e f).bench x y = s.bench x y := rfl
@[simp] theorem State.modArun_read_work (s : State) (e : Nat) (f : ARun → ARun) (x : Nat) : (s.modArun e f).work x = s.work x := rfl
@[simp] theorem State.modArun_read_cut (s : State) (e : Nat) (f : ARun → ARun) (x : Nat) : (s.modArun e f).cut x = s.cut x := rfl
@[simp] theorem State.modArun_read_hoist (s : State) (e : Nat) (f : ARun → ARun) (x : Nat) : (s.modArun e f).hoist x = s.hoist x := rfl
@[simp] theorem State.modArun_read_port (s : State) (e : Nat) (f : ARun → ARun) (x : Nat) : (s.modArun e f).port x = s.port x := rfl
@[simp] theorem State.modArun_read_unit (s : State) (e : Nat) (f : ARun → ARun) (x y : Nat) : (s.modArun e f).unit x y = s.unit x y := rfl
@[simp] theorem State.modArun_read_crossing (s : State) (e : Nat) (f : ARun → ARun) (x : Nat) : (s.modArun e f).crossing x = s.crossing x := rfl
@[simp] theorem State.modArun_read_tpb (s : State) (e : Nat) (f : ARun → ARun) (x : Nat) : (s.modArun e f).tpb x = s.tpb x := rfl
@[simp] theorem State.modArun_read_clk (s : State) (e : Nat) (f : ARun → ARun) (x : Nat) : (s.modArun e f).clk x = s.clk x := rfl
@[simp] theorem State.modArun_read_tally (s : State) (e : Nat) (f : ARun → ARun) (x : Nat) : (s.modArun e f).tally x = s.tally x := rfl
@[simp] theorem State.modArun_read_preempted (s : State) (e : Nat) (f : ARun → ARun) (x : Nat) : (s.modArun e f).preempted x = s.preempted x := rfl
@[simp] theorem State.modArun_read_descOf (s : State) (e : Nat) (f : ARun → ARun) (x : Nat) : (s.modArun e f).descOf x = s.descOf x := rfl
@[simp] theorem State.modArun_read_running (s : State) (e : Nat) (f : ARun → ARun) (x : Nat) : (s.modArun e f).running x = s.running x := rfl

/-! Parts read after `State.modMon` -/

@[simp] theorem State.modMon_read_face (s : State) (f : Monitor → Monitor) (x : Nat) : (s.modMon f).face x = s.face x := rfl
@[simp] theorem State.modMon_read_bench (s : State) (f : Monitor → Monitor) (x y : Nat) : (s.modMon f).bench x y = s.bench x y := rfl
@[simp] theorem State.modMon_read_work (s : State) (f : Monitor → Monitor) (x : Nat) : (s.modMon f).work x = s.work x := rfl
@[simp] theorem State.modMon_read_cut (s : State) (f : Monitor → Monitor) (x : Nat) : (s.modMon f).cut x = s.cut x := rfl
@[simp] theorem State.modMon_read_hoist (s : State) (f : Monitor → Monitor) (x : Nat) : (s.modMon f).hoist x = s.hoist x := rfl
@[simp] theorem State.modMon_read_port (s : State) (f : Monitor → Monitor) (x : Nat) : (s.modMon f).port x = s.port x := rfl
@[simp] theorem State.modMon_read_unit (s : State) (f : Monitor → Monitor) (x y : Nat) : (s.modMon f).unit x y = s.unit x y := rfl
@[simp] theorem State.modMon_read_crossing (s : State) (f : Monitor → Monitor) (x : Nat) : (s.modMon f).crossing x = s.crossing x := rfl
@[simp] theorem State.modMon_read_tpb (s : State) (f : Monitor → Monitor) (x : Nat) : (s.modMon f).tpb x = s.tpb x := rfl
@[simp] theorem State.modMon_read_clk (s : State) (f : Monitor → Monitor) (x : Nat) : (s.modMon f).clk x = s.clk x := rfl
@[simp] theorem State.modMon_read_arun (s : State) (f : Monitor → Monitor) (x : Nat) : (s.modMon f).arun x = s.arun x := rfl
@[simp] theorem State.modMon_read_tally (s : State) (f : Monitor → Monitor) (x : Nat) : (s.modMon f).tally x = s.tally x := rfl
@[simp] theorem State.modMon_read_preempted (s : State) (f : Monitor → Monitor) (x : Nat) : (s.modMon f).preempted x = s.preempted x := rfl
@[simp] theorem State.modMon_read_descOf (s : State) (f : Monitor → Monitor) (x : Nat) : (s.modMon f).descOf x = s.descOf x := rfl
@[simp] theorem State.modMon_read_running (s : State) (f : Monitor → Monitor) (x : Nat) : (s.modMon f).running x = s.running x := rfl

/-! Parts read after `State.modPair` -/

@[simp] theorem State.modPair_read_face (s : State) (who : Requester) (lo : Nat) (f : PairSide → PairSide) (x : Nat) : (s.modPair who lo f).face x = s.face x := rfl
@[simp] theorem State.modPair_read_bench (s : State) (who : Requester) (lo : Nat) (f : PairSide → PairSide) (x y : Nat) : (s.modPair who lo f).bench x y = s.bench x y := rfl
@[simp] theorem State.modPair_read_work (s : State) (who : Requester) (lo : Nat) (f : PairSide → PairSide) (x : Nat) : (s.modPair who lo f).work x = s.work x := rfl
@[simp] theorem State.modPair_read_cut (s : State) (who : Requester) (lo : Nat) (f : PairSide → PairSide) (x : Nat) : (s.modPair who lo f).cut x = s.cut x := rfl
@[simp] theorem State.modPair_read_hoist (s : State) (who : Requester) (lo : Nat) (f : PairSide → PairSide) (x : Nat) : (s.modPair who lo f).hoist x = s.hoist x := rfl
@[simp] theorem State.modPair_read_port (s : State) (who : Requester) (lo : Nat) (f : PairSide → PairSide) (x : Nat) : (s.modPair who lo f).port x = s.port x := rfl
@[simp] theorem State.modPair_read_unit (s : State) (who : Requester) (lo : Nat) (f : PairSide → PairSide) (x y : Nat) : (s.modPair who lo f).unit x y = s.unit x y := rfl
@[simp] theorem State.modPair_read_crossing (s : State) (who : Requester) (lo : Nat) (f : PairSide → PairSide) (x : Nat) : (s.modPair who lo f).crossing x = s.crossing x := rfl
@[simp] theorem State.modPair_read_tpb (s : State) (who : Requester) (lo : Nat) (f : PairSide → PairSide) (x : Nat) : (s.modPair who lo f).tpb x = s.tpb x := rfl
@[simp] theorem State.modPair_read_clk (s : State) (who : Requester) (lo : Nat) (f : PairSide → PairSide) (x : Nat) : (s.modPair who lo f).clk x = s.clk x := rfl
@[simp] theorem State.modPair_read_arun (s : State) (who : Requester) (lo : Nat) (f : PairSide → PairSide) (x : Nat) : (s.modPair who lo f).arun x = s.arun x := rfl
@[simp] theorem State.modPair_read_tally (s : State) (who : Requester) (lo : Nat) (f : PairSide → PairSide) (x : Nat) : (s.modPair who lo f).tally x = s.tally x := rfl
@[simp] theorem State.modPair_read_preempted (s : State) (who : Requester) (lo : Nat) (f : PairSide → PairSide) (x : Nat) : (s.modPair who lo f).preempted x = s.preempted x := rfl
@[simp] theorem State.modPair_read_descOf (s : State) (who : Requester) (lo : Nat) (f : PairSide → PairSide) (x : Nat) : (s.modPair who lo f).descOf x = s.descOf x := rfl
@[simp] theorem State.modPair_read_running (s : State) (who : Requester) (lo : Nat) (f : PairSide → PairSide) (x : Nat) : (s.modPair who lo f).running x = s.running x := rfl

/-! Parts read after `State.setEvt` -/

@[simp] theorem State.setEvt_read_face (s : State) (i : Nat) (x : Nat) : (s.setEvt i).face x = s.face x := rfl
@[simp] theorem State.setEvt_read_bench (s : State) (i : Nat) (x y : Nat) : (s.setEvt i).bench x y = s.bench x y := rfl
@[simp] theorem State.setEvt_read_work (s : State) (i : Nat) (x : Nat) : (s.setEvt i).work x = s.work x := rfl
@[simp] theorem State.setEvt_read_cut (s : State) (i : Nat) (x : Nat) : (s.setEvt i).cut x = s.cut x := rfl
@[simp] theorem State.setEvt_read_hoist (s : State) (i : Nat) (x : Nat) : (s.setEvt i).hoist x = s.hoist x := rfl
@[simp] theorem State.setEvt_read_port (s : State) (i : Nat) (x : Nat) : (s.setEvt i).port x = s.port x := rfl
@[simp] theorem State.setEvt_read_unit (s : State) (i : Nat) (x y : Nat) : (s.setEvt i).unit x y = s.unit x y := rfl
@[simp] theorem State.setEvt_read_crossing (s : State) (i : Nat) (x : Nat) : (s.setEvt i).crossing x = s.crossing x := rfl
@[simp] theorem State.setEvt_read_tpb (s : State) (i : Nat) (x : Nat) : (s.setEvt i).tpb x = s.tpb x := rfl
@[simp] theorem State.setEvt_read_clk (s : State) (i : Nat) (x : Nat) : (s.setEvt i).clk x = s.clk x := rfl
@[simp] theorem State.setEvt_read_arun (s : State) (i : Nat) (x : Nat) : (s.setEvt i).arun x = s.arun x := rfl
@[simp] theorem State.setEvt_read_tally (s : State) (i : Nat) (x : Nat) : (s.setEvt i).tally x = s.tally x := rfl
@[simp] theorem State.setEvt_read_descOf (s : State) (i : Nat) (x : Nat) : (s.setEvt i).descOf x = s.descOf x := rfl
@[simp] theorem State.setEvt_read_running (s : State) (i : Nat) (x : Nat) : (s.setEvt i).running x = s.running x := rfl

/-! Parts read after `State.setClk` -/

@[simp] theorem State.setClk_read_face (s : State) (k : Nat) (c : ClkState) (x : Nat) : (s.setClk k c).face x = s.face x := rfl
@[simp] theorem State.setClk_read_bench (s : State) (k : Nat) (c : ClkState) (x y : Nat) : (s.setClk k c).bench x y = s.bench x y := rfl
@[simp] theorem State.setClk_read_work (s : State) (k : Nat) (c : ClkState) (x : Nat) : (s.setClk k c).work x = s.work x := rfl
@[simp] theorem State.setClk_read_cut (s : State) (k : Nat) (c : ClkState) (x : Nat) : (s.setClk k c).cut x = s.cut x := rfl
@[simp] theorem State.setClk_read_hoist (s : State) (k : Nat) (c : ClkState) (x : Nat) : (s.setClk k c).hoist x = s.hoist x := rfl
@[simp] theorem State.setClk_read_port (s : State) (k : Nat) (c : ClkState) (x : Nat) : (s.setClk k c).port x = s.port x := rfl
@[simp] theorem State.setClk_read_unit (s : State) (k : Nat) (c : ClkState) (x y : Nat) : (s.setClk k c).unit x y = s.unit x y := rfl
@[simp] theorem State.setClk_read_crossing (s : State) (k : Nat) (c : ClkState) (x : Nat) : (s.setClk k c).crossing x = s.crossing x := rfl
@[simp] theorem State.setClk_read_tpb (s : State) (k : Nat) (c : ClkState) (x : Nat) : (s.setClk k c).tpb x = s.tpb x := rfl
@[simp] theorem State.setClk_read_arun (s : State) (k : Nat) (c : ClkState) (x : Nat) : (s.setClk k c).arun x = s.arun x := rfl
@[simp] theorem State.setClk_read_tally (s : State) (k : Nat) (c : ClkState) (x : Nat) : (s.setClk k c).tally x = s.tally x := rfl
@[simp] theorem State.setClk_read_preempted (s : State) (k : Nat) (c : ClkState) (x : Nat) : (s.setClk k c).preempted x = s.preempted x := rfl
@[simp] theorem State.setClk_read_descOf (s : State) (k : Nat) (c : ClkState) (x : Nat) : (s.setClk k c).descOf x = s.descOf x := rfl

/-! Parts read after `State.setBoot` -/

@[simp] theorem State.setBoot_read_face (s : State) (b : Nat) (x : Nat) : (s.setBoot b).face x = s.face x := rfl
@[simp] theorem State.setBoot_read_bench (s : State) (b : Nat) (x y : Nat) : (s.setBoot b).bench x y = s.bench x y := rfl
@[simp] theorem State.setBoot_read_work (s : State) (b : Nat) (x : Nat) : (s.setBoot b).work x = s.work x := rfl
@[simp] theorem State.setBoot_read_cut (s : State) (b : Nat) (x : Nat) : (s.setBoot b).cut x = s.cut x := rfl
@[simp] theorem State.setBoot_read_hoist (s : State) (b : Nat) (x : Nat) : (s.setBoot b).hoist x = s.hoist x := rfl
@[simp] theorem State.setBoot_read_port (s : State) (b : Nat) (x : Nat) : (s.setBoot b).port x = s.port x := rfl
@[simp] theorem State.setBoot_read_unit (s : State) (b : Nat) (x y : Nat) : (s.setBoot b).unit x y = s.unit x y := rfl
@[simp] theorem State.setBoot_read_crossing (s : State) (b : Nat) (x : Nat) : (s.setBoot b).crossing x = s.crossing x := rfl
@[simp] theorem State.setBoot_read_tpb (s : State) (b : Nat) (x : Nat) : (s.setBoot b).tpb x = s.tpb x := rfl
@[simp] theorem State.setBoot_read_clk (s : State) (b : Nat) (x : Nat) : (s.setBoot b).clk x = s.clk x := rfl
@[simp] theorem State.setBoot_read_arun (s : State) (b : Nat) (x : Nat) : (s.setBoot b).arun x = s.arun x := rfl
@[simp] theorem State.setBoot_read_tally (s : State) (b : Nat) (x : Nat) : (s.setBoot b).tally x = s.tally x := rfl
@[simp] theorem State.setBoot_read_descOf (s : State) (b : Nat) (x : Nat) : (s.setBoot b).descOf x = s.descOf x := rfl
@[simp] theorem State.setBoot_read_running (s : State) (b : Nat) (x : Nat) : (s.setBoot b).running x = s.running x := rfl

/-! Parts read after `State.logRec` -/

@[simp] theorem State.logRec_read_face (s : State) (code w fl a0 a1 : Nat) (x : Nat) : (s.logRec code w fl a0 a1).face x = s.face x := rfl
@[simp] theorem State.logRec_read_bench (s : State) (code w fl a0 a1 : Nat) (x y : Nat) : (s.logRec code w fl a0 a1).bench x y = s.bench x y := rfl
@[simp] theorem State.logRec_read_work (s : State) (code w fl a0 a1 : Nat) (x : Nat) : (s.logRec code w fl a0 a1).work x = s.work x := rfl
@[simp] theorem State.logRec_read_cut (s : State) (code w fl a0 a1 : Nat) (x : Nat) : (s.logRec code w fl a0 a1).cut x = s.cut x := rfl
@[simp] theorem State.logRec_read_hoist (s : State) (code w fl a0 a1 : Nat) (x : Nat) : (s.logRec code w fl a0 a1).hoist x = s.hoist x := rfl
@[simp] theorem State.logRec_read_port (s : State) (code w fl a0 a1 : Nat) (x : Nat) : (s.logRec code w fl a0 a1).port x = s.port x := rfl
@[simp] theorem State.logRec_read_unit (s : State) (code w fl a0 a1 : Nat) (x y : Nat) : (s.logRec code w fl a0 a1).unit x y = s.unit x y := rfl
@[simp] theorem State.logRec_read_crossing (s : State) (code w fl a0 a1 : Nat) (x : Nat) : (s.logRec code w fl a0 a1).crossing x = s.crossing x := rfl
@[simp] theorem State.logRec_read_tpb (s : State) (code w fl a0 a1 : Nat) (x : Nat) : (s.logRec code w fl a0 a1).tpb x = s.tpb x := rfl
@[simp] theorem State.logRec_read_clk (s : State) (code w fl a0 a1 : Nat) (x : Nat) : (s.logRec code w fl a0 a1).clk x = s.clk x := rfl
@[simp] theorem State.logRec_read_arun (s : State) (code w fl a0 a1 : Nat) (x : Nat) : (s.logRec code w fl a0 a1).arun x = s.arun x := rfl
@[simp] theorem State.logRec_read_tally (s : State) (code w fl a0 a1 : Nat) (x : Nat) : (s.logRec code w fl a0 a1).tally x = s.tally x := rfl
@[simp] theorem State.logRec_read_preempted (s : State) (code w fl a0 a1 : Nat) (x : Nat) : (s.logRec code w fl a0 a1).preempted x = s.preempted x := rfl
@[simp] theorem State.logRec_read_descOf (s : State) (code w fl a0 a1 : Nat) (x : Nat) : (s.logRec code w fl a0 a1).descOf x = s.descOf x := rfl
@[simp] theorem State.logRec_read_running (s : State) (code w fl a0 a1 : Nat) (x : Nat) : (s.logRec code w fl a0 a1).running x = s.running x := rfl

/-! Parts read after `State.logEvt` -/

@[simp] theorem State.logEvt_read_face (s : State) (code a0 a1 : Nat) (x : Nat) : (s.logEvt code a0 a1).face x = s.face x := rfl
@[simp] theorem State.logEvt_read_bench (s : State) (code a0 a1 : Nat) (x y : Nat) : (s.logEvt code a0 a1).bench x y = s.bench x y := rfl
@[simp] theorem State.logEvt_read_work (s : State) (code a0 a1 : Nat) (x : Nat) : (s.logEvt code a0 a1).work x = s.work x := rfl
@[simp] theorem State.logEvt_read_cut (s : State) (code a0 a1 : Nat) (x : Nat) : (s.logEvt code a0 a1).cut x = s.cut x := rfl
@[simp] theorem State.logEvt_read_hoist (s : State) (code a0 a1 : Nat) (x : Nat) : (s.logEvt code a0 a1).hoist x = s.hoist x := rfl
@[simp] theorem State.logEvt_read_port (s : State) (code a0 a1 : Nat) (x : Nat) : (s.logEvt code a0 a1).port x = s.port x := rfl
@[simp] theorem State.logEvt_read_unit (s : State) (code a0 a1 : Nat) (x y : Nat) : (s.logEvt code a0 a1).unit x y = s.unit x y := rfl
@[simp] theorem State.logEvt_read_crossing (s : State) (code a0 a1 : Nat) (x : Nat) : (s.logEvt code a0 a1).crossing x = s.crossing x := rfl
@[simp] theorem State.logEvt_read_tpb (s : State) (code a0 a1 : Nat) (x : Nat) : (s.logEvt code a0 a1).tpb x = s.tpb x := rfl
@[simp] theorem State.logEvt_read_clk (s : State) (code a0 a1 : Nat) (x : Nat) : (s.logEvt code a0 a1).clk x = s.clk x := rfl
@[simp] theorem State.logEvt_read_arun (s : State) (code a0 a1 : Nat) (x : Nat) : (s.logEvt code a0 a1).arun x = s.arun x := rfl
@[simp] theorem State.logEvt_read_tally (s : State) (code a0 a1 : Nat) (x : Nat) : (s.logEvt code a0 a1).tally x = s.tally x := rfl
@[simp] theorem State.logEvt_read_preempted (s : State) (code a0 a1 : Nat) (x : Nat) : (s.logEvt code a0 a1).preempted x = s.preempted x := rfl
@[simp] theorem State.logEvt_read_descOf (s : State) (code a0 a1 : Nat) (x : Nat) : (s.logEvt code a0 a1).descOf x = s.descOf x := rfl
@[simp] theorem State.logEvt_read_running (s : State) (code a0 a1 : Nat) (x : Nat) : (s.logEvt code a0 a1).running x = s.running x := rfl

/-! Parts read after `State.putYard` -/

@[simp] theorem State.putYard_read_face (s : State) (a : Nat) (bs : List Byte) (x : Nat) : (s.putYard a bs).face x = s.face x := rfl
@[simp] theorem State.putYard_read_bench (s : State) (a : Nat) (bs : List Byte) (x y : Nat) : (s.putYard a bs).bench x y = s.bench x y := rfl
@[simp] theorem State.putYard_read_work (s : State) (a : Nat) (bs : List Byte) (x : Nat) : (s.putYard a bs).work x = s.work x := rfl
@[simp] theorem State.putYard_read_cut (s : State) (a : Nat) (bs : List Byte) (x : Nat) : (s.putYard a bs).cut x = s.cut x := rfl
@[simp] theorem State.putYard_read_hoist (s : State) (a : Nat) (bs : List Byte) (x : Nat) : (s.putYard a bs).hoist x = s.hoist x := rfl
@[simp] theorem State.putYard_read_port (s : State) (a : Nat) (bs : List Byte) (x : Nat) : (s.putYard a bs).port x = s.port x := rfl
@[simp] theorem State.putYard_read_unit (s : State) (a : Nat) (bs : List Byte) (x y : Nat) : (s.putYard a bs).unit x y = s.unit x y := rfl
@[simp] theorem State.putYard_read_crossing (s : State) (a : Nat) (bs : List Byte) (x : Nat) : (s.putYard a bs).crossing x = s.crossing x := rfl
@[simp] theorem State.putYard_read_tpb (s : State) (a : Nat) (bs : List Byte) (x : Nat) : (s.putYard a bs).tpb x = s.tpb x := rfl
@[simp] theorem State.putYard_read_clk (s : State) (a : Nat) (bs : List Byte) (x : Nat) : (s.putYard a bs).clk x = s.clk x := rfl
@[simp] theorem State.putYard_read_arun (s : State) (a : Nat) (bs : List Byte) (x : Nat) : (s.putYard a bs).arun x = s.arun x := rfl
@[simp] theorem State.putYard_read_tally (s : State) (a : Nat) (bs : List Byte) (x : Nat) : (s.putYard a bs).tally x = s.tally x := rfl
@[simp] theorem State.putYard_read_preempted (s : State) (a : Nat) (bs : List Byte) (x : Nat) : (s.putYard a bs).preempted x = s.preempted x := rfl
@[simp] theorem State.putYard_read_descOf (s : State) (a : Nat) (bs : List Byte) (x : Nat) : (s.putYard a bs).descOf x = s.descOf x := rfl
@[simp] theorem State.putYard_read_running (s : State) (a : Nat) (bs : List Byte) (x : Nat) : (s.putYard a bs).running x = s.running x := rfl

/-! Parts read after `State.putFabric` -/

@[simp] theorem State.putFabric_read_face (s : State) (a : Nat) (bs : List Byte) (x : Nat) : (s.putFabric a bs).face x = s.face x := rfl
@[simp] theorem State.putFabric_read_bench (s : State) (a : Nat) (bs : List Byte) (x y : Nat) : (s.putFabric a bs).bench x y = s.bench x y := rfl
@[simp] theorem State.putFabric_read_work (s : State) (a : Nat) (bs : List Byte) (x : Nat) : (s.putFabric a bs).work x = s.work x := rfl
@[simp] theorem State.putFabric_read_cut (s : State) (a : Nat) (bs : List Byte) (x : Nat) : (s.putFabric a bs).cut x = s.cut x := rfl
@[simp] theorem State.putFabric_read_hoist (s : State) (a : Nat) (bs : List Byte) (x : Nat) : (s.putFabric a bs).hoist x = s.hoist x := rfl
@[simp] theorem State.putFabric_read_port (s : State) (a : Nat) (bs : List Byte) (x : Nat) : (s.putFabric a bs).port x = s.port x := rfl
@[simp] theorem State.putFabric_read_unit (s : State) (a : Nat) (bs : List Byte) (x y : Nat) : (s.putFabric a bs).unit x y = s.unit x y := rfl
@[simp] theorem State.putFabric_read_crossing (s : State) (a : Nat) (bs : List Byte) (x : Nat) : (s.putFabric a bs).crossing x = s.crossing x := rfl
@[simp] theorem State.putFabric_read_tpb (s : State) (a : Nat) (bs : List Byte) (x : Nat) : (s.putFabric a bs).tpb x = s.tpb x := rfl
@[simp] theorem State.putFabric_read_clk (s : State) (a : Nat) (bs : List Byte) (x : Nat) : (s.putFabric a bs).clk x = s.clk x := rfl
@[simp] theorem State.putFabric_read_arun (s : State) (a : Nat) (bs : List Byte) (x : Nat) : (s.putFabric a bs).arun x = s.arun x := rfl
@[simp] theorem State.putFabric_read_tally (s : State) (a : Nat) (bs : List Byte) (x : Nat) : (s.putFabric a bs).tally x = s.tally x := rfl
@[simp] theorem State.putFabric_read_preempted (s : State) (a : Nat) (bs : List Byte) (x : Nat) : (s.putFabric a bs).preempted x = s.preempted x := rfl
@[simp] theorem State.putFabric_read_descOf (s : State) (a : Nat) (bs : List Byte) (x : Nat) : (s.putFabric a bs).descOf x = s.descOf x := rfl
@[simp] theorem State.putFabric_read_running (s : State) (a : Nat) (bs : List Byte) (x : Nat) : (s.putFabric a bs).running x = s.running x := rfl

/-! Parts read after `State.orFlags` -/

@[simp] theorem State.orFlags_read_face (s : State) (e k : Nat) (x : Nat) : (s.orFlags e k).face x = s.face x := rfl
@[simp] theorem State.orFlags_read_bench (s : State) (e k : Nat) (x y : Nat) : (s.orFlags e k).bench x y = s.bench x y := rfl
@[simp] theorem State.orFlags_read_work (s : State) (e k : Nat) (x : Nat) : (s.orFlags e k).work x = s.work x := rfl
@[simp] theorem State.orFlags_read_hoist (s : State) (e k : Nat) (x : Nat) : (s.orFlags e k).hoist x = s.hoist x := rfl
@[simp] theorem State.orFlags_read_port (s : State) (e k : Nat) (x : Nat) : (s.orFlags e k).port x = s.port x := rfl
@[simp] theorem State.orFlags_read_unit (s : State) (e k : Nat) (x y : Nat) : (s.orFlags e k).unit x y = s.unit x y := rfl
@[simp] theorem State.orFlags_read_crossing (s : State) (e k : Nat) (x : Nat) : (s.orFlags e k).crossing x = s.crossing x := rfl
@[simp] theorem State.orFlags_read_tpb (s : State) (e k : Nat) (x : Nat) : (s.orFlags e k).tpb x = s.tpb x := rfl
@[simp] theorem State.orFlags_read_clk (s : State) (e k : Nat) (x : Nat) : (s.orFlags e k).clk x = s.clk x := rfl
@[simp] theorem State.orFlags_read_arun (s : State) (e k : Nat) (x : Nat) : (s.orFlags e k).arun x = s.arun x := rfl
@[simp] theorem State.orFlags_read_tally (s : State) (e k : Nat) (x : Nat) : (s.orFlags e k).tally x = s.tally x := rfl
@[simp] theorem State.orFlags_read_preempted (s : State) (e k : Nat) (x : Nat) : (s.orFlags e k).preempted x = s.preempted x := rfl
@[simp] theorem State.orFlags_read_descOf (s : State) (e k : Nat) (x : Nat) : (s.orFlags e k).descOf x = s.descOf x := rfl
@[simp] theorem State.orFlags_read_running (s : State) (e k : Nat) (x : Nat) : (s.orFlags e k).running x = s.running x := rfl

/-! Reading a part after it was changed -/

@[simp] theorem State.face_modFace (s : State) (n : Nat) (f : Face → Face) : (s.modFace n f).face n = f (s.face n) := by
  simp [State.modFace, State.face]
theorem State.face_modFace_other (s : State) (n m : Nat) (f : Face → Face) (h : m ≠ n) :
    (s.modFace n f).face m = s.face m := by
  simp [State.modFace, State.face, Tab.get_update_other, h]
@[simp] theorem State.work_modWork (s : State) (n : Nat) (f : Working → Working) : (s.modWork n f).work n = f (s.work n) := by
  simp [State.modWork, State.work]
theorem State.work_modWork_other (s : State) (n m : Nat) (f : Working → Working) (h : m ≠ n) :
    (s.modWork n f).work m = s.work m := by
  simp [State.modWork, State.work, Tab.get_update_other, h]
@[simp] theorem State.cut_modCut (s : State) (n : Nat) (f : CutRun → CutRun) : (s.modCut n f).cut n = f (s.cut n) := by
  simp [State.modCut, State.cut]
theorem State.cut_modCut_other (s : State) (n m : Nat) (f : CutRun → CutRun) (h : m ≠ n) :
    (s.modCut n f).cut m = s.cut m := by
  simp [State.modCut, State.cut, Tab.get_update_other, h]
@[simp] theorem State.hoist_modHoist (s : State) (n : Nat) (f : Hoist → Hoist) : (s.modHoist n f).hoist n = f (s.hoist n) := by
  simp [State.modHoist, State.hoist]
theorem State.hoist_modHoist_other (s : State) (n m : Nat) (f : Hoist → Hoist) (h : m ≠ n) :
    (s.modHoist n f).hoist m = s.hoist m := by
  simp [State.modHoist, State.hoist, Tab.get_update_other, h]
@[simp] theorem State.port_modPort (s : State) (n : Nat) (f : Port → Port) : (s.modPort n f).port n = f (s.port n) := by
  simp [State.modPort, State.port]
theorem State.port_modPort_other (s : State) (n m : Nat) (f : Port → Port) (h : m ≠ n) :
    (s.modPort n f).port m = s.port m := by
  simp [State.modPort, State.port, Tab.get_update_other, h]
@[simp] theorem State.tpb_modTpb (s : State) (n : Nat) (f : Tpb → Tpb) : (s.modTpb n f).tpb n = f (s.tpb n) := by
  simp [State.modTpb, State.tpb]
theorem State.tpb_modTpb_other (s : State) (n m : Nat) (f : Tpb → Tpb) (h : m ≠ n) :
    (s.modTpb n f).tpb m = s.tpb m := by
  simp [State.modTpb, State.tpb, Tab.get_update_other, h]
@[simp] theorem State.arun_modArun (s : State) (n : Nat) (f : ARun → ARun) : (s.modArun n f).arun n = f (s.arun n) := by
  simp [State.modArun, State.arun]
theorem State.arun_modArun_other (s : State) (n m : Nat) (f : ARun → ARun) (h : m ≠ n) :
    (s.modArun n f).arun m = s.arun m := by
  simp [State.modArun, State.arun, Tab.get_update_other, h]
@[simp] theorem State.bench_modBench (s : State) (n b : Nat) (f : Bench → Bench) :
    (s.modBench n b f).bench n b = f (s.bench n b) := by
  simp [State.modBench, State.bench]
theorem State.bench_modBench_other (s : State) (n b m c : Nat) (f : Bench → Bench) (h : m * 4 + c ≠ n * 4 + b) :
    (s.modBench n b f).bench m c = s.bench m c := by
  simp [State.modBench, State.bench, Tab.get_update_other, h]
@[simp] theorem State.unit_modUnit (s : State) (k n : Nat) (f : UnitState → UnitState) :
    (s.modUnit k n f).unit k n = f (s.unit k n) := by
  simp [State.modUnit, State.unit]
theorem State.unit_modUnit_other (s : State) (k n k' n' : Nat) (f : UnitState → UnitState)
    (h : k' * 16 + n' ≠ k * 16 + n) : (s.modUnit k n f).unit k' n' = s.unit k' n' := by
  simp [State.modUnit, State.unit, Tab.get_update_other, h]
@[simp] theorem State.crossing_modCross (s : State) (g : Nat) (f : CrossGroup → CrossGroup) :
    (s.modCross g f).crossing g = f (s.crossing g) := by
  simp [State.modCross, State.crossing]
theorem State.crossing_modCross_other (s : State) (g g' : Nat) (f : CrossGroup → CrossGroup) (h : g' ≠ g) :
    (s.modCross g f).crossing g' = s.crossing g' := by
  simp [State.modCross, State.crossing, Tab.get_set_other, h]
@[simp] theorem State.clk_setClk (s : State) (k : Nat) (c : ClkState) : (s.setClk k c).clk k = c := by
  simp [State.setClk, State.clk]
theorem State.clk_setClk_other (s : State) (k j : Nat) (c : ClkState) (h : j ≠ k) :
    (s.setClk k c).clk j = s.clk j := by
  simp [State.setClk, State.clk, Tab.get_set_other, h]
@[simp] theorem State.modGlb_glb (s : State) (f : Glb → Glb) : (s.modGlb f).glb = f s.glb := rfl
@[simp] theorem State.setBoot_glb (s : State) (b : Nat) : (s.setBoot b).glb = { s.glb with boot := b } := rfl
@[simp] theorem State.modSpare_spare (s : State) (f : SpareMap → SpareMap) : (s.modSpare f).spare = f s.spare := rfl
@[simp] theorem State.modMon_monitor (s : State) (f : Monitor → Monitor) : (s.modMon f).monitor = f s.monitor := rfl
@[simp] theorem State.logRec_head (s : State) (code w fl a0 a1 : Nat) :
    (s.logRec code w fl a0 a1).log.head = s.log.head + 1 := rfl
@[simp] theorem State.logEvt_head (s : State) (code a0 a1 : Nat) :
    (s.logEvt code a0 a1).log.head = s.log.head + 1 := rfl
@[simp] theorem State.tally_tallies (s : State) (i : Nat) : Tab.get 0 s.tallies i = s.tally i := rfl

end Sys2Proof.Machine
end

