-- ==== Sys2Proof/Laws/Keeps.lean ====
section
/-! SUPPORT. What nearly every operation keeps: the queue, the supply, the night-cycle count, the key store, BOOT, the
records already logged and the invariant `Sound`. One lemma for each operation, in these files, says that it does. -/

namespace Sys2Proof.Machine

/-- State `t` keeps what `s` has of the queue, supply, clock count, keys, BOOT, log count and soundness. -/
def Keeps (s t : State) : Prop :=
  t.pending = s.pending ∧ t.supply = s.supply ∧ t.nc = s.nc ∧ t.nv.keys = s.nv.keys ∧
  t.glb.boot = s.glb.boot ∧ s.log.head ≤ t.log.head ∧ (Sound s → Sound t)

theorem Keeps.refl (s : State) : Keeps s s := ⟨rfl, rfl, rfl, rfl, rfl, Nat.le_refl _, id⟩

theorem Keeps.trans {s a b : State} (h : Keeps s a) (k : Keeps a b) : Keeps s b :=
  ⟨k.1.trans h.1, k.2.1.trans h.2.1, k.2.2.1.trans h.2.2.1, k.2.2.2.1.trans h.2.2.2.1,
   k.2.2.2.2.1.trans h.2.2.2.2.1, Nat.le_trans h.2.2.2.2.2.1 k.2.2.2.2.2.1, fun x => k.2.2.2.2.2.2 (h.2.2.2.2.2.2 x)⟩

/-- A fold of an operation that keeps these things keeps them. -/
theorem Keeps.foldl {α : Type} {s a : State} (h : Keeps s a) (f : State → α → State) (xs : List α)
    (k : ∀ b x, Keeps s b → Keeps s (f b x)) : Keeps s (xs.foldl f a) := by
  induction xs generalizing a with
  | nil => exact h
  | cons x xs ih => exact ih (k a x h)

/-- A fold over a pair whose first part is the state. -/
theorem Keeps.foldlFst {α β : Type} {s : State} {a : State × β} (h : Keeps s a.1) (f : State × β → α → State × β)
    (xs : List α) (k : ∀ b x, Keeps s b.1 → Keeps s (f b x).1) : Keeps s (xs.foldl f a).1 := by
  induction xs generalizing a with
  | nil => exact h
  | cons x xs ih => exact ih (k a x h)

/-- A change of the yard that keeps its memory's canonical form keeps these things. -/
theorem Keeps.yard {s a : State} (h : Keeps s a) (y : Yard) (k : Mem.wf a.yard.mem = true → Mem.wf y.mem = true) :
    Keeps s { a with yard := y } :=
  ⟨h.1, h.2.1, h.2.2.1, h.2.2.2.1, h.2.2.2.2.1, h.2.2.2.2.2.1, fun x =>
    have j := h.2.2.2.2.2.2 x
    ⟨k j.1, j.2.1, j.2.2.1, j.2.2.2⟩⟩

/-- The same for a change of its memory and its poisoned words alone. -/
theorem Keeps.yardMem {s a : State} (h : Keeps s a) (m : Mem) (p : List Nat)
    (k : Mem.wf a.yard.mem = true → Mem.wf m = true) :
    Keeps s { a with yard := { a.yard with mem := m, poison := p } } := Keeps.yard h _ k

/-- A change of the fills keeps these things. -/
theorem Keeps.fills {s a : State} (h : Keeps s a) (f : Fills) : Keeps s { a with fills := f } := h

/-- New tallies of 64 bits keep these things. -/
theorem Keeps.tallies {s a : State} (h : Keeps s a) (ts : Tab Nat)
    (k : (∀ e ∈ a.tallies, e.2 < 2 ^ 64) → ∀ e ∈ ts, e.2 < 2 ^ 64) : Keeps s { a with tallies := ts } :=
  ⟨h.1, h.2.1, h.2.2.1, h.2.2.2.1, h.2.2.2.2.1, h.2.2.2.2.2.1, fun x =>
    have j := h.2.2.2.2.2.2 x
    ⟨j.1, j.2.1, j.2.2.1, k j.2.2.2.1, j.2.2.2.2⟩⟩

/-- A new score of 16 bits keeps these things. -/
theorem Keeps.health {s a : State} (h : Keeps s a) (v : Health) (k : a.health.score ≤ 65535 → v.score ≤ 65535) :
    Keeps s { a with health := v } :=
  ⟨h.1, h.2.1, h.2.2.1, h.2.2.2.1, h.2.2.2.2.1, h.2.2.2.2.2.1, fun x =>
    have j := h.2.2.2.2.2.2 x
    ⟨j.1, k j.2.1, j.2.2.1, j.2.2.2⟩⟩

/-- A load state whose staged image is gone, or is one of 64-bit tallies, keeps these things. -/
theorem Keeps.load {s a : State} (h : Keeps s a) (l : LoadState)
    (k : ∀ i, l.staged = some i → ∀ e ∈ i.tallies, e.2 < 2 ^ 64) : Keeps s { a with load := l } :=
  ⟨h.1, h.2.1, h.2.2.1, h.2.2.2.1, h.2.2.2.2.1, h.2.2.2.2.2.1, fun x =>
    have j := h.2.2.2.2.2.2 x
    ⟨j.1, j.2.1, j.2.2.1, j.2.2.2.1, k⟩⟩

end Sys2Proof.Machine
end

