-- ==== Sys2Proof/Laws/KeepsOps.lean ====
section
/-! SUPPORT. What the operations of `Machine/Ops.lean` keep (`Keeps`). -/

namespace Sys2Proof.Machine

set_option linter.all false

theorem State.modFace_keeps {σ₀ σ : State} (hk : Keeps σ₀ σ) (n : Nat) (f : Face → Face) :
    Keeps σ₀ (State.modFace σ n f) := by
  unfold State.modFace
  try dsimp only
  repeat' first
    | with_reducible assumption
    | intro _
    | with_reducible split
    | assumption
    | rfl

theorem State.modBench_keeps {σ₀ σ : State} (hk : Keeps σ₀ σ) (n b : Nat) (f : Bench → Bench) :
    Keeps σ₀ (State.modBench σ n b f) := by
  unfold State.modBench
  try dsimp only
  repeat' first
    | with_reducible assumption
    | intro _
    | with_reducible split
    | assumption
    | rfl

theorem State.modWork_keeps {σ₀ σ : State} (hk : Keeps σ₀ σ) (w : Nat) (f : Working → Working) :
    Keeps σ₀ (State.modWork σ w f) := by
  unfold State.modWork
  try dsimp only
  repeat' first
    | with_reducible assumption
    | intro _
    | with_reducible split
    | assumption
    | rfl

theorem State.modCut_keeps {σ₀ σ : State} (hk : Keeps σ₀ σ) (e : Nat) (f : CutRun → CutRun) :
    Keeps σ₀ (State.modCut σ e f) := by
  unfold State.modCut
  try dsimp only
  repeat' first
    | with_reducible assumption
    | intro _
    | with_reducible split
    | assumption
    | rfl

theorem State.modHoist_keeps {σ₀ σ : State} (hk : Keeps σ₀ σ) (h : Nat) (f : Hoist → Hoist) :
    Keeps σ₀ (State.modHoist σ h f) := by
  unfold State.modHoist
  try dsimp only
  repeat' first
    | with_reducible assumption
    | intro _
    | with_reducible split
    | assumption
    | rfl

theorem State.modPort_keeps {σ₀ σ : State} (hk : Keeps σ₀ σ) (p : Nat) (f : Port → Port) :
    Keeps σ₀ (State.modPort σ p f) := by
  unfold State.modPort
  try dsimp only
  repeat' first
    | with_reducible assumption
    | intro _
    | with_reducible split
    | assumption
    | rfl

theorem State.modUnit_keeps {σ₀ σ : State} (hk : Keeps σ₀ σ) (kind n : Nat) (f : UnitState → UnitState) :
    Keeps σ₀ (State.modUnit σ kind n f) := by
  unfold State.modUnit
  try dsimp only
  repeat' first
    | with_reducible assumption
    | intro _
    | with_reducible split
    | assumption
    | rfl

theorem State.modCross_keeps {σ₀ σ : State} (hk : Keeps σ₀ σ) (g : Nat) (f : CrossGroup → CrossGroup) :
    Keeps σ₀ (State.modCross σ g f) := by
  unfold State.modCross
  try dsimp only
  repeat' first
    | with_reducible assumption
    | intro _
    | with_reducible split
    | assumption
    | rfl

theorem State.modTpb_keeps {σ₀ σ : State} (hk : Keeps σ₀ σ) (j : Nat) (f : Tpb → Tpb) :
    Keeps σ₀ (State.modTpb σ j f) := by
  unfold State.modTpb
  try dsimp only
  repeat' first
    | with_reducible assumption
    | intro _
    | with_reducible split
    | assumption
    | rfl

theorem State.modGlb_keeps {σ₀ σ : State} (hk : Keeps σ₀ σ) (f : Glb → Glb) (hf : ∀ g, (f g).boot = g.boot) :
    Keeps σ₀ (State.modGlb σ f) :=
  ⟨hk.1, hk.2.1, hk.2.2.1, hk.2.2.2.1, (hf _).trans hk.2.2.2.2.1, hk.2.2.2.2.2⟩

theorem State.setEvt_keeps {σ₀ σ : State} (hk : Keeps σ₀ σ) (i : Nat) :
    Keeps σ₀ (State.setEvt σ i) := by
  unfold State.setEvt
  try dsimp only
  repeat' first
    | with_reducible assumption
    | with_reducible apply State.modGlb_keeps
    | intro _
    | with_reducible split
    | assumption
    | rfl
    | apply State.modGlb_keeps

theorem State.logRec_keeps {σ₀ σ : State} (hk : Keeps σ₀ σ) (code w flags arg0 arg1 : Nat) :
    Keeps σ₀ (State.logRec σ code w flags arg0 arg1) :=
  ⟨hk.1, hk.2.1, hk.2.2.1, hk.2.2.2.1, hk.2.2.2.2.1, Nat.le_trans hk.2.2.2.2.2.1 (Nat.le_succ _), fun h =>
    have k := hk.2.2.2.2.2.2 h
    ⟨k.1, k.2.1, ⟨by simp only [State.logRec, Config.logDepth, List.length_take]; omega, fun r hr => by
      rcases List.mem_cons.1 (List.mem_of_mem_take hr) with rfl | hr
      · exact Nat.le_refl _
      · exact Nat.le_succ_of_le (k.2.2.1.2 r hr)⟩, k.2.2.2⟩⟩

theorem State.logEvt_keeps {σ₀ σ : State} (hk : Keeps σ₀ σ) (code arg0 arg1 : Nat) :
    Keeps σ₀ (State.logEvt σ code arg0 arg1) := by
  unfold State.logEvt
  try dsimp only
  repeat' first
    | with_reducible assumption
    | with_reducible apply State.logRec_keeps
    | intro _
    | with_reducible split
    | assumption
    | rfl
    | apply State.logRec_keeps

theorem State.setPending_keeps {σ₀ σ : State} (hk : Keeps σ₀ σ)  :
    Keeps σ₀ (State.setPending σ) := by
  unfold State.setPending
  try dsimp only
  repeat' first
    | with_reducible assumption
    | with_reducible apply State.setEvt_keeps
    | with_reducible apply State.logEvt_keeps
    | intro _
    | with_reducible split
    | assumption
    | rfl
    | apply State.setEvt_keeps
    | apply State.logEvt_keeps

theorem State.riskAdd_keeps {σ₀ σ : State} (hk : Keeps σ₀ σ) (k : Nat) : Keeps σ₀ (State.riskAdd σ k) := by
  have h1 : ∀ v, Keeps σ₀ { σ with health := { σ.health with score := min v 65535 } } := fun v =>
    ⟨hk.1, hk.2.1, hk.2.2.1, hk.2.2.2.1, hk.2.2.2.2.1, hk.2.2.2.2.2.1, fun h =>
      have k := hk.2.2.2.2.2.2 h
      ⟨k.1, Nat.min_le_right _ _, k.2.2.1, k.2.2.2⟩⟩
  unfold State.riskAdd
  dsimp only
  split
  · exact State.setPending_keeps (h1 _)
  · exact h1 _

theorem State.healthEvent_keeps {σ₀ σ : State} (hk : Keeps σ₀ σ) (i k : Nat) :
    Keeps σ₀ (State.healthEvent σ i k) := by
  unfold State.healthEvent
  try dsimp only
  repeat' first
    | with_reducible assumption
    | with_reducible apply State.riskAdd_keeps
    | intro _
    | with_reducible split
    | assumption
    | rfl
    | apply State.riskAdd_keeps

theorem State.setClk_keeps {σ₀ σ : State} (hk : Keeps σ₀ σ) (k : Nat) (c : ClkState) :
    Keeps σ₀ (State.setClk σ k c) := by
  unfold State.setClk
  try dsimp only
  repeat' first
    | with_reducible assumption
    | intro _
    | with_reducible split
    | assumption
    | rfl

theorem State.wake_keeps {σ₀ σ : State} (hk : Keeps σ₀ σ) (k : Nat) : Keeps σ₀ (State.wake σ k) := by
  unfold State.wake
  split
  · exact State.setClk_keeps hk _ _
  · exact State.setClk_keeps hk _ _
  · exact hk

theorem State.wakeAll_keeps {σ₀ σ : State} (hk : Keeps σ₀ σ) (ks : List Nat) :
    Keeps σ₀ (State.wakeAll σ ks) := by
  unfold State.wakeAll
  try dsimp only
  repeat' first
    | with_reducible assumption
    | with_reducible apply State.wake_keeps
    | with_reducible apply Keeps.foldl
    | with_reducible apply Keeps.foldlFst
    | intro _
    | with_reducible split
    | assumption
    | rfl
    | apply State.wake_keeps

theorem State.tallyAdd_keeps {σ₀ σ : State} (hk : Keeps σ₀ σ) (i k : Nat) : Keeps σ₀ (State.tallyAdd σ i k) := by
  have h1 : ∀ v, v < 2 ^ 64 → Keeps σ₀ { σ with tallies := Tab.set σ.tallies i v } := fun v hv =>
    ⟨hk.1, hk.2.1, hk.2.2.1, hk.2.2.2.1, hk.2.2.2.2.1, hk.2.2.2.2.2.1, fun h =>
      have k := hk.2.2.2.2.2.2 h
      ⟨k.1, k.2.1, k.2.2.1, Tab.set_all (fun v => v < 2 ^ 64) σ.tallies i v k.2.2.2.1 hv, k.2.2.2.2⟩⟩
  have hv : satAdd 64 (σ.tally i) k < 2 ^ 64 := by unfold satAdd; omega
  unfold State.tallyAdd
  dsimp only
  split
  · exact State.logEvt_keeps (State.setEvt_keeps (h1 _ hv) _) _ _ _
  · exact h1 _ hv

theorem State.tallyDone_keeps {σ₀ σ : State} (hk : Keeps σ₀ σ) (d : DoneDesc) :
    Keeps σ₀ (State.tallyDone σ d) := by
  unfold State.tallyDone
  try dsimp only
  repeat' first
    | with_reducible assumption
    | with_reducible apply State.tallyAdd_keeps
    | intro _
    | with_reducible split
    | assumption
    | rfl
    | apply State.tallyAdd_keeps

theorem State.putFabric_keeps {σ₀ σ : State} (hk : Keeps σ₀ σ) (a : Nat) (bs : List Byte) :
    Keeps σ₀ (State.putFabric σ a bs) := by
  unfold State.putFabric
  try dsimp only
  repeat' first
    | with_reducible assumption
    | intro _
    | with_reducible split
    | assumption
    | rfl

theorem State.writeRecord_keeps {σ₀ σ : State} (hk : Keeps σ₀ σ) (e : Nat) : Keeps σ₀ (State.writeRecord σ e) := by
  unfold State.writeRecord
  split
  · exact State.putFabric_keeps hk _ _
  · exact hk

theorem State.setStatus_keeps {σ₀ σ : State} (hk : Keeps σ₀ σ) (e code : Nat) : Keeps σ₀ (State.setStatus σ e code) := by
  unfold State.setStatus
  dsimp only
  split
  · exact State.putFabric_keeps (State.modCut_keeps hk _ _) _ _
  · exact State.modCut_keeps hk _ _

theorem State.awaitReplay_keeps {σ₀ σ : State} (hk : Keeps σ₀ σ) (e : Nat) (r : Replay) :
    Keeps σ₀ (State.awaitReplay σ e r) := State.setStatus_keeps (State.modCut_keeps hk _ _) _ _

theorem State.replayStarts_keeps {σ₀ σ : State} (hk : Keeps σ₀ σ) (e : Nat) (p : Replay → Bool) :
    Keeps σ₀ (State.replayStarts σ e p) := by
  unfold State.replayStarts
  dsimp only
  split
  · split
    · exact State.setStatus_keeps (State.modCut_keeps hk _ _) _ _
    · exact State.modCut_keeps hk _ _
  · exact hk

theorem State.orFlags_keeps {σ₀ σ : State} (hk : Keeps σ₀ σ) (e k : Nat) :
    Keeps σ₀ (State.orFlags σ e k) := by
  unfold State.orFlags
  try dsimp only
  repeat' first
    | with_reducible assumption
    | with_reducible apply State.modCut_keeps
    | intro _
    | with_reducible split
    | assumption
    | rfl
    | apply State.modCut_keeps

end Sys2Proof.Machine
end

