-- ==== Sys2Proof/Laws/KeepsRows.lean ====
section
/-! SUPPORT. What the operations of `Machine/Rows.lean` keep (`Keeps`). -/

namespace Sys2Proof.Machine

set_option linter.all false

theorem State.modArun_keeps {σ₀ σ : State} (hk : Keeps σ₀ σ) (e : Nat) (f : ARun → ARun) :
    Keeps σ₀ (State.modArun σ e f) := by
  unfold State.modArun
  try dsimp only
  repeat' first
    | with_reducible assumption
    | intro _
    | with_reducible split
    | assumption
    | rfl

end Sys2Proof.Machine
end

