-- ==== Sys2Proof/Laws/KeepsControl.lean ====
section
/-! SUPPORT. What the operations of `Machine/Control.lean` keep (`Keeps`). -/

namespace Sys2Proof.Machine

set_option linter.all false

theorem State.faceLost_keeps {σ₀ σ : State} (hk : Keeps σ₀ σ) (n : Nat) :
    Keeps σ₀ (State.faceLost σ n) := by
  unfold State.faceLost
  extract_lets s1
  have hk_s1 : Keeps σ₀ s1 := by
    dsimp only [s1]
    repeat' first
      | with_reducible assumption
      | with_reducible apply State.modFace_keeps
      | intro _
      | with_reducible split
      | assumption
      | rfl
      | apply State.modFace_keeps
  clear_value s1
  try dsimp only
  repeat' first
    | with_reducible assumption
    | with_reducible apply State.modFace_keeps
    | intro _
    | with_reducible split
    | assumption
    | rfl
    | apply State.modFace_keeps

theorem State.yardLost_keeps {σ₀ σ : State} (hk : Keeps σ₀ σ) : Keeps σ₀ (State.yardLost σ) :=
  ⟨hk.1, hk.2.1, hk.2.2.1, hk.2.2.2.1, hk.2.2.2.2.1, hk.2.2.2.2.2.1, fun h =>
    have k := hk.2.2.2.2.2.2 h
    ⟨k.1, k.2.1, k.2.2.1, by simp [State.yardLost], by simp [State.yardLost, LoadState.reset]⟩⟩

theorem State.tileOff_keeps {σ₀ σ : State} (hk : Keeps σ₀ σ) (k : Nat) :
    Keeps σ₀ (State.tileOff σ k) := by
  unfold State.tileOff
  extract_lets s1
  have hk_s1 : Keeps σ₀ s1 := by
    dsimp only [s1]
    repeat' first
      | with_reducible assumption
      | with_reducible apply State.setClk_keeps
      | with_reducible apply State.faceLost_keeps
      | with_reducible apply State.yardLost_keeps
      | intro _
      | with_reducible split
      | assumption
      | rfl
      | apply State.setClk_keeps
      | apply State.faceLost_keeps
      | apply State.yardLost_keeps
  clear_value s1
  try dsimp only
  repeat' first
    | with_reducible assumption
    | with_reducible apply State.setClk_keeps
    | with_reducible apply State.faceLost_keeps
    | with_reducible apply State.yardLost_keeps
    | intro _
    | with_reducible split
    | assumption
    | rfl
    | apply State.setClk_keeps
    | apply State.faceLost_keeps
    | apply State.yardLost_keeps

theorem State.markHoists_keeps {σ₀ σ : State} (hk : Keeps σ₀ σ) (e n b : Nat) :
    Keeps σ₀ (State.markHoists σ e n b) := by
  unfold State.markHoists
  try dsimp only
  repeat' first
    | with_reducible assumption
    | intro _
    | with_reducible split
    | assumption
    | rfl

theorem State.stopHoists_keeps {σ₀ σ : State} (hk : Keeps σ₀ σ) (e : Nat) :
    Keeps σ₀ (State.stopHoists σ e) := by
  unfold State.stopHoists
  try dsimp only
  repeat' first
    | with_reducible assumption
    | intro _
    | with_reducible split
    | assumption
    | rfl

theorem State.resumeHoists_keeps {σ₀ σ : State} (hk : Keeps σ₀ σ) (e : Nat) :
    Keeps σ₀ (State.resumeHoists σ e) := by
  unfold State.resumeHoists
  try dsimp only
  repeat' first
    | with_reducible assumption
    | intro _
    | with_reducible split
    | assumption
    | rfl

theorem State.stopBenches_keeps {σ₀ σ : State} (hk : Keeps σ₀ σ) (e : Nat) :
    Keeps σ₀ (State.stopBenches σ e) := by
  unfold State.stopBenches
  try dsimp only
  repeat' first
    | with_reducible assumption
    | intro _
    | with_reducible split
    | assumption
    | rfl

theorem State.dropTiles_keeps {σ₀ σ : State} (hk : Keeps σ₀ σ) (e : Nat) :
    Keeps σ₀ (State.dropTiles σ e) := by
  unfold State.dropTiles
  try dsimp only
  repeat' first
    | with_reducible assumption
    | intro _
    | with_reducible split
    | assumption
    | rfl

theorem State.sentTiles_keeps {σ₀ σ : State} (hk : Keeps σ₀ σ) (e : Nat) (stream : Option TileStream) :
    Keeps σ₀ (State.sentTiles σ e stream) := by
  unfold State.sentTiles
  try dsimp only
  repeat' first
    | with_reducible assumption
    | intro _
    | with_reducible split
    | assumption
    | rfl

theorem State.stopCut_keeps {σ₀ σ : State} (hk : Keeps σ₀ σ) (e code fl : Nat) :
    Keeps σ₀ (State.stopCut σ e code fl) := by
  unfold State.stopCut
  try dsimp only
  repeat' first
    | with_reducible assumption
    | with_reducible apply State.modCut_keeps
    | with_reducible apply State.orFlags_keeps
    | with_reducible apply State.stopHoists_keeps
    | with_reducible apply State.stopBenches_keeps
    | with_reducible apply State.dropTiles_keeps
    | with_reducible apply State.setStatus_keeps
    | intro _
    | with_reducible split
    | assumption
    | rfl
    | apply State.modCut_keeps
    | apply State.orFlags_keeps
    | apply State.stopHoists_keeps
    | apply State.stopBenches_keeps
    | apply State.dropTiles_keeps
    | apply State.setStatus_keeps

theorem State.resumeBenches_keeps {σ₀ σ : State} (hk : Keeps σ₀ σ) (e : Nat) :
    Keeps σ₀ (State.resumeBenches σ e) := by
  unfold State.resumeBenches
  try dsimp only
  repeat' first
    | with_reducible assumption
    | intro _
    | with_reducible split
    | assumption
    | rfl

theorem State.resumeCut_keeps {σ₀ σ : State} (hk : Keeps σ₀ σ) (e : Nat) :
    Keeps σ₀ (State.resumeCut σ e) := by
  unfold State.resumeCut
  try dsimp only
  repeat' first
    | with_reducible assumption
    | with_reducible apply State.modCut_keeps
    | with_reducible apply State.resumeHoists_keeps
    | with_reducible apply State.resumeBenches_keeps
    | with_reducible apply State.setStatus_keeps
    | intro _
    | with_reducible split
    | assumption
    | rfl
    | apply State.modCut_keeps
    | apply State.resumeHoists_keeps
    | apply State.resumeBenches_keeps
    | apply State.setStatus_keeps

theorem State.preemptWorking_keeps {σ₀ σ : State} (hk : Keeps σ₀ σ) (w : Nat) :
    Keeps σ₀ (State.preemptWorking σ w) := by
  unfold State.preemptWorking
  try dsimp only
  repeat' first
    | with_reducible assumption
    | with_reducible apply State.stopCut_keeps
    | with_reducible apply Keeps.foldl
    | with_reducible apply Keeps.foldlFst
    | intro _
    | with_reducible split
    | assumption
    | rfl
    | apply State.stopCut_keeps

theorem State.resumeWorking_keeps {σ₀ σ : State} (hk : Keeps σ₀ σ) (w : Nat) :
    Keeps σ₀ (State.resumeWorking σ w) := by
  unfold State.resumeWorking
  try dsimp only
  repeat' first
    | with_reducible assumption
    | with_reducible apply State.resumeCut_keeps
    | with_reducible apply Keeps.foldl
    | with_reducible apply Keeps.foldlFst
    | intro _
    | with_reducible split
    | assumption
    | rfl
    | apply State.resumeCut_keeps

theorem State.addReplays_keeps {σ₀ σ : State} (hk : Keeps σ₀ σ) (e k : Nat) :
    Keeps σ₀ (State.addReplays σ e k) := by
  unfold State.addReplays
  try dsimp only
  repeat' first
    | with_reducible assumption
    | with_reducible apply State.modCut_keeps
    | intro _
    | with_reducible split
    | assumption
    | rfl
    | apply State.modCut_keeps

theorem State.abortPasses_keeps {σ₀ σ : State} (hk : Keeps σ₀ σ) (e : Nat) :
    Keeps σ₀ (State.abortPasses σ e) := by
  unfold State.abortPasses
  extract_lets s1
  have hk_s1 : Keeps σ₀ s1 := by
    dsimp only [s1]
    repeat' first
      | with_reducible assumption
      | with_reducible apply State.addReplays_keeps
      | with_reducible apply State.orFlags_keeps
      | with_reducible apply State.setStatus_keeps
      | intro _
      | with_reducible split
      | assumption
      | rfl
      | apply State.addReplays_keeps
      | apply State.orFlags_keeps
      | apply State.setStatus_keeps
  clear_value s1
  try dsimp only
  repeat' first
    | with_reducible assumption
    | with_reducible apply State.addReplays_keeps
    | with_reducible apply State.orFlags_keeps
    | with_reducible apply State.setStatus_keeps
    | intro _
    | with_reducible split
    | assumption
    | rfl
    | apply State.addReplays_keeps
    | apply State.orFlags_keeps
    | apply State.setStatus_keeps

theorem State.halt_keeps {σ₀ σ : State} (hk : Keeps σ₀ σ) (w cause arg : Nat) (at' : Option Nat) :
    Keeps σ₀ (State.halt σ w cause arg at') := by
  unfold State.halt
  extract_lets s1 s2 s3
  have hk_s1 : Keeps σ₀ s1 := by
    dsimp only [s1]
    repeat' first
      | with_reducible assumption
      | with_reducible apply State.modWork_keeps
      | with_reducible apply State.abortPasses_keeps
      | with_reducible apply State.stopCut_keeps
      | with_reducible apply State.setEvt_keeps
      | with_reducible apply State.logRec_keeps
      | with_reducible apply Keeps.foldl
      | with_reducible apply Keeps.foldlFst
      | intro _
      | with_reducible split
      | assumption
      | rfl
      | apply State.modWork_keeps
      | apply State.abortPasses_keeps
      | apply State.stopCut_keeps
      | apply State.setEvt_keeps
      | apply State.logRec_keeps
  clear_value s1
  have hk_s2 : Keeps σ₀ s2 := by
    dsimp only [s2]
    repeat' first
      | with_reducible assumption
      | with_reducible apply State.modWork_keeps
      | with_reducible apply State.abortPasses_keeps
      | with_reducible apply State.stopCut_keeps
      | with_reducible apply State.setEvt_keeps
      | with_reducible apply State.logRec_keeps
      | with_reducible apply Keeps.foldl
      | with_reducible apply Keeps.foldlFst
      | intro _
      | with_reducible split
      | assumption
      | rfl
      | apply State.modWork_keeps
      | apply State.abortPasses_keeps
      | apply State.stopCut_keeps
      | apply State.setEvt_keeps
      | apply State.logRec_keeps
  clear_value s2
  have hk_s3 : Keeps σ₀ s3 := by
    dsimp only [s3]
    repeat' first
      | with_reducible assumption
      | with_reducible apply State.modWork_keeps
      | with_reducible apply State.abortPasses_keeps
      | with_reducible apply State.stopCut_keeps
      | with_reducible apply State.setEvt_keeps
      | with_reducible apply State.logRec_keeps
      | with_reducible apply Keeps.foldl
      | with_reducible apply Keeps.foldlFst
      | intro _
      | with_reducible split
      | assumption
      | rfl
      | apply State.modWork_keeps
      | apply State.abortPasses_keeps
      | apply State.stopCut_keeps
      | apply State.setEvt_keeps
      | apply State.logRec_keeps
  clear_value s3
  try dsimp only
  repeat' first
    | with_reducible assumption
    | with_reducible apply State.modWork_keeps
    | with_reducible apply State.abortPasses_keeps
    | with_reducible apply State.stopCut_keeps
    | with_reducible apply State.setEvt_keeps
    | with_reducible apply State.logRec_keeps
    | with_reducible apply Keeps.foldl
    | with_reducible apply Keeps.foldlFst
    | intro _
    | with_reducible split
    | assumption
    | rfl
    | apply State.modWork_keeps
    | apply State.abortPasses_keeps
    | apply State.stopCut_keeps
    | apply State.setEvt_keeps
    | apply State.logRec_keeps

theorem State.logRetire_keeps {σ₀ σ : State} (hk : Keeps σ₀ σ) (arg cause flags : Nat) (w : Nat) :
    Keeps σ₀ (State.logRetire σ arg cause flags w) := by
  unfold State.logRetire
  try dsimp only
  repeat' first
    | with_reducible assumption
    | with_reducible apply State.setEvt_keeps
    | with_reducible apply State.logRec_keeps
    | intro _
    | with_reducible split
    | assumption
    | rfl
    | apply State.setEvt_keeps
    | apply State.logRec_keeps

theorem State.logRemap_keeps {σ₀ σ : State} (hk : Keeps σ₀ σ) (arg new flags : Nat) (w : Nat) :
    Keeps σ₀ (State.logRemap σ arg new flags w) := by
  unfold State.logRemap
  try dsimp only
  repeat' first
    | with_reducible assumption
    | with_reducible apply State.setEvt_keeps
    | with_reducible apply State.logRec_keeps
    | intro _
    | with_reducible split
    | assumption
    | rfl
    | apply State.setEvt_keeps
    | apply State.logRec_keeps

theorem State.modSpare_keeps {σ₀ σ : State} (hk : Keeps σ₀ σ) (f : SpareMap → SpareMap) :
    Keeps σ₀ (State.modSpare σ f) := by
  unfold State.modSpare
  try dsimp only
  repeat' first
    | with_reducible assumption
    | intro _
    | with_reducible split
    | assumption
    | rfl

theorem State.remapLane_keeps {σ₀ σ : State} (hk : Keeps σ₀ σ) (n phys l flags : Nat) :
    Keeps σ₀ (State.remapLane σ n phys l flags) := by
  unfold State.remapLane
  try dsimp only
  repeat' first
    | with_reducible assumption
    | with_reducible apply State.modSpare_keeps
    | with_reducible apply State.logRemap_keeps
    | intro _
    | with_reducible split
    | assumption
    | rfl
    | apply State.modSpare_keeps
    | apply State.logRemap_keeps

theorem State.refreshBenches_keeps {σ₀ σ : State} (hk : Keeps σ₀ σ) (n : Nat) :
    Keeps σ₀ (State.refreshBenches σ n) := by
  unfold State.refreshBenches
  try dsimp only
  repeat' first
    | with_reducible assumption
    | with_reducible apply State.modFace_keeps
    | intro _
    | with_reducible split
    | assumption
    | rfl
    | apply State.modFace_keeps

theorem State.retireBench_keeps {σ₀ σ : State} (hk : Keeps σ₀ σ) (n phys cause flags : Nat) :
    Keeps σ₀ (State.retireBench σ n phys cause flags) := by
  unfold State.retireBench
  try dsimp only
  repeat' first
    | with_reducible assumption
    | with_reducible apply State.modSpare_keeps
    | with_reducible apply State.logRetire_keeps
    | with_reducible apply State.logRemap_keeps
    | with_reducible apply State.refreshBenches_keeps
    | intro _
    | with_reducible split
    | assumption
    | rfl
    | apply State.modSpare_keeps
    | apply State.logRetire_keeps
    | apply State.logRemap_keeps
    | apply State.refreshBenches_keeps

theorem State.startFill_keeps {σ₀ σ : State} (hk : Keeps σ₀ σ)  :
    Keeps σ₀ (State.startFill σ) := by
  unfold State.startFill
  try dsimp only
  repeat' first
    | with_reducible assumption
    | with_reducible apply State.wake_keeps
    | with_reducible apply State.modFace_keeps
    | intro _
    | with_reducible split
    | assumption
    | rfl
    | apply State.wake_keeps
    | apply State.modFace_keeps

theorem State.adoptBench_keeps {σ₀ σ : State} (hk : Keeps σ₀ σ) (e n m b : Nat) :
    Keeps σ₀ (State.adoptBench σ e n m b) := by
  unfold State.adoptBench
  try dsimp only
  repeat' first
    | with_reducible assumption
    | with_reducible apply State.modCut_keeps
    | with_reducible apply State.modBench_keeps
    | intro _
    | with_reducible split
    | assumption
    | rfl
    | apply State.modCut_keeps
    | apply State.modBench_keeps

theorem State.adoptCut_keeps {σ₀ σ : State} (hk : Keeps σ₀ σ) (n e : Nat) :
    Keeps σ₀ (State.adoptCut σ n e) := by
  unfold State.adoptCut
  dsimp only
  split
  · rename_i m _
    have h1 : Keeps σ₀ ((List.range 4).foldl (fun t b => t.adoptBench e n m b) σ) :=
      Keeps.foldl hk _ _ (fun b x hb => State.adoptBench_keeps hb _ _ _ _)
    have h2 := State.modFace_keeps (State.orFlags_keeps h1 e (flag flReduced)) m
      (fun f => { f with reduced := true })
    revert h2
    generalize (((List.range 4).foldl (fun t b => t.adoptBench e n m b) σ).orFlags e (flag flReduced)).modFace m
      (fun f => { f with reduced := true }) = u
    intro h2
    split
    · exact hk
    · split
      · exact State.resumeCut_keeps (by exact h2) _
      · exact h2
  · split
    · exact hk
    · exact State.halt_keeps hk _ _ _ _

theorem State.adopt_keeps {σ₀ σ : State} (hk : Keeps σ₀ σ) (n : Nat) :
    Keeps σ₀ (State.adopt σ n) := by
  unfold State.adopt
  try dsimp only
  repeat' first
    | with_reducible assumption
    | with_reducible apply State.adoptCut_keeps
    | with_reducible apply Keeps.foldl
    | with_reducible apply Keeps.foldlFst
    | intro _
    | with_reducible split
    | assumption
    | rfl
    | apply State.adoptCut_keeps

theorem State.settle_keeps {σ₀ σ : State} (hk : Keeps σ₀ σ) (n : Nat) :
    Keeps σ₀ (State.settle σ n) := by
  unfold State.settle
  split
  · exact State.adopt_keeps hk n
  · exact hk

theorem State.dropFace_keeps {σ₀ σ : State} (hk : Keeps σ₀ σ) (n cause flags : Nat) :
    Keeps σ₀ (State.dropFace σ n cause flags) := by
  unfold State.dropFace
  extract_lets cuts s1 s2 s3
  have hk_s1 : Keeps σ₀ s1 := by
    dsimp only [s1]
    repeat' first
      | with_reducible assumption
      | with_reducible apply State.addReplays_keeps
      | with_reducible apply State.stopCut_keeps
      | with_reducible apply State.modFace_keeps
      | with_reducible apply State.modSpare_keeps
      | with_reducible apply State.setClk_keeps
      | with_reducible apply State.logRetire_keeps
      | with_reducible apply Keeps.foldl
      | with_reducible apply Keeps.foldlFst
      | intro _
      | with_reducible split
      | assumption
      | rfl
      | apply State.addReplays_keeps
      | apply State.stopCut_keeps
      | apply State.modFace_keeps
      | apply State.modSpare_keeps
      | apply State.setClk_keeps
      | apply State.logRetire_keeps
  clear_value s1
  have hk_s2 : Keeps σ₀ s2 := by
    dsimp only [s2]
    repeat' first
      | with_reducible assumption
      | with_reducible apply State.addReplays_keeps
      | with_reducible apply State.stopCut_keeps
      | with_reducible apply State.modFace_keeps
      | with_reducible apply State.modSpare_keeps
      | with_reducible apply State.setClk_keeps
      | with_reducible apply State.logRetire_keeps
      | with_reducible apply Keeps.foldl
      | with_reducible apply Keeps.foldlFst
      | intro _
      | with_reducible split
      | assumption
      | rfl
      | apply State.addReplays_keeps
      | apply State.stopCut_keeps
      | apply State.modFace_keeps
      | apply State.modSpare_keeps
      | apply State.setClk_keeps
      | apply State.logRetire_keeps
  clear_value s2
  have hk_s3 : Keeps σ₀ s3 := by
    dsimp only [s3]
    repeat' first
      | with_reducible assumption
      | with_reducible apply State.addReplays_keeps
      | with_reducible apply State.stopCut_keeps
      | with_reducible apply State.modFace_keeps
      | with_reducible apply State.modSpare_keeps
      | with_reducible apply State.setClk_keeps
      | with_reducible apply State.logRetire_keeps
      | with_reducible apply Keeps.foldl
      | with_reducible apply Keeps.foldlFst
      | intro _
      | with_reducible split
      | assumption
      | rfl
      | apply State.addReplays_keeps
      | apply State.stopCut_keeps
      | apply State.modFace_keeps
      | apply State.modSpare_keeps
      | apply State.setClk_keeps
      | apply State.logRetire_keeps
  clear_value s3
  try dsimp only
  repeat' first
    | with_reducible assumption
    | with_reducible apply State.stopCut_keeps
    | with_reducible apply State.modFace_keeps
    | with_reducible apply State.modSpare_keeps
    | with_reducible apply State.setClk_keeps
    | with_reducible apply State.logRetire_keeps
    | with_reducible apply Keeps.foldl
    | with_reducible apply Keeps.foldlFst
    | intro _
    | with_reducible split
    | assumption
    | rfl
    | apply State.stopCut_keeps
    | apply State.modFace_keeps
    | apply State.modSpare_keeps
    | apply State.setClk_keeps
    | apply State.logRetire_keeps

theorem State.retireFace_keeps {σ₀ σ : State} (hk : Keeps σ₀ σ) (n cause flags : Nat) :
    Keeps σ₀ (State.retireFace σ n cause flags) := by
  unfold State.retireFace
  try dsimp only
  repeat' first
    | with_reducible assumption
    | with_reducible apply State.dropFace_keeps
    | with_reducible apply State.startFill_keeps
    | with_reducible apply State.modFace_keeps
    | with_reducible apply State.adopt_keeps
    | with_reducible apply State.modSpare_keeps
    | with_reducible apply State.setClk_keeps
    | with_reducible apply State.logRetire_keeps
    | with_reducible apply State.logRemap_keeps
    | intro _
    | with_reducible split
    | assumption
    | rfl
    | apply State.dropFace_keeps
    | apply State.startFill_keeps
    | apply State.modFace_keeps
    | apply State.adopt_keeps
    | apply State.modSpare_keeps
    | apply State.setClk_keeps
    | apply State.logRetire_keeps
    | apply State.logRemap_keeps

theorem State.moveBenches_keeps {σ₀ σ : State} (hk : Keeps σ₀ σ) (n m : Nat) :
    Keeps σ₀ (State.moveBenches σ n m) := by
  unfold State.moveBenches
  try dsimp only
  repeat' first
    | with_reducible assumption
    | with_reducible apply State.modBench_keeps
    | with_reducible apply Keeps.foldl
    | with_reducible apply Keeps.foldlFst
    | intro _
    | with_reducible split
    | assumption
    | rfl
    | apply State.modBench_keeps

theorem State.joinCuts_keeps {σ₀ σ : State} (hk : Keeps σ₀ σ) (n : Nat) :
    Keeps σ₀ (State.joinCuts σ n) := by
  unfold State.joinCuts
  try dsimp only
  repeat' first
    | with_reducible assumption
    | with_reducible apply State.resumeCut_keeps
    | with_reducible apply Keeps.foldl
    | with_reducible apply Keeps.foldlFst
    | intro _
    | with_reducible split
    | assumption
    | rfl
    | apply State.resumeCut_keeps

theorem State.rejoin_keeps {σ₀ σ : State} (hk : Keeps σ₀ σ) (n : Nat) :
    Keeps σ₀ (State.rejoin σ n) := by
  unfold State.rejoin
  extract_lets s1
  have hk_s1 : Keeps σ₀ s1 := by
    dsimp only [s1]
    repeat' first
      | with_reducible assumption
      | with_reducible apply State.modSpare_keeps
      | with_reducible apply State.modFace_keeps
      | intro _
      | with_reducible split
      | assumption
      | rfl
      | apply State.modSpare_keeps
      | apply State.modFace_keeps
  clear_value s1
  try dsimp only
  repeat' first
    | with_reducible assumption
    | with_reducible apply State.modSpare_keeps
    | with_reducible apply State.modFace_keeps
    | intro _
    | with_reducible split
    | assumption
    | rfl
    | apply State.modSpare_keeps
    | apply State.modFace_keeps

theorem State.join_keeps {σ₀ σ : State} (hk : Keeps σ₀ σ) (x : Fill) :
    Keeps σ₀ (State.join σ x) := by
  unfold State.join
  try dsimp only
  repeat' first
    | with_reducible assumption
    | with_reducible apply State.rejoin_keeps
    | with_reducible apply State.joinCuts_keeps
    | with_reducible apply State.startFill_keeps
    | with_reducible apply State.modFace_keeps
    | with_reducible apply State.modSpare_keeps
    | with_reducible apply State.moveBenches_keeps
    | intro _
    | with_reducible split
    | assumption
    | rfl
    | apply State.rejoin_keeps
    | apply State.joinCuts_keeps
    | apply State.startFill_keeps
    | apply State.modFace_keeps
    | apply State.modSpare_keeps
    | apply State.moveBenches_keeps

theorem State.refill_keeps {σ₀ σ : State} (hk : Keeps σ₀ σ) (x : Fill) (rest : List Fill) (free : List Nat) :
    Keeps σ₀ (State.refill σ x rest free) := by
  unfold State.refill
  split
  · exact State.startFill_keeps (Keeps.fills (State.logRemap_keeps hk _ _ _ _) _)
  · exact State.startFill_keeps (State.adopt_keeps (Keeps.fills hk _) _)

theorem State.fillFail_keeps {σ₀ σ : State} (hk : Keeps σ₀ σ) (cause : Nat) :
    Keeps σ₀ (State.fillFail σ cause) := by
  unfold State.fillFail
  split
  · exact hk
  · exact State.refill_keeps (State.logRetire_keeps (State.setClk_keeps (State.modSpare_keeps
      (State.modFace_keeps hk _ _) _) _ _) _ _ _ _) _ _ _

theorem State.recheckBenches_keeps {σ₀ σ : State} (hk : Keeps σ₀ σ)  :
    Keeps σ₀ (State.recheckBenches σ) := by
  unfold State.recheckBenches
  try dsimp only
  repeat' first
    | with_reducible assumption
    | with_reducible apply State.retireFace_keeps
    | with_reducible apply Keeps.foldl
    | with_reducible apply Keeps.foldlFst
    | intro _
    | with_reducible split
    | assumption
    | rfl
    | apply State.retireFace_keeps

theorem State.retireBuffer_keeps {σ₀ σ : State} (hk : Keeps σ₀ σ) (j cause flags : Nat) :
    Keeps σ₀ (State.retireBuffer σ j cause flags) := by
  unfold State.retireBuffer
  try dsimp only
  repeat' first
    | with_reducible assumption
    | with_reducible apply State.modSpare_keeps
    | with_reducible apply State.logRetire_keeps
    | with_reducible apply State.logRemap_keeps
    | with_reducible apply State.wake_keeps
    | with_reducible apply State.setClk_keeps
    | intro _
    | with_reducible split
    | assumption
    | rfl
    | apply State.modSpare_keeps
    | apply State.logRetire_keeps
    | apply State.logRemap_keeps
    | apply State.wake_keeps
    | apply State.setClk_keeps

theorem State.retireUnit_keeps {σ₀ σ : State} (hk : Keeps σ₀ σ) (kind n cause flags : Nat) :
    Keeps σ₀ (State.retireUnit σ kind n cause flags) := by
  unfold State.retireUnit
  try dsimp only
  repeat' first
    | with_reducible assumption
    | with_reducible apply State.modUnit_keeps
    | with_reducible apply State.modSpare_keeps
    | with_reducible apply State.logRetire_keeps
    | intro _
    | with_reducible split
    | assumption
    | rfl
    | apply State.modUnit_keeps
    | apply State.modSpare_keeps
    | apply State.logRetire_keeps

theorem State.remapBank_keeps {σ₀ σ : State} (hk : Keeps σ₀ σ) (phys : Nat) :
    Keeps σ₀ (State.remapBank σ phys) := by
  unfold State.remapBank
  try dsimp only
  repeat' first
    | with_reducible assumption
    | with_reducible apply State.modSpare_keeps
    | with_reducible apply State.logRemap_keeps
    | with_reducible apply State.logRetire_keeps
    | with_reducible apply State.setEvt_keeps
    | with_reducible apply State.logEvt_keeps
    | intro _
    | with_reducible split
    | assumption
    | rfl
    | apply State.modSpare_keeps
    | apply State.logRemap_keeps
    | apply State.logRetire_keeps
    | apply State.setEvt_keeps
    | apply State.logEvt_keeps

theorem State.absorbTest_keeps {σ₀ σ : State} (hk : Keeps σ₀ σ) (t : FaceTest) :
    Keeps σ₀ (State.absorbTest σ t) := by
  unfold State.absorbTest
  extract_lets n s1
  have hk_s1 : Keeps σ₀ s1 := by
    dsimp only [s1]
    repeat' first
      | with_reducible assumption
      | with_reducible apply State.remapLane_keeps
      | with_reducible apply State.retireBench_keeps
      | with_reducible apply State.refreshBenches_keeps
      | with_reducible apply Keeps.foldl
      | with_reducible apply Keeps.foldlFst
      | intro _
      | with_reducible split
      | assumption
      | rfl
      | apply State.remapLane_keeps
      | apply State.retireBench_keeps
      | apply State.refreshBenches_keeps
  clear_value s1
  try dsimp only
  repeat' first
    | with_reducible assumption
    | with_reducible apply State.remapLane_keeps
    | with_reducible apply State.retireBench_keeps
    | with_reducible apply State.refreshBenches_keeps
    | with_reducible apply Keeps.foldl
    | with_reducible apply Keeps.foldlFst
    | intro _
    | with_reducible split
    | assumption
    | rfl
    | apply State.remapLane_keeps
    | apply State.retireBench_keeps
    | apply State.refreshBenches_keeps

end Sys2Proof.Machine
end

