-- ==== Sys2Proof/Laws/KeepsBench.lean ====
section
/-! SUPPORT. What the operations of `Machine/Bench.lean` keep (`Keeps`). -/

namespace Sys2Proof.Machine

set_option linter.all false

theorem State.showEcon_keeps {σ₀ σ : State} (hk : Keeps σ₀ σ) (n b : Nat) :
    Keeps σ₀ (State.showEcon σ n b) := by
  unfold State.showEcon
  try dsimp only
  repeat' first
    | with_reducible assumption
    | with_reducible apply State.modFace_keeps
    | intro _
    | with_reducible split
    | assumption
    | rfl
    | apply State.modFace_keeps

theorem State.noteDrvBank_keeps {σ₀ σ : State} (hk : Keeps σ₀ σ) (e item : Nat) :
    Keeps σ₀ (State.noteDrvBank σ e item) := by
  unfold State.noteDrvBank
  try dsimp only
  repeat' first
    | with_reducible assumption
    | with_reducible apply State.modCut_keeps
    | with_reducible apply State.orFlags_keeps
    | intro _
    | with_reducible split
    | assumption
    | rfl
    | apply State.modCut_keeps
    | apply State.orFlags_keeps

theorem State.noteKilnBank_keeps {σ₀ σ : State} (hk : Keeps σ₀ σ) (n b e : Nat) (p : PassId) :
    Keeps σ₀ (State.noteKilnBank σ n b e p) := by
  unfold State.noteKilnBank
  try dsimp only
  repeat' first
    | with_reducible assumption
    | with_reducible apply State.modCut_keeps
    | with_reducible apply State.orFlags_keeps
    | intro _
    | with_reducible split
    | assumption
    | rfl
    | apply State.modCut_keeps
    | apply State.orFlags_keeps

theorem State.noteBank_keeps {σ₀ σ : State} (hk : Keeps σ₀ σ) (n b e : Nat) :
    Keeps σ₀ (State.noteBank σ n b e) := by
  unfold State.noteBank
  try dsimp only
  repeat' first
    | with_reducible assumption
    | with_reducible apply State.noteDrvBank_keeps
    | with_reducible apply State.noteKilnBank_keeps
    | intro _
    | with_reducible split
    | assumption
    | rfl
    | apply State.noteDrvBank_keeps
    | apply State.noteKilnBank_keeps

theorem State.tryStart_keeps {σ₀ σ : State} (hk : Keeps σ₀ σ) (n b : Nat) :
    Keeps σ₀ (State.tryStart σ n b) := by
  unfold State.tryStart
  try dsimp only
  repeat' first
    | with_reducible assumption
    | with_reducible apply State.replayStarts_keeps
    | with_reducible apply State.modBench_keeps
    | with_reducible apply State.noteBank_keeps
    | with_reducible apply State.showEcon_keeps
    | intro _
    | with_reducible split
    | assumption
    | rfl
    | apply State.modBench_keeps
    | apply State.noteBank_keeps
    | apply State.showEcon_keeps

theorem State.loadFull_keeps {σ₀ σ : State} (hk : Keeps σ₀ σ) (n b tag : Nat) (given : StatLoad) :
    Keeps σ₀ (State.loadFull σ n b tag given) := by
  unfold State.loadFull
  try dsimp only
  repeat' first
    | with_reducible assumption
    | with_reducible apply State.modBench_keeps
    | with_reducible apply State.sentTiles_keeps
    | with_reducible apply State.tryStart_keeps
    | intro _
    | with_reducible split
    | assumption
    | rfl
    | apply State.modBench_keeps
    | apply State.sentTiles_keeps
    | apply State.tryStart_keeps

theorem State.scaleDone_keeps {σ₀ σ : State} (hk : Keeps σ₀ σ) (n b : Nat) (pre : List (List Nat)) :
    Keeps σ₀ (State.scaleDone σ n b pre) := by
  unfold State.scaleDone
  try dsimp only
  repeat' first
    | with_reducible assumption
    | with_reducible apply State.modBench_keeps
    | with_reducible apply State.tryStart_keeps
    | intro _
    | with_reducible split
    | assumption
    | rfl
    | apply State.modBench_keeps
    | apply State.tryStart_keeps

theorem State.addFrozen_keeps {σ₀ σ : State} (hk : Keeps σ₀ σ) (n b : Nat) (fs : List (Fin 6 × Nat)) :
    Keeps σ₀ (State.addFrozen σ n b fs) := by
  unfold State.addFrozen
  try dsimp only
  repeat' first
    | with_reducible assumption
    | with_reducible apply State.modFace_keeps
    | with_reducible apply Keeps.foldl
    | with_reducible apply Keeps.foldlFst
    | intro _
    | with_reducible split
    | assumption
    | rfl
    | apply State.modFace_keeps

theorem State.yieldBench_keeps {σ₀ σ : State} (hk : Keeps σ₀ σ) (n b : Nat) :
    Keeps σ₀ (State.yieldBench σ n b) := by
  unfold State.yieldBench
  try dsimp only
  repeat' first
    | with_reducible assumption
    | with_reducible apply State.modBench_keeps
    | intro _
    | with_reducible split
    | assumption
    | rfl
    | apply State.modBench_keeps

theorem State.newDrain_keeps {σ₀ σ : State} (hk : Keeps σ₀ σ) (n b e : Nat) :
    Keeps σ₀ (State.newDrain σ n b e) := by
  unfold State.newDrain
  try dsimp only
  repeat' first
    | with_reducible assumption
    | intro _
    | with_reducible split
    | assumption
    | rfl

theorem State.spendInject_keeps {σ₀ σ : State} (hk : Keeps σ₀ σ) (n b : Nat) : Keeps σ₀ (State.spendInject σ n b) := hk

theorem State.passBoundary_keeps {σ₀ σ : State} (hk : Keeps σ₀ σ) (n b : Nat) (shared : List (List Nat)) (errors : List PassError) (frozen : List (Fin 6 × Nat)) :
    Keeps σ₀ (State.passBoundary σ n b shared errors frozen) := by
  unfold State.passBoundary
  try dsimp only
  repeat' first
    | with_reducible assumption
    | with_reducible apply State.spendInject_keeps
    | with_reducible apply State.addFrozen_keeps
    | with_reducible apply State.modBench_keeps
    | with_reducible apply State.modFace_keeps
    | with_reducible apply State.newDrain_keeps
    | with_reducible apply State.markHoists_keeps
    | with_reducible apply State.sentTiles_keeps
    | with_reducible apply State.yieldBench_keeps
    | with_reducible apply State.tryStart_keeps
    | with_reducible apply State.showEcon_keeps
    | intro _
    | with_reducible split
    | assumption
    | rfl
    | apply State.addFrozen_keeps
    | apply State.modBench_keeps
    | apply State.modFace_keeps
    | apply State.newDrain_keeps
    | apply State.markHoists_keeps
    | apply State.sentTiles_keeps
    | apply State.yieldBench_keeps
    | apply State.tryStart_keeps
    | apply State.showEcon_keeps

theorem State.remapReplay_keeps {σ₀ σ : State} (hk : Keeps σ₀ σ) (n b e : Nat) (lanes : List Nat) (fl : Nat) :
    Keeps σ₀ (State.remapReplay σ n b e lanes fl) := by
  unfold State.remapReplay
  extract_lets s1
  have hk_s1 : Keeps σ₀ s1 := by
    dsimp only [s1]
    repeat' first
      | with_reducible assumption
      | with_reducible apply State.remapLane_keeps
      | with_reducible apply State.modFace_keeps
      | with_reducible apply State.healthEvent_keeps
      | with_reducible apply State.modBench_keeps
      | with_reducible apply State.orFlags_keeps
      | with_reducible apply State.addReplays_keeps
      | with_reducible apply State.tryStart_keeps
      | with_reducible apply Keeps.foldl
      | with_reducible apply Keeps.foldlFst
      | intro _
      | with_reducible split
      | assumption
      | rfl
      | apply State.remapLane_keeps
      | apply State.modFace_keeps
      | apply State.healthEvent_keeps
      | apply State.modBench_keeps
      | apply State.orFlags_keeps
      | apply State.addReplays_keeps
      | apply State.tryStart_keeps
  clear_value s1
  try dsimp only
  repeat' first
    | with_reducible assumption
    | with_reducible apply State.remapLane_keeps
    | with_reducible apply State.modFace_keeps
    | with_reducible apply State.healthEvent_keeps
    | with_reducible apply State.modBench_keeps
    | with_reducible apply State.orFlags_keeps
    | with_reducible apply State.addReplays_keeps
    | with_reducible apply State.tryStart_keeps
    | with_reducible apply Keeps.foldl
    | with_reducible apply Keeps.foldlFst
    | intro _
    | with_reducible split
    | assumption
    | rfl
    | apply State.remapLane_keeps
    | apply State.modFace_keeps
    | apply State.healthEvent_keeps
    | apply State.modBench_keeps
    | apply State.orFlags_keeps
    | apply State.addReplays_keeps
    | apply State.tryStart_keeps

theorem State.dealItems_keeps {σ₀ σ : State} (hk : Keeps σ₀ σ) (n kind : Nat) (others : List Nat) (work : List PassId) :
    Keeps σ₀ (State.dealItems σ n kind others work) := by
  unfold State.dealItems
  try dsimp only
  repeat' first
    | with_reducible assumption
    | with_reducible apply State.modBench_keeps
    | with_reducible apply Keeps.foldl
    | with_reducible apply Keeps.foldlFst
    | intro _
    | with_reducible split
    | assumption
    | rfl
    | apply State.modBench_keeps

theorem State.failBench_keeps {σ₀ σ : State} (hk : Keeps σ₀ σ) (n b e cause fl : Nat) :
    Keeps σ₀ (State.failBench σ n b e cause fl) := by
  unfold State.failBench
  extract_lets phys spare s1
  have hk_s1 : Keeps σ₀ s1 := by
    dsimp only [s1]
    repeat' first
      | with_reducible assumption
      | with_reducible apply State.modBench_keeps
      | with_reducible apply State.orFlags_keeps
      | with_reducible apply State.retireBench_keeps
      | with_reducible apply State.recheckBenches_keeps
      | with_reducible apply State.retireFace_keeps
      | with_reducible apply State.dealItems_keeps
      | with_reducible apply State.modFace_keeps
      | with_reducible apply State.tryStart_keeps
      | with_reducible apply Keeps.foldl
      | with_reducible apply Keeps.foldlFst
      | intro _
      | with_reducible split
      | assumption
      | rfl
      | apply State.modBench_keeps
      | apply State.orFlags_keeps
      | apply State.retireBench_keeps
      | apply State.recheckBenches_keeps
      | apply State.retireFace_keeps
      | apply State.dealItems_keeps
      | apply State.modFace_keeps
      | apply State.tryStart_keeps
  clear_value s1
  try dsimp only
  repeat' first
    | with_reducible assumption
    | with_reducible apply State.modBench_keeps
    | with_reducible apply State.orFlags_keeps
    | with_reducible apply State.retireBench_keeps
    | with_reducible apply State.recheckBenches_keeps
    | with_reducible apply State.retireFace_keeps
    | with_reducible apply State.dealItems_keeps
    | with_reducible apply State.modFace_keeps
    | with_reducible apply State.tryStart_keeps
    | with_reducible apply Keeps.foldl
    | with_reducible apply Keeps.foldlFst
    | intro _
    | with_reducible split
    | assumption
    | rfl
    | apply State.modBench_keeps
    | apply State.orFlags_keeps
    | apply State.retireBench_keeps
    | apply State.recheckBenches_keeps
    | apply State.retireFace_keeps
    | apply State.dealItems_keeps
    | apply State.modFace_keeps
    | apply State.tryStart_keeps

theorem State.checkEnd_keeps {σ₀ σ : State} (hk : Keeps σ₀ σ) (n b : Nat) :
    Keeps σ₀ (State.checkEnd σ n b) := by
  unfold State.checkEnd
  try dsimp only
  repeat' first
    | with_reducible assumption
    | with_reducible apply State.modBench_keeps
    | with_reducible apply State.failBench_keeps
    | with_reducible apply State.remapReplay_keeps
    | intro _
    | with_reducible split
    | assumption
    | rfl
    | apply State.modBench_keeps
    | apply State.failBench_keeps
    | apply State.remapReplay_keeps

theorem putContext_wf (m : Mem) (a : Nat) (parts : List (Nat × List Byte)) (h : Mem.wf m = true) :
    Mem.wf (putContext m a parts) = true := by
  have h1 := Mem.clear_wf m a ctxSlot h
  unfold putContext
  revert h1
  generalize Mem.clear m a ctxSlot = m1
  intro h1
  induction parts generalizing m1 with
  | nil => exact h1
  | cons x xs ih => exact ih _ (Mem.writeBytes_wf _ _ _ h1)

theorem State.contextWrite_keeps {σ₀ σ : State} (hk : Keeps σ₀ σ) (n b : Nat) (shared : List (List Nat)) (group pocket : Nat) :
    Keeps σ₀ (State.contextWrite σ n b shared group pocket) := by
  unfold State.contextWrite
  extract_lets x
  split
  · split
    · exact hk
    · extract_lets c d acc y s1
      have h1 : Keeps σ₀ s1 := State.modBench_keeps hk _ _ _
      split
      · apply Keeps.yardMem h1
        apply putContext_wf
      · exact h1
  · exact hk

theorem State.contextSave_keeps {σ₀ σ : State} (hk : Keeps σ₀ σ) (n b : Nat) (shared : List (List Nat)) (group pocket : Nat) :
    Keeps σ₀ (State.contextSave σ n b shared group pocket) := by
  unfold State.contextSave
  dsimp only
  split
  · exact State.settle_keeps (State.contextWrite_keeps hk _ _ _ _ _) _
  · exact hk

theorem State.contextRestore_keeps {σ₀ σ : State} (hk : Keeps σ₀ σ) (n b : Nat) (active idle : StatLoad) (pre : List (List Nat)) :
    Keeps σ₀ (State.contextRestore σ n b active idle pre) := by
  unfold State.contextRestore
  try dsimp only
  repeat' first
    | with_reducible assumption
    | with_reducible apply State.modBench_keeps
    | intro _
    | with_reducible split
    | assumption
    | rfl
    | apply State.modBench_keeps

theorem State.abortBench_keeps {σ₀ σ : State} (hk : Keeps σ₀ σ) (n b : Nat) :
    Keeps σ₀ (State.abortBench σ n b) := by
  unfold State.abortBench
  try dsimp only
  repeat' first
    | with_reducible assumption
    | with_reducible apply State.awaitReplay_keeps
    | with_reducible apply State.modBench_keeps
    | with_reducible apply State.orFlags_keeps
    | with_reducible apply State.addReplays_keeps
    | with_reducible apply State.setStatus_keeps
    | with_reducible apply State.tryStart_keeps
    | intro _
    | with_reducible split
    | assumption
    | rfl
    | apply State.modBench_keeps
    | apply State.orFlags_keeps
    | apply State.addReplays_keeps
    | apply State.setStatus_keeps
    | apply State.tryStart_keeps

end Sys2Proof.Machine
end

