-- ==== Sys2Proof/Laws/KeepsFold.lean ====
section
/-! SUPPORT. What the operations of `Machine/Fold.lean` keep (`Keeps`). -/

namespace Sys2Proof.Machine

set_option linter.all false

theorem State.putYard_keeps {σ₀ σ : State} (hk : Keeps σ₀ σ) (a : Nat) (bs : List Byte) :
    Keeps σ₀ (State.putYard σ a bs) :=
  Keeps.yard hk _ (fun h => Mem.writeBytes_wf _ _ _ h)

theorem State.promote_keeps {σ₀ σ : State} (hk : Keeps σ₀ σ) (t : TileRef) (h : Hdr) (k : Nat) :
    Keeps σ₀ (State.promote σ t h k).1 := by
  have h1 := Keeps.foldl hk (fun u x => u.putYard (u.elemAt t { h with e128 := true, slot := k } x.1 x.2)
    (natLe (promoteG40 (σ.elemCode t h x.1 x.2)) 16)) t.positions (fun b x hb => State.putYard_keeps hb _ _)
  exact h1

theorem State.promotionRule_keeps {σ₀ σ : State} (hk : Keeps σ₀ σ) (t : TileRef) (h : Hdr) (al : Bool) :
    Keeps σ₀ (State.promotionRule σ t h al).1 := by
  unfold State.promotionRule
  split
  · exact State.promote_keeps hk _ _ _
  · exact hk

theorem State.foldInto_keeps {σ₀ σ : State} (hk : Keeps σ₀ σ) (t : TileRef) (h : Hdr) (ps : List ((Nat × Nat) × Val)) :
    Keeps σ₀ (State.foldInto σ t h ps).1 := by
  unfold State.foldInto
  apply Keeps.foldlFst hk
  intro b x hb
  dsimp only
  split
  · exact State.putYard_keeps hb _ _
  · exact hb

theorem State.zeroRest_keeps {σ₀ σ : State} (hk : Keeps σ₀ σ) (t : TileRef) (h : Hdr) :
    Keeps σ₀ (State.zeroRest σ t h) := by
  unfold State.zeroRest
  split
  · exact Keeps.foldl hk _ _ (fun b x hb => Keeps.yard hb _ (fun h => Mem.clear_wf _ _ _ h))
  · exact hk

theorem State.foldTile_keeps {σ₀ σ : State} (hk : Keeps σ₀ σ) (e : Nat) (t : TileRef) (first promoteOn : Bool)
    (ps : List ((Nat × Nat) × Val)) (fl : FoldFlags) : Keeps σ₀ (State.foldTile σ e t first promoteOn ps fl) := by
  have h1 : ∀ (c : Bool) h, Keeps σ₀ (if c = true then σ.promotionRule t h promoteOn else (σ, h, false)).1 := by
    intro c h
    cases c
    · exact hk
    · exact State.promotionRule_keeps hk _ _ _
  unfold State.foldTile
  extract_lets h0 h1' r2
  exact State.modCut_keeps (State.orFlags_keeps (State.putYard_keeps (State.foldInto_keeps
    (State.zeroRest_keeps (h1 _ _) _ _) _ _ _) _ _) _ _) _ _

theorem State.resetTile_keeps {σ₀ σ : State} (hk : Keeps σ₀ σ) (hdr : Nat) :
    Keeps σ₀ (State.resetTile σ hdr) := by
  unfold State.resetTile
  extract_lets s1
  have hk_s1 : Keeps σ₀ s1 := by
    dsimp only [s1]
    repeat' first
      | with_reducible assumption
      | with_reducible apply State.putYard_keeps
      | intro _
      | with_reducible split
      | assumption
      | rfl
      | apply State.putYard_keeps
  clear_value s1
  try dsimp only
  repeat' first
    | with_reducible assumption
    | with_reducible apply State.putYard_keeps
    | intro _
    | with_reducible split
    | assumption
    | rfl
    | apply State.putYard_keeps

theorem State.publishN_keeps {σ₀ σ : State} (hk : Keeps σ₀ σ) (e n : Nat) :
    Keeps σ₀ (State.publishN σ e n) := by
  induction n generalizing σ with
  | zero => exact hk
  | succ k ih =>
    unfold State.publishN
    dsimp only
    split
    · exact ih (State.tallyDone_keeps (State.modCut_keeps hk _ _) _)
    · exact hk

theorem State.publish_keeps {σ₀ σ : State} (hk : Keeps σ₀ σ) (e : Nat) : Keeps σ₀ (State.publish σ e) :=
  State.publishN_keeps hk _ _

theorem State.itemDone_keeps {σ₀ σ : State} (hk : Keeps σ₀ σ) (e item : Nat) :
    Keeps σ₀ (State.itemDone σ e item) := by
  unfold State.itemDone
  try dsimp only
  repeat' first
    | with_reducible assumption
    | with_reducible apply State.modCut_keeps
    | with_reducible apply State.publish_keeps
    | intro _
    | with_reducible split
    | assumption
    | rfl
    | apply State.modCut_keeps
    | apply State.publish_keeps

theorem State.checkSlice_keeps {σ₀ σ : State} (hk : Keeps σ₀ σ) (e slice : Nat) :
    Keeps σ₀ (State.checkSlice σ e slice) := by
  unfold State.checkSlice
  try dsimp only
  repeat' first
    | with_reducible assumption
    | with_reducible apply State.itemDone_keeps
    | intro _
    | with_reducible split
    | assumption
    | rfl
    | apply State.itemDone_keeps

theorem State.freeShadow_keeps {σ₀ σ : State} (hk : Keeps σ₀ σ) (n b : Nat) :
    Keeps σ₀ (State.freeShadow σ n b) := by
  unfold State.freeShadow
  try dsimp only
  repeat' first
    | with_reducible assumption
    | with_reducible apply State.modBench_keeps
    | with_reducible apply State.tryStart_keeps
    | intro _
    | with_reducible split
    | assumption
    | rfl
    | apply State.modBench_keeps
    | apply State.tryStart_keeps

theorem State.afterFold_keeps {σ₀ σ : State} (hk : Keeps σ₀ σ) (e : Nat) (p : PassId) :
    Keeps σ₀ (State.afterFold σ e p) := by
  unfold State.afterFold
  extract_lets s1
  have hk_s1 : Keeps σ₀ s1 := by
    dsimp only [s1]
    repeat' first
      | with_reducible assumption
      | with_reducible apply State.modCut_keeps
      | with_reducible apply State.checkSlice_keeps
      | intro _
      | with_reducible split
      | assumption
      | rfl
      | apply State.modCut_keeps
      | apply State.checkSlice_keeps
  clear_value s1
  try dsimp only
  repeat' first
    | with_reducible assumption
    | with_reducible apply State.modCut_keeps
    | with_reducible apply State.checkSlice_keeps
    | intro _
    | with_reducible split
    | assumption
    | rfl
    | apply State.modCut_keeps
    | apply State.checkSlice_keeps

theorem State.fold_keeps {σ₀ σ : State} (hk : Keeps σ₀ σ) (n b : Nat) :
    Keeps σ₀ (State.fold σ n b) := by
  unfold State.fold
  try dsimp only
  repeat' first
    | with_reducible assumption
    | with_reducible apply State.foldTile_keeps
    | with_reducible apply State.orFlags_keeps
    | with_reducible apply State.freeShadow_keeps
    | with_reducible apply State.afterFold_keeps
    | intro _
    | with_reducible split
    | assumption
    | rfl
    | apply State.foldTile_keeps
    | apply State.orFlags_keeps
    | apply State.freeShadow_keeps
    | apply State.afterFold_keeps

theorem Keeps.slots {s a : State} (h : Keeps s a) (x : Tab Nat) : Keeps s { a with slots := x } := h

theorem State.combine_keeps {σ₀ σ : State} (hk : Keeps σ₀ σ) (e : Nat) (t u : TileRef) (promoteOn : Bool) :
    Keeps σ₀ (State.combine σ e t u promoteOn) := by
  unfold State.combine
  extract_lets hx hy bothG tooMany vals steal slot h0 h1
  apply State.modCut_keeps
  apply State.orFlags_keeps
  apply State.putYard_keeps
  apply State.putYard_keeps
  apply Keeps.slots
  apply Keeps.foldlFst (a := (σ, false)) hk
  intro b x hb
  apply State.putYard_keeps
  exact hb

theorem State.treeStep_keeps {σ₀ σ : State} (hk : Keeps σ₀ σ) (e slice level rank : Nat) :
    Keeps σ₀ (State.treeStep σ e slice level rank) := by
  unfold State.treeStep
  try dsimp only
  repeat' first
    | with_reducible assumption
    | with_reducible apply State.combine_keeps
    | with_reducible apply State.modCut_keeps
    | with_reducible apply State.checkSlice_keeps
    | intro _
    | with_reducible split
    | assumption
    | rfl
    | apply State.combine_keeps
    | apply State.modCut_keeps
    | apply State.checkSlice_keeps

theorem State.initialFold_keeps {σ₀ σ : State} (hk : Keeps σ₀ σ) (e slice : Nat) (values : List (List Nat)) :
    Keeps σ₀ (State.initialFold σ e slice values) := by
  unfold State.initialFold
  try dsimp only
  repeat' first
    | with_reducible assumption
    | with_reducible apply State.foldTile_keeps
    | with_reducible apply State.orFlags_keeps
    | with_reducible apply State.checkSlice_keeps
    | intro _
    | with_reducible split
    | assumption
    | rfl
    | apply State.foldTile_keeps
    | apply State.orFlags_keeps
    | apply State.checkSlice_keeps

end Sys2Proof.Machine
end

