-- ==== Sys2Proof/Laws/KeepsSched.lean ====
section
/-! SUPPORT. What the operations of `Machine/Sched.lean` keep (`Keeps`). -/

namespace Sys2Proof.Machine

set_option linter.all false

theorem State.logCut_keeps {σ₀ σ : State} (hk : Keeps σ₀ σ) (code e : Nat) :
    Keeps σ₀ (State.logCut σ code e) := by
  unfold State.logCut
  try dsimp only
  repeat' first
    | with_reducible assumption
    | with_reducible apply State.logRec_keeps
    | intro _
    | with_reducible split
    | assumption
    | rfl
    | apply State.logRec_keeps

theorem State.logStalled_keeps {σ₀ σ : State} (hk : Keeps σ₀ σ) (e : Nat) :
    Keeps σ₀ (State.logStalled σ e) := by
  unfold State.logStalled
  try dsimp only
  repeat' first
    | with_reducible assumption
    | with_reducible apply State.logRec_keeps
    | with_reducible apply Keeps.foldl
    | with_reducible apply Keeps.foldlFst
    | intro _
    | with_reducible split
    | assumption
    | rfl
    | apply State.logRec_keeps

theorem State.freeHoists_keeps {σ₀ σ : State} (hk : Keeps σ₀ σ) (e : Nat) :
    Keeps σ₀ (State.freeHoists σ e) := by
  unfold State.freeHoists
  try dsimp only
  repeat' first
    | with_reducible assumption
    | intro _
    | with_reducible split
    | assumption
    | rfl

theorem State.freeBenches_keeps {σ₀ σ : State} (hk : Keeps σ₀ σ) (e : Nat) :
    Keeps σ₀ (State.freeBenches σ e) := by
  unfold State.freeBenches
  extract_lets keys s1
  have hk_s1 : Keeps σ₀ s1 := by
    dsimp only [s1]
    repeat' first
      | with_reducible assumption
      | with_reducible apply State.tryStart_keeps
      | with_reducible apply Keeps.foldl
      | with_reducible apply Keeps.foldlFst
      | intro _
      | with_reducible split
      | assumption
      | rfl
      | apply State.tryStart_keeps
  clear_value s1
  try dsimp only
  repeat' first
    | with_reducible assumption
    | with_reducible apply State.tryStart_keeps
    | with_reducible apply Keeps.foldl
    | with_reducible apply Keeps.foldlFst
    | intro _
    | with_reducible split
    | assumption
    | rfl
    | apply State.tryStart_keeps

theorem State.freeUnits_keeps {σ₀ σ : State} (hk : Keeps σ₀ σ) (e : Nat) :
    Keeps σ₀ (State.freeUnits σ e) := by
  unfold State.freeUnits
  try dsimp only
  repeat' first
    | with_reducible assumption
    | intro _
    | with_reducible split
    | assumption
    | rfl

theorem State.freeCut_keeps {σ₀ σ : State} (hk : Keeps σ₀ σ) (e : Nat) :
    Keeps σ₀ (State.freeCut σ e) := by
  unfold State.freeCut
  extract_lets s1
  have hk_s1 : Keeps σ₀ s1 := by
    dsimp only [s1]
    repeat' first
      | with_reducible assumption
      | with_reducible apply State.freeHoists_keeps
      | with_reducible apply State.freeUnits_keeps
      | with_reducible apply State.dropTiles_keeps
      | with_reducible apply State.freeBenches_keeps
      | intro _
      | with_reducible split
      | assumption
      | rfl
      | apply State.freeHoists_keeps
      | apply State.freeUnits_keeps
      | apply State.dropTiles_keeps
      | apply State.freeBenches_keeps
  clear_value s1
  try dsimp only
  repeat' first
    | with_reducible assumption
    | with_reducible apply State.freeHoists_keeps
    | with_reducible apply State.freeUnits_keeps
    | with_reducible apply State.dropTiles_keeps
    | with_reducible apply State.freeBenches_keeps
    | intro _
    | with_reducible split
    | assumption
    | rfl
    | apply State.freeHoists_keeps
    | apply State.freeUnits_keeps
    | apply State.dropTiles_keeps
    | apply State.freeBenches_keeps

theorem State.resetSeam_keeps {σ₀ σ : State} (hk : Keeps σ₀ σ) (m : Seam) (ranks : List Nat) :
    Keeps σ₀ (State.resetSeam σ m ranks) := by
  unfold State.resetSeam
  try dsimp only
  repeat' first
    | with_reducible assumption
    | with_reducible apply State.resetTile_keeps
    | with_reducible apply Keeps.foldl
    | with_reducible apply Keeps.foldlFst
    | intro _
    | with_reducible split
    | assumption
    | rfl
    | apply State.resetTile_keeps

theorem State.releaseSeam_keeps {σ₀ σ : State} (hk : Keeps σ₀ σ) (id : Nat) :
    Keeps σ₀ (State.releaseSeam σ id) := by
  unfold State.releaseSeam
  try dsimp only
  repeat' first
    | with_reducible assumption
    | with_reducible apply State.resetSeam_keeps
    | intro _
    | with_reducible split
    | assumption
    | rfl
    | apply State.resetSeam_keeps

theorem State.releaseWaiting_keeps {σ₀ σ : State} (hk : Keeps σ₀ σ)  :
    Keeps σ₀ (State.releaseWaiting σ) := by
  unfold State.releaseWaiting
  try dsimp only
  repeat' first
    | with_reducible assumption
    | with_reducible apply State.resetSeam_keeps
    | with_reducible apply Keeps.foldl
    | with_reducible apply Keeps.foldlFst
    | intro _
    | with_reducible split
    | assumption
    | rfl
    | apply State.resetSeam_keeps

theorem State.completeSeam_keeps {σ₀ σ : State} (hk : Keeps σ₀ σ) (id : Nat) :
    Keeps σ₀ (State.completeSeam σ id) := by
  unfold State.completeSeam
  try dsimp only
  repeat' first
    | with_reducible assumption
    | with_reducible apply State.resetSeam_keeps
    | intro _
    | with_reducible split
    | assumption
    | rfl
    | apply State.resetSeam_keeps

theorem State.endSeam_keeps {σ₀ σ : State} (hk : Keeps σ₀ σ) (e code : Nat) :
    Keeps σ₀ (State.endSeam σ e code) := by
  unfold State.endSeam
  try dsimp only
  repeat' first
    | with_reducible assumption
    | with_reducible apply State.completeSeam_keeps
    | with_reducible apply State.releaseSeam_keeps
    | with_reducible apply State.logRec_keeps
    | intro _
    | with_reducible split
    | assumption
    | rfl
    | apply State.completeSeam_keeps
    | apply State.releaseSeam_keeps
    | apply State.logRec_keeps

theorem State.endResult_keeps {σ₀ σ : State} (hk : Keeps σ₀ σ) (e code : Nat) :
    Keeps σ₀ (State.endResult σ e code) := by
  unfold State.endResult
  try dsimp only
  repeat' first
    | with_reducible assumption
    | intro _
    | with_reducible split
    | assumption
    | rfl

theorem State.riskClose_keeps {σ₀ σ : State} (hk : Keeps σ₀ σ) : Keeps σ₀ (State.riskClose σ) := by
  have h1 : Keeps σ₀ { σ with health := { σ.health with
      score := σ.health.score - σ.health.score >>> σ.riskShift } } :=
    Keeps.health hk _ (fun h => Nat.le_trans (Nat.sub_le _ _) h)
  unfold State.riskClose
  exact State.healthEvent_keeps (State.healthEvent_keeps (State.healthEvent_keeps h1 _ _) _ _) _ _

theorem State.snapBegin_keeps {σ₀ σ : State} (hk : Keeps σ₀ σ) (next : Nat) :
    Keeps σ₀ (State.snapBegin σ next) := by
  unfold State.snapBegin
  try dsimp only
  repeat' first
    | with_reducible assumption
    | intro _
    | with_reducible split
    | assumption
    | rfl

theorem State.closeStep_keeps {σ₀ σ : State} (hk : Keeps σ₀ σ) (w : Nat) :
    Keeps σ₀ (State.closeStep σ w) := by
  unfold State.closeStep
  try dsimp only
  repeat' first
    | with_reducible assumption
    | with_reducible apply State.modWork_keeps
    | with_reducible apply State.riskClose_keeps
    | with_reducible apply State.snapBegin_keeps
    | intro _
    | with_reducible split
    | assumption
    | rfl
    | apply State.modWork_keeps
    | apply State.riskClose_keeps
    | apply State.snapBegin_keeps

theorem State.tryClose_keeps {σ₀ σ : State} (hk : Keeps σ₀ σ) (w : Nat) :
    Keeps σ₀ (State.tryClose σ w) := by
  unfold State.tryClose
  try dsimp only
  repeat' first
    | with_reducible assumption
    | with_reducible apply State.closeStep_keeps
    | intro _
    | with_reducible split
    | assumption
    | rfl
    | apply State.closeStep_keeps

theorem State.doneTallies_keeps {σ₀ σ : State} (hk : Keeps σ₀ σ) (d : CutDesc) :
    Keeps σ₀ (State.doneTallies σ d) := by
  unfold State.doneTallies
  try dsimp only
  repeat' first
    | with_reducible assumption
    | with_reducible apply State.tallyDone_keeps
    | with_reducible apply Keeps.foldl
    | with_reducible apply Keeps.foldlFst
    | intro _
    | with_reducible split
    | assumption
    | rfl
    | apply State.tallyDone_keeps

theorem State.finish_keeps {σ₀ σ : State} (hk : Keeps σ₀ σ) (e code : Nat) :
    Keeps σ₀ (State.finish σ e code) := by
  unfold State.finish
  try dsimp only
  repeat' first
    | with_reducible assumption
    | with_reducible apply State.modCut_keeps
    | with_reducible apply State.writeRecord_keeps
    | intro _
    | with_reducible split
    | assumption
    | rfl
    | apply State.modCut_keeps
    | apply State.writeRecord_keeps

theorem State.endAdoption_keeps {σ₀ σ : State} (hk : Keeps σ₀ σ) (e : Nat) :
    Keeps σ₀ (State.endAdoption σ e) := by
  unfold State.endAdoption
  try dsimp only
  repeat' first
    | with_reducible assumption
    | with_reducible apply State.modFace_keeps
    | with_reducible apply Keeps.foldl
    | with_reducible apply Keeps.foldlFst
    | intro _
    | with_reducible split
    | assumption
    | rfl
    | apply State.modFace_keeps

theorem State.endCut_keeps {σ₀ σ : State} (hk : Keeps σ₀ σ) (e code : Nat) : Keeps σ₀ (State.endCut σ e code) := by
  unfold State.endCut
  extract_lets d s1 s2 s3 s4 s5
  have h1 : Keeps σ₀ s1 := State.finish_keeps hk _ _
  clear_value s1
  have h2 : Keeps σ₀ s2 := by
    dsimp only [s2]
    split
    · exact h1
    · exact State.doneTallies_keeps h1 _
  clear_value s2
  have h3 : Keeps σ₀ s3 := by
    dsimp only [s3]
    split
    · exact State.logCut_keeps (State.setEvt_keeps h2 _) _ _
    · exact h2
  clear_value s3
  have h4 : Keeps σ₀ s4 :=
    State.endAdoption_keeps (State.freeCut_keeps (State.endResult_keeps (State.endSeam_keeps h3 _ _) _ _) _) _
  clear_value s4
  have h5 : Keeps σ₀ s5 := by
    dsimp only [s5]
    split
    · exact State.logStalled_keeps h4 _
    · exact h4
  clear_value s5
  exact State.tryClose_keeps (by exact h5) _

theorem State.refuse_keeps {σ₀ σ : State} (hk : Keeps σ₀ σ) (e : Nat) (r : CutRefusal) :
    Keeps σ₀ (State.refuse σ e r) := by
  unfold State.refuse
  try dsimp only
  repeat' first
    | with_reducible assumption
    | with_reducible apply State.modCut_keeps
    | with_reducible apply State.finish_keeps
    | with_reducible apply State.setEvt_keeps
    | with_reducible apply State.logCut_keeps
    | with_reducible apply State.endSeam_keeps
    | with_reducible apply State.logStalled_keeps
    | with_reducible apply State.tryClose_keeps
    | intro _
    | with_reducible split
    | assumption
    | rfl
    | apply State.modCut_keeps
    | apply State.finish_keeps
    | apply State.setEvt_keeps
    | apply State.logCut_keeps
    | apply State.endSeam_keeps
    | apply State.logStalled_keeps
    | apply State.tryClose_keeps

theorem State.breakCut_keeps {σ₀ σ : State} (hk : Keeps σ₀ σ) (e : Nat) :
    Keeps σ₀ (State.breakCut σ e) := by
  unfold State.breakCut
  try dsimp only
  repeat' first
    | with_reducible assumption
    | with_reducible apply State.endCut_keeps
    | intro _
    | with_reducible split
    | assumption
    | rfl
    | apply State.endCut_keeps

end Sys2Proof.Machine
end

