-- ==== Sys2Proof/Laws/KeepsHoist.lean ====
section
/-! SUPPORT. What the operations of `Machine/Hoist.lean` keep (`Keeps`). -/

namespace Sys2Proof.Machine

set_option linter.all false

theorem State.deliverLine_keeps {σ₀ σ : State} (hk : Keeps σ₀ σ) (n : Nat) (q : LineReq) (bs : List Byte) :
    Keeps σ₀ (State.deliverLine σ n q bs) := by
  unfold State.deliverLine
  extract_lets h s1
  have hk_s1 : Keeps σ₀ s1 := by
    dsimp only [s1]
    repeat' first
      | with_reducible assumption
      | with_reducible apply State.modHoist_keeps
      | with_reducible apply State.putYard_keeps
      | intro _
      | with_reducible split
      | assumption
      | rfl
      | apply State.modHoist_keeps
      | apply State.putYard_keeps
  clear_value s1
  try dsimp only
  repeat' first
    | with_reducible assumption
    | with_reducible apply State.modHoist_keeps
    | with_reducible apply State.putYard_keeps
    | intro _
    | with_reducible split
    | assumption
    | rfl
    | apply State.modHoist_keeps
    | apply State.putYard_keeps

theorem State.deliverN_keeps {σ₀ σ : State} (hk : Keeps σ₀ σ) (n k : Nat) :
    Keeps σ₀ (State.deliverN σ n k) := by
  induction k generalizing σ with
  | zero => exact hk
  | succ k ih =>
    unfold State.deliverN
    split
    · split
      · exact ih (State.deliverLine_keeps hk _ _ _)
      · exact hk
    · exact hk

theorem State.deliverAll_keeps {σ₀ σ : State} (hk : Keeps σ₀ σ) (n : Nat) : Keeps σ₀ (State.deliverAll σ n) :=
  State.modHoist_keeps (State.deliverN_keeps hk _ _) _ _

theorem State.claim_keeps {σ₀ σ : State} (hk : Keeps σ₀ σ) (n : Nat) (lines : List LinePoint) :
    Keeps σ₀ (State.claim σ n lines) := by
  unfold State.claim
  try dsimp only
  repeat' first
    | with_reducible assumption
    | with_reducible apply State.modHoist_keeps
    | with_reducible apply State.deliverAll_keeps
    | intro _
    | with_reducible split
    | assumption
    | rfl
    | apply State.modHoist_keeps
    | apply State.deliverAll_keeps

theorem State.linesBack_keeps {σ₀ σ : State} (hk : Keeps σ₀ σ) (n : Nat) :
    Keeps σ₀ (State.linesBack σ n) := by
  unfold State.linesBack
  split
  · exact State.replayStarts_keeps hk _ _
  · exact hk

theorem State.readReturn_keeps {σ₀ σ : State} (hk : Keeps σ₀ σ) (n seq : Nat) (data : List Byte) :
    Keeps σ₀ (State.readReturn σ n seq data) := by
  unfold State.readReturn
  try dsimp only
  repeat' first
    | with_reducible assumption
    | with_reducible apply State.linesBack_keeps
    | with_reducible apply State.modHoist_keeps
    | with_reducible apply State.deliverAll_keeps
    | intro _
    | with_reducible split
    | assumption
    | rfl
    | apply State.modHoist_keeps
    | apply State.deliverAll_keeps

theorem State.abortFed_keeps {σ₀ σ : State} (hk : Keeps σ₀ σ) (n upTo : Nat) (h : Hoist) :
    Keeps σ₀ (State.abortFed σ n upTo h) := by
  unfold State.abortFed
  try dsimp only
  repeat' first
    | with_reducible assumption
    | with_reducible apply State.awaitReplay_keeps
    | with_reducible apply State.orFlags_keeps
    | with_reducible apply State.abortBench_keeps
    | with_reducible apply Keeps.foldl
    | with_reducible apply Keeps.foldlFst
    | intro _
    | with_reducible split
    | assumption
    | rfl
    | apply State.abortBench_keeps

theorem State.readError_keeps {σ₀ σ : State} (hk : Keeps σ₀ σ) (n seq : Nat) :
    Keeps σ₀ (State.readError σ n seq) := by
  unfold State.readError
  try dsimp only
  repeat' first
    | with_reducible assumption
    | with_reducible apply State.modHoist_keeps
    | with_reducible apply State.abortFed_keeps
    | with_reducible apply State.halt_keeps
    | intro _
    | with_reducible split
    | assumption
    | rfl
    | apply State.modHoist_keeps
    | apply State.abortFed_keeps
    | apply State.halt_keeps

theorem State.writeAck_keeps {σ₀ σ : State} (hk : Keeps σ₀ σ) (n : Nat) :
    Keeps σ₀ (State.writeAck σ n) := by
  unfold State.writeAck
  try dsimp only
  repeat' first
    | with_reducible assumption
    | with_reducible apply State.modHoist_keeps
    | with_reducible apply State.putFabric_keeps
    | with_reducible apply State.publish_keeps
    | intro _
    | with_reducible split
    | assumption
    | rfl
    | apply State.modHoist_keeps
    | apply State.putFabric_keeps
    | apply State.publish_keeps

theorem State.stopEviction_keeps {σ₀ σ : State} (hk : Keeps σ₀ σ) (e : Nat) :
    Keeps σ₀ (State.stopEviction σ e) := by
  unfold State.stopEviction
  try dsimp only
  repeat' first
    | with_reducible assumption
    | intro _
    | with_reducible split
    | assumption
    | rfl

theorem State.failWrite_keeps {σ₀ σ : State} (hk : Keeps σ₀ σ) (a : Nat) (bs : List Byte) :
    Keeps σ₀ (State.failWrite σ a bs) := by
  induction bs generalizing σ a with
  | nil => exact hk
  | cons b bs ih =>
    unfold State.failWrite
    extract_lets s1
    have h1 : Keeps σ₀ s1 := by
      dsimp only [s1]
      split
      · exact State.putFabric_keeps hk _ _
      · exact hk
    clear_value s1
    exact ih (by exact h1) _

theorem State.writeError_keeps {σ₀ σ : State} (hk : Keeps σ₀ σ) (n : Nat) : Keeps σ₀ (State.writeError σ n) := by
  unfold State.writeError
  extract_lets h
  split
  · exact hk
  · extract_lets s1
    have h1 : Keeps σ₀ s1 := State.failWrite_keeps (State.modHoist_keeps hk _ _) _ _
    clear_value s1
    split
    · exact h1
    · split
      · extract_lets s2 ev
        have h2 : Keeps σ₀ s2 := State.halt_keeps (State.modHoist_keeps h1 _ _) _ _ _ _
        clear_value s2
        split
        · exact State.modHoist_keeps (State.stopEviction_keeps h2 _) _ _
        · exact h2
      · exact h1

theorem State.receiverTake_keeps {σ₀ σ : State} (hk : Keeps σ₀ σ) (n r : Nat) :
    Keeps σ₀ (State.receiverTake σ n r) := by
  unfold State.receiverTake
  try dsimp only
  repeat' first
    | with_reducible assumption
    | with_reducible apply State.modHoist_keeps
    | intro _
    | with_reducible split
    | assumption
    | rfl
    | apply State.modHoist_keeps

theorem State.detachOne_keeps {σ₀ σ : State} (hk : Keeps σ₀ σ) (n r d : Nat) :
    Keeps σ₀ (State.detachOne σ n r d) := by
  unfold State.detachOne
  extract_lets h p s1 s2 s3
  have hk_s1 : Keeps σ₀ s1 := by
    dsimp only [s1]
    repeat' first
      | with_reducible assumption
      | with_reducible apply State.modHoist_keeps
      | with_reducible apply State.modCut_keeps
      | with_reducible apply State.logEvt_keeps
      | intro _
      | with_reducible split
      | assumption
      | rfl
      | apply State.modHoist_keeps
      | apply State.modCut_keeps
      | apply State.logEvt_keeps
  clear_value s1
  have hk_s2 : Keeps σ₀ s2 := by
    dsimp only [s2]
    repeat' first
      | with_reducible assumption
      | with_reducible apply State.modHoist_keeps
      | with_reducible apply State.modCut_keeps
      | with_reducible apply State.logEvt_keeps
      | intro _
      | with_reducible split
      | assumption
      | rfl
      | apply State.modHoist_keeps
      | apply State.modCut_keeps
      | apply State.logEvt_keeps
  clear_value s2
  have hk_s3 : Keeps σ₀ s3 := by
    dsimp only [s3]
    repeat' first
      | with_reducible assumption
      | with_reducible apply State.modHoist_keeps
      | with_reducible apply State.modCut_keeps
      | with_reducible apply State.logEvt_keeps
      | intro _
      | with_reducible split
      | assumption
      | rfl
      | apply State.modHoist_keeps
      | apply State.modCut_keeps
      | apply State.logEvt_keeps
  clear_value s3
  try dsimp only
  repeat' first
    | with_reducible assumption
    | with_reducible apply State.modHoist_keeps
    | with_reducible apply State.modCut_keeps
    | with_reducible apply State.logEvt_keeps
    | intro _
    | with_reducible split
    | assumption
    | rfl
    | apply State.modHoist_keeps
    | apply State.modCut_keeps
    | apply State.logEvt_keeps

theorem State.detach_keeps {σ₀ σ : State} (hk : Keeps σ₀ σ) (n : Nat) :
    Keeps σ₀ (State.detach σ n) := by
  unfold State.detach
  try dsimp only
  repeat' first
    | with_reducible assumption
    | with_reducible apply State.detachOne_keeps
    | with_reducible apply State.modHoist_keeps
    | with_reducible apply Keeps.foldl
    | with_reducible apply Keeps.foldlFst
    | intro _
    | with_reducible split
    | assumption
    | rfl
    | apply State.detachOne_keeps
    | apply State.modHoist_keeps

theorem State.rearm_keeps {σ₀ σ : State} (hk : Keeps σ₀ σ) (n : Nat) :
    Keeps σ₀ (State.rearm σ n) := by
  unfold State.rearm
  try dsimp only
  repeat' first
    | with_reducible assumption
    | with_reducible apply State.modHoist_keeps
    | intro _
    | with_reducible split
    | assumption
    | rfl
    | apply State.modHoist_keeps

theorem State.endStream_keeps {σ₀ σ : State} (hk : Keeps σ₀ σ) (n : Nat) :
    Keeps σ₀ (State.endStream σ n) := by
  unfold State.endStream
  try dsimp only
  repeat' first
    | with_reducible assumption
    | with_reducible apply State.tallyDone_keeps
    | with_reducible apply State.modHoist_keeps
    | with_reducible apply State.rearm_keeps
    | with_reducible apply Keeps.foldl
    | with_reducible apply Keeps.foldlFst
    | intro _
    | with_reducible split
    | assumption
    | rfl
    | apply State.tallyDone_keeps
    | apply State.modHoist_keeps
    | apply State.rearm_keeps

theorem State.streamEnd_keeps {σ₀ σ : State} (hk : Keeps σ₀ σ) (n : Nat) :
    Keeps σ₀ (State.streamEnd σ n) := by
  unfold State.streamEnd
  try dsimp only
  repeat' first
    | with_reducible assumption
    | with_reducible apply State.endStream_keeps
    | intro _
    | with_reducible split
    | assumption
    | rfl
    | apply State.endStream_keeps

theorem State.endStreams_keeps {σ₀ σ : State} (hk : Keeps σ₀ σ) (e : Nat) :
    Keeps σ₀ (State.endStreams σ e) := by
  unfold State.endStreams
  try dsimp only
  repeat' first
    | with_reducible assumption
    | with_reducible apply State.endStream_keeps
    | with_reducible apply Keeps.foldl
    | with_reducible apply Keeps.foldlFst
    | intro _
    | with_reducible split
    | assumption
    | rfl
    | apply State.endStream_keeps

theorem State.spillPark_keeps {σ₀ σ : State} (hk : Keeps σ₀ σ) (n : Nat) (data : List Byte) :
    Keeps σ₀ (State.spillPark σ n data) := by
  unfold State.spillPark
  try dsimp only
  repeat' first
    | with_reducible assumption
    | with_reducible apply State.modHoist_keeps
    | intro _
    | with_reducible split
    | assumption
    | rfl
    | apply State.modHoist_keeps

theorem State.spillReadback_keeps {σ₀ σ : State} (hk : Keeps σ₀ σ) (n : Nat) :
    Keeps σ₀ (State.spillReadback σ n) := by
  unfold State.spillReadback
  try dsimp only
  repeat' first
    | with_reducible assumption
    | with_reducible apply State.modHoist_keeps
    | with_reducible apply State.deliverAll_keeps
    | intro _
    | with_reducible split
    | assumption
    | rfl
    | apply State.modHoist_keeps
    | apply State.deliverAll_keeps

theorem State.reopenItems_keeps {σ₀ σ : State} (hk : Keeps σ₀ σ) (e : Nat) (items : List Nat) :
    Keeps σ₀ (State.reopenItems σ e items) := by
  unfold State.reopenItems
  extract_lets c back s1 bl
  have hk_s1 : Keeps σ₀ s1 := by
    dsimp only [s1]
    repeat' first
      | with_reducible assumption
      | with_reducible apply State.awaitReplay_keeps
      | with_reducible apply State.modCut_keeps
      | with_reducible apply State.modBench_keeps
      | with_reducible apply State.tryStart_keeps
      | with_reducible apply Keeps.foldl
      | with_reducible apply Keeps.foldlFst
      | intro _
      | with_reducible split
      | assumption
      | rfl
      | apply State.modCut_keeps
      | apply State.modBench_keeps
      | apply State.tryStart_keeps
  clear_value s1
  try dsimp only
  repeat' first
    | with_reducible assumption
    | with_reducible apply State.awaitReplay_keeps
    | with_reducible apply State.modCut_keeps
    | with_reducible apply State.modBench_keeps
    | with_reducible apply State.tryStart_keeps
    | with_reducible apply Keeps.foldl
    | with_reducible apply Keeps.foldlFst
    | intro _
    | with_reducible split
    | assumption
    | rfl
    | apply State.modCut_keeps
    | apply State.modBench_keeps
    | apply State.tryStart_keeps

theorem State.stockpileError_keeps {σ₀ σ : State} (hk : Keeps σ₀ σ) (n : Nat) (bad : Bool) :
    Keeps σ₀ (State.stockpileError σ n bad) := by
  unfold State.stockpileError
  try dsimp only
  repeat' first
    | with_reducible assumption
    | with_reducible apply State.modHoist_keeps
    | with_reducible apply State.abortFed_keeps
    | with_reducible apply State.orFlags_keeps
    | with_reducible apply State.setStatus_keeps
    | with_reducible apply State.reopenItems_keeps
    | with_reducible apply State.stopEviction_keeps
    | with_reducible apply State.modCut_keeps
    | intro _
    | with_reducible split
    | assumption
    | rfl
    | apply State.modHoist_keeps
    | apply State.abortFed_keeps
    | apply State.orFlags_keeps
    | apply State.setStatus_keeps
    | apply State.reopenItems_keeps
    | apply State.stopEviction_keeps
    | apply State.modCut_keeps

end Sys2Proof.Machine
end

