-- ==== Sys2Proof/Laws/KeepsTpb.lean ====
section
/-! SUPPORT. What the operations of `Machine/Tpb.lean` keep (`Keeps`). -/

namespace Sys2Proof.Machine

set_option linter.all false

theorem State.tileLoad_keeps {σ₀ σ : State} (hk : Keeps σ₀ σ) (k : Nat) (stream : TileStream) (fmt e : Nat) (rows scales : List (List Nat)) (stalls : List (Fin 4 × Nat)) :
    Keeps σ₀ (State.tileLoad σ k stream fmt e rows scales stalls) := by
  unfold State.tileLoad
  try dsimp only
  repeat' first
    | with_reducible assumption
    | with_reducible apply State.modTpb_keeps
    | with_reducible apply State.orFlags_keeps
    | intro _
    | with_reducible split
    | assumption
    | rfl
    | apply State.orFlags_keeps

theorem State.abortCutPasses_keeps {σ₀ σ : State} (hk : Keeps σ₀ σ) (e : Nat) :
    Keeps σ₀ (State.abortCutPasses σ e) := by
  unfold State.abortCutPasses
  try dsimp only
  repeat' first
    | with_reducible assumption
    | with_reducible apply State.abortBench_keeps
    | with_reducible apply Keeps.foldl
    | with_reducible apply Keeps.foldlFst
    | intro _
    | with_reducible split
    | assumption
    | rfl
    | apply State.abortBench_keeps

theorem State.stopForBuffer_keeps {σ₀ σ : State} (hk : Keeps σ₀ σ) (e : Nat) :
    Keeps σ₀ (State.stopForBuffer σ e) := by
  unfold State.stopForBuffer
  try dsimp only
  repeat' first
    | with_reducible assumption
    | with_reducible apply State.stopCut_keeps
    | with_reducible apply State.modWork_keeps
    | intro _
    | with_reducible split
    | assumption
    | rfl
    | apply State.stopCut_keeps
    | apply State.modWork_keeps

theorem State.tpbFault_keeps {σ₀ σ : State} (hk : Keeps σ₀ σ) (j : Nat) :
    Keeps σ₀ (State.tpbFault σ j) := by
  unfold State.tpbFault
  try dsimp only
  repeat' first
    | with_reducible assumption
    | with_reducible apply State.modTpb_keeps
    | with_reducible apply State.retireBuffer_keeps
    | with_reducible apply State.abortCutPasses_keeps
    | with_reducible apply State.logEvt_keeps
    | with_reducible apply State.stopForBuffer_keeps
    | with_reducible apply State.orFlags_keeps
    | with_reducible apply Keeps.foldl
    | with_reducible apply Keeps.foldlFst
    | intro _
    | with_reducible split
    | assumption
    | rfl
    | apply State.modTpb_keeps
    | apply State.retireBuffer_keeps
    | apply State.abortCutPasses_keeps
    | apply State.logEvt_keeps
    | apply State.stopForBuffer_keeps
    | apply State.orFlags_keeps

theorem State.tileLoadAny_keeps {σ₀ σ : State} (hk : Keeps σ₀ σ) (k : Nat) (stream : TileStream) (fmt e : Nat) (rows scales : List (List Nat)) (stalls : List (Fin 4 × Nat)) :
    Keeps σ₀ (State.tileLoadAny σ k stream fmt e rows scales stalls) := by
  unfold State.tileLoadAny
  extract_lets s1
  have hk_s1 : Keeps σ₀ s1 := by
    dsimp only [s1]
    repeat' first
      | with_reducible assumption
      | with_reducible apply State.tileLoad_keeps
      | with_reducible apply State.tpbFault_keeps
      | intro _
      | with_reducible split
      | assumption
      | rfl
      | apply State.tileLoad_keeps
      | apply State.tpbFault_keeps
  clear_value s1
  try dsimp only
  repeat' first
    | with_reducible assumption
    | with_reducible apply State.tileLoad_keeps
    | with_reducible apply State.tpbFault_keeps
    | intro _
    | with_reducible split
    | assumption
    | rfl
    | apply State.tileLoad_keeps
    | apply State.tpbFault_keeps

end Sys2Proof.Machine
end

