-- ==== Sys2Proof/Laws/KeepsReadout.lean ====
section
/-! SUPPORT. What the operations of `Machine/Readout.lean` keep (`Keeps`). -/

namespace Sys2Proof.Machine

set_option linter.all false

theorem State.handOut_keeps {σ₀ σ : State} (hk : Keeps σ₀ σ) (h : Nat) (ws : List LineWrite) :
    Keeps σ₀ (State.handOut σ h ws) := by
  unfold State.handOut
  try dsimp only
  repeat' first
    | with_reducible assumption
    | with_reducible apply State.modHoist_keeps
    | intro _
    | with_reducible split
    | assumption
    | rfl
    | apply State.modHoist_keeps

theorem State.putOut_keeps {σ₀ σ : State} (hk : Keeps σ₀ σ) (item : Nat) (m : MapDesc) (h : Nat) (bs : List (Nat × Byte)) :
    Keeps σ₀ (State.putOut σ item m h bs) := by
  unfold State.putOut
  try dsimp only
  repeat' first
    | with_reducible assumption
    | with_reducible apply State.putYard_keeps
    | with_reducible apply State.handOut_keeps
    | with_reducible apply Keeps.foldl
    | with_reducible apply Keeps.foldlFst
    | intro _
    | with_reducible split
    | assumption
    | rfl
    | apply State.putYard_keeps
    | apply State.handOut_keeps

theorem State.countDropped_keeps {σ₀ σ : State} (hk : Keeps σ₀ σ) (e k : Nat) :
    Keeps σ₀ (State.countDropped σ e k) := by
  unfold State.countDropped
  try dsimp only
  repeat' first
    | with_reducible assumption
    | with_reducible apply State.modCut_keeps
    | with_reducible apply State.orFlags_keeps
    | intro _
    | with_reducible split
    | assumption
    | rfl
    | apply State.modCut_keeps
    | apply State.orFlags_keeps

theorem State.resetSlice_keeps {σ₀ σ : State} (hk : Keeps σ₀ σ) (e item : Nat) :
    Keeps σ₀ (State.resetSlice σ e item) := by
  unfold State.resetSlice
  try dsimp only
  repeat' first
    | with_reducible assumption
    | with_reducible apply State.resetTile_keeps
    | with_reducible apply Keeps.foldl
    | with_reducible apply Keeps.foldlFst
    | intro _
    | with_reducible split
    | assumption
    | rfl
    | apply State.resetTile_keeps

theorem State.readSlice_keeps {σ₀ σ : State} (hk : Keeps σ₀ σ) (e n item : Nat) (t : TileRef) (m : MapDesc) (es : List ReadElem) :
    Keeps σ₀ (State.readSlice σ e n item t m es) := by
  unfold State.readSlice
  extract_lets c h rs out sm o clamps fl s1 s2
  have hk_s1 : Keeps σ₀ s1 := by
    dsimp only [s1]
    repeat' first
      | with_reducible assumption
      | with_reducible apply State.replayStarts_keeps
      | with_reducible apply State.putOut_keeps
      | with_reducible apply State.orFlags_keeps
      | with_reducible apply State.countDropped_keeps
      | with_reducible apply State.resetSlice_keeps
      | with_reducible apply State.modCut_keeps
      | with_reducible apply State.itemDone_keeps
      | with_reducible apply Keeps.foldl
      | with_reducible apply Keeps.foldlFst
      | intro _
      | with_reducible split
      | assumption
      | rfl
      | apply State.putOut_keeps
      | apply State.orFlags_keeps
      | apply State.countDropped_keeps
      | apply State.resetSlice_keeps
      | apply State.modCut_keeps
      | apply State.itemDone_keeps
  clear_value s1
  have hk_s2 : Keeps σ₀ s2 := by
    dsimp only [s2]
    repeat' first
      | with_reducible assumption
      | with_reducible apply State.replayStarts_keeps
      | with_reducible apply State.putOut_keeps
      | with_reducible apply State.orFlags_keeps
      | with_reducible apply State.countDropped_keeps
      | with_reducible apply State.resetSlice_keeps
      | with_reducible apply State.modCut_keeps
      | with_reducible apply State.itemDone_keeps
      | with_reducible apply Keeps.foldl
      | with_reducible apply Keeps.foldlFst
      | intro _
      | with_reducible split
      | assumption
      | rfl
      | apply State.putOut_keeps
      | apply State.orFlags_keeps
      | apply State.countDropped_keeps
      | apply State.resetSlice_keeps
      | apply State.modCut_keeps
      | apply State.itemDone_keeps
  clear_value s2
  try dsimp only
  repeat' first
    | with_reducible assumption
    | with_reducible apply State.replayStarts_keeps
    | with_reducible apply State.putOut_keeps
    | with_reducible apply State.orFlags_keeps
    | with_reducible apply State.countDropped_keeps
    | with_reducible apply State.resetSlice_keeps
    | with_reducible apply State.modCut_keeps
    | with_reducible apply State.itemDone_keeps
    | with_reducible apply Keeps.foldl
    | with_reducible apply Keeps.foldlFst
    | intro _
    | with_reducible split
    | assumption
    | rfl
    | apply State.putOut_keeps
    | apply State.orFlags_keeps
    | apply State.countDropped_keeps
    | apply State.resetSlice_keeps
    | apply State.modCut_keeps
    | apply State.itemDone_keeps

theorem State.readout_keeps {σ₀ σ : State} (hk : Keeps σ₀ σ) (n b : Nat) (es : List ReadElem) :
    Keeps σ₀ (State.readout σ n b es) := by
  unfold State.readout
  try dsimp only
  repeat' first
    | with_reducible assumption
    | with_reducible apply State.readSlice_keeps
    | intro _
    | with_reducible split
    | assumption
    | rfl
    | apply State.readSlice_keeps

theorem State.parityError_keeps {σ₀ σ : State} (hk : Keeps σ₀ σ) (e n fl : Nat) :
    Keeps σ₀ (State.parityError σ e n fl) := by
  unfold State.parityError
  extract_lets s1 s2
  have hk_s1 : Keeps σ₀ s1 := by
    dsimp only [s1]
    repeat' first
      | with_reducible assumption
      | with_reducible apply State.modCut_keeps
      | with_reducible apply State.orFlags_keeps
      | with_reducible apply State.setStatus_keeps
      | with_reducible apply State.retireFace_keeps
      | intro _
      | with_reducible split
      | assumption
      | rfl
      | apply State.modCut_keeps
      | apply State.orFlags_keeps
      | apply State.setStatus_keeps
      | apply State.retireFace_keeps
  clear_value s1
  have hk_s2 : Keeps σ₀ s2 := by
    dsimp only [s2]
    repeat' first
      | with_reducible assumption
      | with_reducible apply State.modCut_keeps
      | with_reducible apply State.orFlags_keeps
      | with_reducible apply State.setStatus_keeps
      | with_reducible apply State.retireFace_keeps
      | intro _
      | with_reducible split
      | assumption
      | rfl
      | apply State.modCut_keeps
      | apply State.orFlags_keeps
      | apply State.setStatus_keeps
      | apply State.retireFace_keeps
  clear_value s2
  try dsimp only
  repeat' first
    | with_reducible assumption
    | with_reducible apply State.modCut_keeps
    | with_reducible apply State.orFlags_keeps
    | with_reducible apply State.setStatus_keeps
    | with_reducible apply State.retireFace_keeps
    | intro _
    | with_reducible split
    | assumption
    | rfl
    | apply State.modCut_keeps
    | apply State.orFlags_keeps
    | apply State.setStatus_keeps
    | apply State.retireFace_keeps

theorem State.tableParity_keeps {σ₀ σ : State} (hk : Keeps σ₀ σ) (n : Nat) :
    Keeps σ₀ (State.tableParity σ n) := by
  unfold State.tableParity
  extract_lets s2
  have hk_s2 : Keeps σ₀ s2 := by
    dsimp only [s2]
    repeat' first
      | with_reducible assumption
      | with_reducible apply State.awaitReplay_keeps
      | with_reducible apply State.parityError_keeps
      | intro _
      | with_reducible split
      | assumption
      | rfl
      | apply State.parityError_keeps
  clear_value s2
  try dsimp only
  repeat' first
    | with_reducible assumption
    | with_reducible apply State.awaitReplay_keeps
    | with_reducible apply State.parityError_keeps
    | intro _
    | with_reducible split
    | assumption
    | rfl
    | apply State.parityError_keeps

end Sys2Proof.Machine
end

