-- ==== Sys2Proof/Laws/KeepsSeamOps.lean ====
section
/-! SUPPORT. What the operations of `Machine/SeamOps.lean` keep (`Keeps`). -/

namespace Sys2Proof.Machine

set_option linter.all false

theorem State.noteHeld_keeps {σ₀ σ : State} (hk : Keeps σ₀ σ) (e : Nat) :
    Keeps σ₀ (State.noteHeld σ e) := by
  unfold State.noteHeld
  try dsimp only
  repeat' first
    | with_reducible assumption
    | with_reducible apply State.orFlags_keeps
    | with_reducible apply State.modCut_keeps
    | intro _
    | with_reducible split
    | assumption
    | rfl
    | apply State.orFlags_keeps
    | apply State.modCut_keeps

theorem State.evictionStart_keeps {σ₀ σ : State} (hk : Keeps σ₀ σ) (e : Nat) :
    Keeps σ₀ (State.evictionStart σ e) := by
  unfold State.evictionStart
  try dsimp only
  repeat' first
    | with_reducible assumption
    | with_reducible apply State.noteHeld_keeps
    | with_reducible apply State.modHoist_keeps
    | with_reducible apply State.handOut_keeps
    | intro _
    | with_reducible split
    | assumption
    | rfl
    | apply State.noteHeld_keeps
    | apply State.modHoist_keeps
    | apply State.handOut_keeps

theorem State.finishEviction_keeps {σ₀ σ : State} (hk : Keeps σ₀ σ) (e : Nat) :
    Keeps σ₀ (State.finishEviction σ e) := by
  unfold State.finishEviction
  try dsimp only
  repeat' first
    | with_reducible assumption
    | with_reducible apply State.resetSeam_keeps
    | with_reducible apply State.orFlags_keeps
    | with_reducible apply State.modHoist_keeps
    | intro _
    | with_reducible split
    | assumption
    | rfl
    | apply State.resetSeam_keeps
    | apply State.orFlags_keeps
    | apply State.modHoist_keeps

end Sys2Proof.Machine
end

