-- ==== Sys2Proof/Laws/KeepsAttention.lean ====
section
/-! SUPPORT. What the operations of `Machine/Attention.lean` keep (`Keeps`). -/

namespace Sys2Proof.Machine

set_option linter.all false

theorem State.writeKeyBlock_keeps {σ₀ σ : State} (hk : Keeps σ₀ σ) (n b tag base qb stage l q : Nat) (codes : List Nat) :
    Keeps σ₀ (State.writeKeyBlock σ n b tag base qb stage l q codes) := by
  unfold State.writeKeyBlock
  try dsimp only
  repeat' first
    | with_reducible assumption
    | with_reducible apply State.modBench_keeps
    | with_reducible apply State.putYard_keeps
    | intro _
    | with_reducible split
    | assumption
    | rfl
    | apply State.modBench_keeps
    | apply State.putYard_keeps

theorem State.writeQueryBlock_keeps {σ₀ σ : State} (hk : Keeps σ₀ σ) (n b base qb l q : Nat) (codes : List Nat) :
    Keeps σ₀ (State.writeQueryBlock σ n b base qb l q codes) := by
  unfold State.writeQueryBlock
  extract_lets m s1 s2
  have hk_s1 : Keeps σ₀ s1 := by
    dsimp only [s1]
    repeat' first
      | with_reducible assumption
      | with_reducible apply State.putYard_keeps
      | with_reducible apply Keeps.foldl
      | with_reducible apply Keeps.foldlFst
      | intro _
      | with_reducible split
      | assumption
      | rfl
      | apply State.putYard_keeps
  clear_value s1
  have hk_s2 : Keeps σ₀ s2 := by
    dsimp only [s2]
    repeat' first
      | with_reducible assumption
      | with_reducible apply State.putYard_keeps
      | with_reducible apply Keeps.foldl
      | with_reducible apply Keeps.foldlFst
      | intro _
      | with_reducible split
      | assumption
      | rfl
      | apply State.putYard_keeps
  clear_value s2
  try dsimp only
  repeat' first
    | with_reducible assumption
    | with_reducible apply State.putYard_keeps
    | with_reducible apply Keeps.foldl
    | with_reducible apply Keeps.foldlFst
    | intro _
    | with_reducible split
    | assumption
    | rfl
    | apply State.putYard_keeps

theorem State.kilnReturn_keeps {σ₀ σ : State} (hk : Keeps σ₀ σ) (n b base : Nat) (sh : Shadow) (a : AArea) (l j : Nat) (v : Fp) (high : Bool) :
    Keeps σ₀ (State.kilnReturn σ n b base sh a l j v high) := by
  unfold State.kilnReturn
  extract_lets qb q s1 k tag s2
  have hk_s1 : Keeps σ₀ s1 := by
    dsimp only [s1]
    repeat' first
      | with_reducible assumption
      | with_reducible apply State.writeKeyBlock_keeps
      | with_reducible apply State.writeQueryBlock_keeps
      | intro _
      | with_reducible split
      | assumption
      | rfl
      | apply State.writeKeyBlock_keeps
      | apply State.writeQueryBlock_keeps
  clear_value s1
  have hk_s2 : Keeps σ₀ s2 := by
    dsimp only [s2]
    repeat' first
      | with_reducible assumption
      | with_reducible apply State.writeKeyBlock_keeps
      | with_reducible apply State.writeQueryBlock_keeps
      | intro _
      | with_reducible split
      | assumption
      | rfl
      | apply State.writeKeyBlock_keeps
      | apply State.writeQueryBlock_keeps
  clear_value s2
  try dsimp only
  repeat' first
    | with_reducible assumption
    | with_reducible apply State.writeKeyBlock_keeps
    | with_reducible apply State.writeQueryBlock_keeps
    | intro _
    | with_reducible split
    | assumption
    | rfl
    | apply State.writeKeyBlock_keeps
    | apply State.writeQueryBlock_keeps

theorem State.kilnResult_keeps {σ₀ σ : State} (hk : Keeps σ₀ σ) (n b l j : Nat) (pair : KilnPair) :
    Keeps σ₀ (State.kilnResult σ n b l j pair) := by
  unfold State.kilnResult
  try dsimp only
  repeat' first
    | with_reducible assumption
    | with_reducible apply State.kilnReturn_keeps
    | intro _
    | with_reducible split
    | assumption
    | rfl
    | apply State.kilnReturn_keeps

theorem State.restage_keeps {σ₀ σ : State} (hk : Keeps σ₀ σ) (n e : Nat) :
    Keeps σ₀ (State.restage σ n e) := by
  unfold State.restage
  try dsimp only
  repeat' first
    | with_reducible assumption
    | with_reducible apply State.awaitReplay_keeps
    | with_reducible apply State.modBench_keeps
    | with_reducible apply State.tryStart_keeps
    | with_reducible apply Keeps.foldl
    | with_reducible apply Keeps.foldlFst
    | intro _
    | with_reducible split
    | assumption
    | rfl
    | apply State.modBench_keeps
    | apply State.tryStart_keeps

theorem State.takeTableInject_keeps {σ₀ σ : State} (hk : Keeps σ₀ σ) (n : Nat) :
    Keeps σ₀ (State.takeTableInject σ n).1 := by
  unfold State.takeTableInject
  split
  · exact hk
  · exact hk

theorem State.kilnParity_keeps {σ₀ σ : State} (hk : Keeps σ₀ σ) (n : Nat) : Keeps σ₀ (State.kilnParity σ n) := by
  have h1 := State.takeTableInject_keeps hk n
  unfold State.kilnParity
  revert h1
  generalize σ.takeTableInject n = r
  obtain ⟨a, fl⟩ := r
  intro h1
  dsimp only at *
  split
  · exact State.parityError_keeps (State.restage_keeps (by exact h1) _ _) _ _ _
  · exact h1

theorem State.kilnResultAny_keeps {σ₀ σ : State} (hk : Keeps σ₀ σ) (n b l j : Nat) (pair : KilnPair) :
    Keeps σ₀ (State.kilnResultAny σ n b l j pair) := by
  unfold State.kilnResultAny
  try dsimp only
  repeat' first
    | with_reducible assumption
    | with_reducible apply State.kilnResult_keeps
    | with_reducible apply State.kilnParity_keeps
    | intro _
    | with_reducible split
    | assumption
    | rfl
    | apply State.kilnResult_keeps
    | apply State.kilnParity_keeps

theorem State.kilnDrain_keeps {σ₀ σ : State} (hk : Keeps σ₀ σ) (n b : Nat) :
    Keeps σ₀ (State.kilnDrain σ n b) := by
  unfold State.kilnDrain
  try dsimp only
  repeat' first
    | with_reducible assumption
    | with_reducible apply State.orFlags_keeps
    | with_reducible apply State.modCut_keeps
    | with_reducible apply State.freeShadow_keeps
    | intro _
    | with_reducible split
    | assumption
    | rfl
    | apply State.orFlags_keeps
    | apply State.modCut_keeps
    | apply State.freeShadow_keeps

theorem State.sendStream_keeps {σ₀ σ : State} (hk : Keeps σ₀ σ) (p vc e : Nat) (bs : List Byte) :
    Keeps σ₀ (State.sendStream σ p vc e bs) := by
  unfold State.sendStream
  try dsimp only
  repeat' first
    | with_reducible assumption
    | with_reducible apply State.modPort_keeps
    | intro _
    | with_reducible split
    | assumption
    | rfl
    | apply State.modPort_keeps

theorem State.takeStream_keeps {σ₀ σ : State} (hk : Keeps σ₀ σ) (p vc : Nat) :
    Keeps σ₀ (State.takeStream σ p vc) := by
  unfold State.takeStream
  try dsimp only
  repeat' first
    | with_reducible assumption
    | with_reducible apply State.modPort_keeps
    | intro _
    | with_reducible split
    | assumption
    | rfl
    | apply State.modPort_keeps

theorem State.dealRound_keeps {σ₀ σ : State} (hk : Keeps σ₀ σ) (e round : Nat) :
    Keeps σ₀ (State.dealRound σ e round) := by
  unfold State.dealRound
  extract_lets a r n s1 s2
  have hk_s1 : Keeps σ₀ s1 := by
    dsimp only [s1]
    repeat' first
      | with_reducible assumption
      | with_reducible apply State.modCut_keeps
      | with_reducible apply State.modBench_keeps
      | with_reducible apply State.modArun_keeps
      | with_reducible apply State.tryStart_keeps
      | with_reducible apply Keeps.foldl
      | with_reducible apply Keeps.foldlFst
      | intro _
      | with_reducible split
      | assumption
      | rfl
      | apply State.modCut_keeps
      | apply State.modBench_keeps
      | apply State.modArun_keeps
      | apply State.tryStart_keeps
  clear_value s1
  have hk_s2 : Keeps σ₀ s2 := by
    dsimp only [s2]
    repeat' first
      | with_reducible assumption
      | with_reducible apply State.modCut_keeps
      | with_reducible apply State.modBench_keeps
      | with_reducible apply State.modArun_keeps
      | with_reducible apply State.tryStart_keeps
      | with_reducible apply Keeps.foldl
      | with_reducible apply Keeps.foldlFst
      | intro _
      | with_reducible split
      | assumption
      | rfl
      | apply State.modCut_keeps
      | apply State.modBench_keeps
      | apply State.modArun_keeps
      | apply State.tryStart_keeps
  clear_value s2
  try dsimp only
  repeat' first
    | with_reducible assumption
    | with_reducible apply State.modCut_keeps
    | with_reducible apply State.modBench_keeps
    | with_reducible apply State.modArun_keeps
    | with_reducible apply State.tryStart_keeps
    | with_reducible apply Keeps.foldl
    | with_reducible apply Keeps.foldlFst
    | intro _
    | with_reducible split
    | assumption
    | rfl
    | apply State.modCut_keeps
    | apply State.modBench_keeps
    | apply State.modArun_keeps
    | apply State.tryStart_keeps

theorem State.writeOut_keeps {σ₀ σ : State} (hk : Keeps σ₀ σ) (e item map hoist : Nat) (es : List (List (Option Int) × Val)) :
    Keeps σ₀ (State.writeOut σ e item map hoist es) := by
  unfold State.writeOut
  try dsimp only
  repeat' first
    | with_reducible assumption
    | with_reducible apply State.putOut_keeps
    | with_reducible apply State.orFlags_keeps
    | intro _
    | with_reducible split
    | assumption
    | rfl
    | apply State.putOut_keeps
    | apply State.orFlags_keeps

theorem State.writeKeys_keeps {σ₀ σ : State} (hk : Keeps σ₀ σ) (e o round : Nat) (val : Nat → Nat → Nat → Val) :
    Keeps σ₀ (State.writeKeys σ e o round val) := by
  unfold State.writeKeys
  try dsimp only
  repeat' first
    | with_reducible assumption
    | with_reducible apply State.writeOut_keeps
    | intro _
    | with_reducible split
    | assumption
    | rfl
    | apply State.writeOut_keeps

theorem State.foldPartial_keeps {σ₀ σ : State} (hk : Keeps σ₀ σ) (e o : Nat) (vs : List (List Nat)) :
    Keeps σ₀ (State.foldPartial σ e o vs) := by
  unfold State.foldPartial
  extract_lets c n s1
  have hk_s1 : Keeps σ₀ s1 := by
    dsimp only [s1]
    repeat' first
      | with_reducible assumption
      | with_reducible apply State.foldTile_keeps
      | with_reducible apply State.modArun_keeps
      | with_reducible apply Keeps.foldl
      | with_reducible apply Keeps.foldlFst
      | intro _
      | with_reducible split
      | assumption
      | rfl
      | apply State.foldTile_keeps
      | apply State.modArun_keeps
  clear_value s1
  try dsimp only
  repeat' first
    | with_reducible assumption
    | with_reducible apply State.foldTile_keeps
    | with_reducible apply State.modArun_keeps
    | with_reducible apply Keeps.foldl
    | with_reducible apply Keeps.foldlFst
    | intro _
    | with_reducible split
    | assumption
    | rfl
    | apply State.foldTile_keeps
    | apply State.modArun_keeps

theorem State.outTile_keeps {σ₀ σ : State} (hk : Keeps σ₀ σ) (e o : Nat) :
    Keeps σ₀ (State.outTile σ e o) := by
  unfold State.outTile
  try dsimp only
  repeat' first
    | with_reducible assumption
    | with_reducible apply State.writeKeys_keeps
    | with_reducible apply State.sendStream_keeps
    | with_reducible apply State.orFlags_keeps
    | with_reducible apply State.resetTile_keeps
    | with_reducible apply State.modArun_keeps
    | with_reducible apply Keeps.foldl
    | with_reducible apply Keeps.foldlFst
    | intro _
    | with_reducible split
    | assumption
    | rfl
    | apply State.writeKeys_keeps
    | apply State.sendStream_keeps
    | apply State.orFlags_keeps
    | apply State.resetTile_keeps
    | apply State.modArun_keeps

theorem State.tryTile_keeps {σ₀ σ : State} (hk : Keeps σ₀ σ) (e o : Nat) :
    Keeps σ₀ (State.tryTile σ e o) := by
  unfold State.tryTile
  try dsimp only
  repeat' first
    | with_reducible assumption
    | with_reducible apply State.outTile_keeps
    | with_reducible apply State.foldPartial_keeps
    | intro _
    | with_reducible split
    | assumption
    | rfl
    | apply State.outTile_keeps
    | apply State.foldPartial_keeps

theorem State.resetRow_keeps {σ₀ σ : State} (hk : Keeps σ₀ σ) (e row : Nat) :
    Keeps σ₀ (State.resetRow σ e row) := by
  unfold State.resetRow
  try dsimp only
  repeat' first
    | with_reducible assumption
    | with_reducible apply State.resetTile_keeps
    | with_reducible apply Keeps.foldl
    | with_reducible apply Keeps.foldlFst
    | intro _
    | with_reducible split
    | assumption
    | rfl
    | apply State.resetTile_keeps

theorem State.tryRow_keeps {σ₀ σ : State} (hk : Keeps σ₀ σ) (e row : Nat) :
    Keeps σ₀ (State.tryRow σ e row) := by
  unfold State.tryRow
  try dsimp only
  repeat' first
    | with_reducible assumption
    | with_reducible apply State.writeOut_keeps
    | with_reducible apply State.resetRow_keeps
    | with_reducible apply State.modArun_keeps
    | intro _
    | with_reducible split
    | assumption
    | rfl
    | apply State.writeOut_keeps
    | apply State.resetRow_keeps
    | apply State.modArun_keeps

theorem State.tryRound_keeps {σ₀ σ : State} (hk : Keeps σ₀ σ) (e round : Nat) :
    Keeps σ₀ (State.tryRound σ e round) := by
  unfold State.tryRound
  try dsimp only
  repeat' first
    | with_reducible assumption
    | with_reducible apply State.modCut_keeps
    | with_reducible apply State.itemDone_keeps
    | intro _
    | with_reducible split
    | assumption
    | rfl
    | apply State.modCut_keeps
    | apply State.itemDone_keeps

theorem State.freeSlots_keeps {σ₀ σ : State} (hk : Keeps σ₀ σ) (e : Nat) :
    Keeps σ₀ (State.freeSlots σ e) := by
  unfold State.freeSlots
  try dsimp only
  repeat' first
    | with_reducible assumption
    | with_reducible apply State.modArun_keeps
    | intro _
    | with_reducible split
    | assumption
    | rfl
    | apply State.modArun_keeps

theorem State.releasePages_keeps {σ₀ σ : State} (hk : Keeps σ₀ σ) (e : Nat) :
    Keeps σ₀ (State.releasePages σ e) := by
  unfold State.releasePages
  try dsimp only
  repeat' first
    | with_reducible assumption
    | with_reducible apply State.modArun_keeps
    | intro _
    | with_reducible split
    | assumption
    | rfl
    | apply State.modArun_keeps

theorem State.landBlock_keeps {σ₀ σ : State} (hk : Keeps σ₀ σ) (e : Nat) (x : RingSlot) :
    Keeps σ₀ (State.landBlock σ e x) := by
  unfold State.landBlock
  try dsimp only
  repeat' first
    | with_reducible assumption
    | with_reducible apply State.putFabric_keeps
    | with_reducible apply State.sendStream_keeps
    | with_reducible apply State.modArun_keeps
    | with_reducible apply State.dealRound_keeps
    | intro _
    | with_reducible split
    | assumption
    | rfl
    | apply State.putFabric_keeps
    | apply State.sendStream_keeps
    | apply State.modArun_keeps
    | apply State.dealRound_keeps

theorem State.landWaiting_keeps {σ₀ σ : State} (hk : Keeps σ₀ σ) (e : Nat) :
    Keeps σ₀ (State.landWaiting σ e) := by
  unfold State.landWaiting
  try dsimp only
  repeat' first
    | with_reducible assumption
    | with_reducible apply State.modArun_keeps
    | with_reducible apply State.landBlock_keeps
    | intro _
    | with_reducible split
    | assumption
    | rfl
    | apply State.modArun_keeps
    | apply State.landBlock_keeps

theorem State.sweepA_keeps {σ₀ σ : State} (hk : Keeps σ₀ σ) (e : Nat) :
    Keeps σ₀ (State.sweepA σ e) := by
  unfold State.sweepA
  extract_lets a r s1 s2 s3
  have hk_s1 : Keeps σ₀ s1 := by
    dsimp only [s1]
    repeat' first
      | with_reducible assumption
      | with_reducible apply State.tryTile_keeps
      | with_reducible apply State.tryRow_keeps
      | with_reducible apply State.tryRound_keeps
      | with_reducible apply State.releasePages_keeps
      | with_reducible apply State.freeSlots_keeps
      | with_reducible apply State.landWaiting_keeps
      | with_reducible apply Keeps.foldl
      | with_reducible apply Keeps.foldlFst
      | intro _
      | with_reducible split
      | assumption
      | rfl
      | apply State.tryTile_keeps
      | apply State.tryRow_keeps
      | apply State.tryRound_keeps
      | apply State.releasePages_keeps
      | apply State.freeSlots_keeps
      | apply State.landWaiting_keeps
  clear_value s1
  have hk_s2 : Keeps σ₀ s2 := by
    dsimp only [s2]
    repeat' first
      | with_reducible assumption
      | with_reducible apply State.tryTile_keeps
      | with_reducible apply State.tryRow_keeps
      | with_reducible apply State.tryRound_keeps
      | with_reducible apply State.releasePages_keeps
      | with_reducible apply State.freeSlots_keeps
      | with_reducible apply State.landWaiting_keeps
      | with_reducible apply Keeps.foldl
      | with_reducible apply Keeps.foldlFst
      | intro _
      | with_reducible split
      | assumption
      | rfl
      | apply State.tryTile_keeps
      | apply State.tryRow_keeps
      | apply State.tryRound_keeps
      | apply State.releasePages_keeps
      | apply State.freeSlots_keeps
      | apply State.landWaiting_keeps
  clear_value s2
  have hk_s3 : Keeps σ₀ s3 := by
    dsimp only [s3]
    repeat' first
      | with_reducible assumption
      | with_reducible apply State.tryTile_keeps
      | with_reducible apply State.tryRow_keeps
      | with_reducible apply State.tryRound_keeps
      | with_reducible apply State.releasePages_keeps
      | with_reducible apply State.freeSlots_keeps
      | with_reducible apply State.landWaiting_keeps
      | with_reducible apply Keeps.foldl
      | with_reducible apply Keeps.foldlFst
      | intro _
      | with_reducible split
      | assumption
      | rfl
      | apply State.tryTile_keeps
      | apply State.tryRow_keeps
      | apply State.tryRound_keeps
      | apply State.releasePages_keeps
      | apply State.freeSlots_keeps
      | apply State.landWaiting_keeps
  clear_value s3
  try dsimp only
  repeat' first
    | with_reducible assumption
    | with_reducible apply State.tryTile_keeps
    | with_reducible apply State.tryRow_keeps
    | with_reducible apply State.tryRound_keeps
    | with_reducible apply State.releasePages_keeps
    | with_reducible apply State.freeSlots_keeps
    | with_reducible apply State.landWaiting_keeps
    | with_reducible apply Keeps.foldl
    | with_reducible apply Keeps.foldlFst
    | intro _
    | with_reducible split
    | assumption
    | rfl
    | apply State.tryTile_keeps
    | apply State.tryRow_keeps
    | apply State.tryRound_keeps
    | apply State.releasePages_keeps
    | apply State.freeSlots_keeps
    | apply State.landWaiting_keeps

theorem State.countBlock_keeps {σ₀ σ : State} (hk : Keeps σ₀ σ) (e : Nat) (p : PassId) :
    Keeps σ₀ (State.countBlock σ e p) := by
  unfold State.countBlock
  try dsimp only
  repeat' first
    | with_reducible assumption
    | with_reducible apply State.modCut_keeps
    | intro _
    | with_reducible split
    | assumption
    | rfl
    | apply State.modCut_keeps

theorem State.foldAny_keeps {σ₀ σ : State} (hk : Keeps σ₀ σ) (n b : Nat) :
    Keeps σ₀ (State.foldAny σ n b) := by
  unfold State.foldAny
  try dsimp only
  repeat' first
    | with_reducible assumption
    | with_reducible apply State.fold_keeps
    | with_reducible apply State.countBlock_keeps
    | with_reducible apply State.sweepA_keeps
    | intro _
    | with_reducible split
    | assumption
    | rfl
    | apply State.fold_keeps
    | apply State.countBlock_keeps
    | apply State.sweepA_keeps

theorem State.deltaMade_keeps {σ₀ σ : State} (hk : Keeps σ₀ σ) (e row : Nat) (qs : List DeltaQuery) :
    Keeps σ₀ (State.deltaMade σ e row qs) := by
  unfold State.deltaMade
  try dsimp only
  repeat' first
    | with_reducible assumption
    | with_reducible apply State.writeOut_keeps
    | with_reducible apply State.orFlags_keeps
    | with_reducible apply State.modArun_keeps
    | with_reducible apply State.tryStart_keeps
    | with_reducible apply Keeps.foldl
    | with_reducible apply Keeps.foldlFst
    | intro _
    | with_reducible split
    | assumption
    | rfl
    | apply State.writeOut_keeps
    | apply State.orFlags_keeps
    | apply State.modArun_keeps
    | apply State.tryStart_keeps

theorem State.addPfStall_keeps {σ₀ σ : State} (hk : Keeps σ₀ σ) (e n : Nat) :
    Keeps σ₀ (State.addPfStall σ e n) := State.modCut_keeps hk _ _

theorem State.pageCopy_keeps {σ₀ σ : State} (hk : Keeps σ₀ σ) (e page : Nat) (data : List Byte) (waited : Nat) :
    Keeps σ₀ (State.pageCopy σ e page data waited) := by
  unfold State.pageCopy
  try dsimp only
  repeat' first
    | with_reducible assumption
    | with_reducible apply State.addPfStall_keeps
    | with_reducible apply State.handOut_keeps
    | with_reducible apply State.orFlags_keeps
    | with_reducible apply State.modArun_keeps
    | with_reducible apply State.tryStart_keeps
    | with_reducible apply Keeps.foldl
    | with_reducible apply Keeps.foldlFst
    | intro _
    | with_reducible split
    | assumption
    | rfl
    | apply State.handOut_keeps
    | apply State.orFlags_keeps
    | apply State.modArun_keeps
    | apply State.tryStart_keeps

theorem State.ringBlock_keeps {σ₀ σ : State} (hk : Keeps σ₀ σ) (e : Nat) (header data : List Byte) :
    Keeps σ₀ (State.ringBlock σ e header data) := by
  unfold State.ringBlock
  try dsimp only
  repeat' first
    | with_reducible assumption
    | with_reducible apply State.takeStream_keeps
    | with_reducible apply State.modArun_keeps
    | with_reducible apply State.orFlags_keeps
    | with_reducible apply State.landWaiting_keeps
    | with_reducible apply State.sweepA_keeps
    | with_reducible apply State.breakCut_keeps
    | intro _
    | with_reducible split
    | assumption
    | rfl
    | apply State.takeStream_keeps
    | apply State.modArun_keeps
    | apply State.orFlags_keeps
    | apply State.landWaiting_keeps
    | apply State.sweepA_keeps
    | apply State.breakCut_keeps

theorem State.ringPartial_keeps {σ₀ σ : State} (hk : Keeps σ₀ σ) (e round k : Nat) (vs : List (List Nat)) :
    Keeps σ₀ (State.ringPartial σ e round k vs) := by
  unfold State.ringPartial
  try dsimp only
  repeat' first
    | with_reducible assumption
    | with_reducible apply State.takeStream_keeps
    | with_reducible apply State.writeKeys_keeps
    | with_reducible apply State.modArun_keeps
    | with_reducible apply State.sweepA_keeps
    | intro _
    | with_reducible split
    | assumption
    | rfl
    | apply State.takeStream_keeps
    | apply State.writeKeys_keeps
    | apply State.modArun_keeps
    | apply State.sweepA_keeps

end Sys2Proof.Machine
end

