-- ==== Sys2Proof/Laws/KeepsReset.lean ====
section
/-! SUPPORT. What the operations of `Machine/Reset.lean` keep (`Keeps`). -/

namespace Sys2Proof.Machine

set_option linter.all false

theorem State.writeCal_keeps {σ₀ σ : State} (hk : Keeps σ₀ σ) (n : Nat) :
    Keeps σ₀ (State.writeCal σ n) := by
  unfold State.writeCal
  try dsimp only
  repeat' first
    | with_reducible assumption
    | with_reducible apply State.modFace_keeps
    | intro _
    | with_reducible split
    | assumption
    | rfl
    | apply State.modFace_keeps

theorem State.checkReady_keeps {σ₀ σ : State} (hk : Keeps σ₀ σ)  :
    Keeps σ₀ (State.checkReady σ) := by
  unfold State.checkReady
  try dsimp only
  repeat' first
    | with_reducible assumption
    | with_reducible apply State.modGlb_keeps
    | intro _
    | with_reducible split
    | assumption
    | rfl
    | apply State.modGlb_keeps

theorem State.restoreFace_keeps {σ₀ σ : State} (hk : Keeps σ₀ σ) (n : Nat) :
    Keeps σ₀ (State.restoreFace σ n) := by
  unfold State.restoreFace
  try dsimp only
  repeat' first
    | with_reducible assumption
    | with_reducible apply State.modFace_keeps
    | with_reducible apply State.writeCal_keeps
    | intro _
    | with_reducible split
    | assumption
    | rfl
    | apply State.modFace_keeps
    | apply State.writeCal_keeps

theorem State.restoreModule_keeps {σ₀ σ : State} (hk : Keeps σ₀ σ) (x : Fin 4 × List Byte) :
    Keeps σ₀ (State.restoreModule σ x) := by
  unfold State.restoreModule
  try dsimp only
  repeat' first
    | with_reducible assumption
    | with_reducible apply State.modPort_keeps
    | with_reducible apply State.logEvt_keeps
    | intro _
    | with_reducible split
    | assumption
    | rfl
    | apply State.modPort_keeps
    | apply State.logEvt_keeps

theorem State.restoreLane_keeps {σ₀ σ : State} (hk : Keeps σ₀ σ) (p : Nat) :
    Keeps σ₀ (State.restoreLane σ p) := by
  unfold State.restoreLane
  try dsimp only
  repeat' first
    | with_reducible assumption
    | with_reducible apply State.modPort_keeps
    | intro _
    | with_reducible split
    | assumption
    | rfl
    | apply State.modPort_keeps

theorem State.bootFace_keeps {σ₀ σ : State} (hk : Keeps σ₀ σ) (t : FaceTest) :
    Keeps σ₀ (State.bootFace σ t) := by
  unfold State.bootFace
  extract_lets s1
  have hk_s1 : Keeps σ₀ s1 := by
    dsimp only [s1]
    repeat' first
      | with_reducible assumption
      | with_reducible apply State.absorbTest_keeps
      | with_reducible apply State.retireFace_keeps
      | intro _
      | with_reducible split
      | assumption
      | rfl
      | apply State.absorbTest_keeps
      | apply State.retireFace_keeps
  clear_value s1
  try dsimp only
  repeat' first
    | with_reducible assumption
    | with_reducible apply State.absorbTest_keeps
    | with_reducible apply State.retireFace_keeps
    | intro _
    | with_reducible split
    | assumption
    | rfl
    | apply State.absorbTest_keeps
    | apply State.retireFace_keeps

theorem State.absorbUnits_keeps {σ₀ σ : State} (hk : Keeps σ₀ σ) (r : UnitTest) :
    Keeps σ₀ (State.absorbUnits σ r) := by
  unfold State.absorbUnits
  extract_lets s1 s2 s3 s4 s5
  have hk_s1 : Keeps σ₀ s1 := by
    dsimp only [s1]
    repeat' first
      | with_reducible assumption
      | with_reducible apply State.retireBuffer_keeps
      | with_reducible apply State.retireUnit_keeps
      | with_reducible apply Keeps.foldl
      | with_reducible apply Keeps.foldlFst
      | intro _
      | with_reducible split
      | assumption
      | rfl
      | apply State.retireBuffer_keeps
      | apply State.retireUnit_keeps
  clear_value s1
  have hk_s2 : Keeps σ₀ s2 := by
    dsimp only [s2]
    repeat' first
      | with_reducible assumption
      | with_reducible apply State.retireBuffer_keeps
      | with_reducible apply State.retireUnit_keeps
      | with_reducible apply Keeps.foldl
      | with_reducible apply Keeps.foldlFst
      | intro _
      | with_reducible split
      | assumption
      | rfl
      | apply State.retireBuffer_keeps
      | apply State.retireUnit_keeps
  clear_value s2
  have hk_s3 : Keeps σ₀ s3 := by
    dsimp only [s3]
    repeat' first
      | with_reducible assumption
      | with_reducible apply State.retireBuffer_keeps
      | with_reducible apply State.retireUnit_keeps
      | with_reducible apply Keeps.foldl
      | with_reducible apply Keeps.foldlFst
      | intro _
      | with_reducible split
      | assumption
      | rfl
      | apply State.retireBuffer_keeps
      | apply State.retireUnit_keeps
  clear_value s3
  have hk_s4 : Keeps σ₀ s4 := by
    dsimp only [s4]
    repeat' first
      | with_reducible assumption
      | with_reducible apply State.retireBuffer_keeps
      | with_reducible apply State.retireUnit_keeps
      | with_reducible apply Keeps.foldl
      | with_reducible apply Keeps.foldlFst
      | intro _
      | with_reducible split
      | assumption
      | rfl
      | apply State.retireBuffer_keeps
      | apply State.retireUnit_keeps
  clear_value s4
  have hk_s5 : Keeps σ₀ s5 := by
    dsimp only [s5]
    repeat' first
      | with_reducible assumption
      | with_reducible apply State.retireBuffer_keeps
      | with_reducible apply State.retireUnit_keeps
      | with_reducible apply Keeps.foldl
      | with_reducible apply Keeps.foldlFst
      | intro _
      | with_reducible split
      | assumption
      | rfl
      | apply State.retireBuffer_keeps
      | apply State.retireUnit_keeps
  clear_value s5
  try dsimp only
  repeat' first
    | with_reducible assumption
    | with_reducible apply State.retireBuffer_keeps
    | with_reducible apply State.retireUnit_keeps
    | with_reducible apply Keeps.foldl
    | with_reducible apply Keeps.foldlFst
    | intro _
    | with_reducible split
    | assumption
    | rfl
    | apply State.retireBuffer_keeps
    | apply State.retireUnit_keeps

theorem State.buffersOff_keeps {σ₀ σ : State} (hk : Keeps σ₀ σ)  :
    Keeps σ₀ (State.buffersOff σ) := by
  unfold State.buffersOff
  try dsimp only
  repeat' first
    | with_reducible assumption
    | with_reducible apply State.setClk_keeps
    | with_reducible apply Keeps.foldl
    | with_reducible apply Keeps.foldlFst
    | intro _
    | with_reducible split
    | assumption
    | rfl
    | apply State.setClk_keeps

theorem State.restartForeman_keeps {σ₀ σ : State} (hk : Keeps σ₀ σ) (b trial : Bool) :
    Keeps σ₀ (State.restartForeman σ b trial) := by
  unfold State.restartForeman
  try dsimp only
  repeat' first
    | with_reducible assumption
    | with_reducible apply State.modGlb_keeps
    | with_reducible apply State.logEvt_keeps
    | intro _
    | with_reducible split
    | assumption
    | rfl
    | apply State.modGlb_keeps
    | apply State.logEvt_keeps

theorem State.surgeCycle_keeps {σ₀ σ : State} (hk : Keeps σ₀ σ)  :
    Keeps σ₀ (State.surgeCycle σ) := by
  unfold State.surgeCycle
  try dsimp only
  repeat' first
    | with_reducible assumption
    | intro _
    | with_reducible split
    | assumption
    | rfl

theorem State.nextBucket_keeps {σ₀ σ : State} (hk : Keeps σ₀ σ)  :
    Keeps σ₀ (State.nextBucket σ) := by
  unfold State.nextBucket
  try dsimp only
  repeat' first
    | with_reducible assumption
    | intro _
    | with_reducible split
    | assumption
    | rfl

end Sys2Proof.Machine
end

