-- ==== Sys2Proof/Laws/KeepsDresser.lean ====
section
/-! SUPPORT. What the operations of `Machine/Dresser.lean` keep (`Keeps`). -/

namespace Sys2Proof.Machine

set_option linter.all false

theorem State.modXrun_keeps {σ₀ σ : State} (hk : Keeps σ₀ σ) (e : Nat) (f : XRun → XRun) :
    Keeps σ₀ (State.modXrun σ e f) := by
  unfold State.modXrun
  try dsimp only
  repeat' first
    | with_reducible assumption
    | intro _
    | with_reducible split
    | assumption
    | rfl

theorem State.unitStrike_keeps {σ₀ σ : State} (hk : Keeps σ₀ σ) (kind n : Nat) (e : Option Nat) (unrecoverable : Bool) :
    Keeps σ₀ (State.unitStrike σ kind n e unrecoverable) := by
  unfold State.unitStrike
  extract_lets u mark second s1
  have hk_s1 : Keeps σ₀ s1 := by
    dsimp only [s1]
    repeat' first
      | with_reducible assumption
      | with_reducible apply State.modUnit_keeps
      | with_reducible apply State.retireUnit_keeps
      | intro _
      | with_reducible split
      | assumption
      | rfl
      | apply State.modUnit_keeps
      | apply State.retireUnit_keeps
  clear_value s1
  try dsimp only
  repeat' first
    | with_reducible assumption
    | with_reducible apply State.modUnit_keeps
    | with_reducible apply State.retireUnit_keeps
    | intro _
    | with_reducible split
    | assumption
    | rfl
    | apply State.modUnit_keeps
    | apply State.retireUnit_keeps

theorem State.issue_keeps {σ₀ σ : State} (hk : Keeps σ₀ σ) (ws : List (Nat × LineWrite)) :
    Keeps σ₀ (State.issue σ ws) := by
  unfold State.issue
  try dsimp only
  repeat' first
    | with_reducible assumption
    | with_reducible apply State.handOut_keeps
    | with_reducible apply Keeps.foldl
    | with_reducible apply Keeps.foldlFst
    | intro _
    | with_reducible split
    | assumption
    | rfl
    | apply State.handOut_keeps

theorem State.holdWrites_keeps {σ₀ σ : State} (hk : Keeps σ₀ σ) (e slab : Nat) (ws : List (Nat × LineWrite)) :
    Keeps σ₀ (State.holdWrites σ e slab ws) := by
  unfold State.holdWrites
  try dsimp only
  repeat' first
    | with_reducible assumption
    | intro _
    | with_reducible split
    | assumption
    | rfl

theorem State.countSlab_keeps {σ₀ σ : State} (hk : Keeps σ₀ σ) (e : Nat) (guarded : Bool) (frozen : Nat) :
    Keeps σ₀ (State.countSlab σ e guarded frozen) := by
  unfold State.countSlab
  extract_lets s1
  have hk_s1 : Keeps σ₀ s1 := by
    dsimp only [s1]
    repeat' first
      | with_reducible assumption
      | with_reducible apply State.modCut_keeps
      | with_reducible apply State.orFlags_keeps
      | intro _
      | with_reducible split
      | assumption
      | rfl
      | apply State.modCut_keeps
      | apply State.orFlags_keeps
  clear_value s1
  try dsimp only
  repeat' first
    | with_reducible assumption
    | with_reducible apply State.modCut_keeps
    | with_reducible apply State.orFlags_keeps
    | intro _
    | with_reducible split
    | assumption
    | rfl
    | apply State.modCut_keeps
    | apply State.orFlags_keeps

theorem State.endSlab_keeps {σ₀ σ : State} (hk : Keeps σ₀ σ) (e d slab : Nat) :
    Keeps σ₀ (State.endSlab σ e d slab) := by
  unfold State.endSlab
  try dsimp only
  repeat' first
    | with_reducible assumption
    | with_reducible apply State.modUnit_keeps
    | with_reducible apply State.itemDone_keeps
    | intro _
    | with_reducible split
    | assumption
    | rfl
    | apply State.modUnit_keeps
    | apply State.itemDone_keeps

theorem State.slabDone_keeps {σ₀ σ : State} (hk : Keeps σ₀ σ) (e d slab : Nat) (elems : List DressElem) :
    Keeps σ₀ (State.slabDone σ e d slab elems) := by
  unfold State.slabDone
  try dsimp only
  repeat' first
    | with_reducible assumption
    | with_reducible apply State.orFlags_keeps
    | with_reducible apply State.countSlab_keeps
    | with_reducible apply State.holdWrites_keeps
    | with_reducible apply State.modUnit_keeps
    | with_reducible apply State.issue_keeps
    | with_reducible apply State.endSlab_keeps
    | with_reducible apply Keeps.foldl
    | with_reducible apply Keeps.foldlFst
    | intro _
    | with_reducible split
    | assumption
    | rfl
    | apply State.orFlags_keeps
    | apply State.countSlab_keeps
    | apply State.holdWrites_keeps
    | apply State.modUnit_keeps
    | apply State.issue_keeps
    | apply State.endSlab_keeps

theorem State.slabFault_keeps {σ₀ σ : State} (hk : Keeps σ₀ σ) (e d slab : Nat) (dresser : Bool) :
    Keeps σ₀ (State.slabFault σ e d slab dresser) := by
  unfold State.slabFault
  try dsimp only
  repeat' first
    | with_reducible assumption
    | with_reducible apply State.orFlags_keeps
    | with_reducible apply State.setStatus_keeps
    | with_reducible apply State.unitStrike_keeps
    | with_reducible apply State.modCut_keeps
    | with_reducible apply State.halt_keeps
    | intro _
    | with_reducible split
    | assumption
    | rfl
    | apply State.orFlags_keeps
    | apply State.setStatus_keeps
    | apply State.unitStrike_keeps
    | apply State.modCut_keeps
    | apply State.halt_keeps

theorem State.issueHeld_keeps {σ₀ σ : State} (hk : Keeps σ₀ σ) (x : HeldWrite) :
    Keeps σ₀ (State.issueHeld σ x) := by
  unfold State.issueHeld
  extract_lets s1
  have hk_s1 : Keeps σ₀ s1 := by
    dsimp only [s1]
    repeat' first
      | with_reducible assumption
      | with_reducible apply State.issue_keeps
      | with_reducible apply State.modCut_keeps
      | with_reducible apply State.endSlab_keeps
      | with_reducible apply State.itemDone_keeps
      | with_reducible apply State.modXrun_keeps
      | intro _
      | with_reducible split
      | assumption
      | rfl
      | apply State.issue_keeps
      | apply State.modCut_keeps
      | apply State.endSlab_keeps
      | apply State.itemDone_keeps
      | apply State.modXrun_keeps
  clear_value s1
  try dsimp only
  repeat' first
    | with_reducible assumption
    | with_reducible apply State.issue_keeps
    | with_reducible apply State.modCut_keeps
    | with_reducible apply State.endSlab_keeps
    | with_reducible apply State.itemDone_keeps
    | with_reducible apply State.modXrun_keeps
    | intro _
    | with_reducible split
    | assumption
    | rfl
    | apply State.issue_keeps
    | apply State.modCut_keeps
    | apply State.endSlab_keeps
    | apply State.itemDone_keeps
    | apply State.modXrun_keeps

theorem State.issueAllHeld_keeps {σ₀ σ : State} (hk : Keeps σ₀ σ)  :
    Keeps σ₀ (State.issueAllHeld σ) := by
  unfold State.issueAllHeld
  try dsimp only
  repeat' first
    | with_reducible assumption
    | with_reducible apply State.issueHeld_keeps
    | with_reducible apply Keeps.foldl
    | with_reducible apply Keeps.foldlFst
    | intro _
    | with_reducible split
    | assumption
    | rfl
    | apply State.issueHeld_keeps

theorem State.drainWaitEnd_keeps {σ₀ σ : State} (hk : Keeps σ₀ σ) (e slab : Nat) :
    Keeps σ₀ (State.drainWaitEnd σ e slab) := by
  unfold State.drainWaitEnd
  try dsimp only
  repeat' first
    | with_reducible assumption
    | with_reducible apply State.issueHeld_keeps
    | with_reducible apply Keeps.foldl
    | with_reducible apply Keeps.foldlFst
    | intro _
    | with_reducible split
    | assumption
    | rfl
    | apply State.issueHeld_keeps

end Sys2Proof.Machine
end

