-- ==== Sys2Proof/Laws/KeepsReduce.lean ====
section
/-! SUPPORT. What the operations of `Machine/Reduce.lean` keep (`Keeps`). -/

namespace Sys2Proof.Machine

set_option linter.all false

theorem State.pushTx_keeps {σ₀ σ : State} (hk : Keeps σ₀ σ) (p vc e : Nat) (bs : List Byte) (tail : Bool) :
    Keeps σ₀ (State.pushTx σ p vc e bs tail) := by
  unfold State.pushTx
  try dsimp only
  repeat' first
    | with_reducible assumption
    | with_reducible apply State.modPort_keeps
    | intro _
    | with_reducible split
    | assumption
    | rfl
    | apply State.modPort_keeps

theorem State.countEncode_keeps {σ₀ σ : State} (hk : Keeps σ₀ σ) (e : Nat) (bs : List (Nat × List Coded)) :
    Keeps σ₀ (State.countEncode σ e bs) := by
  unfold State.countEncode
  try dsimp only
  repeat' first
    | with_reducible assumption
    | with_reducible apply State.modCut_keeps
    | with_reducible apply State.orFlags_keeps
    | intro _
    | with_reducible split
    | assumption
    | rfl
    | apply State.modCut_keeps
    | apply State.orFlags_keeps

theorem State.finishTail_keeps {σ₀ σ : State} (hk : Keeps σ₀ σ) (e slab : Nat) :
    Keeps σ₀ (State.finishTail σ e slab) := by
  unfold State.finishTail
  try dsimp only
  repeat' first
    | with_reducible assumption
    | with_reducible apply State.orFlags_keeps
    | with_reducible apply State.holdWrites_keeps
    | with_reducible apply State.modXrun_keeps
    | with_reducible apply State.issue_keeps
    | intro _
    | with_reducible split
    | assumption
    | rfl
    | apply State.orFlags_keeps
    | apply State.holdWrites_keeps
    | apply State.modXrun_keeps
    | apply State.issue_keeps

theorem State.sendUp_keeps {σ₀ σ : State} (hk : Keeps σ₀ σ) (e slab : Nat) (blocks : List (Nat × List Nat)) :
    Keeps σ₀ (State.sendUp σ e slab blocks) := by
  unfold State.sendUp
  try dsimp only
  repeat' first
    | with_reducible assumption
    | with_reducible apply State.pushTx_keeps
    | intro _
    | with_reducible split
    | assumption
    | rfl
    | apply State.pushTx_keeps

theorem State.sendDown_keeps {σ₀ σ : State} (hk : Keeps σ₀ σ) (e slab : Nat) (blocks : List (Nat × List Nat)) :
    Keeps σ₀ (State.sendDown σ e slab blocks) := by
  unfold State.sendDown
  try dsimp only
  repeat' first
    | with_reducible assumption
    | with_reducible apply State.pushTx_keeps
    | with_reducible apply Keeps.foldl
    | with_reducible apply Keeps.foldlFst
    | intro _
    | with_reducible split
    | assumption
    | rfl
    | apply State.pushTx_keeps

theorem State.addDown_keeps {σ₀ σ : State} (hk : Keeps σ₀ σ) (e slab scale : Nat) (blocks : List (Nat × List Nat)) :
    Keeps σ₀ (State.addDown σ e slab scale blocks) := by
  unfold State.addDown
  try dsimp only
  repeat' first
    | with_reducible assumption
    | with_reducible apply State.modXrun_keeps
    | intro _
    | with_reducible split
    | assumption
    | rfl
    | apply State.modXrun_keeps

theorem State.emit_keeps {σ₀ σ : State} (hk : Keeps σ₀ σ) (e slab ew : Nat) (bs : List (Nat × List Coded)) :
    Keeps σ₀ (State.emit σ e slab ew bs) := by
  unfold State.emit
  extract_lets codes s1
  have hk_s1 : Keeps σ₀ s1 := by
    dsimp only [s1]
    repeat' first
      | with_reducible assumption
      | with_reducible apply State.countEncode_keeps
      | with_reducible apply State.sendDown_keeps
      | with_reducible apply State.addDown_keeps
      | with_reducible apply State.sendUp_keeps
      | intro _
      | with_reducible split
      | assumption
      | rfl
      | apply State.countEncode_keeps
      | apply State.sendDown_keeps
      | apply State.addDown_keeps
      | apply State.sendUp_keeps
  clear_value s1
  try dsimp only
  repeat' first
    | with_reducible assumption
    | with_reducible apply State.countEncode_keeps
    | with_reducible apply State.sendDown_keeps
    | with_reducible apply State.addDown_keeps
    | with_reducible apply State.sendUp_keeps
    | intro _
    | with_reducible split
    | assumption
    | rfl
    | apply State.countEncode_keeps
    | apply State.sendDown_keeps
    | apply State.addDown_keeps
    | apply State.sendUp_keeps

theorem State.contribute_keeps {σ₀ σ : State} (hk : Keeps σ₀ σ) (e slab : Nat) (child : Option Nat) (blocks : List (Nat × List Nat)) :
    Keeps σ₀ (State.contribute σ e slab child blocks) := by
  unfold State.contribute
  try dsimp only
  repeat' first
    | with_reducible assumption
    | with_reducible apply State.modXrun_keeps
    | with_reducible apply State.orFlags_keeps
    | intro _
    | with_reducible split
    | assumption
    | rfl
    | apply State.modXrun_keeps
    | apply State.orFlags_keeps

theorem State.selectorSlab_keeps {σ₀ σ : State} (hk : Keeps σ₀ σ) (e slab : Nat) (evicted : List Nat) :
    Keeps σ₀ (State.selectorSlab σ e slab evicted) := by
  unfold State.selectorSlab
  try dsimp only
  repeat' first
    | with_reducible assumption
    | with_reducible apply State.orFlags_keeps
    | with_reducible apply State.modXrun_keeps
    | with_reducible apply State.modUnit_keeps
    | with_reducible apply State.emit_keeps
    | with_reducible apply State.finishTail_keeps
    | with_reducible apply State.contribute_keeps
    | with_reducible apply Keeps.foldl
    | with_reducible apply Keeps.foldlFst
    | intro _
    | with_reducible split
    | assumption
    | rfl
    | apply State.orFlags_keeps
    | apply State.modXrun_keeps
    | apply State.modUnit_keeps
    | apply State.emit_keeps
    | apply State.finishTail_keeps
    | apply State.contribute_keeps

theorem State.feedN_keeps {σ₀ σ : State} (hk : Keeps σ₀ σ) (p vc k : Nat) :
    Keeps σ₀ (State.feedN σ p vc k) := by
  induction k generalizing σ with
  | zero => exact hk
  | succ k ih =>
    unfold State.feedN
    extract_lets ch
    split
    · exact hk
    · split
      · split
        · split
          · exact State.modPort_keeps hk _ _
          · exact hk
        · extract_lets r s1
          have h1 : Keeps σ₀ s1 := State.modPort_keeps hk _ _
          clear_value s1
          split
          · exact ih (State.addDown_keeps h1 _ _ _ _)
          · split
            · exact ih (State.contribute_keeps h1 _ _ _ _)
            · exact hk
      · exact hk

theorem State.feed_keeps {σ₀ σ : State} (hk : Keeps σ₀ σ) (p vc : Nat) : Keeps σ₀ (State.feed σ p vc) :=
  State.feedN_keeps hk _ _ _

theorem State.feedCut_keeps {σ₀ σ : State} (hk : Keeps σ₀ σ) (e : Nat) :
    Keeps σ₀ (State.feedCut σ e) := by
  unfold State.feedCut
  try dsimp only
  repeat' first
    | with_reducible assumption
    | with_reducible apply State.feed_keeps
    | with_reducible apply Keeps.foldl
    | with_reducible apply Keeps.foldlFst
    | intro _
    | with_reducible split
    | assumption
    | rfl
    | apply State.feed_keeps

theorem State.mergeComplete_keeps {σ₀ σ : State} (hk : Keeps σ₀ σ) (e slab : Nat) :
    Keeps σ₀ (State.mergeComplete σ e slab) := by
  unfold State.mergeComplete
  try dsimp only
  repeat' first
    | with_reducible assumption
    | with_reducible apply State.emit_keeps
    | with_reducible apply State.modXrun_keeps
    | with_reducible apply State.finishTail_keeps
    | with_reducible apply State.feedCut_keeps
    | intro _
    | with_reducible split
    | assumption
    | rfl
    | apply State.emit_keeps
    | apply State.modXrun_keeps
    | apply State.finishTail_keeps
    | apply State.feedCut_keeps

theorem State.writeResult_keeps {σ₀ σ : State} (hk : Keeps σ₀ σ) (base slabs : Nat) (d : DownSlab) :
    Keeps σ₀ (State.writeResult σ base slabs d) := by
  unfold State.writeResult
  extract_lets s1
  have hk_s1 : Keeps σ₀ s1 := by
    dsimp only [s1]
    repeat' first
      | with_reducible assumption
      | with_reducible apply State.putYard_keeps
      | with_reducible apply Keeps.foldl
      | with_reducible apply Keeps.foldlFst
      | intro _
      | with_reducible split
      | assumption
      | rfl
      | apply State.putYard_keeps
  clear_value s1
  try dsimp only
  repeat' first
    | with_reducible assumption
    | with_reducible apply State.putYard_keeps
    | with_reducible apply Keeps.foldl
    | with_reducible apply Keeps.foldlFst
    | intro _
    | with_reducible split
    | assumption
    | rfl
    | apply State.putYard_keeps

theorem State.writeScale_keeps {σ₀ σ : State} (hk : Keeps σ₀ σ) (e slab code : Nat) :
    Keeps σ₀ (State.writeScale σ e slab code) := by
  unfold State.writeScale
  try dsimp only
  repeat' first
    | with_reducible assumption
    | with_reducible apply State.issue_keeps
    | intro _
    | with_reducible split
    | assumption
    | rfl
    | apply State.issue_keeps

theorem State.resultDeliver_keeps {σ₀ σ : State} (hk : Keeps σ₀ σ) (e slab : Nat) :
    Keeps σ₀ (State.resultDeliver σ e slab) := by
  unfold State.resultDeliver
  try dsimp only
  repeat' first
    | with_reducible assumption
    | with_reducible apply State.writeResult_keeps
    | with_reducible apply State.writeScale_keeps
    | with_reducible apply State.modCut_keeps
    | with_reducible apply State.sendDown_keeps
    | with_reducible apply State.modXrun_keeps
    | with_reducible apply State.itemDone_keeps
    | with_reducible apply State.feedCut_keeps
    | intro _
    | with_reducible split
    | assumption
    | rfl
    | apply State.writeResult_keeps
    | apply State.writeScale_keeps
    | apply State.modCut_keeps
    | apply State.sendDown_keeps
    | apply State.modXrun_keeps
    | apply State.itemDone_keeps
    | apply State.feedCut_keeps

end Sys2Proof.Machine
end

