-- ==== Sys2Proof/Laws/KeepsLink.lean ====
section
/-! SUPPORT. What the operations of `Machine/Link.lean` keep (`Keeps`). -/

namespace Sys2Proof.Machine

set_option linter.all false

theorem State.sendCtl_keeps {σ₀ σ : State} (hk : Keeps σ₀ σ) (p : Nat) (msg : List Byte) :
    Keeps σ₀ (State.sendCtl σ p msg) := by
  unfold State.sendCtl
  try dsimp only
  repeat' first
    | with_reducible assumption
    | with_reducible apply State.modPort_keeps
    | intro _
    | with_reducible split
    | assumption
    | rfl
    | apply State.modPort_keeps

theorem State.setPort_keeps {σ₀ σ : State} (hk : Keeps σ₀ σ) (p : Nat) (st : PortState) :
    Keeps σ₀ (State.setPort σ p st) := by
  unfold State.setPort
  try dsimp only
  repeat' first
    | with_reducible assumption
    | with_reducible apply State.modPort_keeps
    | with_reducible apply State.logEvt_keeps
    | intro _
    | with_reducible split
    | assumption
    | rfl
    | apply State.modPort_keeps
    | apply State.logEvt_keeps

theorem State.loseCut_keeps {σ₀ σ : State} (hk : Keeps σ₀ σ) (e p : Nat) (msg : List Byte) :
    Keeps σ₀ (State.loseCut σ e p msg) := by
  unfold State.loseCut
  extract_lets ports s1 s2
  have hk_s1 : Keeps σ₀ s1 := by
    dsimp only [s1]
    repeat' first
      | with_reducible assumption
      | with_reducible apply State.sendCtl_keeps
      | with_reducible apply State.modPort_keeps
      | with_reducible apply State.breakCut_keeps
      | with_reducible apply Keeps.foldl
      | with_reducible apply Keeps.foldlFst
      | intro _
      | with_reducible split
      | assumption
      | rfl
      | apply State.sendCtl_keeps
      | apply State.modPort_keeps
      | apply State.breakCut_keeps
  clear_value s1
  have hk_s2 : Keeps σ₀ s2 := by
    dsimp only [s2]
    repeat' first
      | with_reducible assumption
      | with_reducible apply State.sendCtl_keeps
      | with_reducible apply State.modPort_keeps
      | with_reducible apply State.breakCut_keeps
      | with_reducible apply Keeps.foldl
      | with_reducible apply Keeps.foldlFst
      | intro _
      | with_reducible split
      | assumption
      | rfl
      | apply State.sendCtl_keeps
      | apply State.modPort_keeps
      | apply State.breakCut_keeps
  clear_value s2
  try dsimp only
  repeat' first
    | with_reducible assumption
    | with_reducible apply State.sendCtl_keeps
    | with_reducible apply State.modPort_keeps
    | with_reducible apply State.breakCut_keeps
    | with_reducible apply Keeps.foldl
    | with_reducible apply Keeps.foldlFst
    | intro _
    | with_reducible split
    | assumption
    | rfl
    | apply State.sendCtl_keeps
    | apply State.modPort_keeps
    | apply State.breakCut_keeps

theorem State.resend_keeps {σ₀ σ : State} (hk : Keeps σ₀ σ) (p : Nat) :
    Keeps σ₀ (State.resend σ p) := by
  unfold State.resend
  try dsimp only
  repeat' first
    | with_reducible assumption
    | with_reducible apply State.modCut_keeps
    | with_reducible apply Keeps.foldl
    | with_reducible apply Keeps.foldlFst
    | intro _
    | with_reducible split
    | assumption
    | rfl
    | apply State.modCut_keeps

theorem State.headerLoss_keeps {σ₀ σ : State} (hk : Keeps σ₀ σ) (p : Nat) :
    Keeps σ₀ (State.headerLoss σ p) := by
  unfold State.headerLoss
  try dsimp only
  repeat' first
    | with_reducible assumption
    | with_reducible apply State.loseCut_keeps
    | with_reducible apply Keeps.foldl
    | with_reducible apply Keeps.foldlFst
    | intro _
    | with_reducible split
    | assumption
    | rfl
    | apply State.loseCut_keeps
    | apply Keeps.foldl
    | apply Keeps.foldlFst

theorem State.portLoss_keeps {σ₀ σ : State} (hk : Keeps σ₀ σ) (p : Nat) :
    Keeps σ₀ (State.portLoss σ p) := by
  unfold State.portLoss
  try dsimp only
  repeat' first
    | with_reducible assumption
    | with_reducible apply State.resend_keeps
    | with_reducible apply State.loseCut_keeps
    | with_reducible apply Keeps.foldl
    | with_reducible apply Keeps.foldlFst
    | intro _
    | with_reducible split
    | assumption
    | rfl
    | apply State.resend_keeps
    | apply State.loseCut_keeps

theorem State.portDown_keeps {σ₀ σ : State} (hk : Keeps σ₀ σ) (p : Nat) :
    Keeps σ₀ (State.portDown σ p) := by
  unfold State.portDown
  try dsimp only
  repeat' first
    | with_reducible assumption
    | with_reducible apply State.portLoss_keeps
    | with_reducible apply State.setPort_keeps
    | with_reducible apply State.modPort_keeps
    | intro _
    | with_reducible split
    | assumption
    | rfl
    | apply State.portLoss_keeps
    | apply State.setPort_keeps
    | apply State.modPort_keeps

theorem State.retrain_keeps {σ₀ σ : State} (hk : Keeps σ₀ σ) (p : Nat) :
    Keeps σ₀ (State.retrain σ p) := by
  unfold State.retrain
  try dsimp only
  repeat' first
    | with_reducible assumption
    | with_reducible apply State.modPort_keeps
    | with_reducible apply State.setPort_keeps
    | intro _
    | with_reducible split
    | assumption
    | rfl
    | apply State.modPort_keeps
    | apply State.setPort_keeps

theorem State.countRetry_keeps {σ₀ σ : State} (hk : Keeps σ₀ σ) (p : Nat) :
    Keeps σ₀ (State.countRetry σ p) := by
  unfold State.countRetry
  extract_lets times s1
  have hk_s1 : Keeps σ₀ s1 := by
    dsimp only [s1]
    repeat' first
      | with_reducible assumption
      | with_reducible apply State.modPort_keeps
      | with_reducible apply State.healthEvent_keeps
      | with_reducible apply State.retrain_keeps
      | intro _
      | with_reducible split
      | assumption
      | rfl
      | apply State.modPort_keeps
      | apply State.healthEvent_keeps
      | apply State.retrain_keeps
  clear_value s1
  try dsimp only
  repeat' first
    | with_reducible assumption
    | with_reducible apply State.modPort_keeps
    | with_reducible apply State.healthEvent_keeps
    | with_reducible apply State.retrain_keeps
    | intro _
    | with_reducible split
    | assumption
    | rfl
    | apply State.modPort_keeps
    | apply State.healthEvent_keeps
    | apply State.retrain_keeps

theorem State.retryRepeat_keeps {σ₀ σ : State} (hk : Keeps σ₀ σ) (p : Nat) :
    Keeps σ₀ (State.retryRepeat σ p) := by
  unfold State.retryRepeat
  try dsimp only
  repeat' first
    | with_reducible assumption
    | with_reducible apply State.modPort_keeps
    | intro _
    | with_reducible split
    | assumption
    | rfl
    | apply State.modPort_keeps

theorem State.putFrame_keeps {σ₀ σ : State} (hk : Keeps σ₀ σ) (p vc type : Nat) (tail : Bool) (seq : Nat) (payload : List Byte) :
    Keeps σ₀ (State.putFrame σ p vc type tail seq payload) := by
  unfold State.putFrame
  try dsimp only
  repeat' first
    | with_reducible assumption
    | with_reducible apply State.modPort_keeps
    | intro _
    | with_reducible split
    | assumption
    | rfl
    | apply State.modPort_keeps

theorem State.sendNew_keeps {σ₀ σ : State} (hk : Keeps σ₀ σ) (p vc type : Nat) (tail : Bool) (payload : List Byte) :
    Keeps σ₀ (State.sendNew σ p vc type tail payload) := by
  unfold State.sendNew
  try dsimp only
  repeat' first
    | with_reducible assumption
    | with_reducible apply State.putFrame_keeps
    | with_reducible apply State.modPort_keeps
    | intro _
    | with_reducible split
    | assumption
    | rfl
    | apply State.putFrame_keeps
    | apply State.modPort_keeps

theorem State.sendData_keeps {σ₀ σ : State} (hk : Keeps σ₀ σ) (p v : Nat) :
    Keeps σ₀ (State.sendData σ p v) := by
  unfold State.sendData
  try dsimp only
  repeat' first
    | with_reducible assumption
    | with_reducible apply State.modPort_keeps
    | with_reducible apply State.sendNew_keeps
    | with_reducible apply State.sweepA_keeps
    | intro _
    | with_reducible split
    | assumption
    | rfl
    | apply State.modPort_keeps
    | apply State.sendNew_keeps
    | apply State.sweepA_keeps

theorem State.frameSend_keeps {σ₀ σ : State} (hk : Keeps σ₀ σ) (p : Nat) :
    Keeps σ₀ (State.frameSend σ p) := by
  unfold State.frameSend
  try dsimp only
  repeat' first
    | with_reducible assumption
    | with_reducible apply State.putFrame_keeps
    | with_reducible apply State.modPort_keeps
    | with_reducible apply State.countRetry_keeps
    | with_reducible apply State.resend_keeps
    | with_reducible apply State.sendNew_keeps
    | with_reducible apply State.sendData_keeps
    | intro _
    | with_reducible split
    | assumption
    | rfl
    | apply State.putFrame_keeps
    | apply State.modPort_keeps
    | apply State.countRetry_keeps
    | apply State.resend_keeps
    | apply State.sendNew_keeps
    | apply State.sendData_keeps

theorem State.checkUp_keeps {σ₀ σ : State} (hk : Keeps σ₀ σ) (p : Nat) :
    Keeps σ₀ (State.checkUp σ p) := by
  unfold State.checkUp
  try dsimp only
  repeat' first
    | with_reducible assumption
    | with_reducible apply State.setPort_keeps
    | intro _
    | with_reducible split
    | assumption
    | rfl
    | apply State.setPort_keeps

theorem State.takeAck_keeps {σ₀ σ : State} (hk : Keeps σ₀ σ) (p : Nat) (f : FrameView) :
    Keeps σ₀ (State.takeAck σ p f) := by
  unfold State.takeAck
  try dsimp only
  repeat' first
    | with_reducible assumption
    | with_reducible apply State.modPort_keeps
    | with_reducible apply State.resend_keeps
    | with_reducible apply State.checkUp_keeps
    | intro _
    | with_reducible split
    | assumption
    | rfl
    | apply State.modPort_keeps
    | apply State.resend_keeps
    | apply State.checkUp_keeps

theorem State.takeData_keeps {σ₀ σ : State} (hk : Keeps σ₀ σ) (p : Nat) (f : FrameView) :
    Keeps σ₀ (State.takeData σ p f) := by
  unfold State.takeData
  try dsimp only
  repeat' first
    | with_reducible assumption
    | with_reducible apply State.modPort_keeps
    | with_reducible apply State.feed_keeps
    | intro _
    | with_reducible split
    | assumption
    | rfl
    | apply State.modPort_keeps
    | apply State.feed_keeps

theorem State.discardFrame_keeps {σ₀ σ : State} (hk : Keeps σ₀ σ) (p : Nat) :
    Keeps σ₀ (State.discardFrame σ p) := by
  unfold State.discardFrame
  try dsimp only
  repeat' first
    | with_reducible assumption
    | with_reducible apply State.modPort_keeps
    | intro _
    | with_reducible split
    | assumption
    | rfl
    | apply State.modPort_keeps

theorem State.frameReceive_keeps {σ₀ σ : State} (hk : Keeps σ₀ σ) (p : Nat) (bytes : List Byte) :
    Keeps σ₀ (State.frameReceive σ p bytes) := by
  unfold State.frameReceive
  try dsimp only
  repeat' first
    | with_reducible assumption
    | with_reducible apply State.discardFrame_keeps
    | with_reducible apply State.modPort_keeps
    | with_reducible apply State.takeAck_keeps
    | with_reducible apply State.takeData_keeps
    | with_reducible apply State.healthEvent_keeps
    | with_reducible apply State.resend_keeps
    | intro _
    | with_reducible split
    | assumption
    | rfl
    | apply State.discardFrame_keeps
    | apply State.modPort_keeps
    | apply State.takeAck_keeps
    | apply State.takeData_keeps
    | apply State.healthEvent_keeps
    | apply State.resend_keeps

theorem State.retrainDone_keeps {σ₀ σ : State} (hk : Keeps σ₀ σ) (p : Nat) (ok : Bool) :
    Keeps σ₀ (State.retrainDone σ p ok) := by
  unfold State.retrainDone
  try dsimp only
  repeat' first
    | with_reducible assumption
    | with_reducible apply State.modPort_keeps
    | with_reducible apply State.healthEvent_keeps
    | with_reducible apply State.resend_keeps
    | with_reducible apply State.portDown_keeps
    | intro _
    | with_reducible split
    | assumption
    | rfl
    | apply State.modPort_keeps
    | apply State.healthEvent_keeps
    | apply State.resend_keeps
    | apply State.portDown_keeps

theorem State.popCtl_keeps {σ₀ σ : State} (hk : Keeps σ₀ σ) (p kind : Nat) (x : List Byte × State)
    (h : State.popCtl σ p kind = some x) : Keeps σ₀ x.2 := by
  unfold State.popCtl at h
  split at h
  · split at h
    · cases h
      exact State.modPort_keeps hk _ _
    · cases h
  · cases h

theorem State.hello_keeps {σ₀ σ : State} (hk : Keeps σ₀ σ) (p : Nat) : Keeps σ₀ (State.hello σ p) := by
  unfold State.hello
  split
  · rename_i m s1 t hp _
    have h1 : Keeps σ₀ s1 := State.popCtl_keeps hk _ _ _ hp
    clear hp
    extract_lets id s2 s3
    have h2 : Keeps σ₀ s2 := State.modPort_keeps h1 _ _
    clear_value s2
    split
    · have h3 : Keeps σ₀ s3 := State.modPort_keeps h2 _ _
      clear_value s3
      apply State.checkUp_keeps
      split
      · exact State.setPort_keeps h3 _ _
      · exact h3
    · exact State.logEvt_keeps (State.setPort_keeps (State.setEvt_keeps (State.modPort_keeps h2 _ _) _) _ _) _ _ _
  · exact hk

theorem State.closePort_keeps {σ₀ σ : State} (hk : Keeps σ₀ σ) (p : Nat) : Keeps σ₀ (State.closePort σ p) := by
  unfold State.closePort
  split
  · rename_i hp
    exact State.portDown_keeps (State.popCtl_keeps hk _ _ _ hp) _
  · exact hk

theorem State.brokenPort_keeps {σ₀ σ : State} (hk : Keeps σ₀ σ) (p : Nat) : Keeps σ₀ (State.brokenPort σ p) := by
  unfold State.brokenPort
  split
  · rename_i hp
    exact Keeps.foldl (State.popCtl_keeps hk _ _ _ hp) _ _ (fun b x hb => State.loseCut_keeps hb _ _ _)
  · exact hk

theorem State.streamHead_keeps {σ₀ σ : State} (hk : Keeps σ₀ σ) (p vc : Nat) :
    Keeps σ₀ (State.streamHead σ p vc) := by
  unfold State.streamHead
  try dsimp only
  repeat' first
    | with_reducible assumption
    | with_reducible apply State.modXrun_keeps
    | with_reducible apply State.modPort_keeps
    | with_reducible apply State.feed_keeps
    | with_reducible apply State.headerLoss_keeps
    | intro _
    | with_reducible split
    | assumption
    | rfl
    | apply State.modXrun_keeps
    | apply State.modPort_keeps
    | apply State.feed_keeps
    | apply State.headerLoss_keeps

end Sys2Proof.Machine
end

