-- ==== Sys2Proof/Laws/KeepsModules.lean ====
section
/-! SUPPORT. What the operations of `Machine/Modules.lean` keep (`Keeps`). -/

namespace Sys2Proof.Machine

set_option linter.all false

theorem State.logModule_keeps {σ₀ σ : State} (hk : Keeps σ₀ σ) (p event arg : Nat) :
    Keeps σ₀ (State.logModule σ p event arg) := by
  unfold State.logModule
  try dsimp only
  repeat' first
    | with_reducible assumption
    | with_reducible apply State.logEvt_keeps
    | intro _
    | with_reducible split
    | assumption
    | rfl
    | apply State.logEvt_keeps

theorem State.movePlan_keeps {σ₀ σ : State} (hk : Keeps σ₀ σ) (k eff : Nat) (pl : Plan) (p : Nat) :
    Keeps σ₀ (State.movePlan σ k eff pl p) := by
  unfold State.movePlan
  extract_lets s1
  have hk_s1 : Keeps σ₀ s1 := by
    dsimp only [s1]
    repeat' first
      | with_reducible assumption
      | with_reducible apply State.logModule_keeps
      | with_reducible apply State.loseCut_keeps
      | with_reducible apply Keeps.foldl
      | with_reducible apply Keeps.foldlFst
      | intro _
      | with_reducible split
      | assumption
      | rfl
      | apply State.logModule_keeps
      | apply State.loseCut_keeps
  clear_value s1
  try dsimp only
  repeat' first
    | with_reducible assumption
    | with_reducible apply State.logModule_keeps
    | with_reducible apply State.loseCut_keeps
    | with_reducible apply Keeps.foldl
    | with_reducible apply Keeps.foldlFst
    | intro _
    | with_reducible split
    | assumption
    | rfl
    | apply State.logModule_keeps
    | apply State.loseCut_keeps

theorem State.movePlans_keeps {σ₀ σ : State} (hk : Keeps σ₀ σ) (p : Nat) :
    Keeps σ₀ (State.movePlans σ p) := by
  unfold State.movePlans
  try dsimp only
  repeat' first
    | with_reducible assumption
    | with_reducible apply State.logModule_keeps
    | with_reducible apply State.sendCtl_keeps
    | with_reducible apply State.movePlan_keeps
    | with_reducible apply Keeps.foldl
    | with_reducible apply Keeps.foldlFst
    | intro _
    | with_reducible split
    | assumption
    | rfl
    | apply State.logModule_keeps
    | apply State.sendCtl_keeps
    | apply State.movePlan_keeps

theorem State.move_keeps {σ₀ σ : State} (hk : Keeps σ₀ σ) (p : Nat) : Keeps σ₀ (State.move σ p) := by
  unfold State.move
  split
  · rename_i hp _
    have h1 := State.popCtl_keeps hk _ _ _ hp
    dsimp only at h1 ⊢
    apply Keeps.foldl h1
    intro b x hb
    split
    · apply State.movePlan_keeps
      exact Keeps.foldl hb _ _ (fun c y hc => State.sendCtl_keeps hc _ _)
    · exact hb
  · rename_i hp _
    exact State.popCtl_keeps hk _ _ _ hp
  · exact hk

theorem State.checkDrains_keeps {σ₀ σ : State} (hk : Keeps σ₀ σ)  :
    Keeps σ₀ (State.checkDrains σ) := by
  unfold State.checkDrains
  try dsimp only
  repeat' first
    | with_reducible assumption
    | with_reducible apply State.modPort_keeps
    | with_reducible apply State.setEvt_keeps
    | with_reducible apply State.logModule_keeps
    | with_reducible apply Keeps.foldl
    | with_reducible apply Keeps.foldlFst
    | intro _
    | with_reducible split
    | assumption
    | rfl
    | apply State.modPort_keeps
    | apply State.setEvt_keeps
    | apply State.logModule_keeps

theorem State.modModule_keeps {σ₀ σ : State} (hk : Keeps σ₀ σ) (p : Nat) (f : Module → Module) :
    Keeps σ₀ (State.modModule σ p f) := by
  unfold State.modModule
  try dsimp only
  repeat' first
    | with_reducible assumption
    | with_reducible apply State.modPort_keeps
    | intro _
    | with_reducible split
    | assumption
    | rfl
    | apply State.modPort_keeps

theorem State.flagModule_keeps {σ₀ σ : State} (hk : Keeps σ₀ σ) (p : Nat) :
    Keeps σ₀ (State.flagModule σ p) := by
  unfold State.flagModule
  try dsimp only
  repeat' first
    | with_reducible assumption
    | with_reducible apply State.modModule_keeps
    | with_reducible apply State.setEvt_keeps
    | with_reducible apply State.logModule_keeps
    | with_reducible apply State.movePlans_keeps
    | with_reducible apply State.checkDrains_keeps
    | intro _
    | with_reducible split
    | assumption
    | rfl
    | apply State.modModule_keeps
    | apply State.setEvt_keeps
    | apply State.logModule_keeps
    | apply State.movePlans_keeps
    | apply State.checkDrains_keeps

theorem State.retireLane_keeps {σ₀ σ : State} (hk : Keeps σ₀ σ) (p lane : Nat) :
    Keeps σ₀ (State.retireLane σ p lane) := by
  unfold State.retireLane
  try dsimp only
  repeat' first
    | with_reducible assumption
    | with_reducible apply State.modModule_keeps
    | with_reducible apply State.modSpare_keeps
    | with_reducible apply State.logRemap_keeps
    | with_reducible apply State.retrain_keeps
    | with_reducible apply State.flagModule_keeps
    | intro _
    | with_reducible split
    | assumption
    | rfl
    | apply State.modModule_keeps
    | apply State.modSpare_keeps
    | apply State.logRemap_keeps
    | apply State.retrain_keeps
    | apply State.flagModule_keeps

theorem State.modulePoll_keeps {σ₀ σ : State} (hk : Keeps σ₀ σ) (p : Nat) (fault warning : Bool) (lanes : List LaneReading) :
    Keeps σ₀ (State.modulePoll σ p fault warning lanes) := by
  unfold State.modulePoll
  try dsimp only
  repeat' first
    | with_reducible assumption
    | with_reducible apply State.modModule_keeps
    | with_reducible apply State.portDown_keeps
    | with_reducible apply State.retireLane_keeps
    | with_reducible apply State.flagModule_keeps
    | with_reducible apply Keeps.foldl
    | with_reducible apply Keeps.foldlFst
    | intro _
    | with_reducible split
    | assumption
    | rfl
    | apply State.modModule_keeps
    | apply State.portDown_keeps
    | apply State.retireLane_keeps
    | apply State.flagModule_keeps

theorem State.laneReport_keeps {σ₀ σ : State} (hk : Keeps σ₀ σ) (p : Nat) (r : LaneReport) :
    Keeps σ₀ (State.laneReport σ p r) := by
  unfold State.laneReport
  try dsimp only
  repeat' first
    | with_reducible assumption
    | with_reducible apply State.retrain_keeps
    | with_reducible apply State.retireLane_keeps
    | intro _
    | with_reducible split
    | assumption
    | rfl
    | apply State.retrain_keeps
    | apply State.retireLane_keeps

theorem State.moduleInsert_keeps {σ₀ σ : State} (hk : Keeps σ₀ σ) (p : Nat) (identity : List Byte) (suitable : Bool) :
    Keeps σ₀ (State.moduleInsert σ p identity suitable) := by
  unfold State.moduleInsert
  extract_lets enabled s1
  have hk_s1 : Keeps σ₀ s1 := by
    dsimp only [s1]
    repeat' first
      | with_reducible assumption
      | with_reducible apply State.modModule_keeps
      | with_reducible apply State.logModule_keeps
      | intro _
      | with_reducible split
      | assumption
      | rfl
      | apply State.modModule_keeps
      | apply State.logModule_keeps
  clear_value s1
  try dsimp only
  repeat' first
    | with_reducible assumption
    | with_reducible apply State.modModule_keeps
    | with_reducible apply State.logModule_keeps
    | intro _
    | with_reducible split
    | assumption
    | rfl
    | apply State.modModule_keeps
    | apply State.logModule_keeps

theorem State.moduleReady_keeps {σ₀ σ : State} (hk : Keeps σ₀ σ) (p : Nat) (bias : List Nat) :
    Keeps σ₀ (State.moduleReady σ p bias) := by
  unfold State.moduleReady
  try dsimp only
  repeat' first
    | with_reducible assumption
    | with_reducible apply State.modModule_keeps
    | with_reducible apply State.modSpare_keeps
    | with_reducible apply State.modPort_keeps
    | with_reducible apply State.retrain_keeps
    | intro _
    | with_reducible split
    | assumption
    | rfl
    | apply State.modModule_keeps
    | apply State.modSpare_keeps
    | apply State.modPort_keeps
    | apply State.retrain_keeps

theorem State.moduleTimeout_keeps {σ₀ σ : State} (hk : Keeps σ₀ σ) (p : Nat) :
    Keeps σ₀ (State.moduleTimeout σ p) := by
  unfold State.moduleTimeout
  try dsimp only
  repeat' first
    | with_reducible assumption
    | with_reducible apply State.modModule_keeps
    | with_reducible apply State.logModule_keeps
    | intro _
    | with_reducible split
    | assumption
    | rfl
    | apply State.modModule_keeps
    | apply State.logModule_keeps

theorem State.moduleRemove_keeps {σ₀ σ : State} (hk : Keeps σ₀ σ) (p : Nat) :
    Keeps σ₀ (State.moduleRemove σ p) := by
  unfold State.moduleRemove
  try dsimp only
  repeat' first
    | with_reducible assumption
    | with_reducible apply State.modModule_keeps
    | with_reducible apply State.logModule_keeps
    | with_reducible apply State.portDown_keeps
    | intro _
    | with_reducible split
    | assumption
    | rfl
    | apply State.modModule_keeps
    | apply State.logModule_keeps
    | apply State.portDown_keeps

end Sys2Proof.Machine
end

