-- ==== Sys2Proof/Laws/KeepsPower.lean ====
section
/-! SUPPORT. What the operations of `Machine/Power.lean` keep (`Keeps`). -/

namespace Sys2Proof.Machine

set_option linter.all false

theorem State.napExpire_keeps {σ₀ σ : State} (hk : Keeps σ₀ σ) (k : Nat) :
    Keeps σ₀ (State.napExpire σ k) := by
  unfold State.napExpire
  try dsimp only
  repeat' first
    | with_reducible assumption
    | with_reducible apply State.tileOff_keeps
    | with_reducible apply State.setClk_keeps
    | intro _
    | with_reducible split
    | assumption
    | rfl
    | apply State.tileOff_keeps
    | apply State.setClk_keeps

theorem State.offExpire_keeps {σ₀ σ : State} (hk : Keeps σ₀ σ) (k : Nat) :
    Keeps σ₀ (State.offExpire σ k) := by
  unfold State.offExpire
  try dsimp only
  repeat' first
    | with_reducible assumption
    | with_reducible apply State.tileOff_keeps
    | intro _
    | with_reducible split
    | assumption
    | rfl
    | apply State.tileOff_keeps

theorem State.giveModes_keeps {σ₀ σ : State} (hk : Keeps σ₀ σ) (n w : Nat) :
    Keeps σ₀ (State.giveModes σ n w) := by
  unfold State.giveModes
  try dsimp only
  repeat' first
    | with_reducible assumption
    | with_reducible apply State.modFace_keeps
    | intro _
    | with_reducible split
    | assumption
    | rfl
    | apply State.modFace_keeps

theorem State.faceWoken_keeps {σ₀ σ : State} (hk : Keeps σ₀ σ) (n : Nat) :
    Keeps σ₀ (State.faceWoken σ n) := by
  unfold State.faceWoken
  extract_lets s1
  have hk_s1 : Keeps σ₀ s1 := by
    dsimp only [s1]
    repeat' first
      | with_reducible assumption
      | with_reducible apply State.modFace_keeps
      | with_reducible apply State.giveModes_keeps
      | intro _
      | with_reducible split
      | assumption
      | rfl
      | apply State.modFace_keeps
      | apply State.giveModes_keeps
  clear_value s1
  try dsimp only
  repeat' first
    | with_reducible assumption
    | with_reducible apply State.modFace_keeps
    | with_reducible apply State.giveModes_keeps
    | intro _
    | with_reducible split
    | assumption
    | rfl
    | apply State.modFace_keeps
    | apply State.giveModes_keeps

theorem State.landTallies_keeps {σ₀ σ : State} (hk : Keeps σ₀ σ)  :
    Keeps σ₀ (State.landTallies σ) := by
  unfold State.landTallies
  try dsimp only
  repeat' first
    | with_reducible assumption
    | with_reducible apply State.tallyAdd_keeps
    | with_reducible apply Keeps.foldl
    | with_reducible apply Keeps.foldlFst
    | intro _
    | with_reducible split
    | assumption
    | rfl
    | apply State.tallyAdd_keeps

theorem State.endStalls_keeps {σ₀ σ : State} (hk : Keeps σ₀ σ) (k : Nat) :
    Keeps σ₀ (State.endStalls σ k) := by
  unfold State.endStalls
  try dsimp only
  repeat' first
    | with_reducible assumption
    | intro _
    | with_reducible split
    | assumption
    | rfl

theorem State.wakeDone_keeps {σ₀ σ : State} (hk : Keeps σ₀ σ) (k : Nat) :
    Keeps σ₀ (State.wakeDone σ k) := by
  unfold State.wakeDone
  try dsimp only
  repeat' first
    | with_reducible assumption
    | with_reducible apply State.setClk_keeps
    | with_reducible apply State.endStalls_keeps
    | with_reducible apply State.landTallies_keeps
    | with_reducible apply State.faceWoken_keeps
    | intro _
    | with_reducible split
    | assumption
    | rfl
    | apply State.setClk_keeps
    | apply State.endStalls_keeps
    | apply State.landTallies_keeps
    | apply State.faceWoken_keeps

theorem State.yardCleared_keeps {σ₀ σ : State} (hk : Keeps σ₀ σ) : Keeps σ₀ (State.yardCleared σ) := by
  unfold State.yardCleared
  split
  · exact State.checkReady_keeps (Keeps.yard hk _ (fun _ => rfl))
  · exact hk

theorem State.badWrite_keeps {σ₀ σ : State} (hk : Keeps σ₀ σ) (off v : Nat) :
    Keeps σ₀ (State.badWrite σ off v) := by
  unfold State.badWrite
  try dsimp only
  repeat' first
    | with_reducible assumption
    | with_reducible apply State.logEvt_keeps
    | intro _
    | with_reducible split
    | assumption
    | rfl
    | apply State.logEvt_keeps

theorem State.storeLedger_keeps {σ₀ σ : State} (hk : Keeps σ₀ σ)  :
    Keeps σ₀ (State.storeLedger σ) := by
  unfold State.storeLedger
  try dsimp only
  repeat' first
    | with_reducible assumption
    | intro _
    | with_reducible split
    | assumption
    | rfl

theorem State.sleepWrite_keeps {σ₀ σ : State} (hk : Keeps σ₀ σ) (level : Nat) :
    Keeps σ₀ (State.sleepWrite σ level) := by
  unfold State.sleepWrite
  try dsimp only
  repeat' first
    | with_reducible assumption
    | with_reducible apply State.badWrite_keeps
    | with_reducible apply State.modGlb_keeps
    | intro _
    | with_reducible split
    | assumption
    | rfl
    | apply State.badWrite_keeps
    | apply State.modGlb_keeps

theorem State.closeDown_keeps {σ₀ σ : State} (hk : Keeps σ₀ σ) (st : PortState → Bool) (p : Nat) :
    Keeps σ₀ (State.closeDown σ st p) := by
  unfold State.closeDown
  extract_lets q s1
  have hk_s1 : Keeps σ₀ s1 := by
    dsimp only [s1]
    repeat' first
      | with_reducible assumption
      | with_reducible apply State.sendNew_keeps
      | with_reducible apply State.setPort_keeps
      | with_reducible apply State.modPort_keeps
      | intro _
      | with_reducible split
      | assumption
      | rfl
      | apply State.sendNew_keeps
      | apply State.setPort_keeps
      | apply State.modPort_keeps
  clear_value s1
  try dsimp only
  repeat' first
    | with_reducible assumption
    | with_reducible apply State.sendNew_keeps
    | with_reducible apply State.setPort_keeps
    | with_reducible apply State.modPort_keeps
    | intro _
    | with_reducible split
    | assumption
    | rfl
    | apply State.sendNew_keeps
    | apply State.setPort_keeps
    | apply State.modPort_keeps

theorem State.sleepTile_keeps {σ₀ σ : State} (hk : Keeps σ₀ σ) (level k : Nat) :
    Keeps σ₀ (State.sleepTile σ level k) := by
  unfold State.sleepTile
  try dsimp only
  repeat' first
    | with_reducible assumption
    | with_reducible apply State.tileOff_keeps
    | with_reducible apply State.setClk_keeps
    | intro _
    | with_reducible split
    | assumption
    | rfl
    | apply State.tileOff_keeps
    | apply State.setClk_keeps

theorem State.sleepEnter_keeps {σ₀ σ : State} (hk : Keeps σ₀ σ)  :
    Keeps σ₀ (State.sleepEnter σ) := by
  unfold State.sleepEnter
  try dsimp only
  repeat' first
    | with_reducible assumption
    | with_reducible apply State.closeDown_keeps
    | with_reducible apply State.sleepTile_keeps
    | with_reducible apply State.storeLedger_keeps
    | with_reducible apply State.modGlb_keeps
    | with_reducible apply Keeps.foldl
    | with_reducible apply Keeps.foldlFst
    | intro _
    | with_reducible split
    | assumption
    | rfl
    | apply State.closeDown_keeps
    | apply State.sleepTile_keeps
    | apply State.storeLedger_keeps
    | apply State.modGlb_keeps

theorem State.sleepStalled_keeps {σ₀ σ : State} (hk : Keeps σ₀ σ) (source : Nat) (t : Tile) :
    Keeps σ₀ (State.sleepStalled σ source t) := by
  unfold State.sleepStalled
  try dsimp only
  repeat' first
    | with_reducible assumption
    | with_reducible apply State.setEvt_keeps
    | with_reducible apply State.logRec_keeps
    | intro _
    | with_reducible split
    | assumption
    | rfl
    | apply State.setEvt_keeps
    | apply State.logRec_keeps

theorem State.freqStep_keeps {σ₀ σ : State} (hk : Keeps σ₀ σ) (n : Nat) :
    Keeps σ₀ (State.freqStep σ n) := by
  unfold State.freqStep
  try dsimp only
  repeat' first
    | with_reducible assumption
    | with_reducible apply State.modFace_keeps
    | intro _
    | with_reducible split
    | assumption
    | rfl
    | apply State.modFace_keeps

theorem State.droop_keeps {σ₀ σ : State} (hk : Keeps σ₀ σ) (faces : List Nat) : Keeps σ₀ (State.droop σ faces) := by
  unfold State.droop
  split
  · exact hk
  · extract_lets s1
    have h1 : Keeps σ₀ s1 := Keeps.foldl hk _ _ (fun b x hb => State.modFace_keeps hb _ _)
    clear_value s1
    apply State.healthEvent_keeps
    exact h1

theorem State.pwrFaceWrite_keeps {σ₀ σ : State} (hk : Keeps σ₀ σ) (n v : Nat) :
    Keeps σ₀ (State.pwrFaceWrite σ n v) := by
  unfold State.pwrFaceWrite
  try dsimp only
  repeat' first
    | with_reducible assumption
    | with_reducible apply State.badWrite_keeps
    | with_reducible apply State.modFace_keeps
    | intro _
    | with_reducible split
    | assumption
    | rfl
    | apply State.badWrite_keeps
    | apply State.modFace_keeps

theorem State.surgeDown_keeps {σ₀ σ : State} (hk : Keeps σ₀ σ)  :
    Keeps σ₀ (State.surgeDown σ) := by
  unfold State.surgeDown
  try dsimp only
  repeat' first
    | with_reducible assumption
    | intro _
    | with_reducible split
    | assumption
    | rfl

theorem State.surgeUp_keeps {σ₀ σ : State} (hk : Keeps σ₀ σ)  :
    Keeps σ₀ (State.surgeUp σ) := by
  unfold State.surgeUp
  try dsimp only
  repeat' first
    | with_reducible assumption
    | intro _
    | with_reducible split
    | assumption
    | rfl

theorem State.surgeWithdraw_keeps {σ₀ σ : State} (hk : Keeps σ₀ σ)  :
    Keeps σ₀ (State.surgeWithdraw σ) := by
  unfold State.surgeWithdraw
  try dsimp only
  repeat' first
    | with_reducible assumption
    | with_reducible apply State.setEvt_keeps
    | with_reducible apply State.logEvt_keeps
    | intro _
    | with_reducible split
    | assumption
    | rfl
    | apply State.setEvt_keeps
    | apply State.logEvt_keeps

theorem State.derate_keeps {σ₀ σ : State} (hk : Keeps σ₀ σ) (n : Nat) :
    Keeps σ₀ (State.derate σ n) := by
  unfold State.derate
  try dsimp only
  repeat' first
    | with_reducible assumption
    | with_reducible apply State.writeCal_keeps
    | with_reducible apply State.setEvt_keeps
    | with_reducible apply State.logEvt_keeps
    | with_reducible apply State.retireFace_keeps
    | intro _
    | with_reducible split
    | assumption
    | rfl
    | apply State.writeCal_keeps
    | apply State.setEvt_keeps
    | apply State.logEvt_keeps
    | apply State.retireFace_keeps

theorem State.trip_keeps {σ₀ σ : State} (hk : Keeps σ₀ σ) (sensor : Nat) (t : Int) :
    Keeps σ₀ (State.trip σ sensor t) := by
  unfold State.trip
  try dsimp only
  repeat' first
    | with_reducible assumption
    | with_reducible apply State.modGlb_keeps
    | with_reducible apply State.setEvt_keeps
    | with_reducible apply State.logEvt_keeps
    | intro _
    | with_reducible split
    | assumption
    | rfl
    | apply State.modGlb_keeps
    | apply State.setEvt_keeps
    | apply State.logEvt_keeps

theorem State.sluiceHeat_keeps {σ₀ σ : State} (hk : Keeps σ₀ σ) (p : Nat) (t : Int) :
    Keeps σ₀ (State.sluiceHeat σ p t) := by
  unfold State.sluiceHeat
  try dsimp only
  repeat' first
    | with_reducible assumption
    | with_reducible apply State.modPort_keeps
    | intro _
    | with_reducible split
    | assumption
    | rfl
    | apply State.modPort_keeps

theorem State.tempRead_keeps {σ₀ σ : State} (hk : Keeps σ₀ σ) (ts : List Int) :
    Keeps σ₀ (State.tempRead σ ts) := by
  unfold State.tempRead
  extract_lets at' yards yard yardCool s0 s1 s2 s3
  have hk_s0 : Keeps σ₀ s0 := by
    dsimp only [s0]
    repeat' first
      | with_reducible assumption
      | with_reducible apply State.modFace_keeps
      | with_reducible apply State.sluiceHeat_keeps
      | with_reducible apply State.setEvt_keeps
      | with_reducible apply State.logEvt_keeps
      | with_reducible apply State.trip_keeps
      | with_reducible apply Keeps.foldl
      | with_reducible apply Keeps.foldlFst
      | intro _
      | with_reducible split
      | assumption
      | rfl
      | apply State.modFace_keeps
      | apply State.sluiceHeat_keeps
      | apply State.setEvt_keeps
      | apply State.logEvt_keeps
      | apply State.trip_keeps
  clear_value s0
  have hk_s1 : Keeps σ₀ s1 := by
    dsimp only [s1]
    repeat' first
      | with_reducible assumption
      | with_reducible apply State.modFace_keeps
      | with_reducible apply State.sluiceHeat_keeps
      | with_reducible apply State.setEvt_keeps
      | with_reducible apply State.logEvt_keeps
      | with_reducible apply State.trip_keeps
      | with_reducible apply Keeps.foldl
      | with_reducible apply Keeps.foldlFst
      | intro _
      | with_reducible split
      | assumption
      | rfl
      | apply State.modFace_keeps
      | apply State.sluiceHeat_keeps
      | apply State.setEvt_keeps
      | apply State.logEvt_keeps
      | apply State.trip_keeps
  clear_value s1
  have hk_s2 : Keeps σ₀ s2 := by
    dsimp only [s2]
    repeat' first
      | with_reducible assumption
      | with_reducible apply State.modFace_keeps
      | with_reducible apply State.sluiceHeat_keeps
      | with_reducible apply State.setEvt_keeps
      | with_reducible apply State.logEvt_keeps
      | with_reducible apply State.trip_keeps
      | with_reducible apply Keeps.foldl
      | with_reducible apply Keeps.foldlFst
      | intro _
      | with_reducible split
      | assumption
      | rfl
      | apply State.modFace_keeps
      | apply State.sluiceHeat_keeps
      | apply State.setEvt_keeps
      | apply State.logEvt_keeps
      | apply State.trip_keeps
  clear_value s2
  have hk_s3 : Keeps σ₀ s3 := by
    dsimp only [s3]
    repeat' first
      | with_reducible assumption
      | with_reducible apply State.modFace_keeps
      | with_reducible apply State.sluiceHeat_keeps
      | with_reducible apply State.setEvt_keeps
      | with_reducible apply State.logEvt_keeps
      | with_reducible apply State.trip_keeps
      | with_reducible apply Keeps.foldl
      | with_reducible apply Keeps.foldlFst
      | intro _
      | with_reducible split
      | assumption
      | rfl
      | apply State.modFace_keeps
      | apply State.sluiceHeat_keeps
      | apply State.setEvt_keeps
      | apply State.logEvt_keeps
      | apply State.trip_keeps
  clear_value s3
  try dsimp only
  repeat' first
    | with_reducible assumption
    | with_reducible apply State.modFace_keeps
    | with_reducible apply State.sluiceHeat_keeps
    | with_reducible apply State.setEvt_keeps
    | with_reducible apply State.logEvt_keeps
    | with_reducible apply State.trip_keeps
    | with_reducible apply Keeps.foldl
    | with_reducible apply Keeps.foldlFst
    | intro _
    | with_reducible split
    | assumption
    | rfl
    | apply State.modFace_keeps
    | apply State.sluiceHeat_keeps
    | apply State.setEvt_keeps
    | apply State.logEvt_keeps
    | apply State.trip_keeps

theorem State.tripClear_keeps {σ₀ σ : State} (hk : Keeps σ₀ σ)  :
    Keeps σ₀ (State.tripClear σ) := by
  unfold State.tripClear
  try dsimp only
  repeat' first
    | with_reducible assumption
    | with_reducible apply State.checkReady_keeps
    | with_reducible apply State.modFace_keeps
    | with_reducible apply State.modGlb_keeps
    | with_reducible apply Keeps.foldl
    | with_reducible apply Keeps.foldlFst
    | intro _
    | with_reducible split
    | assumption
    | rfl
    | apply State.checkReady_keeps
    | apply State.modFace_keeps
    | apply State.modGlb_keeps

theorem State.crossWrite_keeps {σ₀ σ : State} (hk : Keeps σ₀ σ) (g v : Nat) :
    Keeps σ₀ (State.crossWrite σ g v) := by
  unfold State.crossWrite
  try dsimp only
  repeat' first
    | with_reducible assumption
    | with_reducible apply State.badWrite_keeps
    | with_reducible apply State.modCross_keeps
    | intro _
    | with_reducible split
    | assumption
    | rfl
    | apply State.badWrite_keeps
    | apply State.modCross_keeps

theorem State.crossApply_keeps {σ₀ σ : State} (hk : Keeps σ₀ σ) (g : Nat) :
    Keeps σ₀ (State.crossApply σ g) := by
  unfold State.crossApply
  try dsimp only
  repeat' first
    | with_reducible assumption
    | with_reducible apply State.modCross_keeps
    | intro _
    | with_reducible split
    | assumption
    | rfl
    | apply State.modCross_keeps

theorem State.lockCheck_keeps {σ₀ σ : State} (hk : Keeps σ₀ σ) (count : Nat) :
    Keeps σ₀ (State.lockCheck σ count) := by
  unfold State.lockCheck
  try dsimp only
  repeat' first
    | with_reducible assumption
    | with_reducible apply State.modCross_keeps
    | with_reducible apply State.setEvt_keeps
    | with_reducible apply State.logEvt_keeps
    | intro _
    | with_reducible split
    | assumption
    | rfl
    | apply State.modCross_keeps
    | apply State.setEvt_keeps
    | apply State.logEvt_keeps

theorem State.crossMiss_keeps {σ₀ σ : State} (hk : Keeps σ₀ σ) (n : Nat) :
    Keeps σ₀ (State.crossMiss σ n) := by
  unfold State.crossMiss
  extract_lets times s1
  have hk_s1 : Keeps σ₀ s1 := by
    dsimp only [s1]
    repeat' first
      | with_reducible assumption
      | with_reducible apply State.modFace_keeps
      | with_reducible apply State.retireFace_keeps
      | intro _
      | with_reducible split
      | assumption
      | rfl
      | apply State.modFace_keeps
      | apply State.retireFace_keeps
  clear_value s1
  try dsimp only
  repeat' first
    | with_reducible assumption
    | with_reducible apply State.modFace_keeps
    | with_reducible apply State.retireFace_keeps
    | intro _
    | with_reducible split
    | assumption
    | rfl
    | apply State.modFace_keeps
    | apply State.retireFace_keeps

theorem State.crossParity_keeps {σ₀ σ : State} (hk : Keeps σ₀ σ) (path : CrossPath) :
    Keeps σ₀ (State.crossParity σ path) := by
  unfold State.crossParity
  try dsimp only
  repeat' first
    | with_reducible assumption
    | with_reducible apply State.readError_keeps
    | with_reducible apply State.abortBench_keeps
    | with_reducible apply State.crossMiss_keeps
    | with_reducible apply State.contextSave_keeps
    | intro _
    | with_reducible split
    | assumption
    | rfl
    | apply State.readError_keeps
    | apply State.abortBench_keeps
    | apply State.crossMiss_keeps
    | apply State.contextSave_keeps

theorem State.allOff_keeps {σ₀ σ : State} (hk : Keeps σ₀ σ)  :
    Keeps σ₀ (State.allOff σ) := by
  unfold State.allOff
  try dsimp only
  repeat' first
    | with_reducible assumption
    | with_reducible apply State.tileOff_keeps
    | with_reducible apply State.yardLost_keeps
    | with_reducible apply State.setClk_keeps
    | with_reducible apply Keeps.foldl
    | with_reducible apply Keeps.foldlFst
    | intro _
    | with_reducible split
    | assumption
    | rfl
    | apply State.tileOff_keeps
    | apply State.yardLost_keeps
    | apply State.setClk_keeps

theorem State.hostReset_keeps {σ₀ σ : State} (hk : Keeps σ₀ σ) (held : Bool) :
    Keeps σ₀ (State.hostReset σ held) := by
  have h1 : Keeps σ₀ (((List.range 4).foldl (fun t p => t.closeDown (· == .up) p) σ).allOff) :=
    State.allOff_keeps (Keeps.foldl hk _ _ (fun b x hb => State.closeDown_keeps hb _ _))
  unfold State.hostReset
  generalize ((List.range 4).foldl (fun t p => t.closeDown (· == .up) p) σ).allOff = a at h1
  apply State.logEvt_keeps
  exact h1

theorem State.resetOver_keeps {σ₀ σ : State} (hk : Keeps σ₀ σ)  :
    Keeps σ₀ (State.resetOver σ) := by
  unfold State.resetOver
  try dsimp only
  repeat' first
    | with_reducible assumption
    | with_reducible apply State.modGlb_keeps
    | with_reducible apply State.wake_keeps
    | intro _
    | with_reducible split
    | assumption
    | rfl
    | apply State.modGlb_keeps
    | apply State.wake_keeps

end Sys2Proof.Machine
end

