-- ==== Sys2Proof/Laws/KeepsFaults.lean ====
section
/-! SUPPORT. What the operations of `Machine/Faults.lean` keep (`Keeps`). -/

namespace Sys2Proof.Machine

set_option linter.all false

theorem State.dealCut_keeps {σ₀ σ : State} (hk : Keeps σ₀ σ) (e : Nat) :
    Keeps σ₀ (State.dealCut σ e) := by
  unfold State.dealCut
  extract_lets d s1
  have hk_s1 : Keeps σ₀ s1 := by
    dsimp only [s1]
    repeat' first
      | with_reducible assumption
      | with_reducible apply State.modBench_keeps
      | with_reducible apply State.dealRound_keeps
      | with_reducible apply State.tryStart_keeps
      | with_reducible apply Keeps.foldl
      | with_reducible apply Keeps.foldlFst
      | intro _
      | with_reducible split
      | assumption
      | rfl
      | apply State.modBench_keeps
      | apply State.dealRound_keeps
      | apply State.tryStart_keeps
  clear_value s1
  try dsimp only
  repeat' first
    | with_reducible assumption
    | with_reducible apply State.modBench_keeps
    | with_reducible apply State.dealRound_keeps
    | with_reducible apply State.tryStart_keeps
    | with_reducible apply Keeps.foldl
    | with_reducible apply Keeps.foldlFst
    | intro _
    | with_reducible split
    | assumption
    | rfl
    | apply State.modBench_keeps
    | apply State.dealRound_keeps
    | apply State.tryStart_keeps

theorem State.resetRegions_keeps {σ₀ σ : State} (hk : Keeps σ₀ σ) (d : CutDesc) :
    Keeps σ₀ (State.resetRegions σ d) := by
  unfold State.resetRegions
  try dsimp only
  repeat' first
    | with_reducible assumption
    | with_reducible apply State.resetTile_keeps
    | with_reducible apply Keeps.foldl
    | with_reducible apply Keeps.foldlFst
    | intro _
    | with_reducible split
    | assumption
    | rfl
    | apply State.resetTile_keeps

theorem State.shareBench_keeps {σ₀ σ : State} (hk : Keeps σ₀ σ) (e n b : Nat) :
    Keeps σ₀ (State.shareBench σ e n b) := by
  unfold State.shareBench
  try dsimp only
  repeat' first
    | with_reducible assumption
    | with_reducible apply State.retireFace_keeps
    | with_reducible apply State.dealItems_keeps
    | with_reducible apply State.modBench_keeps
    | with_reducible apply State.orFlags_keeps
    | with_reducible apply State.modFace_keeps
    | intro _
    | with_reducible split
    | assumption
    | rfl
    | apply State.retireFace_keeps
    | apply State.dealItems_keeps
    | apply State.modBench_keeps
    | apply State.orFlags_keeps
    | apply State.modFace_keeps

theorem State.shareWork_keeps {σ₀ σ : State} (hk : Keeps σ₀ σ) (e : Nat) :
    Keeps σ₀ (State.shareWork σ e) := by
  unfold State.shareWork
  extract_lets d s1
  have hk_s1 : Keeps σ₀ s1 := by
    dsimp only [s1]
    repeat' first
      | with_reducible assumption
      | with_reducible apply State.shareBench_keeps
      | with_reducible apply State.adoptCut_keeps
      | with_reducible apply Keeps.foldl
      | with_reducible apply Keeps.foldlFst
      | intro _
      | with_reducible split
      | assumption
      | rfl
      | apply State.shareBench_keeps
      | apply State.adoptCut_keeps
  clear_value s1
  try dsimp only
  repeat' first
    | with_reducible assumption
    | with_reducible apply State.shareBench_keeps
    | with_reducible apply State.adoptCut_keeps
    | with_reducible apply Keeps.foldl
    | with_reducible apply Keeps.foldlFst
    | intro _
    | with_reducible split
    | assumption
    | rfl
    | apply State.shareBench_keeps
    | apply State.adoptCut_keeps

theorem State.dealStart_keeps {σ₀ σ : State} (hk : Keeps σ₀ σ) (e : Nat) :
    Keeps σ₀ (State.dealStart σ e) := by
  unfold State.dealStart
  try dsimp only
  repeat' first
    | with_reducible assumption
    | with_reducible apply State.dealCut_keeps
    | with_reducible apply State.shareWork_keeps
    | intro _
    | with_reducible split
    | assumption
    | rfl
    | apply State.dealCut_keeps
    | apply State.shareWork_keeps

theorem State.restartCut_keeps {σ₀ σ : State} (hk : Keeps σ₀ σ) (e : Nat) :
    Keeps σ₀ (State.restartCut σ e) := by
  unfold State.restartCut
  extract_lets c s1 s2 s3
  have hk_s1 : Keeps σ₀ s1 := by
    dsimp only [s1]
    repeat' first
      | with_reducible assumption
      | with_reducible apply State.resetRegions_keeps
      | with_reducible apply State.dropTiles_keeps
      | with_reducible apply State.modCut_keeps
      | with_reducible apply State.modArun_keeps
      | with_reducible apply State.dealStart_keeps
      | intro _
      | with_reducible split
      | assumption
      | rfl
      | apply State.resetRegions_keeps
      | apply State.dropTiles_keeps
      | apply State.modCut_keeps
      | apply State.modArun_keeps
      | apply State.dealStart_keeps
  clear_value s1
  have hk_s2 : Keeps σ₀ s2 := by
    dsimp only [s2]
    repeat' first
      | with_reducible assumption
      | with_reducible apply State.resetRegions_keeps
      | with_reducible apply State.dropTiles_keeps
      | with_reducible apply State.modCut_keeps
      | with_reducible apply State.modArun_keeps
      | with_reducible apply State.dealStart_keeps
      | intro _
      | with_reducible split
      | assumption
      | rfl
      | apply State.resetRegions_keeps
      | apply State.dropTiles_keeps
      | apply State.modCut_keeps
      | apply State.modArun_keeps
      | apply State.dealStart_keeps
  clear_value s2
  have hk_s3 : Keeps σ₀ s3 := by
    dsimp only [s3]
    repeat' first
      | with_reducible assumption
      | with_reducible apply State.resetRegions_keeps
      | with_reducible apply State.dropTiles_keeps
      | with_reducible apply State.modCut_keeps
      | with_reducible apply State.modArun_keeps
      | with_reducible apply State.dealStart_keeps
      | intro _
      | with_reducible split
      | assumption
      | rfl
      | apply State.resetRegions_keeps
      | apply State.dropTiles_keeps
      | apply State.modCut_keeps
      | apply State.modArun_keeps
      | apply State.dealStart_keeps
  clear_value s3
  try dsimp only
  repeat' first
    | with_reducible assumption
    | with_reducible apply State.resetRegions_keeps
    | with_reducible apply State.dropTiles_keeps
    | with_reducible apply State.modCut_keeps
    | with_reducible apply State.modArun_keeps
    | with_reducible apply State.dealStart_keeps
    | intro _
    | with_reducible split
    | assumption
    | rfl
    | apply State.resetRegions_keeps
    | apply State.dropTiles_keeps
    | apply State.modCut_keeps
    | apply State.modArun_keeps
    | apply State.dealStart_keeps

theorem State.abortCut_keeps {σ₀ σ : State} (hk : Keeps σ₀ σ) (e : Nat) :
    Keeps σ₀ (State.abortCut σ e) := by
  unfold State.abortCut
  extract_lets s1
  have hk_s1 : Keeps σ₀ s1 := by
    dsimp only [s1]
    repeat' first
      | with_reducible assumption
      | with_reducible apply State.awaitReplay_keeps
      | with_reducible apply State.modCut_keeps
      | with_reducible apply State.orFlags_keeps
      | with_reducible apply State.setStatus_keeps
      | with_reducible apply State.restartCut_keeps
      | intro _
      | with_reducible split
      | assumption
      | rfl
      | apply State.orFlags_keeps
      | apply State.setStatus_keeps
      | apply State.restartCut_keeps
  clear_value s1
  try dsimp only
  repeat' first
    | with_reducible assumption
    | with_reducible apply State.awaitReplay_keeps
    | with_reducible apply State.modCut_keeps
    | with_reducible apply State.orFlags_keeps
    | with_reducible apply State.setStatus_keeps
    | with_reducible apply State.restartCut_keeps
    | intro _
    | with_reducible split
    | assumption
    | rfl
    | apply State.orFlags_keeps
    | apply State.setStatus_keeps
    | apply State.restartCut_keeps

theorem State.startMigration_keeps {σ₀ σ : State} (hk : Keeps σ₀ σ) (b : Nat) (inj : Bool) :
    Keeps σ₀ (State.startMigration σ b inj) := by
  unfold State.startMigration
  try dsimp only
  repeat' first
    | with_reducible assumption
    | with_reducible apply State.setEvt_keeps
    | with_reducible apply State.logRec_keeps
    | intro _
    | with_reducible split
    | assumption
    | rfl
    | apply State.setEvt_keeps
    | apply State.logRec_keeps

theorem State.takeYardInject_keeps {σ₀ σ : State} (hk : Keeps σ₀ σ) (a : Nat) :
    Keeps σ₀ (State.takeYardInject σ a).2 := by
  unfold State.takeYardInject
  split
  · exact hk
  · exact hk

theorem State.correctWord_keeps {σ₀ σ : State} (hk : Keeps σ₀ σ) (a : Nat) : Keeps σ₀ (State.correctWord σ a) := by
  have h0 := State.takeYardInject_keeps hk a
  unfold State.correctWord
  revert h0
  generalize σ.takeYardInject a = r
  obtain ⟨inj, s0⟩ := r
  intro h0
  dsimp only at h0 ⊢
  split
  · apply State.startMigration_keeps
    apply State.healthEvent_keeps
    apply Keeps.yard h0
    exact fun h => h
  · apply State.healthEvent_keeps
    apply Keeps.yard h0
    exact fun h => h

theorem State.migrationDone_keeps {σ₀ σ : State} (hk : Keeps σ₀ σ) (b : Nat) :
    Keeps σ₀ (State.migrationDone σ b) := by
  unfold State.migrationDone
  try dsimp only
  repeat' first
    | with_reducible assumption
    | with_reducible apply State.modSpare_keeps
    | with_reducible apply State.logRemap_keeps
    | intro _
    | with_reducible split
    | assumption
    | rfl
    | apply State.modSpare_keeps
    | apply State.logRemap_keeps

theorem State.refetch_keeps {σ₀ σ : State} (hk : Keeps σ₀ σ) (h : Nat) :
    Keeps σ₀ (State.refetch σ h) := by
  unfold State.refetch
  try dsimp only
  repeat' first
    | with_reducible assumption
    | with_reducible apply State.abortBench_keeps
    | with_reducible apply State.modHoist_keeps
    | with_reducible apply Keeps.foldl
    | with_reducible apply Keeps.foldlFst
    | intro _
    | with_reducible split
    | assumption
    | rfl
    | apply State.abortBench_keeps
    | apply State.modHoist_keeps

theorem State.uncorrectableIn_keeps {σ₀ σ : State} (hk : Keeps σ₀ σ) (i : Image) (a r : Nat) (reg : Region) :
    Keeps σ₀ (State.uncorrectableIn σ i a r reg) := by
  unfold State.uncorrectableIn
  try dsimp only
  repeat' first
    | with_reducible assumption
    | with_reducible apply State.halt_keeps
    | with_reducible apply State.abortCut_keeps
    | with_reducible apply State.refetch_keeps
    | with_reducible apply State.restartCut_keeps
    | intro _
    | with_reducible split
    | assumption
    | rfl
    | apply State.halt_keeps
    | apply State.abortCut_keeps
    | apply State.refetch_keeps
    | apply State.restartCut_keeps

theorem State.uncorrectable_keeps {σ₀ σ : State} (hk : Keeps σ₀ σ) (a : Nat) : Keeps σ₀ (State.uncorrectable σ a) := by
  have h0 := State.takeYardInject_keeps hk a
  unfold State.uncorrectable
  revert h0
  generalize σ.takeYardInject a = r
  obtain ⟨inj, s0⟩ := r
  intro h0
  dsimp only at h0 ⊢
  split
  · split
    · apply State.uncorrectableIn_keeps
      apply State.startMigration_keeps
      apply Keeps.yard h0
      exact fun h => h
    · apply State.startMigration_keeps
      apply Keeps.yard h0
      exact fun h => h
  · apply State.startMigration_keeps
    apply Keeps.yard h0
    exact fun h => h

theorem State.fillTo_keeps {σ₀ σ : State} (hk : Keeps σ₀ σ) (ph : FillPhase) (code : Nat) :
    Keeps σ₀ (State.fillTo σ ph code) := by
  unfold State.fillTo
  try dsimp only
  repeat' first
    | with_reducible assumption
    | with_reducible apply State.modFace_keeps
    | intro _
    | with_reducible split
    | assumption
    | rfl
    | apply State.modFace_keeps

theorem State.fillWake_keeps {σ₀ σ : State} (hk : Keeps σ₀ σ) (woke : Bool) :
    Keeps σ₀ (State.fillWake σ woke) := by
  unfold State.fillWake
  try dsimp only
  repeat' first
    | with_reducible assumption
    | with_reducible apply State.wake_keeps
    | with_reducible apply State.fillFail_keeps
    | with_reducible apply State.setClk_keeps
    | with_reducible apply State.faceWoken_keeps
    | with_reducible apply State.fillTo_keeps
    | intro _
    | with_reducible split
    | assumption
    | rfl
    | apply State.wake_keeps
    | apply State.fillFail_keeps
    | apply State.setClk_keeps
    | apply State.faceWoken_keeps
    | apply State.fillTo_keeps

theorem State.fillConfig_keeps {σ₀ σ : State} (hk : Keeps σ₀ σ) (ok : Bool) :
    Keeps σ₀ (State.fillConfig σ ok) := by
  unfold State.fillConfig
  try dsimp only
  repeat' first
    | with_reducible assumption
    | with_reducible apply State.giveModes_keeps
    | with_reducible apply State.writeCal_keeps
    | with_reducible apply State.fillTo_keeps
    | with_reducible apply State.fillFail_keeps
    | intro _
    | with_reducible split
    | assumption
    | rfl
    | apply State.giveModes_keeps
    | apply State.writeCal_keeps
    | apply State.fillTo_keeps
    | apply State.fillFail_keeps

theorem State.fillTest_keeps {σ₀ σ : State} (hk : Keeps σ₀ σ) (r : FaceTest) :
    Keeps σ₀ (State.fillTest σ r) := by
  unfold State.fillTest
  try dsimp only
  repeat' first
    | with_reducible assumption
    | with_reducible apply State.absorbTest_keeps
    | with_reducible apply State.fillFail_keeps
    | with_reducible apply State.join_keeps
    | intro _
    | with_reducible split
    | assumption
    | rfl
    | apply State.absorbTest_keeps
    | apply State.fillFail_keeps
    | apply State.join_keeps

theorem State.wakeFailed_keeps {σ₀ σ : State} (hk : Keeps σ₀ σ) (n : Nat) :
    Keeps σ₀ (State.wakeFailed σ n) := by
  unfold State.wakeFailed
  try dsimp only
  repeat' first
    | with_reducible assumption
    | with_reducible apply State.wake_keeps
    | with_reducible apply State.fillFail_keeps
    | with_reducible apply State.retireFace_keeps
    | intro _
    | with_reducible split
    | assumption
    | rfl
    | apply State.wake_keeps
    | apply State.fillFail_keeps
    | apply State.retireFace_keeps

end Sys2Proof.Machine
end

