-- ==== Sys2Proof/Laws/KeepsSnapshot.lean ====
section
/-! SUPPORT. What the operations of `Machine/Snapshot.lean` keep (`Keeps`). -/

namespace Sys2Proof.Machine

set_option linter.all false

theorem State.beginDrain_keeps {σ₀ σ : State} (hk : Keeps σ₀ σ) (e : Nat) (cap : Capture) :
    Keeps σ₀ (State.beginDrain σ e cap) := by
  unfold State.beginDrain
  try dsimp only
  repeat' first
    | with_reducible assumption
    | with_reducible apply State.modCut_keeps
    | with_reducible apply State.orFlags_keeps
    | with_reducible apply State.modUnit_keeps
    | with_reducible apply State.modHoist_keeps
    | with_reducible apply Keeps.foldl
    | with_reducible apply Keeps.foldlFst
    | intro _
    | with_reducible split
    | assumption
    | rfl
    | apply State.modCut_keeps
    | apply State.orFlags_keeps
    | apply State.modUnit_keeps
    | apply State.modHoist_keeps

theorem State.endHold_keeps {σ₀ σ : State} (hk : Keeps σ₀ σ)  :
    Keeps σ₀ (State.endHold σ) := by
  unfold State.endHold
  try dsimp only
  repeat' first
    | with_reducible assumption
    | with_reducible apply State.resumeWorking_keeps
    | with_reducible apply Keeps.foldl
    | with_reducible apply Keeps.foldlFst
    | intro _
    | with_reducible split
    | assumption
    | rfl
    | apply State.resumeWorking_keeps

theorem State.snapCapture_keeps {σ₀ σ : State} (hk : Keeps σ₀ σ)  :
    Keeps σ₀ (State.snapCapture σ) := by
  unfold State.snapCapture
  try dsimp only
  repeat' first
    | with_reducible assumption
    | with_reducible apply State.beginDrain_keeps
    | with_reducible apply State.endHold_keeps
    | with_reducible apply State.wake_keeps
    | intro _
    | with_reducible split
    | assumption
    | rfl
    | apply State.beginDrain_keeps
    | apply State.endHold_keeps
    | apply State.wake_keeps

theorem State.reportSnap_keeps {σ₀ σ : State} (hk : Keeps σ₀ σ) : Keeps σ₀ (State.reportSnap σ) := by
  unfold State.reportSnap
  split
  · exact hk
  · exact Keeps.health (a := { σ with snap := _ }) hk _ (fun _ => Nat.zero_le _)

theorem State.drainOver_keeps {σ₀ σ : State} (hk : Keeps σ₀ σ) (bytes : Nat) :
    Keeps σ₀ (State.drainOver σ bytes) := by
  unfold State.drainOver
  try dsimp only
  repeat' first
    | with_reducible assumption
    | with_reducible apply State.reportSnap_keeps
    | with_reducible apply State.setEvt_keeps
    | with_reducible apply State.logEvt_keeps
    | with_reducible apply State.modCut_keeps
    | with_reducible apply State.endStreams_keeps
    | with_reducible apply State.endCut_keeps
    | with_reducible apply State.releaseWaiting_keeps
    | with_reducible apply State.issueAllHeld_keeps
    | intro _
    | with_reducible split
    | assumption
    | rfl
    | apply State.reportSnap_keeps
    | apply State.setEvt_keeps
    | apply State.logEvt_keeps
    | apply State.modCut_keeps
    | apply State.endStreams_keeps
    | apply State.endCut_keeps
    | apply State.releaseWaiting_keeps
    | apply State.issueAllHeld_keeps

theorem State.sendSnap_keeps {σ₀ σ : State} (hk : Keeps σ₀ σ) (e port vc slot : Nat) (ps : List (Nat × List Byte)) :
    Keeps σ₀ (State.sendSnap σ e port vc slot ps) := by
  unfold State.sendSnap
  extract_lets recs s1
  have hk_s1 : Keeps σ₀ s1 := by
    dsimp only [s1]
    repeat' first
      | with_reducible assumption
      | with_reducible apply State.pushTx_keeps
      | with_reducible apply State.modCut_keeps
      | with_reducible apply Keeps.foldl
      | with_reducible apply Keeps.foldlFst
      | intro _
      | with_reducible split
      | assumption
      | rfl
      | apply State.pushTx_keeps
      | apply State.modCut_keeps
  clear_value s1
  try dsimp only
  repeat' first
    | with_reducible assumption
    | with_reducible apply State.pushTx_keeps
    | with_reducible apply State.modCut_keeps
    | with_reducible apply Keeps.foldl
    | with_reducible apply Keeps.foldlFst
    | intro _
    | with_reducible split
    | assumption
    | rfl
    | apply State.pushTx_keeps
    | apply State.modCut_keeps

theorem State.snapCommit_keeps {σ₀ σ : State} (hk : Keeps σ₀ σ) (given : List (Nat × List Byte)) :
    Keeps σ₀ (State.snapCommit σ given) := by
  unfold State.snapCommit
  try dsimp only
  repeat' first
    | with_reducible assumption
    | with_reducible apply State.sendSnap_keeps
    | with_reducible apply State.drainOver_keeps
    | with_reducible apply State.putFabric_keeps
    | with_reducible apply Keeps.foldl
    | with_reducible apply Keeps.foldlFst
    | intro _
    | with_reducible split
    | assumption
    | rfl
    | apply State.sendSnap_keeps
    | apply State.drainOver_keeps
    | apply State.putFabric_keeps

theorem State.takeRecord_keeps {σ₀ σ : State} (hk : Keeps σ₀ σ) (n : Nat) :
    Keeps σ₀ (State.takeRecord σ n) := by
  unfold State.takeRecord
  try dsimp only
  repeat' first
    | with_reducible assumption
    | with_reducible apply State.modPort_keeps
    | intro _
    | with_reducible split
    | assumption
    | rfl
    | apply State.modPort_keeps

theorem State.peerSnap_keeps {σ₀ σ : State} (hk : Keeps σ₀ σ) (slot off : Nat) (data : List Byte) :
    Keeps σ₀ (State.peerSnap σ slot off data) := by
  unfold State.peerSnap
  extract_lets s1
  have hk_s1 : Keeps σ₀ s1 := by
    dsimp only [s1]
    repeat' first
      | with_reducible assumption
      | with_reducible apply State.takeRecord_keeps
      | with_reducible apply State.putFabric_keeps
      | with_reducible apply State.logEvt_keeps
      | intro _
      | with_reducible split
      | assumption
      | rfl
      | apply State.takeRecord_keeps
      | apply State.putFabric_keeps
      | apply State.logEvt_keeps
  clear_value s1
  try dsimp only
  repeat' first
    | with_reducible assumption
    | with_reducible apply State.takeRecord_keeps
    | with_reducible apply State.putFabric_keeps
    | with_reducible apply State.logEvt_keeps
    | intro _
    | with_reducible split
    | assumption
    | rfl
    | apply State.takeRecord_keeps
    | apply State.putFabric_keeps
    | apply State.logEvt_keeps

theorem State.startRestore_keeps {σ₀ σ : State} (hk : Keeps σ₀ σ)  :
    Keeps σ₀ (State.startRestore σ) := by
  unfold State.startRestore
  try dsimp only
  repeat' first
    | with_reducible assumption
    | with_reducible apply State.logEvt_keeps
    | intro _
    | with_reducible split
    | assumption
    | rfl
    | apply State.logEvt_keeps

theorem State.restoreOutcome_keeps {σ₀ σ : State} (hk : Keeps σ₀ σ) (code : Nat) (bad : Bool) :
    Keeps σ₀ (State.restoreOutcome σ code bad) := by
  unfold State.restoreOutcome
  try dsimp only
  repeat' first
    | with_reducible assumption
    | with_reducible apply State.setEvt_keeps
    | intro _
    | with_reducible split
    | assumption
    | rfl
    | apply State.setEvt_keeps

theorem State.writeBack_keeps {σ₀ σ : State} (hk : Keeps σ₀ σ) (m : MapDesc) (idx : List (List Int)) (bs : List Byte) :
    Keeps σ₀ (State.writeBack σ m idx bs) := by
  unfold State.writeBack
  try dsimp only
  repeat' first
    | with_reducible assumption
    | with_reducible apply State.putFabric_keeps
    | with_reducible apply Keeps.foldl
    | with_reducible apply Keeps.foldlFst
    | intro _
    | with_reducible split
    | assumption
    | rfl
    | apply State.putFabric_keeps

theorem State.restoreSched_keeps {σ₀ σ : State} (hk : Keeps σ₀ σ) (bs sched : List Byte) :
    Keeps σ₀ (State.restoreSched σ bs sched) := by
  have h1 : Keeps σ₀ { σ with tallies := (List.range 1024).map (fun k => (k, field sched (8 * k) 8)) } := by
    apply Keeps.tallies hk
    intro _ e he
    obtain ⟨k, _, rfl⟩ := List.mem_map.mp he
    exact Nat.lt_of_lt_of_le (field_lt sched (8 * k) 8) (by decide)
  exact h1

theorem State.dropCuts_keeps {σ₀ σ : State} (hk : Keeps σ₀ σ)  :
    Keeps σ₀ (State.dropCuts σ) := by
  unfold State.dropCuts
  try dsimp only
  repeat' first
    | with_reducible assumption
    | intro _
    | with_reducible split
    | assumption
    | rfl

theorem State.resetAccum_keeps {σ₀ σ : State} (hk : Keeps σ₀ σ)  :
    Keeps σ₀ (State.resetAccum σ) := by
  unfold State.resetAccum
  try dsimp only
  repeat' first
    | with_reducible assumption
    | with_reducible apply State.resetTile_keeps
    | with_reducible apply Keeps.foldl
    | with_reducible apply Keeps.foldlFst
    | intro _
    | with_reducible split
    | assumption
    | rfl
    | apply State.resetTile_keeps

theorem State.restoreTile_keeps {σ₀ σ : State} (hk : Keeps σ₀ σ) (t : TileRef) (h : Hdr) (elems : List Byte) :
    Keeps σ₀ (State.restoreTile σ t h elems) := by
  unfold State.restoreTile
  try dsimp only
  repeat' first
    | with_reducible assumption
    | with_reducible apply State.putYard_keeps
    | with_reducible apply Keeps.foldl
    | with_reducible apply Keeps.foldlFst
    | intro _
    | with_reducible split
    | assumption
    | rfl
    | apply State.putYard_keeps

theorem State.writeParts_keeps {σ₀ σ : State} (hk : Keeps σ₀ σ) (ps : List (MapDesc × List (List Int))) (bs : List Byte) :
    Keeps σ₀ (State.writeParts σ ps bs) := by
  induction ps generalizing σ bs with
  | nil => exact hk
  | cons p ps ih =>
    obtain ⟨m, idx⟩ := p
    unfold State.writeParts
    exact ih (State.writeBack_keeps hk _ _ _) _

theorem State.restoreTiles_keeps {σ₀ σ : State} (hk : Keeps σ₀ σ) (ts : List TileRef) (hs es : List Byte) :
    Keeps σ₀ (State.restoreTiles σ ts hs es) := by
  induction ts generalizing σ hs es with
  | nil => exact hk
  | cons t ts ih =>
    unfold State.restoreTiles
    exact ih (State.restoreTile_keeps hk _ _ _) _ _

theorem State.restoreHeld_keeps {σ₀ σ : State} (hk : Keeps σ₀ σ) (n : Nat) (bs : List Byte) :
    Keeps σ₀ (State.restoreHeld σ n bs) := by
  induction n generalizing σ bs with
  | zero => exact hk
  | succ k ih =>
    unfold State.restoreHeld
    split
    · exact hk
    · dsimp only
      apply ih
      split
      · exact hk
      · split
        · exact hk
        · apply State.restoreTiles_keeps
          apply State.modCut_keeps
          exact hk

theorem Keeps.snap {s a : State} (h : Keeps s a) (v : Snap) : Keeps s { a with snap := v } := h

theorem State.applySnap_keeps {σ₀ σ : State} (hk : Keeps σ₀ σ) (bs : List Byte) : Keeps σ₀ (State.applySnap σ bs) := by
  have h1 : Keeps σ₀ (σ.dropCuts.restoreSched bs (snapSection bs 1)).resetAccum :=
    State.resetAccum_keeps (State.restoreSched_keeps (State.dropCuts_keeps hk) _ _)
  unfold State.applySnap
  dsimp only
  generalize (σ.dropCuts.restoreSched bs (snapSection bs 1)).resetAccum = s1 at h1
  have h2 : Keeps σ₀ (match s1.image with
    | some i => ((s1.writeParts (i.weightParts (fun w => field bs (0x50 + 8 * w) 8)) (snapSection bs 3)).writeParts
        i.tailParts (snapSection bs 4)).writeParts (i.scaleParts (fun w => field bs (0x50 + 8 * w) 8)) (snapSection bs 5)
    | none => s1) := by
    split
    · exact State.writeParts_keeps (State.writeParts_keeps (State.writeParts_keeps h1 _ _) _ _) _ _
    · exact h1
  generalize 4096 = n
  exact Keeps.snap (State.restoreHeld_keeps h2 n (snapSection bs 2)) _

theorem State.brokenRestore_keeps {σ₀ σ : State} (hk : Keeps σ₀ σ) (bs : List Byte) :
    Keeps σ₀ (State.brokenRestore σ bs) := by
  have h1 : Keeps σ₀ { σ with fresh := σ.fresh + 1 } := hk
  unfold State.brokenRestore
  dsimp only
  split
  · exact State.applySnap_keeps h1 _
  · exact h1

theorem State.vHead_keeps {σ₀ σ : State} (hk : Keeps σ₀ σ) (p vc e : Nat) :
    Keeps σ₀ (State.vHead σ p vc e) := by
  unfold State.vHead
  try dsimp only
  repeat' first
    | with_reducible assumption
    | with_reducible apply State.modPort_keeps
    | with_reducible apply State.modCut_keeps
    | with_reducible apply State.loseCut_keeps
    | intro _
    | with_reducible split
    | assumption
    | rfl
    | apply State.modPort_keeps
    | apply State.modCut_keeps
    | apply State.loseCut_keeps

theorem State.countSlice_keeps {σ₀ σ : State} (hk : Keeps σ₀ σ) (e : Nat) (differs fetched : Bool) :
    Keeps σ₀ (State.countSlice σ e differs fetched) := by
  unfold State.countSlice
  extract_lets s1
  have hk_s1 : Keeps σ₀ s1 := by
    dsimp only [s1]
    repeat' first
      | with_reducible assumption
      | with_reducible apply State.modCut_keeps
      | with_reducible apply State.orFlags_keeps
      | intro _
      | with_reducible split
      | assumption
      | rfl
      | apply State.modCut_keeps
      | apply State.orFlags_keeps
  clear_value s1
  try dsimp only
  repeat' first
    | with_reducible assumption
    | with_reducible apply State.modCut_keeps
    | with_reducible apply State.orFlags_keeps
    | intro _
    | with_reducible split
    | assumption
    | rfl
    | apply State.modCut_keeps
    | apply State.orFlags_keeps

theorem State.fetchSlice_keeps {σ₀ σ : State} (hk : Keeps σ₀ σ) (base : Nat) (crc : DWord) (xs : List (List Byte)) :
    Keeps σ₀ (State.fetchSlice σ base crc xs).1 := by
  induction xs generalizing σ with
  | nil => exact hk
  | cons b bs ih =>
    unfold State.fetchSlice
    dsimp only
    split
    · exact State.putFabric_keeps hk _ _
    · exact ih (State.putFabric_keeps hk _ _)

theorem State.vSlice_keeps {σ₀ σ : State} (hk : Keeps σ₀ σ) (e index length : Nat) (crc : DWord) (own : List Byte)
    (fetched : List (List Byte)) : Keeps σ₀ (State.vSlice σ e index length crc own fetched) := by
  unfold State.vSlice
  dsimp only
  split
  · split
    · have h1 := fun p vc bs (q : Port → Port) tl => State.pushTx_keeps (State.modPort_keeps hk p q) p vc e bs tl
      split
      · apply State.itemDone_keeps
        apply State.countSlice_keeps
        apply h1
      · split
        · split
          · apply State.itemDone_keeps
            apply State.countSlice_keeps
            apply State.fetchSlice_keeps
            apply h1
          · apply State.loseCut_keeps
            apply State.countSlice_keeps
            apply State.fetchSlice_keeps
            apply h1
        · apply State.itemDone_keeps
          apply State.countSlice_keeps
          split
          · apply State.pushTx_keeps
            apply h1
          · apply h1
    · exact hk
  · exact hk

theorem State.haltUndressed_keeps {σ₀ σ : State} (hk : Keeps σ₀ σ) (d : Nat) :
    Keeps σ₀ (State.haltUndressed σ d) := by
  unfold State.haltUndressed
  try dsimp only
  repeat' first
    | with_reducible assumption
    | with_reducible apply State.halt_keeps
    | with_reducible apply Keeps.foldl
    | with_reducible apply Keeps.foldlFst
    | intro _
    | with_reducible split
    | assumption
    | rfl
    | apply State.halt_keeps

theorem State.selectorFault_keeps {σ₀ σ : State} (hk : Keeps σ₀ σ) (i : Nat) :
    Keeps σ₀ (State.selectorFault σ i) := by
  unfold State.selectorFault
  try dsimp only
  repeat' first
    | with_reducible assumption
    | with_reducible apply State.loseCut_keeps
    | with_reducible apply Keeps.foldl
    | with_reducible apply Keeps.foldlFst
    | intro _
    | with_reducible split
    | assumption
    | rfl
    | apply State.loseCut_keeps

theorem State.restartDrain_keeps {σ₀ σ : State} (hk : Keeps σ₀ σ)  :
    Keeps σ₀ (State.restartDrain σ) := by
  unfold State.restartDrain
  try dsimp only
  repeat' first
    | with_reducible assumption
    | with_reducible apply State.modCut_keeps
    | with_reducible apply State.modUnit_keeps
    | with_reducible apply State.orFlags_keeps
    | with_reducible apply Keeps.foldl
    | with_reducible apply Keeps.foldlFst
    | intro _
    | with_reducible split
    | assumption
    | rfl
    | apply State.modCut_keeps
    | apply State.modUnit_keeps
    | apply State.orFlags_keeps

theorem State.restartDigest_keeps {σ₀ σ : State} (hk : Keeps σ₀ σ)  :
    Keeps σ₀ (State.restartDigest σ) := by
  unfold State.restartDigest
  try dsimp only
  repeat' first
    | with_reducible assumption
    | with_reducible apply State.modCut_keeps
    | with_reducible apply Keeps.foldl
    | with_reducible apply Keeps.foldlFst
    | intro _
    | with_reducible split
    | assumption
    | rfl
    | apply State.modCut_keeps

theorem State.unitFault_keeps {σ₀ σ : State} (hk : Keeps σ₀ σ) (u : Unspared) (bad : Bool) :
    Keeps σ₀ (State.unitFault σ u bad) := by
  unfold State.unitFault
  try dsimp only
  repeat' first
    | with_reducible assumption
    | with_reducible apply State.unitStrike_keeps
    | with_reducible apply State.haltUndressed_keeps
    | with_reducible apply State.selectorFault_keeps
    | with_reducible apply State.portDown_keeps
    | with_reducible apply State.restartDrain_keeps
    | with_reducible apply State.restartDigest_keeps
    | intro _
    | with_reducible split
    | assumption
    | rfl
    | apply State.unitStrike_keeps
    | apply State.haltUndressed_keeps
    | apply State.selectorFault_keeps
    | apply State.portDown_keeps
    | apply State.restartDrain_keeps
    | apply State.restartDigest_keeps

end Sys2Proof.Machine
end

