-- ==== Sys2Proof/Laws/KeepsForeman.lean ====
section
/-! SUPPORT. What the operations of `Machine/Foreman.lean` keep (`Keeps`). -/

namespace Sys2Proof.Machine

set_option linter.all false

theorem State.startUpdate_keeps {σ₀ σ : State} (hk : Keeps σ₀ σ)  :
    Keeps σ₀ (State.startUpdate σ) := by
  unfold State.startUpdate
  try dsimp only
  repeat' first
    | with_reducible assumption
    | intro _
    | with_reducible split
    | assumption
    | rfl

theorem State.updateDone_keeps {σ₀ σ : State} (hk : Keeps σ₀ σ) (bs : List Byte) (err : Bool) :
    Keeps σ₀ (State.updateDone σ bs err) := by
  have hw : (σ.nv.writeFw σ.foreman.activeB bs).keys = σ.nv.keys := by
    unfold Nv.writeFw
    split <;> rfl
  unfold State.updateDone
  split
  · split
    · apply State.logEvt_keeps
      apply State.setEvt_keeps
      exact ⟨hk.1, hk.2.1, hk.2.2.1, hw.trans hk.2.2.2.1, hk.2.2.2.2⟩
    · apply State.logEvt_keeps
      apply State.setEvt_keeps
      exact hk
  · exact hk

theorem State.swapFw_keeps {σ₀ σ : State} (hk : Keeps σ₀ σ)  :
    Keeps σ₀ (State.swapFw σ) := by
  unfold State.swapFw
  try dsimp only
  repeat' first
    | with_reducible assumption
    | with_reducible apply State.restartForeman_keeps
    | intro _
    | with_reducible split
    | assumption
    | rfl
    | apply State.restartForeman_keeps

end Sys2Proof.Machine
end

