-- ==== Sys2Proof/Laws/KeepsLoad.lean ====
section
/-! SUPPORT. What the operations of `Machine/Load.lean` keep (`Keeps`). -/

namespace Sys2Proof.Machine

set_option linter.all false

theorem State.loadStart_keeps {σ₀ σ : State} (hk : Keeps σ₀ σ) : Keeps σ₀ (State.loadStart σ) := by
  unfold State.loadStart
  split
  · apply State.wake_keeps
    apply Keeps.load hk
    intro i h
    cases h
  · exact hk

theorem decodeTallies_lt (sec : List Byte) : ∀ e ∈ decodeTallies sec, e.2 < 2 ^ 64 := by
  unfold decodeTallies
  have h : ∀ (ks : List Nat) (t : Tab Nat), (∀ e ∈ t, e.2 < 2 ^ 64) →
      ∀ e ∈ ks.foldl (fun t k => Tab.set t (field sec (16 + 16 * k) 2) (field sec (24 + 16 * k) 8)) t, e.2 < 2 ^ 64 := by
    intro ks
    induction ks with
    | nil => exact fun t ht => ht
    | cons k ks ih =>
      exact fun t ht => ih _ (Tab.set_all (fun v => v < 2 ^ 64) _ _ _ ht
        (Nat.lt_of_lt_of_le (field_lt sec (24 + 16 * k) 8) (by decide)))
  exact h _ [] (by simp)

theorem State.refuseLoad_keeps {σ₀ σ : State} (hk : Keeps σ₀ σ) (reason : Nat) : Keeps σ₀ (State.refuseLoad σ reason) := by
  unfold State.refuseLoad
  apply State.logEvt_keeps
  apply State.setEvt_keeps
  apply Keeps.load hk
  intro i h
  cases h

theorem State.firstRead_keeps {σ₀ σ : State} (hk : Keeps σ₀ σ) (bs : List Byte) (err : Bool) :
    Keeps σ₀ (State.firstRead σ bs err) := by
  unfold State.firstRead
  dsimp only
  split
  · split
    · exact State.refuseLoad_keeps hk _
    · apply Keeps.load hk
      intro i h
      cases h
      exact decodeTallies_lt _
  · exact hk

theorem State.bankWaitEnd_keeps {σ₀ σ : State} (hk : Keeps σ₀ σ)  :
    Keeps σ₀ (State.bankWaitEnd σ) := by
  unfold State.bankWaitEnd
  try dsimp only
  repeat' first
    | with_reducible assumption
    | intro _
    | with_reducible split
    | assumption
    | rfl

theorem State.releaseAll_keeps {σ₀ σ : State} (hk : Keeps σ₀ σ)  :
    Keeps σ₀ (State.releaseAll σ) := by
  unfold State.releaseAll
  try dsimp only
  repeat' first
    | with_reducible assumption
    | with_reducible apply State.resetSeam_keeps
    | with_reducible apply Keeps.foldl
    | with_reducible apply Keeps.foldlFst
    | intro _
    | with_reducible split
    | assumption
    | rfl
    | apply State.resetSeam_keeps

theorem State.dropHalted_keeps {σ₀ σ : State} (hk : Keeps σ₀ σ)  :
    Keeps σ₀ (State.dropHalted σ) := by
  unfold State.dropHalted
  try dsimp only
  repeat' first
    | with_reducible assumption
    | with_reducible apply State.resetRegions_keeps
    | with_reducible apply Keeps.foldl
    | with_reducible apply Keeps.foldlFst
    | intro _
    | with_reducible split
    | assumption
    | rfl
    | apply State.resetRegions_keeps

theorem State.freshFace_keeps {σ₀ σ : State} (hk : Keeps σ₀ σ) (i : Image) (n : Nat) :
    Keeps σ₀ (State.freshFace i σ n) := by
  unfold State.freshFace
  try dsimp only
  repeat' first
    | with_reducible assumption
    | with_reducible apply State.modFace_keeps
    | with_reducible apply State.writeCal_keeps
    | intro _
    | with_reducible split
    | assumption
    | rfl
    | apply State.modFace_keeps
    | apply State.writeCal_keeps

theorem State.serve_keeps {σ₀ σ : State} (hk : Keeps σ₀ σ) (w n m : Nat) :
    Keeps σ₀ (State.serve σ w n m) := by
  unfold State.serve
  try dsimp only
  repeat' first
    | with_reducible assumption
    | with_reducible apply State.modFace_keeps
    | with_reducible apply State.giveModes_keeps
    | intro _
    | with_reducible split
    | assumption
    | rfl
    | apply State.modFace_keeps
    | apply State.giveModes_keeps

theorem State.seatFace_keeps {σ₀ σ : State} (hk : Keeps σ₀ σ) (w : Nat) (n : Nat) :
    Keeps σ₀ (State.seatFace w σ n) := by
  unfold State.seatFace
  try dsimp only
  repeat' first
    | with_reducible assumption
    | with_reducible apply State.modSpare_keeps
    | with_reducible apply State.serve_keeps
    | intro _
    | with_reducible split
    | assumption
    | rfl
    | apply State.modSpare_keeps
    | apply State.serve_keeps

theorem State.seatFaces_keeps {σ₀ σ : State} (hk : Keeps σ₀ σ)  :
    Keeps σ₀ (State.seatFaces σ) := by
  unfold State.seatFaces
  try dsimp only
  repeat' first
    | with_reducible assumption
    | with_reducible apply State.seatFace_keeps
    | with_reducible apply Keeps.foldl
    | with_reducible apply Keeps.foldlFst
    | intro _
    | with_reducible split
    | assumption
    | rfl
    | apply State.seatFace_keeps

theorem State.giveParts_keeps {σ₀ σ : State} (hk : Keeps σ₀ σ) : Keeps σ₀ (State.giveParts σ) := by
  have ht : ∀ c : ClkPart, Keeps σ₀ ((List.range 5).foldl (fun (u : State) g =>
      let m := nth default c.groups g
      if m.paced && (u.crossing g).forced then u
      else if m = (u.crossing g).mode then u.modCross g (fun x => { x with asked := none })
      else u.modCross g (fun x => { x with asked := some m })) σ) := by
    intro c
    apply Keeps.foldl hk
    intro b x hb
    dsimp only
    split
    · exact hb
    · split
      · exact State.modCross_keeps hb _ _
      · exact State.modCross_keeps hb _ _
  have h1 : Keeps σ₀ (match σ.clkPart with
      | some c =>
        let t := (List.range 5).foldl (fun (u : State) g =>
          let m := nth default c.groups g
          if m.paced && (u.crossing g).forced then u
          else if m = (u.crossing g).mode then u.modCross g (fun x => { x with asked := none })
          else u.modCross g (fun x => { x with asked := some m })) σ
        if t.surge.withdrawn then t else { t with surge := { t.surge with en := c.surge != 0 } }
      | none => σ) := by
    split
    · rename_i c _
      have h := ht c
      dsimp only at h ⊢
      revert h
      generalize List.foldl _ σ _ = t
      intro h
      split
      · exact h
      · exact h
    · exact hk
  unfold State.giveParts
  dsimp only at h1 ⊢
  split
  · apply Keeps.health h1
    exact fun h => h
  · exact h1

theorem State.bringUp_keeps {σ₀ σ : State} (hk : Keeps σ₀ σ) (p : Nat) :
    Keeps σ₀ (State.bringUp σ p) := by
  unfold State.bringUp
  extract_lets s1
  have hk_s1 : Keeps σ₀ s1 := by
    dsimp only [s1]
    repeat' first
      | with_reducible assumption
      | with_reducible apply State.modPort_keeps
      | with_reducible apply State.setClk_keeps
      | with_reducible apply State.setPort_keeps
      | with_reducible apply State.modModule_keeps
      | with_reducible apply State.setEvt_keeps
      | intro _
      | with_reducible split
      | assumption
      | rfl
      | apply State.modPort_keeps
      | apply State.setClk_keeps
      | apply State.setPort_keeps
      | apply State.modModule_keeps
      | apply State.setEvt_keeps
  clear_value s1
  try dsimp only
  repeat' first
    | with_reducible assumption
    | with_reducible apply State.modPort_keeps
    | with_reducible apply State.setClk_keeps
    | with_reducible apply State.setPort_keeps
    | with_reducible apply State.modModule_keeps
    | with_reducible apply State.setEvt_keeps
    | intro _
    | with_reducible split
    | assumption
    | rfl
    | apply State.modPort_keeps
    | apply State.setClk_keeps
    | apply State.setPort_keeps
    | apply State.modModule_keeps
    | apply State.setEvt_keeps

theorem State.clearRun_keeps {σ₀ σ : State} (hk : Keeps σ₀ σ)  :
    Keeps σ₀ (State.clearRun σ) := by
  unfold State.clearRun
  try dsimp only
  repeat' first
    | with_reducible assumption
    | intro _
    | with_reducible split
    | assumption
    | rfl

theorem State.commitWhole_keeps {σ₀ σ : State} (hk : Keeps σ₀ σ) (i : Image) (hi : ∀ e ∈ i.tallies, e.2 < 2 ^ 64) :
    Keeps σ₀ (State.commitWhole σ i) := by
  have h1 : Keeps σ₀ σ.releaseAll.dropHalted.clearRun :=
    State.clearRun_keeps (State.dropHalted_keeps (State.releaseAll_keeps hk))
  unfold State.commitWhole
  generalize σ.releaseAll.dropHalted.clearRun = s1 at h1
  apply State.logEvt_keeps
  apply State.setEvt_keeps
  apply State.checkDrains_keeps
  refine Keeps.foldl ?_ _ _ (fun b x hb => State.bringUp_keeps hb _)
  apply State.giveParts_keeps
  apply State.seatFaces_keeps
  refine Keeps.foldl ?_ _ _ (fun b x hb => State.freshFace_keeps hb _ _)
  have h2 : Keeps σ₀ { s1 with tallies := i.tallies } := Keeps.tallies h1 _ (fun _ => hi)
  have h3 := Keeps.load h2 { s1.load with phase := .idle, code := 1, reason := 0, staged := none } (fun _ h => by cases h)
  exact h3

theorem State.loseImage_keeps {σ₀ σ : State} (hk : Keeps σ₀ σ)  :
    Keeps σ₀ (State.loseImage σ) := by
  unfold State.loseImage
  extract_lets s1
  have hk_s1 : Keeps σ₀ s1 := by
    dsimp only [s1]
    repeat' first
      | with_reducible assumption
      | with_reducible apply State.closeDown_keeps
      | with_reducible apply State.setClk_keeps
      | with_reducible apply State.releaseAll_keeps
      | with_reducible apply State.dropHalted_keeps
      | with_reducible apply State.clearRun_keeps
      | with_reducible apply Keeps.foldl
      | with_reducible apply Keeps.foldlFst
      | intro _
      | with_reducible split
      | assumption
      | rfl
      | apply State.closeDown_keeps
      | apply State.setClk_keeps
      | apply State.releaseAll_keeps
      | apply State.dropHalted_keeps
      | apply State.clearRun_keeps
  clear_value s1
  try dsimp only
  repeat' first
    | with_reducible assumption
    | with_reducible apply State.closeDown_keeps
    | with_reducible apply State.setClk_keeps
    | with_reducible apply State.releaseAll_keeps
    | with_reducible apply State.dropHalted_keeps
    | with_reducible apply State.clearRun_keeps
    | with_reducible apply Keeps.foldl
    | with_reducible apply Keeps.foldlFst
    | intro _
    | with_reducible split
    | assumption
    | rfl
    | apply State.closeDown_keeps
    | apply State.setClk_keeps
    | apply State.releaseAll_keeps
    | apply State.dropHalted_keeps
    | apply State.clearRun_keeps

theorem State.loadCommit_keeps {σ₀ σ : State} (hk : Keeps σ₀ σ) (hs : Sound σ₀) (bs : List Byte) (err : Bool) :
    Keeps σ₀ (State.loadCommit σ bs err) := by
  unfold State.loadCommit
  split
  · rename_i i hi
    split
    · split
      · exact State.refuseLoad_keeps (State.loseImage_keeps hk) _
      · split
        · exact State.refuseLoad_keeps (State.loseImage_keeps hk) _
        · exact State.commitWhole_keeps hk i ((hk.2.2.2.2.2.2 hs).2.2.2.2 i hi)
    · exact hk
  · exact hk

theorem State.runAgain_keeps {σ₀ σ : State} (hk : Keeps σ₀ σ) (e : Nat) :
    Keeps σ₀ (State.runAgain σ e) := by
  unfold State.runAgain
  extract_lets s1
  have hk_s1 : Keeps σ₀ s1 := by
    dsimp only [s1]
    repeat' first
      | with_reducible assumption
      | with_reducible apply State.resetRegions_keeps
      | with_reducible apply State.modCut_keeps
      | with_reducible apply State.setStatus_keeps
      | intro _
      | with_reducible split
      | assumption
      | rfl
      | apply State.resetRegions_keeps
      | apply State.modCut_keeps
      | apply State.setStatus_keeps
  clear_value s1
  try dsimp only
  repeat' first
    | with_reducible assumption
    | with_reducible apply State.resetRegions_keeps
    | with_reducible apply State.modCut_keeps
    | with_reducible apply State.setStatus_keeps
    | intro _
    | with_reducible split
    | assumption
    | rfl
    | apply State.resetRegions_keeps
    | apply State.modCut_keeps
    | apply State.setStatus_keeps

theorem State.giveTemplates_keeps {σ₀ σ : State} (hk : Keeps σ₀ σ) (p : Image) :
    Keeps σ₀ (State.giveTemplates σ p) := by
  unfold State.giveTemplates
  try dsimp only
  repeat' first
    | with_reducible assumption
    | with_reducible apply State.modHoist_keeps
    | with_reducible apply Keeps.foldl
    | with_reducible apply Keeps.foldlFst
    | intro _
    | with_reducible split
    | assumption
    | rfl
    | apply State.modHoist_keeps

theorem State.rerunReplaced_keeps {σ₀ σ : State} (hk : Keeps σ₀ σ) (p : Image) :
    Keeps σ₀ (State.rerunReplaced σ p) := by
  unfold State.rerunReplaced
  try dsimp only
  repeat' first
    | with_reducible assumption
    | with_reducible apply State.runAgain_keeps
    | with_reducible apply Keeps.foldl
    | with_reducible apply Keeps.foldlFst
    | intro _
    | with_reducible split
    | assumption
    | rfl
    | apply State.runAgain_keeps

theorem State.dropMoves_keeps {σ₀ σ : State} (hk : Keeps σ₀ σ) (p : Image) (i : Image) :
    Keeps σ₀ (State.dropMoves σ p i) := by
  unfold State.dropMoves
  try dsimp only
  repeat' first
    | with_reducible assumption
    | intro _
    | with_reducible split
    | assumption
    | rfl

theorem State.renumber_keeps {σ₀ σ : State} (hk : Keeps σ₀ σ)  :
    Keeps σ₀ (State.renumber σ) := by
  unfold State.renumber
  try dsimp only
  repeat' first
    | with_reducible assumption
    | with_reducible apply State.modFace_keeps
    | with_reducible apply Keeps.foldl
    | with_reducible apply Keeps.foldlFst
    | intro _
    | with_reducible split
    | assumption
    | rfl
    | apply State.modFace_keeps

theorem State.unseat_keeps {σ₀ σ : State} (hk : Keeps σ₀ σ) (n : Nat) :
    Keeps σ₀ (State.unseat σ n) := by
  unfold State.unseat
  try dsimp only
  repeat' first
    | with_reducible assumption
    | with_reducible apply State.modFace_keeps
    | with_reducible apply State.modSpare_keeps
    | intro _
    | with_reducible split
    | assumption
    | rfl
    | apply State.modFace_keeps
    | apply State.modSpare_keeps

theorem State.seatByFill_keeps {σ₀ σ : State} (hk : Keeps σ₀ σ) (w n : Nat) :
    Keeps σ₀ (State.seatByFill σ w n) := by
  unfold State.seatByFill
  try dsimp only
  repeat' first
    | with_reducible assumption
    | with_reducible apply State.startFill_keeps
    | intro _
    | with_reducible split
    | assumption
    | rfl
    | apply State.startFill_keeps

theorem State.facePartition_keeps {σ₀ σ : State} (hk : Keeps σ₀ σ) (old : Option Nat) (n : Nat) :
    Keeps σ₀ (State.facePartition σ old n) := by
  unfold State.facePartition
  try dsimp only
  repeat' first
    | with_reducible assumption
    | with_reducible apply State.unseat_keeps
    | with_reducible apply State.seatByFill_keeps
    | with_reducible apply State.renumber_keeps
    | intro _
    | with_reducible split
    | assumption
    | rfl
    | apply State.unseat_keeps
    | apply State.seatByFill_keeps
    | apply State.renumber_keeps

theorem State.partialModes_keeps {σ₀ σ : State} (hk : Keeps σ₀ σ) (p : Image) :
    Keeps σ₀ (State.partialModes σ p) := by
  unfold State.partialModes
  try dsimp only
  repeat' first
    | with_reducible assumption
    | with_reducible apply State.giveModes_keeps
    | with_reducible apply State.modFace_keeps
    | with_reducible apply State.writeCal_keeps
    | with_reducible apply Keeps.foldl
    | with_reducible apply Keeps.foldlFst
    | intro _
    | with_reducible split
    | assumption
    | rfl
    | apply State.giveModes_keeps
    | apply State.modFace_keeps
    | apply State.writeCal_keeps

theorem State.commitPartial_keeps {σ₀ σ : State} (hk : Keeps σ₀ σ) (p : Image) :
    Keeps σ₀ (State.commitPartial σ p) := by
  have h3 : Keeps σ₀ { σ with load := { σ.load with phase := .idle, code := 1, reason := 0, staged := none } } :=
    Keeps.load hk _ (fun _ h => by cases h)
  unfold State.commitPartial
  dsimp only
  apply State.logEvt_keeps
  apply State.setEvt_keeps
  apply State.checkDrains_keeps
  apply State.rerunReplaced_keeps
  have k : ∀ u, Keeps σ₀ u → ∀ (c : Prop) [Decidable c] w n, Keeps σ₀ (if c then State.facePartition u w n else u) := by
    intro u hu c _ w n
    split
    · exact State.facePartition_keeps hu _ _
    · exact hu
  apply k
  apply State.dropMoves_keeps
  apply State.partialModes_keeps
  apply State.giveTemplates_keeps
  exact h3

theorem State.partialCommit_keeps {σ₀ σ : State} (hk : Keeps σ₀ σ) (bs : List Byte) (err : Bool) :
    Keeps σ₀ (State.partialCommit σ bs err) := by
  unfold State.partialCommit
  try dsimp only
  repeat' first
    | with_reducible assumption
    | with_reducible apply State.refuseLoad_keeps
    | with_reducible apply State.commitPartial_keeps
    | intro _
    | with_reducible split
    | assumption
    | rfl
    | apply State.refuseLoad_keeps
    | apply State.commitPartial_keeps

end Sys2Proof.Machine
end

