-- ==== Sys2Proof/Laws/KeepsStart.lean ====
section
/-! SUPPORT. What the operations of `Machine/Start.lean` keep (`Keeps`). -/

namespace Sys2Proof.Machine

set_option linter.all false

theorem State.openEntry_keeps {σ₀ σ : State} (hk : Keeps σ₀ σ) (step : Nat) (restored : Bool) (e : Nat) :
    Keeps σ₀ (State.openEntry step restored σ e) := by
  unfold State.openEntry
  try dsimp only
  repeat' first
    | with_reducible assumption
    | with_reducible apply State.modCut_keeps
    | with_reducible apply State.setStatus_keeps
    | intro _
    | with_reducible split
    | assumption
    | rfl
    | apply State.modCut_keeps
    | apply State.setStatus_keeps

theorem State.refuseEntry_keeps {σ₀ σ : State} (hk : Keeps σ₀ σ) (step : Nat) (restored : Bool) (e : Nat) :
    Keeps σ₀ (State.refuseEntry step restored σ e) := by
  unfold State.refuseEntry
  try dsimp only
  repeat' first
    | with_reducible assumption
    | with_reducible apply State.refuse_keeps
    | intro _
    | with_reducible split
    | assumption
    | rfl
    | apply State.refuse_keeps

theorem State.stepOpen_keeps {σ₀ σ : State} (hk : Keeps σ₀ σ) (w : Nat) :
    Keeps σ₀ (State.stepOpen σ w) := by
  unfold State.stepOpen
  try dsimp only
  repeat' first
    | with_reducible assumption
    | with_reducible apply State.modWork_keeps
    | with_reducible apply State.openEntry_keeps
    | with_reducible apply State.refuseEntry_keeps
    | with_reducible apply State.tryClose_keeps
    | with_reducible apply Keeps.foldl
    | with_reducible apply Keeps.foldlFst
    | intro _
    | with_reducible split
    | assumption
    | rfl
    | apply State.modWork_keeps
    | apply State.openEntry_keeps
    | apply State.refuseEntry_keeps
    | apply State.tryClose_keeps

theorem State.claimAll_keeps {σ₀ σ : State} (hk : Keeps σ₀ σ) (i : Image) (e : Nat) (r : StartReads) :
    Keeps σ₀ (State.claimAll σ i e r) := by
  unfold State.claimAll
  try dsimp only
  repeat' first
    | with_reducible assumption
    | with_reducible apply State.modCut_keeps
    | with_reducible apply State.modHoist_keeps
    | with_reducible apply State.orFlags_keeps
    | with_reducible apply Keeps.foldl
    | with_reducible apply Keeps.foldlFst
    | intro _
    | with_reducible split
    | assumption
    | rfl
    | apply State.modCut_keeps
    | apply State.modHoist_keeps
    | apply State.orFlags_keeps

theorem State.startW_keeps {σ₀ σ : State} (hk : Keeps σ₀ σ) (e : Nat) :
    Keeps σ₀ (State.startW σ e) := by
  unfold State.startW
  try dsimp only
  repeat' first
    | with_reducible assumption
    | with_reducible apply State.dealStart_keeps
    | with_reducible apply State.checkSlice_keeps
    | with_reducible apply Keeps.foldl
    | with_reducible apply Keeps.foldlFst
    | intro _
    | with_reducible split
    | assumption
    | rfl
    | apply State.dealStart_keeps
    | apply State.checkSlice_keeps

theorem State.sendOwn_keeps {σ₀ σ : State} (hk : Keeps σ₀ σ) (e : Nat) (a : AArea) (r : StartReads) :
    Keeps σ₀ (State.sendOwn σ e a r) := by
  unfold State.sendOwn
  try dsimp only
  repeat' first
    | with_reducible assumption
    | with_reducible apply State.sendStream_keeps
    | intro _
    | with_reducible split
    | assumption
    | rfl
    | apply State.sendStream_keeps

theorem State.startA_keeps {σ₀ σ : State} (hk : Keeps σ₀ σ) (e : Nat) (a : AArea) (r : StartReads) :
    Keeps σ₀ (State.startA σ e a r) := by
  unfold State.startA
  extract_lets s1
  have hk_s1 : Keeps σ₀ s1 := by
    dsimp only [s1]
    repeat' first
      | with_reducible assumption
      | with_reducible apply State.sendOwn_keeps
      | with_reducible apply State.dealStart_keeps
      | with_reducible apply State.sweepA_keeps
      | intro _
      | with_reducible split
      | assumption
      | rfl
      | apply State.sendOwn_keeps
      | apply State.dealStart_keeps
      | apply State.sweepA_keeps
  clear_value s1
  try dsimp only
  repeat' first
    | with_reducible assumption
    | with_reducible apply State.sendOwn_keeps
    | with_reducible apply State.dealStart_keeps
    | with_reducible apply State.sweepA_keeps
    | intro _
    | with_reducible split
    | assumption
    | rfl
    | apply State.sendOwn_keeps
    | apply State.dealStart_keeps
    | apply State.sweepA_keeps

theorem State.startU_keeps {σ₀ σ : State} (hk : Keeps σ₀ σ) (e : Nat) :
    Keeps σ₀ (State.startU σ e) := by
  unfold State.startU
  try dsimp only
  repeat' first
    | with_reducible assumption
    | with_reducible apply State.halt_keeps
    | intro _
    | with_reducible split
    | assumption
    | rfl
    | apply State.halt_keeps

theorem State.startX_keeps {σ₀ σ : State} (hk : Keeps σ₀ σ) (e : Nat) (x : XArea) :
    Keeps σ₀ (State.startX σ e x) := by
  unfold State.startX
  try dsimp only
  repeat' first
    | with_reducible assumption
    | with_reducible apply State.modUnit_keeps
    | with_reducible apply State.pushTx_keeps
    | with_reducible apply Keeps.foldl
    | with_reducible apply Keeps.foldlFst
    | intro _
    | with_reducible split
    | assumption
    | rfl
    | apply State.modUnit_keeps
    | apply State.pushTx_keeps

theorem State.startV_keeps {σ₀ σ : State} (hk : Keeps σ₀ σ) (e : Nat) (a : VArea) :
    Keeps σ₀ (State.startV σ e a) := by
  unfold State.startV
  extract_lets c s1
  have hk_s1 : Keeps σ₀ s1 := by
    dsimp only [s1]
    repeat' first
      | with_reducible assumption
      | with_reducible apply State.modUnit_keeps
      | with_reducible apply State.pushTx_keeps
      | intro _
      | with_reducible split
      | assumption
      | rfl
      | apply State.modUnit_keeps
      | apply State.pushTx_keeps
  clear_value s1
  try dsimp only
  repeat' first
    | with_reducible assumption
    | with_reducible apply State.modUnit_keeps
    | with_reducible apply State.pushTx_keeps
    | intro _
    | with_reducible split
    | assumption
    | rfl
    | apply State.modUnit_keeps
    | apply State.pushTx_keeps

theorem State.beginCut_keeps {σ₀ σ : State} (hk : Keeps σ₀ σ) (e : Nat) (r : StartReads) :
    Keeps σ₀ (State.beginCut σ e r) := by
  unfold State.beginCut
  try dsimp only
  repeat' first
    | with_reducible assumption
    | with_reducible apply State.dealStart_keeps
    | with_reducible apply State.startW_keeps
    | with_reducible apply State.startA_keeps
    | with_reducible apply State.startU_keeps
    | with_reducible apply State.startX_keeps
    | with_reducible apply State.startV_keeps
    | intro _
    | with_reducible split
    | assumption
    | rfl
    | apply State.dealStart_keeps
    | apply State.startW_keeps
    | apply State.startA_keeps
    | apply State.startU_keeps
    | apply State.startX_keeps
    | apply State.startV_keeps

theorem State.startLost_keeps {σ₀ σ : State} (hk : Keeps σ₀ σ) (e : Nat) (p : Nat) :
    Keeps σ₀ (State.startLost σ e p) := by
  unfold State.startLost
  extract_lets d step group msg s1
  have hk_s1 : Keeps σ₀ s1 := by
    dsimp only [s1]
    repeat' first
      | with_reducible assumption
      | with_reducible apply State.sendCtl_keeps
      | with_reducible apply State.modCut_keeps
      | with_reducible apply State.endCut_keeps
      | with_reducible apply Keeps.foldl
      | with_reducible apply Keeps.foldlFst
      | intro _
      | with_reducible split
      | assumption
      | rfl
      | apply State.sendCtl_keeps
      | apply State.modCut_keeps
      | apply State.endCut_keeps
  clear_value s1
  try dsimp only
  repeat' first
    | with_reducible assumption
    | with_reducible apply State.sendCtl_keeps
    | with_reducible apply State.modCut_keeps
    | with_reducible apply State.endCut_keeps
    | with_reducible apply Keeps.foldl
    | with_reducible apply Keeps.foldlFst
    | intro _
    | with_reducible split
    | assumption
    | rfl
    | apply State.sendCtl_keeps
    | apply State.modCut_keeps
    | apply State.endCut_keeps

theorem State.awaitStart_keeps {σ₀ σ : State} (hk : Keeps σ₀ σ) (e : Nat) :
    Keeps σ₀ (State.awaitStart σ e) := by
  unfold State.awaitStart
  try dsimp only
  repeat' first
    | with_reducible assumption
    | with_reducible apply State.wakeAll_keeps
    | with_reducible apply State.noteHeld_keeps
    | intro _
    | with_reducible split
    | assumption
    | rfl
    | apply State.wakeAll_keeps
    | apply State.noteHeld_keeps

theorem State.cutStart_keeps {σ₀ σ : State} (hk : Keeps σ₀ σ) (e : Nat) (r : StartReads) :
    Keeps σ₀ (State.cutStart σ e r) := by
  unfold State.cutStart
  try dsimp only
  repeat' first
    | with_reducible assumption
    | with_reducible apply State.awaitStart_keeps
    | with_reducible apply State.startLost_keeps
    | with_reducible apply State.refuse_keeps
    | with_reducible apply State.claimAll_keeps
    | with_reducible apply State.beginCut_keeps
    | intro _
    | with_reducible split
    | assumption
    | rfl
    | apply State.awaitStart_keeps
    | apply State.startLost_keeps
    | apply State.refuse_keeps
    | apply State.claimAll_keeps
    | apply State.beginCut_keeps

theorem State.evictionDone_keeps {σ₀ σ : State} (hk : Keeps σ₀ σ) (e : Nat) (r : StartReads) :
    Keeps σ₀ (State.evictionDone σ e r) := by
  unfold State.evictionDone
  extract_lets s1
  have hk_s1 : Keeps σ₀ s1 := by
    dsimp only [s1]
    repeat' first
      | with_reducible assumption
      | with_reducible apply State.finishEviction_keeps
      | with_reducible apply State.cutStart_keeps
      | intro _
      | with_reducible split
      | assumption
      | rfl
      | apply State.finishEviction_keeps
      | apply State.cutStart_keeps
  clear_value s1
  try dsimp only
  repeat' first
    | with_reducible assumption
    | with_reducible apply State.finishEviction_keeps
    | with_reducible apply State.cutStart_keeps
    | intro _
    | with_reducible split
    | assumption
    | rfl
    | apply State.finishEviction_keeps
    | apply State.cutStart_keeps

theorem State.cutEnd_keeps {σ₀ σ : State} (hk : Keeps σ₀ σ) (e : Nat) :
    Keeps σ₀ (State.cutEnd σ e) := by
  unfold State.cutEnd
  extract_lets s1
  have hk_s1 : Keeps σ₀ s1 := by
    dsimp only [s1]
    repeat' first
      | with_reducible assumption
      | with_reducible apply State.publish_keeps
      | with_reducible apply State.endStreams_keeps
      | with_reducible apply State.endCut_keeps
      | intro _
      | with_reducible split
      | assumption
      | rfl
      | apply State.publish_keeps
      | apply State.endStreams_keeps
      | apply State.endCut_keeps
  clear_value s1
  try dsimp only
  repeat' first
    | with_reducible assumption
    | with_reducible apply State.publish_keeps
    | with_reducible apply State.endStreams_keeps
    | with_reducible apply State.endCut_keeps
    | intro _
    | with_reducible split
    | assumption
    | rfl
    | apply State.publish_keeps
    | apply State.endStreams_keeps
    | apply State.endCut_keeps

theorem State.rerunWrite_keeps {σ₀ σ : State} (hk : Keeps σ₀ σ) (e : Nat) :
    Keeps σ₀ (State.rerunWrite σ e) := by
  unfold State.rerunWrite
  try dsimp only
  repeat' first
    | with_reducible assumption
    | with_reducible apply State.runAgain_keeps
    | with_reducible apply State.badWrite_keeps
    | intro _
    | with_reducible split
    | assumption
    | rfl
    | apply State.runAgain_keeps
    | apply State.badWrite_keeps

theorem State.runWorking_keeps {σ₀ σ : State} (hk : Keeps σ₀ σ) (w : Nat) :
    Keeps σ₀ (State.runWorking σ w) := by
  unfold State.runWorking
  try dsimp only
  repeat' first
    | with_reducible assumption
    | with_reducible apply State.modWork_keeps
    | with_reducible apply State.resumeWorking_keeps
    | intro _
    | with_reducible split
    | assumption
    | rfl
    | apply State.modWork_keeps
    | apply State.resumeWorking_keeps

theorem State.stopWorking_keeps {σ₀ σ : State} (hk : Keeps σ₀ σ) (w : Nat) :
    Keeps σ₀ (State.stopWorking σ w) := by
  unfold State.stopWorking
  try dsimp only
  repeat' first
    | with_reducible assumption
    | with_reducible apply State.modWork_keeps
    | intro _
    | with_reducible split
    | assumption
    | rfl
    | apply State.modWork_keeps

theorem State.preemptSet_keeps {σ₀ σ : State} (hk : Keeps σ₀ σ) (w : Nat) :
    Keeps σ₀ (State.preemptSet σ w) := by
  unfold State.preemptSet
  try dsimp only
  repeat' first
    | with_reducible assumption
    | with_reducible apply State.modGlb_keeps
    | with_reducible apply State.preemptWorking_keeps
    | intro _
    | with_reducible split
    | assumption
    | rfl
    | apply State.modGlb_keeps
    | apply State.preemptWorking_keeps

theorem State.preemptClear_keeps {σ₀ σ : State} (hk : Keeps σ₀ σ) (w : Nat) :
    Keeps σ₀ (State.preemptClear σ w) := by
  unfold State.preemptClear
  try dsimp only
  repeat' first
    | with_reducible assumption
    | with_reducible apply State.modGlb_keeps
    | with_reducible apply State.resumeWorking_keeps
    | intro _
    | with_reducible split
    | assumption
    | rfl
    | apply State.modGlb_keeps
    | apply State.resumeWorking_keeps

end Sys2Proof.Machine
end

