-- ==== Sys2Proof/Laws/KeepsRegWrite.lean ====
section
/-! SUPPORT. What the operations of `Machine/RegWrite.lean` keep (`Keeps`). -/

namespace Sys2Proof.Machine

set_option linter.all false

theorem State.riskThrWrite_keeps {σ₀ σ : State} (hk : Keeps σ₀ σ) (v : Nat) :
    Keeps σ₀ (State.riskThrWrite σ v) := by
  unfold State.riskThrWrite
  try dsimp only
  repeat' first
    | with_reducible assumption
    | with_reducible apply State.badWrite_keeps
    | with_reducible apply State.setPending_keeps
    | intro _
    | with_reducible split
    | assumption
    | rfl
    | apply State.badWrite_keeps
    | apply State.setPending_keeps

theorem State.baudWrite_keeps {σ₀ σ : State} (hk : Keeps σ₀ σ) (v : Nat) :
    Keeps σ₀ (State.baudWrite σ v) := by
  unfold State.baudWrite
  try dsimp only
  repeat' first
    | with_reducible assumption
    | with_reducible apply State.badWrite_keeps
    | intro _
    | with_reducible split
    | assumption
    | rfl
    | apply State.badWrite_keeps

theorem State.surgeWrite_keeps {σ₀ σ : State} (hk : Keeps σ₀ σ) (v : Nat) :
    Keeps σ₀ (State.surgeWrite σ v) := by
  unfold State.surgeWrite
  try dsimp only
  repeat' first
    | with_reducible assumption
    | intro _
    | with_reducible split
    | assumption
    | rfl

theorem State.ctlWrite_keeps {σ₀ σ : State} (hk : Keeps σ₀ σ) (v : Nat) :
    Keeps σ₀ (State.ctlWrite σ v) := by
  unfold State.ctlWrite
  try dsimp only
  repeat' first
    | with_reducible assumption
    | with_reducible apply State.badWrite_keeps
    | with_reducible apply State.sleepWrite_keeps
    | with_reducible apply State.tripClear_keeps
    | with_reducible apply State.hostReset_keeps
    | with_reducible apply State.resetOver_keeps
    | intro _
    | with_reducible split
    | assumption
    | rfl
    | apply State.badWrite_keeps
    | apply State.sleepWrite_keeps
    | apply State.tripClear_keeps
    | apply State.hostReset_keeps
    | apply State.resetOver_keeps

theorem State.preemptWrite_keeps {σ₀ σ : State} (hk : Keeps σ₀ σ) (v : Nat) :
    Keeps σ₀ (State.preemptWrite σ v) := by
  unfold State.preemptWrite
  try dsimp only
  repeat' first
    | with_reducible assumption
    | with_reducible apply State.preemptSet_keeps
    | with_reducible apply State.preemptClear_keeps
    | with_reducible apply Keeps.foldl
    | with_reducible apply Keeps.foldlFst
    | intro _
    | with_reducible split
    | assumption
    | rfl
    | apply State.preemptSet_keeps
    | apply State.preemptClear_keeps

theorem State.glbWrite_keeps {σ₀ σ : State} (hk : Keeps σ₀ σ) (off v : Nat) :
    Keeps σ₀ (State.glbWrite σ off v) := by
  unfold State.glbWrite
  try dsimp only
  repeat' first
    | with_reducible assumption
    | with_reducible apply State.ctlWrite_keeps
    | with_reducible apply State.modGlb_keeps
    | with_reducible apply State.preemptWrite_keeps
    | intro _
    | with_reducible split
    | assumption
    | rfl
    | apply State.ctlWrite_keeps
    | apply State.modGlb_keeps
    | apply State.preemptWrite_keeps

theorem State.powerWrite_keeps {σ₀ σ : State} (hk : Keeps σ₀ σ) (off v : Nat) :
    Keeps σ₀ (State.powerWrite σ off v) := by
  unfold State.powerWrite
  try dsimp only
  repeat' first
    | with_reducible assumption
    | with_reducible apply State.surgeWrite_keeps
    | with_reducible apply State.pwrFaceWrite_keeps
    | with_reducible apply State.crossWrite_keeps
    | intro _
    | with_reducible split
    | assumption
    | rfl
    | apply State.surgeWrite_keeps
    | apply State.pwrFaceWrite_keeps
    | apply State.crossWrite_keeps

theorem State.schedWrite_keeps {σ₀ σ : State} (hk : Keeps σ₀ σ) (o v : Nat) :
    Keeps σ₀ (State.schedWrite σ o v) := by
  unfold State.schedWrite
  try dsimp only
  repeat' first
    | with_reducible assumption
    | with_reducible apply State.runWorking_keeps
    | with_reducible apply State.stopWorking_keeps
    | with_reducible apply State.loadStart_keeps
    | with_reducible apply State.rerunWrite_keeps
    | with_reducible apply State.tallyAdd_keeps
    | intro _
    | with_reducible split
    | assumption
    | rfl
    | apply State.runWorking_keeps
    | apply State.stopWorking_keeps
    | apply State.loadStart_keeps
    | apply State.rerunWrite_keeps
    | apply State.tallyAdd_keeps

theorem State.slcWrite_keeps {σ₀ σ : State} (hk : Keeps σ₀ σ) (p o v : Nat) :
    Keeps σ₀ (State.slcWrite σ p o v) := by
  unfold State.slcWrite
  try dsimp only
  repeat' first
    | with_reducible assumption
    | with_reducible apply State.flagModule_keeps
    | with_reducible apply State.retrain_keeps
    | intro _
    | with_reducible split
    | assumption
    | rfl
    | apply State.flagModule_keeps
    | apply State.retrain_keeps

theorem State.snapWrite_keeps {σ₀ σ : State} (hk : Keeps σ₀ σ) (v : Nat) :
    Keeps σ₀ (State.snapWrite σ v) := by
  unfold State.snapWrite
  try dsimp only
  repeat' first
    | with_reducible assumption
    | with_reducible apply State.startRestore_keeps
    | intro _
    | with_reducible split
    | assumption
    | rfl
    | apply State.startRestore_keeps

theorem State.fmnWrite_keeps {σ₀ σ : State} (hk : Keeps σ₀ σ) (o v : Nat) :
    Keeps σ₀ (State.fmnWrite σ o v) := by
  unfold State.fmnWrite
  try dsimp only
  repeat' first
    | with_reducible assumption
    | with_reducible apply State.startUpdate_keeps
    | with_reducible apply State.swapFw_keeps
    | with_reducible apply State.baudWrite_keeps
    | intro _
    | with_reducible split
    | assumption
    | rfl
    | apply State.startUpdate_keeps
    | apply State.swapFw_keeps
    | apply State.baudWrite_keeps

theorem State.lockedWrite_keeps {σ₀ σ : State} (hk : Keeps σ₀ σ) (off v : Nat) :
    Keeps σ₀ (State.lockedWrite σ off v) := by
  unfold State.lockedWrite
  try dsimp only
  repeat' first
    | with_reducible assumption
    | with_reducible apply State.setEvt_keeps
    | with_reducible apply State.logEvt_keeps
    | intro _
    | with_reducible split
    | assumption
    | rfl
    | apply State.setEvt_keeps
    | apply State.logEvt_keeps

theorem State.fceWrite_keeps {σ₀ σ : State} (hk : Keeps σ₀ σ) (n o v : Nat) :
    Keeps σ₀ (State.fceWrite σ n o v) := by
  unfold State.fceWrite
  try dsimp only
  repeat' first
    | with_reducible assumption
    | with_reducible apply State.modFace_keeps
    | with_reducible apply State.lockedWrite_keeps
    | with_reducible apply State.badWrite_keeps
    | intro _
    | with_reducible split
    | assumption
    | rfl
    | apply State.modFace_keeps
    | apply State.lockedWrite_keeps
    | apply State.badWrite_keeps

theorem Keeps.ite {s a b : State} {c : Prop} [Decidable c] (ha : Keeps s a) (hb : Keeps s b) :
    Keeps s (if c then a else b) := by
  split
  · exact ha
  · exact hb

theorem State.regWrite_keeps {σ₀ σ : State} (hk : Keeps σ₀ σ) (off v : Nat) : Keeps σ₀ (State.regWrite σ off v) := by
  unfold State.regWrite
  exact Keeps.ite (State.glbWrite_keeps hk _ _) (Keeps.ite (State.powerWrite_keeps hk _ _) (Keeps.ite
    (Keeps.ite (Keeps.yard hk _ id) hk) (Keeps.ite hk (Keeps.ite (State.schedWrite_keeps hk _ _) (Keeps.ite hk (Keeps.ite
    (State.slcWrite_keeps hk _ _ _) (Keeps.ite (Keeps.ite (State.riskThrWrite_keeps hk _)
    (Keeps.ite (Keeps.health hk _ id) hk)) (Keeps.ite (Keeps.ite (State.snapWrite_keeps hk _) hk) (Keeps.ite
    (State.fmnWrite_keeps hk _ _) (Keeps.ite (State.fceWrite_keeps hk _ _ _) hk))))))))))

theorem State.modPair_keeps {σ₀ σ : State} (hk : Keeps σ₀ σ) (who : Requester) (lo : Nat) (f : PairSide → PairSide) :
    Keeps σ₀ (State.modPair σ who lo f) := by
  unfold State.modPair
  try dsimp only
  repeat' first
    | with_reducible assumption
    | intro _
    | with_reducible split
    | assumption
    | rfl

theorem half_lt (v : Nat) (hi : Bool) : half v hi < 2 ^ 32 := by
  unfold half
  split <;> exact Nat.mod_lt _ (by decide)

theorem State.setPair_keeps {σ₀ σ : State} (hk : Keeps σ₀ σ) (lo v : Nat)
    (hv : 0x64000 ≤ lo → lo < 0x66000 → v < 2 ^ 64) : Keeps σ₀ (State.setPair σ lo v) := by
  unfold State.setPair
  split
  · exact hk
  · split
    · rename_i h
      exact Keeps.tallies hk _ (fun k => Tab.set_all (fun v => v < 2 ^ 64) σ.tallies _ v k (hv h.1 h.2))
    · split
      · exact hk
      · split
        · exact hk
        · exact hk

theorem State.stage_keeps {σ₀ σ : State} (hk : Keeps σ₀ σ) (who : Requester) (lo : Nat) (v : Nat) :
    Keeps σ₀ (State.stage σ who lo v) := by
  unfold State.stage
  try dsimp only
  repeat' first
    | with_reducible assumption
    | with_reducible apply State.modPair_keeps
    | intro _
    | with_reducible split
    | assumption
    | rfl
    | apply State.modPair_keeps

theorem State.regValue_tally (s : State) (lo : Nat) (h : 0x64000 ≤ lo) (k : lo < 0x66000) : s.regValue lo < 2 ^ 32 := by
  unfold State.regValue State.schedReg
  rw [if_neg (by omega), if_neg (by omega), if_neg (by omega), if_neg (by omega), if_pos (by omega), if_neg (by omega),
    if_neg (by omega), if_neg (by omega), if_neg (by omega), if_neg (by omega), if_neg (by omega), if_neg (by omega),
    if_neg (by omega), if_neg (by omega), if_neg (by omega), if_neg (by omega), if_pos (by omega)]
  exact half_lt _ _

theorem State.commitPair_keeps {σ₀ σ : State} (hk : Keeps σ₀ σ) (who : Requester) (lo v : Nat) :
    Keeps σ₀ (State.commitPair σ who lo v) := by
  have hv : v % 2 ^ 32 < 2 ^ 32 := Nat.mod_lt _ (by decide)
  unfold State.commitPair
  dsimp only
  cases (σ.pairSide who lo).staged with
  | none =>
    exact State.modPair_keeps (State.setPair_keeps hk _ _ (fun h k => by
      have := State.regValue_tally σ lo h k
      dsimp only
      omega)) _ _ _
  | some x =>
    exact State.modPair_keeps (State.setPair_keeps hk _ _ (fun h k => by
      have := x.isLt
      dsimp only
      omega)) _ _ _

theorem State.writeNow_keeps {σ₀ σ : State} (hk : Keeps σ₀ σ) (who : Requester) (off size v : Nat) :
    Keeps σ₀ (State.writeNow σ who off size v) := by
  unfold State.writeNow
  split
  · split
    · exact hk
    · split
      · exact Keeps.ite (State.stage_keeps hk _ _ _) (State.commitPair_keeps hk _ _ _)
      · exact State.regWrite_keeps hk _ _
  · exact hk

theorem State.giveData_keeps {σ₀ σ : State} (hk : Keeps σ₀ σ) (who : Requester) (v : Nat) :
    Keeps σ₀ (State.giveData σ who v) := by
  unfold State.giveData
  try dsimp only
  repeat' first
    | with_reducible assumption
    | intro _
    | with_reducible split
    | assumption
    | rfl

theorem State.readNow_keeps {σ₀ σ : State} (hk : Keeps σ₀ σ) (who : Requester) (off : Nat) :
    Keeps σ₀ (State.readNow σ who off) := by
  unfold State.readNow
  extract_lets s1
  have hk_s1 : Keeps σ₀ s1 := by
    dsimp only [s1]
    repeat' first
      | with_reducible assumption
      | with_reducible apply State.giveData_keeps
      | with_reducible apply State.modPair_keeps
      | intro _
      | with_reducible split
      | assumption
      | rfl
      | apply State.giveData_keeps
      | apply State.modPair_keeps
  clear_value s1
  try dsimp only
  repeat' first
    | with_reducible assumption
    | with_reducible apply State.giveData_keeps
    | with_reducible apply State.modPair_keeps
    | intro _
    | with_reducible split
    | assumption
    | rfl
    | apply State.giveData_keeps
    | apply State.modPair_keeps

theorem State.waitAccess_keeps {σ₀ σ : State} (hk : Keeps σ₀ σ) (x : BusAccess) :
    Keeps σ₀ (State.waitAccess σ x) := by
  unfold State.waitAccess
  try dsimp only
  repeat' first
    | with_reducible assumption
    | with_reducible apply State.wake_keeps
    | intro _
    | with_reducible split
    | assumption
    | rfl
    | apply State.wake_keeps

theorem State.busWrite_keeps {σ₀ σ : State} (hk : Keeps σ₀ σ) (who : Requester) (off size v : Nat) :
    Keeps σ₀ (State.busWrite σ who off size v) := by
  unfold State.busWrite
  split
  · exact State.waitAccess_keeps hk _
  · exact State.writeNow_keeps hk _ _ _ _

theorem State.busRead_keeps {σ₀ σ : State} (hk : Keeps σ₀ σ) (who : Requester) (off : Nat) :
    Keeps σ₀ (State.busRead σ who off) := by
  unfold State.busRead
  try dsimp only
  repeat' first
    | with_reducible assumption
    | with_reducible apply State.waitAccess_keeps
    | with_reducible apply State.readNow_keeps
    | intro _
    | with_reducible split
    | assumption
    | rfl
    | apply State.waitAccess_keeps
    | apply State.readNow_keeps

theorem State.tallyWrite_keeps {σ₀ σ : State} (hk : Keeps σ₀ σ) (i k : Nat) :
    Keeps σ₀ (State.tallyWrite σ i k) := by
  unfold State.tallyWrite
  try dsimp only
  repeat' first
    | with_reducible assumption
    | with_reducible apply State.tallyAdd_keeps
    | with_reducible apply State.wake_keeps
    | intro _
    | with_reducible split
    | assumption
    | rfl
    | apply State.tallyAdd_keeps
    | apply State.wake_keeps

theorem State.apertureWrite_keeps {σ₀ σ : State} (hk : Keeps σ₀ σ) (off size v : Nat) :
    Keeps σ₀ (State.apertureWrite σ off size v) := by
  unfold State.apertureWrite
  try dsimp only
  repeat' first
    | with_reducible assumption
    | with_reducible apply State.tallyWrite_keeps
    | intro _
    | with_reducible split
    | assumption
    | rfl
    | apply State.tallyWrite_keeps

end Sys2Proof.Machine
end

