-- ==== Sys2Proof/Laws/KeepsMonitor.lean ====
section
/-! SUPPORT. What the operations of `Machine/Monitor.lean` keep (`Keeps`). -/

namespace Sys2Proof.Machine

set_option linter.all false

theorem State.modMon_keeps {σ₀ σ : State} (hk : Keeps σ₀ σ) (f : Monitor → Monitor) :
    Keeps σ₀ (State.modMon σ f) := by
  unfold State.modMon
  try dsimp only
  repeat' first
    | with_reducible assumption
    | intro _
    | with_reducible split
    | assumption
    | rfl

theorem State.say_keeps {σ₀ σ : State} (hk : Keeps σ₀ σ) (ms : List MonOut) :
    Keeps σ₀ (State.say σ ms) := by
  unfold State.say
  try dsimp only
  repeat' first
    | with_reducible assumption
    | with_reducible apply State.modMon_keeps
    | intro _
    | with_reducible split
    | assumption
    | rfl
    | apply State.modMon_keeps

theorem State.endCommand_keeps {σ₀ σ : State} (hk : Keeps σ₀ σ)  :
    Keeps σ₀ (State.endCommand σ) := by
  unfold State.endCommand
  try dsimp only
  repeat' first
    | with_reducible assumption
    | with_reducible apply State.modMon_keeps
    | with_reducible apply Keeps.foldl
    | with_reducible apply Keeps.foldlFst
    | intro _
    | with_reducible split
    | assumption
    | rfl
    | apply State.modMon_keeps

theorem State.markMonitor_keeps {σ₀ σ : State} (hk : Keeps σ₀ σ) (head : Nat) :
    Keeps σ₀ (State.markMonitor σ head) :=
  ⟨hk.1, hk.2.1, hk.2.2.1, hk.2.2.2.1, hk.2.2.2.2.1, hk.2.2.2.2.2.1, fun h =>
    have k := hk.2.2.2.2.2.2 h
    ⟨k.1, k.2.1, ⟨by simpa [State.markMonitor] using k.2.2.1.1, fun r hr => by
      obtain ⟨x, hx, rfl⟩ := List.mem_map.1 hr
      have h := k.2.2.1.2 x hx
      split <;> exact h⟩, k.2.2.2⟩⟩

theorem State.monitorDo_keeps {σ₀ σ : State} (hk : Keeps σ₀ σ) (i : Instr) (f : State → State)
    (hf : ∀ a, Keeps σ₀ a → Keeps σ₀ (f a)) : Keeps σ₀ (State.monitorDo σ i f) := by
  unfold State.monitorDo
  exact Keeps.ite (State.endCommand_keeps (State.markMonitor_keeps (hf _ (State.modMon_keeps hk _)) _)) hk

theorem State.answer_keeps {σ₀ σ : State} (hk : Keeps σ₀ σ) (o : MonOut) :
    Keeps σ₀ (State.answer σ o) := by
  unfold State.answer
  try dsimp only
  repeat' first
    | with_reducible assumption
    | with_reducible apply State.say_keeps
    | intro _
    | with_reducible split
    | assumption
    | rfl
    | apply State.say_keeps

theorem State.logCommand_keeps {σ₀ σ : State} (hk : Keeps σ₀ σ) (index arg : Nat) :
    Keeps σ₀ (State.logCommand σ index arg) := by
  unfold State.logCommand
  try dsimp only
  repeat' first
    | with_reducible assumption
    | with_reducible apply State.logEvt_keeps
    | intro _
    | with_reducible split
    | assumption
    | rfl
    | apply State.logEvt_keeps

theorem State.lockedDo_keeps {σ₀ σ : State} (hk : Keeps σ₀ σ) (index arg : Nat) (error : Option Nat)
    (f : State → State) (hf : ∀ a, Keeps σ₀ a → Keeps σ₀ (f a)) : Keeps σ₀ (State.lockedDo σ index arg error f) := by
  unfold State.lockedDo
  split
  · exact State.answer_keeps hk _
  · split
    · exact State.answer_keeps hk _
    · exact State.answer_keeps (hf _ (State.logCommand_keeps hk _ _)) _

theorem State.monitorChar_keeps {σ₀ σ : State} (hk : Keeps σ₀ σ) (c : Byte) :
    Keeps σ₀ (State.monitorChar σ c) := by
  unfold State.monitorChar
  try dsimp only
  repeat' first
    | with_reducible assumption
    | with_reducible apply State.modMon_keeps
    | intro _
    | with_reducible split
    | assumption
    | rfl
    | apply State.modMon_keeps

theorem State.performRead_keeps {σ₀ σ : State} (hk : Keeps σ₀ σ) (r : MonRead) :
    Keeps σ₀ (State.performRead σ r) := by
  unfold State.performRead
  try dsimp only
  repeat' first
    | with_reducible assumption
    | with_reducible apply State.readNow_keeps
    | with_reducible apply State.say_keeps
    | intro _
    | with_reducible split
    | assumption
    | rfl
    | apply State.readNow_keeps
    | apply State.say_keeps

theorem State.readsOn_keeps {σ₀ σ : State} (hk : Keeps σ₀ σ) (rs : List MonRead) : Keeps σ₀ (State.readsOn rs σ) := by
  induction rs generalizing σ with
  | nil => exact State.say_keeps (State.modMon_keeps hk _) _
  | cons r rs ih =>
    unfold State.readsOn
    split
    · exact State.modMon_keeps (State.waitAccess_keeps hk _) _
    · exact ih (State.performRead_keeps hk _)

theorem State.rd_keeps {σ₀ σ : State} (hk : Keeps σ₀ σ) (off n : Nat) : Keeps σ₀ (State.rd σ off n) := by
  unfold State.rd
  split
  · exact State.readsOn_keeps hk _
  · exact State.answer_keeps hk _

theorem State.wr_keeps {σ₀ σ : State} (hk : Keeps σ₀ σ) (off v : Nat) : Keeps σ₀ (State.wr σ off v) := by
  unfold State.wr
  split
  · exact State.answer_keeps hk _
  · split
    · exact State.answer_keeps hk _
    · exact Keeps.ite (State.modMon_keeps (State.busWrite_keeps (State.logCommand_keeps hk _ _) _ _ _ _) _)
        (State.answer_keeps (State.busWrite_keeps (State.logCommand_keeps hk _ _) _ _ _ _) _)

theorem State.monitorGoesOn_keeps {σ₀ σ : State} (hk : Keeps σ₀ σ) (x : BusAccess) :
    Keeps σ₀ (State.monitorGoesOn σ x) := by
  unfold State.monitorGoesOn
  dsimp only
  split
  · split
    · exact State.answer_keeps (State.modMon_keeps (State.writeNow_keeps (State.modMon_keeps hk _) _ _ _ _) _) _
    · split
      · exact State.readsOn_keeps (State.performRead_keeps (State.modMon_keeps hk _) _) _
      · exact State.readsOn_keeps (State.modMon_keeps hk _) _
  · split
    · exact State.writeNow_keeps hk _ _ _ _
    · exact State.readNow_keeps hk _ _

theorem State.completeAccess_keeps {σ₀ σ : State} (hk : Keeps σ₀ σ) (x : BusAccess) :
    Keeps σ₀ (State.completeAccess σ x) := by
  have h1 : Keeps σ₀ { σ with bus := { σ.bus with waiting := σ.bus.waiting.erase x } } := hk
  unfold State.completeAccess
  dsimp only
  split
  · exact Keeps.ite (State.writeNow_keeps h1 _ _ _ _) (State.readNow_keeps h1 _ _)
  · exact State.endCommand_keeps (State.markMonitor_keeps (State.monitorGoesOn_keeps h1 _) _)

theorem State.accessComplete_keeps {σ₀ σ : State} (hk : Keeps σ₀ σ) (t : Tile) : Keeps σ₀ (State.accessComplete σ t) := by
  unfold State.accessComplete
  split
  · exact Keeps.ite (State.completeAccess_keeps hk _) (State.wake_keeps hk _)
  · exact hk

theorem State.logCmd_keeps {σ₀ σ : State} (hk : Keeps σ₀ σ) (n : Nat) (seq : Option Nat) :
    Keeps σ₀ (State.logCmd σ n seq) := by
  unfold State.logCmd
  try dsimp only
  repeat' first
    | with_reducible assumption
    | with_reducible apply State.say_keeps
    | with_reducible apply State.answer_keeps
    | intro _
    | with_reducible split
    | assumption
    | rfl
    | apply State.say_keeps
    | apply State.answer_keeps

theorem State.unlock_keeps {σ₀ σ : State} (hk : Keeps σ₀ σ) (draw : Word) :
    Keeps σ₀ (State.unlock σ draw) := by
  unfold State.unlock
  try dsimp only
  repeat' first
    | with_reducible assumption
    | with_reducible apply State.answer_keeps
    | with_reducible apply State.modMon_keeps
    | with_reducible apply State.say_keeps
    | intro _
    | with_reducible split
    | assumption
    | rfl
    | apply State.answer_keeps
    | apply State.modMon_keeps
    | apply State.say_keeps

theorem State.unlockResponse_keeps {σ₀ σ : State} (hk : Keeps σ₀ σ) (resp : Word) :
    Keeps σ₀ (State.unlockResponse σ resp) := by
  unfold State.unlockResponse
  try dsimp only
  repeat' first
    | with_reducible assumption
    | with_reducible apply State.answer_keeps
    | with_reducible apply State.modMon_keeps
    | intro _
    | with_reducible split
    | assumption
    | rfl
    | apply State.answer_keeps
    | apply State.modMon_keeps

theorem State.lockSession_keeps {σ₀ σ : State} (hk : Keeps σ₀ σ)  :
    Keeps σ₀ (State.lockSession σ) := by
  unfold State.lockSession
  try dsimp only
  repeat' first
    | with_reducible assumption
    | with_reducible apply State.modMon_keeps
    | intro _
    | with_reducible split
    | assumption
    | rfl
    | apply State.modMon_keeps

theorem State.baudCmd_keeps {σ₀ σ : State} (hk : Keeps σ₀ σ) (rate : Nat) :
    Keeps σ₀ (State.baudCmd σ rate) := by
  unfold State.baudCmd
  try dsimp only
  repeat' first
    | with_reducible assumption
    | with_reducible apply State.answer_keeps
    | with_reducible apply State.lockSession_keeps
    | with_reducible apply State.baudWrite_keeps
    | intro _
    | with_reducible split
    | assumption
    | rfl
    | apply State.answer_keeps
    | apply State.lockSession_keeps
    | apply State.baudWrite_keeps

theorem State.retireCmd_keeps {σ₀ σ : State} (hk : Keeps σ₀ σ) (n : Nat) :
    Keeps σ₀ (State.retireCmd σ n) := by
  unfold State.retireCmd
  try dsimp only
  repeat' first
    | with_reducible assumption
    | with_reducible apply State.lockedDo_keeps
    | with_reducible apply State.retireFace_keeps
    | intro _
    | with_reducible split
    | assumption
    | rfl
    | apply State.lockedDo_keeps
    | apply State.retireFace_keeps

theorem State.refillBench_keeps {σ₀ σ : State} (hk : Keeps σ₀ σ) (n : Nat) :
    Keeps σ₀ (State.refillBench σ n) := by
  unfold State.refillBench
  try dsimp only
  repeat' first
    | with_reducible assumption
    | with_reducible apply State.modSpare_keeps
    | with_reducible apply State.modFace_keeps
    | with_reducible apply Keeps.foldl
    | with_reducible apply Keeps.foldlFst
    | intro _
    | with_reducible split
    | assumption
    | rfl
    | apply State.modSpare_keeps
    | apply State.modFace_keeps

theorem State.returnBench_keeps {σ₀ σ : State} (hk : Keeps σ₀ σ) (n k : Nat) :
    Keeps σ₀ (State.returnBench σ n k) := by
  unfold State.returnBench
  try dsimp only
  repeat' first
    | with_reducible assumption
    | with_reducible apply State.modSpare_keeps
    | with_reducible apply State.refillBench_keeps
    | intro _
    | with_reducible split
    | assumption
    | rfl
    | apply State.modSpare_keeps
    | apply State.refillBench_keeps

theorem State.refillBuffers_keeps {σ₀ σ : State} (hk : Keeps σ₀ σ)  :
    Keeps σ₀ (State.refillBuffers σ) := by
  unfold State.refillBuffers
  try dsimp only
  repeat' first
    | with_reducible assumption
    | with_reducible apply State.modSpare_keeps
    | with_reducible apply Keeps.foldl
    | with_reducible apply Keeps.foldlFst
    | intro _
    | with_reducible split
    | assumption
    | rfl
    | apply State.modSpare_keeps

theorem State.returnDp_keeps {σ₀ σ : State} (hk : Keeps σ₀ σ) (p : Nat) :
    Keeps σ₀ (State.returnDp σ p) := by
  unfold State.returnDp
  try dsimp only
  repeat' first
    | with_reducible assumption
    | with_reducible apply State.retrain_keeps
    | with_reducible apply State.modUnit_keeps
    | with_reducible apply State.modSpare_keeps
    | intro _
    | with_reducible split
    | assumption
    | rfl
    | apply State.retrain_keeps
    | apply State.modUnit_keeps
    | apply State.modSpare_keeps

theorem State.returnUnit_keeps {σ₀ σ : State} (hk : Keeps σ₀ σ) (k : ReturnKind) :
    Keeps σ₀ (State.returnUnit σ k) := by
  unfold State.returnUnit
  try dsimp only
  repeat' first
    | with_reducible assumption
    | with_reducible apply State.rejoin_keeps
    | with_reducible apply State.joinCuts_keeps
    | with_reducible apply State.recheckBenches_keeps
    | with_reducible apply State.returnBench_keeps
    | with_reducible apply State.modSpare_keeps
    | with_reducible apply State.refillBuffers_keeps
    | with_reducible apply State.returnDp_keeps
    | intro _
    | with_reducible split
    | assumption
    | rfl
    | apply State.rejoin_keeps
    | apply State.joinCuts_keeps
    | apply State.recheckBenches_keeps
    | apply State.returnBench_keeps
    | apply State.modSpare_keeps
    | apply State.refillBuffers_keeps
    | apply State.returnDp_keeps

theorem State.returnCmd_keeps {σ₀ σ : State} (hk : Keeps σ₀ σ) (k : ReturnKind) (passed : Bool) :
    Keeps σ₀ (State.returnCmd σ k passed) := by
  unfold State.returnCmd
  try dsimp only
  repeat' first
    | with_reducible assumption
    | with_reducible apply State.lockedDo_keeps
    | with_reducible apply State.returnUnit_keeps
    | intro _
    | with_reducible split
    | assumption
    | rfl
    | apply State.lockedDo_keeps
    | apply State.returnUnit_keeps

theorem State.injectCmd_keeps {σ₀ σ : State} (hk : Keeps σ₀ σ) (k : InjectKind) :
    Keeps σ₀ (State.injectCmd σ k) := by
  unfold State.injectCmd
  try dsimp only
  repeat' first
    | with_reducible assumption
    | with_reducible apply State.lockedDo_keeps
    | with_reducible apply State.modMon_keeps
    | with_reducible apply State.answer_keeps
    | intro _
    | with_reducible split
    | assumption
    | rfl
    | apply State.lockedDo_keeps
    | apply State.modMon_keeps
    | apply State.answer_keeps

theorem State.fwSwapCmd_keeps {σ₀ σ : State} (hk : Keeps σ₀ σ)  :
    Keeps σ₀ (State.fwSwapCmd σ) := by
  unfold State.fwSwapCmd
  try dsimp only
  repeat' first
    | with_reducible assumption
    | with_reducible apply State.answer_keeps
    | with_reducible apply State.logCommand_keeps
    | with_reducible apply State.swapFw_keeps
    | intro _
    | with_reducible split
    | assumption
    | rfl
    | apply State.answer_keeps
    | apply State.logCommand_keeps
    | apply State.swapFw_keeps

theorem State.testDrain_keeps {σ₀ σ : State} (hk : Keeps σ₀ σ) : Keeps σ₀ (State.testDrain σ) := by
  unfold State.testDrain
  dsimp only
  refine Keeps.foldl ?_ _ _ (fun b w hb => ?_)
  · exact hk
  · split
    · exact State.preemptWorking_keeps hb _
    · exact hb

theorem State.snapDrain_keeps {σ₀ σ : State} (hk : Keeps σ₀ σ)  :
    Keeps σ₀ (State.snapDrain σ) := by
  unfold State.snapDrain
  try dsimp only
  repeat' first
    | with_reducible assumption
    | with_reducible apply State.lockedDo_keeps
    | with_reducible apply State.testDrain_keeps
    | intro _
    | with_reducible split
    | assumption
    | rfl
    | apply State.lockedDo_keeps
    | apply State.testDrain_keeps

end Sys2Proof.Machine
end

