-- ==== Sys2Proof/Laws/KeepsExec.lean ====
section
/-! SUPPORT. What the command meanings keep (`Keeps`): all but those of power, reset and the key store. -/

namespace Sys2Proof.Machine

set_option linter.all false

/-- A command that runs while the engine has its supplies keeps what its effect keeps. -/
theorem State.on_keeps {s t : State} {f : State → State} (h : s.on f = .next t) (k : Keeps s (f s)) : Keeps s t := by
  unfold State.on at h
  injection h with h
  subst h
  exact Keeps.ite k (Keeps.refl s)

theorem execStationaryLoadFull_keeps (f : Fin 72) (b : Fin 4) (tag : Nat) (load : StatLoad) {s t : State}
    (h : execStationaryLoadFull f b tag load s = .next t) : Keeps s t := by
  refine State.on_keeps h ?_
  have hk := Keeps.refl s
  try dsimp only
  repeat' first
    | with_reducible assumption
    | with_reducible apply State.loadFull_keeps
    | intro _
    | with_reducible split
    | assumption
    | rfl
    | apply State.loadFull_keeps

theorem execScaleUnitDone_keeps (f : Fin 72) (b : Fin 4) (preamble : List (List Nat)) {s t : State}
    (h : execScaleUnitDone f b preamble s = .next t) : Keeps s t := by
  refine State.on_keeps h ?_
  have hk := Keeps.refl s
  try dsimp only
  repeat' first
    | with_reducible assumption
    | with_reducible apply State.scaleDone_keeps
    | intro _
    | with_reducible split
    | assumption
    | rfl
    | apply State.scaleDone_keeps

theorem execPassBoundary_keeps (f : Fin 72) (b : Fin 4) (shared : List (List Nat)) (errors : List PassError) (frozen : List (Fin 6 × Nat)) {s t : State}
    (h : execPassBoundary f b shared errors frozen s = .next t) : Keeps s t := by
  refine State.on_keeps h ?_
  have hk := Keeps.refl s
  try dsimp only
  repeat' first
    | with_reducible assumption
    | with_reducible apply State.passBoundary_keeps
    | intro _
    | with_reducible split
    | assumption
    | rfl
    | apply State.passBoundary_keeps

theorem execCheckEnd_keeps (f : Fin 72) (b : Fin 4) {s t : State}
    (h : execCheckEnd f b s = .next t) : Keeps s t := by
  refine State.on_keeps h ?_
  have hk := Keeps.refl s
  try dsimp only
  repeat' first
    | with_reducible assumption
    | with_reducible apply State.checkEnd_keeps
    | intro _
    | with_reducible split
    | assumption
    | rfl
    | apply State.checkEnd_keeps

theorem execContextSaveDone_keeps (f : Fin 72) (b : Fin 4) (shared : List (List Nat)) (group pocket : Nat) {s t : State}
    (h : execContextSaveDone f b shared group pocket s = .next t) : Keeps s t := by
  refine State.on_keeps h ?_
  have hk := Keeps.refl s
  try dsimp only
  repeat' first
    | with_reducible assumption
    | with_reducible apply State.contextSave_keeps
    | intro _
    | with_reducible split
    | assumption
    | rfl
    | apply State.contextSave_keeps

theorem execContextRestoreDone_keeps (f : Fin 72) (b : Fin 4) (active idle : StatLoad) (preamble : List (List Nat)) {s t : State}
    (h : execContextRestoreDone f b active idle preamble s = .next t) : Keeps s t := by
  refine State.on_keeps h ?_
  have hk := Keeps.refl s
  try dsimp only
  repeat' first
    | with_reducible assumption
    | with_reducible apply State.contextRestore_keeps
    | intro _
    | with_reducible split
    | assumption
    | rfl
    | apply State.contextRestore_keeps

theorem execTreeCombination_keeps (e : Fin 4096) (slice level rank : Nat) {s t : State}
    (h : execTreeCombination e slice level rank s = .next t) : Keeps s t := by
  refine State.on_keeps h ?_
  have hk := Keeps.refl s
  try dsimp only
  repeat' first
    | with_reducible assumption
    | with_reducible apply State.treeStep_keeps
    | intro _
    | with_reducible split
    | assumption
    | rfl
    | apply State.treeStep_keeps

theorem execInitialFoldDone_keeps (e : Fin 4096) (slice : Nat) (values : List (List Nat)) {s t : State}
    (h : execInitialFoldDone e slice values s = .next t) : Keeps s t := by
  refine State.on_keeps h ?_
  have hk := Keeps.refl s
  try dsimp only
  repeat' first
    | with_reducible assumption
    | with_reducible apply State.initialFold_keeps
    | intro _
    | with_reducible split
    | assumption
    | rfl
    | apply State.initialFold_keeps

theorem execHoistClaim_keeps (h : Fin 128) (lines : List LinePoint) {s t : State}
    (h : execHoistClaim h lines s = .next t) : Keeps s t := by
  refine State.on_keeps h ?_
  have hk := Keeps.refl s
  try dsimp only
  repeat' first
    | with_reducible assumption
    | with_reducible apply State.claim_keeps
    | intro _
    | with_reducible split
    | assumption
    | rfl
    | apply State.claim_keeps

theorem execFabricReadReturn_keeps (h : Fin 128) (seq : Nat) (data : List Byte) {s t : State}
    (h : execFabricReadReturn h seq data s = .next t) : Keeps s t := by
  refine State.on_keeps h ?_
  have hk := Keeps.refl s
  try dsimp only
  repeat' first
    | with_reducible assumption
    | with_reducible apply State.readReturn_keeps
    | intro _
    | with_reducible split
    | assumption
    | rfl
    | apply State.readReturn_keeps

theorem execFabricReadError_keeps (h : Fin 128) (seq : Nat) {s t : State}
    (h : execFabricReadError h seq s = .next t) : Keeps s t := by
  refine State.on_keeps h ?_
  have hk := Keeps.refl s
  try dsimp only
  repeat' first
    | with_reducible assumption
    | with_reducible apply State.readError_keeps
    | intro _
    | with_reducible split
    | assumption
    | rfl
    | apply State.readError_keeps

theorem execFabricWriteAck_keeps (h : Fin 128) {s t : State}
    (h : execFabricWriteAck h s = .next t) : Keeps s t := by
  refine State.on_keeps h ?_
  have hk := Keeps.refl s
  try dsimp only
  repeat' first
    | with_reducible assumption
    | with_reducible apply State.writeAck_keeps
    | intro _
    | with_reducible split
    | assumption
    | rfl
    | apply State.writeAck_keeps

theorem execFabricWriteError_keeps (h : Fin 128) {s t : State}
    (h : execFabricWriteError h s = .next t) : Keeps s t := by
  refine State.on_keeps h ?_
  have hk := Keeps.refl s
  try dsimp only
  repeat' first
    | with_reducible assumption
    | with_reducible apply State.writeError_keeps
    | intro _
    | with_reducible split
    | assumption
    | rfl
    | apply State.writeError_keeps

theorem execReceiverTake_keeps (h : Fin 128) (r : Fin 16) {s t : State}
    (h : execReceiverTake h r s = .next t) : Keeps s t := by
  refine State.on_keeps h ?_
  have hk := Keeps.refl s
  try dsimp only
  repeat' first
    | with_reducible assumption
    | with_reducible apply State.receiverTake_keeps
    | intro _
    | with_reducible split
    | assumption
    | rfl
    | apply State.receiverTake_keeps

theorem execDetach_keeps (h : Fin 128) {s t : State}
    (h : execDetach h s = .next t) : Keeps s t := by
  refine State.on_keeps h ?_
  have hk := Keeps.refl s
  try dsimp only
  repeat' first
    | with_reducible assumption
    | with_reducible apply State.detach_keeps
    | intro _
    | with_reducible split
    | assumption
    | rfl
    | apply State.detach_keeps

theorem execStreamEnd_keeps (h : Fin 128) {s t : State}
    (h : execStreamEnd h s = .next t) : Keeps s t := by
  refine State.on_keeps h ?_
  have hk := Keeps.refl s
  try dsimp only
  repeat' first
    | with_reducible assumption
    | with_reducible apply State.streamEnd_keeps
    | intro _
    | with_reducible split
    | assumption
    | rfl
    | apply State.streamEnd_keeps

theorem execSpillPark_keeps (h : Fin 128) (data : List Byte) {s t : State}
    (h : execSpillPark h data s = .next t) : Keeps s t := by
  refine State.on_keeps h ?_
  have hk := Keeps.refl s
  try dsimp only
  repeat' first
    | with_reducible assumption
    | with_reducible apply State.spillPark_keeps
    | intro _
    | with_reducible split
    | assumption
    | rfl
    | apply State.spillPark_keeps

theorem execSpillReadback_keeps (h : Fin 128) {s t : State}
    (h : execSpillReadback h s = .next t) : Keeps s t := by
  refine State.on_keeps h ?_
  have hk := Keeps.refl s
  try dsimp only
  repeat' first
    | with_reducible assumption
    | with_reducible apply State.spillReadback_keeps
    | intro _
    | with_reducible split
    | assumption
    | rfl
    | apply State.spillReadback_keeps

theorem execStockpileEccError_keeps (h : Fin 128) (uncorrectable : Bool) {s t : State}
    (h : execStockpileEccError h uncorrectable s = .next t) : Keeps s t := by
  refine State.on_keeps h ?_
  have hk := Keeps.refl s
  try dsimp only
  repeat' first
    | with_reducible assumption
    | with_reducible apply State.stockpileError_keeps
    | with_reducible apply State.uncorrectable_keeps
    | intro _
    | with_reducible split
    | assumption
    | rfl
    | apply State.stockpileError_keeps
    | apply State.uncorrectable_keeps

theorem execTpbFault_keeps (j : Fin 8) {s t : State}
    (h : execTpbFault j s = .next t) : Keeps s t := by
  refine State.on_keeps h ?_
  have hk := Keeps.refl s
  try dsimp only
  repeat' first
    | with_reducible assumption
    | with_reducible apply State.tpbFault_keeps
    | intro _
    | with_reducible split
    | assumption
    | rfl
    | apply State.tpbFault_keeps

theorem execTileLoadDone_keeps (buf : Fin 6) (stream : TileStream) (fmt : Fin 4) (cut : Fin 4096) (rows scales : List (List Nat)) (stalls : List (Fin 4 × Nat)) {s t : State}
    (h : execTileLoadDone buf stream fmt cut rows scales stalls s = .next t) : Keeps s t := by
  refine State.on_keeps h ?_
  have hk := Keeps.refl s
  try dsimp only
  repeat' first
    | with_reducible assumption
    | with_reducible apply State.tileLoadAny_keeps
    | intro _
    | with_reducible split
    | assumption
    | rfl
    | apply State.tileLoadAny_keeps

theorem execReadoutDone_keeps (f : Fin 72) (b : Fin 4) (elems : List ReadElem) {s t : State}
    (h : execReadoutDone f b elems s = .next t) : Keeps s t := by
  refine State.on_keeps h ?_
  have hk := Keeps.refl s
  try dsimp only
  repeat' first
    | with_reducible assumption
    | with_reducible apply State.readout_keeps
    | intro _
    | with_reducible split
    | assumption
    | rfl
    | apply State.readout_keeps

theorem execTableParityError_keeps (f : Fin 72) {s t : State}
    (h : execTableParityError f s = .next t) : Keeps s t := by
  refine State.on_keeps h ?_
  have hk := Keeps.refl s
  try dsimp only
  repeat' first
    | with_reducible assumption
    | with_reducible apply State.tableParity_keeps
    | intro _
    | with_reducible split
    | assumption
    | rfl
    | apply State.tableParity_keeps

theorem execEvictionStart_keeps (e : Fin 4096) {s t : State}
    (h : execEvictionStart e s = .next t) : Keeps s t := by
  refine State.on_keeps h ?_
  have hk := Keeps.refl s
  try dsimp only
  repeat' first
    | with_reducible assumption
    | with_reducible apply State.evictionStart_keeps
    | intro _
    | with_reducible split
    | assumption
    | rfl
    | apply State.evictionStart_keeps

theorem execKilnResult_keeps (f : Fin 72) (b : Fin 4) (lane : Fin 512) (pocket : Fin 16) (pair : KilnPair) {s t : State}
    (h : execKilnResult f b lane pocket pair s = .next t) : Keeps s t := by
  refine State.on_keeps h ?_
  have hk := Keeps.refl s
  try dsimp only
  repeat' first
    | with_reducible assumption
    | with_reducible apply State.kilnResultAny_keeps
    | intro _
    | with_reducible split
    | assumption
    | rfl
    | apply State.kilnResultAny_keeps

theorem execKilnDrainDone_keeps (f : Fin 72) (b : Fin 4) {s t : State}
    (h : execKilnDrainDone f b s = .next t) : Keeps s t := by
  refine State.on_keeps h ?_
  have hk := Keeps.refl s
  try dsimp only
  repeat' first
    | with_reducible assumption
    | with_reducible apply State.kilnDrain_keeps
    | intro _
    | with_reducible split
    | assumption
    | rfl
    | apply State.kilnDrain_keeps

theorem execFold_keeps (f : Fin 72) (b : Fin 4) {s t : State}
    (h : execFold f b s = .next t) : Keeps s t := by
  refine State.on_keeps h ?_
  have hk := Keeps.refl s
  try dsimp only
  repeat' first
    | with_reducible assumption
    | with_reducible apply State.foldAny_keeps
    | intro _
    | with_reducible split
    | assumption
    | rfl
    | apply State.foldAny_keeps

theorem execDeltaMakeDone_keeps (e : Fin 4096) (row : Nat) (queries : List DeltaQuery) {s t : State}
    (h : execDeltaMakeDone e row queries s = .next t) : Keeps s t := by
  refine State.on_keeps h ?_
  have hk := Keeps.refl s
  try dsimp only
  repeat' first
    | with_reducible assumption
    | with_reducible apply State.deltaMade_keeps
    | intro _
    | with_reducible split
    | assumption
    | rfl
    | apply State.deltaMade_keeps

theorem execPageCopy_keeps (e : Fin 4096) (page : Nat) (data : List Byte) (waited : Nat) {s t : State}
    (h : execPageCopy e page data waited s = .next t) : Keeps s t := by
  refine State.on_keeps h ?_
  have hk := Keeps.refl s
  try dsimp only
  repeat' first
    | with_reducible assumption
    | with_reducible apply State.pageCopy_keeps
    | intro _
    | with_reducible split
    | assumption
    | rfl
    | apply State.pageCopy_keeps

theorem execRingBlockArrive_keeps (e : Fin 4096) (header data : List Byte) {s t : State}
    (h : execRingBlockArrive e header data s = .next t) : Keeps s t := by
  refine State.on_keeps h ?_
  have hk := Keeps.refl s
  try dsimp only
  repeat' first
    | with_reducible assumption
    | with_reducible apply State.ringBlock_keeps
    | intro _
    | with_reducible split
    | assumption
    | rfl
    | apply State.ringBlock_keeps

theorem execRingPartialArrive_keeps (e : Fin 4096) (round tile : Nat) (values : List (List Nat)) {s t : State}
    (h : execRingPartialArrive e round tile values s = .next t) : Keeps s t := by
  refine State.on_keeps h ?_
  have hk := Keeps.refl s
  try dsimp only
  repeat' first
    | with_reducible assumption
    | with_reducible apply State.ringPartial_keeps
    | intro _
    | with_reducible split
    | assumption
    | rfl
    | apply State.ringPartial_keeps

theorem execKilnParityError_keeps (f : Fin 72) {s t : State}
    (h : execKilnParityError f s = .next t) : Keeps s t := by
  refine State.on_keeps h ?_
  have hk := Keeps.refl s
  try dsimp only
  repeat' first
    | with_reducible assumption
    | with_reducible apply State.kilnParity_keeps
    | intro _
    | with_reducible split
    | assumption
    | rfl
    | apply State.kilnParity_keeps

theorem execFirmwareReportsHealthy_keeps  {s t : State}
    (h : execFirmwareReportsHealthy s = .next t) : Keeps s t := by
  refine State.on_keeps h ?_
  have hk := Keeps.refl s
  try dsimp only
  repeat' first
    | with_reducible assumption
    | with_reducible apply State.checkReady_keeps
    | intro _
    | with_reducible split
    | assumption
    | rfl
    | apply State.checkReady_keeps

theorem execWatchdogRevert_keeps  {s t : State}
    (h : execWatchdogRevert s = .next t) : Keeps s t := by
  refine State.on_keeps h ?_
  have hk := Keeps.refl s
  try dsimp only
  repeat' first
    | with_reducible assumption
    | with_reducible apply State.restartForeman_keeps
    | with_reducible apply State.logEvt_keeps
    | intro _
    | with_reducible split
    | assumption
    | rfl
    | apply State.restartForeman_keeps
    | apply State.logEvt_keeps

theorem execWatchdogRestart_keeps  {s t : State}
    (h : execWatchdogRestart s = .next t) : Keeps s t := by
  refine State.on_keeps h ?_
  have hk := Keeps.refl s
  try dsimp only
  repeat' first
    | with_reducible assumption
    | with_reducible apply State.restartForeman_keeps
    | intro _
    | with_reducible split
    | assumption
    | rfl
    | apply State.restartForeman_keeps

theorem execForemanRestartDone_keeps  {s t : State}
    (h : execForemanRestartDone s = .next t) : Keeps s t := by
  refine State.on_keeps h ?_
  have hk := Keeps.refl s
  try dsimp only
  repeat' first
    | with_reducible assumption
    | with_reducible apply State.setEvt_keeps
    | with_reducible apply State.logEvt_keeps
    | intro _
    | with_reducible split
    | assumption
    | rfl
    | apply State.setEvt_keeps
    | apply State.logEvt_keeps

theorem execSlabDone_keeps (e : Fin 4096) (d : Fin 4) (slab : Nat) (elems : List DressElem) {s t : State}
    (h : execSlabDone e d slab elems s = .next t) : Keeps s t := by
  refine State.on_keeps h ?_
  have hk := Keeps.refl s
  try dsimp only
  repeat' first
    | with_reducible assumption
    | with_reducible apply State.slabDone_keeps
    | intro _
    | with_reducible split
    | assumption
    | rfl
    | apply State.slabDone_keeps

theorem execSlabFault_keeps (e : Fin 4096) (d : Fin 4) (slab : Nat) (dresserFault : Bool) {s t : State}
    (h : execSlabFault e d slab dresserFault s = .next t) : Keeps s t := by
  refine State.on_keeps h ?_
  have hk := Keeps.refl s
  try dsimp only
  repeat' first
    | with_reducible assumption
    | with_reducible apply State.slabFault_keeps
    | intro _
    | with_reducible split
    | assumption
    | rfl
    | apply State.slabFault_keeps

theorem execDrainWaitEnd_keeps (e : Fin 4096) (slab : Nat) {s t : State}
    (h : execDrainWaitEnd e slab s = .next t) : Keeps s t := by
  refine State.on_keeps h ?_
  have hk := Keeps.refl s
  try dsimp only
  repeat' first
    | with_reducible assumption
    | with_reducible apply State.drainWaitEnd_keeps
    | intro _
    | with_reducible split
    | assumption
    | rfl
    | apply State.drainWaitEnd_keeps

theorem execSelectorSlab_keeps (e : Fin 4096) (slab : Nat) (evicted : List Nat) {s t : State}
    (h : execSelectorSlab e slab evicted s = .next t) : Keeps s t := by
  refine State.on_keeps h ?_
  have hk := Keeps.refl s
  try dsimp only
  repeat' first
    | with_reducible assumption
    | with_reducible apply State.selectorSlab_keeps
    | intro _
    | with_reducible split
    | assumption
    | rfl
    | apply State.selectorSlab_keeps

theorem execMergeSlabComplete_keeps (e : Fin 4096) (slab : Nat) {s t : State}
    (h : execMergeSlabComplete e slab s = .next t) : Keeps s t := by
  refine State.on_keeps h ?_
  have hk := Keeps.refl s
  try dsimp only
  repeat' first
    | with_reducible assumption
    | with_reducible apply State.mergeComplete_keeps
    | intro _
    | with_reducible split
    | assumption
    | rfl
    | apply State.mergeComplete_keeps

theorem execResultDeliver_keeps (e : Fin 4096) (slab : Nat) {s t : State}
    (h : execResultDeliver e slab s = .next t) : Keeps s t := by
  refine State.on_keeps h ?_
  have hk := Keeps.refl s
  try dsimp only
  repeat' first
    | with_reducible assumption
    | with_reducible apply State.resultDeliver_keeps
    | intro _
    | with_reducible split
    | assumption
    | rfl
    | apply State.resultDeliver_keeps

theorem execRetryRepeat_keeps (p : Fin 4) {s t : State}
    (h : execRetryRepeat p s = .next t) : Keeps s t := by
  refine State.on_keeps h ?_
  have hk := Keeps.refl s
  try dsimp only
  repeat' first
    | with_reducible assumption
    | with_reducible apply State.retryRepeat_keeps
    | intro _
    | with_reducible split
    | assumption
    | rfl
    | apply State.retryRepeat_keeps

theorem execFrameSend_keeps (p : Fin 4) {s t : State}
    (h : execFrameSend p s = .next t) : Keeps s t := by
  refine State.on_keeps h ?_
  have hk := Keeps.refl s
  try dsimp only
  repeat' first
    | with_reducible assumption
    | with_reducible apply State.frameSend_keeps
    | intro _
    | with_reducible split
    | assumption
    | rfl
    | apply State.frameSend_keeps

theorem execFrameReceive_keeps (p : Fin 4) (bytes : List Byte) {s t : State}
    (h : execFrameReceive p bytes s = .next t) : Keeps s t := by
  refine State.on_keeps h ?_
  have hk := Keeps.refl s
  try dsimp only
  repeat' first
    | with_reducible assumption
    | with_reducible apply State.frameReceive_keeps
    | intro _
    | with_reducible split
    | assumption
    | rfl
    | apply State.frameReceive_keeps

theorem execRetrainDone_keeps (p : Fin 4) (ok : Bool) {s t : State}
    (h : execRetrainDone p ok s = .next t) : Keeps s t := by
  refine State.on_keeps h ?_
  have hk := Keeps.refl s
  try dsimp only
  repeat' first
    | with_reducible assumption
    | with_reducible apply State.retrainDone_keeps
    | intro _
    | with_reducible split
    | assumption
    | rfl
    | apply State.retrainDone_keeps

theorem execPortDown_keeps (p : Fin 4) {s t : State}
    (h : execPortDown p s = .next t) : Keeps s t := by
  refine State.on_keeps h ?_
  have hk := Keeps.refl s
  try dsimp only
  repeat' first
    | with_reducible assumption
    | with_reducible apply State.portDown_keeps
    | intro _
    | with_reducible split
    | assumption
    | rfl
    | apply State.portDown_keeps

theorem execSlcCfgRetrain_keeps (p : Fin 4) {s t : State}
    (h : execSlcCfgRetrain p s = .next t) : Keeps s t := by
  refine State.on_keeps h ?_
  have hk := Keeps.refl s
  try dsimp only
  repeat' first
    | with_reducible assumption
    | with_reducible apply State.retrain_keeps
    | intro _
    | with_reducible split
    | assumption
    | rfl
    | apply State.retrain_keeps

theorem execHello_keeps (p : Fin 4) {s t : State}
    (h : execHello p s = .next t) : Keeps s t := by
  refine State.on_keeps h ?_
  have hk := Keeps.refl s
  try dsimp only
  repeat' first
    | with_reducible assumption
    | with_reducible apply State.hello_keeps
    | intro _
    | with_reducible split
    | assumption
    | rfl
    | apply State.hello_keeps

theorem execClose_keeps (p : Fin 4) {s t : State}
    (h : execClose p s = .next t) : Keeps s t := by
  refine State.on_keeps h ?_
  have hk := Keeps.refl s
  try dsimp only
  repeat' first
    | with_reducible assumption
    | with_reducible apply State.closePort_keeps
    | intro _
    | with_reducible split
    | assumption
    | rfl
    | apply State.closePort_keeps

theorem execBroken_keeps (p : Fin 4) {s t : State}
    (h : execBroken p s = .next t) : Keeps s t := by
  refine State.on_keeps h ?_
  have hk := Keeps.refl s
  try dsimp only
  repeat' first
    | with_reducible assumption
    | with_reducible apply State.brokenPort_keeps
    | intro _
    | with_reducible split
    | assumption
    | rfl
    | apply State.brokenPort_keeps

theorem execMove_keeps (p : Fin 4) {s t : State}
    (h : execMove p s = .next t) : Keeps s t := by
  refine State.on_keeps h ?_
  have hk := Keeps.refl s
  try dsimp only
  repeat' first
    | with_reducible assumption
    | with_reducible apply State.move_keeps
    | intro _
    | with_reducible split
    | assumption
    | rfl
    | apply State.move_keeps

theorem execSlcCfgFlag_keeps (p : Fin 4) {s t : State}
    (h : execSlcCfgFlag p s = .next t) : Keeps s t := by
  refine State.on_keeps h ?_
  have hk := Keeps.refl s
  try dsimp only
  repeat' first
    | with_reducible assumption
    | with_reducible apply State.flagModule_keeps
    | intro _
    | with_reducible split
    | assumption
    | rfl
    | apply State.flagModule_keeps

theorem execModulePoll_keeps (p : Fin 4) (fault warning : Bool) (lanes : List LaneReading) {s t : State}
    (h : execModulePoll p fault warning lanes s = .next t) : Keeps s t := by
  refine State.on_keeps h ?_
  have hk := Keeps.refl s
  try dsimp only
  repeat' first
    | with_reducible assumption
    | with_reducible apply State.modulePoll_keeps
    | intro _
    | with_reducible split
    | assumption
    | rfl
    | apply State.modulePoll_keeps

theorem execLaneLayerReport_keeps (p : Fin 4) (report : LaneReport) {s t : State}
    (h : execLaneLayerReport p report s = .next t) : Keeps s t := by
  refine State.on_keeps h ?_
  have hk := Keeps.refl s
  try dsimp only
  repeat' first
    | with_reducible assumption
    | with_reducible apply State.laneReport_keeps
    | intro _
    | with_reducible split
    | assumption
    | rfl
    | apply State.laneReport_keeps

theorem execModuleInsert_keeps (p : Fin 4) (identity : List Byte) (suitable : Bool) {s t : State}
    (h : execModuleInsert p identity suitable s = .next t) : Keeps s t := by
  refine State.on_keeps h ?_
  have hk := Keeps.refl s
  try dsimp only
  repeat' first
    | with_reducible assumption
    | with_reducible apply State.moduleInsert_keeps
    | intro _
    | with_reducible split
    | assumption
    | rfl
    | apply State.moduleInsert_keeps

theorem execModuleReady_keeps (p : Fin 4) (bias : List Nat) {s t : State}
    (h : execModuleReady p bias s = .next t) : Keeps s t := by
  refine State.on_keeps h ?_
  have hk := Keeps.refl s
  try dsimp only
  repeat' first
    | with_reducible assumption
    | with_reducible apply State.moduleReady_keeps
    | intro _
    | with_reducible split
    | assumption
    | rfl
    | apply State.moduleReady_keeps

theorem execModuleReadyTimeout_keeps (p : Fin 4) {s t : State}
    (h : execModuleReadyTimeout p s = .next t) : Keeps s t := by
  refine State.on_keeps h ?_
  have hk := Keeps.refl s
  try dsimp only
  repeat' first
    | with_reducible assumption
    | with_reducible apply State.moduleTimeout_keeps
    | intro _
    | with_reducible split
    | assumption
    | rfl
    | apply State.moduleTimeout_keeps

theorem execModuleRemove_keeps (p : Fin 4) {s t : State}
    (h : execModuleRemove p s = .next t) : Keeps s t := by
  refine State.on_keeps h ?_
  have hk := Keeps.refl s
  try dsimp only
  repeat' first
    | with_reducible assumption
    | with_reducible apply State.moduleRemove_keeps
    | intro _
    | with_reducible split
    | assumption
    | rfl
    | apply State.moduleRemove_keeps

theorem execNapIdleExpire_keeps (t : Tile) {s t' : State}
    (h : execNapIdleExpire t s = .next t') : Keeps s t' := by
  refine State.on_keeps h ?_
  have hk := Keeps.refl s
  try dsimp only
  repeat' first
    | with_reducible assumption
    | with_reducible apply State.napExpire_keeps
    | intro _
    | with_reducible split
    | assumption
    | rfl
    | apply State.napExpire_keeps

theorem execOffIdleExpire_keeps (t : Tile) {s t' : State}
    (h : execOffIdleExpire t s = .next t') : Keeps s t' := by
  refine State.on_keeps h ?_
  have hk := Keeps.refl s
  try dsimp only
  repeat' first
    | with_reducible assumption
    | with_reducible apply State.offExpire_keeps
    | intro _
    | with_reducible split
    | assumption
    | rfl
    | apply State.offExpire_keeps

theorem execWakeDone_keeps (t : Tile) {s t' : State}
    (h : execWakeDone t s = .next t') : Keeps s t' := by
  refine State.on_keeps h ?_
  have hk := Keeps.refl s
  try dsimp only
  repeat' first
    | with_reducible assumption
    | with_reducible apply State.wakeDone_keeps
    | intro _
    | with_reducible split
    | assumption
    | rfl
    | apply State.wakeDone_keeps

theorem execYardClearDone_keeps  {s t : State}
    (h : execYardClearDone s = .next t) : Keeps s t := by
  refine State.on_keeps h ?_
  have hk := Keeps.refl s
  try dsimp only
  repeat' first
    | with_reducible assumption
    | with_reducible apply State.yardCleared_keeps
    | intro _
    | with_reducible split
    | assumption
    | rfl
    | apply State.yardCleared_keeps

theorem execSleep_keeps (level : Fin 4) {s t : State}
    (h : execSleep level s = .next t) : Keeps s t := by
  refine State.on_keeps h ?_
  have hk := Keeps.refl s
  try dsimp only
  repeat' first
    | with_reducible assumption
    | with_reducible apply State.sleepWrite_keeps
    | intro _
    | with_reducible split
    | assumption
    | rfl
    | apply State.sleepWrite_keeps

theorem execSleepEnter_keeps  {s t : State}
    (h : execSleepEnter s = .next t) : Keeps s t := by
  refine State.on_keeps h ?_
  have hk := Keeps.refl s
  try dsimp only
  repeat' first
    | with_reducible assumption
    | with_reducible apply State.sleepEnter_keeps
    | intro _
    | with_reducible split
    | assumption
    | rfl
    | apply State.sleepEnter_keeps

theorem execSleepStall_keeps (source : Nat) (destination : Tile) {s t : State}
    (h : execSleepStall source destination s = .next t) : Keeps s t := by
  refine State.on_keeps h ?_
  have hk := Keeps.refl s
  try dsimp only
  repeat' first
    | with_reducible assumption
    | with_reducible apply State.sleepStalled_keeps
    | intro _
    | with_reducible split
    | assumption
    | rfl
    | apply State.sleepStalled_keeps

theorem execFrequencyStep_keeps (n : Fin 72) {s t : State}
    (h : execFrequencyStep n s = .next t) : Keeps s t := by
  refine State.on_keeps h ?_
  have hk := Keeps.refl s
  try dsimp only
  repeat' first
    | with_reducible assumption
    | with_reducible apply State.freqStep_keeps
    | intro _
    | with_reducible split
    | assumption
    | rfl
    | apply State.freqStep_keeps

theorem execDroop_keeps (faces : List (Fin 72)) {s t : State}
    (h : execDroop faces s = .next t) : Keeps s t := by
  refine State.on_keeps h ?_
  have hk := Keeps.refl s
  try dsimp only
  repeat' first
    | with_reducible assumption
    | with_reducible apply State.droop_keeps
    | intro _
    | with_reducible split
    | assumption
    | rfl
    | apply State.droop_keeps

theorem execDroopClear_keeps (faces : List (Fin 72)) {s t : State}
    (h : execDroopClear faces s = .next t) : Keeps s t := by
  refine State.on_keeps h ?_
  have hk := Keeps.refl s
  try dsimp only
  repeat' first
    | with_reducible assumption
    | with_reducible apply State.modFace_keeps
    | with_reducible apply Keeps.foldl
    | intro _
    | with_reducible split
    | assumption
    | rfl
    | apply State.modFace_keeps

theorem execPwrFaceCapWrite_keeps (n : Fin 72) (v : Word) {s t : State}
    (h : execPwrFaceCapWrite n v s = .next t) : Keeps s t := by
  refine State.on_keeps h ?_
  have hk := Keeps.refl s
  try dsimp only
  repeat' first
    | with_reducible assumption
    | with_reducible apply State.pwrFaceWrite_keeps
    | intro _
    | with_reducible split
    | assumption
    | rfl
    | apply State.pwrFaceWrite_keeps

theorem execSurgeStepDown_keeps  {s t : State}
    (h : execSurgeStepDown s = .next t) : Keeps s t := by
  refine State.on_keeps h ?_
  have hk := Keeps.refl s
  try dsimp only
  repeat' first
    | with_reducible assumption
    | with_reducible apply State.surgeDown_keeps
    | intro _
    | with_reducible split
    | assumption
    | rfl
    | apply State.surgeDown_keeps

theorem execSurgeResume_keeps  {s t : State}
    (h : execSurgeResume s = .next t) : Keeps s t := by
  refine State.on_keeps h ?_
  have hk := Keeps.refl s
  try dsimp only
  repeat' first
    | with_reducible assumption
    | with_reducible apply State.surgeUp_keeps
    | intro _
    | with_reducible split
    | assumption
    | rfl
    | apply State.surgeUp_keeps

theorem execLedgerStore_keeps  {s t : State}
    (h : execLedgerStore s = .next t) : Keeps s t := by
  refine State.on_keeps h ?_
  have hk := Keeps.refl s
  try dsimp only
  repeat' first
    | with_reducible assumption
    | with_reducible apply State.storeLedger_keeps
    | intro _
    | with_reducible split
    | assumption
    | rfl
    | apply State.storeLedger_keeps

theorem execSurgeWithdraw_keeps  {s t : State}
    (h : execSurgeWithdraw s = .next t) : Keeps s t := by
  refine State.on_keeps h ?_
  have hk := Keeps.refl s
  try dsimp only
  repeat' first
    | with_reducible assumption
    | with_reducible apply State.surgeWithdraw_keeps
    | intro _
    | with_reducible split
    | assumption
    | rfl
    | apply State.surgeWithdraw_keeps

theorem execAgingRead_keeps (short : List (Fin 72)) {s t : State}
    (h : execAgingRead short s = .next t) : Keeps s t := by
  refine State.on_keeps h ?_
  have hk := Keeps.refl s
  try dsimp only
  repeat' first
    | with_reducible assumption
    | with_reducible apply State.derate_keeps
    | with_reducible apply Keeps.foldl
    | intro _
    | with_reducible split
    | assumption
    | rfl
    | apply State.derate_keeps

theorem execTempRead_keeps (degrees : List Int) {s t : State}
    (h : execTempRead degrees s = .next t) : Keeps s t := by
  refine State.on_keeps h ?_
  have hk := Keeps.refl s
  try dsimp only
  repeat' first
    | with_reducible assumption
    | with_reducible apply State.tempRead_keeps
    | intro _
    | with_reducible split
    | assumption
    | rfl
    | apply State.tempRead_keeps

theorem execTripClr_keeps  {s t : State}
    (h : execTripClr s = .next t) : Keeps s t := by
  refine State.on_keeps h ?_
  have hk := Keeps.refl s
  try dsimp only
  repeat' first
    | with_reducible assumption
    | with_reducible apply State.tripClear_keeps
    | intro _
    | with_reducible split
    | assumption
    | rfl
    | apply State.tripClear_keeps

theorem execCrossModeWrite_keeps (g : Fin 5) (v : Word) {s t : State}
    (h : execCrossModeWrite g v s = .next t) : Keeps s t := by
  refine State.on_keeps h ?_
  have hk := Keeps.refl s
  try dsimp only
  repeat' first
    | with_reducible assumption
    | with_reducible apply State.crossWrite_keeps
    | intro _
    | with_reducible split
    | assumption
    | rfl
    | apply State.crossWrite_keeps

theorem execCrossingChangeApply_keeps (g : Fin 5) {s t : State}
    (h : execCrossingChangeApply g s = .next t) : Keeps s t := by
  refine State.on_keeps h ?_
  have hk := Keeps.refl s
  try dsimp only
  repeat' first
    | with_reducible assumption
    | with_reducible apply State.crossApply_keeps
    | intro _
    | with_reducible split
    | assumption
    | rfl
    | apply State.crossApply_keeps

theorem execFabricLockCheck_keeps (count : Nat) {s t : State}
    (h : execFabricLockCheck count s = .next t) : Keeps s t := by
  refine State.on_keeps h ?_
  have hk := Keeps.refl s
  try dsimp only
  repeat' first
    | with_reducible assumption
    | with_reducible apply State.lockCheck_keeps
    | intro _
    | with_reducible split
    | assumption
    | rfl
    | apply State.lockCheck_keeps

theorem execCrossingParity_keeps (path : CrossPath) {s t : State}
    (h : execCrossingParity path s = .next t) : Keeps s t := by
  refine State.on_keeps h ?_
  have hk := Keeps.refl s
  try dsimp only
  repeat' first
    | with_reducible assumption
    | with_reducible apply State.crossParity_keeps
    | intro _
    | with_reducible split
    | assumption
    | rfl
    | apply State.crossParity_keeps

theorem execYardCorrected_keeps (addr : Nat) {s t : State}
    (h : execYardCorrected addr s = .next t) : Keeps s t := by
  unfold execYardCorrected State.onYard at h
  split at h
  case isFalse => cases h
  refine State.on_keeps h ?_
  have hk := Keeps.refl s
  try dsimp only
  repeat' first
    | with_reducible assumption
    | with_reducible apply State.correctWord_keeps
    | intro _
    | with_reducible split
    | assumption
    | rfl
    | apply State.correctWord_keeps

theorem execPatrolScrub_keeps (line : Nat) (errors : List (Fin 8)) {s t : State}
    (h : execPatrolScrub line errors s = .next t) : Keeps s t := by
  unfold execPatrolScrub State.onYard at h
  split at h
  case isFalse => cases h
  refine State.on_keeps h ?_
  have hk := Keeps.refl s
  try dsimp only
  repeat' first
    | with_reducible assumption
    | with_reducible apply State.correctWord_keeps
    | with_reducible apply Keeps.foldl
    | intro _
    | with_reducible split
    | assumption
    | rfl
    | apply State.correctWord_keeps

theorem execBankMigrationDone_keeps (b : Fin 256) {s t : State}
    (h : execBankMigrationDone b s = .next t) : Keeps s t := by
  refine State.on_keeps h ?_
  have hk := Keeps.refl s
  try dsimp only
  repeat' first
    | with_reducible assumption
    | with_reducible apply State.migrationDone_keeps
    | intro _
    | with_reducible split
    | assumption
    | rfl
    | apply State.migrationDone_keeps

theorem execUncorrectableYard_keeps (addr : Nat) {s t : State}
    (h : execUncorrectableYard addr s = .next t) : Keeps s t := by
  unfold execUncorrectableYard State.onYard at h
  split at h
  case isFalse => cases h
  refine State.on_keeps h ?_
  have hk := Keeps.refl s
  try dsimp only
  repeat' first
    | with_reducible assumption
    | with_reducible apply State.uncorrectable_keeps
    | intro _
    | with_reducible split
    | assumption
    | rfl
    | apply State.uncorrectable_keeps

theorem execFillWakeDone_keeps (woke : Bool) {s t : State}
    (h : execFillWakeDone woke s = .next t) : Keeps s t := by
  refine State.on_keeps h ?_
  have hk := Keeps.refl s
  try dsimp only
  repeat' first
    | with_reducible assumption
    | with_reducible apply State.fillWake_keeps
    | intro _
    | with_reducible split
    | assumption
    | rfl
    | apply State.fillWake_keeps

theorem execFillConfigDone_keeps (ok : Bool) {s t : State}
    (h : execFillConfigDone ok s = .next t) : Keeps s t := by
  refine State.on_keeps h ?_
  have hk := Keeps.refl s
  try dsimp only
  repeat' first
    | with_reducible assumption
    | with_reducible apply State.fillConfig_keeps
    | intro _
    | with_reducible split
    | assumption
    | rfl
    | apply State.fillConfig_keeps

theorem execFillTestDone_keeps (result : FaceTest) {s t : State}
    (h : execFillTestDone result s = .next t) : Keeps s t := by
  refine State.on_keeps h ?_
  have hk := Keeps.refl s
  try dsimp only
  repeat' first
    | with_reducible assumption
    | with_reducible apply State.fillTest_keeps
    | intro _
    | with_reducible split
    | assumption
    | rfl
    | apply State.fillTest_keeps

theorem execWakeNotComplete_keeps (f : Fin 72) {s t : State}
    (h : execWakeNotComplete f s = .next t) : Keeps s t := by
  refine State.on_keeps h ?_
  have hk := Keeps.refl s
  try dsimp only
  repeat' first
    | with_reducible assumption
    | with_reducible apply State.wakeFailed_keeps
    | intro _
    | with_reducible split
    | assumption
    | rfl
    | apply State.wakeFailed_keeps

theorem execSpareMapStore_keeps  {s t : State}
    (h : execSpareMapStore s = .next t) : Keeps s t := by
  refine State.on_keeps h ?_
  have hk := Keeps.refl s
  try dsimp only
  repeat' first
    | with_reducible assumption
    | intro _
    | with_reducible split
    | assumption
    | rfl

theorem execSnapshotCapture_keeps  {s t : State}
    (h : execSnapshotCapture s = .next t) : Keeps s t := by
  refine State.on_keeps h ?_
  have hk := Keeps.refl s
  try dsimp only
  repeat' first
    | with_reducible assumption
    | with_reducible apply State.snapCapture_keeps
    | intro _
    | with_reducible split
    | assumption
    | rfl
    | apply State.snapCapture_keeps

theorem execSnapshotCommit_keeps (sections : List (Nat × List Byte)) {s t : State}
    (h : execSnapshotCommit sections s = .next t) : Keeps s t := by
  refine State.on_keeps h ?_
  have hk := Keeps.refl s
  try dsimp only
  repeat' first
    | with_reducible assumption
    | with_reducible apply State.snapCommit_keeps
    | intro _
    | with_reducible split
    | assumption
    | rfl
    | apply State.snapCommit_keeps

theorem execPeerSnapshotRecord_keeps (slot : Nat) (offset : Nat) (data : List Byte) {s t : State}
    (h : execPeerSnapshotRecord slot offset data s = .next t) : Keeps s t := by
  refine State.on_keeps h ?_
  have hk := Keeps.refl s
  try dsimp only
  repeat' first
    | with_reducible assumption
    | with_reducible apply State.peerSnap_keeps
    | intro _
    | with_reducible split
    | assumption
    | rfl
    | apply State.peerSnap_keeps

theorem execSnapCtlRestore_keeps  {s t : State}
    (h : execSnapCtlRestore s = .next t) : Keeps s t := by
  refine State.on_keeps h ?_
  have hk := Keeps.refl s
  try dsimp only
  repeat' first
    | with_reducible assumption
    | with_reducible apply State.startRestore_keeps
    | intro _
    | with_reducible split
    | assumption
    | rfl
    | apply State.startRestore_keeps

theorem execSnapCtlForce_keeps  {s t : State}
    (h : execSnapCtlForce s = .next t) : Keeps s t := by
  refine State.on_keeps h ?_
  have hk := Keeps.refl s
  try dsimp only
  repeat' first
    | with_reducible assumption
    | intro _
    | with_reducible split
    | assumption
    | rfl

theorem execRestoreFirstReadDone_keeps (bytes : List Byte) {s t : State}
    (h : execRestoreFirstReadDone bytes s = .next t) : Keeps s t := by
  refine State.on_keeps h ?_
  have hk := Keeps.refl s
  try dsimp only
  repeat' first
    | with_reducible assumption
    | with_reducible apply State.restoreOutcome_keeps
    | intro _
    | with_reducible split
    | assumption
    | rfl
    | apply State.restoreOutcome_keeps

theorem execRestoreSecondReadDone_keeps (bytes : List Byte) {s t : State}
    (h : execRestoreSecondReadDone bytes s = .next t) : Keeps s t := by
  refine State.on_keeps h ?_
  have hk := Keeps.refl s
  try dsimp only
  repeat' first
    | with_reducible assumption
    | with_reducible apply State.applySnap_keeps
    | with_reducible apply State.brokenRestore_keeps
    | with_reducible apply State.restoreOutcome_keeps
    | intro _
    | with_reducible split
    | assumption
    | rfl
    | apply State.applySnap_keeps
    | apply State.restoreOutcome_keeps

theorem execStreamHeader_keeps (p : Fin 4) (vc : Fin 8) {s t : State}
    (h : execStreamHeader p vc s = .next t) : Keeps s t := by
  refine State.on_keeps h ?_
  have hk := Keeps.refl s
  try dsimp only
  repeat' first
    | with_reducible assumption
    | with_reducible apply State.vHead_keeps
    | with_reducible apply State.streamHead_keeps
    | intro _
    | with_reducible split
    | assumption
    | rfl
    | apply State.vHead_keeps
    | apply State.streamHead_keeps

theorem execVSliceRecord_keeps (e : Fin 4096) (index length : Nat) (crc : DWord) (own : List Byte) (fetched : List (List Byte)) {s t : State}
    (h : execVSliceRecord e index length crc own fetched s = .next t) : Keeps s t := by
  refine State.on_keeps h ?_
  have hk := Keeps.refl s
  try dsimp only
  repeat' first
    | with_reducible assumption
    | with_reducible apply State.vSlice_keeps
    | intro _
    | with_reducible split
    | assumption
    | rfl
    | apply State.vSlice_keeps

theorem execUnitFault_keeps (u : Unspared) (unrecoverable : Bool) {s t : State}
    (h : execUnitFault u unrecoverable s = .next t) : Keeps s t := by
  refine State.on_keeps h ?_
  have hk := Keeps.refl s
  try dsimp only
  repeat' first
    | with_reducible assumption
    | with_reducible apply State.unitFault_keeps
    | intro _
    | with_reducible split
    | assumption
    | rfl
    | apply State.unitFault_keeps

theorem execFmnCtlUpdate_keeps  {s t : State}
    (h : execFmnCtlUpdate s = .next t) : Keeps s t := by
  refine State.on_keeps h ?_
  have hk := Keeps.refl s
  try dsimp only
  repeat' first
    | with_reducible assumption
    | with_reducible apply State.startUpdate_keeps
    | intro _
    | with_reducible split
    | assumption
    | rfl
    | apply State.startUpdate_keeps

theorem execFwUpdateDone_keeps (bytes : List Byte) (errorResponse : Bool) {s t : State}
    (h : execFwUpdateDone bytes errorResponse s = .next t) : Keeps s t := by
  refine State.on_keeps h ?_
  have hk := Keeps.refl s
  try dsimp only
  repeat' first
    | with_reducible assumption
    | with_reducible apply State.updateDone_keeps
    | intro _
    | with_reducible split
    | assumption
    | rfl
    | apply State.updateDone_keeps

theorem execFmnCtlSwap_keeps  {s t : State}
    (h : execFmnCtlSwap s = .next t) : Keeps s t := by
  refine State.on_keeps h ?_
  have hk := Keeps.refl s
  try dsimp only
  repeat' first
    | with_reducible assumption
    | with_reducible apply State.swapFw_keeps
    | intro _
    | with_reducible split
    | assumption
    | rfl
    | apply State.swapFw_keeps

theorem execLoadStart_keeps  {s t : State}
    (h : execLoadStart s = .next t) : Keeps s t := by
  refine State.on_keeps h ?_
  have hk := Keeps.refl s
  try dsimp only
  repeat' first
    | with_reducible assumption
    | with_reducible apply State.loadStart_keeps
    | intro _
    | with_reducible split
    | assumption
    | rfl
    | apply State.loadStart_keeps

theorem execLoadFirstReadDone_keeps (bytes : List Byte) (errorResponse : Bool) {s t : State}
    (h : execLoadFirstReadDone bytes errorResponse s = .next t) : Keeps s t := by
  refine State.on_keeps h ?_
  have hk := Keeps.refl s
  try dsimp only
  repeat' first
    | with_reducible assumption
    | with_reducible apply State.firstRead_keeps
    | intro _
    | with_reducible split
    | assumption
    | rfl
    | apply State.firstRead_keeps

theorem execTableBankWaitEnd_keeps  {s t : State}
    (h : execTableBankWaitEnd s = .next t) : Keeps s t := by
  refine State.on_keeps h ?_
  have hk := Keeps.refl s
  try dsimp only
  repeat' first
    | with_reducible assumption
    | with_reducible apply State.bankWaitEnd_keeps
    | intro _
    | with_reducible split
    | assumption
    | rfl
    | apply State.bankWaitEnd_keeps

theorem execLoadCommit_keeps (bytes : List Byte) (errorResponse : Bool) {s t : State} (hs : Sound s)
    (h : execLoadCommit bytes errorResponse s = .next t) : Keeps s t := by
  refine State.on_keeps h ?_
  have hk := Keeps.refl s
  try dsimp only
  repeat' first
    | with_reducible assumption
    | with_reducible apply State.loadCommit_keeps
    | intro _
    | with_reducible split
    | assumption
    | rfl
    | apply State.loadCommit_keeps

theorem execPartialCommit_keeps (bytes : List Byte) (errorResponse : Bool) {s t : State}
    (h : execPartialCommit bytes errorResponse s = .next t) : Keeps s t := by
  refine State.on_keeps h ?_
  have hk := Keeps.refl s
  try dsimp only
  repeat' first
    | with_reducible assumption
    | with_reducible apply State.partialCommit_keeps
    | intro _
    | with_reducible split
    | assumption
    | rfl
    | apply State.partialCommit_keeps

theorem execStepOpen_keeps (w : Fin 16) {s t : State}
    (h : execStepOpen w s = .next t) : Keeps s t := by
  refine State.on_keeps h ?_
  have hk := Keeps.refl s
  try dsimp only
  repeat' first
    | with_reducible assumption
    | with_reducible apply State.stepOpen_keeps
    | intro _
    | with_reducible split
    | assumption
    | rfl
    | apply State.stepOpen_keeps

theorem execCutStart_keeps (e : Fin 4096) (reads : StartReads) {s t : State}
    (h : execCutStart e reads s = .next t) : Keeps s t := by
  refine State.on_keeps h ?_
  have hk := Keeps.refl s
  try dsimp only
  repeat' first
    | with_reducible assumption
    | with_reducible apply State.cutStart_keeps
    | intro _
    | with_reducible split
    | assumption
    | rfl
    | apply State.cutStart_keeps

theorem execEvictionDone_keeps (e : Fin 4096) (reads : StartReads) {s t : State}
    (h : execEvictionDone e reads s = .next t) : Keeps s t := by
  refine State.on_keeps h ?_
  have hk := Keeps.refl s
  try dsimp only
  repeat' first
    | with_reducible assumption
    | with_reducible apply State.evictionDone_keeps
    | intro _
    | with_reducible split
    | assumption
    | rfl
    | apply State.evictionDone_keeps

theorem execCutEnd_keeps (e : Fin 4096) {s t : State}
    (h : execCutEnd e s = .next t) : Keeps s t := by
  refine State.on_keeps h ?_
  have hk := Keeps.refl s
  try dsimp only
  repeat' first
    | with_reducible assumption
    | with_reducible apply State.cutEnd_keeps
    | intro _
    | with_reducible split
    | assumption
    | rfl
    | apply State.cutEnd_keeps

theorem execRerun_keeps (e : Fin 4096) {s t : State}
    (h : execRerun e s = .next t) : Keeps s t := by
  refine State.on_keeps h ?_
  have hk := Keeps.refl s
  try dsimp only
  repeat' first
    | with_reducible assumption
    | with_reducible apply State.rerunWrite_keeps
    | intro _
    | with_reducible split
    | assumption
    | rfl
    | apply State.rerunWrite_keeps

theorem execWrkCtlRun_keeps (w : Fin 16) {s t : State}
    (h : execWrkCtlRun w s = .next t) : Keeps s t := by
  refine State.on_keeps h ?_
  have hk := Keeps.refl s
  try dsimp only
  repeat' first
    | with_reducible assumption
    | with_reducible apply State.runWorking_keeps
    | intro _
    | with_reducible split
    | assumption
    | rfl
    | apply State.runWorking_keeps

theorem execWrkCtlStop_keeps (w : Fin 16) {s t : State}
    (h : execWrkCtlStop w s = .next t) : Keeps s t := by
  refine State.on_keeps h ?_
  have hk := Keeps.refl s
  try dsimp only
  repeat' first
    | with_reducible assumption
    | with_reducible apply State.stopWorking_keeps
    | intro _
    | with_reducible split
    | assumption
    | rfl
    | apply State.stopWorking_keeps

theorem execGlbPreemptSet_keeps (w : Fin 16) {s t : State}
    (h : execGlbPreemptSet w s = .next t) : Keeps s t := by
  refine State.on_keeps h ?_
  have hk := Keeps.refl s
  try dsimp only
  repeat' first
    | with_reducible assumption
    | with_reducible apply State.preemptSet_keeps
    | intro _
    | with_reducible split
    | assumption
    | rfl
    | apply State.preemptSet_keeps

theorem execGlbPreemptClear_keeps (w : Fin 16) {s t : State}
    (h : execGlbPreemptClear w s = .next t) : Keeps s t := by
  refine State.on_keeps h ?_
  have hk := Keeps.refl s
  try dsimp only
  repeat' first
    | with_reducible assumption
    | with_reducible apply State.preemptClear_keeps
    | intro _
    | with_reducible split
    | assumption
    | rfl
    | apply State.preemptClear_keeps

theorem execRegisterWrite_keeps (who : Requester) (off size : Nat) (v : Word) {s t : State}
    (h : execRegisterWrite who off size v s = .next t) : Keeps s t := by
  refine State.on_keeps h ?_
  have hk := Keeps.refl s
  try dsimp only
  repeat' first
    | with_reducible assumption
    | with_reducible apply State.busWrite_keeps
    | intro _
    | with_reducible split
    | assumption
    | rfl
    | apply State.busWrite_keeps

theorem execPairLoRead_keeps (who : Requester) (off : Nat) {s t : State}
    (h : execPairLoRead who off s = .next t) : Keeps s t := by
  refine State.on_keeps h ?_
  have hk := Keeps.refl s
  try dsimp only
  repeat' first
    | with_reducible assumption
    | with_reducible apply State.busRead_keeps
    | intro _
    | with_reducible split
    | assumption
    | rfl
    | apply State.busRead_keeps

theorem execPairLoWrite_keeps (who : Requester) (off : Nat) (v : Word) {s t : State}
    (h : execPairLoWrite who off v s = .next t) : Keeps s t := by
  refine State.on_keeps h ?_
  have hk := Keeps.refl s
  try dsimp only
  repeat' first
    | with_reducible assumption
    | with_reducible apply State.busWrite_keeps
    | intro _
    | with_reducible split
    | assumption
    | rfl
    | apply State.busWrite_keeps

theorem execPairHiWrite_keeps (who : Requester) (off : Nat) (v : Word) {s t : State}
    (h : execPairHiWrite who off v s = .next t) : Keeps s t := by
  refine State.on_keeps h ?_
  have hk := Keeps.refl s
  try dsimp only
  repeat' first
    | with_reducible assumption
    | with_reducible apply State.busWrite_keeps
    | intro _
    | with_reducible split
    | assumption
    | rfl
    | apply State.busWrite_keeps

theorem execFceCtlCntClr_keeps (n : Fin 72) {s t : State}
    (h : execFceCtlCntClr n s = .next t) : Keeps s t := by
  refine State.on_keeps h ?_
  have hk := Keeps.refl s
  try dsimp only
  repeat' first
    | with_reducible assumption
    | with_reducible apply State.busWrite_keeps
    | intro _
    | with_reducible split
    | assumption
    | rfl
    | apply State.busWrite_keeps

theorem execRiskThrWrite_keeps (v : Word) {s t : State}
    (h : execRiskThrWrite v s = .next t) : Keeps s t := by
  refine State.on_keeps h ?_
  have hk := Keeps.refl s
  try dsimp only
  repeat' first
    | with_reducible assumption
    | with_reducible apply State.riskThrWrite_keeps
    | intro _
    | with_reducible split
    | assumption
    | rfl
    | apply State.riskThrWrite_keeps

theorem execUartBaudWrite_keeps (v : Word) {s t : State}
    (h : execUartBaudWrite v s = .next t) : Keeps s t := by
  refine State.on_keeps h ?_
  have hk := Keeps.refl s
  try dsimp only
  repeat' first
    | with_reducible assumption
    | with_reducible apply State.baudWrite_keeps
    | intro _
    | with_reducible split
    | assumption
    | rfl
    | apply State.baudWrite_keeps

theorem execTallyAdd_keeps (i : Fin 1024) (v : Word) {s t : State}
    (h : execTallyAdd i v s = .next t) : Keeps s t := by
  refine State.on_keeps h ?_
  have hk := Keeps.refl s
  try dsimp only
  repeat' first
    | with_reducible assumption
    | with_reducible apply State.tallyAdd_keeps
    | with_reducible apply State.tallyWrite_keeps
    | intro _
    | with_reducible split
    | assumption
    | rfl
    | apply State.tallyAdd_keeps
    | apply State.tallyWrite_keeps

theorem execTallyApertureWrite_keeps (off size : Nat) (v : DWord) {s t : State}
    (h : execTallyApertureWrite off size v s = .next t) : Keeps s t := by
  refine State.on_keeps h ?_
  have hk := Keeps.refl s
  try dsimp only
  repeat' first
    | with_reducible assumption
    | with_reducible apply State.apertureWrite_keeps
    | intro _
    | with_reducible split
    | assumption
    | rfl
    | apply State.apertureWrite_keeps

theorem execMonitorChar_keeps (c : Byte) {s t : State}
    (h : execMonitorChar c s = .next t) : Keeps s t := by
  refine State.on_keeps h ?_
  have hk := Keeps.refl s
  try dsimp only
  repeat' first
    | with_reducible assumption
    | with_reducible apply State.monitorChar_keeps
    | intro _
    | with_reducible split
    | assumption
    | rfl
    | apply State.monitorChar_keeps

theorem execRd_keeps (off : Nat) (n : Nat) {s t : State}
    (h : execRd off n s = .next t) : Keeps s t := by
  refine State.on_keeps h ?_
  have hk := Keeps.refl s
  try dsimp only
  repeat' first
    | with_reducible assumption
    | with_reducible apply State.monitorDo_keeps
    | with_reducible apply State.rd_keeps
    | intro _
    | with_reducible split
    | assumption
    | rfl
    | apply State.monitorDo_keeps
    | apply State.rd_keeps

theorem execTile_keeps (first : Fin 72) (all : Bool) {s t : State}
    (h : execTile first all s = .next t) : Keeps s t := by
  refine State.on_keeps h ?_
  have hk := Keeps.refl s
  try dsimp only
  repeat' first
    | with_reducible assumption
    | with_reducible apply State.monitorDo_keeps
    | with_reducible apply State.readsOn_keeps
    | intro _
    | with_reducible split
    | assumption
    | rfl
    | apply State.monitorDo_keeps
    | apply State.readsOn_keeps

theorem execImage_keeps  {s t : State}
    (h : execImage s = .next t) : Keeps s t := by
  refine State.on_keeps h ?_
  have hk := Keeps.refl s
  try dsimp only
  repeat' first
    | with_reducible assumption
    | with_reducible apply State.monitorDo_keeps
    | with_reducible apply State.readsOn_keeps
    | intro _
    | with_reducible split
    | assumption
    | rfl
    | apply State.monitorDo_keeps
    | apply State.readsOn_keeps

theorem execWr_keeps (off : Nat) (v : Word) {s t : State}
    (h : execWr off v s = .next t) : Keeps s t := by
  refine State.on_keeps h ?_
  have hk := Keeps.refl s
  try dsimp only
  repeat' first
    | with_reducible assumption
    | with_reducible apply State.monitorDo_keeps
    | with_reducible apply State.wr_keeps
    | intro _
    | with_reducible split
    | assumption
    | rfl
    | apply State.monitorDo_keeps
    | apply State.wr_keeps

theorem execRegisterAccessComplete_keeps (t : Tile) {s t' : State}
    (h : execRegisterAccessComplete t s = .next t') : Keeps s t' := by
  refine State.on_keeps h ?_
  have hk := Keeps.refl s
  try dsimp only
  repeat' first
    | with_reducible assumption
    | with_reducible apply State.accessComplete_keeps
    | intro _
    | with_reducible split
    | assumption
    | rfl
    | apply State.accessComplete_keeps

theorem execHelp_keeps  {s t : State}
    (h : execHelp s = .next t) : Keeps s t := by
  refine State.on_keeps h ?_
  have hk := Keeps.refl s
  try dsimp only
  repeat' first
    | with_reducible assumption
    | with_reducible apply State.monitorDo_keeps
    | with_reducible apply State.say_keeps
    | intro _
    | with_reducible split
    | assumption
    | rfl
    | apply State.monitorDo_keeps
    | apply State.say_keeps

theorem execLog_keeps (n : Nat) (seq : Option Nat) {s t : State}
    (h : execLog n seq s = .next t) : Keeps s t := by
  refine State.on_keeps h ?_
  have hk := Keeps.refl s
  try dsimp only
  repeat' first
    | with_reducible assumption
    | with_reducible apply State.monitorDo_keeps
    | with_reducible apply State.logCmd_keeps
    | intro _
    | with_reducible split
    | assumption
    | rfl
    | apply State.monitorDo_keeps
    | apply State.logCmd_keeps

theorem execRisk_keeps  {s t : State}
    (h : execRisk s = .next t) : Keeps s t := by
  refine State.on_keeps h ?_
  have hk := Keeps.refl s
  try dsimp only
  repeat' first
    | with_reducible assumption
    | with_reducible apply State.monitorDo_keeps
    | with_reducible apply State.say_keeps
    | intro _
    | with_reducible split
    | assumption
    | rfl
    | apply State.monitorDo_keeps
    | apply State.say_keeps

theorem execSnap_keeps  {s t : State}
    (h : execSnap s = .next t) : Keeps s t := by
  refine State.on_keeps h ?_
  have hk := Keeps.refl s
  try dsimp only
  repeat' first
    | with_reducible assumption
    | with_reducible apply State.monitorDo_keeps
    | with_reducible apply State.say_keeps
    | intro _
    | with_reducible split
    | assumption
    | rfl
    | apply State.monitorDo_keeps
    | apply State.say_keeps

theorem execClk_keeps  {s t : State}
    (h : execClk s = .next t) : Keeps s t := by
  refine State.on_keeps h ?_
  have hk := Keeps.refl s
  try dsimp only
  repeat' first
    | with_reducible assumption
    | with_reducible apply State.monitorDo_keeps
    | with_reducible apply State.say_keeps
    | intro _
    | with_reducible split
    | assumption
    | rfl
    | apply State.monitorDo_keeps
    | apply State.say_keeps

theorem execSlc_keeps (p : Fin 4) {s t : State}
    (h : execSlc p s = .next t) : Keeps s t := by
  refine State.on_keeps h ?_
  have hk := Keeps.refl s
  try dsimp only
  repeat' first
    | with_reducible assumption
    | with_reducible apply State.monitorDo_keeps
    | with_reducible apply State.say_keeps
    | intro _
    | with_reducible split
    | assumption
    | rfl
    | apply State.monitorDo_keeps
    | apply State.say_keeps

theorem execFw_keeps  {s t : State}
    (h : execFw s = .next t) : Keeps s t := by
  refine State.on_keeps h ?_
  have hk := Keeps.refl s
  try dsimp only
  repeat' first
    | with_reducible assumption
    | with_reducible apply State.monitorDo_keeps
    | with_reducible apply State.say_keeps
    | intro _
    | with_reducible split
    | assumption
    | rfl
    | apply State.monitorDo_keeps
    | apply State.say_keeps

theorem execUnlock_keeps (draw : Word) {s t : State}
    (h : execUnlock draw s = .next t) : Keeps s t := by
  refine State.on_keeps h ?_
  have hk := Keeps.refl s
  try dsimp only
  repeat' first
    | with_reducible assumption
    | with_reducible apply State.monitorDo_keeps
    | with_reducible apply State.unlock_keeps
    | intro _
    | with_reducible split
    | assumption
    | rfl
    | apply State.monitorDo_keeps
    | apply State.unlock_keeps

theorem execUnlockResponse_keeps (resp : Word) {s t : State}
    (h : execUnlockResponse resp s = .next t) : Keeps s t := by
  refine State.on_keeps h ?_
  have hk := Keeps.refl s
  try dsimp only
  repeat' first
    | with_reducible assumption
    | with_reducible apply State.monitorDo_keeps
    | with_reducible apply State.unlockResponse_keeps
    | intro _
    | with_reducible split
    | assumption
    | rfl
    | apply State.monitorDo_keeps
    | apply State.unlockResponse_keeps

theorem execLock_keeps  {s t : State}
    (h : execLock s = .next t) : Keeps s t := by
  refine State.on_keeps h ?_
  have hk := Keeps.refl s
  try dsimp only
  repeat' first
    | with_reducible assumption
    | with_reducible apply State.monitorDo_keeps
    | with_reducible apply State.lockSession_keeps
    | with_reducible apply State.answer_keeps
    | intro _
    | with_reducible split
    | assumption
    | rfl
    | apply State.monitorDo_keeps
    | apply State.lockSession_keeps
    | apply State.answer_keeps

theorem execSessionTimeout_keeps  {s t : State}
    (h : execSessionTimeout s = .next t) : Keeps s t := by
  refine State.on_keeps h ?_
  have hk := Keeps.refl s
  try dsimp only
  repeat' first
    | with_reducible assumption
    | with_reducible apply State.lockSession_keeps
    | intro _
    | with_reducible split
    | assumption
    | rfl
    | apply State.lockSession_keeps

theorem execChallengeWithholdEnd_keeps  {s t : State}
    (h : execChallengeWithholdEnd s = .next t) : Keeps s t := by
  refine State.on_keeps h ?_
  have hk := Keeps.refl s
  try dsimp only
  repeat' first
    | with_reducible assumption
    | with_reducible apply State.modMon_keeps
    | intro _
    | with_reducible split
    | assumption
    | rfl
    | apply State.modMon_keeps

theorem execBaud_keeps (rate : Nat) {s t : State}
    (h : execBaud rate s = .next t) : Keeps s t := by
  refine State.on_keeps h ?_
  have hk := Keeps.refl s
  try dsimp only
  repeat' first
    | with_reducible assumption
    | with_reducible apply State.monitorDo_keeps
    | with_reducible apply State.baudCmd_keeps
    | intro _
    | with_reducible split
    | assumption
    | rfl
    | apply State.monitorDo_keeps
    | apply State.baudCmd_keeps

theorem execRetireFace_keeps (f : Fin 72) {s t : State}
    (h : execRetireFace f s = .next t) : Keeps s t := by
  refine State.on_keeps h ?_
  have hk := Keeps.refl s
  try dsimp only
  repeat' first
    | with_reducible assumption
    | with_reducible apply State.monitorDo_keeps
    | with_reducible apply State.retireFace_keeps
    | with_reducible apply State.retireCmd_keeps
    | intro _
    | with_reducible split
    | assumption
    | rfl
    | apply State.monitorDo_keeps
    | apply State.retireFace_keeps
    | apply State.retireCmd_keeps

theorem execReturn_keeps (kind : ReturnKind) (passed : Bool) {s t : State}
    (h : execReturn kind passed s = .next t) : Keeps s t := by
  refine State.on_keeps h ?_
  have hk := Keeps.refl s
  try dsimp only
  repeat' first
    | with_reducible assumption
    | with_reducible apply State.monitorDo_keeps
    | with_reducible apply State.returnCmd_keeps
    | intro _
    | with_reducible split
    | assumption
    | rfl
    | apply State.monitorDo_keeps
    | apply State.returnCmd_keeps

theorem execInject_keeps (kind : InjectKind) {s t : State}
    (h : execInject kind s = .next t) : Keeps s t := by
  refine State.on_keeps h ?_
  have hk := Keeps.refl s
  try dsimp only
  repeat' first
    | with_reducible assumption
    | with_reducible apply State.monitorDo_keeps
    | with_reducible apply State.injectCmd_keeps
    | intro _
    | with_reducible split
    | assumption
    | rfl
    | apply State.monitorDo_keeps
    | apply State.injectCmd_keeps

theorem execInjectClear_keeps  {s t : State}
    (h : execInjectClear s = .next t) : Keeps s t := by
  refine State.on_keeps h ?_
  have hk := Keeps.refl s
  try dsimp only
  repeat' first
    | with_reducible assumption
    | with_reducible apply State.monitorDo_keeps
    | with_reducible apply State.lockedDo_keeps
    | with_reducible apply State.modMon_keeps
    | intro _
    | with_reducible split
    | assumption
    | rfl
    | apply State.monitorDo_keeps
    | apply State.lockedDo_keeps
    | apply State.modMon_keeps

theorem execFwSwap_keeps  {s t : State}
    (h : execFwSwap s = .next t) : Keeps s t := by
  refine State.on_keeps h ?_
  have hk := Keeps.refl s
  try dsimp only
  repeat' first
    | with_reducible assumption
    | with_reducible apply State.monitorDo_keeps
    | with_reducible apply State.fwSwapCmd_keeps
    | intro _
    | with_reducible split
    | assumption
    | rfl
    | apply State.monitorDo_keeps
    | apply State.fwSwapCmd_keeps

theorem execSnapForce_keeps  {s t : State}
    (h : execSnapForce s = .next t) : Keeps s t := by
  refine State.on_keeps h ?_
  have hk := Keeps.refl s
  try dsimp only
  repeat' first
    | with_reducible assumption
    | with_reducible apply State.monitorDo_keeps
    | with_reducible apply State.snapWrite_keeps
    | with_reducible apply State.answer_keeps
    | intro _
    | with_reducible split
    | assumption
    | rfl
    | apply State.monitorDo_keeps
    | apply State.snapWrite_keeps
    | apply State.answer_keeps

theorem execSlcFlag_keeps (p : Fin 4) {s t : State}
    (h : execSlcFlag p s = .next t) : Keeps s t := by
  refine State.on_keeps h ?_
  have hk := Keeps.refl s
  try dsimp only
  repeat' first
    | with_reducible assumption
    | with_reducible apply State.monitorDo_keeps
    | with_reducible apply State.lockedDo_keeps
    | with_reducible apply State.flagModule_keeps
    | intro _
    | with_reducible split
    | assumption
    | rfl
    | apply State.monitorDo_keeps
    | apply State.lockedDo_keeps
    | apply State.flagModule_keeps

theorem execSlcRetrain_keeps (p : Fin 4) {s t : State}
    (h : execSlcRetrain p s = .next t) : Keeps s t := by
  refine State.on_keeps h ?_
  have hk := Keeps.refl s
  try dsimp only
  repeat' first
    | with_reducible assumption
    | with_reducible apply State.monitorDo_keeps
    | with_reducible apply State.lockedDo_keeps
    | with_reducible apply State.retrain_keeps
    | intro _
    | with_reducible split
    | assumption
    | rfl
    | apply State.monitorDo_keeps
    | apply State.lockedDo_keeps
    | apply State.retrain_keeps

theorem execPreempt_keeps (w : Fin 16) {s t : State}
    (h : execPreempt w s = .next t) : Keeps s t := by
  refine State.on_keeps h ?_
  have hk := Keeps.refl s
  try dsimp only
  repeat' first
    | with_reducible assumption
    | with_reducible apply State.monitorDo_keeps
    | with_reducible apply State.lockedDo_keeps
    | with_reducible apply State.preemptSet_keeps
    | intro _
    | with_reducible split
    | assumption
    | rfl
    | apply State.monitorDo_keeps
    | apply State.lockedDo_keeps
    | apply State.preemptSet_keeps

theorem execResume_keeps (w : Fin 16) {s t : State}
    (h : execResume w s = .next t) : Keeps s t := by
  refine State.on_keeps h ?_
  have hk := Keeps.refl s
  try dsimp only
  repeat' first
    | with_reducible assumption
    | with_reducible apply State.monitorDo_keeps
    | with_reducible apply State.lockedDo_keeps
    | with_reducible apply State.preemptClear_keeps
    | intro _
    | with_reducible split
    | assumption
    | rfl
    | apply State.monitorDo_keeps
    | apply State.lockedDo_keeps
    | apply State.preemptClear_keeps

theorem execSnapDrain_keeps  {s t : State}
    (h : execSnapDrain s = .next t) : Keeps s t := by
  refine State.on_keeps h ?_
  have hk := Keeps.refl s
  try dsimp only
  repeat' first
    | with_reducible assumption
    | with_reducible apply State.monitorDo_keeps
    | with_reducible apply State.snapDrain_keeps
    | intro _
    | with_reducible split
    | assumption
    | rfl
    | apply State.monitorDo_keeps
    | apply State.snapDrain_keeps

end Sys2Proof.Machine
end

