-- ==== Sys2Proof/Laws/Leads.lean ====
section
/-! SUPPORT. How statements about a command's outcome are reached: from its effect, while the engine has its supplies; and
what the shared operations say in the terms of such statements. -/

namespace Sys2Proof.Machine

/-- A command whose meaning runs while the engine has its supplies leads to its effect. -/
theorem Leads.on {c : Instr} {s y : State} {P : State → Prop} (hs : s.supply = .good)
    (h : exec c s = .next (if s.supply = .good then y else s)) (k : P y) : Leads c s P :=
  ⟨y, by rw [h, if_pos hs], k⟩

/-- Such a command is ignored where its effect is none. -/
theorem Ignored.on {c : Instr} {s y : State} (h : exec c s = .next (if s.supply = .good then y else s)) (k : y = s) :
    Ignored c s := by
  unfold Ignored
  rw [h, k]
  split <;> rfl

/-- Without its supplies the engine ignores such a command. -/
theorem Ignored.off {c : Instr} {s y : State} (hs : s.supply ≠ .good)
    (h : exec c s = .next (if s.supply = .good then y else s)) : Ignored c s := by
  unfold Ignored
  rw [h, if_neg hs]

/-- A record of an event without a working. -/
theorem State.logged_logEvt (s : State) (code a b : Nat) : Logged s (s.logEvt code a b) code 0xFF 0 a b :=
  ⟨rfl, _, _, rfl, rfl, rfl, rfl, rfl, rfl, rfl, rfl⟩

/-- A record of a working's event. -/
theorem State.logged_logRec (s : State) (code w fl a b : Nat) : Logged s (s.logRec code w fl a b) code w fl a b :=
  ⟨rfl, _, _, rfl, rfl, rfl, rfl, rfl, rfl, rfl, rfl⟩

/-- A wake request changes clock states alone. -/
theorem State.wake_eq (s : State) (k : Nat) : s.wake k = { s with tiles := (s.wake k).tiles } := by
  unfold State.wake
  split <;> rfl

theorem State.clk_wake_nap (s : State) (k : Nat) (h : s.clk k = .nap) : (s.wake k).clk k = .wakingNap := by
  unfold State.wake
  rw [h]
  exact s.clk_setClk k _

theorem State.clk_wake_off (s : State) (k : Nat) (h : s.clk k = .off) : (s.wake k).clk k = .wakingOff := by
  unfold State.wake
  rw [h]
  exact s.clk_setClk k _

theorem State.clk_wake_other (s : State) (k j : Nat) (h : j ≠ k) : (s.wake k).clk j = s.clk j := by
  unfold State.wake
  split
  · exact s.clk_setClk_other k j _ h
  · exact s.clk_setClk_other k j _ h
  · rfl

end Sys2Proof.Machine
end

