-- ==== Sys2Proof/Laws/Same.lean ====
section
/-! SUPPORT. Which parts of the state an operation may change, as a mask of bits, one for each part: `Same M s t` says that
`t` differs from `s` only in the parts of mask `M`. The files beside this one hold one such lemma for each operation. -/

namespace Sys2Proof.Machine

/-- The bit of a part in a mask. -/
def Part.bit : Part → Nat
  | .pending => 0
  | .fresh => 1
  | .supply => 2
  | .nc => 3
  | .glb => 4
  | .tiles => 5
  | .faces => 6
  | .benches => 7
  | .kilns => 8
  | .yard => 9
  | .fabric => 10
  | .image => 11
  | .cfgDigest => 12
  | .load => 13
  | .tables => 14
  | .refused => 15
  | .tallies => 16
  | .apertureErr => 17
  | .working => 18
  | .cuts => 19
  | .seams => 20
  | .results => 21
  | .slots => 22
  | .hoists => 23
  | .tpbs => 24
  | .tileSlots => 25
  | .klnPerr => 26
  | .drvPerr => 27
  | .ports => 28
  | .xruns => 29
  | .aruns => 30
  | .units => 31
  | .surge => 32
  | .cross => 33
  | .temps => 34
  | .hot => 35
  | .health => 36
  | .spare => 37
  | .fills => 38
  | .snap => 39
  | .nv => 40
  | .foreman => 41
  | .log => 42
  | .monitor => 43
  | .pairs => 44
  | .bus => 45
  | .stalls => 46
  | .moves => 47
  | .tallyWait => 48

/-- Every part but those of the mask is the same in both states. -/
structure Same (m : Nat) (s t : State) : Prop where
  /-- the parts outside the mask -/
  part : ∀ p : Part, m.testBit p.bit = false → p.same s t

/-- Mask `a` is part of mask `m`. -/
structure Sub (a m : Nat) : Prop where
  /-- the bits of `a` are bits of `m` -/
  land : a &&& m = a

theorem Sub.trans {a b m : Nat} (h : Sub b m) (k : Nat.beq (Nat.land a b) a = true) : Sub a m :=
  have k2 : a &&& b = a := Nat.eq_of_beq_eq_true k
  ⟨by rw [← k2, Nat.and_assoc, h.land]⟩

theorem Sub.refl (m : Nat) : Sub m m := ⟨Nat.and_self m⟩

theorem Sub.clear {a m i : Nat} (h : Sub a m) (k : m.testBit i = false) : a.testBit i = false := by
  rw [← h.land, Nat.testBit_and, k, Bool.and_false]

theorem Part.same_refl (p : Part) (s : State) : p.same s s := by
  cases p <;> rfl

theorem Part.same_trans {p : Part} {s a b : State} (h : p.same s a) (k : p.same a b) : p.same s b := by
  cases p <;> exact Eq.trans k h

theorem Same.refl (m : Nat) (s : State) : Same m s s := ⟨fun p _ => p.same_refl s⟩

theorem Same.trans {m : Nat} {s a b : State} (h : Same m s a) (k : Same m a b) : Same m s b :=
  ⟨fun p hp => Part.same_trans (h.part p hp) (k.part p hp)⟩

theorem Same.mono {a m : Nat} {s t : State} (h : Same a s t) (k : Sub a m) : Same m s t :=
  ⟨fun p hp => h.part p (k.clear hp)⟩

/-- A change of the parts of mask `a` alone. -/
theorem Same.change {a m : Nat} {s x y : State} (k : Sub a m) (h : Same m s x) (c : Same a x y) : Same m s y :=
  h.trans (c.mono k)

theorem Same.ite {m : Nat} {s a b : State} {c : Prop} [Decidable c] (ha : Same m s a) (hb : Same m s b) :
    Same m s (if c then a else b) := by
  split
  · exact ha
  · exact hb

theorem Same.foldl {α : Type} {m : Nat} {s a : State} (h : Same m s a) (f : State → α → State) (xs : List α)
    (k : ∀ b x, Same m s b → Same m s (f b x)) : Same m s (xs.foldl f a) := by
  induction xs generalizing a with
  | nil => exact h
  | cons x xs ih => exact ih (k a x h)

theorem Same.foldlFst {α β : Type} {m : Nat} {s : State} {a : State × β} (h : Same m s a.1)
    (f : State × β → α → State × β) (xs : List α) (k : ∀ b x, Same m s b.1 → Same m s (f b x).1) :
    Same m s (xs.foldl f a).1 := by
  induction xs generalizing a with
  | nil => exact h
  | cons x xs ih => exact ih (k a x h)

/-- Every part. -/
def Part.all : List Part :=
  [.pending, .fresh, .supply, .nc, .glb, .tiles, .faces, .benches, .kilns, .yard, .fabric, .image,
   .cfgDigest, .load, .tables, .refused, .tallies, .apertureErr, .working, .cuts, .seams, .results, .slots,
   .hoists, .tpbs, .tileSlots, .klnPerr, .drvPerr, .ports, .xruns, .aruns, .units, .surge, .cross, .temps,
   .hot, .health, .spare, .fills, .snap, .nv, .foreman, .log, .monitor, .pairs, .bus, .stalls, .moves,
   .tallyWait]

theorem Part.mem_all (p : Part) : p ∈ Part.all := by
  cases p <;> decide

/-- The parts that a command may change, from a mask of what its effect changes. -/
theorem Same.only {m : Nat} {s t : State} {ps : List Part} (h : Same m s t)
    (k : Part.all.all (fun p => ps.contains p || !m.testBit p.bit) = true) : OnlyParts ps s t := by
  intro p hp
  have j := List.all_eq_true.mp k p (Part.mem_all p)
  have c : ps.contains p = false := by simpa using hp
  rw [c] at j
  exact h.part p (by simpa using j)

theorem Same.set_pending {M : Nat} {s a : State} (hM : Sub 1 M) (h : Same M s a)
    {x0 : List Instr} :
    Same M s { a with pending := x0 } := by
  refine h.change hM ⟨fun p hp => ?_⟩
  cases p <;> first | rfl | exact absurd hp (by decide)

theorem Same.set_fresh {M : Nat} {s a : State} (hM : Sub 2 M) (h : Same M s a)
    {x1 : Nat} :
    Same M s { a with fresh := x1 } := by
  refine h.change hM ⟨fun p hp => ?_⟩
  cases p <;> first | rfl | exact absurd hp (by decide)

theorem Same.set_nc {M : Nat} {s a : State} (hM : Sub 8 M) (h : Same M s a)
    {x3 : Nat} :
    Same M s { a with nc := x3 } := by
  refine h.change hM ⟨fun p hp => ?_⟩
  cases p <;> first | rfl | exact absurd hp (by decide)

theorem Same.set_glb {M : Nat} {s a : State} (hM : Sub 16 M) (h : Same M s a)
    {x4 : Glb} :
    Same M s { a with glb := x4 } := by
  refine h.change hM ⟨fun p hp => ?_⟩
  cases p <;> first | rfl | exact absurd hp (by decide)

theorem Same.set_tiles {M : Nat} {s a : State} (hM : Sub 32 M) (h : Same M s a)
    {x5 : Tab ClkState} :
    Same M s { a with tiles := x5 } := by
  refine h.change hM ⟨fun p hp => ?_⟩
  cases p <;> first | rfl | exact absurd hp (by decide)

theorem Same.set_faces {M : Nat} {s a : State} (hM : Sub 64 M) (h : Same M s a)
    {x6 : Tab Face} :
    Same M s { a with faces := x6 } := by
  refine h.change hM ⟨fun p hp => ?_⟩
  cases p <;> first | rfl | exact absurd hp (by decide)

theorem Same.set_benches {M : Nat} {s a : State} (hM : Sub 128 M) (h : Same M s a)
    {x7 : Tab Bench} :
    Same M s { a with benches := x7 } := by
  refine h.change hM ⟨fun p hp => ?_⟩
  cases p <;> first | rfl | exact absurd hp (by decide)

theorem Same.set_kilns {M : Nat} {s a : State} (hM : Sub 256 M) (h : Same M s a)
    {x8 : Tab Kiln} :
    Same M s { a with kilns := x8 } := by
  refine h.change hM ⟨fun p hp => ?_⟩
  cases p <;> first | rfl | exact absurd hp (by decide)

theorem Same.set_yard {M : Nat} {s a : State} (hM : Sub 512 M) (h : Same M s a)
    {x9 : Yard} :
    Same M s { a with yard := x9 } := by
  refine h.change hM ⟨fun p hp => ?_⟩
  cases p <;> first | rfl | exact absurd hp (by decide)

theorem Same.set_fabric {M : Nat} {s a : State} (hM : Sub 1024 M) (h : Same M s a)
    {x10 : Mem} :
    Same M s { a with fabric := x10 } := by
  refine h.change hM ⟨fun p hp => ?_⟩
  cases p <;> first | rfl | exact absurd hp (by decide)

theorem Same.set_load {M : Nat} {s a : State} (hM : Sub 8192 M) (h : Same M s a)
    {x13 : LoadState} :
    Same M s { a with load := x13 } := by
  refine h.change hM ⟨fun p hp => ?_⟩
  cases p <;> first | rfl | exact absurd hp (by decide)

theorem Same.set_refused {M : Nat} {s a : State} (hM : Sub 32768 M) (h : Same M s a)
    {x15 : Tab CutRefusal} :
    Same M s { a with refused := x15 } := by
  refine h.change hM ⟨fun p hp => ?_⟩
  cases p <;> first | rfl | exact absurd hp (by decide)

theorem Same.set_tallies {M : Nat} {s a : State} (hM : Sub 65536 M) (h : Same M s a)
    {x16 : Tab Nat} :
    Same M s { a with tallies := x16 } := by
  refine h.change hM ⟨fun p hp => ?_⟩
  cases p <;> first | rfl | exact absurd hp (by decide)

theorem Same.set_apertureErr {M : Nat} {s a : State} (hM : Sub 131072 M) (h : Same M s a)
    {x17 : Nat} :
    Same M s { a with apertureErr := x17 } := by
  refine h.change hM ⟨fun p hp => ?_⟩
  cases p <;> first | rfl | exact absurd hp (by decide)

theorem Same.set_working {M : Nat} {s a : State} (hM : Sub 262144 M) (h : Same M s a)
    {x18 : Tab Working} :
    Same M s { a with working := x18 } := by
  refine h.change hM ⟨fun p hp => ?_⟩
  cases p <;> first | rfl | exact absurd hp (by decide)

theorem Same.set_cuts {M : Nat} {s a : State} (hM : Sub 524288 M) (h : Same M s a)
    {x19 : Tab CutRun} :
    Same M s { a with cuts := x19 } := by
  refine h.change hM ⟨fun p hp => ?_⟩
  cases p <;> first | rfl | exact absurd hp (by decide)

theorem Same.set_seams {M : Nat} {s a : State} (hM : Sub 1048576 M) (h : Same M s a)
    {x20 : Tab Seam} :
    Same M s { a with seams := x20 } := by
  refine h.change hM ⟨fun p hp => ?_⟩
  cases p <;> first | rfl | exact absurd hp (by decide)

theorem Same.set_results {M : Nat} {s a : State} (hM : Sub 2097152 M) (h : Same M s a)
    {x21 : Tab Nat} :
    Same M s { a with results := x21 } := by
  refine h.change hM ⟨fun p hp => ?_⟩
  cases p <;> first | rfl | exact absurd hp (by decide)

theorem Same.set_slots {M : Nat} {s a : State} (hM : Sub 4194304 M) (h : Same M s a)
    {x22 : Tab Nat} :
    Same M s { a with slots := x22 } := by
  refine h.change hM ⟨fun p hp => ?_⟩
  cases p <;> first | rfl | exact absurd hp (by decide)

theorem Same.set_hoists {M : Nat} {s a : State} (hM : Sub 8388608 M) (h : Same M s a)
    {x23 : Tab Hoist} :
    Same M s { a with hoists := x23 } := by
  refine h.change hM ⟨fun p hp => ?_⟩
  cases p <;> first | rfl | exact absurd hp (by decide)

theorem Same.set_tpbs {M : Nat} {s a : State} (hM : Sub 16777216 M) (h : Same M s a)
    {x24 : Tab Tpb} :
    Same M s { a with tpbs := x24 } := by
  refine h.change hM ⟨fun p hp => ?_⟩
  cases p <;> first | rfl | exact absurd hp (by decide)

theorem Same.set_tileSlots {M : Nat} {s a : State} (hM : Sub 33554432 M) (h : Same M s a)
    {x25 : Tab (List TileSlot)} :
    Same M s { a with tileSlots := x25 } := by
  refine h.change hM ⟨fun p hp => ?_⟩
  cases p <;> first | rfl | exact absurd hp (by decide)

theorem Same.set_klnPerr {M : Nat} {s a : State} (hM : Sub 67108864 M) (h : Same M s a)
    {x26 : Tab Nat} :
    Same M s { a with klnPerr := x26 } := by
  refine h.change hM ⟨fun p hp => ?_⟩
  cases p <;> first | rfl | exact absurd hp (by decide)

theorem Same.set_drvPerr {M : Nat} {s a : State} (hM : Sub 134217728 M) (h : Same M s a)
    {x27 : Tab Nat} :
    Same M s { a with drvPerr := x27 } := by
  refine h.change hM ⟨fun p hp => ?_⟩
  cases p <;> first | rfl | exact absurd hp (by decide)

theorem Same.set_ports {M : Nat} {s a : State} (hM : Sub 268435456 M) (h : Same M s a)
    {x28 : Tab Port} :
    Same M s { a with ports := x28 } := by
  refine h.change hM ⟨fun p hp => ?_⟩
  cases p <;> first | rfl | exact absurd hp (by decide)

theorem Same.set_xruns {M : Nat} {s a : State} (hM : Sub 536870912 M) (h : Same M s a)
    {x29 : Tab XRun} :
    Same M s { a with xruns := x29 } := by
  refine h.change hM ⟨fun p hp => ?_⟩
  cases p <;> first | rfl | exact absurd hp (by decide)

theorem Same.set_aruns {M : Nat} {s a : State} (hM : Sub 1073741824 M) (h : Same M s a)
    {x30 : Tab ARun} :
    Same M s { a with aruns := x30 } := by
  refine h.change hM ⟨fun p hp => ?_⟩
  cases p <;> first | rfl | exact absurd hp (by decide)

theorem Same.set_units {M : Nat} {s a : State} (hM : Sub 2147483648 M) (h : Same M s a)
    {x31 : Tab UnitState} :
    Same M s { a with units := x31 } := by
  refine h.change hM ⟨fun p hp => ?_⟩
  cases p <;> first | rfl | exact absurd hp (by decide)

theorem Same.set_surge {M : Nat} {s a : State} (hM : Sub 4294967296 M) (h : Same M s a)
    {x32 : Surge} :
    Same M s { a with surge := x32 } := by
  refine h.change hM ⟨fun p hp => ?_⟩
  cases p <;> first | rfl | exact absurd hp (by decide)

theorem Same.set_cross {M : Nat} {s a : State} (hM : Sub 8589934592 M) (h : Same M s a)
    {x33 : Tab CrossGroup} :
    Same M s { a with cross := x33 } := by
  refine h.change hM ⟨fun p hp => ?_⟩
  cases p <;> first | rfl | exact absurd hp (by decide)

theorem Same.set_health {M : Nat} {s a : State} (hM : Sub 68719476736 M) (h : Same M s a)
    {x36 : Health} :
    Same M s { a with health := x36 } := by
  refine h.change hM ⟨fun p hp => ?_⟩
  cases p <;> first | rfl | exact absurd hp (by decide)

theorem Same.set_spare {M : Nat} {s a : State} (hM : Sub 137438953472 M) (h : Same M s a)
    {x37 : SpareMap} :
    Same M s { a with spare := x37 } := by
  refine h.change hM ⟨fun p hp => ?_⟩
  cases p <;> first | rfl | exact absurd hp (by decide)

theorem Same.set_fills {M : Nat} {s a : State} (hM : Sub 274877906944 M) (h : Same M s a)
    {x38 : Fills} :
    Same M s { a with fills := x38 } := by
  refine h.change hM ⟨fun p hp => ?_⟩
  cases p <;> first | rfl | exact absurd hp (by decide)

theorem Same.set_snap {M : Nat} {s a : State} (hM : Sub 549755813888 M) (h : Same M s a)
    {x39 : Snap} :
    Same M s { a with snap := x39 } := by
  refine h.change hM ⟨fun p hp => ?_⟩
  cases p <;> first | rfl | exact absurd hp (by decide)

theorem Same.set_nv {M : Nat} {s a : State} (hM : Sub 1099511627776 M) (h : Same M s a)
    {x40 : Nv} :
    Same M s { a with nv := x40 } := by
  refine h.change hM ⟨fun p hp => ?_⟩
  cases p <;> first | rfl | exact absurd hp (by decide)

theorem Same.set_foreman {M : Nat} {s a : State} (hM : Sub 2199023255552 M) (h : Same M s a)
    {x41 : Foreman} :
    Same M s { a with foreman := x41 } := by
  refine h.change hM ⟨fun p hp => ?_⟩
  cases p <;> first | rfl | exact absurd hp (by decide)

theorem Same.set_log {M : Nat} {s a : State} (hM : Sub 4398046511104 M) (h : Same M s a)
    {x42 : EventLog} :
    Same M s { a with log := x42 } := by
  refine h.change hM ⟨fun p hp => ?_⟩
  cases p <;> first | rfl | exact absurd hp (by decide)

theorem Same.set_monitor {M : Nat} {s a : State} (hM : Sub 8796093022208 M) (h : Same M s a)
    {x43 : Monitor} :
    Same M s { a with monitor := x43 } := by
  refine h.change hM ⟨fun p hp => ?_⟩
  cases p <;> first | rfl | exact absurd hp (by decide)

theorem Same.set_pairs {M : Nat} {s a : State} (hM : Sub 17592186044416 M) (h : Same M s a)
    {x44 : Tab PairSide} :
    Same M s { a with pairs := x44 } := by
  refine h.change hM ⟨fun p hp => ?_⟩
  cases p <;> first | rfl | exact absurd hp (by decide)

theorem Same.set_bus {M : Nat} {s a : State} (hM : Sub 35184372088832 M) (h : Same M s a)
    {x45 : Bus} :
    Same M s { a with bus := x45 } := by
  refine h.change hM ⟨fun p hp => ?_⟩
  cases p <;> first | rfl | exact absurd hp (by decide)

theorem Same.set_moves {M : Nat} {s a : State} (hM : Sub 140737488355328 M) (h : Same M s a)
    {x47 : Tab Nat} :
    Same M s { a with moves := x47 } := by
  refine h.change hM ⟨fun p hp => ?_⟩
  cases p <;> first | rfl | exact absurd hp (by decide)

theorem Same.set_tallyWait {M : Nat} {s a : State} (hM : Sub 281474976710656 M) (h : Same M s a)
    {x48 : List (Nat × Nat)} :
    Same M s { a with tallyWait := x48 } := by
  refine h.change hM ⟨fun p hp => ?_⟩
  cases p <;> first | rfl | exact absurd hp (by decide)

theorem Same.set_benches_kilns {M : Nat} {s a : State} (hM : Sub 384 M) (h : Same M s a)
    {x7 : Tab Bench} {x8 : Tab Kiln} :
    Same M s { a with benches := x7, kilns := x8 } := by
  refine h.change hM ⟨fun p hp => ?_⟩
  cases p <;> first | rfl | exact absurd hp (by decide)

theorem Same.set_kilns_hoists {M : Nat} {s a : State} (hM : Sub 8388864 M) (h : Same M s a)
    {x8 : Tab Kiln} {x23 : Tab Hoist} :
    Same M s { a with kilns := x8, hoists := x23 } := by
  refine h.change hM ⟨fun p hp => ?_⟩
  cases p <;> first | rfl | exact absurd hp (by decide)

theorem Same.set_seams_slots {M : Nat} {s a : State} (hM : Sub 5242880 M) (h : Same M s a)
    {x20 : Tab Seam} {x22 : Tab Nat} :
    Same M s { a with seams := x20, slots := x22 } := by
  refine h.change hM ⟨fun p hp => ?_⟩
  cases p <;> first | rfl | exact absurd hp (by decide)

theorem Same.set_hoists_stalls {M : Nat} {s a : State} (hM : Sub 70368752566272 M) (h : Same M s a)
    {x23 : Tab Hoist} {x46 : List (Nat × Tile)} :
    Same M s { a with hoists := x23, stalls := x46 } := by
  refine h.change hM ⟨fun p hp => ?_⟩
  cases p <;> first | rfl | exact absurd hp (by decide)

theorem Same.set_xruns_aruns {M : Nat} {s a : State} (hM : Sub 1610612736 M) (h : Same M s a)
    {x29 : Tab XRun} {x30 : Tab ARun} :
    Same M s { a with xruns := x29, aruns := x30 } := by
  refine h.change hM ⟨fun p hp => ?_⟩
  cases p <;> first | rfl | exact absurd hp (by decide)

theorem Same.set_surge_spare {M : Nat} {s a : State} (hM : Sub 141733920768 M) (h : Same M s a)
    {x32 : Surge} {x37 : SpareMap} :
    Same M s { a with surge := x32, spare := x37 } := by
  refine h.change hM ⟨fun p hp => ?_⟩
  cases p <;> first | rfl | exact absurd hp (by decide)

theorem Same.set_surge_nv {M : Nat} {s a : State} (hM : Sub 1103806595072 M) (h : Same M s a)
    {x32 : Surge} {x40 : Nv} :
    Same M s { a with surge := x32, nv := x40 } := by
  refine h.change hM ⟨fun p hp => ?_⟩
  cases p <;> first | rfl | exact absurd hp (by decide)

theorem Same.set_temps_hot {M : Nat} {s a : State} (hM : Sub 51539607552 M) (h : Same M s a)
    {x34 : Tab Int} {x35 : Bool} :
    Same M s { a with temps := x34, hot := x35 } := by
  refine h.change hM ⟨fun p hp => ?_⟩
  cases p <;> first | rfl | exact absurd hp (by decide)

theorem Same.set_health_snap {M : Nat} {s a : State} (hM : Sub 618475290624 M) (h : Same M s a)
    {x36 : Health} {x39 : Snap} :
    Same M s { a with health := x36, snap := x39 } := by
  refine h.change hM ⟨fun p hp => ?_⟩
  cases p <;> first | rfl | exact absurd hp (by decide)

theorem Same.set_nv_foreman {M : Nat} {s a : State} (hM : Sub 3298534883328 M) (h : Same M s a)
    {x40 : Nv} {x41 : Foreman} :
    Same M s { a with nv := x40, foreman := x41 } := by
  refine h.change hM ⟨fun p hp => ?_⟩
  cases p <;> first | rfl | exact absurd hp (by decide)

theorem Same.set_foreman_monitor {M : Nat} {s a : State} (hM : Sub 10995116277760 M) (h : Same M s a)
    {x41 : Foreman} {x43 : Monitor} :
    Same M s { a with foreman := x41, monitor := x43 } := by
  refine h.change hM ⟨fun p hp => ?_⟩
  cases p <;> first | rfl | exact absurd hp (by decide)

theorem Same.set_tallies_working_hoists {M : Nat} {s a : State} (hM : Sub 8716288 M) (h : Same M s a)
    {x16 : Tab Nat} {x18 : Tab Working} {x23 : Tab Hoist} :
    Same M s { a with tallies := x16, working := x18, hoists := x23 } := by
  refine h.change hM ⟨fun p hp => ?_⟩
  cases p <;> first | rfl | exact absurd hp (by decide)

theorem Same.set_image_cfgDigest_load_tables {M : Nat} {s a : State} (hM : Sub 30720 M) (h : Same M s a)
    {x11 : Option Image} {x12 : List Byte} {x13 : LoadState} {x14 : Tables} :
    Same M s { a with image := x11, cfgDigest := x12, load := x13, tables := x14 } := by
  refine h.change hM ⟨fun p hp => ?_⟩
  cases p <;> first | rfl | exact absurd hp (by decide)

theorem Same.set_nv_foreman_monitor_bus {M : Nat} {s a : State} (hM : Sub 47278999994368 M) (h : Same M s a)
    {x40 : Nv} {x41 : Foreman} {x43 : Monitor} {x45 : Bus} :
    Same M s { a with nv := x40, foreman := x41, monitor := x43, bus := x45 } := by
  refine h.change hM ⟨fun p hp => ?_⟩
  cases p <;> first | rfl | exact absurd hp (by decide)

theorem Same.set_faces_image_cfgDigest_tables_working {M : Nat} {s a : State} (hM : Sub 284736 M) (h : Same M s a)
    {x6 : Tab Face} {x11 : Option Image} {x12 : List Byte} {x14 : Tables} {x18 : Tab Working} :
    Same M s { a with faces := x6, image := x11, cfgDigest := x12, tables := x14, working := x18 } := by
  refine h.change hM ⟨fun p hp => ?_⟩
  cases p <;> first | rfl | exact absurd hp (by decide)

theorem Same.set_pending_fresh_supply_glb_fabric_nv {M : Nat} {s a : State} (hM : Sub 1099511628823 M) (h : Same M s a)
    {x0 : List Instr} {x1 : Nat} {x2 : Supply} {x4 : Glb} {x10 : Mem} {x40 : Nv} :
    Same M s { a with pending := x0, fresh := x1, supply := x2, glb := x4, fabric := x10, nv := x40 } := by
  refine h.change hM ⟨fun p hp => ?_⟩
  cases p <;> first | rfl | exact absurd hp (by decide)

theorem Same.set_image_cfgDigest_load_tables_tallies_working_hoists {M : Nat} {s a : State} (hM : Sub 8747008 M) (h : Same M s a)
    {x11 : Option Image} {x12 : List Byte} {x13 : LoadState} {x14 : Tables} {x16 : Tab Nat} {x18 : Tab Working}
    {x23 : Tab Hoist} :
    Same M s { a with image := x11, cfgDigest := x12, load := x13, tables := x14, tallies := x16, working := x18, hoists := x23 } := by
  refine h.change hM ⟨fun p hp => ?_⟩
  cases p <;> first | rfl | exact absurd hp (by decide)

theorem Same.set_396395416649808 {M : Nat} {s a : State} (hM : Sub 396395416649808 M) (h : Same M s a)
    {x4 : Glb} {x6 : Tab Face} {x32 : Surge} {x34 : Tab Int} {x39 : Snap} {x43 : Monitor} {x45 : Bus}
    {x46 : List (Nat × Tile)} {x48 : List (Nat × Nat)} :
    Same M s { a with glb := x4, faces := x6, surge := x32, temps := x34, snap := x39, monitor := x43, bus := x45, stalls := x46, tallyWait := x48 } := by
  refine h.change hM ⟨fun p hp => ?_⟩
  cases p <;> first | rfl | exact absurd hp (by decide)

theorem Same.set_828436382080 {M : Nat} {s a : State} (hM : Sub 828436382080 M) (h : Same M s a)
    {x7 : Tab Bench} {x8 : Tab Kiln} {x19 : Tab CutRun} {x21 : Tab Nat} {x23 : Tab Hoist}
    {x25 : Tab (List TileSlot)} {x29 : Tab XRun} {x30 : Tab ARun} {x31 : Tab UnitState} {x38 : Fills} {x39 : Snap} :
    Same M s { a with benches := x7, kilns := x8, cuts := x19, results := x21, hoists := x23, tileSlots := x25, xruns := x29, aruns := x30, units := x31, fills := x38, snap := x39 } := by
  refine h.change hM ⟨fun p hp => ?_⟩
  cases p <;> first | rfl | exact absurd hp (by decide)

theorem Same.set_141703368966528 {M : Nat} {s a : State} (hM : Sub 141703368966528 M) (h : Same M s a)
    {x7 : Tab Bench} {x8 : Tab Kiln} {x15 : Tab CutRefusal} {x19 : Tab CutRun} {x20 : Tab Seam} {x21 : Tab Nat}
    {x22 : Tab Nat} {x23 : Tab Hoist} {x25 : Tab (List TileSlot)} {x29 : Tab XRun} {x30 : Tab ARun}
    {x31 : Tab UnitState} {x37 : SpareMap} {x38 : Fills} {x39 : Snap} {x47 : Tab Nat} :
    Same M s { a with benches := x7, kilns := x8, refused := x15, cuts := x19, seams := x20, results := x21, slots := x22, hoists := x23, tileSlots := x25, xruns := x29, aruns := x30, units := x31, spare := x37, fills := x38, snap := x39, moves := x47 } := by
  refine h.change hM ⟨fun p hp => ?_⟩
  cases p <;> first | rfl | exact absurd hp (by decide)

theorem Same.set_158608847272896 {M : Nat} {s a : State} (hM : Sub 158608847272896 M) (h : Same M s a)
    {x6 : Tab Face} {x7 : Tab Bench} {x8 : Tab Kiln} {x9 : Yard} {x11 : Option Image} {x12 : List Byte}
    {x13 : LoadState} {x14 : Tables} {x15 : Tab CutRefusal} {x16 : Tab Nat} {x17 : Nat} {x18 : Tab Working}
    {x19 : Tab CutRun} {x20 : Tab Seam} {x21 : Tab Nat} {x22 : Tab Nat} {x23 : Tab Hoist} {x24 : Tab Tpb}
    {x25 : Tab (List TileSlot)} {x26 : Tab Nat} {x27 : Tab Nat} {x28 : Tab Port} {x29 : Tab XRun} {x30 : Tab ARun}
    {x31 : Tab UnitState} {x38 : Fills} {x44 : Tab PairSide} {x47 : Tab Nat} :
    Same M s { a with faces := x6, benches := x7, kilns := x8, yard := x9, image := x11, cfgDigest := x12, load := x13, tables := x14, refused := x15, tallies := x16, apertureErr := x17, working := x18, cuts := x19, seams := x20, results := x21, slots := x22, hoists := x23, tpbs := x24, tileSlots := x25, klnPerr := x26, drvPerr := x27, ports := x28, xruns := x29, aruns := x30, units := x31, fills := x38, pairs := x44, moves := x47 } := by
  refine h.change hM ⟨fun p hp => ?_⟩
  cases p <;> first | rfl | exact absurd hp (by decide)

end Sys2Proof.Machine
end

