-- ==== Sys2Proof/Laws/SameOps.lean ====
section
/-! SUPPORT. Which parts of the state the operations of `Machine/Ops.lean` may change (`Same`). -/

namespace Sys2Proof.Machine

set_option linter.all false

theorem State.modFace_same {M : Nat} {σ₀ σ : State} (hM : Sub 64 M) (hk : Same M σ₀ σ) (n : Nat)
    (f : Face → Face) :
    Same M σ₀ (State.modFace σ n f) := by
  unfold State.modFace
  try dsimp only
  repeat' first
    | with_reducible assumption
    | (with_reducible refine Sub.trans hM ?_; decide)
    | intro _
    | with_reducible split
    | with_reducible apply Same.set_faces

theorem State.modBench_same {M : Nat} {σ₀ σ : State} (hM : Sub 128 M) (hk : Same M σ₀ σ) (n b : Nat)
    (f : Bench → Bench) :
    Same M σ₀ (State.modBench σ n b f) := by
  unfold State.modBench
  try dsimp only
  repeat' first
    | with_reducible assumption
    | (with_reducible refine Sub.trans hM ?_; decide)
    | intro _
    | with_reducible split
    | with_reducible apply Same.set_benches

theorem State.modWork_same {M : Nat} {σ₀ σ : State} (hM : Sub 262144 M) (hk : Same M σ₀ σ) (w : Nat)
    (f : Working → Working) :
    Same M σ₀ (State.modWork σ w f) := by
  unfold State.modWork
  try dsimp only
  repeat' first
    | with_reducible assumption
    | (with_reducible refine Sub.trans hM ?_; decide)
    | intro _
    | with_reducible split
    | with_reducible apply Same.set_working

theorem State.modCut_same {M : Nat} {σ₀ σ : State} (hM : Sub 524288 M) (hk : Same M σ₀ σ) (e : Nat)
    (f : CutRun → CutRun) :
    Same M σ₀ (State.modCut σ e f) := by
  unfold State.modCut
  try dsimp only
  repeat' first
    | with_reducible assumption
    | (with_reducible refine Sub.trans hM ?_; decide)
    | intro _
    | with_reducible split
    | with_reducible apply Same.set_cuts

theorem State.modHoist_same {M : Nat} {σ₀ σ : State} (hM : Sub 8388608 M) (hk : Same M σ₀ σ) (h : Nat)
    (f : Hoist → Hoist) :
    Same M σ₀ (State.modHoist σ h f) := by
  unfold State.modHoist
  try dsimp only
  repeat' first
    | with_reducible assumption
    | (with_reducible refine Sub.trans hM ?_; decide)
    | intro _
    | with_reducible split
    | with_reducible apply Same.set_hoists

theorem State.modPort_same {M : Nat} {σ₀ σ : State} (hM : Sub 268435456 M) (hk : Same M σ₀ σ) (p : Nat)
    (f : Port → Port) :
    Same M σ₀ (State.modPort σ p f) := by
  unfold State.modPort
  try dsimp only
  repeat' first
    | with_reducible assumption
    | (with_reducible refine Sub.trans hM ?_; decide)
    | intro _
    | with_reducible split
    | with_reducible apply Same.set_ports

theorem State.modUnit_same {M : Nat} {σ₀ σ : State} (hM : Sub 2147483648 M) (hk : Same M σ₀ σ) (kind n : Nat)
    (f : UnitState → UnitState) :
    Same M σ₀ (State.modUnit σ kind n f) := by
  unfold State.modUnit
  try dsimp only
  repeat' first
    | with_reducible assumption
    | (with_reducible refine Sub.trans hM ?_; decide)
    | intro _
    | with_reducible split
    | with_reducible apply Same.set_units

theorem State.modCross_same {M : Nat} {σ₀ σ : State} (hM : Sub 8589934592 M) (hk : Same M σ₀ σ) (g : Nat)
    (f : CrossGroup → CrossGroup) :
    Same M σ₀ (State.modCross σ g f) := by
  unfold State.modCross
  try dsimp only
  repeat' first
    | with_reducible assumption
    | (with_reducible refine Sub.trans hM ?_; decide)
    | intro _
    | with_reducible split
    | with_reducible apply Same.set_cross

theorem State.modTpb_same {M : Nat} {σ₀ σ : State} (hM : Sub 16777216 M) (hk : Same M σ₀ σ) (j : Nat)
    (f : Tpb → Tpb) :
    Same M σ₀ (State.modTpb σ j f) := by
  unfold State.modTpb
  try dsimp only
  repeat' first
    | with_reducible assumption
    | (with_reducible refine Sub.trans hM ?_; decide)
    | intro _
    | with_reducible split
    | with_reducible apply Same.set_tpbs

theorem State.modGlb_same {M : Nat} {σ₀ σ : State} (hM : Sub 16 M) (hk : Same M σ₀ σ) (f : Glb → Glb) :
    Same M σ₀ (State.modGlb σ f) := by
  unfold State.modGlb
  try dsimp only
  repeat' first
    | with_reducible assumption
    | (with_reducible refine Sub.trans hM ?_; decide)
    | intro _
    | with_reducible split
    | with_reducible apply Same.set_glb

theorem State.setEvt_same {M : Nat} {σ₀ σ : State} (hM : Sub 16 M) (hk : Same M σ₀ σ) (i : Nat) :
    Same M σ₀ (State.setEvt σ i) := by
  unfold State.setEvt
  try dsimp only
  repeat' first
    | with_reducible assumption
    | with_reducible apply State.modGlb_same
    | (with_reducible refine Sub.trans hM ?_; decide)
    | intro _
    | with_reducible split

theorem State.logRec_same {M : Nat} {σ₀ σ : State} (hM : Sub 4398046511104 M) (hk : Same M σ₀ σ)
    (code w flags arg0 arg1 : Nat) :
    Same M σ₀ (State.logRec σ code w flags arg0 arg1) := by
  unfold State.logRec
  try dsimp only
  repeat' first
    | with_reducible assumption
    | (with_reducible refine Sub.trans hM ?_; decide)
    | intro _
    | with_reducible split
    | with_reducible apply Same.set_log

theorem State.logEvt_same {M : Nat} {σ₀ σ : State} (hM : Sub 4398046511104 M) (hk : Same M σ₀ σ)
    (code arg0 arg1 : Nat) :
    Same M σ₀ (State.logEvt σ code arg0 arg1) := by
  unfold State.logEvt
  try dsimp only
  repeat' first
    | with_reducible assumption
    | with_reducible apply State.logRec_same
    | (with_reducible refine Sub.trans hM ?_; decide)
    | intro _
    | with_reducible split

theorem State.setPending_same {M : Nat} {σ₀ σ : State} (hM : Sub 4466765987856 M) (hk : Same M σ₀ σ) :
    Same M σ₀ (State.setPending σ) := by
  unfold State.setPending
  try dsimp only
  repeat' first
    | with_reducible assumption
    | with_reducible apply State.setEvt_same
    | with_reducible apply State.logEvt_same
    | (with_reducible refine Sub.trans hM ?_; decide)
    | intro _
    | with_reducible split
    | with_reducible apply Same.set_health

theorem State.riskAdd_same {M : Nat} {σ₀ σ : State} (hM : Sub 4466765987856 M) (hk : Same M σ₀ σ) (k : Nat) :
    Same M σ₀ (State.riskAdd σ k) := by
  unfold State.riskAdd
  try dsimp only
  repeat' first
    | with_reducible assumption
    | with_reducible apply State.setPending_same
    | (with_reducible refine Sub.trans hM ?_; decide)
    | intro _
    | with_reducible split
    | with_reducible apply Same.set_health

theorem State.healthEvent_same {M : Nat} {σ₀ σ : State} (hM : Sub 4466765987856 M) (hk : Same M σ₀ σ)
    (i k : Nat) :
    Same M σ₀ (State.healthEvent σ i k) := by
  unfold State.healthEvent
  try dsimp only
  repeat' first
    | with_reducible assumption
    | with_reducible apply State.riskAdd_same
    | (with_reducible refine Sub.trans hM ?_; decide)
    | intro _
    | with_reducible split
    | with_reducible apply Same.set_health

theorem State.setClk_same {M : Nat} {σ₀ σ : State} (hM : Sub 32 M) (hk : Same M σ₀ σ) (k : Nat) (c : ClkState) :
    Same M σ₀ (State.setClk σ k c) := by
  unfold State.setClk
  try dsimp only
  repeat' first
    | with_reducible assumption
    | (with_reducible refine Sub.trans hM ?_; decide)
    | intro _
    | with_reducible split
    | with_reducible apply Same.set_tiles

theorem State.wake_same {M : Nat} {σ₀ σ : State} (hM : Sub 32 M) (hk : Same M σ₀ σ) (k : Nat) :
    Same M σ₀ (State.wake σ k) := by
  unfold State.wake
  try dsimp only
  repeat' first
    | with_reducible assumption
    | with_reducible apply State.setClk_same
    | (with_reducible refine Sub.trans hM ?_; decide)
    | intro _
    | with_reducible split

theorem State.wakeAll_same {M : Nat} {σ₀ σ : State} (hM : Sub 32 M) (hk : Same M σ₀ σ) (ks : List Nat) :
    Same M σ₀ (State.wakeAll σ ks) := by
  unfold State.wakeAll
  try dsimp only
  repeat' first
    | with_reducible assumption
    | with_reducible apply State.wake_same
    | with_reducible apply Same.foldl
    | with_reducible apply Same.foldlFst
    | (with_reducible refine Sub.trans hM ?_; decide)
    | intro _
    | with_reducible split

theorem State.tallyAdd_same {M : Nat} {σ₀ σ : State} (hM : Sub 4398046576656 M) (hk : Same M σ₀ σ) (i k : Nat) :
    Same M σ₀ (State.tallyAdd σ i k) := by
  unfold State.tallyAdd
  extract_lets old new s1
  have hk_s1 : Same M σ₀ s1 := by
    dsimp only [s1]
    repeat' first
      | with_reducible assumption
      | with_reducible apply State.setEvt_same
      | with_reducible apply State.logEvt_same
      | (with_reducible refine Sub.trans hM ?_; decide)
      | intro _
      | with_reducible split
      | with_reducible apply Same.set_tallies
  clear_value s1
  try dsimp only
  repeat' first
    | with_reducible assumption
    | with_reducible apply State.setEvt_same
    | with_reducible apply State.logEvt_same
    | (with_reducible refine Sub.trans hM ?_; decide)
    | intro _
    | with_reducible split
    | with_reducible apply Same.set_tallies

theorem State.tallyDone_same {M : Nat} {σ₀ σ : State} (hM : Sub 4398046576656 M) (hk : Same M σ₀ σ)
    (d : DoneDesc) :
    Same M σ₀ (State.tallyDone σ d) := by
  unfold State.tallyDone
  try dsimp only
  repeat' first
    | with_reducible assumption
    | with_reducible apply State.tallyAdd_same
    | (with_reducible refine Sub.trans hM ?_; decide)
    | intro _
    | with_reducible split

theorem State.putFabric_same {M : Nat} {σ₀ σ : State} (hM : Sub 1024 M) (hk : Same M σ₀ σ) (a : Nat)
    (bs : List Byte) :
    Same M σ₀ (State.putFabric σ a bs) := by
  unfold State.putFabric
  try dsimp only
  repeat' first
    | with_reducible assumption
    | (with_reducible refine Sub.trans hM ?_; decide)
    | intro _
    | with_reducible split
    | with_reducible apply Same.set_fabric

theorem State.writeRecord_same {M : Nat} {σ₀ σ : State} (hM : Sub 1024 M) (hk : Same M σ₀ σ) (e : Nat) :
    Same M σ₀ (State.writeRecord σ e) := by
  unfold State.writeRecord
  try dsimp only
  repeat' first
    | with_reducible assumption
    | with_reducible apply State.putFabric_same
    | (with_reducible refine Sub.trans hM ?_; decide)
    | intro _
    | with_reducible split

theorem State.setStatus_same {M : Nat} {σ₀ σ : State} (hM : Sub 525312 M) (hk : Same M σ₀ σ) (e code : Nat) :
    Same M σ₀ (State.setStatus σ e code) := by
  unfold State.setStatus
  extract_lets s1
  have hk_s1 : Same M σ₀ s1 := by
    dsimp only [s1]
    repeat' first
      | with_reducible assumption
      | with_reducible apply State.modCut_same
      | with_reducible apply State.putFabric_same
      | (with_reducible refine Sub.trans hM ?_; decide)
      | intro _
      | with_reducible split
  clear_value s1
  try dsimp only
  repeat' first
    | with_reducible assumption
    | with_reducible apply State.modCut_same
    | with_reducible apply State.putFabric_same
    | (with_reducible refine Sub.trans hM ?_; decide)
    | intro _
    | with_reducible split

theorem State.awaitReplay_same {M : Nat} {σ₀ σ : State} (hM : Sub 525312 M) (hk : Same M σ₀ σ) (e : Nat) (r : Replay) :
    Same M σ₀ (State.awaitReplay σ e r) :=
  State.setStatus_same hM (State.modCut_same (Sub.trans hM (by decide)) hk _ _) _ _

theorem State.replayStarts_same {M : Nat} {σ₀ σ : State} (hM : Sub 525312 M) (hk : Same M σ₀ σ) (e : Nat)
    (p : Replay → Bool) : Same M σ₀ (State.replayStarts σ e p) := by
  have hk1 : Same M σ₀ (State.modCut σ e (fun c => { c with awaiting := c.awaiting.filter (fun r => !p r) })) :=
    State.modCut_same (Sub.trans hM (by decide)) hk _ _
  unfold State.replayStarts
  dsimp only
  split
  · split
    · exact State.setStatus_same hM hk1 _ _
    · exact hk1
  · exact hk

theorem State.orFlags_same {M : Nat} {σ₀ σ : State} (hM : Sub 524288 M) (hk : Same M σ₀ σ) (e k : Nat) :
    Same M σ₀ (State.orFlags σ e k) := by
  unfold State.orFlags
  try dsimp only
  repeat' first
    | with_reducible assumption
    | with_reducible apply State.modCut_same
    | (with_reducible refine Sub.trans hM ?_; decide)
    | intro _
    | with_reducible split

end Sys2Proof.Machine
end

