-- ==== Sys2Proof/Laws/SameRows.lean ====
section
/-! SUPPORT. Which parts of the state the operations of `Machine/Rows.lean` may change (`Same`). -/

namespace Sys2Proof.Machine

set_option linter.all false

theorem State.modArun_same {M : Nat} {σ₀ σ : State} (hM : Sub 1073741824 M) (hk : Same M σ₀ σ) (e : Nat)
    (f : ARun → ARun) :
    Same M σ₀ (State.modArun σ e f) := by
  unfold State.modArun
  try dsimp only
  repeat' first
    | with_reducible assumption
    | (with_reducible refine Sub.trans hM ?_; decide)
    | intro _
    | with_reducible split
    | with_reducible apply Same.set_aruns

end Sys2Proof.Machine
end

