-- ==== Sys2Proof/Laws/SameControl.lean ====
section
/-! SUPPORT. Which parts of the state the operations of `Machine/Control.lean` may change (`Same`). -/

namespace Sys2Proof.Machine

set_option linter.all false

theorem State.faceLost_same {M : Nat} {σ₀ σ : State} (hM : Sub 448 M) (hk : Same M σ₀ σ) (n : Nat) :
    Same M σ₀ (State.faceLost σ n) := by
  unfold State.faceLost
  extract_lets s1
  have hk_s1 : Same M σ₀ s1 := by
    dsimp only [s1]
    repeat' first
      | with_reducible assumption
      | with_reducible apply State.modFace_same
      | (with_reducible refine Sub.trans hM ?_; decide)
      | intro _
      | with_reducible split
      | with_reducible apply Same.set_benches_kilns
  clear_value s1
  try dsimp only
  repeat' first
    | with_reducible assumption
    | with_reducible apply State.modFace_same
    | (with_reducible refine Sub.trans hM ?_; decide)
    | intro _
    | with_reducible split
    | with_reducible apply Same.set_benches_kilns

theorem State.yardLost_same {M : Nat} {σ₀ σ : State} (hM : Sub 158608847272896 M) (hk : Same M σ₀ σ) :
    Same M σ₀ (State.yardLost σ) := by
  unfold State.yardLost
  try dsimp only
  repeat' first
    | with_reducible assumption
    | (with_reducible refine Sub.trans hM ?_; decide)
    | intro _
    | with_reducible split
    | with_reducible apply Same.set_158608847272896

theorem State.tileOff_same {M : Nat} {σ₀ σ : State} (hM : Sub 158608847272928 M) (hk : Same M σ₀ σ) (k : Nat) :
    Same M σ₀ (State.tileOff σ k) := by
  unfold State.tileOff
  extract_lets s1
  have hk_s1 : Same M σ₀ s1 := by
    dsimp only [s1]
    repeat' first
      | with_reducible assumption
      | with_reducible apply State.setClk_same
      | with_reducible apply State.faceLost_same
      | with_reducible apply State.yardLost_same
      | (with_reducible refine Sub.trans hM ?_; decide)
      | intro _
      | with_reducible split
  clear_value s1
  try dsimp only
  repeat' first
    | with_reducible assumption
    | with_reducible apply State.setClk_same
    | with_reducible apply State.faceLost_same
    | with_reducible apply State.yardLost_same
    | (with_reducible refine Sub.trans hM ?_; decide)
    | intro _
    | with_reducible split

theorem State.markHoists_same {M : Nat} {σ₀ σ : State} (hM : Sub 8388608 M) (hk : Same M σ₀ σ) (e n b : Nat) :
    Same M σ₀ (State.markHoists σ e n b) := by
  unfold State.markHoists
  try dsimp only
  repeat' first
    | with_reducible assumption
    | (with_reducible refine Sub.trans hM ?_; decide)
    | intro _
    | with_reducible split
    | with_reducible apply Same.set_hoists

theorem State.stopHoists_same {M : Nat} {σ₀ σ : State} (hM : Sub 8388608 M) (hk : Same M σ₀ σ) (e : Nat) :
    Same M σ₀ (State.stopHoists σ e) := by
  unfold State.stopHoists
  try dsimp only
  repeat' first
    | with_reducible assumption
    | (with_reducible refine Sub.trans hM ?_; decide)
    | intro _
    | with_reducible split
    | with_reducible apply Same.set_hoists

theorem State.resumeHoists_same {M : Nat} {σ₀ σ : State} (hM : Sub 8388608 M) (hk : Same M σ₀ σ) (e : Nat) :
    Same M σ₀ (State.resumeHoists σ e) := by
  unfold State.resumeHoists
  try dsimp only
  repeat' first
    | with_reducible assumption
    | (with_reducible refine Sub.trans hM ?_; decide)
    | intro _
    | with_reducible split
    | with_reducible apply Same.set_hoists

theorem State.stopBenches_same {M : Nat} {σ₀ σ : State} (hM : Sub 128 M) (hk : Same M σ₀ σ) (e : Nat) :
    Same M σ₀ (State.stopBenches σ e) := by
  unfold State.stopBenches
  try dsimp only
  repeat' first
    | with_reducible assumption
    | (with_reducible refine Sub.trans hM ?_; decide)
    | intro _
    | with_reducible split
    | with_reducible apply Same.set_benches

theorem State.dropTiles_same {M : Nat} {σ₀ σ : State} (hM : Sub 33554432 M) (hk : Same M σ₀ σ) (e : Nat) :
    Same M σ₀ (State.dropTiles σ e) := by
  unfold State.dropTiles
  try dsimp only
  repeat' first
    | with_reducible assumption
    | (with_reducible refine Sub.trans hM ?_; decide)
    | intro _
    | with_reducible split
    | with_reducible apply Same.set_tileSlots

theorem State.sentTiles_same {M : Nat} {σ₀ σ : State} (hM : Sub 33554432 M) (hk : Same M σ₀ σ) (e : Nat)
    (stream : Option TileStream) :
    Same M σ₀ (State.sentTiles σ e stream) := by
  unfold State.sentTiles
  try dsimp only
  repeat' first
    | with_reducible assumption
    | (with_reducible refine Sub.trans hM ?_; decide)
    | intro _
    | with_reducible split
    | with_reducible apply Same.set_tileSlots

theorem State.stopCut_same {M : Nat} {σ₀ σ : State} (hM : Sub 42468480 M) (hk : Same M σ₀ σ) (e code fl : Nat) :
    Same M σ₀ (State.stopCut σ e code fl) := by
  unfold State.stopCut
  try dsimp only
  repeat' first
    | with_reducible assumption
    | with_reducible apply State.modCut_same
    | with_reducible apply State.orFlags_same
    | with_reducible apply State.stopHoists_same
    | with_reducible apply State.stopBenches_same
    | with_reducible apply State.dropTiles_same
    | with_reducible apply State.setStatus_same
    | (with_reducible refine Sub.trans hM ?_; decide)
    | intro _
    | with_reducible split

theorem State.resumeBenches_same {M : Nat} {σ₀ σ : State} (hM : Sub 128 M) (hk : Same M σ₀ σ) (e : Nat) :
    Same M σ₀ (State.resumeBenches σ e) := by
  unfold State.resumeBenches
  try dsimp only
  repeat' first
    | with_reducible assumption
    | (with_reducible refine Sub.trans hM ?_; decide)
    | intro _
    | with_reducible split
    | with_reducible apply Same.set_benches

theorem State.resumeCut_same {M : Nat} {σ₀ σ : State} (hM : Sub 8914048 M) (hk : Same M σ₀ σ) (e : Nat) :
    Same M σ₀ (State.resumeCut σ e) := by
  unfold State.resumeCut
  try dsimp only
  repeat' first
    | with_reducible assumption
    | with_reducible apply State.modCut_same
    | with_reducible apply State.resumeHoists_same
    | with_reducible apply State.resumeBenches_same
    | with_reducible apply State.setStatus_same
    | (with_reducible refine Sub.trans hM ?_; decide)
    | intro _
    | with_reducible split

theorem State.preemptWorking_same {M : Nat} {σ₀ σ : State} (hM : Sub 42468480 M) (hk : Same M σ₀ σ) (w : Nat) :
    Same M σ₀ (State.preemptWorking σ w) := by
  unfold State.preemptWorking
  try dsimp only
  repeat' first
    | with_reducible assumption
    | with_reducible apply State.stopCut_same
    | with_reducible apply Same.foldl
    | with_reducible apply Same.foldlFst
    | (with_reducible refine Sub.trans hM ?_; decide)
    | intro _
    | with_reducible split

theorem State.resumeWorking_same {M : Nat} {σ₀ σ : State} (hM : Sub 8914048 M) (hk : Same M σ₀ σ) (w : Nat) :
    Same M σ₀ (State.resumeWorking σ w) := by
  unfold State.resumeWorking
  try dsimp only
  repeat' first
    | with_reducible assumption
    | with_reducible apply State.resumeCut_same
    | with_reducible apply Same.foldl
    | with_reducible apply Same.foldlFst
    | (with_reducible refine Sub.trans hM ?_; decide)
    | intro _
    | with_reducible split

theorem State.addReplays_same {M : Nat} {σ₀ σ : State} (hM : Sub 524288 M) (hk : Same M σ₀ σ) (e k : Nat) :
    Same M σ₀ (State.addReplays σ e k) := by
  unfold State.addReplays
  try dsimp only
  repeat' first
    | with_reducible assumption
    | with_reducible apply State.modCut_same
    | (with_reducible refine Sub.trans hM ?_; decide)
    | intro _
    | with_reducible split

theorem State.abortPasses_same {M : Nat} {σ₀ σ : State} (hM : Sub 525440 M) (hk : Same M σ₀ σ) (e : Nat) :
    Same M σ₀ (State.abortPasses σ e) := by
  unfold State.abortPasses
  extract_lets s1
  have hk_s1 : Same M σ₀ s1 := by
    dsimp only [s1]
    repeat' first
      | with_reducible assumption
      | with_reducible apply State.addReplays_same
      | with_reducible apply State.orFlags_same
      | with_reducible apply State.setStatus_same
      | (with_reducible refine Sub.trans hM ?_; decide)
      | intro _
      | with_reducible split
      | with_reducible apply Same.set_benches
  clear_value s1
  try dsimp only
  repeat' first
    | with_reducible assumption
    | with_reducible apply State.addReplays_same
    | with_reducible apply State.orFlags_same
    | with_reducible apply State.setStatus_same
    | (with_reducible refine Sub.trans hM ?_; decide)
    | intro _
    | with_reducible split
    | with_reducible apply Same.set_benches

theorem State.halt_same {M : Nat} {σ₀ σ : State} (hM : Sub 4398089241744 M) (hk : Same M σ₀ σ)
    (w cause arg : Nat) (at' : Option Nat) :
    Same M σ₀ (State.halt σ w cause arg at') := by
  unfold State.halt
  extract_lets s1 s2 s3
  have hk_s1 : Same M σ₀ s1 := by
    dsimp only [s1]
    repeat' first
      | with_reducible assumption
      | with_reducible apply State.modWork_same
      | with_reducible apply State.abortPasses_same
      | with_reducible apply State.stopCut_same
      | with_reducible apply State.setEvt_same
      | with_reducible apply State.logRec_same
      | with_reducible apply Same.foldl
      | with_reducible apply Same.foldlFst
      | (with_reducible refine Sub.trans hM ?_; decide)
      | intro _
      | with_reducible split
  clear_value s1
  have hk_s2 : Same M σ₀ s2 := by
    dsimp only [s2]
    repeat' first
      | with_reducible assumption
      | with_reducible apply State.modWork_same
      | with_reducible apply State.abortPasses_same
      | with_reducible apply State.stopCut_same
      | with_reducible apply State.setEvt_same
      | with_reducible apply State.logRec_same
      | with_reducible apply Same.foldl
      | with_reducible apply Same.foldlFst
      | (with_reducible refine Sub.trans hM ?_; decide)
      | intro _
      | with_reducible split
  clear_value s2
  have hk_s3 : Same M σ₀ s3 := by
    dsimp only [s3]
    repeat' first
      | with_reducible assumption
      | with_reducible apply State.modWork_same
      | with_reducible apply State.abortPasses_same
      | with_reducible apply State.stopCut_same
      | with_reducible apply State.setEvt_same
      | with_reducible apply State.logRec_same
      | with_reducible apply Same.foldl
      | with_reducible apply Same.foldlFst
      | (with_reducible refine Sub.trans hM ?_; decide)
      | intro _
      | with_reducible split
  clear_value s3
  try dsimp only
  repeat' first
    | with_reducible assumption
    | with_reducible apply State.modWork_same
    | with_reducible apply State.abortPasses_same
    | with_reducible apply State.stopCut_same
    | with_reducible apply State.setEvt_same
    | with_reducible apply State.logRec_same
    | with_reducible apply Same.foldl
    | with_reducible apply Same.foldlFst
    | (with_reducible refine Sub.trans hM ?_; decide)
    | intro _
    | with_reducible split

theorem State.logRetire_same {M : Nat} {σ₀ σ : State} (hM : Sub 4398046511120 M) (hk : Same M σ₀ σ)
    (arg cause flags : Nat) (w : Nat) :
    Same M σ₀ (State.logRetire σ arg cause flags w) := by
  unfold State.logRetire
  try dsimp only
  repeat' first
    | with_reducible assumption
    | with_reducible apply State.setEvt_same
    | with_reducible apply State.logRec_same
    | (with_reducible refine Sub.trans hM ?_; decide)
    | intro _
    | with_reducible split

theorem State.logRemap_same {M : Nat} {σ₀ σ : State} (hM : Sub 4398046511120 M) (hk : Same M σ₀ σ)
    (arg new flags : Nat) (w : Nat) :
    Same M σ₀ (State.logRemap σ arg new flags w) := by
  unfold State.logRemap
  try dsimp only
  repeat' first
    | with_reducible assumption
    | with_reducible apply State.setEvt_same
    | with_reducible apply State.logRec_same
    | (with_reducible refine Sub.trans hM ?_; decide)
    | intro _
    | with_reducible split

theorem State.modSpare_same {M : Nat} {σ₀ σ : State} (hM : Sub 137438953472 M) (hk : Same M σ₀ σ)
    (f : SpareMap → SpareMap) :
    Same M σ₀ (State.modSpare σ f) := by
  unfold State.modSpare
  try dsimp only
  repeat' first
    | with_reducible assumption
    | (with_reducible refine Sub.trans hM ?_; decide)
    | intro _
    | with_reducible split
    | with_reducible apply Same.set_spare

theorem State.remapLane_same {M : Nat} {σ₀ σ : State} (hM : Sub 4535485464592 M) (hk : Same M σ₀ σ)
    (n phys l flags : Nat) :
    Same M σ₀ (State.remapLane σ n phys l flags) := by
  unfold State.remapLane
  try dsimp only
  repeat' first
    | with_reducible assumption
    | with_reducible apply State.modSpare_same
    | with_reducible apply State.logRemap_same
    | (with_reducible refine Sub.trans hM ?_; decide)
    | intro _
    | with_reducible split

theorem State.refreshBenches_same {M : Nat} {σ₀ σ : State} (hM : Sub 64 M) (hk : Same M σ₀ σ) (n : Nat) :
    Same M σ₀ (State.refreshBenches σ n) := by
  unfold State.refreshBenches
  try dsimp only
  repeat' first
    | with_reducible assumption
    | with_reducible apply State.modFace_same
    | (with_reducible refine Sub.trans hM ?_; decide)
    | intro _
    | with_reducible split

theorem State.retireBench_same {M : Nat} {σ₀ σ : State} (hM : Sub 4535485464656 M) (hk : Same M σ₀ σ)
    (n phys cause flags : Nat) :
    Same M σ₀ (State.retireBench σ n phys cause flags) := by
  unfold State.retireBench
  try dsimp only
  repeat' first
    | with_reducible assumption
    | with_reducible apply State.modSpare_same
    | with_reducible apply State.logRetire_same
    | with_reducible apply State.logRemap_same
    | with_reducible apply State.refreshBenches_same
    | (with_reducible refine Sub.trans hM ?_; decide)
    | intro _
    | with_reducible split

theorem State.startFill_same {M : Nat} {σ₀ σ : State} (hM : Sub 274877907040 M) (hk : Same M σ₀ σ) :
    Same M σ₀ (State.startFill σ) := by
  unfold State.startFill
  try dsimp only
  repeat' first
    | with_reducible assumption
    | with_reducible apply State.wake_same
    | with_reducible apply State.modFace_same
    | (with_reducible refine Sub.trans hM ?_; decide)
    | intro _
    | with_reducible split
    | with_reducible apply Same.set_fills

theorem State.adoptBench_same {M : Nat} {σ₀ σ : State} (hM : Sub 524416 M) (hk : Same M σ₀ σ) (e n m b : Nat) :
    Same M σ₀ (State.adoptBench σ e n m b) := by
  unfold State.adoptBench
  try dsimp only
  repeat' first
    | with_reducible assumption
    | with_reducible apply State.modCut_same
    | with_reducible apply State.modBench_same
    | (with_reducible refine Sub.trans hM ?_; decide)
    | intro _
    | with_reducible split

theorem State.adoptCut_same {M : Nat} {σ₀ σ : State} (hM : Sub 4672967148752 M) (hk : Same M σ₀ σ) (n e : Nat) :
    Same M σ₀ (State.adoptCut σ n e) := by
  unfold State.adoptCut
  try dsimp only
  repeat' first
    | with_reducible assumption
    | with_reducible apply State.adoptBench_same
    | with_reducible apply State.orFlags_same
    | with_reducible apply State.modFace_same
    | with_reducible apply State.resumeCut_same
    | with_reducible apply State.halt_same
    | with_reducible apply Same.foldl
    | with_reducible apply Same.foldlFst
    | (with_reducible refine Sub.trans hM ?_; decide)
    | intro _
    | with_reducible split
    | with_reducible apply Same.set_fills

theorem State.adopt_same {M : Nat} {σ₀ σ : State} (hM : Sub 4672967148752 M) (hk : Same M σ₀ σ) (n : Nat) :
    Same M σ₀ (State.adopt σ n) := by
  unfold State.adopt
  try dsimp only
  repeat' first
    | with_reducible assumption
    | with_reducible apply State.adoptCut_same
    | with_reducible apply Same.foldl
    | with_reducible apply Same.foldlFst
    | (with_reducible refine Sub.trans hM ?_; decide)
    | intro _
    | with_reducible split

theorem State.settle_same {M : Nat} {σ₀ σ : State} (hM : Sub 4672967148752 M) (hk : Same M σ₀ σ) (n : Nat) :
    Same M σ₀ (State.settle σ n) := by
  unfold State.settle
  split
  · exact State.adopt_same hM hk n
  · exact hk

theorem State.dropFace_same {M : Nat} {σ₀ σ : State} (hM : Sub 4810405840112 M) (hk : Same M σ₀ σ)
    (n cause flags : Nat) :
    Same M σ₀ (State.dropFace σ n cause flags) := by
  unfold State.dropFace
  extract_lets cuts s1 s2 s3
  have hk_s1 : Same M σ₀ s1 := by
    dsimp only [s1]
    repeat' first
      | with_reducible assumption
      | with_reducible apply State.addReplays_same
      | with_reducible apply State.stopCut_same
      | with_reducible apply State.modFace_same
      | with_reducible apply State.modSpare_same
      | with_reducible apply State.setClk_same
      | with_reducible apply State.logRetire_same
      | with_reducible apply Same.foldl
      | with_reducible apply Same.foldlFst
      | (with_reducible refine Sub.trans hM ?_; decide)
      | intro _
      | with_reducible split
      | with_reducible apply Same.set_benches
      | with_reducible apply Same.set_fills
  clear_value s1
  have hk_s2 : Same M σ₀ s2 := by
    dsimp only [s2]
    repeat' first
      | with_reducible assumption
      | with_reducible apply State.addReplays_same
      | with_reducible apply State.stopCut_same
      | with_reducible apply State.modFace_same
      | with_reducible apply State.modSpare_same
      | with_reducible apply State.setClk_same
      | with_reducible apply State.logRetire_same
      | with_reducible apply Same.foldl
      | with_reducible apply Same.foldlFst
      | (with_reducible refine Sub.trans hM ?_; decide)
      | intro _
      | with_reducible split
      | with_reducible apply Same.set_benches
      | with_reducible apply Same.set_fills
  clear_value s2
  have hk_s3 : Same M σ₀ s3 := by
    dsimp only [s3]
    repeat' first
      | with_reducible assumption
      | with_reducible apply State.addReplays_same
      | with_reducible apply State.stopCut_same
      | with_reducible apply State.modFace_same
      | with_reducible apply State.modSpare_same
      | with_reducible apply State.setClk_same
      | with_reducible apply State.logRetire_same
      | with_reducible apply Same.foldl
      | with_reducible apply Same.foldlFst
      | (with_reducible refine Sub.trans hM ?_; decide)
      | intro _
      | with_reducible split
      | with_reducible apply Same.set_benches
      | with_reducible apply Same.set_fills
  clear_value s3
  try dsimp only
  repeat' first
    | with_reducible assumption
    | with_reducible apply State.stopCut_same
    | with_reducible apply State.modFace_same
    | with_reducible apply State.modSpare_same
    | with_reducible apply State.setClk_same
    | with_reducible apply State.logRetire_same
    | with_reducible apply Same.foldl
    | with_reducible apply Same.foldlFst
    | (with_reducible refine Sub.trans hM ?_; decide)
    | intro _
    | with_reducible split
    | with_reducible apply Same.set_benches
    | with_reducible apply Same.set_fills

theorem State.retireFace_same {M : Nat} {σ₀ σ : State} (hM : Sub 4810406102256 M) (hk : Same M σ₀ σ)
    (n cause flags : Nat) :
    Same M σ₀ (State.retireFace σ n cause flags) := by
  unfold State.retireFace
  try dsimp only
  repeat' first
    | with_reducible assumption
    | with_reducible apply State.dropFace_same
    | with_reducible apply State.startFill_same
    | with_reducible apply State.modFace_same
    | with_reducible apply State.adopt_same
    | with_reducible apply State.modSpare_same
    | with_reducible apply State.setClk_same
    | with_reducible apply State.logRetire_same
    | with_reducible apply State.logRemap_same
    | (with_reducible refine Sub.trans hM ?_; decide)
    | intro _
    | with_reducible split
    | with_reducible apply Same.set_fills

theorem State.moveBenches_same {M : Nat} {σ₀ σ : State} (hM : Sub 128 M) (hk : Same M σ₀ σ) (n m : Nat) :
    Same M σ₀ (State.moveBenches σ n m) := by
  unfold State.moveBenches
  try dsimp only
  repeat' first
    | with_reducible assumption
    | with_reducible apply State.modBench_same
    | with_reducible apply Same.foldl
    | with_reducible apply Same.foldlFst
    | (with_reducible refine Sub.trans hM ?_; decide)
    | intro _
    | with_reducible split

theorem State.joinCuts_same {M : Nat} {σ₀ σ : State} (hM : Sub 274886820992 M) (hk : Same M σ₀ σ) (n : Nat) :
    Same M σ₀ (State.joinCuts σ n) := by
  unfold State.joinCuts
  try dsimp only
  repeat' first
    | with_reducible assumption
    | with_reducible apply State.resumeCut_same
    | with_reducible apply Same.foldl
    | with_reducible apply Same.foldlFst
    | (with_reducible refine Sub.trans hM ?_; decide)
    | intro _
    | with_reducible split
    | with_reducible apply Same.set_fills

theorem State.rejoin_same {M : Nat} {σ₀ σ : State} (hM : Sub 137438953536 M) (hk : Same M σ₀ σ) (n : Nat) :
    Same M σ₀ (State.rejoin σ n) := by
  unfold State.rejoin
  extract_lets s1
  have hk_s1 : Same M σ₀ s1 := by
    dsimp only [s1]
    repeat' first
      | with_reducible assumption
      | with_reducible apply State.modSpare_same
      | with_reducible apply State.modFace_same
      | (with_reducible refine Sub.trans hM ?_; decide)
      | intro _
      | with_reducible split
  clear_value s1
  try dsimp only
  repeat' first
    | with_reducible assumption
    | with_reducible apply State.modSpare_same
    | with_reducible apply State.modFace_same
    | (with_reducible refine Sub.trans hM ?_; decide)
    | intro _
    | with_reducible split

theorem State.join_same {M : Nat} {σ₀ σ : State} (hM : Sub 412325774560 M) (hk : Same M σ₀ σ) (x : Fill) :
    Same M σ₀ (State.join σ x) := by
  unfold State.join
  try dsimp only
  repeat' first
    | with_reducible assumption
    | with_reducible apply State.rejoin_same
    | with_reducible apply State.joinCuts_same
    | with_reducible apply State.startFill_same
    | with_reducible apply State.modFace_same
    | with_reducible apply State.modSpare_same
    | with_reducible apply State.moveBenches_same
    | (with_reducible refine Sub.trans hM ?_; decide)
    | intro _
    | with_reducible split
    | with_reducible apply Same.set_fills

theorem State.refill_same {M : Nat} {σ₀ σ : State} (hM : Sub 4810406102256 M) (hk : Same M σ₀ σ) (x : Fill)
    (rest : List Fill) (free : List Nat) : Same M σ₀ (State.refill σ x rest free) := by
  unfold State.refill
  try dsimp only
  repeat' first
    | with_reducible assumption
    | with_reducible apply State.logRemap_same
    | with_reducible apply State.startFill_same
    | with_reducible apply State.adopt_same
    | (with_reducible refine Sub.trans hM ?_; decide)
    | intro _
    | with_reducible split
    | with_reducible apply Same.set_fills

theorem State.fillFail_same {M : Nat} {σ₀ σ : State} (hM : Sub 4810406102256 M) (hk : Same M σ₀ σ) (cause : Nat) :
    Same M σ₀ (State.fillFail σ cause) := by
  unfold State.fillFail
  try dsimp only
  repeat' first
    | with_reducible assumption
    | with_reducible apply State.modFace_same
    | with_reducible apply State.modSpare_same
    | with_reducible apply State.setClk_same
    | with_reducible apply State.logRetire_same
    | with_reducible apply State.refill_same
    | (with_reducible refine Sub.trans hM ?_; decide)
    | intro _
    | with_reducible split
    | with_reducible apply Same.set_fills

theorem State.recheckBenches_same {M : Nat} {σ₀ σ : State} (hM : Sub 4810406102256 M) (hk : Same M σ₀ σ) :
    Same M σ₀ (State.recheckBenches σ) := by
  unfold State.recheckBenches
  try dsimp only
  repeat' first
    | with_reducible assumption
    | with_reducible apply State.retireFace_same
    | with_reducible apply Same.foldl
    | with_reducible apply Same.foldlFst
    | (with_reducible refine Sub.trans hM ?_; decide)
    | intro _
    | with_reducible split

theorem State.retireBuffer_same {M : Nat} {σ₀ σ : State} (hM : Sub 4535519019056 M) (hk : Same M σ₀ σ)
    (j cause flags : Nat) :
    Same M σ₀ (State.retireBuffer σ j cause flags) := by
  unfold State.retireBuffer
  try dsimp only
  repeat' first
    | with_reducible assumption
    | with_reducible apply State.modSpare_same
    | with_reducible apply State.logRetire_same
    | with_reducible apply State.logRemap_same
    | with_reducible apply State.wake_same
    | with_reducible apply State.setClk_same
    | (with_reducible refine Sub.trans hM ?_; decide)
    | intro _
    | with_reducible split
    | with_reducible apply Same.set_tileSlots

theorem State.retireUnit_same {M : Nat} {σ₀ σ : State} (hM : Sub 4537632948240 M) (hk : Same M σ₀ σ)
    (kind n cause flags : Nat) :
    Same M σ₀ (State.retireUnit σ kind n cause flags) := by
  unfold State.retireUnit
  try dsimp only
  repeat' first
    | with_reducible assumption
    | with_reducible apply State.modUnit_same
    | with_reducible apply State.modSpare_same
    | with_reducible apply State.logRetire_same
    | (with_reducible refine Sub.trans hM ?_; decide)
    | intro _
    | with_reducible split

theorem State.remapBank_same {M : Nat} {σ₀ σ : State} (hM : Sub 4535485464592 M) (hk : Same M σ₀ σ) (phys : Nat) :
    Same M σ₀ (State.remapBank σ phys) := by
  unfold State.remapBank
  try dsimp only
  repeat' first
    | with_reducible assumption
    | with_reducible apply State.modSpare_same
    | with_reducible apply State.logRemap_same
    | with_reducible apply State.logRetire_same
    | with_reducible apply State.setEvt_same
    | with_reducible apply State.logEvt_same
    | (with_reducible refine Sub.trans hM ?_; decide)
    | intro _
    | with_reducible split

theorem State.absorbTest_same {M : Nat} {σ₀ σ : State} (hM : Sub 4535485464656 M) (hk : Same M σ₀ σ)
    (t : FaceTest) :
    Same M σ₀ (State.absorbTest σ t) := by
  unfold State.absorbTest
  extract_lets n s1
  have hk_s1 : Same M σ₀ s1 := by
    dsimp only [s1]
    repeat' first
      | with_reducible assumption
      | with_reducible apply State.remapLane_same
      | with_reducible apply State.retireBench_same
      | with_reducible apply State.refreshBenches_same
      | with_reducible apply Same.foldl
      | with_reducible apply Same.foldlFst
      | (with_reducible refine Sub.trans hM ?_; decide)
      | intro _
      | with_reducible split
  clear_value s1
  try dsimp only
  repeat' first
    | with_reducible assumption
    | with_reducible apply State.remapLane_same
    | with_reducible apply State.retireBench_same
    | with_reducible apply State.refreshBenches_same
    | with_reducible apply Same.foldl
    | with_reducible apply Same.foldlFst
    | (with_reducible refine Sub.trans hM ?_; decide)
    | intro _
    | with_reducible split

end Sys2Proof.Machine
end

