-- ==== Sys2Proof/Laws/SameBench.lean ====
section
/-! SUPPORT. Which parts of the state the operations of `Machine/Bench.lean` may change (`Same`). -/

namespace Sys2Proof.Machine

set_option linter.all false

theorem State.showEcon_same {M : Nat} {σ₀ σ : State} (hM : Sub 64 M) (hk : Same M σ₀ σ) (n b : Nat) :
    Same M σ₀ (State.showEcon σ n b) := by
  unfold State.showEcon
  try dsimp only
  repeat' first
    | with_reducible assumption
    | with_reducible apply State.modFace_same
    | (with_reducible refine Sub.trans hM ?_; decide)
    | intro _
    | with_reducible split

theorem State.noteDrvBank_same {M : Nat} {σ₀ σ : State} (hM : Sub 524288 M) (hk : Same M σ₀ σ) (e item : Nat) :
    Same M σ₀ (State.noteDrvBank σ e item) := by
  unfold State.noteDrvBank
  try dsimp only
  repeat' first
    | with_reducible assumption
    | with_reducible apply State.modCut_same
    | with_reducible apply State.orFlags_same
    | (with_reducible refine Sub.trans hM ?_; decide)
    | intro _
    | with_reducible split

theorem State.noteKilnBank_same {M : Nat} {σ₀ σ : State} (hM : Sub 524544 M) (hk : Same M σ₀ σ) (n b e : Nat)
    (p : PassId) :
    Same M σ₀ (State.noteKilnBank σ n b e p) := by
  unfold State.noteKilnBank
  try dsimp only
  repeat' first
    | with_reducible assumption
    | with_reducible apply State.modCut_same
    | with_reducible apply State.orFlags_same
    | (with_reducible refine Sub.trans hM ?_; decide)
    | intro _
    | with_reducible split
    | with_reducible apply Same.set_kilns

theorem State.noteBank_same {M : Nat} {σ₀ σ : State} (hM : Sub 524544 M) (hk : Same M σ₀ σ) (n b e : Nat) :
    Same M σ₀ (State.noteBank σ n b e) := by
  unfold State.noteBank
  try dsimp only
  repeat' first
    | with_reducible assumption
    | with_reducible apply State.noteDrvBank_same
    | with_reducible apply State.noteKilnBank_same
    | (with_reducible refine Sub.trans hM ?_; decide)
    | intro _
    | with_reducible split

theorem State.tryStart_same {M : Nat} {σ₀ σ : State} (hM : Sub 525760 M) (hk : Same M σ₀ σ) (n b : Nat) :
    Same M σ₀ (State.tryStart σ n b) := by
  unfold State.tryStart
  try dsimp only
  repeat' first
    | with_reducible assumption
    | with_reducible apply State.replayStarts_same
    | with_reducible apply State.modCut_same
    | with_reducible apply State.modBench_same
    | with_reducible apply State.noteBank_same
    | with_reducible apply State.showEcon_same
    | (with_reducible refine Sub.trans hM ?_; decide)
    | intro _
    | with_reducible split

theorem State.loadFull_same {M : Nat} {σ₀ σ : State} (hM : Sub 34080192 M) (hk : Same M σ₀ σ) (n b tag : Nat)
    (given : StatLoad) :
    Same M σ₀ (State.loadFull σ n b tag given) := by
  unfold State.loadFull
  try dsimp only
  repeat' first
    | with_reducible assumption
    | with_reducible apply State.modBench_same
    | with_reducible apply State.sentTiles_same
    | with_reducible apply State.tryStart_same
    | (with_reducible refine Sub.trans hM ?_; decide)
    | intro _
    | with_reducible split

theorem State.scaleDone_same {M : Nat} {σ₀ σ : State} (hM : Sub 525760 M) (hk : Same M σ₀ σ) (n b : Nat)
    (pre : List (List Nat)) :
    Same M σ₀ (State.scaleDone σ n b pre) := by
  unfold State.scaleDone
  try dsimp only
  repeat' first
    | with_reducible assumption
    | with_reducible apply State.modBench_same
    | with_reducible apply State.tryStart_same
    | (with_reducible refine Sub.trans hM ?_; decide)
    | intro _
    | with_reducible split

theorem State.addFrozen_same {M : Nat} {σ₀ σ : State} (hM : Sub 64 M) (hk : Same M σ₀ σ) (n b : Nat)
    (fs : List (Fin 6 × Nat)) :
    Same M σ₀ (State.addFrozen σ n b fs) := by
  unfold State.addFrozen
  try dsimp only
  repeat' first
    | with_reducible assumption
    | with_reducible apply State.modFace_same
    | with_reducible apply Same.foldl
    | with_reducible apply Same.foldlFst
    | (with_reducible refine Sub.trans hM ?_; decide)
    | intro _
    | with_reducible split

theorem State.yieldBench_same {M : Nat} {σ₀ σ : State} (hM : Sub 128 M) (hk : Same M σ₀ σ) (n b : Nat) :
    Same M σ₀ (State.yieldBench σ n b) := by
  unfold State.yieldBench
  try dsimp only
  repeat' first
    | with_reducible assumption
    | with_reducible apply State.modBench_same
    | (with_reducible refine Sub.trans hM ?_; decide)
    | intro _
    | with_reducible split

theorem State.newDrain_same {M : Nat} {σ₀ σ : State} (hM : Sub 256 M) (hk : Same M σ₀ σ) (n b e : Nat) :
    Same M σ₀ (State.newDrain σ n b e) := by
  unfold State.newDrain
  try dsimp only
  repeat' first
    | with_reducible assumption
    | (with_reducible refine Sub.trans hM ?_; decide)
    | intro _
    | with_reducible split
    | with_reducible apply Same.set_kilns

theorem State.spendInject_same {M : Nat} {σ₀ σ : State} (hM : Sub 8796093022210 M) (hk : Same M σ₀ σ) (n b : Nat) :
    Same M σ₀ (State.spendInject σ n b) := by
  have h1 : Same M σ₀ { σ with fresh := σ.fresh + 1 } := Same.set_fresh (hM.trans (by decide)) hk
  exact Same.set_monitor (a := { σ with fresh := σ.fresh + 1 }) (hM.trans (by decide)) h1

theorem State.passBoundary_same {M : Nat} {σ₀ σ : State} (hM : Sub 8796135491010 M) (hk : Same M σ₀ σ)
    (n b : Nat) (shared : List (List Nat)) (errors : List PassError) (frozen : List (Fin 6 × Nat)) :
    Same M σ₀ (State.passBoundary σ n b shared errors frozen) := by
  unfold State.passBoundary
  try dsimp only
  repeat' first
    | with_reducible assumption
    | with_reducible apply State.spendInject_same
    | with_reducible apply State.addFrozen_same
    | with_reducible apply State.modBench_same
    | with_reducible apply State.modFace_same
    | with_reducible apply State.newDrain_same
    | with_reducible apply State.markHoists_same
    | with_reducible apply State.sentTiles_same
    | with_reducible apply State.yieldBench_same
    | with_reducible apply State.tryStart_same
    | with_reducible apply State.showEcon_same
    | (with_reducible refine Sub.trans hM ?_; decide)
    | intro _
    | with_reducible split

theorem State.remapReplay_same {M : Nat} {σ₀ σ : State} (hM : Sub 4604205467088 M) (hk : Same M σ₀ σ)
    (n b e : Nat) (lanes : List Nat) (fl : Nat) :
    Same M σ₀ (State.remapReplay σ n b e lanes fl) := by
  unfold State.remapReplay
  extract_lets s1
  have hk_s1 : Same M σ₀ s1 := by
    dsimp only [s1]
    repeat' first
      | with_reducible assumption
      | with_reducible apply State.remapLane_same
      | with_reducible apply State.modFace_same
      | with_reducible apply State.healthEvent_same
      | with_reducible apply State.modBench_same
      | with_reducible apply State.orFlags_same
      | with_reducible apply State.addReplays_same
      | with_reducible apply State.tryStart_same
      | with_reducible apply Same.foldl
      | with_reducible apply Same.foldlFst
      | (with_reducible refine Sub.trans hM ?_; decide)
      | intro _
      | with_reducible split
  clear_value s1
  try dsimp only
  repeat' first
    | with_reducible assumption
    | with_reducible apply State.remapLane_same
    | with_reducible apply State.modFace_same
    | with_reducible apply State.healthEvent_same
    | with_reducible apply State.modBench_same
    | with_reducible apply State.orFlags_same
    | with_reducible apply State.addReplays_same
    | with_reducible apply State.tryStart_same
    | with_reducible apply Same.foldl
    | with_reducible apply Same.foldlFst
    | (with_reducible refine Sub.trans hM ?_; decide)
    | intro _
    | with_reducible split

theorem State.dealItems_same {M : Nat} {σ₀ σ : State} (hM : Sub 128 M) (hk : Same M σ₀ σ) (n kind : Nat)
    (others : List Nat) (work : List PassId) :
    Same M σ₀ (State.dealItems σ n kind others work) := by
  unfold State.dealItems
  try dsimp only
  repeat' first
    | with_reducible assumption
    | with_reducible apply State.modBench_same
    | with_reducible apply Same.foldl
    | with_reducible apply Same.foldlFst
    | (with_reducible refine Sub.trans hM ?_; decide)
    | intro _
    | with_reducible split

theorem State.failBench_same {M : Nat} {σ₀ σ : State} (hM : Sub 4810406102512 M) (hk : Same M σ₀ σ)
    (n b e cause fl : Nat) :
    Same M σ₀ (State.failBench σ n b e cause fl) := by
  unfold State.failBench
  extract_lets phys spare s1
  have hk_s1 : Same M σ₀ s1 := by
    dsimp only [s1]
    repeat' first
      | with_reducible assumption
      | with_reducible apply State.modBench_same
      | with_reducible apply State.orFlags_same
      | with_reducible apply State.retireBench_same
      | with_reducible apply State.recheckBenches_same
      | with_reducible apply State.retireFace_same
      | with_reducible apply State.dealItems_same
      | with_reducible apply State.modFace_same
      | with_reducible apply State.tryStart_same
      | with_reducible apply Same.foldl
      | with_reducible apply Same.foldlFst
      | (with_reducible refine Sub.trans hM ?_; decide)
      | intro _
      | with_reducible split
  clear_value s1
  try dsimp only
  repeat' first
    | with_reducible assumption
    | with_reducible apply State.modBench_same
    | with_reducible apply State.orFlags_same
    | with_reducible apply State.retireBench_same
    | with_reducible apply State.recheckBenches_same
    | with_reducible apply State.retireFace_same
    | with_reducible apply State.dealItems_same
    | with_reducible apply State.modFace_same
    | with_reducible apply State.tryStart_same
    | with_reducible apply Same.foldl
    | with_reducible apply Same.foldlFst
    | (with_reducible refine Sub.trans hM ?_; decide)
    | intro _
    | with_reducible split

theorem State.checkEnd_same {M : Nat} {σ₀ σ : State} (hM : Sub 4879125579248 M) (hk : Same M σ₀ σ) (n b : Nat) :
    Same M σ₀ (State.checkEnd σ n b) := by
  unfold State.checkEnd
  try dsimp only
  repeat' first
    | with_reducible assumption
    | with_reducible apply State.modBench_same
    | with_reducible apply State.failBench_same
    | with_reducible apply State.remapReplay_same
    | (with_reducible refine Sub.trans hM ?_; decide)
    | intro _
    | with_reducible split

theorem State.contextWrite_same {M : Nat} {σ₀ σ : State} (hM : Sub 640 M) (hk : Same M σ₀ σ) (n b : Nat)
    (shared : List (List Nat)) (group pocket : Nat) :
    Same M σ₀ (State.contextWrite σ n b shared group pocket) := by
  unfold State.contextWrite
  try dsimp only
  repeat' first
    | with_reducible assumption
    | with_reducible apply State.modBench_same
    | (with_reducible refine Sub.trans hM ?_; decide)
    | intro _
    | with_reducible split
    | with_reducible apply Same.set_yard

theorem State.contextSave_same {M : Nat} {σ₀ σ : State} (hM : Sub 4672967149264 M) (hk : Same M σ₀ σ)
    (n b : Nat) (shared : List (List Nat)) (group pocket : Nat) :
    Same M σ₀ (State.contextSave σ n b shared group pocket) := by
  unfold State.contextSave
  dsimp only
  split
  · exact State.settle_same (hM.trans (by decide)) (State.contextWrite_same (hM.trans (by decide)) hk _ _ _ _ _) _
  · exact hk

theorem State.contextRestore_same {M : Nat} {σ₀ σ : State} (hM : Sub 128 M) (hk : Same M σ₀ σ) (n b : Nat)
    (active idle : StatLoad) (pre : List (List Nat)) :
    Same M σ₀ (State.contextRestore σ n b active idle pre) := by
  unfold State.contextRestore
  try dsimp only
  repeat' first
    | with_reducible assumption
    | with_reducible apply State.modBench_same
    | (with_reducible refine Sub.trans hM ?_; decide)
    | intro _
    | with_reducible split

theorem State.abortBench_same {M : Nat} {σ₀ σ : State} (hM : Sub 525760 M) (hk : Same M σ₀ σ) (n b : Nat) :
    Same M σ₀ (State.abortBench σ n b) := by
  unfold State.abortBench
  try dsimp only
  repeat' first
    | with_reducible assumption
    | with_reducible apply State.awaitReplay_same
    | with_reducible apply State.modBench_same
    | with_reducible apply State.orFlags_same
    | with_reducible apply State.addReplays_same
    | with_reducible apply State.setStatus_same
    | with_reducible apply State.tryStart_same
    | (with_reducible refine Sub.trans hM ?_; decide)
    | intro _
    | with_reducible split

end Sys2Proof.Machine
end

