-- ==== Sys2Proof/Laws/SameFold.lean ====
section
/-! SUPPORT. Which parts of the state the operations of `Machine/Fold.lean` may change (`Same`). -/

namespace Sys2Proof.Machine

set_option linter.all false

theorem State.putYard_same {M : Nat} {σ₀ σ : State} (hM : Sub 512 M) (hk : Same M σ₀ σ) (a : Nat)
    (bs : List Byte) :
    Same M σ₀ (State.putYard σ a bs) := by
  unfold State.putYard
  try dsimp only
  repeat' first
    | with_reducible assumption
    | (with_reducible refine Sub.trans hM ?_; decide)
    | intro _
    | with_reducible split
    | with_reducible apply Same.set_yard

theorem State.promote_same {M : Nat} {σ₀ σ : State} (hM : Sub 4194816 M) (hk : Same M σ₀ σ) (t : TileRef) (h : Hdr) (k : Nat) :
    Same M σ₀ (State.promote σ t h k).1 := by
  have h1 := Same.foldl hk (fun u x => u.putYard (u.elemAt t { h with e128 := true, slot := k } x.1 x.2)
    (natLe (promoteG40 (σ.elemCode t h x.1 x.2)) 16)) t.positions (fun b x hb => State.putYard_same (hM.trans (by decide)) hb _ _)
  exact Same.set_slots (hM.trans (by decide)) h1

theorem State.promotionRule_same {M : Nat} {σ₀ σ : State} (hM : Sub 4194816 M) (hk : Same M σ₀ σ) (t : TileRef) (h : Hdr) (al : Bool) :
    Same M σ₀ (State.promotionRule σ t h al).1 := by
  unfold State.promotionRule
  split
  · exact State.promote_same (hM.trans (by decide)) hk _ _ _
  · exact hk

theorem State.foldInto_same {M : Nat} {σ₀ σ : State} (hM : Sub 512 M) (hk : Same M σ₀ σ) (t : TileRef) (h : Hdr) (ps : List ((Nat × Nat) × Val)) :
    Same M σ₀ (State.foldInto σ t h ps).1 := by
  unfold State.foldInto
  apply Same.foldlFst hk
  intro b x hb
  dsimp only
  split
  · exact (State.putYard_same (hM.trans (by decide))) hb _ _
  · exact hb

theorem State.zeroRest_same {M : Nat} {σ₀ σ : State} (hM : Sub 512 M) (hk : Same M σ₀ σ) (t : TileRef) (h : Hdr) :
    Same M σ₀ (State.zeroRest σ t h) := by
  unfold State.zeroRest
  try dsimp only
  repeat' first
    | with_reducible assumption
    | with_reducible apply Same.foldl
    | with_reducible apply Same.foldlFst
    | (with_reducible refine Sub.trans hM ?_; decide)
    | intro _
    | with_reducible split
    | with_reducible apply Same.set_yard

theorem State.foldTile_same {M : Nat} {σ₀ σ : State} (hM : Sub 4719104 M) (hk : Same M σ₀ σ) (e : Nat) (t : TileRef) (first promoteOn : Bool)
    (ps : List ((Nat × Nat) × Val)) (fl : FoldFlags) :
    Same M σ₀ (State.foldTile σ e t first promoteOn ps fl) := by
  have h1 : ∀ (c : Bool) h, Same M σ₀ (if c = true then σ.promotionRule t h promoteOn else (σ, h, false)).1 := by
    intro c h
    cases c
    · exact hk
    · exact State.promotionRule_same (hM.trans (by decide)) hk _ _ _
  unfold State.foldTile
  extract_lets h0 h1' r2
  exact State.modCut_same (hM.trans (by decide)) (State.orFlags_same (hM.trans (by decide)) (State.putYard_same (hM.trans (by decide)) (State.foldInto_same (hM.trans (by decide))
    (State.zeroRest_same (hM.trans (by decide)) (h1 _ _) _ _) _ _ _) _ _) _ _) _ _

theorem State.resetTile_same {M : Nat} {σ₀ σ : State} (hM : Sub 4194816 M) (hk : Same M σ₀ σ) (hdr : Nat) :
    Same M σ₀ (State.resetTile σ hdr) := by
  unfold State.resetTile
  extract_lets s1
  have hk_s1 : Same M σ₀ s1 := by
    dsimp only [s1]
    repeat' first
      | with_reducible assumption
      | with_reducible apply State.putYard_same
      | (with_reducible refine Sub.trans hM ?_; decide)
      | intro _
      | with_reducible split
      | with_reducible apply Same.set_slots
  clear_value s1
  try dsimp only
  repeat' first
    | with_reducible assumption
    | with_reducible apply State.putYard_same
    | (with_reducible refine Sub.trans hM ?_; decide)
    | intro _
    | with_reducible split
    | with_reducible apply Same.set_slots

theorem State.publishN_same {M : Nat} {σ₀ σ : State} (hM : Sub 4398047100944 M) (hk : Same M σ₀ σ) (e n : Nat) :
    Same M σ₀ (State.publishN σ e n) := by
  induction n generalizing σ with
  | zero => exact hk
  | succ k ih =>
    unfold State.publishN
    dsimp only
    split
    · exact ih ((State.tallyDone_same (hM.trans (by decide))) ((State.modCut_same (hM.trans (by decide))) hk _ _) _)
    · exact hk

theorem State.publish_same {M : Nat} {σ₀ σ : State} (hM : Sub 4398047100944 M) (hk : Same M σ₀ σ) (e : Nat) : Same M σ₀ (State.publish σ e) :=
  (State.publishN_same (hM.trans (by decide))) hk _ _

theorem State.itemDone_same {M : Nat} {σ₀ σ : State} (hM : Sub 4398047100944 M) (hk : Same M σ₀ σ)
    (e item : Nat) :
    Same M σ₀ (State.itemDone σ e item) := by
  unfold State.itemDone
  try dsimp only
  repeat' first
    | with_reducible assumption
    | with_reducible apply State.modCut_same
    | with_reducible apply State.publish_same
    | (with_reducible refine Sub.trans hM ?_; decide)
    | intro _
    | with_reducible split

theorem State.checkSlice_same {M : Nat} {σ₀ σ : State} (hM : Sub 4398047100944 M) (hk : Same M σ₀ σ)
    (e slice : Nat) :
    Same M σ₀ (State.checkSlice σ e slice) := by
  unfold State.checkSlice
  try dsimp only
  repeat' first
    | with_reducible assumption
    | with_reducible apply State.itemDone_same
    | (with_reducible refine Sub.trans hM ?_; decide)
    | intro _
    | with_reducible split

theorem State.freeShadow_same {M : Nat} {σ₀ σ : State} (hM : Sub 525760 M) (hk : Same M σ₀ σ) (n b : Nat) :
    Same M σ₀ (State.freeShadow σ n b) := by
  unfold State.freeShadow
  try dsimp only
  repeat' first
    | with_reducible assumption
    | with_reducible apply State.modBench_same
    | with_reducible apply State.tryStart_same
    | (with_reducible refine Sub.trans hM ?_; decide)
    | intro _
    | with_reducible split

theorem State.afterFold_same {M : Nat} {σ₀ σ : State} (hM : Sub 4398047100944 M) (hk : Same M σ₀ σ) (e : Nat)
    (p : PassId) :
    Same M σ₀ (State.afterFold σ e p) := by
  unfold State.afterFold
  extract_lets s1
  have hk_s1 : Same M σ₀ s1 := by
    dsimp only [s1]
    repeat' first
      | with_reducible assumption
      | with_reducible apply State.modCut_same
      | with_reducible apply State.checkSlice_same
      | (with_reducible refine Sub.trans hM ?_; decide)
      | intro _
      | with_reducible split
  clear_value s1
  try dsimp only
  repeat' first
    | with_reducible assumption
    | with_reducible apply State.modCut_same
    | with_reducible apply State.checkSlice_same
    | (with_reducible refine Sub.trans hM ?_; decide)
    | intro _
    | with_reducible split

theorem State.fold_same {M : Nat} {σ₀ σ : State} (hM : Sub 4398051297232 M) (hk : Same M σ₀ σ) (n b : Nat) :
    Same M σ₀ (State.fold σ n b) := by
  unfold State.fold
  try dsimp only
  repeat' first
    | with_reducible assumption
    | with_reducible apply State.foldTile_same
    | with_reducible apply State.orFlags_same
    | with_reducible apply State.freeShadow_same
    | with_reducible apply State.afterFold_same
    | (with_reducible refine Sub.trans hM ?_; decide)
    | intro _
    | with_reducible split

theorem State.combine_same {M : Nat} {σ₀ σ : State} (hM : Sub 4719104 M) (hk : Same M σ₀ σ) (e : Nat)
    (t u : TileRef) (promoteOn : Bool) :
    Same M σ₀ (State.combine σ e t u promoteOn) := by
  unfold State.combine
  try dsimp only
  repeat' first
    | with_reducible assumption
    | with_reducible apply State.join_same
    | with_reducible apply State.putYard_same
    | with_reducible apply State.orFlags_same
    | with_reducible apply State.modCut_same
    | with_reducible apply Same.foldl
    | with_reducible apply Same.foldlFst
    | (with_reducible refine Sub.trans hM ?_; decide)
    | intro _
    | with_reducible split
    | with_reducible apply Same.set_slots

theorem State.treeStep_same {M : Nat} {σ₀ σ : State} (hM : Sub 4398051295760 M) (hk : Same M σ₀ σ)
    (e slice level rank : Nat) :
    Same M σ₀ (State.treeStep σ e slice level rank) := by
  unfold State.treeStep
  try dsimp only
  repeat' first
    | with_reducible assumption
    | with_reducible apply State.combine_same
    | with_reducible apply State.modCut_same
    | with_reducible apply State.checkSlice_same
    | (with_reducible refine Sub.trans hM ?_; decide)
    | intro _
    | with_reducible split

theorem State.initialFold_same {M : Nat} {σ₀ σ : State} (hM : Sub 4398051295760 M) (hk : Same M σ₀ σ)
    (e slice : Nat) (values : List (List Nat)) :
    Same M σ₀ (State.initialFold σ e slice values) := by
  unfold State.initialFold
  try dsimp only
  repeat' first
    | with_reducible assumption
    | with_reducible apply State.foldTile_same
    | with_reducible apply State.orFlags_same
    | with_reducible apply State.checkSlice_same
    | (with_reducible refine Sub.trans hM ?_; decide)
    | intro _
    | with_reducible split

end Sys2Proof.Machine
end

