-- ==== Sys2Proof/Laws/SameSched.lean ====
section
/-! SUPPORT. Which parts of the state the operations of `Machine/Sched.lean` may change (`Same`). -/

namespace Sys2Proof.Machine

set_option linter.all false

theorem State.logCut_same {M : Nat} {σ₀ σ : State} (hM : Sub 4398046511104 M) (hk : Same M σ₀ σ) (code e : Nat) :
    Same M σ₀ (State.logCut σ code e) := by
  unfold State.logCut
  try dsimp only
  repeat' first
    | with_reducible assumption
    | with_reducible apply State.logRec_same
    | (with_reducible refine Sub.trans hM ?_; decide)
    | intro _
    | with_reducible split

theorem State.logStalled_same {M : Nat} {σ₀ σ : State} (hM : Sub 4398046511104 M) (hk : Same M σ₀ σ) (e : Nat) :
    Same M σ₀ (State.logStalled σ e) := by
  unfold State.logStalled
  try dsimp only
  repeat' first
    | with_reducible assumption
    | with_reducible apply State.logRec_same
    | with_reducible apply Same.foldl
    | with_reducible apply Same.foldlFst
    | (with_reducible refine Sub.trans hM ?_; decide)
    | intro _
    | with_reducible split

theorem State.freeHoists_same {M : Nat} {σ₀ σ : State} (hM : Sub 8388608 M) (hk : Same M σ₀ σ) (e : Nat) :
    Same M σ₀ (State.freeHoists σ e) := by
  unfold State.freeHoists
  try dsimp only
  repeat' first
    | with_reducible assumption
    | (with_reducible refine Sub.trans hM ?_; decide)
    | intro _
    | with_reducible split
    | with_reducible apply Same.set_hoists

theorem State.freeBenches_same {M : Nat} {σ₀ σ : State} (hM : Sub 525760 M) (hk : Same M σ₀ σ) (e : Nat) :
    Same M σ₀ (State.freeBenches σ e) := by
  unfold State.freeBenches
  extract_lets keys s1
  have hk_s1 : Same M σ₀ s1 := by
    dsimp only [s1]
    repeat' first
      | with_reducible assumption
      | with_reducible apply State.tryStart_same
      | with_reducible apply Same.foldl
      | with_reducible apply Same.foldlFst
      | (with_reducible refine Sub.trans hM ?_; decide)
      | intro _
      | with_reducible split
      | with_reducible apply Same.set_benches_kilns
  clear_value s1
  try dsimp only
  repeat' first
    | with_reducible assumption
    | with_reducible apply State.tryStart_same
    | with_reducible apply Same.foldl
    | with_reducible apply Same.foldlFst
    | (with_reducible refine Sub.trans hM ?_; decide)
    | intro _
    | with_reducible split
    | with_reducible apply Same.set_benches_kilns

theorem State.freeUnits_same {M : Nat} {σ₀ σ : State} (hM : Sub 2147483648 M) (hk : Same M σ₀ σ) (e : Nat) :
    Same M σ₀ (State.freeUnits σ e) := by
  unfold State.freeUnits
  try dsimp only
  repeat' first
    | with_reducible assumption
    | (with_reducible refine Sub.trans hM ?_; decide)
    | intro _
    | with_reducible split
    | with_reducible apply Same.set_units

theorem State.freeCut_same {M : Nat} {σ₀ σ : State} (hM : Sub 277067859392 M) (hk : Same M σ₀ σ) (e : Nat) :
    Same M σ₀ (State.freeCut σ e) := by
  unfold State.freeCut
  extract_lets s1
  have hk_s1 : Same M σ₀ s1 := by
    dsimp only [s1]
    repeat' first
      | with_reducible assumption
      | with_reducible apply State.freeHoists_same
      | with_reducible apply State.freeUnits_same
      | with_reducible apply State.dropTiles_same
      | with_reducible apply State.freeBenches_same
      | (with_reducible refine Sub.trans hM ?_; decide)
      | intro _
      | with_reducible split
      | with_reducible apply Same.set_fills
  clear_value s1
  try dsimp only
  repeat' first
    | with_reducible assumption
    | with_reducible apply State.freeHoists_same
    | with_reducible apply State.freeUnits_same
    | with_reducible apply State.dropTiles_same
    | with_reducible apply State.freeBenches_same
    | (with_reducible refine Sub.trans hM ?_; decide)
    | intro _
    | with_reducible split
    | with_reducible apply Same.set_fills

theorem State.resetSeam_same {M : Nat} {σ₀ σ : State} (hM : Sub 4194816 M) (hk : Same M σ₀ σ) (m : Seam)
    (ranks : List Nat) :
    Same M σ₀ (State.resetSeam σ m ranks) := by
  unfold State.resetSeam
  try dsimp only
  repeat' first
    | with_reducible assumption
    | with_reducible apply State.resetTile_same
    | with_reducible apply Same.foldl
    | with_reducible apply Same.foldlFst
    | (with_reducible refine Sub.trans hM ?_; decide)
    | intro _
    | with_reducible split

theorem State.releaseSeam_same {M : Nat} {σ₀ σ : State} (hM : Sub 5243392 M) (hk : Same M σ₀ σ) (id : Nat) :
    Same M σ₀ (State.releaseSeam σ id) := by
  unfold State.releaseSeam
  try dsimp only
  repeat' first
    | with_reducible assumption
    | with_reducible apply State.resetSeam_same
    | (with_reducible refine Sub.trans hM ?_; decide)
    | intro _
    | with_reducible split
    | with_reducible apply Same.set_seams

theorem State.releaseWaiting_same {M : Nat} {σ₀ σ : State} (hM : Sub 5243392 M) (hk : Same M σ₀ σ) :
    Same M σ₀ (State.releaseWaiting σ) := by
  unfold State.releaseWaiting
  try dsimp only
  repeat' first
    | with_reducible assumption
    | with_reducible apply State.resetSeam_same
    | with_reducible apply Same.foldl
    | with_reducible apply Same.foldlFst
    | (with_reducible refine Sub.trans hM ?_; decide)
    | intro _
    | with_reducible split
    | with_reducible apply Same.set_seams

theorem State.completeSeam_same {M : Nat} {σ₀ σ : State} (hM : Sub 5243392 M) (hk : Same M σ₀ σ) (id : Nat) :
    Same M σ₀ (State.completeSeam σ id) := by
  unfold State.completeSeam
  try dsimp only
  repeat' first
    | with_reducible assumption
    | with_reducible apply State.resetSeam_same
    | (with_reducible refine Sub.trans hM ?_; decide)
    | intro _
    | with_reducible split
    | with_reducible apply Same.set_seams

theorem State.endSeam_same {M : Nat} {σ₀ σ : State} (hM : Sub 4398051754496 M) (hk : Same M σ₀ σ) (e code : Nat) :
    Same M σ₀ (State.endSeam σ e code) := by
  unfold State.endSeam
  try dsimp only
  repeat' first
    | with_reducible assumption
    | with_reducible apply State.completeSeam_same
    | with_reducible apply State.releaseSeam_same
    | with_reducible apply State.logRec_same
    | (with_reducible refine Sub.trans hM ?_; decide)
    | intro _
    | with_reducible split

theorem State.endResult_same {M : Nat} {σ₀ σ : State} (hM : Sub 2097152 M) (hk : Same M σ₀ σ) (e code : Nat) :
    Same M σ₀ (State.endResult σ e code) := by
  unfold State.endResult
  try dsimp only
  repeat' first
    | with_reducible assumption
    | (with_reducible refine Sub.trans hM ?_; decide)
    | intro _
    | with_reducible split
    | with_reducible apply Same.set_results

theorem State.riskClose_same {M : Nat} {σ₀ σ : State} (hM : Sub 4466765987856 M) (hk : Same M σ₀ σ) :
    Same M σ₀ (State.riskClose σ) := by
  unfold State.riskClose
  try dsimp only
  repeat' first
    | with_reducible assumption
    | with_reducible apply State.healthEvent_same
    | (with_reducible refine Sub.trans hM ?_; decide)
    | intro _
    | with_reducible split
    | with_reducible apply Same.set_health

theorem State.snapBegin_same {M : Nat} {σ₀ σ : State} (hM : Sub 549755813888 M) (hk : Same M σ₀ σ) (next : Nat) :
    Same M σ₀ (State.snapBegin σ next) := by
  unfold State.snapBegin
  try dsimp only
  repeat' first
    | with_reducible assumption
    | (with_reducible refine Sub.trans hM ?_; decide)
    | intro _
    | with_reducible split
    | with_reducible apply Same.set_snap

theorem State.closeStep_same {M : Nat} {σ₀ σ : State} (hM : Sub 5016522063888 M) (hk : Same M σ₀ σ) (w : Nat) :
    Same M σ₀ (State.closeStep σ w) := by
  unfold State.closeStep
  extract_lets s1
  have hk_s1 : Same M σ₀ s1 := by
    dsimp only [s1]
    repeat' first
      | with_reducible assumption
      | with_reducible apply State.modWork_same
      | with_reducible apply State.riskClose_same
      | with_reducible apply State.snapBegin_same
      | (with_reducible refine Sub.trans hM ?_; decide)
      | intro _
      | with_reducible split
  clear_value s1
  try dsimp only
  repeat' first
    | with_reducible assumption
    | with_reducible apply State.modWork_same
    | with_reducible apply State.riskClose_same
    | with_reducible apply State.snapBegin_same
    | (with_reducible refine Sub.trans hM ?_; decide)
    | intro _
    | with_reducible split

theorem State.tryClose_same {M : Nat} {σ₀ σ : State} (hM : Sub 5016522063888 M) (hk : Same M σ₀ σ) (w : Nat) :
    Same M σ₀ (State.tryClose σ w) := by
  unfold State.tryClose
  try dsimp only
  repeat' first
    | with_reducible assumption
    | with_reducible apply State.closeStep_same
    | (with_reducible refine Sub.trans hM ?_; decide)
    | intro _
    | with_reducible split

theorem State.doneTallies_same {M : Nat} {σ₀ σ : State} (hM : Sub 4398046576656 M) (hk : Same M σ₀ σ)
    (d : CutDesc) :
    Same M σ₀ (State.doneTallies σ d) := by
  unfold State.doneTallies
  try dsimp only
  repeat' first
    | with_reducible assumption
    | with_reducible apply State.tallyDone_same
    | with_reducible apply Same.foldl
    | with_reducible apply Same.foldlFst
    | (with_reducible refine Sub.trans hM ?_; decide)
    | intro _
    | with_reducible split

theorem State.finish_same {M : Nat} {σ₀ σ : State} (hM : Sub 525312 M) (hk : Same M σ₀ σ) (e code : Nat) :
    Same M σ₀ (State.finish σ e code) := by
  unfold State.finish
  try dsimp only
  repeat' first
    | with_reducible assumption
    | with_reducible apply State.modCut_same
    | with_reducible apply State.writeRecord_same
    | (with_reducible refine Sub.trans hM ?_; decide)
    | intro _
    | with_reducible split

theorem State.endAdoption_same {M : Nat} {σ₀ σ : State} (hM : Sub 274877907008 M) (hk : Same M σ₀ σ) (e : Nat) :
    Same M σ₀ (State.endAdoption σ e) := by
  unfold State.endAdoption
  try dsimp only
  repeat' first
    | with_reducible assumption
    | with_reducible apply State.modFace_same
    | with_reducible apply Same.foldl
    | with_reducible apply Same.foldlFst
    | (with_reducible refine Sub.trans hM ?_; decide)
    | intro _
    | with_reducible split
    | with_reducible apply Same.set_fills

theorem State.endCut_same {M : Nat} {σ₀ σ : State} (hM : Sub 5295207942096 M) (hk : Same M σ₀ σ) (e code : Nat) :
    Same M σ₀ (State.endCut σ e code) := by
  unfold State.endCut
  extract_lets d s1 s2 s3 s4 s5
  have hk_s1 : Same M σ₀ s1 := by
    dsimp only [s1]
    repeat' first
      | with_reducible assumption
      | with_reducible apply State.finish_same
      | with_reducible apply State.doneTallies_same
      | with_reducible apply State.setEvt_same
      | with_reducible apply State.logCut_same
      | with_reducible apply State.endSeam_same
      | with_reducible apply State.endResult_same
      | with_reducible apply State.freeCut_same
      | with_reducible apply State.endAdoption_same
      | with_reducible apply State.logStalled_same
      | with_reducible apply State.tryClose_same
      | (with_reducible refine Sub.trans hM ?_; decide)
      | intro _
      | with_reducible split
      | with_reducible apply Same.set_xruns_aruns
  clear_value s1
  have hk_s2 : Same M σ₀ s2 := by
    dsimp only [s2]
    repeat' first
      | with_reducible assumption
      | with_reducible apply State.finish_same
      | with_reducible apply State.doneTallies_same
      | with_reducible apply State.setEvt_same
      | with_reducible apply State.logCut_same
      | with_reducible apply State.endSeam_same
      | with_reducible apply State.endResult_same
      | with_reducible apply State.freeCut_same
      | with_reducible apply State.endAdoption_same
      | with_reducible apply State.logStalled_same
      | with_reducible apply State.tryClose_same
      | (with_reducible refine Sub.trans hM ?_; decide)
      | intro _
      | with_reducible split
      | with_reducible apply Same.set_xruns_aruns
  clear_value s2
  have hk_s3 : Same M σ₀ s3 := by
    dsimp only [s3]
    repeat' first
      | with_reducible assumption
      | with_reducible apply State.finish_same
      | with_reducible apply State.doneTallies_same
      | with_reducible apply State.setEvt_same
      | with_reducible apply State.logCut_same
      | with_reducible apply State.endSeam_same
      | with_reducible apply State.endResult_same
      | with_reducible apply State.freeCut_same
      | with_reducible apply State.endAdoption_same
      | with_reducible apply State.logStalled_same
      | with_reducible apply State.tryClose_same
      | (with_reducible refine Sub.trans hM ?_; decide)
      | intro _
      | with_reducible split
      | with_reducible apply Same.set_xruns_aruns
  clear_value s3
  have hk_s4 : Same M σ₀ s4 := by
    dsimp only [s4]
    repeat' first
      | with_reducible assumption
      | with_reducible apply State.finish_same
      | with_reducible apply State.doneTallies_same
      | with_reducible apply State.setEvt_same
      | with_reducible apply State.logCut_same
      | with_reducible apply State.endSeam_same
      | with_reducible apply State.endResult_same
      | with_reducible apply State.freeCut_same
      | with_reducible apply State.endAdoption_same
      | with_reducible apply State.logStalled_same
      | with_reducible apply State.tryClose_same
      | (with_reducible refine Sub.trans hM ?_; decide)
      | intro _
      | with_reducible split
      | with_reducible apply Same.set_xruns_aruns
  clear_value s4
  have hk_s5 : Same M σ₀ s5 := by
    dsimp only [s5]
    repeat' first
      | with_reducible assumption
      | with_reducible apply State.finish_same
      | with_reducible apply State.doneTallies_same
      | with_reducible apply State.setEvt_same
      | with_reducible apply State.logCut_same
      | with_reducible apply State.endSeam_same
      | with_reducible apply State.endResult_same
      | with_reducible apply State.freeCut_same
      | with_reducible apply State.endAdoption_same
      | with_reducible apply State.logStalled_same
      | with_reducible apply State.tryClose_same
      | (with_reducible refine Sub.trans hM ?_; decide)
      | intro _
      | with_reducible split
      | with_reducible apply Same.set_xruns_aruns
  clear_value s5
  try dsimp only
  repeat' first
    | with_reducible assumption
    | with_reducible apply State.finish_same
    | with_reducible apply State.doneTallies_same
    | with_reducible apply State.setEvt_same
    | with_reducible apply State.logCut_same
    | with_reducible apply State.endSeam_same
    | with_reducible apply State.endResult_same
    | with_reducible apply State.freeCut_same
    | with_reducible apply State.endAdoption_same
    | with_reducible apply State.logStalled_same
    | with_reducible apply State.tryClose_same
    | (with_reducible refine Sub.trans hM ?_; decide)
    | intro _
    | with_reducible split
    | with_reducible apply Same.set_xruns_aruns

theorem State.refuse_same {M : Nat} {σ₀ σ : State} (hM : Sub 5016527832592 M) (hk : Same M σ₀ σ) (e : Nat)
    (r : CutRefusal) :
    Same M σ₀ (State.refuse σ e r) := by
  unfold State.refuse
  try dsimp only
  repeat' first
    | with_reducible assumption
    | with_reducible apply State.modCut_same
    | with_reducible apply State.finish_same
    | with_reducible apply State.setEvt_same
    | with_reducible apply State.logCut_same
    | with_reducible apply State.endSeam_same
    | with_reducible apply State.logStalled_same
    | with_reducible apply State.tryClose_same
    | (with_reducible refine Sub.trans hM ?_; decide)
    | intro _
    | with_reducible split

theorem State.breakCut_same {M : Nat} {σ₀ σ : State} (hM : Sub 5295207942096 M) (hk : Same M σ₀ σ) (e : Nat) :
    Same M σ₀ (State.breakCut σ e) := by
  unfold State.breakCut
  try dsimp only
  repeat' first
    | with_reducible assumption
    | with_reducible apply State.endCut_same
    | (with_reducible refine Sub.trans hM ?_; decide)
    | intro _
    | with_reducible split

end Sys2Proof.Machine
end

