-- ==== Sys2Proof/Laws/SameHoist.lean ====
section
/-! SUPPORT. Which parts of the state the operations of `Machine/Hoist.lean` may change (`Same`). -/

namespace Sys2Proof.Machine

set_option linter.all false

theorem State.deliverLine_same {M : Nat} {σ₀ σ : State} (hM : Sub 8389120 M) (hk : Same M σ₀ σ) (n : Nat)
    (q : LineReq) (bs : List Byte) :
    Same M σ₀ (State.deliverLine σ n q bs) := by
  unfold State.deliverLine
  extract_lets h s1
  have hk_s1 : Same M σ₀ s1 := by
    dsimp only [s1]
    repeat' first
      | with_reducible assumption
      | with_reducible apply State.modHoist_same
      | with_reducible apply State.putYard_same
      | (with_reducible refine Sub.trans hM ?_; decide)
      | intro _
      | with_reducible split
  clear_value s1
  try dsimp only
  repeat' first
    | with_reducible assumption
    | with_reducible apply State.modHoist_same
    | with_reducible apply State.putYard_same
    | (with_reducible refine Sub.trans hM ?_; decide)
    | intro _
    | with_reducible split

theorem State.deliverN_same {M : Nat} {σ₀ σ : State} (hM : Sub 8389120 M) (hk : Same M σ₀ σ) (n k : Nat) :
    Same M σ₀ (State.deliverN σ n k) := by
  induction k generalizing σ with
  | zero => exact hk
  | succ k ih =>
    unfold State.deliverN
    split
    · split
      · exact ih ((State.deliverLine_same (hM.trans (by decide))) hk _ _ _)
      · exact hk
    · exact hk

theorem State.deliverAll_same {M : Nat} {σ₀ σ : State} (hM : Sub 8389120 M) (hk : Same M σ₀ σ) (n : Nat) : Same M σ₀ (State.deliverAll σ n) :=
  (State.modHoist_same (hM.trans (by decide))) ((State.deliverN_same (hM.trans (by decide))) hk _ _) _ _

theorem State.claim_same {M : Nat} {σ₀ σ : State} (hM : Sub 8389120 M) (hk : Same M σ₀ σ) (n : Nat)
    (lines : List LinePoint) :
    Same M σ₀ (State.claim σ n lines) := by
  unfold State.claim
  try dsimp only
  repeat' first
    | with_reducible assumption
    | with_reducible apply State.modHoist_same
    | with_reducible apply State.deliverAll_same
    | (with_reducible refine Sub.trans hM ?_; decide)
    | intro _
    | with_reducible split

theorem State.linesBack_same {M : Nat} {σ₀ σ : State} (hM : Sub 525312 M) (hk : Same M σ₀ σ) (n : Nat) :
    Same M σ₀ (State.linesBack σ n) := by
  unfold State.linesBack
  split
  · exact State.replayStarts_same hM hk _ _
  · exact hk

theorem State.readReturn_same {M : Nat} {σ₀ σ : State} (hM : Sub 8914432 M) (hk : Same M σ₀ σ) (n seq : Nat)
    (data : List Byte) :
    Same M σ₀ (State.readReturn σ n seq data) := by
  unfold State.readReturn
  try dsimp only
  repeat' first
    | with_reducible assumption
    | with_reducible apply State.linesBack_same
    | with_reducible apply State.modHoist_same
    | with_reducible apply State.deliverAll_same
    | (with_reducible refine Sub.trans hM ?_; decide)
    | intro _
    | with_reducible split

theorem State.abortFed_same {M : Nat} {σ₀ σ : State} (hM : Sub 525760 M) (hk : Same M σ₀ σ) (n upTo : Nat) (h : Hoist) :
    Same M σ₀ (State.abortFed σ n upTo h) := by
  unfold State.abortFed
  try dsimp only
  repeat' first
    | with_reducible assumption
    | with_reducible apply State.awaitReplay_same
    | with_reducible apply State.orFlags_same
    | with_reducible apply State.abortBench_same
    | with_reducible apply Same.foldl
    | with_reducible apply Same.foldlFst
    | (with_reducible refine Sub.trans hM ?_; decide)
    | intro _
    | with_reducible split

theorem State.readError_same {M : Nat} {σ₀ σ : State} (hM : Sub 4398089242064 M) (hk : Same M σ₀ σ)
    (n seq : Nat) :
    Same M σ₀ (State.readError σ n seq) := by
  unfold State.readError
  try dsimp only
  repeat' first
    | with_reducible assumption
    | with_reducible apply State.modHoist_same
    | with_reducible apply State.abortFed_same
    | with_reducible apply State.halt_same
    | (with_reducible refine Sub.trans hM ?_; decide)
    | intro _
    | with_reducible split

theorem State.writeAck_same {M : Nat} {σ₀ σ : State} (hM : Sub 4398055490576 M) (hk : Same M σ₀ σ) (n : Nat) :
    Same M σ₀ (State.writeAck σ n) := by
  unfold State.writeAck
  try dsimp only
  repeat' first
    | with_reducible assumption
    | with_reducible apply State.modHoist_same
    | with_reducible apply State.putFabric_same
    | with_reducible apply State.publish_same
    | (with_reducible refine Sub.trans hM ?_; decide)
    | intro _
    | with_reducible split

theorem State.failWrite_same {M : Nat} {σ₀ σ : State} (hM : Sub 1026 M) (hk : Same M σ₀ σ) (a : Nat) (bs : List Byte) :
    Same M σ₀ (State.failWrite σ a bs) := by
  induction bs generalizing σ a with
  | nil => exact hk
  | cons b bs ih =>
    unfold State.failWrite
    extract_lets s1
    have h1 : Same M σ₀ s1 := by
      dsimp only [s1]
      exact Same.ite (State.putFabric_same (hM.trans (by decide)) hk _ _) hk
    clear_value s1
    exact ih (Same.set_fresh (hM.trans (by decide)) h1) _

theorem State.stopEviction_same {M : Nat} {σ₀ σ : State} (hM : Sub 1048576 M) (hk : Same M σ₀ σ) (e : Nat) :
    Same M σ₀ (State.stopEviction σ e) := by
  unfold State.stopEviction
  try dsimp only
  repeat' first
    | with_reducible assumption
    | (with_reducible refine Sub.trans hM ?_; decide)
    | intro _
    | with_reducible split
    | with_reducible apply Same.set_seams

theorem State.writeError_same {M : Nat} {σ₀ σ : State} (hM : Sub 4398090290322 M) (hk : Same M σ₀ σ) (n : Nat) :
    Same M σ₀ (State.writeError σ n) := by
  unfold State.writeError
  extract_lets h
  split
  · exact hk
  · extract_lets s1
    have h1 : Same M σ₀ s1 := State.failWrite_same (hM.trans (by decide)) (State.modHoist_same (hM.trans (by decide)) hk _ _) _ _
    clear_value s1
    split
    · exact h1
    · split
      · extract_lets s2 ev
        have h2 : Same M σ₀ s2 := State.halt_same (hM.trans (by decide)) (State.modHoist_same (hM.trans (by decide)) h1 _ _) _ _ _ _
        clear_value s2
        split
        · exact State.modHoist_same (hM.trans (by decide)) (State.stopEviction_same (hM.trans (by decide)) h2 _) _ _
        · exact h2
      · exact h1

theorem State.receiverTake_same {M : Nat} {σ₀ σ : State} (hM : Sub 8388608 M) (hk : Same M σ₀ σ) (n r : Nat) :
    Same M σ₀ (State.receiverTake σ n r) := by
  unfold State.receiverTake
  try dsimp only
  repeat' first
    | with_reducible assumption
    | with_reducible apply State.modHoist_same
    | (with_reducible refine Sub.trans hM ?_; decide)
    | intro _
    | with_reducible split

theorem State.detachOne_same {M : Nat} {σ₀ σ : State} (hM : Sub 4398055424000 M) (hk : Same M σ₀ σ)
    (n r d : Nat) :
    Same M σ₀ (State.detachOne σ n r d) := by
  unfold State.detachOne
  extract_lets h p s1 s2 s3
  have hk_s1 : Same M σ₀ s1 := by
    dsimp only [s1]
    repeat' first
      | with_reducible assumption
      | with_reducible apply State.modHoist_same
      | with_reducible apply State.modCut_same
      | with_reducible apply State.logEvt_same
      | (with_reducible refine Sub.trans hM ?_; decide)
      | intro _
      | with_reducible split
  clear_value s1
  have hk_s2 : Same M σ₀ s2 := by
    dsimp only [s2]
    repeat' first
      | with_reducible assumption
      | with_reducible apply State.modHoist_same
      | with_reducible apply State.modCut_same
      | with_reducible apply State.logEvt_same
      | (with_reducible refine Sub.trans hM ?_; decide)
      | intro _
      | with_reducible split
  clear_value s2
  have hk_s3 : Same M σ₀ s3 := by
    dsimp only [s3]
    repeat' first
      | with_reducible assumption
      | with_reducible apply State.modHoist_same
      | with_reducible apply State.modCut_same
      | with_reducible apply State.logEvt_same
      | (with_reducible refine Sub.trans hM ?_; decide)
      | intro _
      | with_reducible split
  clear_value s3
  try dsimp only
  repeat' first
    | with_reducible assumption
    | with_reducible apply State.modHoist_same
    | with_reducible apply State.modCut_same
    | with_reducible apply State.logEvt_same
    | (with_reducible refine Sub.trans hM ?_; decide)
    | intro _
    | with_reducible split

theorem State.detach_same {M : Nat} {σ₀ σ : State} (hM : Sub 4398055424000 M) (hk : Same M σ₀ σ) (n : Nat) :
    Same M σ₀ (State.detach σ n) := by
  unfold State.detach
  try dsimp only
  repeat' first
    | with_reducible assumption
    | with_reducible apply State.detachOne_same
    | with_reducible apply State.modHoist_same
    | with_reducible apply Same.foldl
    | with_reducible apply Same.foldlFst
    | (with_reducible refine Sub.trans hM ?_; decide)
    | intro _
    | with_reducible split

theorem State.rearm_same {M : Nat} {σ₀ σ : State} (hM : Sub 8388608 M) (hk : Same M σ₀ σ) (n : Nat) :
    Same M σ₀ (State.rearm σ n) := by
  unfold State.rearm
  try dsimp only
  repeat' first
    | with_reducible assumption
    | with_reducible apply State.modHoist_same
    | (with_reducible refine Sub.trans hM ?_; decide)
    | intro _
    | with_reducible split

theorem State.endStream_same {M : Nat} {σ₀ σ : State} (hM : Sub 4398054965264 M) (hk : Same M σ₀ σ) (n : Nat) :
    Same M σ₀ (State.endStream σ n) := by
  unfold State.endStream
  try dsimp only
  repeat' first
    | with_reducible assumption
    | with_reducible apply State.tallyDone_same
    | with_reducible apply State.modHoist_same
    | with_reducible apply State.rearm_same
    | with_reducible apply Same.foldl
    | with_reducible apply Same.foldlFst
    | (with_reducible refine Sub.trans hM ?_; decide)
    | intro _
    | with_reducible split

theorem State.streamEnd_same {M : Nat} {σ₀ σ : State} (hM : Sub 4398054965264 M) (hk : Same M σ₀ σ) (n : Nat) :
    Same M σ₀ (State.streamEnd σ n) := by
  unfold State.streamEnd
  try dsimp only
  repeat' first
    | with_reducible assumption
    | with_reducible apply State.endStream_same
    | (with_reducible refine Sub.trans hM ?_; decide)
    | intro _
    | with_reducible split

theorem State.endStreams_same {M : Nat} {σ₀ σ : State} (hM : Sub 4398054965264 M) (hk : Same M σ₀ σ) (e : Nat) :
    Same M σ₀ (State.endStreams σ e) := by
  unfold State.endStreams
  try dsimp only
  repeat' first
    | with_reducible assumption
    | with_reducible apply State.endStream_same
    | with_reducible apply Same.foldl
    | with_reducible apply Same.foldlFst
    | (with_reducible refine Sub.trans hM ?_; decide)
    | intro _
    | with_reducible split

theorem State.spillPark_same {M : Nat} {σ₀ σ : State} (hM : Sub 8388608 M) (hk : Same M σ₀ σ) (n : Nat)
    (data : List Byte) :
    Same M σ₀ (State.spillPark σ n data) := by
  unfold State.spillPark
  try dsimp only
  repeat' first
    | with_reducible assumption
    | with_reducible apply State.modHoist_same
    | (with_reducible refine Sub.trans hM ?_; decide)
    | intro _
    | with_reducible split

theorem State.spillReadback_same {M : Nat} {σ₀ σ : State} (hM : Sub 8389120 M) (hk : Same M σ₀ σ) (n : Nat) :
    Same M σ₀ (State.spillReadback σ n) := by
  unfold State.spillReadback
  try dsimp only
  repeat' first
    | with_reducible assumption
    | with_reducible apply State.modHoist_same
    | with_reducible apply State.deliverAll_same
    | (with_reducible refine Sub.trans hM ?_; decide)
    | intro _
    | with_reducible split

theorem State.reopenItems_same {M : Nat} {σ₀ σ : State} (hM : Sub 525760 M) (hk : Same M σ₀ σ) (e : Nat)
    (items : List Nat) :
    Same M σ₀ (State.reopenItems σ e items) := by
  unfold State.reopenItems
  extract_lets c back s1 bl
  have hk_s1 : Same M σ₀ s1 := by
    dsimp only [s1]
    repeat' first
      | with_reducible assumption
      | with_reducible apply State.awaitReplay_same
      | with_reducible apply State.modCut_same
      | with_reducible apply State.modBench_same
      | with_reducible apply State.tryStart_same
      | with_reducible apply Same.foldl
      | with_reducible apply Same.foldlFst
      | (with_reducible refine Sub.trans hM ?_; decide)
      | intro _
      | with_reducible split
  clear_value s1
  try dsimp only
  repeat' first
    | with_reducible assumption
    | with_reducible apply State.awaitReplay_same
    | with_reducible apply State.modCut_same
    | with_reducible apply State.modBench_same
    | with_reducible apply State.tryStart_same
    | with_reducible apply Same.foldl
    | with_reducible apply Same.foldlFst
    | (with_reducible refine Sub.trans hM ?_; decide)
    | intro _
    | with_reducible split

theorem State.stockpileError_same {M : Nat} {σ₀ σ : State} (hM : Sub 9962944 M) (hk : Same M σ₀ σ) (n : Nat)
    (bad : Bool) :
    Same M σ₀ (State.stockpileError σ n bad) := by
  unfold State.stockpileError
  try dsimp only
  repeat' first
    | with_reducible assumption
    | with_reducible apply State.modHoist_same
    | with_reducible apply State.abortFed_same
    | with_reducible apply State.orFlags_same
    | with_reducible apply State.setStatus_same
    | with_reducible apply State.reopenItems_same
    | with_reducible apply State.stopEviction_same
    | with_reducible apply State.modCut_same
    | (with_reducible refine Sub.trans hM ?_; decide)
    | intro _
    | with_reducible split

end Sys2Proof.Machine
end

