-- ==== Sys2Proof/Laws/SameTpb.lean ====
section
/-! SUPPORT. Which parts of the state the operations of `Machine/Tpb.lean` may change (`Same`). -/

namespace Sys2Proof.Machine

set_option linter.all false

theorem State.tileLoad_same {M : Nat} {σ₀ σ : State} (hM : Sub 50855936 M) (hk : Same M σ₀ σ) (k : Nat)
    (stream : TileStream) (fmt e : Nat) (rows scales : List (List Nat)) (stalls : List (Fin 4 × Nat)) :
    Same M σ₀ (State.tileLoad σ k stream fmt e rows scales stalls) := by
  unfold State.tileLoad
  try dsimp only
  repeat' first
    | with_reducible assumption
    | with_reducible apply State.modTpb_same
    | with_reducible apply State.orFlags_same
    | (with_reducible refine Sub.trans hM ?_; decide)
    | intro _
    | with_reducible split
    | with_reducible apply Same.set_tileSlots

theorem State.abortCutPasses_same {M : Nat} {σ₀ σ : State} (hM : Sub 525760 M) (hk : Same M σ₀ σ) (e : Nat) :
    Same M σ₀ (State.abortCutPasses σ e) := by
  unfold State.abortCutPasses
  try dsimp only
  repeat' first
    | with_reducible assumption
    | with_reducible apply State.abortBench_same
    | with_reducible apply Same.foldl
    | with_reducible apply Same.foldlFst
    | (with_reducible refine Sub.trans hM ?_; decide)
    | intro _
    | with_reducible split

theorem State.stopForBuffer_same {M : Nat} {σ₀ σ : State} (hM : Sub 42730624 M) (hk : Same M σ₀ σ) (e : Nat) :
    Same M σ₀ (State.stopForBuffer σ e) := by
  unfold State.stopForBuffer
  try dsimp only
  repeat' first
    | with_reducible assumption
    | with_reducible apply State.stopCut_same
    | with_reducible apply State.modWork_same
    | (with_reducible refine Sub.trans hM ?_; decide)
    | intro _
    | with_reducible split

theorem State.tpbFault_same {M : Nat} {σ₀ σ : State} (hM : Sub 13331637994992 M) (hk : Same M σ₀ σ) (j : Nat) :
    Same M σ₀ (State.tpbFault σ j) := by
  unfold State.tpbFault
  try dsimp only
  repeat' first
    | with_reducible assumption
    | with_reducible apply State.modTpb_same
    | with_reducible apply State.retireBuffer_same
    | with_reducible apply State.abortCutPasses_same
    | with_reducible apply State.logEvt_same
    | with_reducible apply State.stopForBuffer_same
    | with_reducible apply State.orFlags_same
    | with_reducible apply Same.foldl
    | with_reducible apply Same.foldlFst
    | (with_reducible refine Sub.trans hM ?_; decide)
    | intro _
    | with_reducible split
    | with_reducible apply Same.set_monitor

theorem State.tileLoadAny_same {M : Nat} {σ₀ σ : State} (hM : Sub 13331637994992 M) (hk : Same M σ₀ σ) (k : Nat)
    (stream : TileStream) (fmt e : Nat) (rows scales : List (List Nat)) (stalls : List (Fin 4 × Nat)) :
    Same M σ₀ (State.tileLoadAny σ k stream fmt e rows scales stalls) := by
  unfold State.tileLoadAny
  extract_lets s1
  have hk_s1 : Same M σ₀ s1 := by
    dsimp only [s1]
    repeat' first
      | with_reducible assumption
      | with_reducible apply State.tileLoad_same
      | with_reducible apply State.tpbFault_same
      | (with_reducible refine Sub.trans hM ?_; decide)
      | intro _
      | with_reducible split
  clear_value s1
  try dsimp only
  repeat' first
    | with_reducible assumption
    | with_reducible apply State.tileLoad_same
    | with_reducible apply State.tpbFault_same
    | (with_reducible refine Sub.trans hM ?_; decide)
    | intro _
    | with_reducible split

end Sys2Proof.Machine
end

