-- ==== Sys2Proof/Laws/SameReadout.lean ====
section
/-! SUPPORT. Which parts of the state the operations of `Machine/Readout.lean` may change (`Same`). -/

namespace Sys2Proof.Machine

set_option linter.all false

theorem State.handOut_same {M : Nat} {σ₀ σ : State} (hM : Sub 8388608 M) (hk : Same M σ₀ σ) (h : Nat)
    (ws : List LineWrite) :
    Same M σ₀ (State.handOut σ h ws) := by
  unfold State.handOut
  try dsimp only
  repeat' first
    | with_reducible assumption
    | with_reducible apply State.modHoist_same
    | (with_reducible refine Sub.trans hM ?_; decide)
    | intro _
    | with_reducible split

theorem State.putOut_same {M : Nat} {σ₀ σ : State} (hM : Sub 8389120 M) (hk : Same M σ₀ σ) (item : Nat)
    (m : MapDesc) (h : Nat) (bs : List (Nat × Byte)) :
    Same M σ₀ (State.putOut σ item m h bs) := by
  unfold State.putOut
  try dsimp only
  repeat' first
    | with_reducible assumption
    | with_reducible apply State.putYard_same
    | with_reducible apply State.handOut_same
    | with_reducible apply Same.foldl
    | with_reducible apply Same.foldlFst
    | (with_reducible refine Sub.trans hM ?_; decide)
    | intro _
    | with_reducible split

theorem State.countDropped_same {M : Nat} {σ₀ σ : State} (hM : Sub 524288 M) (hk : Same M σ₀ σ) (e k : Nat) :
    Same M σ₀ (State.countDropped σ e k) := by
  unfold State.countDropped
  try dsimp only
  repeat' first
    | with_reducible assumption
    | with_reducible apply State.modCut_same
    | with_reducible apply State.orFlags_same
    | (with_reducible refine Sub.trans hM ?_; decide)
    | intro _
    | with_reducible split

theorem State.resetSlice_same {M : Nat} {σ₀ σ : State} (hM : Sub 4194816 M) (hk : Same M σ₀ σ) (e item : Nat) :
    Same M σ₀ (State.resetSlice σ e item) := by
  unfold State.resetSlice
  try dsimp only
  repeat' first
    | with_reducible assumption
    | with_reducible apply State.resetTile_same
    | with_reducible apply Same.foldl
    | with_reducible apply Same.foldlFst
    | (with_reducible refine Sub.trans hM ?_; decide)
    | intro _
    | with_reducible split

theorem State.readSlice_same {M : Nat} {σ₀ σ : State} (hM : Sub 4398059685392 M) (hk : Same M σ₀ σ)
    (e n item : Nat) (t : TileRef) (m : MapDesc) (es : List ReadElem) :
    Same M σ₀ (State.readSlice σ e n item t m es) := by
  unfold State.readSlice
  extract_lets c h rs out sm o clamps fl s1 s2
  have hk_s1 : Same M σ₀ s1 := by
    dsimp only [s1]
    repeat' first
      | with_reducible assumption
      | with_reducible apply State.replayStarts_same
      | with_reducible apply State.putOut_same
      | with_reducible apply State.orFlags_same
      | with_reducible apply State.countDropped_same
      | with_reducible apply State.resetSlice_same
      | with_reducible apply State.modCut_same
      | with_reducible apply State.itemDone_same
      | with_reducible apply Same.foldl
      | with_reducible apply Same.foldlFst
      | (with_reducible refine Sub.trans hM ?_; decide)
      | intro _
      | with_reducible split
  clear_value s1
  have hk_s2 : Same M σ₀ s2 := by
    dsimp only [s2]
    repeat' first
      | with_reducible assumption
      | with_reducible apply State.replayStarts_same
      | with_reducible apply State.putOut_same
      | with_reducible apply State.orFlags_same
      | with_reducible apply State.countDropped_same
      | with_reducible apply State.resetSlice_same
      | with_reducible apply State.modCut_same
      | with_reducible apply State.itemDone_same
      | with_reducible apply Same.foldl
      | with_reducible apply Same.foldlFst
      | (with_reducible refine Sub.trans hM ?_; decide)
      | intro _
      | with_reducible split
  clear_value s2
  try dsimp only
  repeat' first
    | with_reducible assumption
    | with_reducible apply State.replayStarts_same
    | with_reducible apply State.putOut_same
    | with_reducible apply State.orFlags_same
    | with_reducible apply State.countDropped_same
    | with_reducible apply State.resetSlice_same
    | with_reducible apply State.modCut_same
    | with_reducible apply State.itemDone_same
    | with_reducible apply Same.foldl
    | with_reducible apply Same.foldlFst
    | (with_reducible refine Sub.trans hM ?_; decide)
    | intro _
    | with_reducible split

theorem State.readout_same {M : Nat} {σ₀ σ : State} (hM : Sub 4398059685392 M) (hk : Same M σ₀ σ) (n b : Nat)
    (es : List ReadElem) :
    Same M σ₀ (State.readout σ n b es) := by
  unfold State.readout
  try dsimp only
  repeat' first
    | with_reducible assumption
    | with_reducible apply State.readSlice_same
    | (with_reducible refine Sub.trans hM ?_; decide)
    | intro _
    | with_reducible split

theorem State.parityError_same {M : Nat} {σ₀ σ : State} (hM : Sub 4810406102256 M) (hk : Same M σ₀ σ)
    (e n fl : Nat) :
    Same M σ₀ (State.parityError σ e n fl) := by
  unfold State.parityError
  extract_lets s1 s2
  have hk_s1 : Same M σ₀ s1 := by
    dsimp only [s1]
    repeat' first
      | with_reducible assumption
      | with_reducible apply State.modCut_same
      | with_reducible apply State.orFlags_same
      | with_reducible apply State.setStatus_same
      | with_reducible apply State.retireFace_same
      | (with_reducible refine Sub.trans hM ?_; decide)
      | intro _
      | with_reducible split
  clear_value s1
  have hk_s2 : Same M σ₀ s2 := by
    dsimp only [s2]
    repeat' first
      | with_reducible assumption
      | with_reducible apply State.modCut_same
      | with_reducible apply State.orFlags_same
      | with_reducible apply State.setStatus_same
      | with_reducible apply State.retireFace_same
      | (with_reducible refine Sub.trans hM ?_; decide)
      | intro _
      | with_reducible split
  clear_value s2
  try dsimp only
  repeat' first
    | with_reducible assumption
    | with_reducible apply State.modCut_same
    | with_reducible apply State.orFlags_same
    | with_reducible apply State.setStatus_same
    | with_reducible apply State.retireFace_same
    | (with_reducible refine Sub.trans hM ?_; decide)
    | intro _
    | with_reducible split

theorem State.tableParity_same {M : Nat} {σ₀ σ : State} (hM : Sub 4810540319984 M) (hk : Same M σ₀ σ) (n : Nat) :
    Same M σ₀ (State.tableParity σ n) := by
  unfold State.tableParity
  extract_lets s2
  have hk_s2 : Same M σ₀ s2 := by
    dsimp only [s2]
    repeat' first
      | with_reducible assumption
      | with_reducible apply State.awaitReplay_same
      | with_reducible apply State.parityError_same
      | (with_reducible refine Sub.trans hM ?_; decide)
      | intro _
      | with_reducible split
      | with_reducible apply Same.set_drvPerr
  clear_value s2
  try dsimp only
  repeat' first
    | with_reducible assumption
    | with_reducible apply State.awaitReplay_same
    | with_reducible apply State.parityError_same
    | (with_reducible refine Sub.trans hM ?_; decide)
    | intro _
    | with_reducible split
    | with_reducible apply Same.set_drvPerr

end Sys2Proof.Machine
end

