-- ==== Sys2Proof/Laws/SameSeamOps.lean ====
section
/-! SUPPORT. Which parts of the state the operations of `Machine/SeamOps.lean` may change (`Same`). -/

namespace Sys2Proof.Machine

set_option linter.all false

theorem State.noteHeld_same {M : Nat} {σ₀ σ : State} (hM : Sub 524288 M) (hk : Same M σ₀ σ) (e : Nat) :
    Same M σ₀ (State.noteHeld σ e) := by
  unfold State.noteHeld
  try dsimp only
  repeat' first
    | with_reducible assumption
    | with_reducible apply State.orFlags_same
    | with_reducible apply State.modCut_same
    | (with_reducible refine Sub.trans hM ?_; decide)
    | intro _
    | with_reducible split

theorem State.evictionStart_same {M : Nat} {σ₀ σ : State} (hM : Sub 9961472 M) (hk : Same M σ₀ σ) (e : Nat) :
    Same M σ₀ (State.evictionStart σ e) := by
  unfold State.evictionStart
  try dsimp only
  repeat' first
    | with_reducible assumption
    | with_reducible apply State.noteHeld_same
    | with_reducible apply State.modHoist_same
    | with_reducible apply State.handOut_same
    | (with_reducible refine Sub.trans hM ?_; decide)
    | intro _
    | with_reducible split
    | with_reducible apply Same.set_seams

theorem State.finishEviction_same {M : Nat} {σ₀ σ : State} (hM : Sub 14156288 M) (hk : Same M σ₀ σ) (e : Nat) :
    Same M σ₀ (State.finishEviction σ e) := by
  unfold State.finishEviction
  try dsimp only
  repeat' first
    | with_reducible assumption
    | with_reducible apply State.resetSeam_same
    | with_reducible apply State.orFlags_same
    | with_reducible apply State.modHoist_same
    | (with_reducible refine Sub.trans hM ?_; decide)
    | intro _
    | with_reducible split
    | with_reducible apply Same.set_seams

end Sys2Proof.Machine
end

