-- ==== Sys2Proof/Laws/SameAttention.lean ====
section
/-! SUPPORT. Which parts of the state the operations of `Machine/Attention.lean` may change (`Same`). -/

namespace Sys2Proof.Machine

set_option linter.all false

theorem State.takeTableInject_same {M : Nat} {σ₀ σ : State} (hM : Sub 8796093022208 M) (hk : Same M σ₀ σ) (n : Nat) :
    Same M σ₀ (State.takeTableInject σ n).1 := by
  unfold State.takeTableInject
  split
  · exact Same.set_monitor (hM.trans (by decide)) hk
  · exact hk

theorem State.writeKeyBlock_same {M : Nat} {σ₀ σ : State} (hM : Sub 896 M) (hk : Same M σ₀ σ)
    (n b tag base qb stage l q : Nat) (codes : List Nat) :
    Same M σ₀ (State.writeKeyBlock σ n b tag base qb stage l q codes) := by
  unfold State.writeKeyBlock
  try dsimp only
  repeat' first
    | with_reducible assumption
    | with_reducible apply State.modBench_same
    | with_reducible apply State.putYard_same
    | (with_reducible refine Sub.trans hM ?_; decide)
    | intro _
    | with_reducible split
    | with_reducible apply Same.set_kilns

theorem State.writeQueryBlock_same {M : Nat} {σ₀ σ : State} (hM : Sub 768 M) (hk : Same M σ₀ σ)
    (n b base qb l q : Nat) (codes : List Nat) :
    Same M σ₀ (State.writeQueryBlock σ n b base qb l q codes) := by
  unfold State.writeQueryBlock
  extract_lets m s1 s2
  have hk_s1 : Same M σ₀ s1 := by
    dsimp only [s1]
    repeat' first
      | with_reducible assumption
      | with_reducible apply State.putYard_same
      | with_reducible apply Same.foldl
      | with_reducible apply Same.foldlFst
      | (with_reducible refine Sub.trans hM ?_; decide)
      | intro _
      | with_reducible split
      | with_reducible apply Same.set_kilns
  clear_value s1
  have hk_s2 : Same M σ₀ s2 := by
    dsimp only [s2]
    repeat' first
      | with_reducible assumption
      | with_reducible apply State.putYard_same
      | with_reducible apply Same.foldl
      | with_reducible apply Same.foldlFst
      | (with_reducible refine Sub.trans hM ?_; decide)
      | intro _
      | with_reducible split
      | with_reducible apply Same.set_kilns
  clear_value s2
  try dsimp only
  repeat' first
    | with_reducible assumption
    | with_reducible apply State.putYard_same
    | with_reducible apply Same.foldl
    | with_reducible apply Same.foldlFst
    | (with_reducible refine Sub.trans hM ?_; decide)
    | intro _
    | with_reducible split
    | with_reducible apply Same.set_kilns

theorem State.kilnReturn_same {M : Nat} {σ₀ σ : State} (hM : Sub 896 M) (hk : Same M σ₀ σ) (n b base : Nat)
    (sh : Shadow) (a : AArea) (l j : Nat) (v : Fp) (high : Bool) :
    Same M σ₀ (State.kilnReturn σ n b base sh a l j v high) := by
  unfold State.kilnReturn
  extract_lets qb q s1 k tag s2
  have hk_s1 : Same M σ₀ s1 := by
    dsimp only [s1]
    repeat' first
      | with_reducible assumption
      | with_reducible apply State.writeKeyBlock_same
      | with_reducible apply State.writeQueryBlock_same
      | (with_reducible refine Sub.trans hM ?_; decide)
      | intro _
      | with_reducible split
      | with_reducible apply Same.set_kilns
  clear_value s1
  have hk_s2 : Same M σ₀ s2 := by
    dsimp only [s2]
    repeat' first
      | with_reducible assumption
      | with_reducible apply State.writeKeyBlock_same
      | with_reducible apply State.writeQueryBlock_same
      | (with_reducible refine Sub.trans hM ?_; decide)
      | intro _
      | with_reducible split
      | with_reducible apply Same.set_kilns
  clear_value s2
  try dsimp only
  repeat' first
    | with_reducible assumption
    | with_reducible apply State.writeKeyBlock_same
    | with_reducible apply State.writeQueryBlock_same
    | (with_reducible refine Sub.trans hM ?_; decide)
    | intro _
    | with_reducible split
    | with_reducible apply Same.set_kilns

theorem State.kilnResult_same {M : Nat} {σ₀ σ : State} (hM : Sub 896 M) (hk : Same M σ₀ σ) (n b l j : Nat)
    (pair : KilnPair) :
    Same M σ₀ (State.kilnResult σ n b l j pair) := by
  unfold State.kilnResult
  try dsimp only
  repeat' first
    | with_reducible assumption
    | with_reducible apply State.kilnReturn_same
    | (with_reducible refine Sub.trans hM ?_; decide)
    | intro _
    | with_reducible split

theorem State.restage_same {M : Nat} {σ₀ σ : State} (hM : Sub 525760 M) (hk : Same M σ₀ σ) (n e : Nat) :
    Same M σ₀ (State.restage σ n e) := by
  unfold State.restage
  try dsimp only
  repeat' first
    | with_reducible assumption
    | with_reducible apply State.awaitReplay_same
    | with_reducible apply State.modBench_same
    | with_reducible apply State.tryStart_same
    | with_reducible apply Same.foldl
    | with_reducible apply Same.foldlFst
    | (with_reducible refine Sub.trans hM ?_; decide)
    | intro _
    | with_reducible split
    | with_reducible apply Same.set_kilns

theorem State.kilnParity_same {M : Nat} {σ₀ σ : State} (hM : Sub 13606566233584 M) (hk : Same M σ₀ σ) (n : Nat) :
    Same M σ₀ (State.kilnParity σ n) := by
  have h1 := State.takeTableInject_same (hM.trans (by decide)) hk n
  unfold State.kilnParity
  revert h1
  generalize σ.takeTableInject n = r
  obtain ⟨a, fl⟩ := r
  intro h1
  have h2 : Same M σ₀ { a with klnPerr := Tab.update 0 a.klnPerr n (fun v => satAdd 16 v 1) } := Same.set_klnPerr (hM.trans (by decide)) h1
  dsimp only at *
  split
  · exact State.parityError_same (hM.trans (by decide)) (State.restage_same (hM.trans (by decide)) h2 _ _) _ _ _
  · exact h2

theorem State.kilnResultAny_same {M : Nat} {σ₀ σ : State} (hM : Sub 13606566234096 M) (hk : Same M σ₀ σ)
    (n b l j : Nat) (pair : KilnPair) :
    Same M σ₀ (State.kilnResultAny σ n b l j pair) := by
  unfold State.kilnResultAny
  extract_lets s1
  have hk_s1 : Same M σ₀ s1 := by
    dsimp only [s1]
    repeat' first
      | with_reducible assumption
      | with_reducible apply State.kilnResult_same
      | with_reducible apply State.kilnParity_same
      | (with_reducible refine Sub.trans hM ?_; decide)
      | intro _
      | with_reducible split
  clear_value s1
  try dsimp only
  repeat' first
    | with_reducible assumption
    | with_reducible apply State.kilnResult_same
    | with_reducible apply State.kilnParity_same
    | (with_reducible refine Sub.trans hM ?_; decide)
    | intro _
    | with_reducible split

theorem State.kilnDrain_same {M : Nat} {σ₀ σ : State} (hM : Sub 525760 M) (hk : Same M σ₀ σ) (n b : Nat) :
    Same M σ₀ (State.kilnDrain σ n b) := by
  unfold State.kilnDrain
  try dsimp only
  repeat' first
    | with_reducible assumption
    | with_reducible apply State.orFlags_same
    | with_reducible apply State.modCut_same
    | with_reducible apply State.freeShadow_same
    | (with_reducible refine Sub.trans hM ?_; decide)
    | intro _
    | with_reducible split
    | with_reducible apply Same.set_kilns

theorem State.sendStream_same {M : Nat} {σ₀ σ : State} (hM : Sub 268435456 M) (hk : Same M σ₀ σ) (p vc e : Nat)
    (bs : List Byte) :
    Same M σ₀ (State.sendStream σ p vc e bs) := by
  unfold State.sendStream
  try dsimp only
  repeat' first
    | with_reducible assumption
    | with_reducible apply State.modPort_same
    | (with_reducible refine Sub.trans hM ?_; decide)
    | intro _
    | with_reducible split

theorem State.takeStream_same {M : Nat} {σ₀ σ : State} (hM : Sub 268435456 M) (hk : Same M σ₀ σ) (p vc : Nat) :
    Same M σ₀ (State.takeStream σ p vc) := by
  unfold State.takeStream
  try dsimp only
  repeat' first
    | with_reducible assumption
    | with_reducible apply State.modPort_same
    | (with_reducible refine Sub.trans hM ?_; decide)
    | intro _
    | with_reducible split

theorem State.dealRound_same {M : Nat} {σ₀ σ : State} (hM : Sub 1074267584 M) (hk : Same M σ₀ σ) (e round : Nat) :
    Same M σ₀ (State.dealRound σ e round) := by
  unfold State.dealRound
  extract_lets a r n s1 s2
  have hk_s1 : Same M σ₀ s1 := by
    dsimp only [s1]
    repeat' first
      | with_reducible assumption
      | with_reducible apply State.modCut_same
      | with_reducible apply State.modBench_same
      | with_reducible apply State.modArun_same
      | with_reducible apply State.tryStart_same
      | with_reducible apply Same.foldl
      | with_reducible apply Same.foldlFst
      | (with_reducible refine Sub.trans hM ?_; decide)
      | intro _
      | with_reducible split
  clear_value s1
  have hk_s2 : Same M σ₀ s2 := by
    dsimp only [s2]
    repeat' first
      | with_reducible assumption
      | with_reducible apply State.modCut_same
      | with_reducible apply State.modBench_same
      | with_reducible apply State.modArun_same
      | with_reducible apply State.tryStart_same
      | with_reducible apply Same.foldl
      | with_reducible apply Same.foldlFst
      | (with_reducible refine Sub.trans hM ?_; decide)
      | intro _
      | with_reducible split
  clear_value s2
  try dsimp only
  repeat' first
    | with_reducible assumption
    | with_reducible apply State.modCut_same
    | with_reducible apply State.modBench_same
    | with_reducible apply State.modArun_same
    | with_reducible apply State.tryStart_same
    | with_reducible apply Same.foldl
    | with_reducible apply Same.foldlFst
    | (with_reducible refine Sub.trans hM ?_; decide)
    | intro _
    | with_reducible split

theorem State.writeOut_same {M : Nat} {σ₀ σ : State} (hM : Sub 8913408 M) (hk : Same M σ₀ σ)
    (e item map hoist : Nat) (es : List (List (Option Int) × Val)) :
    Same M σ₀ (State.writeOut σ e item map hoist es) := by
  unfold State.writeOut
  try dsimp only
  repeat' first
    | with_reducible assumption
    | with_reducible apply State.putOut_same
    | with_reducible apply State.orFlags_same
    | (with_reducible refine Sub.trans hM ?_; decide)
    | intro _
    | with_reducible split

theorem State.writeKeys_same {M : Nat} {σ₀ σ : State} (hM : Sub 8913408 M) (hk : Same M σ₀ σ) (e o round : Nat)
    (val : Nat → Nat → Nat → Val) :
    Same M σ₀ (State.writeKeys σ e o round val) := by
  unfold State.writeKeys
  try dsimp only
  repeat' first
    | with_reducible assumption
    | with_reducible apply State.writeOut_same
    | (with_reducible refine Sub.trans hM ?_; decide)
    | intro _
    | with_reducible split

theorem State.foldPartial_same {M : Nat} {σ₀ σ : State} (hM : Sub 1078460928 M) (hk : Same M σ₀ σ) (e o : Nat)
    (vs : List (List Nat)) :
    Same M σ₀ (State.foldPartial σ e o vs) := by
  unfold State.foldPartial
  extract_lets c n s1
  have hk_s1 : Same M σ₀ s1 := by
    dsimp only [s1]
    repeat' first
      | with_reducible assumption
      | with_reducible apply State.foldTile_same
      | with_reducible apply State.modArun_same
      | with_reducible apply Same.foldl
      | with_reducible apply Same.foldlFst
      | (with_reducible refine Sub.trans hM ?_; decide)
      | intro _
      | with_reducible split
  clear_value s1
  try dsimp only
  repeat' first
    | with_reducible assumption
    | with_reducible apply State.foldTile_same
    | with_reducible apply State.modArun_same
    | with_reducible apply Same.foldl
    | with_reducible apply Same.foldlFst
    | (with_reducible refine Sub.trans hM ?_; decide)
    | intro _
    | with_reducible split

theorem State.outTile_same {M : Nat} {σ₀ σ : State} (hM : Sub 1355284992 M) (hk : Same M σ₀ σ) (e o : Nat) :
    Same M σ₀ (State.outTile σ e o) := by
  unfold State.outTile
  try dsimp only
  repeat' first
    | with_reducible assumption
    | with_reducible apply State.writeKeys_same
    | with_reducible apply State.sendStream_same
    | with_reducible apply State.orFlags_same
    | with_reducible apply State.resetTile_same
    | with_reducible apply State.modArun_same
    | with_reducible apply Same.foldl
    | with_reducible apply Same.foldlFst
    | (with_reducible refine Sub.trans hM ?_; decide)
    | intro _
    | with_reducible split

theorem State.tryTile_same {M : Nat} {σ₀ σ : State} (hM : Sub 1355284992 M) (hk : Same M σ₀ σ) (e o : Nat) :
    Same M σ₀ (State.tryTile σ e o) := by
  unfold State.tryTile
  try dsimp only
  repeat' first
    | with_reducible assumption
    | with_reducible apply State.outTile_same
    | with_reducible apply State.foldPartial_same
    | (with_reducible refine Sub.trans hM ?_; decide)
    | intro _
    | with_reducible split

theorem State.resetRow_same {M : Nat} {σ₀ σ : State} (hM : Sub 4194816 M) (hk : Same M σ₀ σ) (e row : Nat) :
    Same M σ₀ (State.resetRow σ e row) := by
  unfold State.resetRow
  try dsimp only
  repeat' first
    | with_reducible assumption
    | with_reducible apply State.resetTile_same
    | with_reducible apply Same.foldl
    | with_reducible apply Same.foldlFst
    | (with_reducible refine Sub.trans hM ?_; decide)
    | intro _
    | with_reducible split

theorem State.tryRow_same {M : Nat} {σ₀ σ : State} (hM : Sub 1086849536 M) (hk : Same M σ₀ σ) (e row : Nat) :
    Same M σ₀ (State.tryRow σ e row) := by
  unfold State.tryRow
  try dsimp only
  repeat' first
    | with_reducible assumption
    | with_reducible apply State.writeOut_same
    | with_reducible apply State.resetRow_same
    | with_reducible apply State.modArun_same
    | (with_reducible refine Sub.trans hM ?_; decide)
    | intro _
    | with_reducible split

theorem State.tryRound_same {M : Nat} {σ₀ σ : State} (hM : Sub 4398047100944 M) (hk : Same M σ₀ σ)
    (e round : Nat) :
    Same M σ₀ (State.tryRound σ e round) := by
  unfold State.tryRound
  try dsimp only
  repeat' first
    | with_reducible assumption
    | with_reducible apply State.modCut_same
    | with_reducible apply State.itemDone_same
    | (with_reducible refine Sub.trans hM ?_; decide)
    | intro _
    | with_reducible split

theorem State.freeSlots_same {M : Nat} {σ₀ σ : State} (hM : Sub 1073741824 M) (hk : Same M σ₀ σ) (e : Nat) :
    Same M σ₀ (State.freeSlots σ e) := by
  unfold State.freeSlots
  try dsimp only
  repeat' first
    | with_reducible assumption
    | with_reducible apply State.modArun_same
    | (with_reducible refine Sub.trans hM ?_; decide)
    | intro _
    | with_reducible split

theorem State.releasePages_same {M : Nat} {σ₀ σ : State} (hM : Sub 1073741824 M) (hk : Same M σ₀ σ) (e : Nat) :
    Same M σ₀ (State.releasePages σ e) := by
  unfold State.releasePages
  try dsimp only
  repeat' first
    | with_reducible assumption
    | with_reducible apply State.modArun_same
    | (with_reducible refine Sub.trans hM ?_; decide)
    | intro _
    | with_reducible split

theorem State.landBlock_same {M : Nat} {σ₀ σ : State} (hM : Sub 1342703040 M) (hk : Same M σ₀ σ) (e : Nat)
    (x : RingSlot) :
    Same M σ₀ (State.landBlock σ e x) := by
  unfold State.landBlock
  try dsimp only
  repeat' first
    | with_reducible assumption
    | with_reducible apply State.putFabric_same
    | with_reducible apply State.sendStream_same
    | with_reducible apply State.modArun_same
    | with_reducible apply State.dealRound_same
    | (with_reducible refine Sub.trans hM ?_; decide)
    | intro _
    | with_reducible split

theorem State.landWaiting_same {M : Nat} {σ₀ σ : State} (hM : Sub 1342703040 M) (hk : Same M σ₀ σ) (e : Nat) :
    Same M σ₀ (State.landWaiting σ e) := by
  unfold State.landWaiting
  try dsimp only
  repeat' first
    | with_reducible assumption
    | with_reducible apply State.modArun_same
    | with_reducible apply State.landBlock_same
    | (with_reducible refine Sub.trans hM ?_; decide)
    | intro _
    | with_reducible split

theorem State.sweepA_same {M : Nat} {σ₀ σ : State} (hM : Sub 4399401863120 M) (hk : Same M σ₀ σ) (e : Nat) :
    Same M σ₀ (State.sweepA σ e) := by
  unfold State.sweepA
  extract_lets a r s1 s2 s3
  have hk_s1 : Same M σ₀ s1 := by
    dsimp only [s1]
    repeat' first
      | with_reducible assumption
      | with_reducible apply State.tryTile_same
      | with_reducible apply State.tryRow_same
      | with_reducible apply State.tryRound_same
      | with_reducible apply State.releasePages_same
      | with_reducible apply State.freeSlots_same
      | with_reducible apply State.landWaiting_same
      | with_reducible apply Same.foldl
      | with_reducible apply Same.foldlFst
      | (with_reducible refine Sub.trans hM ?_; decide)
      | intro _
      | with_reducible split
  clear_value s1
  have hk_s2 : Same M σ₀ s2 := by
    dsimp only [s2]
    repeat' first
      | with_reducible assumption
      | with_reducible apply State.tryTile_same
      | with_reducible apply State.tryRow_same
      | with_reducible apply State.tryRound_same
      | with_reducible apply State.releasePages_same
      | with_reducible apply State.freeSlots_same
      | with_reducible apply State.landWaiting_same
      | with_reducible apply Same.foldl
      | with_reducible apply Same.foldlFst
      | (with_reducible refine Sub.trans hM ?_; decide)
      | intro _
      | with_reducible split
  clear_value s2
  have hk_s3 : Same M σ₀ s3 := by
    dsimp only [s3]
    repeat' first
      | with_reducible assumption
      | with_reducible apply State.tryTile_same
      | with_reducible apply State.tryRow_same
      | with_reducible apply State.tryRound_same
      | with_reducible apply State.releasePages_same
      | with_reducible apply State.freeSlots_same
      | with_reducible apply State.landWaiting_same
      | with_reducible apply Same.foldl
      | with_reducible apply Same.foldlFst
      | (with_reducible refine Sub.trans hM ?_; decide)
      | intro _
      | with_reducible split
  clear_value s3
  try dsimp only
  repeat' first
    | with_reducible assumption
    | with_reducible apply State.tryTile_same
    | with_reducible apply State.tryRow_same
    | with_reducible apply State.tryRound_same
    | with_reducible apply State.releasePages_same
    | with_reducible apply State.freeSlots_same
    | with_reducible apply State.landWaiting_same
    | with_reducible apply Same.foldl
    | with_reducible apply Same.foldlFst
    | (with_reducible refine Sub.trans hM ?_; decide)
    | intro _
    | with_reducible split

theorem State.countBlock_same {M : Nat} {σ₀ σ : State} (hM : Sub 524288 M) (hk : Same M σ₀ σ) (e : Nat)
    (p : PassId) :
    Same M σ₀ (State.countBlock σ e p) := by
  unfold State.countBlock
  try dsimp only
  repeat' first
    | with_reducible assumption
    | with_reducible apply State.modCut_same
    | (with_reducible refine Sub.trans hM ?_; decide)
    | intro _
    | with_reducible split

theorem State.foldAny_same {M : Nat} {σ₀ σ : State} (hM : Sub 4399401863120 M) (hk : Same M σ₀ σ) (n b : Nat) :
    Same M σ₀ (State.foldAny σ n b) := by
  unfold State.foldAny
  try dsimp only
  repeat' first
    | with_reducible assumption
    | with_reducible apply State.fold_same
    | with_reducible apply State.countBlock_same
    | with_reducible apply State.sweepA_same
    | (with_reducible refine Sub.trans hM ?_; decide)
    | intro _
    | with_reducible split

theorem State.deltaMade_same {M : Nat} {σ₀ σ : State} (hM : Sub 1082656704 M) (hk : Same M σ₀ σ) (e row : Nat)
    (qs : List DeltaQuery) :
    Same M σ₀ (State.deltaMade σ e row qs) := by
  unfold State.deltaMade
  try dsimp only
  repeat' first
    | with_reducible assumption
    | with_reducible apply State.writeOut_same
    | with_reducible apply State.orFlags_same
    | with_reducible apply State.modArun_same
    | with_reducible apply State.tryStart_same
    | with_reducible apply Same.foldl
    | with_reducible apply Same.foldlFst
    | (with_reducible refine Sub.trans hM ?_; decide)
    | intro _
    | with_reducible split

theorem State.addPfStall_same {M : Nat} {σ₀ σ : State} (hM : Sub 524288 M) (hk : Same M σ₀ σ) (e n : Nat) :
    Same M σ₀ (State.addPfStall σ e n) := State.modCut_same hM hk _ _

theorem State.pageCopy_same {M : Nat} {σ₀ σ : State} (hM : Sub 1082656192 M) (hk : Same M σ₀ σ) (e page : Nat)
    (data : List Byte) (waited : Nat) :
    Same M σ₀ (State.pageCopy σ e page data waited) := by
  unfold State.pageCopy
  try dsimp only
  repeat' first
    | with_reducible assumption
    | with_reducible apply State.addPfStall_same
    | with_reducible apply State.handOut_same
    | with_reducible apply State.orFlags_same
    | with_reducible apply State.modArun_same
    | with_reducible apply State.tryStart_same
    | with_reducible apply Same.foldl
    | with_reducible apply Same.foldlFst
    | (with_reducible refine Sub.trans hM ?_; decide)
    | intro _
    | with_reducible split

theorem State.ringBlock_same {M : Nat} {σ₀ σ : State} (hM : Sub 5295476377552 M) (hk : Same M σ₀ σ) (e : Nat)
    (header data : List Byte) :
    Same M σ₀ (State.ringBlock σ e header data) := by
  unfold State.ringBlock
  try dsimp only
  repeat' first
    | with_reducible assumption
    | with_reducible apply State.takeStream_same
    | with_reducible apply State.modArun_same
    | with_reducible apply State.orFlags_same
    | with_reducible apply State.landWaiting_same
    | with_reducible apply State.sweepA_same
    | with_reducible apply State.breakCut_same
    | (with_reducible refine Sub.trans hM ?_; decide)
    | intro _
    | with_reducible split

theorem State.ringPartial_same {M : Nat} {σ₀ σ : State} (hM : Sub 4399401863120 M) (hk : Same M σ₀ σ)
    (e round k : Nat) (vs : List (List Nat)) :
    Same M σ₀ (State.ringPartial σ e round k vs) := by
  unfold State.ringPartial
  try dsimp only
  repeat' first
    | with_reducible assumption
    | with_reducible apply State.takeStream_same
    | with_reducible apply State.writeKeys_same
    | with_reducible apply State.modArun_same
    | with_reducible apply State.sweepA_same
    | (with_reducible refine Sub.trans hM ?_; decide)
    | intro _
    | with_reducible split

end Sys2Proof.Machine
end

