-- ==== Sys2Proof/Laws/SameReset.lean ====
section
/-! SUPPORT. Which parts of the state the operations of `Machine/Reset.lean` may change (`Same`). -/

namespace Sys2Proof.Machine

set_option linter.all false

theorem State.writeCal_same {M : Nat} {σ₀ σ : State} (hM : Sub 64 M) (hk : Same M σ₀ σ) (n : Nat) :
    Same M σ₀ (State.writeCal σ n) := by
  unfold State.writeCal
  try dsimp only
  repeat' first
    | with_reducible assumption
    | with_reducible apply State.modFace_same
    | (with_reducible refine Sub.trans hM ?_; decide)
    | intro _
    | with_reducible split

theorem State.checkReady_same {M : Nat} {σ₀ σ : State} (hM : Sub 16 M) (hk : Same M σ₀ σ) :
    Same M σ₀ (State.checkReady σ) := by
  unfold State.checkReady
  try dsimp only
  repeat' first
    | with_reducible assumption
    | with_reducible apply State.modGlb_same
    | (with_reducible refine Sub.trans hM ?_; decide)
    | intro _
    | with_reducible split

theorem State.setBoot_same {M : Nat} {σ₀ σ : State} (hM : Sub 16 M) (hk : Same M σ₀ σ) (b : Nat) :
    Same M σ₀ (State.setBoot σ b) := by
  unfold State.setBoot
  try dsimp only
  repeat' first
    | with_reducible assumption
    | with_reducible apply State.modGlb_same
    | (with_reducible refine Sub.trans hM ?_; decide)
    | intro _
    | with_reducible split

theorem State.startFirmware_same {M : Nat} {σ₀ σ : State} (hM : Sub 6597069766672 M) (hk : Same M σ₀ σ)
    (b otherOk : Bool) :
    Same M σ₀ (State.startFirmware σ b otherOk) := by
  unfold State.startFirmware
  try dsimp only
  repeat' first
    | with_reducible assumption
    | with_reducible apply State.setBoot_same
    | with_reducible apply State.logEvt_same
    | (with_reducible refine Sub.trans hM ?_; decide)
    | intro _
    | with_reducible split
    | with_reducible apply Same.set_foreman

theorem State.bootRom_same {M : Nat} {σ₀ σ : State} (hM : Sub 6597069766672 M) (hk : Same M σ₀ σ)
    (damagedA damagedB : Bool) :
    Same M σ₀ (State.bootRom σ damagedA damagedB) := by
  unfold State.bootRom
  try dsimp only
  repeat' first
    | with_reducible assumption
    | with_reducible apply State.startFirmware_same
    | with_reducible apply State.logEvt_same
    | with_reducible apply State.setBoot_same
    | (with_reducible refine Sub.trans hM ?_; decide)
    | intro _
    | with_reducible split

theorem State.restoreFace_same {M : Nat} {σ₀ σ : State} (hM : Sub 64 M) (hk : Same M σ₀ σ) (n : Nat) :
    Same M σ₀ (State.restoreFace σ n) := by
  unfold State.restoreFace
  try dsimp only
  repeat' first
    | with_reducible assumption
    | with_reducible apply State.modFace_same
    | with_reducible apply State.writeCal_same
    | (with_reducible refine Sub.trans hM ?_; decide)
    | intro _
    | with_reducible split

theorem State.restoreModule_same {M : Nat} {σ₀ σ : State} (hM : Sub 4398314946560 M) (hk : Same M σ₀ σ)
    (x : Fin 4 × List Byte) :
    Same M σ₀ (State.restoreModule σ x) := by
  unfold State.restoreModule
  try dsimp only
  repeat' first
    | with_reducible assumption
    | with_reducible apply State.modPort_same
    | with_reducible apply State.logEvt_same
    | (with_reducible refine Sub.trans hM ?_; decide)
    | intro _
    | with_reducible split

theorem State.restoreLane_same {M : Nat} {σ₀ σ : State} (hM : Sub 268435456 M) (hk : Same M σ₀ σ) (p : Nat) :
    Same M σ₀ (State.restoreLane σ p) := by
  unfold State.restoreLane
  try dsimp only
  repeat' first
    | with_reducible assumption
    | with_reducible apply State.modPort_same
    | (with_reducible refine Sub.trans hM ?_; decide)
    | intro _
    | with_reducible split

theorem State.bootRestore_same {M : Nat} {σ₀ σ : State} (hM : Sub 4542196351088 M) (hk : Same M σ₀ σ)
    (modules : List (Fin 4 × List Byte)) :
    Same M σ₀ (State.bootRestore σ modules) := by
  unfold State.bootRestore
  try dsimp only
  repeat' first
    | with_reducible assumption
    | with_reducible apply State.restoreFace_same
    | with_reducible apply State.modUnit_same
    | with_reducible apply State.restoreModule_same
    | with_reducible apply State.restoreLane_same
    | with_reducible apply State.wake_same
    | with_reducible apply State.setBoot_same
    | with_reducible apply Same.foldl
    | with_reducible apply Same.foldlFst
    | (with_reducible refine Sub.trans hM ?_; decide)
    | intro _
    | with_reducible split
    | with_reducible apply Same.set_surge_spare

theorem State.bootYard_same {M : Nat} {σ₀ σ : State} (hM : Sub 4535485465136 M) (hk : Same M σ₀ σ)
    (failed : List (Fin 288)) :
    Same M σ₀ (State.bootYard σ failed) := by
  unfold State.bootYard
  try dsimp only
  repeat' first
    | with_reducible assumption
    | with_reducible apply State.remapBank_same
    | with_reducible apply State.setClk_same
    | with_reducible apply State.setBoot_same
    | with_reducible apply Same.foldl
    | with_reducible apply Same.foldlFst
    | (with_reducible refine Sub.trans hM ?_; decide)
    | intro _
    | with_reducible split
    | with_reducible apply Same.set_yard

theorem State.bootStockpile_same {M : Nat} {σ₀ σ : State} (hM : Sub 6597069766672 M) (hk : Same M σ₀ σ)
    (failed : List Nat) :
    Same M σ₀ (State.bootStockpile σ failed) := by
  unfold State.bootStockpile
  try dsimp only
  repeat' first
    | with_reducible assumption
    | with_reducible apply State.logEvt_same
    | with_reducible apply State.modGlb_same
    | with_reducible apply State.setBoot_same
    | with_reducible apply Same.foldl
    | with_reducible apply Same.foldlFst
    | (with_reducible refine Sub.trans hM ?_; decide)
    | intro _
    | with_reducible split
    | with_reducible apply Same.set_foreman

theorem State.bootFace_same {M : Nat} {σ₀ σ : State} (hM : Sub 4810406102256 M) (hk : Same M σ₀ σ)
    (t : FaceTest) :
    Same M σ₀ (State.bootFace σ t) := by
  unfold State.bootFace
  extract_lets s1
  have hk_s1 : Same M σ₀ s1 := by
    dsimp only [s1]
    repeat' first
      | with_reducible assumption
      | with_reducible apply State.absorbTest_same
      | with_reducible apply State.retireFace_same
      | (with_reducible refine Sub.trans hM ?_; decide)
      | intro _
      | with_reducible split
  clear_value s1
  try dsimp only
  repeat' first
    | with_reducible assumption
    | with_reducible apply State.absorbTest_same
    | with_reducible apply State.retireFace_same
    | (with_reducible refine Sub.trans hM ?_; decide)
    | intro _
    | with_reducible split

theorem State.bootFaces_same {M : Nat} {σ₀ σ : State} (hM : Sub 7009429357808 M) (hk : Same M σ₀ σ)
    (results : List FaceTest) :
    Same M σ₀ (State.bootFaces σ results) := by
  unfold State.bootFaces
  try dsimp only
  repeat' first
    | with_reducible assumption
    | with_reducible apply State.bootFace_same
    | with_reducible apply State.setBoot_same
    | with_reducible apply Same.foldl
    | with_reducible apply Same.foldlFst
    | (with_reducible refine Sub.trans hM ?_; decide)
    | intro _
    | with_reducible split
    | with_reducible apply Same.set_foreman

theorem State.absorbUnits_same {M : Nat} {σ₀ σ : State} (hM : Sub 4537666502704 M) (hk : Same M σ₀ σ)
    (r : UnitTest) :
    Same M σ₀ (State.absorbUnits σ r) := by
  unfold State.absorbUnits
  extract_lets s1 s2 s3 s4 s5
  have hk_s1 : Same M σ₀ s1 := by
    dsimp only [s1]
    repeat' first
      | with_reducible assumption
      | with_reducible apply State.retireBuffer_same
      | with_reducible apply State.retireUnit_same
      | with_reducible apply Same.foldl
      | with_reducible apply Same.foldlFst
      | (with_reducible refine Sub.trans hM ?_; decide)
      | intro _
      | with_reducible split
  clear_value s1
  have hk_s2 : Same M σ₀ s2 := by
    dsimp only [s2]
    repeat' first
      | with_reducible assumption
      | with_reducible apply State.retireBuffer_same
      | with_reducible apply State.retireUnit_same
      | with_reducible apply Same.foldl
      | with_reducible apply Same.foldlFst
      | (with_reducible refine Sub.trans hM ?_; decide)
      | intro _
      | with_reducible split
  clear_value s2
  have hk_s3 : Same M σ₀ s3 := by
    dsimp only [s3]
    repeat' first
      | with_reducible assumption
      | with_reducible apply State.retireBuffer_same
      | with_reducible apply State.retireUnit_same
      | with_reducible apply Same.foldl
      | with_reducible apply Same.foldlFst
      | (with_reducible refine Sub.trans hM ?_; decide)
      | intro _
      | with_reducible split
  clear_value s3
  have hk_s4 : Same M σ₀ s4 := by
    dsimp only [s4]
    repeat' first
      | with_reducible assumption
      | with_reducible apply State.retireBuffer_same
      | with_reducible apply State.retireUnit_same
      | with_reducible apply Same.foldl
      | with_reducible apply Same.foldlFst
      | (with_reducible refine Sub.trans hM ?_; decide)
      | intro _
      | with_reducible split
  clear_value s4
  have hk_s5 : Same M σ₀ s5 := by
    dsimp only [s5]
    repeat' first
      | with_reducible assumption
      | with_reducible apply State.retireBuffer_same
      | with_reducible apply State.retireUnit_same
      | with_reducible apply Same.foldl
      | with_reducible apply Same.foldlFst
      | (with_reducible refine Sub.trans hM ?_; decide)
      | intro _
      | with_reducible split
  clear_value s5
  try dsimp only
  repeat' first
    | with_reducible assumption
    | with_reducible apply State.retireBuffer_same
    | with_reducible apply State.retireUnit_same
    | with_reducible apply Same.foldl
    | with_reducible apply Same.foldlFst
    | (with_reducible refine Sub.trans hM ?_; decide)
    | intro _
    | with_reducible split

theorem State.buffersOff_same {M : Nat} {σ₀ σ : State} (hM : Sub 32 M) (hk : Same M σ₀ σ) :
    Same M σ₀ (State.buffersOff σ) := by
  unfold State.buffersOff
  try dsimp only
  repeat' first
    | with_reducible assumption
    | with_reducible apply State.setClk_same
    | with_reducible apply Same.foldl
    | with_reducible apply Same.foldlFst
    | (with_reducible refine Sub.trans hM ?_; decide)
    | intro _
    | with_reducible split

theorem State.bootUnits_same {M : Nat} {σ₀ σ : State} (hM : Sub 4537666502704 M) (hk : Same M σ₀ σ)
    (r : UnitTest) :
    Same M σ₀ (State.bootUnits σ r) := by
  unfold State.bootUnits
  try dsimp only
  repeat' first
    | with_reducible assumption
    | with_reducible apply State.absorbUnits_same
    | with_reducible apply State.buffersOff_same
    | with_reducible apply State.setBoot_same
    | with_reducible apply State.checkReady_same
    | (with_reducible refine Sub.trans hM ?_; decide)
    | intro _
    | with_reducible split

theorem State.restartForeman_same {M : Nat} {σ₀ σ : State} (hM : Sub 51677046505488 M) (hk : Same M σ₀ σ)
    (b trial : Bool) :
    Same M σ₀ (State.restartForeman σ b trial) := by
  unfold State.restartForeman
  try dsimp only
  repeat' first
    | with_reducible assumption
    | with_reducible apply State.modGlb_same
    | with_reducible apply State.logEvt_same
    | (with_reducible refine Sub.trans hM ?_; decide)
    | intro _
    | with_reducible split
    | with_reducible apply Same.set_nv_foreman_monitor_bus

theorem State.surgeCycle_same {M : Nat} {σ₀ σ : State} (hM : Sub 4294967296 M) (hk : Same M σ₀ σ) :
    Same M σ₀ (State.surgeCycle σ) := by
  unfold State.surgeCycle
  try dsimp only
  repeat' first
    | with_reducible assumption
    | (with_reducible refine Sub.trans hM ?_; decide)
    | intro _
    | with_reducible split
    | with_reducible apply Same.set_surge

theorem State.nextBucket_same {M : Nat} {σ₀ σ : State} (hM : Sub 4294967296 M) (hk : Same M σ₀ σ) :
    Same M σ₀ (State.nextBucket σ) := by
  unfold State.nextBucket
  try dsimp only
  repeat' first
    | with_reducible assumption
    | (with_reducible refine Sub.trans hM ?_; decide)
    | intro _
    | with_reducible split
    | with_reducible apply Same.set_surge

theorem State.nightCycle_same {M : Nat} {σ₀ σ : State} (hM : Sub 4294967304 M) (hk : Same M σ₀ σ) :
    Same M σ₀ (State.nightCycle σ) := by
  unfold State.nightCycle
  try dsimp only
  repeat' first
    | with_reducible assumption
    | with_reducible apply State.surgeCycle_same
    | with_reducible apply State.nextBucket_same
    | (with_reducible refine Sub.trans hM ?_; decide)
    | intro _
    | with_reducible split
    | with_reducible apply Same.set_nc

end Sys2Proof.Machine
end

