-- ==== Sys2Proof/Laws/SameDresser.lean ====
section
/-! SUPPORT. Which parts of the state the operations of `Machine/Dresser.lean` may change (`Same`). -/

namespace Sys2Proof.Machine

set_option linter.all false

theorem State.modXrun_same {M : Nat} {σ₀ σ : State} (hM : Sub 536870912 M) (hk : Same M σ₀ σ) (e : Nat)
    (f : XRun → XRun) :
    Same M σ₀ (State.modXrun σ e f) := by
  unfold State.modXrun
  try dsimp only
  repeat' first
    | with_reducible assumption
    | (with_reducible refine Sub.trans hM ?_; decide)
    | intro _
    | with_reducible split
    | with_reducible apply Same.set_xruns

theorem State.unitStrike_same {M : Nat} {σ₀ σ : State} (hM : Sub 4537632948240 M) (hk : Same M σ₀ σ)
    (kind n : Nat) (e : Option Nat) (unrecoverable : Bool) :
    Same M σ₀ (State.unitStrike σ kind n e unrecoverable) := by
  unfold State.unitStrike
  extract_lets u mark second s1
  have hk_s1 : Same M σ₀ s1 := by
    dsimp only [s1]
    repeat' first
      | with_reducible assumption
      | with_reducible apply State.modUnit_same
      | with_reducible apply State.retireUnit_same
      | (with_reducible refine Sub.trans hM ?_; decide)
      | intro _
      | with_reducible split
  clear_value s1
  try dsimp only
  repeat' first
    | with_reducible assumption
    | with_reducible apply State.modUnit_same
    | with_reducible apply State.retireUnit_same
    | (with_reducible refine Sub.trans hM ?_; decide)
    | intro _
    | with_reducible split

theorem State.issue_same {M : Nat} {σ₀ σ : State} (hM : Sub 8388608 M) (hk : Same M σ₀ σ)
    (ws : List (Nat × LineWrite)) :
    Same M σ₀ (State.issue σ ws) := by
  unfold State.issue
  try dsimp only
  repeat' first
    | with_reducible assumption
    | with_reducible apply State.handOut_same
    | with_reducible apply Same.foldl
    | with_reducible apply Same.foldlFst
    | (with_reducible refine Sub.trans hM ?_; decide)
    | intro _
    | with_reducible split

theorem State.holdWrites_same {M : Nat} {σ₀ σ : State} (hM : Sub 549755813888 M) (hk : Same M σ₀ σ)
    (e slab : Nat) (ws : List (Nat × LineWrite)) :
    Same M σ₀ (State.holdWrites σ e slab ws) := by
  unfold State.holdWrites
  try dsimp only
  repeat' first
    | with_reducible assumption
    | (with_reducible refine Sub.trans hM ?_; decide)
    | intro _
    | with_reducible split
    | with_reducible apply Same.set_snap

theorem State.countSlab_same {M : Nat} {σ₀ σ : State} (hM : Sub 524288 M) (hk : Same M σ₀ σ) (e : Nat)
    (guarded : Bool) (frozen : Nat) :
    Same M σ₀ (State.countSlab σ e guarded frozen) := by
  unfold State.countSlab
  extract_lets s1
  have hk_s1 : Same M σ₀ s1 := by
    dsimp only [s1]
    repeat' first
      | with_reducible assumption
      | with_reducible apply State.modCut_same
      | with_reducible apply State.orFlags_same
      | (with_reducible refine Sub.trans hM ?_; decide)
      | intro _
      | with_reducible split
  clear_value s1
  try dsimp only
  repeat' first
    | with_reducible assumption
    | with_reducible apply State.modCut_same
    | with_reducible apply State.orFlags_same
    | (with_reducible refine Sub.trans hM ?_; decide)
    | intro _
    | with_reducible split

theorem State.endSlab_same {M : Nat} {σ₀ σ : State} (hM : Sub 4400194584592 M) (hk : Same M σ₀ σ)
    (e d slab : Nat) :
    Same M σ₀ (State.endSlab σ e d slab) := by
  unfold State.endSlab
  try dsimp only
  repeat' first
    | with_reducible assumption
    | with_reducible apply State.modUnit_same
    | with_reducible apply State.itemDone_same
    | (with_reducible refine Sub.trans hM ?_; decide)
    | intro _
    | with_reducible split

theorem State.slabDone_same {M : Nat} {σ₀ σ : State} (hM : Sub 4949958787088 M) (hk : Same M σ₀ σ)
    (e d slab : Nat) (elems : List DressElem) :
    Same M σ₀ (State.slabDone σ e d slab elems) := by
  unfold State.slabDone
  try dsimp only
  repeat' first
    | with_reducible assumption
    | with_reducible apply State.orFlags_same
    | with_reducible apply State.countSlab_same
    | with_reducible apply State.holdWrites_same
    | with_reducible apply State.modUnit_same
    | with_reducible apply State.issue_same
    | with_reducible apply State.endSlab_same
    | with_reducible apply Same.foldl
    | with_reducible apply Same.foldlFst
    | (with_reducible refine Sub.trans hM ?_; decide)
    | intro _
    | with_reducible split

theorem State.slabFault_same {M : Nat} {σ₀ σ : State} (hM : Sub 4537675678864 M) (hk : Same M σ₀ σ)
    (e d slab : Nat) (dresser : Bool) :
    Same M σ₀ (State.slabFault σ e d slab dresser) := by
  unfold State.slabFault
  try dsimp only
  repeat' first
    | with_reducible assumption
    | with_reducible apply State.orFlags_same
    | with_reducible apply State.setStatus_same
    | with_reducible apply State.unitStrike_same
    | with_reducible apply State.modCut_same
    | with_reducible apply State.halt_same
    | (with_reducible refine Sub.trans hM ?_; decide)
    | intro _
    | with_reducible split

theorem State.issueHeld_same {M : Nat} {σ₀ σ : State} (hM : Sub 4400739844112 M) (hk : Same M σ₀ σ)
    (x : HeldWrite) :
    Same M σ₀ (State.issueHeld σ x) := by
  unfold State.issueHeld
  extract_lets s1
  have hk_s1 : Same M σ₀ s1 := by
    dsimp only [s1]
    repeat' first
      | with_reducible assumption
      | with_reducible apply State.issue_same
      | with_reducible apply State.modCut_same
      | with_reducible apply State.endSlab_same
      | with_reducible apply State.itemDone_same
      | with_reducible apply State.modXrun_same
      | (with_reducible refine Sub.trans hM ?_; decide)
      | intro _
      | with_reducible split
  clear_value s1
  try dsimp only
  repeat' first
    | with_reducible assumption
    | with_reducible apply State.issue_same
    | with_reducible apply State.modCut_same
    | with_reducible apply State.endSlab_same
    | with_reducible apply State.itemDone_same
    | with_reducible apply State.modXrun_same
    | (with_reducible refine Sub.trans hM ?_; decide)
    | intro _
    | with_reducible split

theorem State.issueAllHeld_same {M : Nat} {σ₀ σ : State} (hM : Sub 4950495658000 M) (hk : Same M σ₀ σ) :
    Same M σ₀ (State.issueAllHeld σ) := by
  unfold State.issueAllHeld
  try dsimp only
  repeat' first
    | with_reducible assumption
    | with_reducible apply State.issueHeld_same
    | with_reducible apply Same.foldl
    | with_reducible apply Same.foldlFst
    | (with_reducible refine Sub.trans hM ?_; decide)
    | intro _
    | with_reducible split
    | with_reducible apply Same.set_snap

theorem State.drainWaitEnd_same {M : Nat} {σ₀ σ : State} (hM : Sub 4950495658000 M) (hk : Same M σ₀ σ)
    (e slab : Nat) :
    Same M σ₀ (State.drainWaitEnd σ e slab) := by
  unfold State.drainWaitEnd
  try dsimp only
  repeat' first
    | with_reducible assumption
    | with_reducible apply State.issueHeld_same
    | with_reducible apply Same.foldl
    | with_reducible apply Same.foldlFst
    | (with_reducible refine Sub.trans hM ?_; decide)
    | intro _
    | with_reducible split
    | with_reducible apply Same.set_snap

end Sys2Proof.Machine
end

