-- ==== Sys2Proof/Laws/SameReduce.lean ====
section
/-! SUPPORT. Which parts of the state the operations of `Machine/Reduce.lean` may change (`Same`). -/

namespace Sys2Proof.Machine

set_option linter.all false

theorem State.pushTx_same {M : Nat} {σ₀ σ : State} (hM : Sub 268435456 M) (hk : Same M σ₀ σ) (p vc e : Nat)
    (bs : List Byte) (tail : Bool) :
    Same M σ₀ (State.pushTx σ p vc e bs tail) := by
  unfold State.pushTx
  try dsimp only
  repeat' first
    | with_reducible assumption
    | with_reducible apply State.modPort_same
    | (with_reducible refine Sub.trans hM ?_; decide)
    | intro _
    | with_reducible split

theorem State.countEncode_same {M : Nat} {σ₀ σ : State} (hM : Sub 524288 M) (hk : Same M σ₀ σ) (e : Nat)
    (bs : List (Nat × List Coded)) :
    Same M σ₀ (State.countEncode σ e bs) := by
  unfold State.countEncode
  try dsimp only
  repeat' first
    | with_reducible assumption
    | with_reducible apply State.modCut_same
    | with_reducible apply State.orFlags_same
    | (with_reducible refine Sub.trans hM ?_; decide)
    | intro _
    | with_reducible split

theorem State.finishTail_same {M : Nat} {σ₀ σ : State} (hM : Sub 550301597696 M) (hk : Same M σ₀ σ)
    (e slab : Nat) :
    Same M σ₀ (State.finishTail σ e slab) := by
  unfold State.finishTail
  try dsimp only
  repeat' first
    | with_reducible assumption
    | with_reducible apply State.orFlags_same
    | with_reducible apply State.holdWrites_same
    | with_reducible apply State.modXrun_same
    | with_reducible apply State.issue_same
    | (with_reducible refine Sub.trans hM ?_; decide)
    | intro _
    | with_reducible split

theorem State.sendUp_same {M : Nat} {σ₀ σ : State} (hM : Sub 268435456 M) (hk : Same M σ₀ σ) (e slab : Nat)
    (blocks : List (Nat × List Nat)) :
    Same M σ₀ (State.sendUp σ e slab blocks) := by
  unfold State.sendUp
  try dsimp only
  repeat' first
    | with_reducible assumption
    | with_reducible apply State.pushTx_same
    | (with_reducible refine Sub.trans hM ?_; decide)
    | intro _
    | with_reducible split

theorem State.sendDown_same {M : Nat} {σ₀ σ : State} (hM : Sub 268435456 M) (hk : Same M σ₀ σ) (e slab : Nat)
    (blocks : List (Nat × List Nat)) :
    Same M σ₀ (State.sendDown σ e slab blocks) := by
  unfold State.sendDown
  try dsimp only
  repeat' first
    | with_reducible assumption
    | with_reducible apply State.pushTx_same
    | with_reducible apply Same.foldl
    | with_reducible apply Same.foldlFst
    | (with_reducible refine Sub.trans hM ?_; decide)
    | intro _
    | with_reducible split

theorem State.addDown_same {M : Nat} {σ₀ σ : State} (hM : Sub 536870912 M) (hk : Same M σ₀ σ)
    (e slab scale : Nat) (blocks : List (Nat × List Nat)) :
    Same M σ₀ (State.addDown σ e slab scale blocks) := by
  unfold State.addDown
  try dsimp only
  repeat' first
    | with_reducible assumption
    | with_reducible apply State.modXrun_same
    | (with_reducible refine Sub.trans hM ?_; decide)
    | intro _
    | with_reducible split

theorem State.emit_same {M : Nat} {σ₀ σ : State} (hM : Sub 805830656 M) (hk : Same M σ₀ σ) (e slab ew : Nat)
    (bs : List (Nat × List Coded)) :
    Same M σ₀ (State.emit σ e slab ew bs) := by
  unfold State.emit
  extract_lets codes s1
  have hk_s1 : Same M σ₀ s1 := by
    dsimp only [s1]
    repeat' first
      | with_reducible assumption
      | with_reducible apply State.countEncode_same
      | with_reducible apply State.sendDown_same
      | with_reducible apply State.addDown_same
      | with_reducible apply State.sendUp_same
      | (with_reducible refine Sub.trans hM ?_; decide)
      | intro _
      | with_reducible split
  clear_value s1
  try dsimp only
  repeat' first
    | with_reducible assumption
    | with_reducible apply State.countEncode_same
    | with_reducible apply State.sendDown_same
    | with_reducible apply State.addDown_same
    | with_reducible apply State.sendUp_same
    | (with_reducible refine Sub.trans hM ?_; decide)
    | intro _
    | with_reducible split

theorem State.contribute_same {M : Nat} {σ₀ σ : State} (hM : Sub 537395200 M) (hk : Same M σ₀ σ) (e slab : Nat)
    (child : Option Nat) (blocks : List (Nat × List Nat)) :
    Same M σ₀ (State.contribute σ e slab child blocks) := by
  unfold State.contribute
  try dsimp only
  repeat' first
    | with_reducible assumption
    | with_reducible apply State.modXrun_same
    | with_reducible apply State.orFlags_same
    | (with_reducible refine Sub.trans hM ?_; decide)
    | intro _
    | with_reducible split

theorem State.selectorSlab_same {M : Nat} {σ₀ σ : State} (hM : Sub 552717516800 M) (hk : Same M σ₀ σ)
    (e slab : Nat) (evicted : List Nat) :
    Same M σ₀ (State.selectorSlab σ e slab evicted) := by
  unfold State.selectorSlab
  try dsimp only
  repeat' first
    | with_reducible assumption
    | with_reducible apply State.orFlags_same
    | with_reducible apply State.modXrun_same
    | with_reducible apply State.modUnit_same
    | with_reducible apply State.emit_same
    | with_reducible apply State.finishTail_same
    | with_reducible apply State.contribute_same
    | with_reducible apply Same.foldl
    | with_reducible apply Same.foldlFst
    | (with_reducible refine Sub.trans hM ?_; decide)
    | intro _
    | with_reducible split

theorem State.feedN_same {M : Nat} {σ₀ σ : State} (hM : Sub 805830656 M) (hk : Same M σ₀ σ) (p vc k : Nat) :
    Same M σ₀ (State.feedN σ p vc k) := by
  induction k generalizing σ with
  | zero => exact hk
  | succ k ih =>
    unfold State.feedN
    extract_lets ch
    split
    · exact hk
    · split
      · split
        · split
          · exact (State.modPort_same (hM.trans (by decide))) hk _ _
          · exact hk
        · extract_lets r s1
          have h1 : Same M σ₀ s1 := (State.modPort_same (hM.trans (by decide))) hk _ _
          clear_value s1
          split
          · exact ih ((State.addDown_same (hM.trans (by decide))) h1 _ _ _ _)
          · split
            · exact ih ((State.contribute_same (hM.trans (by decide))) h1 _ _ _ _)
            · exact hk
      · exact hk

theorem State.feed_same {M : Nat} {σ₀ σ : State} (hM : Sub 805830656 M) (hk : Same M σ₀ σ) (p vc : Nat) : Same M σ₀ (State.feed σ p vc) :=
  (State.feedN_same (hM.trans (by decide))) hk _ _ _

theorem State.feedCut_same {M : Nat} {σ₀ σ : State} (hM : Sub 805830656 M) (hk : Same M σ₀ σ) (e : Nat) :
    Same M σ₀ (State.feedCut σ e) := by
  unfold State.feedCut
  try dsimp only
  repeat' first
    | with_reducible assumption
    | with_reducible apply State.feed_same
    | with_reducible apply Same.foldl
    | with_reducible apply Same.foldlFst
    | (with_reducible refine Sub.trans hM ?_; decide)
    | intro _
    | with_reducible split

theorem State.mergeComplete_same {M : Nat} {σ₀ σ : State} (hM : Sub 550570033152 M) (hk : Same M σ₀ σ)
    (e slab : Nat) :
    Same M σ₀ (State.mergeComplete σ e slab) := by
  unfold State.mergeComplete
  try dsimp only
  repeat' first
    | with_reducible assumption
    | with_reducible apply State.emit_same
    | with_reducible apply State.modXrun_same
    | with_reducible apply State.finishTail_same
    | with_reducible apply State.feedCut_same
    | (with_reducible refine Sub.trans hM ?_; decide)
    | intro _
    | with_reducible split

theorem State.writeResult_same {M : Nat} {σ₀ σ : State} (hM : Sub 512 M) (hk : Same M σ₀ σ) (base slabs : Nat)
    (d : DownSlab) :
    Same M σ₀ (State.writeResult σ base slabs d) := by
  unfold State.writeResult
  extract_lets s1
  have hk_s1 : Same M σ₀ s1 := by
    dsimp only [s1]
    repeat' first
      | with_reducible assumption
      | with_reducible apply State.putYard_same
      | with_reducible apply Same.foldl
      | with_reducible apply Same.foldlFst
      | (with_reducible refine Sub.trans hM ?_; decide)
      | intro _
      | with_reducible split
  clear_value s1
  try dsimp only
  repeat' first
    | with_reducible assumption
    | with_reducible apply State.putYard_same
    | with_reducible apply Same.foldl
    | with_reducible apply Same.foldlFst
    | (with_reducible refine Sub.trans hM ?_; decide)
    | intro _
    | with_reducible split

theorem State.writeScale_same {M : Nat} {σ₀ σ : State} (hM : Sub 8388608 M) (hk : Same M σ₀ σ)
    (e slab code : Nat) :
    Same M σ₀ (State.writeScale σ e slab code) := by
  unfold State.writeScale
  try dsimp only
  repeat' first
    | with_reducible assumption
    | with_reducible apply State.issue_same
    | (with_reducible refine Sub.trans hM ?_; decide)
    | intro _
    | with_reducible split

theorem State.resultDeliver_same {M : Nat} {σ₀ σ : State} (hM : Sub 4398860796432 M) (hk : Same M σ₀ σ)
    (e slab : Nat) :
    Same M σ₀ (State.resultDeliver σ e slab) := by
  unfold State.resultDeliver
  try dsimp only
  repeat' first
    | with_reducible assumption
    | with_reducible apply State.writeResult_same
    | with_reducible apply State.writeScale_same
    | with_reducible apply State.modCut_same
    | with_reducible apply State.sendDown_same
    | with_reducible apply State.modXrun_same
    | with_reducible apply State.itemDone_same
    | with_reducible apply State.feedCut_same
    | (with_reducible refine Sub.trans hM ?_; decide)
    | intro _
    | with_reducible split

end Sys2Proof.Machine
end

