-- ==== Sys2Proof/Laws/SameLink.lean ====
section
/-! SUPPORT. Which parts of the state the operations of `Machine/Link.lean` may change (`Same`). -/

namespace Sys2Proof.Machine

set_option linter.all false

theorem State.sendCtl_same {M : Nat} {σ₀ σ : State} (hM : Sub 268435456 M) (hk : Same M σ₀ σ) (p : Nat)
    (msg : List Byte) :
    Same M σ₀ (State.sendCtl σ p msg) := by
  unfold State.sendCtl
  try dsimp only
  repeat' first
    | with_reducible assumption
    | with_reducible apply State.modPort_same
    | (with_reducible refine Sub.trans hM ?_; decide)
    | intro _
    | with_reducible split

theorem State.setPort_same {M : Nat} {σ₀ σ : State} (hM : Sub 4398314946560 M) (hk : Same M σ₀ σ) (p : Nat)
    (st : PortState) :
    Same M σ₀ (State.setPort σ p st) := by
  unfold State.setPort
  try dsimp only
  repeat' first
    | with_reducible assumption
    | with_reducible apply State.modPort_same
    | with_reducible apply State.logEvt_same
    | (with_reducible refine Sub.trans hM ?_; decide)
    | intro _
    | with_reducible split

theorem State.loseCut_same {M : Nat} {σ₀ σ : State} (hM : Sub 5295476377552 M) (hk : Same M σ₀ σ) (e p : Nat)
    (msg : List Byte) :
    Same M σ₀ (State.loseCut σ e p msg) := by
  unfold State.loseCut
  extract_lets ports s1 s2
  have hk_s1 : Same M σ₀ s1 := by
    dsimp only [s1]
    repeat' first
      | with_reducible assumption
      | with_reducible apply State.sendCtl_same
      | with_reducible apply State.modPort_same
      | with_reducible apply State.breakCut_same
      | with_reducible apply Same.foldl
      | with_reducible apply Same.foldlFst
      | (with_reducible refine Sub.trans hM ?_; decide)
      | intro _
      | with_reducible split
  clear_value s1
  have hk_s2 : Same M σ₀ s2 := by
    dsimp only [s2]
    repeat' first
      | with_reducible assumption
      | with_reducible apply State.sendCtl_same
      | with_reducible apply State.modPort_same
      | with_reducible apply State.breakCut_same
      | with_reducible apply Same.foldl
      | with_reducible apply Same.foldlFst
      | (with_reducible refine Sub.trans hM ?_; decide)
      | intro _
      | with_reducible split
  clear_value s2
  try dsimp only
  repeat' first
    | with_reducible assumption
    | with_reducible apply State.sendCtl_same
    | with_reducible apply State.modPort_same
    | with_reducible apply State.breakCut_same
    | with_reducible apply Same.foldl
    | with_reducible apply Same.foldlFst
    | (with_reducible refine Sub.trans hM ?_; decide)
    | intro _
    | with_reducible split

theorem State.resend_same {M : Nat} {σ₀ σ : State} (hM : Sub 524288 M) (hk : Same M σ₀ σ) (p : Nat) :
    Same M σ₀ (State.resend σ p) := by
  unfold State.resend
  try dsimp only
  repeat' first
    | with_reducible assumption
    | with_reducible apply State.modCut_same
    | with_reducible apply Same.foldl
    | with_reducible apply Same.foldlFst
    | (with_reducible refine Sub.trans hM ?_; decide)
    | intro _
    | with_reducible split

theorem State.portLoss_same {M : Nat} {σ₀ σ : State} (hM : Sub 5295476377552 M) (hk : Same M σ₀ σ) (p : Nat) :
    Same M σ₀ (State.portLoss σ p) := by
  unfold State.portLoss
  try dsimp only
  repeat' first
    | with_reducible assumption
    | with_reducible apply State.resend_same
    | with_reducible apply State.loseCut_same
    | with_reducible apply Same.foldl
    | with_reducible apply Same.foldlFst
    | (with_reducible refine Sub.trans hM ?_; decide)
    | intro _
    | with_reducible split

theorem State.headerLoss_same {M : Nat} {σ₀ σ : State} (hM : Sub 5295476377552 M) (hk : Same M σ₀ σ) (p : Nat) :
    Same M σ₀ (State.headerLoss σ p) := by
  unfold State.headerLoss
  try dsimp only
  repeat' first
    | with_reducible assumption
    | with_reducible apply State.loseCut_same
    | with_reducible apply Same.foldl
    | with_reducible apply Same.foldlFst
    | (with_reducible refine Sub.trans hM ?_; decide)
    | intro _
    | with_reducible split

theorem State.portDown_same {M : Nat} {σ₀ σ : State} (hM : Sub 5295476377552 M) (hk : Same M σ₀ σ) (p : Nat) :
    Same M σ₀ (State.portDown σ p) := by
  unfold State.portDown
  try dsimp only
  repeat' first
    | with_reducible assumption
    | with_reducible apply State.portLoss_same
    | with_reducible apply State.setPort_same
    | with_reducible apply State.modPort_same
    | (with_reducible refine Sub.trans hM ?_; decide)
    | intro _
    | with_reducible split

theorem State.retrain_same {M : Nat} {σ₀ σ : State} (hM : Sub 4398314946560 M) (hk : Same M σ₀ σ) (p : Nat) :
    Same M σ₀ (State.retrain σ p) := by
  unfold State.retrain
  try dsimp only
  repeat' first
    | with_reducible assumption
    | with_reducible apply State.modPort_same
    | with_reducible apply State.setPort_same
    | (with_reducible refine Sub.trans hM ?_; decide)
    | intro _
    | with_reducible split

theorem State.countRetry_same {M : Nat} {σ₀ σ : State} (hM : Sub 4467034423312 M) (hk : Same M σ₀ σ) (p : Nat) :
    Same M σ₀ (State.countRetry σ p) := by
  unfold State.countRetry
  extract_lets times s1
  have hk_s1 : Same M σ₀ s1 := by
    dsimp only [s1]
    repeat' first
      | with_reducible assumption
      | with_reducible apply State.modPort_same
      | with_reducible apply State.healthEvent_same
      | with_reducible apply State.retrain_same
      | (with_reducible refine Sub.trans hM ?_; decide)
      | intro _
      | with_reducible split
  clear_value s1
  try dsimp only
  repeat' first
    | with_reducible assumption
    | with_reducible apply State.modPort_same
    | with_reducible apply State.healthEvent_same
    | with_reducible apply State.retrain_same
    | (with_reducible refine Sub.trans hM ?_; decide)
    | intro _
    | with_reducible split

theorem State.retryRepeat_same {M : Nat} {σ₀ σ : State} (hM : Sub 268435456 M) (hk : Same M σ₀ σ) (p : Nat) :
    Same M σ₀ (State.retryRepeat σ p) := by
  unfold State.retryRepeat
  try dsimp only
  repeat' first
    | with_reducible assumption
    | with_reducible apply State.modPort_same
    | (with_reducible refine Sub.trans hM ?_; decide)
    | intro _
    | with_reducible split

theorem State.putFrame_same {M : Nat} {σ₀ σ : State} (hM : Sub 8796361457664 M) (hk : Same M σ₀ σ)
    (p vc type : Nat) (tail : Bool) (seq : Nat) (payload : List Byte) :
    Same M σ₀ (State.putFrame σ p vc type tail seq payload) := by
  unfold State.putFrame
  try dsimp only
  repeat' first
    | with_reducible assumption
    | with_reducible apply State.modPort_same
    | (with_reducible refine Sub.trans hM ?_; decide)
    | intro _
    | with_reducible split
    | with_reducible apply Same.set_monitor

theorem State.sendNew_same {M : Nat} {σ₀ σ : State} (hM : Sub 8796361457664 M) (hk : Same M σ₀ σ)
    (p vc type : Nat) (tail : Bool) (payload : List Byte) :
    Same M σ₀ (State.sendNew σ p vc type tail payload) := by
  unfold State.sendNew
  try dsimp only
  repeat' first
    | with_reducible assumption
    | with_reducible apply State.putFrame_same
    | with_reducible apply State.modPort_same
    | (with_reducible refine Sub.trans hM ?_; decide)
    | intro _
    | with_reducible split

theorem State.sendData_same {M : Nat} {σ₀ σ : State} (hM : Sub 13195494885328 M) (hk : Same M σ₀ σ) (p v : Nat) :
    Same M σ₀ (State.sendData σ p v) := by
  unfold State.sendData
  extract_lets c r owner s1
  have h1 : Same M σ₀ s1 := State.sendNew_same (hM.trans (by decide)) (State.modPort_same (hM.trans (by decide)) hk _ _) _ _ _ _ _
  clear_value s1 owner
  cases owner with
  | none => exact h1
  | some e => exact Same.ite (State.sweepA_same (hM.trans (by decide)) h1 _) h1

theorem State.frameSend_same {M : Nat} {σ₀ σ : State} (hM : Sub 13264214362064 M) (hk : Same M σ₀ σ) (p : Nat) :
    Same M σ₀ (State.frameSend σ p) := by
  unfold State.frameSend
  try dsimp only
  repeat' first
    | with_reducible assumption
    | with_reducible apply State.putFrame_same
    | with_reducible apply State.modPort_same
    | with_reducible apply State.countRetry_same
    | with_reducible apply State.resend_same
    | with_reducible apply State.sendNew_same
    | with_reducible apply State.sendData_same
    | (with_reducible refine Sub.trans hM ?_; decide)
    | intro _
    | with_reducible split

theorem State.checkUp_same {M : Nat} {σ₀ σ : State} (hM : Sub 4398314946560 M) (hk : Same M σ₀ σ) (p : Nat) :
    Same M σ₀ (State.checkUp σ p) := by
  unfold State.checkUp
  try dsimp only
  repeat' first
    | with_reducible assumption
    | with_reducible apply State.setPort_same
    | (with_reducible refine Sub.trans hM ?_; decide)
    | intro _
    | with_reducible split

theorem State.takeAck_same {M : Nat} {σ₀ σ : State} (hM : Sub 4398314946560 M) (hk : Same M σ₀ σ) (p : Nat)
    (f : FrameView) :
    Same M σ₀ (State.takeAck σ p f) := by
  unfold State.takeAck
  try dsimp only
  repeat' first
    | with_reducible assumption
    | with_reducible apply State.modPort_same
    | with_reducible apply State.resend_same
    | with_reducible apply State.checkUp_same
    | (with_reducible refine Sub.trans hM ?_; decide)
    | intro _
    | with_reducible split

theorem State.takeData_same {M : Nat} {σ₀ σ : State} (hM : Sub 805830656 M) (hk : Same M σ₀ σ) (p : Nat)
    (f : FrameView) :
    Same M σ₀ (State.takeData σ p f) := by
  unfold State.takeData
  try dsimp only
  repeat' first
    | with_reducible assumption
    | with_reducible apply State.modPort_same
    | with_reducible apply State.feed_same
    | (with_reducible refine Sub.trans hM ?_; decide)
    | intro _
    | with_reducible split

theorem State.discardFrame_same {M : Nat} {σ₀ σ : State} (hM : Sub 268435456 M) (hk : Same M σ₀ σ) (p : Nat) :
    Same M σ₀ (State.discardFrame σ p) := by
  unfold State.discardFrame
  try dsimp only
  repeat' first
    | with_reducible assumption
    | with_reducible apply State.modPort_same
    | (with_reducible refine Sub.trans hM ?_; decide)
    | intro _
    | with_reducible split

theorem State.frameReceive_same {M : Nat} {σ₀ σ : State} (hM : Sub 4467571818512 M) (hk : Same M σ₀ σ) (p : Nat)
    (bytes : List Byte) :
    Same M σ₀ (State.frameReceive σ p bytes) := by
  unfold State.frameReceive
  try dsimp only
  repeat' first
    | with_reducible assumption
    | with_reducible apply State.discardFrame_same
    | with_reducible apply State.modPort_same
    | with_reducible apply State.takeAck_same
    | with_reducible apply State.takeData_same
    | with_reducible apply State.healthEvent_same
    | with_reducible apply State.resend_same
    | (with_reducible refine Sub.trans hM ?_; decide)
    | intro _
    | with_reducible split

theorem State.retrainDone_same {M : Nat} {σ₀ σ : State} (hM : Sub 5295476377552 M) (hk : Same M σ₀ σ) (p : Nat)
    (ok : Bool) :
    Same M σ₀ (State.retrainDone σ p ok) := by
  unfold State.retrainDone
  try dsimp only
  repeat' first
    | with_reducible assumption
    | with_reducible apply State.modPort_same
    | with_reducible apply State.healthEvent_same
    | with_reducible apply State.resend_same
    | with_reducible apply State.portDown_same
    | (with_reducible refine Sub.trans hM ?_; decide)
    | intro _
    | with_reducible split

theorem State.popCtl_same {M : Nat} {σ₀ σ : State} (hM : Sub 268435456 M) (hk : Same M σ₀ σ) (p kind : Nat) (x : List Byte × State)
    (h : State.popCtl σ p kind = some x) : Same M σ₀ x.2 := by
  unfold State.popCtl at h
  split at h
  · split at h
    · cases h
      exact (State.modPort_same (hM.trans (by decide))) hk _ _
    · cases h
  · cases h

theorem State.hello_same {M : Nat} {σ₀ σ : State} (hM : Sub 4398314946576 M) (hk : Same M σ₀ σ) (p : Nat) : Same M σ₀ (State.hello σ p) := by
  unfold State.hello
  split
  · rename_i m s1 t hp _
    have h1 : Same M σ₀ s1 := (State.popCtl_same (hM.trans (by decide))) hk _ _ _ hp
    clear hp
    extract_lets id s2 s3
    have h2 : Same M σ₀ s2 := (State.modPort_same (hM.trans (by decide))) h1 _ _
    clear_value s2
    split
    · have h3 : Same M σ₀ s3 := (State.modPort_same (hM.trans (by decide))) h2 _ _
      clear_value s3
      apply (State.checkUp_same (hM.trans (by decide)))
      split
      · exact (State.setPort_same (hM.trans (by decide))) h3 _ _
      · exact h3
    · exact (State.logEvt_same (hM.trans (by decide))) ((State.setPort_same (hM.trans (by decide))) ((State.setEvt_same (hM.trans (by decide))) ((State.modPort_same (hM.trans (by decide))) h2 _ _) _) _ _) _ _ _
  · exact hk

theorem State.closePort_same {M : Nat} {σ₀ σ : State} (hM : Sub 5295476377552 M) (hk : Same M σ₀ σ) (p : Nat) : Same M σ₀ (State.closePort σ p) := by
  unfold State.closePort
  split
  · rename_i hp
    exact (State.portDown_same (hM.trans (by decide))) ((State.popCtl_same (hM.trans (by decide))) hk _ _ _ hp) _
  · exact hk

theorem State.brokenPort_same {M : Nat} {σ₀ σ : State} (hM : Sub 5295476377552 M) (hk : Same M σ₀ σ) (p : Nat) : Same M σ₀ (State.brokenPort σ p) := by
  unfold State.brokenPort
  split
  · rename_i hp
    exact Same.foldl ((State.popCtl_same (hM.trans (by decide))) hk _ _ _ hp) _ _ (fun b x hb => (State.loseCut_same (hM.trans (by decide))) hb _ _ _)
  · exact hk

theorem State.streamHead_same {M : Nat} {σ₀ σ : State} (hM : Sub 5295476377552 M) (hk : Same M σ₀ σ)
    (p vc : Nat) :
    Same M σ₀ (State.streamHead σ p vc) := by
  unfold State.streamHead
  try dsimp only
  repeat' first
    | with_reducible assumption
    | with_reducible apply State.modXrun_same
    | with_reducible apply State.modPort_same
    | with_reducible apply State.feed_same
    | with_reducible apply State.headerLoss_same
    | (with_reducible refine Sub.trans hM ?_; decide)
    | intro _
    | with_reducible split

end Sys2Proof.Machine
end

