-- ==== Sys2Proof/Laws/SameModules.lean ====
section
/-! SUPPORT. Which parts of the state the operations of `Machine/Modules.lean` may change (`Same`). -/

namespace Sys2Proof.Machine

set_option linter.all false

theorem State.logModule_same {M : Nat} {σ₀ σ : State} (hM : Sub 4398046511104 M) (hk : Same M σ₀ σ)
    (p event arg : Nat) :
    Same M σ₀ (State.logModule σ p event arg) := by
  unfold State.logModule
  try dsimp only
  repeat' first
    | with_reducible assumption
    | with_reducible apply State.logEvt_same
    | (with_reducible refine Sub.trans hM ?_; decide)
    | intro _
    | with_reducible split

theorem State.movePlan_same {M : Nat} {σ₀ σ : State} (hM : Sub 146032964732880 M) (hk : Same M σ₀ σ)
    (k eff : Nat) (pl : Plan) (p : Nat) :
    Same M σ₀ (State.movePlan σ k eff pl p) := by
  unfold State.movePlan
  extract_lets s1
  have hk_s1 : Same M σ₀ s1 := by
    dsimp only [s1]
    repeat' first
      | with_reducible assumption
      | with_reducible apply State.logModule_same
      | with_reducible apply State.loseCut_same
      | with_reducible apply Same.foldl
      | with_reducible apply Same.foldlFst
      | (with_reducible refine Sub.trans hM ?_; decide)
      | intro _
      | with_reducible split
      | with_reducible apply Same.set_moves
  clear_value s1
  try dsimp only
  repeat' first
    | with_reducible assumption
    | with_reducible apply State.logModule_same
    | with_reducible apply State.loseCut_same
    | with_reducible apply Same.foldl
    | with_reducible apply Same.foldlFst
    | (with_reducible refine Sub.trans hM ?_; decide)
    | intro _
    | with_reducible split
    | with_reducible apply Same.set_moves

theorem State.movePlans_same {M : Nat} {σ₀ σ : State} (hM : Sub 146032964732880 M) (hk : Same M σ₀ σ) (p : Nat) :
    Same M σ₀ (State.movePlans σ p) := by
  unfold State.movePlans
  try dsimp only
  repeat' first
    | with_reducible assumption
    | with_reducible apply State.logModule_same
    | with_reducible apply State.sendCtl_same
    | with_reducible apply State.movePlan_same
    | with_reducible apply Same.foldl
    | with_reducible apply Same.foldlFst
    | (with_reducible refine Sub.trans hM ?_; decide)
    | intro _
    | with_reducible split

theorem State.move_same {M : Nat} {σ₀ σ : State} (hM : Sub 146032964732880 M) (hk : Same M σ₀ σ) (p : Nat) : Same M σ₀ (State.move σ p) := by
  unfold State.move
  split
  · rename_i hp _
    have h1 := (State.popCtl_same (hM.trans (by decide))) hk _ _ _ hp
    dsimp only at h1 ⊢
    apply Same.foldl h1
    intro b x hb
    split
    · apply (State.movePlan_same (hM.trans (by decide)))
      exact Same.foldl hb _ _ (fun c y hc => (State.sendCtl_same (hM.trans (by decide))) hc _ _)
    · exact hb
  · rename_i hp _
    exact (State.popCtl_same (hM.trans (by decide))) hk _ _ _ hp
  · exact hk

theorem State.checkDrains_same {M : Nat} {σ₀ σ : State} (hM : Sub 4398314946576 M) (hk : Same M σ₀ σ) :
    Same M σ₀ (State.checkDrains σ) := by
  unfold State.checkDrains
  try dsimp only
  repeat' first
    | with_reducible assumption
    | with_reducible apply State.modPort_same
    | with_reducible apply State.setEvt_same
    | with_reducible apply State.logModule_same
    | with_reducible apply Same.foldl
    | with_reducible apply Same.foldlFst
    | (with_reducible refine Sub.trans hM ?_; decide)
    | intro _
    | with_reducible split

theorem State.modModule_same {M : Nat} {σ₀ σ : State} (hM : Sub 268435456 M) (hk : Same M σ₀ σ) (p : Nat)
    (f : Module → Module) :
    Same M σ₀ (State.modModule σ p f) := by
  unfold State.modModule
  try dsimp only
  repeat' first
    | with_reducible assumption
    | with_reducible apply State.modPort_same
    | (with_reducible refine Sub.trans hM ?_; decide)
    | intro _
    | with_reducible split

theorem State.flagModule_same {M : Nat} {σ₀ σ : State} (hM : Sub 146032964732880 M) (hk : Same M σ₀ σ) (p : Nat) :
    Same M σ₀ (State.flagModule σ p) := by
  unfold State.flagModule
  try dsimp only
  repeat' first
    | with_reducible assumption
    | with_reducible apply State.modModule_same
    | with_reducible apply State.setEvt_same
    | with_reducible apply State.logModule_same
    | with_reducible apply State.movePlans_same
    | with_reducible apply State.checkDrains_same
    | (with_reducible refine Sub.trans hM ?_; decide)
    | intro _
    | with_reducible split

theorem State.retireLane_same {M : Nat} {σ₀ σ : State} (hM : Sub 146170403686352 M) (hk : Same M σ₀ σ)
    (p lane : Nat) :
    Same M σ₀ (State.retireLane σ p lane) := by
  unfold State.retireLane
  try dsimp only
  repeat' first
    | with_reducible assumption
    | with_reducible apply State.modModule_same
    | with_reducible apply State.modSpare_same
    | with_reducible apply State.logRemap_same
    | with_reducible apply State.retrain_same
    | with_reducible apply State.flagModule_same
    | (with_reducible refine Sub.trans hM ?_; decide)
    | intro _
    | with_reducible split

theorem State.modulePoll_same {M : Nat} {σ₀ σ : State} (hM : Sub 146170403686352 M) (hk : Same M σ₀ σ) (p : Nat)
    (fault warning : Bool) (lanes : List LaneReading) :
    Same M σ₀ (State.modulePoll σ p fault warning lanes) := by
  unfold State.modulePoll
  try dsimp only
  repeat' first
    | with_reducible assumption
    | with_reducible apply State.modModule_same
    | with_reducible apply State.portDown_same
    | with_reducible apply State.retireLane_same
    | with_reducible apply State.flagModule_same
    | with_reducible apply Same.foldl
    | with_reducible apply Same.foldlFst
    | (with_reducible refine Sub.trans hM ?_; decide)
    | intro _
    | with_reducible split

theorem State.laneReport_same {M : Nat} {σ₀ σ : State} (hM : Sub 146170403686352 M) (hk : Same M σ₀ σ) (p : Nat)
    (r : LaneReport) :
    Same M σ₀ (State.laneReport σ p r) := by
  unfold State.laneReport
  try dsimp only
  repeat' first
    | with_reducible assumption
    | with_reducible apply State.retrain_same
    | with_reducible apply State.retireLane_same
    | (with_reducible refine Sub.trans hM ?_; decide)
    | intro _
    | with_reducible split

theorem State.moduleInsert_same {M : Nat} {σ₀ σ : State} (hM : Sub 4398314946560 M) (hk : Same M σ₀ σ) (p : Nat)
    (identity : List Byte) (suitable : Bool) :
    Same M σ₀ (State.moduleInsert σ p identity suitable) := by
  unfold State.moduleInsert
  extract_lets enabled s1
  have hk_s1 : Same M σ₀ s1 := by
    dsimp only [s1]
    repeat' first
      | with_reducible assumption
      | with_reducible apply State.modModule_same
      | with_reducible apply State.logModule_same
      | (with_reducible refine Sub.trans hM ?_; decide)
      | intro _
      | with_reducible split
  clear_value s1
  try dsimp only
  repeat' first
    | with_reducible assumption
    | with_reducible apply State.modModule_same
    | with_reducible apply State.logModule_same
    | (with_reducible refine Sub.trans hM ?_; decide)
    | intro _
    | with_reducible split

theorem State.moduleReady_same {M : Nat} {σ₀ σ : State} (hM : Sub 4535753900032 M) (hk : Same M σ₀ σ) (p : Nat)
    (bias : List Nat) :
    Same M σ₀ (State.moduleReady σ p bias) := by
  unfold State.moduleReady
  try dsimp only
  repeat' first
    | with_reducible assumption
    | with_reducible apply State.modModule_same
    | with_reducible apply State.modSpare_same
    | with_reducible apply State.modPort_same
    | with_reducible apply State.retrain_same
    | (with_reducible refine Sub.trans hM ?_; decide)
    | intro _
    | with_reducible split

theorem State.moduleTimeout_same {M : Nat} {σ₀ σ : State} (hM : Sub 4398314946560 M) (hk : Same M σ₀ σ)
    (p : Nat) :
    Same M σ₀ (State.moduleTimeout σ p) := by
  unfold State.moduleTimeout
  try dsimp only
  repeat' first
    | with_reducible assumption
    | with_reducible apply State.modModule_same
    | with_reducible apply State.logModule_same
    | (with_reducible refine Sub.trans hM ?_; decide)
    | intro _
    | with_reducible split

theorem State.moduleRemove_same {M : Nat} {σ₀ σ : State} (hM : Sub 5295476377552 M) (hk : Same M σ₀ σ) (p : Nat) :
    Same M σ₀ (State.moduleRemove σ p) := by
  unfold State.moduleRemove
  try dsimp only
  repeat' first
    | with_reducible assumption
    | with_reducible apply State.modModule_same
    | with_reducible apply State.logModule_same
    | with_reducible apply State.portDown_same
    | (with_reducible refine Sub.trans hM ?_; decide)
    | intro _
    | with_reducible split

end Sys2Proof.Machine
end

