-- ==== Sys2Proof/Laws/SamePower.lean ====
section
/-! SUPPORT. Which parts of the state the operations of `Machine/Power.lean` may change (`Same`). -/

namespace Sys2Proof.Machine

set_option linter.all false

theorem State.napExpire_same {M : Nat} {σ₀ σ : State} (hM : Sub 158608847272928 M) (hk : Same M σ₀ σ) (k : Nat) :
    Same M σ₀ (State.napExpire σ k) := by
  unfold State.napExpire
  try dsimp only
  repeat' first
    | with_reducible assumption
    | with_reducible apply State.tileOff_same
    | with_reducible apply State.setClk_same
    | (with_reducible refine Sub.trans hM ?_; decide)
    | intro _
    | with_reducible split

theorem State.offExpire_same {M : Nat} {σ₀ σ : State} (hM : Sub 158608847272928 M) (hk : Same M σ₀ σ) (k : Nat) :
    Same M σ₀ (State.offExpire σ k) := by
  unfold State.offExpire
  try dsimp only
  repeat' first
    | with_reducible assumption
    | with_reducible apply State.tileOff_same
    | (with_reducible refine Sub.trans hM ?_; decide)
    | intro _
    | with_reducible split

theorem State.giveModes_same {M : Nat} {σ₀ σ : State} (hM : Sub 64 M) (hk : Same M σ₀ σ) (n w : Nat) :
    Same M σ₀ (State.giveModes σ n w) := by
  unfold State.giveModes
  try dsimp only
  repeat' first
    | with_reducible assumption
    | with_reducible apply State.modFace_same
    | (with_reducible refine Sub.trans hM ?_; decide)
    | intro _
    | with_reducible split

theorem State.faceWoken_same {M : Nat} {σ₀ σ : State} (hM : Sub 64 M) (hk : Same M σ₀ σ) (n : Nat) :
    Same M σ₀ (State.faceWoken σ n) := by
  unfold State.faceWoken
  extract_lets s1
  have hk_s1 : Same M σ₀ s1 := by
    dsimp only [s1]
    repeat' first
      | with_reducible assumption
      | with_reducible apply State.modFace_same
      | with_reducible apply State.giveModes_same
      | (with_reducible refine Sub.trans hM ?_; decide)
      | intro _
      | with_reducible split
  clear_value s1
  try dsimp only
  repeat' first
    | with_reducible assumption
    | with_reducible apply State.modFace_same
    | with_reducible apply State.giveModes_same
    | (with_reducible refine Sub.trans hM ?_; decide)
    | intro _
    | with_reducible split

theorem State.landTallies_same {M : Nat} {σ₀ σ : State} (hM : Sub 285873023287312 M) (hk : Same M σ₀ σ) :
    Same M σ₀ (State.landTallies σ) := by
  unfold State.landTallies
  try dsimp only
  repeat' first
    | with_reducible assumption
    | with_reducible apply State.tallyAdd_same
    | with_reducible apply Same.foldl
    | with_reducible apply Same.foldlFst
    | (with_reducible refine Sub.trans hM ?_; decide)
    | intro _
    | with_reducible split
    | with_reducible apply Same.set_tallyWait

theorem State.endStalls_same {M : Nat} {σ₀ σ : State} (hM : Sub 70368752566272 M) (hk : Same M σ₀ σ) (k : Nat) :
    Same M σ₀ (State.endStalls σ k) := by
  unfold State.endStalls
  try dsimp only
  repeat' first
    | with_reducible assumption
    | (with_reducible refine Sub.trans hM ?_; decide)
    | intro _
    | with_reducible split
    | with_reducible apply Same.set_hoists_stalls

theorem State.wakeDone_same {M : Nat} {σ₀ σ : State} (hM : Sub 356241775853680 M) (hk : Same M σ₀ σ) (k : Nat) :
    Same M σ₀ (State.wakeDone σ k) := by
  unfold State.wakeDone
  try dsimp only
  repeat' first
    | with_reducible assumption
    | with_reducible apply State.setClk_same
    | with_reducible apply State.endStalls_same
    | with_reducible apply State.landTallies_same
    | with_reducible apply State.faceWoken_same
    | (with_reducible refine Sub.trans hM ?_; decide)
    | intro _
    | with_reducible split

theorem State.yardCleared_same {M : Nat} {σ₀ σ : State} (hM : Sub 528 M) (hk : Same M σ₀ σ) :
    Same M σ₀ (State.yardCleared σ) := by
  unfold State.yardCleared
  try dsimp only
  repeat' first
    | with_reducible assumption
    | with_reducible apply State.checkReady_same
    | (with_reducible refine Sub.trans hM ?_; decide)
    | intro _
    | with_reducible split
    | with_reducible apply Same.set_yard

theorem State.badWrite_same {M : Nat} {σ₀ σ : State} (hM : Sub 4398046511104 M) (hk : Same M σ₀ σ) (off v : Nat) :
    Same M σ₀ (State.badWrite σ off v) := by
  unfold State.badWrite
  try dsimp only
  repeat' first
    | with_reducible assumption
    | with_reducible apply State.logEvt_same
    | (with_reducible refine Sub.trans hM ?_; decide)
    | intro _
    | with_reducible split

theorem State.storeLedger_same {M : Nat} {σ₀ σ : State} (hM : Sub 1103806595072 M) (hk : Same M σ₀ σ) :
    Same M σ₀ (State.storeLedger σ) := by
  unfold State.storeLedger
  try dsimp only
  repeat' first
    | with_reducible assumption
    | (with_reducible refine Sub.trans hM ?_; decide)
    | intro _
    | with_reducible split
    | with_reducible apply Same.set_surge_nv

theorem State.sleepWrite_same {M : Nat} {σ₀ σ : State} (hM : Sub 4398046511120 M) (hk : Same M σ₀ σ)
    (level : Nat) :
    Same M σ₀ (State.sleepWrite σ level) := by
  unfold State.sleepWrite
  try dsimp only
  repeat' first
    | with_reducible assumption
    | with_reducible apply State.badWrite_same
    | with_reducible apply State.modGlb_same
    | (with_reducible refine Sub.trans hM ?_; decide)
    | intro _
    | with_reducible split

theorem State.closeDown_same {M : Nat} {σ₀ σ : State} (hM : Sub 13194407968768 M) (hk : Same M σ₀ σ)
    (st : PortState → Bool) (p : Nat) :
    Same M σ₀ (State.closeDown σ st p) := by
  unfold State.closeDown
  extract_lets q s1
  have hk_s1 : Same M σ₀ s1 := by
    dsimp only [s1]
    repeat' first
      | with_reducible assumption
      | with_reducible apply State.sendNew_same
      | with_reducible apply State.setPort_same
      | with_reducible apply State.modPort_same
      | (with_reducible refine Sub.trans hM ?_; decide)
      | intro _
      | with_reducible split
  clear_value s1
  try dsimp only
  repeat' first
    | with_reducible assumption
    | with_reducible apply State.sendNew_same
    | with_reducible apply State.setPort_same
    | with_reducible apply State.modPort_same
    | (with_reducible refine Sub.trans hM ?_; decide)
    | intro _
    | with_reducible split

theorem State.sleepTile_same {M : Nat} {σ₀ σ : State} (hM : Sub 158608847272928 M) (hk : Same M σ₀ σ)
    (level k : Nat) :
    Same M σ₀ (State.sleepTile σ level k) := by
  unfold State.sleepTile
  try dsimp only
  repeat' first
    | with_reducible assumption
    | with_reducible apply State.tileOff_same
    | with_reducible apply State.setClk_same
    | (with_reducible refine Sub.trans hM ?_; decide)
    | intro _
    | with_reducible split

theorem State.sleepEnter_same {M : Nat} {σ₀ σ : State} (hM : Sub 172906793401328 M) (hk : Same M σ₀ σ) :
    Same M σ₀ (State.sleepEnter σ) := by
  unfold State.sleepEnter
  try dsimp only
  repeat' first
    | with_reducible assumption
    | with_reducible apply State.closeDown_same
    | with_reducible apply State.sleepTile_same
    | with_reducible apply State.storeLedger_same
    | with_reducible apply State.modGlb_same
    | with_reducible apply Same.foldl
    | with_reducible apply Same.foldlFst
    | (with_reducible refine Sub.trans hM ?_; decide)
    | intro _
    | with_reducible split

theorem State.sleepStalled_same {M : Nat} {σ₀ σ : State} (hM : Sub 74766799077392 M) (hk : Same M σ₀ σ)
    (source : Nat) (t : Tile) :
    Same M σ₀ (State.sleepStalled σ source t) := by
  unfold State.sleepStalled
  try dsimp only
  repeat' first
    | with_reducible assumption
    | with_reducible apply State.setEvt_same
    | with_reducible apply State.logRec_same
    | (with_reducible refine Sub.trans hM ?_; decide)
    | intro _
    | with_reducible split
    | with_reducible apply Same.set_hoists_stalls

theorem State.freqStep_same {M : Nat} {σ₀ σ : State} (hM : Sub 64 M) (hk : Same M σ₀ σ) (n : Nat) :
    Same M σ₀ (State.freqStep σ n) := by
  unfold State.freqStep
  try dsimp only
  repeat' first
    | with_reducible assumption
    | with_reducible apply State.modFace_same
    | (with_reducible refine Sub.trans hM ?_; decide)
    | intro _
    | with_reducible split

theorem State.droop_same {M : Nat} {σ₀ σ : State} (hM : Sub 4471060955216 M) (hk : Same M σ₀ σ)
    (faces : List Nat) :
    Same M σ₀ (State.droop σ faces) := by
  unfold State.droop
  try dsimp only
  repeat' first
    | with_reducible assumption
    | with_reducible apply State.modFace_same
    | with_reducible apply State.healthEvent_same
    | with_reducible apply Same.foldl
    | with_reducible apply Same.foldlFst
    | (with_reducible refine Sub.trans hM ?_; decide)
    | intro _
    | with_reducible split
    | with_reducible apply Same.set_surge

theorem State.pwrFaceWrite_same {M : Nat} {σ₀ σ : State} (hM : Sub 4398046511168 M) (hk : Same M σ₀ σ)
    (n v : Nat) :
    Same M σ₀ (State.pwrFaceWrite σ n v) := by
  unfold State.pwrFaceWrite
  try dsimp only
  repeat' first
    | with_reducible assumption
    | with_reducible apply State.badWrite_same
    | with_reducible apply State.modFace_same
    | (with_reducible refine Sub.trans hM ?_; decide)
    | intro _
    | with_reducible split

theorem State.surgeDown_same {M : Nat} {σ₀ σ : State} (hM : Sub 4294967296 M) (hk : Same M σ₀ σ) :
    Same M σ₀ (State.surgeDown σ) := by
  unfold State.surgeDown
  try dsimp only
  repeat' first
    | with_reducible assumption
    | (with_reducible refine Sub.trans hM ?_; decide)
    | intro _
    | with_reducible split
    | with_reducible apply Same.set_surge

theorem State.surgeUp_same {M : Nat} {σ₀ σ : State} (hM : Sub 4294967296 M) (hk : Same M σ₀ σ) :
    Same M σ₀ (State.surgeUp σ) := by
  unfold State.surgeUp
  try dsimp only
  repeat' first
    | with_reducible assumption
    | (with_reducible refine Sub.trans hM ?_; decide)
    | intro _
    | with_reducible split
    | with_reducible apply Same.set_surge

theorem State.surgeWithdraw_same {M : Nat} {σ₀ σ : State} (hM : Sub 4402341478416 M) (hk : Same M σ₀ σ) :
    Same M σ₀ (State.surgeWithdraw σ) := by
  unfold State.surgeWithdraw
  try dsimp only
  repeat' first
    | with_reducible assumption
    | with_reducible apply State.setEvt_same
    | with_reducible apply State.logEvt_same
    | (with_reducible refine Sub.trans hM ?_; decide)
    | intro _
    | with_reducible split
    | with_reducible apply Same.set_surge

theorem State.derate_same {M : Nat} {σ₀ σ : State} (hM : Sub 5909917730032 M) (hk : Same M σ₀ σ) (n : Nat) :
    Same M σ₀ (State.derate σ n) := by
  unfold State.derate
  try dsimp only
  repeat' first
    | with_reducible assumption
    | with_reducible apply State.writeCal_same
    | with_reducible apply State.setEvt_same
    | with_reducible apply State.logEvt_same
    | with_reducible apply State.retireFace_same
    | (with_reducible refine Sub.trans hM ?_; decide)
    | intro _
    | with_reducible split
    | with_reducible apply Same.set_nv

theorem State.trip_same {M : Nat} {σ₀ σ : State} (hM : Sub 4398046511120 M) (hk : Same M σ₀ σ) (sensor : Nat)
    (t : Int) :
    Same M σ₀ (State.trip σ sensor t) := by
  unfold State.trip
  try dsimp only
  repeat' first
    | with_reducible assumption
    | with_reducible apply State.modGlb_same
    | with_reducible apply State.setEvt_same
    | with_reducible apply State.logEvt_same
    | (with_reducible refine Sub.trans hM ?_; decide)
    | intro _
    | with_reducible split

theorem State.sluiceHeat_same {M : Nat} {σ₀ σ : State} (hM : Sub 268435456 M) (hk : Same M σ₀ σ) (p : Nat)
    (t : Int) :
    Same M σ₀ (State.sluiceHeat σ p t) := by
  unfold State.sluiceHeat
  try dsimp only
  repeat' first
    | with_reducible assumption
    | with_reducible apply State.modPort_same
    | (with_reducible refine Sub.trans hM ?_; decide)
    | intro _
    | with_reducible split

theorem State.tempRead_same {M : Nat} {σ₀ σ : State} (hM : Sub 4449854554192 M) (hk : Same M σ₀ σ)
    (ts : List Int) :
    Same M σ₀ (State.tempRead σ ts) := by
  unfold State.tempRead
  extract_lets at' yards yard yardCool s0 s1 s2 s3
  have hk_s0 : Same M σ₀ s0 := by
    dsimp only [s0]
    repeat' first
      | with_reducible assumption
      | with_reducible apply State.modFace_same
      | with_reducible apply State.sluiceHeat_same
      | with_reducible apply State.setEvt_same
      | with_reducible apply State.logEvt_same
      | with_reducible apply State.trip_same
      | with_reducible apply Same.foldl
      | with_reducible apply Same.foldlFst
      | (with_reducible refine Sub.trans hM ?_; decide)
      | intro _
      | with_reducible split
      | with_reducible apply Same.set_temps_hot
  clear_value s0
  have hk_s1 : Same M σ₀ s1 := by
    dsimp only [s1]
    repeat' first
      | with_reducible assumption
      | with_reducible apply State.modFace_same
      | with_reducible apply State.sluiceHeat_same
      | with_reducible apply State.setEvt_same
      | with_reducible apply State.logEvt_same
      | with_reducible apply State.trip_same
      | with_reducible apply Same.foldl
      | with_reducible apply Same.foldlFst
      | (with_reducible refine Sub.trans hM ?_; decide)
      | intro _
      | with_reducible split
      | with_reducible apply Same.set_temps_hot
  clear_value s1
  have hk_s2 : Same M σ₀ s2 := by
    dsimp only [s2]
    repeat' first
      | with_reducible assumption
      | with_reducible apply State.modFace_same
      | with_reducible apply State.sluiceHeat_same
      | with_reducible apply State.setEvt_same
      | with_reducible apply State.logEvt_same
      | with_reducible apply State.trip_same
      | with_reducible apply Same.foldl
      | with_reducible apply Same.foldlFst
      | (with_reducible refine Sub.trans hM ?_; decide)
      | intro _
      | with_reducible split
      | with_reducible apply Same.set_temps_hot
  clear_value s2
  have hk_s3 : Same M σ₀ s3 := by
    dsimp only [s3]
    repeat' first
      | with_reducible assumption
      | with_reducible apply State.modFace_same
      | with_reducible apply State.sluiceHeat_same
      | with_reducible apply State.setEvt_same
      | with_reducible apply State.logEvt_same
      | with_reducible apply State.trip_same
      | with_reducible apply Same.foldl
      | with_reducible apply Same.foldlFst
      | (with_reducible refine Sub.trans hM ?_; decide)
      | intro _
      | with_reducible split
      | with_reducible apply Same.set_temps_hot
  clear_value s3
  try dsimp only
  repeat' first
    | with_reducible assumption
    | with_reducible apply State.modFace_same
    | with_reducible apply State.sluiceHeat_same
    | with_reducible apply State.setEvt_same
    | with_reducible apply State.logEvt_same
    | with_reducible apply State.trip_same
    | with_reducible apply Same.foldl
    | with_reducible apply Same.foldlFst
    | (with_reducible refine Sub.trans hM ?_; decide)
    | intro _
    | with_reducible split
    | with_reducible apply Same.set_temps_hot

theorem State.tripClear_same {M : Nat} {σ₀ σ : State} (hM : Sub 80 M) (hk : Same M σ₀ σ) :
    Same M σ₀ (State.tripClear σ) := by
  unfold State.tripClear
  try dsimp only
  repeat' first
    | with_reducible assumption
    | with_reducible apply State.checkReady_same
    | with_reducible apply State.modFace_same
    | with_reducible apply State.modGlb_same
    | with_reducible apply Same.foldl
    | with_reducible apply Same.foldlFst
    | (with_reducible refine Sub.trans hM ?_; decide)
    | intro _
    | with_reducible split

theorem State.crossWrite_same {M : Nat} {σ₀ σ : State} (hM : Sub 4406636445696 M) (hk : Same M σ₀ σ) (g v : Nat) :
    Same M σ₀ (State.crossWrite σ g v) := by
  unfold State.crossWrite
  try dsimp only
  repeat' first
    | with_reducible assumption
    | with_reducible apply State.badWrite_same
    | with_reducible apply State.modCross_same
    | (with_reducible refine Sub.trans hM ?_; decide)
    | intro _
    | with_reducible split

theorem State.crossApply_same {M : Nat} {σ₀ σ : State} (hM : Sub 8589934592 M) (hk : Same M σ₀ σ) (g : Nat) :
    Same M σ₀ (State.crossApply σ g) := by
  unfold State.crossApply
  try dsimp only
  repeat' first
    | with_reducible assumption
    | with_reducible apply State.modCross_same
    | (with_reducible refine Sub.trans hM ?_; decide)
    | intro _
    | with_reducible split

theorem State.lockCheck_same {M : Nat} {σ₀ σ : State} (hM : Sub 4406636445712 M) (hk : Same M σ₀ σ)
    (count : Nat) :
    Same M σ₀ (State.lockCheck σ count) := by
  unfold State.lockCheck
  try dsimp only
  repeat' first
    | with_reducible assumption
    | with_reducible apply State.modCross_same
    | with_reducible apply State.setEvt_same
    | with_reducible apply State.logEvt_same
    | (with_reducible refine Sub.trans hM ?_; decide)
    | intro _
    | with_reducible split

theorem State.crossMiss_same {M : Nat} {σ₀ σ : State} (hM : Sub 4810406102256 M) (hk : Same M σ₀ σ) (n : Nat) :
    Same M σ₀ (State.crossMiss σ n) := by
  unfold State.crossMiss
  extract_lets times s1
  have hk_s1 : Same M σ₀ s1 := by
    dsimp only [s1]
    repeat' first
      | with_reducible assumption
      | with_reducible apply State.modFace_same
      | with_reducible apply State.retireFace_same
      | (with_reducible refine Sub.trans hM ?_; decide)
      | intro _
      | with_reducible split
  clear_value s1
  try dsimp only
  repeat' first
    | with_reducible assumption
    | with_reducible apply State.modFace_same
    | with_reducible apply State.retireFace_same
    | (with_reducible refine Sub.trans hM ?_; decide)
    | intro _
    | with_reducible split

theorem State.crossParity_same {M : Nat} {σ₀ σ : State} (hM : Sub 39994778191344 M) (hk : Same M σ₀ σ)
    (path : CrossPath) :
    Same M σ₀ (State.crossParity σ path) := by
  unfold State.crossParity
  try dsimp only
  repeat' first
    | with_reducible assumption
    | with_reducible apply State.readError_same
    | with_reducible apply State.abortBench_same
    | with_reducible apply State.crossMiss_same
    | with_reducible apply State.contextSave_same
    | (with_reducible refine Sub.trans hM ?_; decide)
    | intro _
    | with_reducible split
    | with_reducible apply Same.set_bus

theorem State.allOff_same {M : Nat} {σ₀ σ : State} (hM : Sub 158608847272928 M) (hk : Same M σ₀ σ) :
    Same M σ₀ (State.allOff σ) := by
  unfold State.allOff
  try dsimp only
  repeat' first
    | with_reducible assumption
    | with_reducible apply State.tileOff_same
    | with_reducible apply State.yardLost_same
    | with_reducible apply State.setClk_same
    | with_reducible apply Same.foldl
    | with_reducible apply Same.foldlFst
    | (with_reducible refine Sub.trans hM ?_; decide)
    | intro _
    | with_reducible split

theorem State.hostReset_same {M : Nat} {σ₀ σ : State} (hM : Sub 559402310433776 M) (hk : Same M σ₀ σ)
    (held : Bool) :
    Same M σ₀ (State.hostReset σ held) := by
  unfold State.hostReset
  try dsimp only
  repeat' first
    | with_reducible assumption
    | with_reducible apply State.closeDown_same
    | with_reducible apply State.allOff_same
    | with_reducible apply State.logEvt_same
    | with_reducible apply Same.foldl
    | with_reducible apply Same.foldlFst
    | (with_reducible refine Sub.trans hM ?_; decide)
    | intro _
    | with_reducible split
    | with_reducible apply Same.set_396395416649808

theorem State.resetOver_same {M : Nat} {σ₀ σ : State} (hM : Sub 48 M) (hk : Same M σ₀ σ) :
    Same M σ₀ (State.resetOver σ) := by
  unfold State.resetOver
  try dsimp only
  repeat' first
    | with_reducible assumption
    | with_reducible apply State.modGlb_same
    | with_reducible apply State.wake_same
    | (with_reducible refine Sub.trans hM ?_; decide)
    | intro _
    | with_reducible split

end Sys2Proof.Machine
end

