-- ==== Sys2Proof/Laws/SameFaults.lean ====
section
/-! SUPPORT. Which parts of the state the operations of `Machine/Faults.lean` may change (`Same`). -/

namespace Sys2Proof.Machine

set_option linter.all false

theorem State.dealCut_same {M : Nat} {σ₀ σ : State} (hM : Sub 1074267584 M) (hk : Same M σ₀ σ) (e : Nat) :
    Same M σ₀ (State.dealCut σ e) := by
  unfold State.dealCut
  extract_lets d s1
  have hk_s1 : Same M σ₀ s1 := by
    dsimp only [s1]
    repeat' first
      | with_reducible assumption
      | with_reducible apply State.modBench_same
      | with_reducible apply State.dealRound_same
      | with_reducible apply State.tryStart_same
      | with_reducible apply Same.foldl
      | with_reducible apply Same.foldlFst
      | (with_reducible refine Sub.trans hM ?_; decide)
      | intro _
      | with_reducible split
  clear_value s1
  try dsimp only
  repeat' first
    | with_reducible assumption
    | with_reducible apply State.modBench_same
    | with_reducible apply State.dealRound_same
    | with_reducible apply State.tryStart_same
    | with_reducible apply Same.foldl
    | with_reducible apply Same.foldlFst
    | (with_reducible refine Sub.trans hM ?_; decide)
    | intro _
    | with_reducible split

theorem State.resetRegions_same {M : Nat} {σ₀ σ : State} (hM : Sub 4194816 M) (hk : Same M σ₀ σ) (d : CutDesc) :
    Same M σ₀ (State.resetRegions σ d) := by
  unfold State.resetRegions
  try dsimp only
  repeat' first
    | with_reducible assumption
    | with_reducible apply State.resetTile_same
    | with_reducible apply Same.foldl
    | with_reducible apply Same.foldlFst
    | (with_reducible refine Sub.trans hM ?_; decide)
    | intro _
    | with_reducible split

theorem State.shareBench_same {M : Nat} {σ₀ σ : State} (hM : Sub 4810406102256 M) (hk : Same M σ₀ σ)
    (e n b : Nat) :
    Same M σ₀ (State.shareBench σ e n b) := by
  unfold State.shareBench
  try dsimp only
  repeat' first
    | with_reducible assumption
    | with_reducible apply State.retireFace_same
    | with_reducible apply State.dealItems_same
    | with_reducible apply State.modBench_same
    | with_reducible apply State.orFlags_same
    | with_reducible apply State.modFace_same
    | (with_reducible refine Sub.trans hM ?_; decide)
    | intro _
    | with_reducible split

theorem State.shareWork_same {M : Nat} {σ₀ σ : State} (hM : Sub 4810406102256 M) (hk : Same M σ₀ σ) (e : Nat) :
    Same M σ₀ (State.shareWork σ e) := by
  unfold State.shareWork
  extract_lets d s1
  have hk_s1 : Same M σ₀ s1 := by
    dsimp only [s1]
    repeat' first
      | with_reducible assumption
      | with_reducible apply State.shareBench_same
      | with_reducible apply State.adoptCut_same
      | with_reducible apply Same.foldl
      | with_reducible apply Same.foldlFst
      | (with_reducible refine Sub.trans hM ?_; decide)
      | intro _
      | with_reducible split
  clear_value s1
  try dsimp only
  repeat' first
    | with_reducible assumption
    | with_reducible apply State.shareBench_same
    | with_reducible apply State.adoptCut_same
    | with_reducible apply Same.foldl
    | with_reducible apply Same.foldlFst
    | (with_reducible refine Sub.trans hM ?_; decide)
    | intro _
    | with_reducible split

theorem State.dealStart_same {M : Nat} {σ₀ σ : State} (hM : Sub 4811479844336 M) (hk : Same M σ₀ σ) (e : Nat) :
    Same M σ₀ (State.dealStart σ e) := by
  unfold State.dealStart
  try dsimp only
  repeat' first
    | with_reducible assumption
    | with_reducible apply State.dealCut_same
    | with_reducible apply State.shareWork_same
    | (with_reducible refine Sub.trans hM ?_; decide)
    | intro _
    | with_reducible split

theorem State.restartCut_same {M : Nat} {σ₀ σ : State} (hM : Sub 4811484039152 M) (hk : Same M σ₀ σ) (e : Nat) :
    Same M σ₀ (State.restartCut σ e) := by
  unfold State.restartCut
  extract_lets c s1 s2 s3
  have hk_s1 : Same M σ₀ s1 := by
    dsimp only [s1]
    repeat' first
      | with_reducible assumption
      | with_reducible apply State.resetRegions_same
      | with_reducible apply State.dropTiles_same
      | with_reducible apply State.modCut_same
      | with_reducible apply State.modArun_same
      | with_reducible apply State.dealStart_same
      | (with_reducible refine Sub.trans hM ?_; decide)
      | intro _
      | with_reducible split
      | with_reducible apply Same.set_kilns_hoists
  clear_value s1
  have hk_s2 : Same M σ₀ s2 := by
    dsimp only [s2]
    repeat' first
      | with_reducible assumption
      | with_reducible apply State.resetRegions_same
      | with_reducible apply State.dropTiles_same
      | with_reducible apply State.modCut_same
      | with_reducible apply State.modArun_same
      | with_reducible apply State.dealStart_same
      | (with_reducible refine Sub.trans hM ?_; decide)
      | intro _
      | with_reducible split
      | with_reducible apply Same.set_kilns_hoists
  clear_value s2
  have hk_s3 : Same M σ₀ s3 := by
    dsimp only [s3]
    repeat' first
      | with_reducible assumption
      | with_reducible apply State.resetRegions_same
      | with_reducible apply State.dropTiles_same
      | with_reducible apply State.modCut_same
      | with_reducible apply State.modArun_same
      | with_reducible apply State.dealStart_same
      | (with_reducible refine Sub.trans hM ?_; decide)
      | intro _
      | with_reducible split
      | with_reducible apply Same.set_kilns_hoists
  clear_value s3
  try dsimp only
  repeat' first
    | with_reducible assumption
    | with_reducible apply State.resetRegions_same
    | with_reducible apply State.dropTiles_same
    | with_reducible apply State.modCut_same
    | with_reducible apply State.modArun_same
    | with_reducible apply State.dealStart_same
    | (with_reducible refine Sub.trans hM ?_; decide)
    | intro _
    | with_reducible split
    | with_reducible apply Same.set_kilns_hoists

theorem State.abortCut_same {M : Nat} {σ₀ σ : State} (hM : Sub 4811484039152 M) (hk : Same M σ₀ σ) (e : Nat) :
    Same M σ₀ (State.abortCut σ e) := by
  unfold State.abortCut
  extract_lets s1
  have hk_s1 : Same M σ₀ s1 := by
    dsimp only [s1]
    repeat' first
      | with_reducible assumption
      | with_reducible apply State.awaitReplay_same
      | with_reducible apply State.modCut_same
      | with_reducible apply State.orFlags_same
      | with_reducible apply State.setStatus_same
      | with_reducible apply State.restartCut_same
      | (with_reducible refine Sub.trans hM ?_; decide)
      | intro _
      | with_reducible split
  clear_value s1
  try dsimp only
  repeat' first
    | with_reducible assumption
    | with_reducible apply State.awaitReplay_same
    | with_reducible apply State.modCut_same
    | with_reducible apply State.orFlags_same
    | with_reducible apply State.setStatus_same
    | with_reducible apply State.restartCut_same
    | (with_reducible refine Sub.trans hM ?_; decide)
    | intro _
    | with_reducible split

theorem State.startMigration_same {M : Nat} {σ₀ σ : State} (hM : Sub 4398046511632 M) (hk : Same M σ₀ σ)
    (b : Nat) (inj : Bool) :
    Same M σ₀ (State.startMigration σ b inj) := by
  unfold State.startMigration
  try dsimp only
  repeat' first
    | with_reducible assumption
    | with_reducible apply State.setEvt_same
    | with_reducible apply State.logRec_same
    | (with_reducible refine Sub.trans hM ?_; decide)
    | intro _
    | with_reducible split
    | with_reducible apply Same.set_yard

theorem State.takeYardInject_same {M : Nat} {σ₀ σ : State} (hM : Sub 8796093022208 M) (hk : Same M σ₀ σ) (a : Nat) :
    Same M σ₀ (State.takeYardInject σ a).2 := by
  unfold State.takeYardInject
  split
  · exact Same.set_monitor (hM.trans (by decide)) hk
  · exact hk

theorem State.correctWord_same {M : Nat} {σ₀ σ : State} (hM : Sub 13262859010576 M) (hk : Same M σ₀ σ) (a : Nat) :
    Same M σ₀ (State.correctWord σ a) := by
  have h0 := State.takeYardInject_same (hM.trans (by decide)) hk a
  unfold State.correctWord
  revert h0
  generalize σ.takeYardInject a = r
  obtain ⟨inj, s0⟩ := r
  intro h0
  dsimp only at h0 ⊢
  split
  · apply State.startMigration_same (hM.trans (by decide))
    apply State.healthEvent_same (hM.trans (by decide))
    apply Same.set_yard (hM.trans (by decide)) h0
  · apply State.healthEvent_same (hM.trans (by decide))
    apply Same.set_yard (hM.trans (by decide)) h0

theorem State.migrationDone_same {M : Nat} {σ₀ σ : State} (hM : Sub 4535485465104 M) (hk : Same M σ₀ σ)
    (b : Nat) :
    Same M σ₀ (State.migrationDone σ b) := by
  unfold State.migrationDone
  try dsimp only
  repeat' first
    | with_reducible assumption
    | with_reducible apply State.modSpare_same
    | with_reducible apply State.logRemap_same
    | (with_reducible refine Sub.trans hM ?_; decide)
    | intro _
    | with_reducible split
    | with_reducible apply Same.set_yard

theorem State.refetch_same {M : Nat} {σ₀ σ : State} (hM : Sub 8914368 M) (hk : Same M σ₀ σ) (h : Nat) :
    Same M σ₀ (State.refetch σ h) := by
  unfold State.refetch
  try dsimp only
  repeat' first
    | with_reducible assumption
    | with_reducible apply State.abortBench_same
    | with_reducible apply State.modHoist_same
    | with_reducible apply Same.foldl
    | with_reducible apply Same.foldlFst
    | (with_reducible refine Sub.trans hM ?_; decide)
    | intro _
    | with_reducible split

theorem State.uncorrectableIn_same {M : Nat} {σ₀ σ : State} (hM : Sub 4811484039152 M) (hk : Same M σ₀ σ)
    (i : Image) (a r : Nat) (reg : Region) :
    Same M σ₀ (State.uncorrectableIn σ i a r reg) := by
  unfold State.uncorrectableIn
  try dsimp only
  repeat' first
    | with_reducible assumption
    | with_reducible apply State.halt_same
    | with_reducible apply State.abortCut_same
    | with_reducible apply State.refetch_same
    | with_reducible apply State.restartCut_same
    | (with_reducible refine Sub.trans hM ?_; decide)
    | intro _
    | with_reducible split

theorem State.uncorrectable_same {M : Nat} {σ₀ σ : State} (hM : Sub 13607577061360 M) (hk : Same M σ₀ σ) (a : Nat) :
    Same M σ₀ (State.uncorrectable σ a) := by
  have h0 := State.takeYardInject_same (hM.trans (by decide)) hk a
  unfold State.uncorrectable
  revert h0
  generalize σ.takeYardInject a = r
  obtain ⟨inj, s0⟩ := r
  intro h0
  dsimp only at h0 ⊢
  split
  · split
    · apply State.uncorrectableIn_same (hM.trans (by decide))
      apply State.startMigration_same (hM.trans (by decide))
      apply Same.set_yard (hM.trans (by decide)) h0
    · apply State.startMigration_same (hM.trans (by decide))
      apply Same.set_yard (hM.trans (by decide)) h0
  · apply State.startMigration_same (hM.trans (by decide))
    apply Same.set_yard (hM.trans (by decide)) h0

theorem State.fillTo_same {M : Nat} {σ₀ σ : State} (hM : Sub 274877907008 M) (hk : Same M σ₀ σ) (ph : FillPhase)
    (code : Nat) :
    Same M σ₀ (State.fillTo σ ph code) := by
  unfold State.fillTo
  try dsimp only
  repeat' first
    | with_reducible assumption
    | with_reducible apply State.modFace_same
    | (with_reducible refine Sub.trans hM ?_; decide)
    | intro _
    | with_reducible split
    | with_reducible apply Same.set_fills

theorem State.fillWake_same {M : Nat} {σ₀ σ : State} (hM : Sub 4810406102256 M) (hk : Same M σ₀ σ) (woke : Bool) :
    Same M σ₀ (State.fillWake σ woke) := by
  unfold State.fillWake
  try dsimp only
  repeat' first
    | with_reducible assumption
    | with_reducible apply State.wake_same
    | with_reducible apply State.fillFail_same
    | with_reducible apply State.setClk_same
    | with_reducible apply State.faceWoken_same
    | with_reducible apply State.fillTo_same
    | (with_reducible refine Sub.trans hM ?_; decide)
    | intro _
    | with_reducible split

theorem State.fillConfig_same {M : Nat} {σ₀ σ : State} (hM : Sub 4810406102256 M) (hk : Same M σ₀ σ) (ok : Bool) :
    Same M σ₀ (State.fillConfig σ ok) := by
  unfold State.fillConfig
  try dsimp only
  repeat' first
    | with_reducible assumption
    | with_reducible apply State.giveModes_same
    | with_reducible apply State.writeCal_same
    | with_reducible apply State.fillTo_same
    | with_reducible apply State.fillFail_same
    | (with_reducible refine Sub.trans hM ?_; decide)
    | intro _
    | with_reducible split

theorem State.fillTest_same {M : Nat} {σ₀ σ : State} (hM : Sub 4810406102256 M) (hk : Same M σ₀ σ)
    (r : FaceTest) :
    Same M σ₀ (State.fillTest σ r) := by
  unfold State.fillTest
  try dsimp only
  repeat' first
    | with_reducible assumption
    | with_reducible apply State.absorbTest_same
    | with_reducible apply State.fillFail_same
    | with_reducible apply State.join_same
    | (with_reducible refine Sub.trans hM ?_; decide)
    | intro _
    | with_reducible split

theorem State.wakeFailed_same {M : Nat} {σ₀ σ : State} (hM : Sub 4810406102256 M) (hk : Same M σ₀ σ) (n : Nat) :
    Same M σ₀ (State.wakeFailed σ n) := by
  unfold State.wakeFailed
  try dsimp only
  repeat' first
    | with_reducible assumption
    | with_reducible apply State.wake_same
    | with_reducible apply State.fillFail_same
    | with_reducible apply State.retireFace_same
    | (with_reducible refine Sub.trans hM ?_; decide)
    | intro _
    | with_reducible split

end Sys2Proof.Machine
end

