-- ==== Sys2Proof/Laws/SameSnapshot.lean ====
section
/-! SUPPORT. Which parts of the state the operations of `Machine/Snapshot.lean` may change (`Same`). -/

namespace Sys2Proof.Machine

set_option linter.all false

theorem State.beginDrain_same {M : Nat} {σ₀ σ : State} (hM : Sub 2156396544 M) (hk : Same M σ₀ σ) (e : Nat)
    (cap : Capture) :
    Same M σ₀ (State.beginDrain σ e cap) := by
  unfold State.beginDrain
  try dsimp only
  repeat' first
    | with_reducible assumption
    | with_reducible apply State.modCut_same
    | with_reducible apply State.orFlags_same
    | with_reducible apply State.modUnit_same
    | with_reducible apply State.modHoist_same
    | with_reducible apply Same.foldl
    | with_reducible apply Same.foldlFst
    | (with_reducible refine Sub.trans hM ?_; decide)
    | intro _
    | with_reducible split

theorem State.endHold_same {M : Nat} {σ₀ σ : State} (hM : Sub 8914048 M) (hk : Same M σ₀ σ) :
    Same M σ₀ (State.endHold σ) := by
  unfold State.endHold
  try dsimp only
  repeat' first
    | with_reducible assumption
    | with_reducible apply State.resumeWorking_same
    | with_reducible apply Same.foldl
    | with_reducible apply Same.foldlFst
    | (with_reducible refine Sub.trans hM ?_; decide)
    | intro _
    | with_reducible split

theorem State.snapCapture_same {M : Nat} {σ₀ σ : State} (hM : Sub 620631688352 M) (hk : Same M σ₀ σ) :
    Same M σ₀ (State.snapCapture σ) := by
  unfold State.snapCapture
  try dsimp only
  repeat' first
    | with_reducible assumption
    | with_reducible apply State.beginDrain_same
    | with_reducible apply State.endHold_same
    | with_reducible apply State.wake_same
    | (with_reducible refine Sub.trans hM ?_; decide)
    | intro _
    | with_reducible split
    | with_reducible apply Same.set_snap
    | with_reducible apply Same.set_health_snap

theorem State.reportSnap_same {M : Nat} {σ₀ σ : State} (hM : Sub 618475290624 M) (hk : Same M σ₀ σ) :
    Same M σ₀ (State.reportSnap σ) := by
  unfold State.reportSnap
  try dsimp only
  repeat' first
    | with_reducible assumption
    | (with_reducible refine Sub.trans hM ?_; decide)
    | intro _
    | with_reducible split
    | with_reducible apply Same.set_health_snap

theorem State.drainOver_same {M : Nat} {σ₀ σ : State} (hM : Sub 5295207942096 M) (hk : Same M σ₀ σ)
    (bytes : Nat) :
    Same M σ₀ (State.drainOver σ bytes) := by
  unfold State.drainOver
  try dsimp only
  repeat' first
    | with_reducible assumption
    | with_reducible apply State.reportSnap_same
    | with_reducible apply State.setEvt_same
    | with_reducible apply State.logEvt_same
    | with_reducible apply State.modCut_same
    | with_reducible apply State.endStreams_same
    | with_reducible apply State.endCut_same
    | with_reducible apply State.releaseWaiting_same
    | with_reducible apply State.issueAllHeld_same
    | (with_reducible refine Sub.trans hM ?_; decide)
    | intro _
    | with_reducible split
    | with_reducible apply Same.set_snap

theorem State.sendSnap_same {M : Nat} {σ₀ σ : State} (hM : Sub 268959744 M) (hk : Same M σ₀ σ)
    (e port vc slot : Nat) (ps : List (Nat × List Byte)) :
    Same M σ₀ (State.sendSnap σ e port vc slot ps) := by
  unfold State.sendSnap
  extract_lets recs s1
  have hk_s1 : Same M σ₀ s1 := by
    dsimp only [s1]
    repeat' first
      | with_reducible assumption
      | with_reducible apply State.pushTx_same
      | with_reducible apply State.modCut_same
      | with_reducible apply Same.foldl
      | with_reducible apply Same.foldlFst
      | (with_reducible refine Sub.trans hM ?_; decide)
      | intro _
      | with_reducible split
  clear_value s1
  try dsimp only
  repeat' first
    | with_reducible assumption
    | with_reducible apply State.pushTx_same
    | with_reducible apply State.modCut_same
    | with_reducible apply Same.foldl
    | with_reducible apply Same.foldlFst
    | (with_reducible refine Sub.trans hM ?_; decide)
    | intro _
    | with_reducible split

theorem State.snapCommit_same {M : Nat} {σ₀ σ : State} (hM : Sub 5295476377552 M) (hk : Same M σ₀ σ)
    (given : List (Nat × List Byte)) :
    Same M σ₀ (State.snapCommit σ given) := by
  unfold State.snapCommit
  try dsimp only
  repeat' first
    | with_reducible assumption
    | with_reducible apply State.sendSnap_same
    | with_reducible apply State.drainOver_same
    | with_reducible apply State.putFabric_same
    | with_reducible apply Same.foldl
    | with_reducible apply Same.foldlFst
    | (with_reducible refine Sub.trans hM ?_; decide)
    | intro _
    | with_reducible split

theorem State.takeRecord_same {M : Nat} {σ₀ σ : State} (hM : Sub 268435456 M) (hk : Same M σ₀ σ) (n : Nat) :
    Same M σ₀ (State.takeRecord σ n) := by
  unfold State.takeRecord
  try dsimp only
  repeat' first
    | with_reducible assumption
    | with_reducible apply State.modPort_same
    | (with_reducible refine Sub.trans hM ?_; decide)
    | intro _
    | with_reducible split

theorem State.peerSnap_same {M : Nat} {σ₀ σ : State} (hM : Sub 4398314947584 M) (hk : Same M σ₀ σ)
    (slot off : Nat) (data : List Byte) :
    Same M σ₀ (State.peerSnap σ slot off data) := by
  unfold State.peerSnap
  extract_lets s1
  have hk_s1 : Same M σ₀ s1 := by
    dsimp only [s1]
    repeat' first
      | with_reducible assumption
      | with_reducible apply State.takeRecord_same
      | with_reducible apply State.putFabric_same
      | with_reducible apply State.logEvt_same
      | (with_reducible refine Sub.trans hM ?_; decide)
      | intro _
      | with_reducible split
  clear_value s1
  try dsimp only
  repeat' first
    | with_reducible assumption
    | with_reducible apply State.takeRecord_same
    | with_reducible apply State.putFabric_same
    | with_reducible apply State.logEvt_same
    | (with_reducible refine Sub.trans hM ?_; decide)
    | intro _
    | with_reducible split

theorem State.startRestore_same {M : Nat} {σ₀ σ : State} (hM : Sub 4947802324992 M) (hk : Same M σ₀ σ) :
    Same M σ₀ (State.startRestore σ) := by
  unfold State.startRestore
  try dsimp only
  repeat' first
    | with_reducible assumption
    | with_reducible apply State.logEvt_same
    | (with_reducible refine Sub.trans hM ?_; decide)
    | intro _
    | with_reducible split
    | with_reducible apply Same.set_snap

theorem State.restoreOutcome_same {M : Nat} {σ₀ σ : State} (hM : Sub 549755813904 M) (hk : Same M σ₀ σ)
    (code : Nat) (bad : Bool) :
    Same M σ₀ (State.restoreOutcome σ code bad) := by
  unfold State.restoreOutcome
  try dsimp only
  repeat' first
    | with_reducible assumption
    | with_reducible apply State.setEvt_same
    | (with_reducible refine Sub.trans hM ?_; decide)
    | intro _
    | with_reducible split
    | with_reducible apply Same.set_snap

theorem State.writeBack_same {M : Nat} {σ₀ σ : State} (hM : Sub 1024 M) (hk : Same M σ₀ σ) (m : MapDesc)
    (idx : List (List Int)) (bs : List Byte) :
    Same M σ₀ (State.writeBack σ m idx bs) := by
  unfold State.writeBack
  try dsimp only
  repeat' first
    | with_reducible assumption
    | with_reducible apply State.putFabric_same
    | with_reducible apply Same.foldl
    | with_reducible apply Same.foldlFst
    | (with_reducible refine Sub.trans hM ?_; decide)
    | intro _
    | with_reducible split

theorem State.writeParts_same {M : Nat} {σ₀ σ : State} (hM : Sub 1024 M) (hk : Same M σ₀ σ) (ps : List (MapDesc × List (List Int))) (bs : List Byte) :
    Same M σ₀ (State.writeParts σ ps bs) := by
  induction ps generalizing σ bs with
  | nil => exact hk
  | cons p ps ih =>
    obtain ⟨m, idx⟩ := p
    unfold State.writeParts
    exact ih ((State.writeBack_same (hM.trans (by decide))) hk _ _ _) _

theorem State.restoreSched_same {M : Nat} {σ₀ σ : State} (hM : Sub 8716288 M) (hk : Same M σ₀ σ)
    (bs sched : List Byte) :
    Same M σ₀ (State.restoreSched σ bs sched) := by
  unfold State.restoreSched
  try dsimp only
  repeat' first
    | with_reducible assumption
    | (with_reducible refine Sub.trans hM ?_; decide)
    | intro _
    | with_reducible split
    | with_reducible apply Same.set_tallies_working_hoists

theorem State.dropCuts_same {M : Nat} {σ₀ σ : State} (hM : Sub 828436382080 M) (hk : Same M σ₀ σ) :
    Same M σ₀ (State.dropCuts σ) := by
  unfold State.dropCuts
  try dsimp only
  repeat' first
    | with_reducible assumption
    | (with_reducible refine Sub.trans hM ?_; decide)
    | intro _
    | with_reducible split
    | with_reducible apply Same.set_828436382080

theorem State.resetAccum_same {M : Nat} {σ₀ σ : State} (hM : Sub 5243392 M) (hk : Same M σ₀ σ) :
    Same M σ₀ (State.resetAccum σ) := by
  unfold State.resetAccum
  try dsimp only
  repeat' first
    | with_reducible assumption
    | with_reducible apply State.resetTile_same
    | with_reducible apply Same.foldl
    | with_reducible apply Same.foldlFst
    | (with_reducible refine Sub.trans hM ?_; decide)
    | intro _
    | with_reducible split
    | with_reducible apply Same.set_seams_slots

theorem State.restoreTile_same {M : Nat} {σ₀ σ : State} (hM : Sub 4194816 M) (hk : Same M σ₀ σ) (t : TileRef)
    (h : Hdr) (elems : List Byte) :
    Same M σ₀ (State.restoreTile σ t h elems) := by
  unfold State.restoreTile
  try dsimp only
  repeat' first
    | with_reducible assumption
    | with_reducible apply State.putYard_same
    | with_reducible apply Same.foldl
    | with_reducible apply Same.foldlFst
    | (with_reducible refine Sub.trans hM ?_; decide)
    | intro _
    | with_reducible split
    | with_reducible apply Same.set_slots

theorem State.restoreTiles_same {M : Nat} {σ₀ σ : State} (hM : Sub 4194816 M) (hk : Same M σ₀ σ) (ts : List TileRef) (hs es : List Byte) :
    Same M σ₀ (State.restoreTiles σ ts hs es) := by
  induction ts generalizing σ hs es with
  | nil => exact hk
  | cons t ts ih =>
    unfold State.restoreTiles
    exact ih ((State.restoreTile_same (hM.trans (by decide))) hk _ _ _) _ _

theorem State.restoreHeld_same {M : Nat} {σ₀ σ : State} (hM : Sub 5767680 M) (hk : Same M σ₀ σ) (n : Nat) (bs : List Byte) :
    Same M σ₀ (State.restoreHeld σ n bs) := by
  induction n generalizing σ bs with
  | zero => exact hk
  | succ k ih =>
    unfold State.restoreHeld
    split
    · exact hk
    · dsimp only
      apply ih
      split
      · exact hk
      · split
        · exact hk
        · apply State.restoreTiles_same (hM.trans (by decide))
          apply State.modCut_same (hM.trans (by decide))
          exact Same.set_seams (hM.trans (by decide)) hk

theorem State.applySnap_same {M : Nat} {σ₀ σ : State} (hM : Sub 828441954176 M) (hk : Same M σ₀ σ) (bs : List Byte) :
    Same M σ₀ (State.applySnap σ bs) := by
  have h1 : Same M σ₀ (σ.dropCuts.restoreSched bs (snapSection bs 1)).resetAccum :=
    State.resetAccum_same (hM.trans (by decide)) (State.restoreSched_same (hM.trans (by decide)) (State.dropCuts_same (hM.trans (by decide)) hk) _ _)
  unfold State.applySnap
  dsimp only
  generalize (σ.dropCuts.restoreSched bs (snapSection bs 1)).resetAccum = s1 at h1
  have h2 : Same M σ₀ (match s1.image with
    | some i => ((s1.writeParts (i.weightParts (fun w => field bs (0x50 + 8 * w) 8)) (snapSection bs 3)).writeParts
        i.tailParts (snapSection bs 4)).writeParts (i.scaleParts (fun w => field bs (0x50 + 8 * w) 8)) (snapSection bs 5)
    | none => s1) := by
    split
    · exact State.writeParts_same (hM.trans (by decide)) (State.writeParts_same (hM.trans (by decide)) (State.writeParts_same (hM.trans (by decide)) h1 _ _) _ _) _ _
    · exact h1
  generalize 4096 = n
  exact Same.set_snap (hM.trans (by decide)) (State.restoreHeld_same (hM.trans (by decide)) h2 n (snapSection bs 2))

theorem State.brokenRestore_same {M : Nat} {σ₀ σ : State} (hM : Sub 828441954178 M) (hk : Same M σ₀ σ) (bs : List Byte) :
    Same M σ₀ (State.brokenRestore σ bs) := by
  have h1 : Same M σ₀ { σ with fresh := σ.fresh + 1 } := Same.set_fresh (hM.trans (by decide)) hk
  unfold State.brokenRestore
  dsimp only
  split
  · exact State.applySnap_same (hM.trans (by decide)) h1 _
  · exact h1

theorem State.vHead_same {M : Nat} {σ₀ σ : State} (hM : Sub 5295476377552 M) (hk : Same M σ₀ σ) (p vc e : Nat) :
    Same M σ₀ (State.vHead σ p vc e) := by
  unfold State.vHead
  try dsimp only
  repeat' first
    | with_reducible assumption
    | with_reducible apply State.modPort_same
    | with_reducible apply State.modCut_same
    | with_reducible apply State.loseCut_same
    | (with_reducible refine Sub.trans hM ?_; decide)
    | intro _
    | with_reducible split

theorem State.fetchSlice_same {M : Nat} {σ₀ σ : State} (hM : Sub 1024 M) (hk : Same M σ₀ σ) (base : Nat) (crc : DWord) (xs : List (List Byte)) :
    Same M σ₀ (State.fetchSlice σ base crc xs).1 := by
  induction xs generalizing σ with
  | nil => exact hk
  | cons b bs ih =>
    unfold State.fetchSlice
    dsimp only
    split
    · exact (State.putFabric_same (hM.trans (by decide))) hk _ _
    · exact ih ((State.putFabric_same (hM.trans (by decide))) hk _ _)

theorem State.countSlice_same {M : Nat} {σ₀ σ : State} (hM : Sub 524288 M) (hk : Same M σ₀ σ) (e : Nat)
    (differs fetched : Bool) :
    Same M σ₀ (State.countSlice σ e differs fetched) := by
  unfold State.countSlice
  extract_lets s1
  have hk_s1 : Same M σ₀ s1 := by
    dsimp only [s1]
    repeat' first
      | with_reducible assumption
      | with_reducible apply State.modCut_same
      | with_reducible apply State.orFlags_same
      | (with_reducible refine Sub.trans hM ?_; decide)
      | intro _
      | with_reducible split
  clear_value s1
  try dsimp only
  repeat' first
    | with_reducible assumption
    | with_reducible apply State.modCut_same
    | with_reducible apply State.orFlags_same
    | (with_reducible refine Sub.trans hM ?_; decide)
    | intro _
    | with_reducible split

theorem State.vSlice_same {M : Nat} {σ₀ σ : State} (hM : Sub 5295476377552 M) (hk : Same M σ₀ σ) (e index length : Nat) (crc : DWord) (own : List Byte)
    (fetched : List (List Byte)) : Same M σ₀ (State.vSlice σ e index length crc own fetched) := by
  unfold State.vSlice
  dsimp only
  split
  · split
    · have h1 := fun p vc bs (q : Port → Port) tl => (State.pushTx_same (hM.trans (by decide))) ((State.modPort_same (hM.trans (by decide))) hk p q) p vc e bs tl
      split
      · apply (State.itemDone_same (hM.trans (by decide)))
        apply (State.countSlice_same (hM.trans (by decide)))
        apply h1
      · split
        · split
          · apply (State.itemDone_same (hM.trans (by decide)))
            apply (State.countSlice_same (hM.trans (by decide)))
            apply (State.fetchSlice_same (hM.trans (by decide)))
            apply h1
          · apply (State.loseCut_same (hM.trans (by decide)))
            apply (State.countSlice_same (hM.trans (by decide)))
            apply (State.fetchSlice_same (hM.trans (by decide)))
            apply h1
        · apply (State.itemDone_same (hM.trans (by decide)))
          apply (State.countSlice_same (hM.trans (by decide)))
          split
          · apply (State.pushTx_same (hM.trans (by decide)))
            apply h1
          · apply h1
    · exact hk
  · exact hk

theorem State.haltUndressed_same {M : Nat} {σ₀ σ : State} (hM : Sub 4398089241744 M) (hk : Same M σ₀ σ)
    (d : Nat) :
    Same M σ₀ (State.haltUndressed σ d) := by
  unfold State.haltUndressed
  try dsimp only
  repeat' first
    | with_reducible assumption
    | with_reducible apply State.halt_same
    | with_reducible apply Same.foldl
    | with_reducible apply Same.foldlFst
    | (with_reducible refine Sub.trans hM ?_; decide)
    | intro _
    | with_reducible split

theorem State.selectorFault_same {M : Nat} {σ₀ σ : State} (hM : Sub 5295476377552 M) (hk : Same M σ₀ σ)
    (i : Nat) :
    Same M σ₀ (State.selectorFault σ i) := by
  unfold State.selectorFault
  try dsimp only
  repeat' first
    | with_reducible assumption
    | with_reducible apply State.loseCut_same
    | with_reducible apply Same.foldl
    | with_reducible apply Same.foldlFst
    | (with_reducible refine Sub.trans hM ?_; decide)
    | intro _
    | with_reducible split

theorem State.restartDrain_same {M : Nat} {σ₀ σ : State} (hM : Sub 2148007936 M) (hk : Same M σ₀ σ) :
    Same M σ₀ (State.restartDrain σ) := by
  unfold State.restartDrain
  try dsimp only
  repeat' first
    | with_reducible assumption
    | with_reducible apply State.modCut_same
    | with_reducible apply State.modUnit_same
    | with_reducible apply State.orFlags_same
    | with_reducible apply Same.foldl
    | with_reducible apply Same.foldlFst
    | (with_reducible refine Sub.trans hM ?_; decide)
    | intro _
    | with_reducible split

theorem State.restartDigest_same {M : Nat} {σ₀ σ : State} (hM : Sub 524288 M) (hk : Same M σ₀ σ) :
    Same M σ₀ (State.restartDigest σ) := by
  unfold State.restartDigest
  try dsimp only
  repeat' first
    | with_reducible assumption
    | with_reducible apply State.modCut_same
    | with_reducible apply Same.foldl
    | with_reducible apply Same.foldlFst
    | (with_reducible refine Sub.trans hM ?_; decide)
    | intro _
    | with_reducible split

theorem State.unitFault_same {M : Nat} {σ₀ σ : State} (hM : Sub 5432915331024 M) (hk : Same M σ₀ σ)
    (u : Unspared) (bad : Bool) :
    Same M σ₀ (State.unitFault σ u bad) := by
  unfold State.unitFault
  try dsimp only
  repeat' first
    | with_reducible assumption
    | with_reducible apply State.unitStrike_same
    | with_reducible apply State.haltUndressed_same
    | with_reducible apply State.selectorFault_same
    | with_reducible apply State.portDown_same
    | with_reducible apply State.restartDrain_same
    | with_reducible apply State.restartDigest_same
    | (with_reducible refine Sub.trans hM ?_; decide)
    | intro _
    | with_reducible split

end Sys2Proof.Machine
end

