-- ==== Sys2Proof/Laws/SameForeman.lean ====
section
/-! SUPPORT. Which parts of the state the operations of `Machine/Foreman.lean` may change (`Same`). -/

namespace Sys2Proof.Machine

set_option linter.all false

theorem State.startUpdate_same {M : Nat} {σ₀ σ : State} (hM : Sub 2199023255552 M) (hk : Same M σ₀ σ) :
    Same M σ₀ (State.startUpdate σ) := by
  unfold State.startUpdate
  try dsimp only
  repeat' first
    | with_reducible assumption
    | (with_reducible refine Sub.trans hM ?_; decide)
    | intro _
    | with_reducible split
    | with_reducible apply Same.set_foreman

theorem State.updateDone_same {M : Nat} {σ₀ σ : State} (hM : Sub 7696581394448 M) (hk : Same M σ₀ σ)
    (bs : List Byte) (err : Bool) :
    Same M σ₀ (State.updateDone σ bs err) := by
  unfold State.updateDone
  try dsimp only
  repeat' first
    | with_reducible assumption
    | with_reducible apply State.setEvt_same
    | with_reducible apply State.logEvt_same
    | (with_reducible refine Sub.trans hM ?_; decide)
    | intro _
    | with_reducible split
    | with_reducible apply Same.set_foreman
    | with_reducible apply Same.set_nv_foreman

theorem State.swapFw_same {M : Nat} {σ₀ σ : State} (hM : Sub 51677046505488 M) (hk : Same M σ₀ σ) :
    Same M σ₀ (State.swapFw σ) := by
  unfold State.swapFw
  try dsimp only
  repeat' first
    | with_reducible assumption
    | with_reducible apply State.restartForeman_same
    | (with_reducible refine Sub.trans hM ?_; decide)
    | intro _
    | with_reducible split

end Sys2Proof.Machine
end

