-- ==== Sys2Proof/Laws/SameLoad.lean ====
section
/-! SUPPORT. Which parts of the state the operations of `Machine/Load.lean` may change (`Same`). -/

namespace Sys2Proof.Machine

set_option linter.all false

theorem State.loadStart_same {M : Nat} {σ₀ σ : State} (hM : Sub 8224 M) (hk : Same M σ₀ σ) :
    Same M σ₀ (State.loadStart σ) := by
  unfold State.loadStart
  try dsimp only
  repeat' first
    | with_reducible assumption
    | with_reducible apply State.wake_same
    | (with_reducible refine Sub.trans hM ?_; decide)
    | intro _
    | with_reducible split
    | with_reducible apply Same.set_load

theorem State.refuseLoad_same {M : Nat} {σ₀ σ : State} (hM : Sub 4398046519312 M) (hk : Same M σ₀ σ)
    (reason : Nat) :
    Same M σ₀ (State.refuseLoad σ reason) := by
  unfold State.refuseLoad
  try dsimp only
  repeat' first
    | with_reducible assumption
    | with_reducible apply State.setEvt_same
    | with_reducible apply State.logEvt_same
    | (with_reducible refine Sub.trans hM ?_; decide)
    | intro _
    | with_reducible split
    | with_reducible apply Same.set_load

theorem State.firstRead_same {M : Nat} {σ₀ σ : State} (hM : Sub 4398046519312 M) (hk : Same M σ₀ σ)
    (bs : List Byte) (err : Bool) :
    Same M σ₀ (State.firstRead σ bs err) := by
  unfold State.firstRead
  try dsimp only
  repeat' first
    | with_reducible assumption
    | with_reducible apply State.refuseLoad_same
    | (with_reducible refine Sub.trans hM ?_; decide)
    | intro _
    | with_reducible split
    | with_reducible apply Same.set_load

theorem State.bankWaitEnd_same {M : Nat} {σ₀ σ : State} (hM : Sub 8192 M) (hk : Same M σ₀ σ) :
    Same M σ₀ (State.bankWaitEnd σ) := by
  unfold State.bankWaitEnd
  try dsimp only
  repeat' first
    | with_reducible assumption
    | (with_reducible refine Sub.trans hM ?_; decide)
    | intro _
    | with_reducible split
    | with_reducible apply Same.set_load

theorem State.releaseAll_same {M : Nat} {σ₀ σ : State} (hM : Sub 5243392 M) (hk : Same M σ₀ σ) :
    Same M σ₀ (State.releaseAll σ) := by
  unfold State.releaseAll
  try dsimp only
  repeat' first
    | with_reducible assumption
    | with_reducible apply State.resetSeam_same
    | with_reducible apply Same.foldl
    | with_reducible apply Same.foldlFst
    | (with_reducible refine Sub.trans hM ?_; decide)
    | intro _
    | with_reducible split
    | with_reducible apply Same.set_seams

theorem State.dropHalted_same {M : Nat} {σ₀ σ : State} (hM : Sub 4194816 M) (hk : Same M σ₀ σ) :
    Same M σ₀ (State.dropHalted σ) := by
  unfold State.dropHalted
  try dsimp only
  repeat' first
    | with_reducible assumption
    | with_reducible apply State.resetRegions_same
    | with_reducible apply Same.foldl
    | with_reducible apply Same.foldlFst
    | (with_reducible refine Sub.trans hM ?_; decide)
    | intro _
    | with_reducible split

theorem State.freshFace_same {M : Nat} {σ₀ σ : State} (hM : Sub 64 M) (hk : Same M σ₀ σ) (i : Image) (n : Nat) :
    Same M σ₀ (State.freshFace i σ n) := by
  unfold State.freshFace
  try dsimp only
  repeat' first
    | with_reducible assumption
    | with_reducible apply State.modFace_same
    | with_reducible apply State.writeCal_same
    | (with_reducible refine Sub.trans hM ?_; decide)
    | intro _
    | with_reducible split

theorem State.serve_same {M : Nat} {σ₀ σ : State} (hM : Sub 64 M) (hk : Same M σ₀ σ) (w n m : Nat) :
    Same M σ₀ (State.serve σ w n m) := by
  unfold State.serve
  try dsimp only
  repeat' first
    | with_reducible assumption
    | with_reducible apply State.modFace_same
    | with_reducible apply State.giveModes_same
    | (with_reducible refine Sub.trans hM ?_; decide)
    | intro _
    | with_reducible split

theorem State.seatFace_same {M : Nat} {σ₀ σ : State} (hM : Sub 137438953536 M) (hk : Same M σ₀ σ) (w : Nat)
    (n : Nat) :
    Same M σ₀ (State.seatFace w σ n) := by
  unfold State.seatFace
  try dsimp only
  repeat' first
    | with_reducible assumption
    | with_reducible apply State.modSpare_same
    | with_reducible apply State.serve_same
    | (with_reducible refine Sub.trans hM ?_; decide)
    | intro _
    | with_reducible split

theorem State.seatFaces_same {M : Nat} {σ₀ σ : State} (hM : Sub 137438953536 M) (hk : Same M σ₀ σ) :
    Same M σ₀ (State.seatFaces σ) := by
  unfold State.seatFaces
  try dsimp only
  repeat' first
    | with_reducible assumption
    | with_reducible apply State.seatFace_same
    | with_reducible apply Same.foldl
    | with_reducible apply Same.foldlFst
    | (with_reducible refine Sub.trans hM ?_; decide)
    | intro _
    | with_reducible split

theorem State.giveParts_same {M : Nat} {σ₀ σ : State} (hM : Sub 81604378624 M) (hk : Same M σ₀ σ) :
    Same M σ₀ (State.giveParts σ) := by
  unfold State.giveParts
  extract_lets s1
  have hk_s1 : Same M σ₀ s1 := by
    dsimp only [s1]
    repeat' first
      | with_reducible assumption
      | with_reducible apply State.modCross_same
      | with_reducible apply Same.foldl
      | with_reducible apply Same.foldlFst
      | (with_reducible refine Sub.trans hM ?_; decide)
      | intro _
      | with_reducible split
      | with_reducible apply Same.set_surge
      | with_reducible apply Same.set_health
  clear_value s1
  try dsimp only
  repeat' first
    | with_reducible assumption
    | with_reducible apply State.modCross_same
    | with_reducible apply Same.foldl
    | with_reducible apply Same.foldlFst
    | (with_reducible refine Sub.trans hM ?_; decide)
    | intro _
    | with_reducible split
    | with_reducible apply Same.set_surge
    | with_reducible apply Same.set_health

theorem State.bringUp_same {M : Nat} {σ₀ σ : State} (hM : Sub 4398314946608 M) (hk : Same M σ₀ σ) (p : Nat) :
    Same M σ₀ (State.bringUp σ p) := by
  unfold State.bringUp
  extract_lets s1
  have hk_s1 : Same M σ₀ s1 := by
    dsimp only [s1]
    repeat' first
      | with_reducible assumption
      | with_reducible apply State.modPort_same
      | with_reducible apply State.setClk_same
      | with_reducible apply State.setPort_same
      | with_reducible apply State.modModule_same
      | with_reducible apply State.setEvt_same
      | (with_reducible refine Sub.trans hM ?_; decide)
      | intro _
      | with_reducible split
  clear_value s1
  try dsimp only
  repeat' first
    | with_reducible assumption
    | with_reducible apply State.modPort_same
    | with_reducible apply State.setClk_same
    | with_reducible apply State.setPort_same
    | with_reducible apply State.modModule_same
    | with_reducible apply State.setEvt_same
    | (with_reducible refine Sub.trans hM ?_; decide)
    | intro _
    | with_reducible split

theorem State.clearRun_same {M : Nat} {σ₀ σ : State} (hM : Sub 141703368966528 M) (hk : Same M σ₀ σ) :
    Same M σ₀ (State.clearRun σ) := by
  unfold State.clearRun
  try dsimp only
  repeat' first
    | with_reducible assumption
    | (with_reducible refine Sub.trans hM ?_; decide)
    | intro _
    | with_reducible split
    | with_reducible apply Same.set_141703368966528

theorem State.commitWhole_same {M : Nat} {σ₀ σ : State} (hM : Sub 146183288650736 M) (hk : Same M σ₀ σ) (i : Image) :
    Same M σ₀ (State.commitWhole σ i) := by
  have h1 : Same M σ₀ σ.releaseAll.dropHalted.clearRun :=
    State.clearRun_same (hM.trans (by decide)) (State.dropHalted_same (hM.trans (by decide)) (State.releaseAll_same (hM.trans (by decide)) hk))
  unfold State.commitWhole
  generalize σ.releaseAll.dropHalted.clearRun = s1 at h1
  extract_lets s1b src s2 s3 s4 s5
  have h2 : Same M σ₀ s2 := Same.set_image_cfgDigest_load_tables_tallies_working_hoists (hM.trans (by decide)) h1
  clear_value s2
  have h3 : Same M σ₀ s3 := Same.set_refused (hM.trans (by decide)) h2
  clear_value s3
  have h4 : Same M σ₀ s4 := State.giveParts_same (hM.trans (by decide)) (State.seatFaces_same (hM.trans (by decide))
    (Same.foldl h3 (State.freshFace i) _ (fun b x hb => State.freshFace_same (hM.trans (by decide)) hb _ _)))
  clear_value s4
  exact State.logEvt_same (hM.trans (by decide)) (State.setEvt_same (hM.trans (by decide)) (State.checkDrains_same (hM.trans (by decide))
    (Same.foldl h4 _ _ (fun b x hb => State.bringUp_same (hM.trans (by decide)) hb _))) _) _ _ _

theorem State.loseImage_same {M : Nat} {σ₀ σ : State} (hM : Sub 154897777220576 M) (hk : Same M σ₀ σ) :
    Same M σ₀ (State.loseImage σ) := by
  unfold State.loseImage
  extract_lets s1
  have hk_s1 : Same M σ₀ s1 := by
    dsimp only [s1]
    repeat' first
      | with_reducible assumption
      | with_reducible apply State.closeDown_same
      | with_reducible apply State.setClk_same
      | with_reducible apply State.releaseAll_same
      | with_reducible apply State.dropHalted_same
      | with_reducible apply State.clearRun_same
      | with_reducible apply Same.foldl
      | with_reducible apply Same.foldlFst
      | (with_reducible refine Sub.trans hM ?_; decide)
      | intro _
      | with_reducible split
      | with_reducible apply Same.set_faces_image_cfgDigest_tables_working
  clear_value s1
  try dsimp only
  repeat' first
    | with_reducible assumption
    | with_reducible apply State.closeDown_same
    | with_reducible apply State.setClk_same
    | with_reducible apply State.releaseAll_same
    | with_reducible apply State.dropHalted_same
    | with_reducible apply State.clearRun_same
    | with_reducible apply Same.foldl
    | with_reducible apply Same.foldlFst
    | (with_reducible refine Sub.trans hM ?_; decide)
    | intro _
    | with_reducible split
    | with_reducible apply Same.set_faces_image_cfgDigest_tables_working

theorem State.loadCommit_same {M : Nat} {σ₀ σ : State} (hM : Sub 154979381672944 M) (hk : Same M σ₀ σ) (bs : List Byte) (err : Bool) :
    Same M σ₀ (State.loadCommit σ bs err) := by
  unfold State.loadCommit
  split
  · split
    · split
      · exact State.refuseLoad_same (hM.trans (by decide)) (State.loseImage_same (hM.trans (by decide)) hk) _
      · split
        · exact State.refuseLoad_same (hM.trans (by decide)) (State.loseImage_same (hM.trans (by decide)) hk) _
        · exact State.commitWhole_same (hM.trans (by decide)) hk _
    · exact hk
  · exact hk

theorem State.runAgain_same {M : Nat} {σ₀ σ : State} (hM : Sub 4720128 M) (hk : Same M σ₀ σ) (e : Nat) :
    Same M σ₀ (State.runAgain σ e) := by
  unfold State.runAgain
  extract_lets s1
  have hk_s1 : Same M σ₀ s1 := by
    dsimp only [s1]
    repeat' first
      | with_reducible assumption
      | with_reducible apply State.resetRegions_same
      | with_reducible apply State.modCut_same
      | with_reducible apply State.setStatus_same
      | (with_reducible refine Sub.trans hM ?_; decide)
      | intro _
      | with_reducible split
  clear_value s1
  try dsimp only
  repeat' first
    | with_reducible assumption
    | with_reducible apply State.resetRegions_same
    | with_reducible apply State.modCut_same
    | with_reducible apply State.setStatus_same
    | (with_reducible refine Sub.trans hM ?_; decide)
    | intro _
    | with_reducible split

theorem State.giveTemplates_same {M : Nat} {σ₀ σ : State} (hM : Sub 8388608 M) (hk : Same M σ₀ σ) (p : Image) :
    Same M σ₀ (State.giveTemplates σ p) := by
  unfold State.giveTemplates
  try dsimp only
  repeat' first
    | with_reducible assumption
    | with_reducible apply State.modHoist_same
    | with_reducible apply Same.foldl
    | with_reducible apply Same.foldlFst
    | (with_reducible refine Sub.trans hM ?_; decide)
    | intro _
    | with_reducible split

theorem State.rerunReplaced_same {M : Nat} {σ₀ σ : State} (hM : Sub 4720128 M) (hk : Same M σ₀ σ) (p : Image) :
    Same M σ₀ (State.rerunReplaced σ p) := by
  unfold State.rerunReplaced
  try dsimp only
  repeat' first
    | with_reducible assumption
    | with_reducible apply State.runAgain_same
    | with_reducible apply Same.foldl
    | with_reducible apply Same.foldlFst
    | (with_reducible refine Sub.trans hM ?_; decide)
    | intro _
    | with_reducible split

theorem State.dropMoves_same {M : Nat} {σ₀ σ : State} (hM : Sub 140737488355328 M) (hk : Same M σ₀ σ)
    (p : Image) (i : Image) :
    Same M σ₀ (State.dropMoves σ p i) := by
  unfold State.dropMoves
  try dsimp only
  repeat' first
    | with_reducible assumption
    | (with_reducible refine Sub.trans hM ?_; decide)
    | intro _
    | with_reducible split
    | with_reducible apply Same.set_moves

theorem State.renumber_same {M : Nat} {σ₀ σ : State} (hM : Sub 64 M) (hk : Same M σ₀ σ) :
    Same M σ₀ (State.renumber σ) := by
  unfold State.renumber
  try dsimp only
  repeat' first
    | with_reducible assumption
    | with_reducible apply State.modFace_same
    | with_reducible apply Same.foldl
    | with_reducible apply Same.foldlFst
    | (with_reducible refine Sub.trans hM ?_; decide)
    | intro _
    | with_reducible split

theorem State.unseat_same {M : Nat} {σ₀ σ : State} (hM : Sub 137438953536 M) (hk : Same M σ₀ σ) (n : Nat) :
    Same M σ₀ (State.unseat σ n) := by
  unfold State.unseat
  try dsimp only
  repeat' first
    | with_reducible assumption
    | with_reducible apply State.modFace_same
    | with_reducible apply State.modSpare_same
    | (with_reducible refine Sub.trans hM ?_; decide)
    | intro _
    | with_reducible split

theorem State.seatByFill_same {M : Nat} {σ₀ σ : State} (hM : Sub 274877907040 M) (hk : Same M σ₀ σ) (w n : Nat) :
    Same M σ₀ (State.seatByFill σ w n) := by
  unfold State.seatByFill
  try dsimp only
  repeat' first
    | with_reducible assumption
    | with_reducible apply State.startFill_same
    | (with_reducible refine Sub.trans hM ?_; decide)
    | intro _
    | with_reducible split
    | with_reducible apply Same.set_fills

theorem State.facePartition_same {M : Nat} {σ₀ σ : State} (hM : Sub 412316860512 M) (hk : Same M σ₀ σ)
    (old : Option Nat) (n : Nat) :
    Same M σ₀ (State.facePartition σ old n) := by
  unfold State.facePartition
  try dsimp only
  repeat' first
    | with_reducible assumption
    | with_reducible apply State.unseat_same
    | with_reducible apply State.seatByFill_same
    | with_reducible apply State.renumber_same
    | (with_reducible refine Sub.trans hM ?_; decide)
    | intro _
    | with_reducible split

theorem State.partialModes_same {M : Nat} {σ₀ σ : State} (hM : Sub 64 M) (hk : Same M σ₀ σ) (p : Image) :
    Same M σ₀ (State.partialModes σ p) := by
  unfold State.partialModes
  try dsimp only
  repeat' first
    | with_reducible assumption
    | with_reducible apply State.giveModes_same
    | with_reducible apply State.modFace_same
    | with_reducible apply State.writeCal_same
    | with_reducible apply Same.foldl
    | with_reducible apply Same.foldlFst
    | (with_reducible refine Sub.trans hM ?_; decide)
    | intro _
    | with_reducible split

theorem State.commitPartial_same {M : Nat} {σ₀ σ : State} (hM : Sub 145548133334640 M) (hk : Same M σ₀ σ) (p : Image) :
    Same M σ₀ (State.commitPartial σ p) := by
  unfold State.commitPartial
  extract_lets i old src s1 s2 s3 s4 s5
  have h1 : Same M σ₀ s1 := Same.set_image_cfgDigest_load_tables (hM.trans (by decide)) hk
  clear_value s1
  have h2 : Same M σ₀ s2 := Same.set_refused (hM.trans (by decide)) h1
  clear_value s2
  have h3 : Same M σ₀ s3 := State.dropMoves_same (hM.trans (by decide)) (State.partialModes_same (hM.trans (by decide)) (State.giveTemplates_same (hM.trans (by decide)) h2 _) _) _ _
  clear_value s3
  have h4 : Same M σ₀ s4 := Same.ite (State.facePartition_same (hM.trans (by decide)) h3 _ _) h3
  clear_value s4
  exact State.logEvt_same (hM.trans (by decide)) (State.setEvt_same (hM.trans (by decide)) (State.checkDrains_same (hM.trans (by decide)) (State.rerunReplaced_same (hM.trans (by decide)) h4 _)) _) _ _ _

theorem State.partialCommit_same {M : Nat} {σ₀ σ : State} (hM : Sub 145548133334640 M) (hk : Same M σ₀ σ)
    (bs : List Byte) (err : Bool) :
    Same M σ₀ (State.partialCommit σ bs err) := by
  unfold State.partialCommit
  try dsimp only
  repeat' first
    | with_reducible assumption
    | with_reducible apply State.refuseLoad_same
    | with_reducible apply State.commitPartial_same
    | (with_reducible refine Sub.trans hM ?_; decide)
    | intro _
    | with_reducible split

end Sys2Proof.Machine
end

