-- ==== Sys2Proof/Laws/SameStart.lean ====
section
/-! SUPPORT. Which parts of the state the operations of `Machine/Start.lean` may change (`Same`). -/

namespace Sys2Proof.Machine

set_option linter.all false

theorem State.openEntry_same {M : Nat} {σ₀ σ : State} (hM : Sub 525312 M) (hk : Same M σ₀ σ) (step : Nat)
    (restored : Bool) (e : Nat) :
    Same M σ₀ (State.openEntry step restored σ e) := by
  unfold State.openEntry
  try dsimp only
  repeat' first
    | with_reducible assumption
    | with_reducible apply State.modCut_same
    | with_reducible apply State.setStatus_same
    | (with_reducible refine Sub.trans hM ?_; decide)
    | intro _
    | with_reducible split

theorem State.refuseEntry_same {M : Nat} {σ₀ σ : State} (hM : Sub 5016527832592 M) (hk : Same M σ₀ σ)
    (step : Nat) (restored : Bool) (e : Nat) :
    Same M σ₀ (State.refuseEntry step restored σ e) := by
  unfold State.refuseEntry
  try dsimp only
  repeat' first
    | with_reducible assumption
    | with_reducible apply State.refuse_same
    | (with_reducible refine Sub.trans hM ?_; decide)
    | intro _
    | with_reducible split

theorem State.stepOpen_same {M : Nat} {σ₀ σ : State} (hM : Sub 5016527832592 M) (hk : Same M σ₀ σ) (w : Nat) :
    Same M σ₀ (State.stepOpen σ w) := by
  unfold State.stepOpen
  try dsimp only
  repeat' first
    | with_reducible assumption
    | with_reducible apply State.modWork_same
    | with_reducible apply State.openEntry_same
    | with_reducible apply State.refuseEntry_same
    | with_reducible apply State.tryClose_same
    | with_reducible apply Same.foldl
    | with_reducible apply Same.foldlFst
    | (with_reducible refine Sub.trans hM ?_; decide)
    | intro _
    | with_reducible split

theorem State.claimAll_same {M : Nat} {σ₀ σ : State} (hM : Sub 8912896 M) (hk : Same M σ₀ σ) (i : Image)
    (e : Nat) (r : StartReads) :
    Same M σ₀ (State.claimAll σ i e r) := by
  unfold State.claimAll
  try dsimp only
  repeat' first
    | with_reducible assumption
    | with_reducible apply State.modCut_same
    | with_reducible apply State.modHoist_same
    | with_reducible apply State.orFlags_same
    | with_reducible apply Same.foldl
    | with_reducible apply Same.foldlFst
    | (with_reducible refine Sub.trans hM ?_; decide)
    | intro _
    | with_reducible split

theorem State.startW_same {M : Nat} {σ₀ σ : State} (hM : Sub 4811480958448 M) (hk : Same M σ₀ σ) (e : Nat) :
    Same M σ₀ (State.startW σ e) := by
  unfold State.startW
  try dsimp only
  repeat' first
    | with_reducible assumption
    | with_reducible apply State.dealStart_same
    | with_reducible apply State.checkSlice_same
    | with_reducible apply Same.foldl
    | with_reducible apply Same.foldlFst
    | (with_reducible refine Sub.trans hM ?_; decide)
    | intro _
    | with_reducible split
    | with_reducible apply Same.set_seams

theorem State.sendOwn_same {M : Nat} {σ₀ σ : State} (hM : Sub 268435456 M) (hk : Same M σ₀ σ) (e : Nat)
    (a : AArea) (r : StartReads) :
    Same M σ₀ (State.sendOwn σ e a r) := by
  unfold State.sendOwn
  try dsimp only
  repeat' first
    | with_reducible assumption
    | with_reducible apply State.sendStream_same
    | (with_reducible refine Sub.trans hM ?_; decide)
    | intro _
    | with_reducible split

theorem State.startA_same {M : Nat} {σ₀ σ : State} (hM : Sub 4811752540144 M) (hk : Same M σ₀ σ) (e : Nat) (a : AArea) (r : StartReads) :
    Same M σ₀ (State.startA σ e a r) := by
  unfold State.startA
  exact State.sweepA_same (hM.trans (by decide)) (State.dealStart_same (hM.trans (by decide)) (State.sendOwn_same (hM.trans (by decide)) (Same.set_aruns (hM.trans (by decide)) hk) _ _ _) _) _

theorem State.startU_same {M : Nat} {σ₀ σ : State} (hM : Sub 4398089241744 M) (hk : Same M σ₀ σ) (e : Nat) :
    Same M σ₀ (State.startU σ e) := by
  unfold State.startU
  try dsimp only
  repeat' first
    | with_reducible assumption
    | with_reducible apply State.halt_same
    | (with_reducible refine Sub.trans hM ?_; decide)
    | intro _
    | with_reducible split

theorem State.startX_same {M : Nat} {σ₀ σ : State} (hM : Sub 2952790016 M) (hk : Same M σ₀ σ) (e : Nat)
    (x : XArea) :
    Same M σ₀ (State.startX σ e x) := by
  unfold State.startX
  try dsimp only
  repeat' first
    | with_reducible assumption
    | with_reducible apply State.modUnit_same
    | with_reducible apply State.pushTx_same
    | with_reducible apply Same.foldl
    | with_reducible apply Same.foldlFst
    | (with_reducible refine Sub.trans hM ?_; decide)
    | intro _
    | with_reducible split
    | with_reducible apply Same.set_xruns

theorem State.startV_same {M : Nat} {σ₀ σ : State} (hM : Sub 2415919104 M) (hk : Same M σ₀ σ) (e : Nat)
    (a : VArea) :
    Same M σ₀ (State.startV σ e a) := by
  unfold State.startV
  extract_lets c s1
  have hk_s1 : Same M σ₀ s1 := by
    dsimp only [s1]
    repeat' first
      | with_reducible assumption
      | with_reducible apply State.modUnit_same
      | with_reducible apply State.pushTx_same
      | (with_reducible refine Sub.trans hM ?_; decide)
      | intro _
      | with_reducible split
  clear_value s1
  try dsimp only
  repeat' first
    | with_reducible assumption
    | with_reducible apply State.modUnit_same
    | with_reducible apply State.pushTx_same
    | (with_reducible refine Sub.trans hM ?_; decide)
    | intro _
    | with_reducible split

theorem State.beginCut_same {M : Nat} {σ₀ σ : State} (hM : Sub 4814437943280 M) (hk : Same M σ₀ σ) (e : Nat)
    (r : StartReads) :
    Same M σ₀ (State.beginCut σ e r) := by
  unfold State.beginCut
  try dsimp only
  repeat' first
    | with_reducible assumption
    | with_reducible apply State.dealStart_same
    | with_reducible apply State.startW_same
    | with_reducible apply State.startA_same
    | with_reducible apply State.startU_same
    | with_reducible apply State.startX_same
    | with_reducible apply State.startV_same
    | (with_reducible refine Sub.trans hM ?_; decide)
    | intro _
    | with_reducible split

theorem State.startLost_same {M : Nat} {σ₀ σ : State} (hM : Sub 5295476377552 M) (hk : Same M σ₀ σ) (e : Nat)
    (p : Nat) :
    Same M σ₀ (State.startLost σ e p) := by
  unfold State.startLost
  extract_lets d step group msg s1
  have hk_s1 : Same M σ₀ s1 := by
    dsimp only [s1]
    repeat' first
      | with_reducible assumption
      | with_reducible apply State.sendCtl_same
      | with_reducible apply State.modCut_same
      | with_reducible apply State.endCut_same
      | with_reducible apply Same.foldl
      | with_reducible apply Same.foldlFst
      | (with_reducible refine Sub.trans hM ?_; decide)
      | intro _
      | with_reducible split
  clear_value s1
  try dsimp only
  repeat' first
    | with_reducible assumption
    | with_reducible apply State.sendCtl_same
    | with_reducible apply State.modCut_same
    | with_reducible apply State.endCut_same
    | with_reducible apply Same.foldl
    | with_reducible apply Same.foldlFst
    | (with_reducible refine Sub.trans hM ?_; decide)
    | intro _
    | with_reducible split

theorem State.awaitStart_same {M : Nat} {σ₀ σ : State} (hM : Sub 524320 M) (hk : Same M σ₀ σ) (e : Nat) :
    Same M σ₀ (State.awaitStart σ e) := by
  unfold State.awaitStart
  try dsimp only
  repeat' first
    | with_reducible assumption
    | with_reducible apply State.wakeAll_same
    | with_reducible apply State.noteHeld_same
    | (with_reducible refine Sub.trans hM ?_; decide)
    | intro _
    | with_reducible split

theorem State.cutStart_same {M : Nat} {σ₀ σ : State} (hM : Sub 5432915331056 M) (hk : Same M σ₀ σ) (e : Nat)
    (r : StartReads) :
    Same M σ₀ (State.cutStart σ e r) := by
  unfold State.cutStart
  try dsimp only
  repeat' first
    | with_reducible assumption
    | with_reducible apply State.awaitStart_same
    | with_reducible apply State.startLost_same
    | with_reducible apply State.refuse_same
    | with_reducible apply State.claimAll_same
    | with_reducible apply State.beginCut_same
    | (with_reducible refine Sub.trans hM ?_; decide)
    | intro _
    | with_reducible split

theorem State.evictionDone_same {M : Nat} {σ₀ σ : State} (hM : Sub 5432915331056 M) (hk : Same M σ₀ σ) (e : Nat)
    (r : StartReads) :
    Same M σ₀ (State.evictionDone σ e r) := by
  unfold State.evictionDone
  extract_lets s1
  have hk_s1 : Same M σ₀ s1 := by
    dsimp only [s1]
    repeat' first
      | with_reducible assumption
      | with_reducible apply State.finishEviction_same
      | with_reducible apply State.cutStart_same
      | (with_reducible refine Sub.trans hM ?_; decide)
      | intro _
      | with_reducible split
  clear_value s1
  try dsimp only
  repeat' first
    | with_reducible assumption
    | with_reducible apply State.finishEviction_same
    | with_reducible apply State.cutStart_same
    | (with_reducible refine Sub.trans hM ?_; decide)
    | intro _
    | with_reducible split

theorem State.cutEnd_same {M : Nat} {σ₀ σ : State} (hM : Sub 5295207942096 M) (hk : Same M σ₀ σ) (e : Nat) :
    Same M σ₀ (State.cutEnd σ e) := by
  unfold State.cutEnd
  extract_lets s1
  have hk_s1 : Same M σ₀ s1 := by
    dsimp only [s1]
    repeat' first
      | with_reducible assumption
      | with_reducible apply State.publish_same
      | with_reducible apply State.endStreams_same
      | with_reducible apply State.endCut_same
      | (with_reducible refine Sub.trans hM ?_; decide)
      | intro _
      | with_reducible split
  clear_value s1
  try dsimp only
  repeat' first
    | with_reducible assumption
    | with_reducible apply State.publish_same
    | with_reducible apply State.endStreams_same
    | with_reducible apply State.endCut_same
    | (with_reducible refine Sub.trans hM ?_; decide)
    | intro _
    | with_reducible split

theorem State.rerunWrite_same {M : Nat} {σ₀ σ : State} (hM : Sub 4398051231232 M) (hk : Same M σ₀ σ) (e : Nat) :
    Same M σ₀ (State.rerunWrite σ e) := by
  unfold State.rerunWrite
  try dsimp only
  repeat' first
    | with_reducible assumption
    | with_reducible apply State.runAgain_same
    | with_reducible apply State.badWrite_same
    | (with_reducible refine Sub.trans hM ?_; decide)
    | intro _
    | with_reducible split

theorem State.runWorking_same {M : Nat} {σ₀ σ : State} (hM : Sub 9176192 M) (hk : Same M σ₀ σ) (w : Nat) :
    Same M σ₀ (State.runWorking σ w) := by
  unfold State.runWorking
  try dsimp only
  repeat' first
    | with_reducible assumption
    | with_reducible apply State.modWork_same
    | with_reducible apply State.resumeWorking_same
    | (with_reducible refine Sub.trans hM ?_; decide)
    | intro _
    | with_reducible split

theorem State.stopWorking_same {M : Nat} {σ₀ σ : State} (hM : Sub 262144 M) (hk : Same M σ₀ σ) (w : Nat) :
    Same M σ₀ (State.stopWorking σ w) := by
  unfold State.stopWorking
  try dsimp only
  repeat' first
    | with_reducible assumption
    | with_reducible apply State.modWork_same
    | (with_reducible refine Sub.trans hM ?_; decide)
    | intro _
    | with_reducible split

theorem State.preemptSet_same {M : Nat} {σ₀ σ : State} (hM : Sub 42468496 M) (hk : Same M σ₀ σ) (w : Nat) :
    Same M σ₀ (State.preemptSet σ w) := by
  unfold State.preemptSet
  try dsimp only
  repeat' first
    | with_reducible assumption
    | with_reducible apply State.modGlb_same
    | with_reducible apply State.preemptWorking_same
    | (with_reducible refine Sub.trans hM ?_; decide)
    | intro _
    | with_reducible split

theorem State.preemptClear_same {M : Nat} {σ₀ σ : State} (hM : Sub 8914064 M) (hk : Same M σ₀ σ) (w : Nat) :
    Same M σ₀ (State.preemptClear σ w) := by
  unfold State.preemptClear
  try dsimp only
  repeat' first
    | with_reducible assumption
    | with_reducible apply State.modGlb_same
    | with_reducible apply State.resumeWorking_same
    | (with_reducible refine Sub.trans hM ?_; decide)
    | intro _
    | with_reducible split

end Sys2Proof.Machine
end

