-- ==== Sys2Proof/Laws/SameRegWrite.lean ====
section
/-! SUPPORT. Which parts of the state the operations of `Machine/RegWrite.lean` may change (`Same`). -/

namespace Sys2Proof.Machine

set_option linter.all false

theorem State.riskThrWrite_same {M : Nat} {σ₀ σ : State} (hM : Sub 4466765987856 M) (hk : Same M σ₀ σ) (v : Nat) :
    Same M σ₀ (State.riskThrWrite σ v) := by
  unfold State.riskThrWrite
  try dsimp only
  repeat' first
    | with_reducible assumption
    | with_reducible apply State.badWrite_same
    | with_reducible apply State.setPending_same
    | (with_reducible refine Sub.trans hM ?_; decide)
    | intro _
    | with_reducible split
    | with_reducible apply Same.set_health

theorem State.baudWrite_same {M : Nat} {σ₀ σ : State} (hM : Sub 6597069766656 M) (hk : Same M σ₀ σ) (v : Nat) :
    Same M σ₀ (State.baudWrite σ v) := by
  unfold State.baudWrite
  try dsimp only
  repeat' first
    | with_reducible assumption
    | with_reducible apply State.badWrite_same
    | (with_reducible refine Sub.trans hM ?_; decide)
    | intro _
    | with_reducible split
    | with_reducible apply Same.set_foreman

theorem State.surgeWrite_same {M : Nat} {σ₀ σ : State} (hM : Sub 4294967296 M) (hk : Same M σ₀ σ) (v : Nat) :
    Same M σ₀ (State.surgeWrite σ v) := by
  unfold State.surgeWrite
  try dsimp only
  repeat' first
    | with_reducible assumption
    | (with_reducible refine Sub.trans hM ?_; decide)
    | intro _
    | with_reducible split
    | with_reducible apply Same.set_surge

theorem State.ctlWrite_same {M : Nat} {σ₀ σ : State} (hM : Sub 559402310433776 M) (hk : Same M σ₀ σ) (v : Nat) :
    Same M σ₀ (State.ctlWrite σ v) := by
  unfold State.ctlWrite
  try dsimp only
  repeat' first
    | with_reducible assumption
    | with_reducible apply State.badWrite_same
    | with_reducible apply State.sleepWrite_same
    | with_reducible apply State.tripClear_same
    | with_reducible apply State.hostReset_same
    | with_reducible apply State.resetOver_same
    | (with_reducible refine Sub.trans hM ?_; decide)
    | intro _
    | with_reducible split

theorem State.preemptWrite_same {M : Nat} {σ₀ σ : State} (hM : Sub 42468496 M) (hk : Same M σ₀ σ) (v : Nat) :
    Same M σ₀ (State.preemptWrite σ v) := by
  unfold State.preemptWrite
  try dsimp only
  repeat' first
    | with_reducible assumption
    | with_reducible apply State.preemptSet_same
    | with_reducible apply State.preemptClear_same
    | with_reducible apply Same.foldl
    | with_reducible apply Same.foldlFst
    | (with_reducible refine Sub.trans hM ?_; decide)
    | intro _
    | with_reducible split

theorem State.glbWrite_same {M : Nat} {σ₀ σ : State} (hM : Sub 559402310434800 M) (hk : Same M σ₀ σ)
    (off v : Nat) :
    Same M σ₀ (State.glbWrite σ off v) := by
  unfold State.glbWrite
  try dsimp only
  repeat' first
    | with_reducible assumption
    | with_reducible apply State.ctlWrite_same
    | with_reducible apply State.modGlb_same
    | with_reducible apply State.preemptWrite_same
    | (with_reducible refine Sub.trans hM ?_; decide)
    | intro _
    | with_reducible split

theorem State.powerWrite_same {M : Nat} {σ₀ σ : State} (hM : Sub 4410931413056 M) (hk : Same M σ₀ σ)
    (off v : Nat) :
    Same M σ₀ (State.powerWrite σ off v) := by
  unfold State.powerWrite
  try dsimp only
  repeat' first
    | with_reducible assumption
    | with_reducible apply State.surgeWrite_same
    | with_reducible apply State.pwrFaceWrite_same
    | with_reducible apply State.crossWrite_same
    | (with_reducible refine Sub.trans hM ?_; decide)
    | intro _
    | with_reducible split

theorem State.schedWrite_same {M : Nat} {σ₀ σ : State} (hM : Sub 4398059955888 M) (hk : Same M σ₀ σ) (o v : Nat) :
    Same M σ₀ (State.schedWrite σ o v) := by
  unfold State.schedWrite
  try dsimp only
  repeat' first
    | with_reducible assumption
    | with_reducible apply State.runWorking_same
    | with_reducible apply State.stopWorking_same
    | with_reducible apply State.loadStart_same
    | with_reducible apply State.rerunWrite_same
    | with_reducible apply State.tallyAdd_same
    | (with_reducible refine Sub.trans hM ?_; decide)
    | intro _
    | with_reducible split

theorem State.slcWrite_same {M : Nat} {σ₀ σ : State} (hM : Sub 146032964732880 M) (hk : Same M σ₀ σ)
    (p o v : Nat) :
    Same M σ₀ (State.slcWrite σ p o v) := by
  unfold State.slcWrite
  try dsimp only
  repeat' first
    | with_reducible assumption
    | with_reducible apply State.flagModule_same
    | with_reducible apply State.retrain_same
    | (with_reducible refine Sub.trans hM ?_; decide)
    | intro _
    | with_reducible split

theorem State.snapWrite_same {M : Nat} {σ₀ σ : State} (hM : Sub 4947802324992 M) (hk : Same M σ₀ σ) (v : Nat) :
    Same M σ₀ (State.snapWrite σ v) := by
  unfold State.snapWrite
  try dsimp only
  repeat' first
    | with_reducible assumption
    | with_reducible apply State.startRestore_same
    | (with_reducible refine Sub.trans hM ?_; decide)
    | intro _
    | with_reducible split
    | with_reducible apply Same.set_snap

theorem State.fmnWrite_same {M : Nat} {σ₀ σ : State} (hM : Sub 51677046505488 M) (hk : Same M σ₀ σ) (o v : Nat) :
    Same M σ₀ (State.fmnWrite σ o v) := by
  unfold State.fmnWrite
  try dsimp only
  repeat' first
    | with_reducible assumption
    | with_reducible apply State.startUpdate_same
    | with_reducible apply State.swapFw_same
    | with_reducible apply State.baudWrite_same
    | (with_reducible refine Sub.trans hM ?_; decide)
    | intro _
    | with_reducible split
    | with_reducible apply Same.set_foreman

theorem State.lockedWrite_same {M : Nat} {σ₀ σ : State} (hM : Sub 4398046511120 M) (hk : Same M σ₀ σ)
    (off v : Nat) :
    Same M σ₀ (State.lockedWrite σ off v) := by
  unfold State.lockedWrite
  try dsimp only
  repeat' first
    | with_reducible assumption
    | with_reducible apply State.setEvt_same
    | with_reducible apply State.logEvt_same
    | (with_reducible refine Sub.trans hM ?_; decide)
    | intro _
    | with_reducible split

theorem State.fceWrite_same {M : Nat} {σ₀ σ : State} (hM : Sub 4398046511184 M) (hk : Same M σ₀ σ) (n o v : Nat) :
    Same M σ₀ (State.fceWrite σ n o v) := by
  unfold State.fceWrite
  try dsimp only
  repeat' first
    | with_reducible assumption
    | with_reducible apply State.modFace_same
    | with_reducible apply State.lockedWrite_same
    | with_reducible apply State.badWrite_same
    | (with_reducible refine Sub.trans hM ?_; decide)
    | intro _
    | with_reducible split

theorem State.regWrite_same {M : Nat} {σ₀ σ : State} (hM : Sub 562778154729456 M) (hk : Same M σ₀ σ) (off v : Nat) :
    Same M σ₀ (State.regWrite σ off v) := by
  unfold State.regWrite
  exact Same.ite (State.glbWrite_same (hM.trans (by decide)) hk _ _) (Same.ite (State.powerWrite_same (hM.trans (by decide)) hk _ _) (Same.ite
    (Same.ite (Same.set_yard (hM.trans (by decide)) hk) hk) (Same.ite hk (Same.ite (State.schedWrite_same (hM.trans (by decide)) hk _ _) (Same.ite hk (Same.ite
    (State.slcWrite_same (hM.trans (by decide)) hk _ _ _) (Same.ite (Same.ite (State.riskThrWrite_same (hM.trans (by decide)) hk _)
    (Same.ite (Same.set_health (hM.trans (by decide)) hk) hk)) (Same.ite (Same.ite (State.snapWrite_same (hM.trans (by decide)) hk _) hk) (Same.ite
    (State.fmnWrite_same (hM.trans (by decide)) hk _ _) (Same.ite (State.fceWrite_same (hM.trans (by decide)) hk _ _ _) hk))))))))))

theorem State.modPair_same {M : Nat} {σ₀ σ : State} (hM : Sub 17592186044416 M) (hk : Same M σ₀ σ)
    (who : Requester) (lo : Nat) (f : PairSide → PairSide) :
    Same M σ₀ (State.modPair σ who lo f) := by
  unfold State.modPair
  try dsimp only
  repeat' first
    | with_reducible assumption
    | (with_reducible refine Sub.trans hM ?_; decide)
    | intro _
    | with_reducible split
    | with_reducible apply Same.set_pairs

theorem State.setPair_same {M : Nat} {σ₀ σ : State} (hM : Sub 2748779143168 M) (hk : Same M σ₀ σ) (lo : Nat)
    (v : Nat) :
    Same M σ₀ (State.setPair σ lo v) := by
  unfold State.setPair
  try dsimp only
  repeat' first
    | with_reducible assumption
    | (with_reducible refine Sub.trans hM ?_; decide)
    | intro _
    | with_reducible split
    | with_reducible apply Same.set_load
    | with_reducible apply Same.set_tallies
    | with_reducible apply Same.set_snap
    | with_reducible apply Same.set_foreman

theorem State.stage_same {M : Nat} {σ₀ σ : State} (hM : Sub 17592186044416 M) (hk : Same M σ₀ σ)
    (who : Requester) (lo : Nat) (v : Nat) :
    Same M σ₀ (State.stage σ who lo v) := by
  unfold State.stage
  try dsimp only
  repeat' first
    | with_reducible assumption
    | with_reducible apply State.modPair_same
    | (with_reducible refine Sub.trans hM ?_; decide)
    | intro _
    | with_reducible split

theorem State.commitPair_same {M : Nat} {σ₀ σ : State} (hM : Sub 20340965187584 M) (hk : Same M σ₀ σ)
    (who : Requester) (lo : Nat) (v : Nat) :
    Same M σ₀ (State.commitPair σ who lo v) := by
  unfold State.commitPair
  try dsimp only
  repeat' first
    | with_reducible assumption
    | with_reducible apply State.setPair_same
    | with_reducible apply State.modPair_same
    | (with_reducible refine Sub.trans hM ?_; decide)
    | intro _
    | with_reducible split

theorem State.writeNow_same {M : Nat} {σ₀ σ : State} (hM : Sub 562778154729456 M) (hk : Same M σ₀ σ) (who : Requester) (off size v : Nat) :
    Same M σ₀ (State.writeNow σ who off size v) := by
  unfold State.writeNow
  split
  · split
    · exact hk
    · split
      · exact Same.ite (State.stage_same (hM.trans (by decide)) hk _ _ _) (State.commitPair_same (hM.trans (by decide)) hk _ _ _)
      · exact State.regWrite_same (hM.trans (by decide)) hk _ _
  · exact hk

theorem State.giveData_same {M : Nat} {σ₀ σ : State} (hM : Sub 35184372088832 M) (hk : Same M σ₀ σ)
    (who : Requester) (v : Nat) :
    Same M σ₀ (State.giveData σ who v) := by
  unfold State.giveData
  try dsimp only
  repeat' first
    | with_reducible assumption
    | (with_reducible refine Sub.trans hM ?_; decide)
    | intro _
    | with_reducible split
    | with_reducible apply Same.set_bus

theorem State.readNow_same {M : Nat} {σ₀ σ : State} (hM : Sub 52776558133248 M) (hk : Same M σ₀ σ)
    (who : Requester) (off : Nat) :
    Same M σ₀ (State.readNow σ who off) := by
  unfold State.readNow
  extract_lets s1
  have hk_s1 : Same M σ₀ s1 := by
    dsimp only [s1]
    repeat' first
      | with_reducible assumption
      | with_reducible apply State.giveData_same
      | with_reducible apply State.modPair_same
      | (with_reducible refine Sub.trans hM ?_; decide)
      | intro _
      | with_reducible split
  clear_value s1
  try dsimp only
  repeat' first
    | with_reducible assumption
    | with_reducible apply State.giveData_same
    | with_reducible apply State.modPair_same
    | (with_reducible refine Sub.trans hM ?_; decide)
    | intro _
    | with_reducible split

theorem State.waitAccess_same {M : Nat} {σ₀ σ : State} (hM : Sub 35184372088864 M) (hk : Same M σ₀ σ)
    (x : BusAccess) :
    Same M σ₀ (State.waitAccess σ x) := by
  unfold State.waitAccess
  try dsimp only
  repeat' first
    | with_reducible assumption
    | with_reducible apply State.wake_same
    | (with_reducible refine Sub.trans hM ?_; decide)
    | intro _
    | with_reducible split
    | with_reducible apply Same.set_bus

theorem State.busWrite_same {M : Nat} {σ₀ σ : State} (hM : Sub 562778154729456 M) (hk : Same M σ₀ σ)
    (who : Requester) (off size v : Nat) :
    Same M σ₀ (State.busWrite σ who off size v) := by
  unfold State.busWrite
  try dsimp only
  repeat' first
    | with_reducible assumption
    | with_reducible apply State.waitAccess_same
    | with_reducible apply State.writeNow_same
    | (with_reducible refine Sub.trans hM ?_; decide)
    | intro _
    | with_reducible split

theorem State.busRead_same {M : Nat} {σ₀ σ : State} (hM : Sub 52776558133280 M) (hk : Same M σ₀ σ)
    (who : Requester) (off : Nat) :
    Same M σ₀ (State.busRead σ who off) := by
  unfold State.busRead
  try dsimp only
  repeat' first
    | with_reducible assumption
    | with_reducible apply State.waitAccess_same
    | with_reducible apply State.readNow_same
    | (with_reducible refine Sub.trans hM ?_; decide)
    | intro _
    | with_reducible split

theorem State.tallyWrite_same {M : Nat} {σ₀ σ : State} (hM : Sub 285873023287344 M) (hk : Same M σ₀ σ)
    (i k : Nat) :
    Same M σ₀ (State.tallyWrite σ i k) := by
  unfold State.tallyWrite
  try dsimp only
  repeat' first
    | with_reducible assumption
    | with_reducible apply State.tallyAdd_same
    | with_reducible apply State.wake_same
    | (with_reducible refine Sub.trans hM ?_; decide)
    | intro _
    | with_reducible split
    | with_reducible apply Same.set_tallyWait

theorem State.apertureWrite_same {M : Nat} {σ₀ σ : State} (hM : Sub 285873023418416 M) (hk : Same M σ₀ σ)
    (off size v : Nat) :
    Same M σ₀ (State.apertureWrite σ off size v) := by
  unfold State.apertureWrite
  try dsimp only
  repeat' first
    | with_reducible assumption
    | with_reducible apply State.tallyWrite_same
    | (with_reducible refine Sub.trans hM ?_; decide)
    | intro _
    | with_reducible split
    | with_reducible apply Same.set_apertureErr

end Sys2Proof.Machine
end

