-- ==== Sys2Proof/Laws/SameMonitor.lean ====
section
/-! SUPPORT. Which parts of the state the operations of `Machine/Monitor.lean` may change (`Same`). -/

namespace Sys2Proof.Machine

set_option linter.all false

theorem State.modMon_same {M : Nat} {σ₀ σ : State} (hM : Sub 8796093022208 M) (hk : Same M σ₀ σ)
    (f : Monitor → Monitor) :
    Same M σ₀ (State.modMon σ f) := by
  unfold State.modMon
  try dsimp only
  repeat' first
    | with_reducible assumption
    | (with_reducible refine Sub.trans hM ?_; decide)
    | intro _
    | with_reducible split
    | with_reducible apply Same.set_monitor

theorem State.say_same {M : Nat} {σ₀ σ : State} (hM : Sub 8796093022208 M) (hk : Same M σ₀ σ) (ms : List MonOut) :
    Same M σ₀ (State.say σ ms) := by
  unfold State.say
  try dsimp only
  repeat' first
    | with_reducible assumption
    | with_reducible apply State.modMon_same
    | (with_reducible refine Sub.trans hM ?_; decide)
    | intro _
    | with_reducible split

theorem State.endCommand_same {M : Nat} {σ₀ σ : State} (hM : Sub 8796093022208 M) (hk : Same M σ₀ σ) :
    Same M σ₀ (State.endCommand σ) := by
  unfold State.endCommand
  try dsimp only
  repeat' first
    | with_reducible assumption
    | with_reducible apply State.modMon_same
    | with_reducible apply Same.foldl
    | with_reducible apply Same.foldlFst
    | (with_reducible refine Sub.trans hM ?_; decide)
    | intro _
    | with_reducible split

theorem State.markMonitor_same {M : Nat} {σ₀ σ : State} (hM : Sub 4398046511104 M) (hk : Same M σ₀ σ)
    (head : Nat) :
    Same M σ₀ (State.markMonitor σ head) := by
  unfold State.markMonitor
  try dsimp only
  repeat' first
    | with_reducible assumption
    | (with_reducible refine Sub.trans hM ?_; decide)
    | intro _
    | with_reducible split
    | with_reducible apply Same.set_log

theorem State.monitorDo_same {M : Nat} {σ₀ σ : State} (hM : Sub 13194139533312 M) (hk : Same M σ₀ σ) (i : Instr) (f : State → State)
    (hf : ∀ a, Same M σ₀ a → Same M σ₀ (f a)) : Same M σ₀ (State.monitorDo σ i f) := by
  unfold State.monitorDo
  exact Same.ite ((State.endCommand_same (hM.trans (by decide))) ((State.markMonitor_same (hM.trans (by decide))) (hf _ ((State.modMon_same (hM.trans (by decide))) hk _)) _)) hk

theorem State.answer_same {M : Nat} {σ₀ σ : State} (hM : Sub 8796093022208 M) (hk : Same M σ₀ σ) (o : MonOut) :
    Same M σ₀ (State.answer σ o) := by
  unfold State.answer
  try dsimp only
  repeat' first
    | with_reducible assumption
    | with_reducible apply State.say_same
    | (with_reducible refine Sub.trans hM ?_; decide)
    | intro _
    | with_reducible split

theorem State.logCommand_same {M : Nat} {σ₀ σ : State} (hM : Sub 4398046511104 M) (hk : Same M σ₀ σ)
    (index arg : Nat) :
    Same M σ₀ (State.logCommand σ index arg) := by
  unfold State.logCommand
  try dsimp only
  repeat' first
    | with_reducible assumption
    | with_reducible apply State.logEvt_same
    | (with_reducible refine Sub.trans hM ?_; decide)
    | intro _
    | with_reducible split

theorem State.lockedDo_same {M : Nat} {σ₀ σ : State} (hM : Sub 13194139533312 M) (hk : Same M σ₀ σ) (index arg : Nat) (error : Option Nat)
    (f : State → State) (hf : ∀ a, Same M σ₀ a → Same M σ₀ (f a)) : Same M σ₀ (State.lockedDo σ index arg error f) := by
  unfold State.lockedDo
  split
  · exact (State.answer_same (hM.trans (by decide))) hk _
  · split
    · exact (State.answer_same (hM.trans (by decide))) hk _
    · exact (State.answer_same (hM.trans (by decide))) (hf _ ((State.logCommand_same (hM.trans (by decide))) hk _ _)) _

theorem State.monitorChar_same {M : Nat} {σ₀ σ : State} (hM : Sub 8796093022208 M) (hk : Same M σ₀ σ) (c : Byte) :
    Same M σ₀ (State.monitorChar σ c) := by
  unfold State.monitorChar
  try dsimp only
  repeat' first
    | with_reducible assumption
    | with_reducible apply State.modMon_same
    | (with_reducible refine Sub.trans hM ?_; decide)
    | intro _
    | with_reducible split

theorem State.performRead_same {M : Nat} {σ₀ σ : State} (hM : Sub 61572651155456 M) (hk : Same M σ₀ σ)
    (r : MonRead) :
    Same M σ₀ (State.performRead σ r) := by
  unfold State.performRead
  try dsimp only
  repeat' first
    | with_reducible assumption
    | with_reducible apply State.readNow_same
    | with_reducible apply State.say_same
    | (with_reducible refine Sub.trans hM ?_; decide)
    | intro _
    | with_reducible split

theorem State.readsOn_same {M : Nat} {σ₀ σ : State} (hM : Sub 61572651155488 M) (hk : Same M σ₀ σ) (rs : List MonRead) : Same M σ₀ (State.readsOn rs σ) := by
  induction rs generalizing σ with
  | nil => exact (State.say_same (hM.trans (by decide))) ((State.modMon_same (hM.trans (by decide))) hk _) _
  | cons r rs ih =>
    unfold State.readsOn
    split
    · exact (State.modMon_same (hM.trans (by decide))) ((State.waitAccess_same (hM.trans (by decide))) hk _) _
    · exact ih ((State.performRead_same (hM.trans (by decide))) hk _)

theorem State.rd_same {M : Nat} {σ₀ σ : State} (hM : Sub 61572651155488 M) (hk : Same M σ₀ σ) (off n : Nat) : Same M σ₀ (State.rd σ off n) := by
  unfold State.rd
  split
  · exact (State.readsOn_same (hM.trans (by decide))) hk _
  · exact (State.answer_same (hM.trans (by decide))) hk _

theorem State.wr_same {M : Nat} {σ₀ σ : State} (hM : Sub 562778154729456 M) (hk : Same M σ₀ σ) (off v : Nat) :
    Same M σ₀ (State.wr σ off v) := by
  unfold State.wr
  split
  · exact State.answer_same (hM.trans (by decide)) hk _
  · split
    · exact State.answer_same (hM.trans (by decide)) hk _
    · exact Same.ite (State.modMon_same (hM.trans (by decide)) (State.busWrite_same (hM.trans (by decide)) (State.logCommand_same (hM.trans (by decide)) hk _ _) _ _ _ _) _)
        (State.answer_same (hM.trans (by decide)) (State.busWrite_same (hM.trans (by decide)) (State.logCommand_same (hM.trans (by decide)) hk _ _) _ _ _ _) _)

theorem State.monitorGoesOn_same {M : Nat} {σ₀ σ : State} (hM : Sub 562778154729456 M) (hk : Same M σ₀ σ) (x : BusAccess) :
    Same M σ₀ (State.monitorGoesOn σ x) := by
  unfold State.monitorGoesOn
  dsimp only
  split
  · split
    · exact State.answer_same (hM.trans (by decide)) (State.modMon_same (hM.trans (by decide)) (State.writeNow_same (hM.trans (by decide)) (State.modMon_same (hM.trans (by decide)) hk _) _ _ _ _) _) _
    · split
      · exact State.readsOn_same (hM.trans (by decide)) (State.performRead_same (hM.trans (by decide)) (State.modMon_same (hM.trans (by decide)) hk _) _) _
      · exact State.readsOn_same (hM.trans (by decide)) (State.modMon_same (hM.trans (by decide)) hk _) _
  · split
    · exact State.writeNow_same (hM.trans (by decide)) hk _ _ _ _
    · exact State.readNow_same (hM.trans (by decide)) hk _ _

theorem State.completeAccess_same {M : Nat} {σ₀ σ : State} (hM : Sub 562778154729456 M) (hk : Same M σ₀ σ) (x : BusAccess) :
    Same M σ₀ (State.completeAccess σ x) := by
  have h1 : Same M σ₀ { σ with bus := { σ.bus with waiting := σ.bus.waiting.erase x } } := Same.set_bus (hM.trans (by decide)) hk
  unfold State.completeAccess
  dsimp only
  split
  · exact Same.ite (State.writeNow_same (hM.trans (by decide)) h1 _ _ _ _) (State.readNow_same (hM.trans (by decide)) h1 _ _)
  · exact State.endCommand_same (hM.trans (by decide)) (State.markMonitor_same (hM.trans (by decide)) (State.monitorGoesOn_same (hM.trans (by decide)) h1 _) _)

theorem State.accessComplete_same {M : Nat} {σ₀ σ : State} (hM : Sub 562778154729456 M) (hk : Same M σ₀ σ)
    (t : Tile) :
    Same M σ₀ (State.accessComplete σ t) := by
  unfold State.accessComplete
  try dsimp only
  repeat' first
    | with_reducible assumption
    | with_reducible apply State.completeAccess_same
    | with_reducible apply State.wake_same
    | (with_reducible refine Sub.trans hM ?_; decide)
    | intro _
    | with_reducible split

theorem State.logCmd_same {M : Nat} {σ₀ σ : State} (hM : Sub 8796093022208 M) (hk : Same M σ₀ σ) (n : Nat)
    (seq : Option Nat) :
    Same M σ₀ (State.logCmd σ n seq) := by
  unfold State.logCmd
  try dsimp only
  repeat' first
    | with_reducible assumption
    | with_reducible apply State.say_same
    | with_reducible apply State.answer_same
    | (with_reducible refine Sub.trans hM ?_; decide)
    | intro _
    | with_reducible split

theorem State.unlock_same {M : Nat} {σ₀ σ : State} (hM : Sub 8796093022208 M) (hk : Same M σ₀ σ) (draw : Word) :
    Same M σ₀ (State.unlock σ draw) := by
  unfold State.unlock
  try dsimp only
  repeat' first
    | with_reducible assumption
    | with_reducible apply State.answer_same
    | with_reducible apply State.modMon_same
    | with_reducible apply State.say_same
    | (with_reducible refine Sub.trans hM ?_; decide)
    | intro _
    | with_reducible split

theorem State.unlockResponse_same {M : Nat} {σ₀ σ : State} (hM : Sub 8796093022208 M) (hk : Same M σ₀ σ)
    (resp : Word) :
    Same M σ₀ (State.unlockResponse σ resp) := by
  unfold State.unlockResponse
  try dsimp only
  repeat' first
    | with_reducible assumption
    | with_reducible apply State.answer_same
    | with_reducible apply State.modMon_same
    | (with_reducible refine Sub.trans hM ?_; decide)
    | intro _
    | with_reducible split

theorem State.lockSession_same {M : Nat} {σ₀ σ : State} (hM : Sub 8796093022208 M) (hk : Same M σ₀ σ) :
    Same M σ₀ (State.lockSession σ) := by
  unfold State.lockSession
  try dsimp only
  repeat' first
    | with_reducible assumption
    | with_reducible apply State.modMon_same
    | (with_reducible refine Sub.trans hM ?_; decide)
    | intro _
    | with_reducible split

theorem State.baudCmd_same {M : Nat} {σ₀ σ : State} (hM : Sub 15393162788864 M) (hk : Same M σ₀ σ) (rate : Nat) :
    Same M σ₀ (State.baudCmd σ rate) := by
  unfold State.baudCmd
  try dsimp only
  repeat' first
    | with_reducible assumption
    | with_reducible apply State.answer_same
    | with_reducible apply State.lockSession_same
    | with_reducible apply State.baudWrite_same
    | (with_reducible refine Sub.trans hM ?_; decide)
    | intro _
    | with_reducible split

theorem State.retireCmd_same {M : Nat} {σ₀ σ : State} (hM : Sub 13606499124464 M) (hk : Same M σ₀ σ) (n : Nat) :
    Same M σ₀ (State.retireCmd σ n) := by
  unfold State.retireCmd
  try dsimp only
  repeat' first
    | with_reducible assumption
    | with_reducible apply State.lockedDo_same
    | with_reducible apply State.retireFace_same
    | (with_reducible refine Sub.trans hM ?_; decide)
    | intro _
    | with_reducible split

theorem State.refillBench_same {M : Nat} {σ₀ σ : State} (hM : Sub 137438953536 M) (hk : Same M σ₀ σ) (n : Nat) :
    Same M σ₀ (State.refillBench σ n) := by
  unfold State.refillBench
  try dsimp only
  repeat' first
    | with_reducible assumption
    | with_reducible apply State.modSpare_same
    | with_reducible apply State.modFace_same
    | with_reducible apply Same.foldl
    | with_reducible apply Same.foldlFst
    | (with_reducible refine Sub.trans hM ?_; decide)
    | intro _
    | with_reducible split

theorem State.returnBench_same {M : Nat} {σ₀ σ : State} (hM : Sub 137438953536 M) (hk : Same M σ₀ σ) (n k : Nat) :
    Same M σ₀ (State.returnBench σ n k) := by
  unfold State.returnBench
  try dsimp only
  repeat' first
    | with_reducible assumption
    | with_reducible apply State.modSpare_same
    | with_reducible apply State.refillBench_same
    | (with_reducible refine Sub.trans hM ?_; decide)
    | intro _
    | with_reducible split

theorem State.refillBuffers_same {M : Nat} {σ₀ σ : State} (hM : Sub 137438953472 M) (hk : Same M σ₀ σ) :
    Same M σ₀ (State.refillBuffers σ) := by
  unfold State.refillBuffers
  try dsimp only
  repeat' first
    | with_reducible assumption
    | with_reducible apply State.modSpare_same
    | with_reducible apply Same.foldl
    | with_reducible apply Same.foldlFst
    | (with_reducible refine Sub.trans hM ?_; decide)
    | intro _
    | with_reducible split

theorem State.returnDp_same {M : Nat} {σ₀ σ : State} (hM : Sub 4537901383680 M) (hk : Same M σ₀ σ) (p : Nat) :
    Same M σ₀ (State.returnDp σ p) := by
  unfold State.returnDp
  try dsimp only
  repeat' first
    | with_reducible assumption
    | with_reducible apply State.retrain_same
    | with_reducible apply State.modUnit_same
    | with_reducible apply State.modSpare_same
    | (with_reducible refine Sub.trans hM ?_; decide)
    | intro _
    | with_reducible split

theorem State.returnUnit_same {M : Nat} {σ₀ σ : State} (hM : Sub 4812822021360 M) (hk : Same M σ₀ σ)
    (k : ReturnKind) :
    Same M σ₀ (State.returnUnit σ k) := by
  unfold State.returnUnit
  try dsimp only
  repeat' first
    | with_reducible assumption
    | with_reducible apply State.rejoin_same
    | with_reducible apply State.joinCuts_same
    | with_reducible apply State.recheckBenches_same
    | with_reducible apply State.returnBench_same
    | with_reducible apply State.modSpare_same
    | with_reducible apply State.refillBuffers_same
    | with_reducible apply State.returnDp_same
    | (with_reducible refine Sub.trans hM ?_; decide)
    | intro _
    | with_reducible split

theorem State.returnCmd_same {M : Nat} {σ₀ σ : State} (hM : Sub 13608915043568 M) (hk : Same M σ₀ σ)
    (k : ReturnKind) (passed : Bool) :
    Same M σ₀ (State.returnCmd σ k passed) := by
  unfold State.returnCmd
  try dsimp only
  repeat' first
    | with_reducible assumption
    | with_reducible apply State.lockedDo_same
    | with_reducible apply State.returnUnit_same
    | (with_reducible refine Sub.trans hM ?_; decide)
    | intro _
    | with_reducible split

theorem State.injectCmd_same {M : Nat} {σ₀ σ : State} (hM : Sub 13194139533312 M) (hk : Same M σ₀ σ)
    (k : InjectKind) :
    Same M σ₀ (State.injectCmd σ k) := by
  unfold State.injectCmd
  try dsimp only
  repeat' first
    | with_reducible assumption
    | with_reducible apply State.lockedDo_same
    | with_reducible apply State.modMon_same
    | with_reducible apply State.answer_same
    | (with_reducible refine Sub.trans hM ?_; decide)
    | intro _
    | with_reducible split

theorem State.setKey_same {M : Nat} {σ₀ σ : State} (hM : Sub 1099511627776 M) (hk : Same M σ₀ σ) (slot : Nat)
    (k : KeySlot) :
    Same M σ₀ (State.setKey σ slot k) := by
  unfold State.setKey
  try dsimp only
  repeat' first
    | with_reducible assumption
    | (with_reducible refine Sub.trans hM ?_; decide)
    | intro _
    | with_reducible split
    | with_reducible apply Same.set_nv

theorem State.keyInstall_same {M : Nat} {σ₀ σ : State} (hM : Sub 14293651161088 M) (hk : Same M σ₀ σ)
    (slot x y : Nat) :
    Same M σ₀ (State.keyInstall σ slot x y) := by
  unfold State.keyInstall
  try dsimp only
  repeat' first
    | with_reducible assumption
    | with_reducible apply State.lockedDo_same
    | with_reducible apply State.setKey_same
    | (with_reducible refine Sub.trans hM ?_; decide)
    | intro _
    | with_reducible split

theorem State.keyRevoke_same {M : Nat} {σ₀ σ : State} (hM : Sub 14293651161088 M) (hk : Same M σ₀ σ)
    (slot : Nat) :
    Same M σ₀ (State.keyRevoke σ slot) := by
  unfold State.keyRevoke
  try dsimp only
  repeat' first
    | with_reducible assumption
    | with_reducible apply State.lockedDo_same
    | with_reducible apply State.setKey_same
    | (with_reducible refine Sub.trans hM ?_; decide)
    | intro _
    | with_reducible split

theorem State.fwSwapCmd_same {M : Nat} {σ₀ σ : State} (hM : Sub 51677046505488 M) (hk : Same M σ₀ σ) :
    Same M σ₀ (State.fwSwapCmd σ) := by
  unfold State.fwSwapCmd
  try dsimp only
  repeat' first
    | with_reducible assumption
    | with_reducible apply State.answer_same
    | with_reducible apply State.logCommand_same
    | with_reducible apply State.swapFw_same
    | (with_reducible refine Sub.trans hM ?_; decide)
    | intro _
    | with_reducible split

theorem State.testDrain_same {M : Nat} {σ₀ σ : State} (hM : Sub 549798282368 M) (hk : Same M σ₀ σ) :
    Same M σ₀ (State.testDrain σ) := by
  unfold State.testDrain
  try dsimp only
  repeat' first
    | with_reducible assumption
    | with_reducible apply State.preemptWorking_same
    | with_reducible apply Same.foldl
    | with_reducible apply Same.foldlFst
    | (with_reducible refine Sub.trans hM ?_; decide)
    | intro _
    | with_reducible split
    | with_reducible apply Same.set_snap

theorem State.snapDrain_same {M : Nat} {σ₀ σ : State} (hM : Sub 13743937815680 M) (hk : Same M σ₀ σ) :
    Same M σ₀ (State.snapDrain σ) := by
  unfold State.snapDrain
  try dsimp only
  repeat' first
    | with_reducible assumption
    | with_reducible apply State.lockedDo_same
    | with_reducible apply State.testDrain_same
    | (with_reducible refine Sub.trans hM ?_; decide)
    | intro _
    | with_reducible split

end Sys2Proof.Machine
end

