-- ==== Sys2Proof/Laws/SameExec.lean ====
section
/-! SUPPORT. Which parts of the state each command may change (`Same`). -/

namespace Sys2Proof.Machine

set_option linter.all false

/-- A command that runs while the engine has its supplies changes what its effect changes. -/
theorem State.on_same {m : Nat} {s t : State} {f : State → State} (h : s.on f = .next t) (k : Same m s (f s)) :
    Same m s t := by
  unfold State.on at h
  injection h with h
  subst h
  exact Same.ite k (Same.refl m s)

theorem State.coldReset_same (s : State) (x : Supply) (c b : Nat) : Same 561850441792508 s (s.coldReset x c b) := by
  refine ⟨fun p hp => ?_⟩
  cases p <;> first | rfl | exact absurd hp (by decide)

theorem execStationaryLoadFull_same (f : Fin 72) (b : Fin 4) (tag : Nat) (load : StatLoad) {s t : State}
    (h : execStationaryLoadFull f b tag load s = .next t) : Same 34080192 s t := by
  refine State.on_same h ?_
  have hk := Same.refl 34080192 s
  have hM := Sub.refl 34080192
  try dsimp only
  repeat' first
    | with_reducible assumption
    | with_reducible apply State.loadFull_same
    | (with_reducible refine Sub.trans hM ?_; decide)
    | intro _
    | with_reducible split

theorem execScaleUnitDone_same (f : Fin 72) (b : Fin 4) (preamble : List (List Nat)) {s t : State}
    (h : execScaleUnitDone f b preamble s = .next t) : Same 525760 s t := by
  refine State.on_same h ?_
  have hk := Same.refl 525760 s
  have hM := Sub.refl 525760
  try dsimp only
  repeat' first
    | with_reducible assumption
    | with_reducible apply State.scaleDone_same
    | (with_reducible refine Sub.trans hM ?_; decide)
    | intro _
    | with_reducible split

theorem execPassBoundary_same (f : Fin 72) (b : Fin 4) (shared : List (List Nat)) (errors : List PassError)
    (frozen : List (Fin 6 × Nat)) {s t : State}
    (h : execPassBoundary f b shared errors frozen s = .next t) : Same 8796135491010 s t := by
  refine State.on_same h ?_
  have hk := Same.refl 8796135491010 s
  have hM := Sub.refl 8796135491010
  try dsimp only
  repeat' first
    | with_reducible assumption
    | with_reducible apply State.passBoundary_same
    | (with_reducible refine Sub.trans hM ?_; decide)
    | intro _
    | with_reducible split

theorem execCheckEnd_same (f : Fin 72) (b : Fin 4) {s t : State}
    (h : execCheckEnd f b s = .next t) : Same 4879125579248 s t := by
  refine State.on_same h ?_
  have hk := Same.refl 4879125579248 s
  have hM := Sub.refl 4879125579248
  try dsimp only
  repeat' first
    | with_reducible assumption
    | with_reducible apply State.checkEnd_same
    | (with_reducible refine Sub.trans hM ?_; decide)
    | intro _
    | with_reducible split

theorem execContextSaveDone_same (f : Fin 72) (b : Fin 4) (shared : List (List Nat))
    (group pocket : Nat) {s t : State}
    (h : execContextSaveDone f b shared group pocket s = .next t) : Same 4672967149264 s t := by
  refine State.on_same h ?_
  have hk := Same.refl 4672967149264 s
  have hM := Sub.refl 4672967149264
  try dsimp only
  repeat' first
    | with_reducible assumption
    | with_reducible apply State.contextSave_same
    | (with_reducible refine Sub.trans hM ?_; decide)
    | intro _
    | with_reducible split

theorem execContextRestoreDone_same (f : Fin 72) (b : Fin 4) (active idle : StatLoad) (preamble : List
    (List Nat)) {s t : State}
    (h : execContextRestoreDone f b active idle preamble s = .next t) : Same 128 s t := by
  refine State.on_same h ?_
  have hk := Same.refl 128 s
  have hM := Sub.refl 128
  try dsimp only
  repeat' first
    | with_reducible assumption
    | with_reducible apply State.contextRestore_same
    | (with_reducible refine Sub.trans hM ?_; decide)
    | intro _
    | with_reducible split

theorem execTreeCombination_same (e : Fin 4096) (slice level rank : Nat) {s t : State}
    (h : execTreeCombination e slice level rank s = .next t) : Same 4398051295760 s t := by
  refine State.on_same h ?_
  have hk := Same.refl 4398051295760 s
  have hM := Sub.refl 4398051295760
  try dsimp only
  repeat' first
    | with_reducible assumption
    | with_reducible apply State.treeStep_same
    | (with_reducible refine Sub.trans hM ?_; decide)
    | intro _
    | with_reducible split

theorem execInitialFoldDone_same (e : Fin 4096) (slice : Nat) (values : List (List Nat)) {s t : State}
    (h : execInitialFoldDone e slice values s = .next t) : Same 4398051295760 s t := by
  refine State.on_same h ?_
  have hk := Same.refl 4398051295760 s
  have hM := Sub.refl 4398051295760
  try dsimp only
  repeat' first
    | with_reducible assumption
    | with_reducible apply State.initialFold_same
    | (with_reducible refine Sub.trans hM ?_; decide)
    | intro _
    | with_reducible split

theorem execHoistClaim_same (h : Fin 128) (lines : List LinePoint) {s t : State}
    (h : execHoistClaim h lines s = .next t) : Same 8389120 s t := by
  refine State.on_same h ?_
  have hk := Same.refl 8389120 s
  have hM := Sub.refl 8389120
  try dsimp only
  repeat' first
    | with_reducible assumption
    | with_reducible apply State.claim_same
    | (with_reducible refine Sub.trans hM ?_; decide)
    | intro _
    | with_reducible split

theorem execFabricReadReturn_same (h : Fin 128) (seq : Nat) (data : List Byte) {s t : State}
    (h : execFabricReadReturn h seq data s = .next t) : Same 8914432 s t := by
  refine State.on_same h ?_
  have hk := Same.refl 8914432 s
  have hM := Sub.refl 8914432
  try dsimp only
  repeat' first
    | with_reducible assumption
    | with_reducible apply State.readReturn_same
    | (with_reducible refine Sub.trans hM ?_; decide)
    | intro _
    | with_reducible split

theorem execFabricReadError_same (h : Fin 128) (seq : Nat) {s t : State}
    (h : execFabricReadError h seq s = .next t) : Same 4398089242064 s t := by
  refine State.on_same h ?_
  have hk := Same.refl 4398089242064 s
  have hM := Sub.refl 4398089242064
  try dsimp only
  repeat' first
    | with_reducible assumption
    | with_reducible apply State.readError_same
    | (with_reducible refine Sub.trans hM ?_; decide)
    | intro _
    | with_reducible split

theorem execFabricWriteAck_same (h : Fin 128) {s t : State}
    (h : execFabricWriteAck h s = .next t) : Same 4398055490576 s t := by
  refine State.on_same h ?_
  have hk := Same.refl 4398055490576 s
  have hM := Sub.refl 4398055490576
  try dsimp only
  repeat' first
    | with_reducible assumption
    | with_reducible apply State.writeAck_same
    | (with_reducible refine Sub.trans hM ?_; decide)
    | intro _
    | with_reducible split

theorem execFabricWriteError_same (h : Fin 128) {s t : State}
    (h : execFabricWriteError h s = .next t) : Same 4398090290322 s t := by
  refine State.on_same h ?_
  have hk := Same.refl 4398090290322 s
  have hM := Sub.refl 4398090290322
  try dsimp only
  repeat' first
    | with_reducible assumption
    | with_reducible apply State.writeError_same
    | (with_reducible refine Sub.trans hM ?_; decide)
    | intro _
    | with_reducible split

theorem execReceiverTake_same (h : Fin 128) (r : Fin 16) {s t : State}
    (h : execReceiverTake h r s = .next t) : Same 8388608 s t := by
  refine State.on_same h ?_
  have hk := Same.refl 8388608 s
  have hM := Sub.refl 8388608
  try dsimp only
  repeat' first
    | with_reducible assumption
    | with_reducible apply State.receiverTake_same
    | (with_reducible refine Sub.trans hM ?_; decide)
    | intro _
    | with_reducible split

theorem execDetach_same (h : Fin 128) {s t : State}
    (h : execDetach h s = .next t) : Same 4398055424000 s t := by
  refine State.on_same h ?_
  have hk := Same.refl 4398055424000 s
  have hM := Sub.refl 4398055424000
  try dsimp only
  repeat' first
    | with_reducible assumption
    | with_reducible apply State.detach_same
    | (with_reducible refine Sub.trans hM ?_; decide)
    | intro _
    | with_reducible split

theorem execStreamEnd_same (h : Fin 128) {s t : State}
    (h : execStreamEnd h s = .next t) : Same 4398054965264 s t := by
  refine State.on_same h ?_
  have hk := Same.refl 4398054965264 s
  have hM := Sub.refl 4398054965264
  try dsimp only
  repeat' first
    | with_reducible assumption
    | with_reducible apply State.streamEnd_same
    | (with_reducible refine Sub.trans hM ?_; decide)
    | intro _
    | with_reducible split

theorem execSpillPark_same (h : Fin 128) (data : List Byte) {s t : State}
    (h : execSpillPark h data s = .next t) : Same 8388608 s t := by
  refine State.on_same h ?_
  have hk := Same.refl 8388608 s
  have hM := Sub.refl 8388608
  try dsimp only
  repeat' first
    | with_reducible assumption
    | with_reducible apply State.spillPark_same
    | (with_reducible refine Sub.trans hM ?_; decide)
    | intro _
    | with_reducible split

theorem execSpillReadback_same (h : Fin 128) {s t : State}
    (h : execSpillReadback h s = .next t) : Same 8389120 s t := by
  refine State.on_same h ?_
  have hk := Same.refl 8389120 s
  have hM := Sub.refl 8389120
  try dsimp only
  repeat' first
    | with_reducible assumption
    | with_reducible apply State.spillReadback_same
    | (with_reducible refine Sub.trans hM ?_; decide)
    | intro _
    | with_reducible split

theorem execStockpileEccError_same (h : Fin 128) (uncorrectable : Bool) {s t : State}
    (h : execStockpileEccError h uncorrectable s = .next t) : Same 9962944 s t := by
  refine State.on_same h ?_
  have hk := Same.refl 9962944 s
  have hM := Sub.refl 9962944
  try dsimp only
  repeat' first
    | with_reducible assumption
    | with_reducible apply State.stockpileError_same
    | with_reducible apply State.uncorrectable_same
    | (with_reducible refine Sub.trans hM ?_; decide)
    | intro _
    | with_reducible split

theorem execTpbFault_same (j : Fin 8) {s t : State}
    (h : execTpbFault j s = .next t) : Same 13331637994992 s t := by
  refine State.on_same h ?_
  have hk := Same.refl 13331637994992 s
  have hM := Sub.refl 13331637994992
  try dsimp only
  repeat' first
    | with_reducible assumption
    | with_reducible apply State.tpbFault_same
    | (with_reducible refine Sub.trans hM ?_; decide)
    | intro _
    | with_reducible split

theorem execTileLoadDone_same (buf : Fin 6) (stream : TileStream) (fmt : Fin 4) (cut : Fin 4096) (rows scales : List (List Nat)) (stalls : List (Fin 4 × Nat)) {s t : State}
    (h : execTileLoadDone buf stream fmt cut rows scales stalls s = .next t) : Same 13331637994992 s t := by
  refine State.on_same h ?_
  have hk := Same.refl 13331637994992 s
  have hM := Sub.refl 13331637994992
  try dsimp only
  repeat' first
    | with_reducible assumption
    | with_reducible apply State.tileLoadAny_same
    | (with_reducible refine Sub.trans hM ?_; decide)
    | intro _
    | with_reducible split

theorem execReadoutDone_same (f : Fin 72) (b : Fin 4) (elems : List ReadElem) {s t : State}
    (h : execReadoutDone f b elems s = .next t) : Same 4398059685392 s t := by
  refine State.on_same h ?_
  have hk := Same.refl 4398059685392 s
  have hM := Sub.refl 4398059685392
  try dsimp only
  repeat' first
    | with_reducible assumption
    | with_reducible apply State.readout_same
    | (with_reducible refine Sub.trans hM ?_; decide)
    | intro _
    | with_reducible split

theorem execTableParityError_same (f : Fin 72) {s t : State}
    (h : execTableParityError f s = .next t) : Same 4810540319984 s t := by
  refine State.on_same h ?_
  have hk := Same.refl 4810540319984 s
  have hM := Sub.refl 4810540319984
  try dsimp only
  repeat' first
    | with_reducible assumption
    | with_reducible apply State.tableParity_same
    | (with_reducible refine Sub.trans hM ?_; decide)
    | intro _
    | with_reducible split

theorem execEvictionStart_same (e : Fin 4096) {s t : State}
    (h : execEvictionStart e s = .next t) : Same 9961472 s t := by
  refine State.on_same h ?_
  have hk := Same.refl 9961472 s
  have hM := Sub.refl 9961472
  try dsimp only
  repeat' first
    | with_reducible assumption
    | with_reducible apply State.evictionStart_same
    | (with_reducible refine Sub.trans hM ?_; decide)
    | intro _
    | with_reducible split

theorem execKilnResult_same (f : Fin 72) (b : Fin 4) (lane : Fin 512) (pocket : Fin 16)
    (pair : KilnPair) {s t : State}
    (h : execKilnResult f b lane pocket pair s = .next t) : Same 13606566234096 s t := by
  refine State.on_same h ?_
  have hk := Same.refl 13606566234096 s
  have hM := Sub.refl 13606566234096
  try dsimp only
  repeat' first
    | with_reducible assumption
    | with_reducible apply State.kilnResultAny_same
    | (with_reducible refine Sub.trans hM ?_; decide)
    | intro _
    | with_reducible split

theorem execKilnDrainDone_same (f : Fin 72) (b : Fin 4) {s t : State}
    (h : execKilnDrainDone f b s = .next t) : Same 525760 s t := by
  refine State.on_same h ?_
  have hk := Same.refl 525760 s
  have hM := Sub.refl 525760
  try dsimp only
  repeat' first
    | with_reducible assumption
    | with_reducible apply State.kilnDrain_same
    | (with_reducible refine Sub.trans hM ?_; decide)
    | intro _
    | with_reducible split

theorem execFold_same (f : Fin 72) (b : Fin 4) {s t : State}
    (h : execFold f b s = .next t) : Same 4399401863120 s t := by
  refine State.on_same h ?_
  have hk := Same.refl 4399401863120 s
  have hM := Sub.refl 4399401863120
  try dsimp only
  repeat' first
    | with_reducible assumption
    | with_reducible apply State.foldAny_same
    | (with_reducible refine Sub.trans hM ?_; decide)
    | intro _
    | with_reducible split

theorem execDeltaMakeDone_same (e : Fin 4096) (row : Nat) (queries : List DeltaQuery) {s t : State}
    (h : execDeltaMakeDone e row queries s = .next t) : Same 1082656704 s t := by
  refine State.on_same h ?_
  have hk := Same.refl 1082656704 s
  have hM := Sub.refl 1082656704
  try dsimp only
  repeat' first
    | with_reducible assumption
    | with_reducible apply State.deltaMade_same
    | (with_reducible refine Sub.trans hM ?_; decide)
    | intro _
    | with_reducible split

theorem execPageCopy_same (e : Fin 4096) (page : Nat) (data : List Byte) (waited : Nat) {s t : State}
    (h : execPageCopy e page data waited s = .next t) : Same 1082656192 s t := by
  refine State.on_same h ?_
  have hk := Same.refl 1082656192 s
  have hM := Sub.refl 1082656192
  try dsimp only
  repeat' first
    | with_reducible assumption
    | with_reducible apply State.pageCopy_same
    | (with_reducible refine Sub.trans hM ?_; decide)
    | intro _
    | with_reducible split

theorem execRingBlockArrive_same (e : Fin 4096) (header data : List Byte) {s t : State}
    (h : execRingBlockArrive e header data s = .next t) : Same 5295476377552 s t := by
  refine State.on_same h ?_
  have hk := Same.refl 5295476377552 s
  have hM := Sub.refl 5295476377552
  try dsimp only
  repeat' first
    | with_reducible assumption
    | with_reducible apply State.ringBlock_same
    | (with_reducible refine Sub.trans hM ?_; decide)
    | intro _
    | with_reducible split

theorem execRingPartialArrive_same (e : Fin 4096) (round tile : Nat) (values : List (List Nat)) {s t : State}
    (h : execRingPartialArrive e round tile values s = .next t) : Same 4399401863120 s t := by
  refine State.on_same h ?_
  have hk := Same.refl 4399401863120 s
  have hM := Sub.refl 4399401863120
  try dsimp only
  repeat' first
    | with_reducible assumption
    | with_reducible apply State.ringPartial_same
    | (with_reducible refine Sub.trans hM ?_; decide)
    | intro _
    | with_reducible split

theorem execKilnParityError_same (f : Fin 72) {s t : State}
    (h : execKilnParityError f s = .next t) : Same 13606566233584 s t := by
  refine State.on_same h ?_
  have hk := Same.refl 13606566233584 s
  have hM := Sub.refl 13606566233584
  try dsimp only
  repeat' first
    | with_reducible assumption
    | with_reducible apply State.kilnParity_same
    | (with_reducible refine Sub.trans hM ?_; decide)
    | intro _
    | with_reducible split

theorem execPowerOn_same {s t : State}
    (h : execPowerOn s = .next t) : Same 561850441792508 s t := by
  unfold execPowerOn at h
  injection h with h
  subst h
  exact State.coldReset_same _ _ _ _

theorem execClockLoss_same {s t : State}
    (h : execClockLoss s = .next t) : Same 561850441792508 s t := by
  unfold execClockLoss at h
  injection h with h
  subst h
  exact Same.ite (State.coldReset_same _ _ _ _) (Same.refl _ _)

theorem execAlwaysOnRailLoss_same {s t : State}
    (h : execAlwaysOnRailLoss s = .next t) : Same 561850441792508 s t := by
  unfold execAlwaysOnRailLoss at h
  injection h with h
  subst h
  exact State.coldReset_same _ _ _ _

theorem execNightClockPresent_same {s t : State}
    (h : execNightClockPresent s = .next t) : Same 561850441792508 s t := by
  unfold execNightClockPresent at h
  injection h with h
  subst h
  exact Same.ite (State.coldReset_same _ _ _ _) (Same.refl _ _)

theorem execBootRomDone_same (damagedA damagedB : Bool) {s t : State}
    (h : execBootRomDone damagedA damagedB s = .next t) : Same 6597069766672 s t := by
  refine State.on_same h ?_
  have hk := Same.refl 6597069766672 s
  have hM := Sub.refl 6597069766672
  try dsimp only
  repeat' first
    | with_reducible assumption
    | with_reducible apply State.bootRom_same
    | (with_reducible refine Sub.trans hM ?_; decide)
    | intro _
    | with_reducible split

theorem execBootRestoreDone_same (modules : List (Fin 4 × List Byte)) {s t : State}
    (h : execBootRestoreDone modules s = .next t) : Same 4542196351088 s t := by
  refine State.on_same h ?_
  have hk := Same.refl 4542196351088 s
  have hM := Sub.refl 4542196351088
  try dsimp only
  repeat' first
    | with_reducible assumption
    | with_reducible apply State.bootRestore_same
    | (with_reducible refine Sub.trans hM ?_; decide)
    | intro _
    | with_reducible split

theorem execBootYardDone_same (failed : List (Fin 288)) {s t : State}
    (h : execBootYardDone failed s = .next t) : Same 4535485465136 s t := by
  refine State.on_same h ?_
  have hk := Same.refl 4535485465136 s
  have hM := Sub.refl 4535485465136
  try dsimp only
  repeat' first
    | with_reducible assumption
    | with_reducible apply State.bootYard_same
    | (with_reducible refine Sub.trans hM ?_; decide)
    | intro _
    | with_reducible split

theorem execBootStockpileDone_same (failed : List Nat) {s t : State}
    (h : execBootStockpileDone failed s = .next t) : Same 6597069766672 s t := by
  refine State.on_same h ?_
  have hk := Same.refl 6597069766672 s
  have hM := Sub.refl 6597069766672
  try dsimp only
  repeat' first
    | with_reducible assumption
    | with_reducible apply State.bootStockpile_same
    | (with_reducible refine Sub.trans hM ?_; decide)
    | intro _
    | with_reducible split

theorem execBootFaceGroupDone_same (results : List FaceTest) {s t : State}
    (h : execBootFaceGroupDone results s = .next t) : Same 7009429357808 s t := by
  refine State.on_same h ?_
  have hk := Same.refl 7009429357808 s
  have hM := Sub.refl 7009429357808
  try dsimp only
  repeat' first
    | with_reducible assumption
    | with_reducible apply State.bootFaces_same
    | (with_reducible refine Sub.trans hM ?_; decide)
    | intro _
    | with_reducible split

theorem execBootUnitsDone_same (result : UnitTest) {s t : State}
    (h : execBootUnitsDone result s = .next t) : Same 4537666502704 s t := by
  refine State.on_same h ?_
  have hk := Same.refl 4537666502704 s
  have hM := Sub.refl 4537666502704
  try dsimp only
  repeat' first
    | with_reducible assumption
    | with_reducible apply State.bootUnits_same
    | (with_reducible refine Sub.trans hM ?_; decide)
    | intro _
    | with_reducible split

theorem execFirmwareReportsHealthy_same {s t : State}
    (h : execFirmwareReportsHealthy s = .next t) : Same 2199023255568 s t := by
  refine State.on_same h ?_
  have hk := Same.refl 2199023255568 s
  have hM := Sub.refl 2199023255568
  try dsimp only
  repeat' first
    | with_reducible assumption
    | with_reducible apply State.checkReady_same
    | (with_reducible refine Sub.trans hM ?_; decide)
    | intro _
    | with_reducible split
    | with_reducible apply Same.set_foreman

theorem execWatchdogRevert_same {s t : State}
    (h : execWatchdogRevert s = .next t) : Same 51677046505488 s t := by
  refine State.on_same h ?_
  have hk := Same.refl 51677046505488 s
  have hM := Sub.refl 51677046505488
  try dsimp only
  repeat' first
    | with_reducible assumption
    | with_reducible apply State.restartForeman_same
    | with_reducible apply State.logEvt_same
    | (with_reducible refine Sub.trans hM ?_; decide)
    | intro _
    | with_reducible split

theorem execWatchdogRestart_same {s t : State}
    (h : execWatchdogRestart s = .next t) : Same 51677046505488 s t := by
  refine State.on_same h ?_
  have hk := Same.refl 51677046505488 s
  have hM := Sub.refl 51677046505488
  try dsimp only
  repeat' first
    | with_reducible assumption
    | with_reducible apply State.restartForeman_same
    | (with_reducible refine Sub.trans hM ?_; decide)
    | intro _
    | with_reducible split
    | with_reducible apply Same.set_foreman

theorem execForemanRestartDone_same {s t : State}
    (h : execForemanRestartDone s = .next t) : Same 15393162788880 s t := by
  refine State.on_same h ?_
  have hk := Same.refl 15393162788880 s
  have hM := Sub.refl 15393162788880
  try dsimp only
  repeat' first
    | with_reducible assumption
    | with_reducible apply State.setEvt_same
    | with_reducible apply State.logEvt_same
    | (with_reducible refine Sub.trans hM ?_; decide)
    | intro _
    | with_reducible split
    | with_reducible apply Same.set_foreman_monitor

theorem execSlabDone_same (e : Fin 4096) (d : Fin 4) (slab : Nat) (elems : List DressElem) {s t : State}
    (h : execSlabDone e d slab elems s = .next t) : Same 4949958787088 s t := by
  refine State.on_same h ?_
  have hk := Same.refl 4949958787088 s
  have hM := Sub.refl 4949958787088
  try dsimp only
  repeat' first
    | with_reducible assumption
    | with_reducible apply State.slabDone_same
    | (with_reducible refine Sub.trans hM ?_; decide)
    | intro _
    | with_reducible split

theorem execSlabFault_same (e : Fin 4096) (d : Fin 4) (slab : Nat) (dresserFault : Bool) {s t : State}
    (h : execSlabFault e d slab dresserFault s = .next t) : Same 4537675678864 s t := by
  refine State.on_same h ?_
  have hk := Same.refl 4537675678864 s
  have hM := Sub.refl 4537675678864
  try dsimp only
  repeat' first
    | with_reducible assumption
    | with_reducible apply State.slabFault_same
    | (with_reducible refine Sub.trans hM ?_; decide)
    | intro _
    | with_reducible split

theorem execDrainWaitEnd_same (e : Fin 4096) (slab : Nat) {s t : State}
    (h : execDrainWaitEnd e slab s = .next t) : Same 4950495658000 s t := by
  refine State.on_same h ?_
  have hk := Same.refl 4950495658000 s
  have hM := Sub.refl 4950495658000
  try dsimp only
  repeat' first
    | with_reducible assumption
    | with_reducible apply State.drainWaitEnd_same
    | (with_reducible refine Sub.trans hM ?_; decide)
    | intro _
    | with_reducible split

theorem execSelectorSlab_same (e : Fin 4096) (slab : Nat) (evicted : List Nat) {s t : State}
    (h : execSelectorSlab e slab evicted s = .next t) : Same 552717516800 s t := by
  refine State.on_same h ?_
  have hk := Same.refl 552717516800 s
  have hM := Sub.refl 552717516800
  try dsimp only
  repeat' first
    | with_reducible assumption
    | with_reducible apply State.selectorSlab_same
    | (with_reducible refine Sub.trans hM ?_; decide)
    | intro _
    | with_reducible split

theorem execMergeSlabComplete_same (e : Fin 4096) (slab : Nat) {s t : State}
    (h : execMergeSlabComplete e slab s = .next t) : Same 550570033152 s t := by
  refine State.on_same h ?_
  have hk := Same.refl 550570033152 s
  have hM := Sub.refl 550570033152
  try dsimp only
  repeat' first
    | with_reducible assumption
    | with_reducible apply State.mergeComplete_same
    | (with_reducible refine Sub.trans hM ?_; decide)
    | intro _
    | with_reducible split

theorem execResultDeliver_same (e : Fin 4096) (slab : Nat) {s t : State}
    (h : execResultDeliver e slab s = .next t) : Same 4398860796432 s t := by
  refine State.on_same h ?_
  have hk := Same.refl 4398860796432 s
  have hM := Sub.refl 4398860796432
  try dsimp only
  repeat' first
    | with_reducible assumption
    | with_reducible apply State.resultDeliver_same
    | (with_reducible refine Sub.trans hM ?_; decide)
    | intro _
    | with_reducible split

theorem execRetryRepeat_same (p : Fin 4) {s t : State}
    (h : execRetryRepeat p s = .next t) : Same 268435456 s t := by
  refine State.on_same h ?_
  have hk := Same.refl 268435456 s
  have hM := Sub.refl 268435456
  try dsimp only
  repeat' first
    | with_reducible assumption
    | with_reducible apply State.retryRepeat_same
    | (with_reducible refine Sub.trans hM ?_; decide)
    | intro _
    | with_reducible split

theorem execFrameSend_same (p : Fin 4) {s t : State}
    (h : execFrameSend p s = .next t) : Same 13264214362064 s t := by
  refine State.on_same h ?_
  have hk := Same.refl 13264214362064 s
  have hM := Sub.refl 13264214362064
  try dsimp only
  repeat' first
    | with_reducible assumption
    | with_reducible apply State.frameSend_same
    | (with_reducible refine Sub.trans hM ?_; decide)
    | intro _
    | with_reducible split

theorem execFrameReceive_same (p : Fin 4) (bytes : List Byte) {s t : State}
    (h : execFrameReceive p bytes s = .next t) : Same 4467571818512 s t := by
  refine State.on_same h ?_
  have hk := Same.refl 4467571818512 s
  have hM := Sub.refl 4467571818512
  try dsimp only
  repeat' first
    | with_reducible assumption
    | with_reducible apply State.frameReceive_same
    | (with_reducible refine Sub.trans hM ?_; decide)
    | intro _
    | with_reducible split

theorem execRetrainDone_same (p : Fin 4) (ok : Bool) {s t : State}
    (h : execRetrainDone p ok s = .next t) : Same 5295476377552 s t := by
  refine State.on_same h ?_
  have hk := Same.refl 5295476377552 s
  have hM := Sub.refl 5295476377552
  try dsimp only
  repeat' first
    | with_reducible assumption
    | with_reducible apply State.retrainDone_same
    | (with_reducible refine Sub.trans hM ?_; decide)
    | intro _
    | with_reducible split

theorem execPortDown_same (p : Fin 4) {s t : State}
    (h : execPortDown p s = .next t) : Same 5295476377552 s t := by
  refine State.on_same h ?_
  have hk := Same.refl 5295476377552 s
  have hM := Sub.refl 5295476377552
  try dsimp only
  repeat' first
    | with_reducible assumption
    | with_reducible apply State.portDown_same
    | (with_reducible refine Sub.trans hM ?_; decide)
    | intro _
    | with_reducible split

theorem execSlcCfgRetrain_same (p : Fin 4) {s t : State}
    (h : execSlcCfgRetrain p s = .next t) : Same 4398314946560 s t := by
  refine State.on_same h ?_
  have hk := Same.refl 4398314946560 s
  have hM := Sub.refl 4398314946560
  try dsimp only
  repeat' first
    | with_reducible assumption
    | with_reducible apply State.retrain_same
    | (with_reducible refine Sub.trans hM ?_; decide)
    | intro _
    | with_reducible split

theorem execHello_same (p : Fin 4) {s t : State}
    (h : execHello p s = .next t) : Same 4398314946576 s t := by
  refine State.on_same h ?_
  have hk := Same.refl 4398314946576 s
  have hM := Sub.refl 4398314946576
  try dsimp only
  repeat' first
    | with_reducible assumption
    | with_reducible apply State.hello_same
    | (with_reducible refine Sub.trans hM ?_; decide)
    | intro _
    | with_reducible split

theorem execClose_same (p : Fin 4) {s t : State}
    (h : execClose p s = .next t) : Same 5295476377552 s t := by
  refine State.on_same h ?_
  have hk := Same.refl 5295476377552 s
  have hM := Sub.refl 5295476377552
  try dsimp only
  repeat' first
    | with_reducible assumption
    | with_reducible apply State.closePort_same
    | (with_reducible refine Sub.trans hM ?_; decide)
    | intro _
    | with_reducible split

theorem execBroken_same (p : Fin 4) {s t : State}
    (h : execBroken p s = .next t) : Same 5295476377552 s t := by
  refine State.on_same h ?_
  have hk := Same.refl 5295476377552 s
  have hM := Sub.refl 5295476377552
  try dsimp only
  repeat' first
    | with_reducible assumption
    | with_reducible apply State.brokenPort_same
    | (with_reducible refine Sub.trans hM ?_; decide)
    | intro _
    | with_reducible split

theorem execMove_same (p : Fin 4) {s t : State}
    (h : execMove p s = .next t) : Same 146032964732880 s t := by
  refine State.on_same h ?_
  have hk := Same.refl 146032964732880 s
  have hM := Sub.refl 146032964732880
  try dsimp only
  repeat' first
    | with_reducible assumption
    | with_reducible apply State.move_same
    | (with_reducible refine Sub.trans hM ?_; decide)
    | intro _
    | with_reducible split

theorem execSlcCfgFlag_same (p : Fin 4) {s t : State}
    (h : execSlcCfgFlag p s = .next t) : Same 146032964732880 s t := by
  refine State.on_same h ?_
  have hk := Same.refl 146032964732880 s
  have hM := Sub.refl 146032964732880
  try dsimp only
  repeat' first
    | with_reducible assumption
    | with_reducible apply State.flagModule_same
    | (with_reducible refine Sub.trans hM ?_; decide)
    | intro _
    | with_reducible split

theorem execModulePoll_same (p : Fin 4) (fault warning : Bool) (lanes : List LaneReading) {s t : State}
    (h : execModulePoll p fault warning lanes s = .next t) : Same 146170403686352 s t := by
  refine State.on_same h ?_
  have hk := Same.refl 146170403686352 s
  have hM := Sub.refl 146170403686352
  try dsimp only
  repeat' first
    | with_reducible assumption
    | with_reducible apply State.modulePoll_same
    | (with_reducible refine Sub.trans hM ?_; decide)
    | intro _
    | with_reducible split

theorem execLaneLayerReport_same (p : Fin 4) (report : LaneReport) {s t : State}
    (h : execLaneLayerReport p report s = .next t) : Same 146170403686352 s t := by
  refine State.on_same h ?_
  have hk := Same.refl 146170403686352 s
  have hM := Sub.refl 146170403686352
  try dsimp only
  repeat' first
    | with_reducible assumption
    | with_reducible apply State.laneReport_same
    | (with_reducible refine Sub.trans hM ?_; decide)
    | intro _
    | with_reducible split

theorem execModuleInsert_same (p : Fin 4) (identity : List Byte) (suitable : Bool) {s t : State}
    (h : execModuleInsert p identity suitable s = .next t) : Same 4398314946560 s t := by
  refine State.on_same h ?_
  have hk := Same.refl 4398314946560 s
  have hM := Sub.refl 4398314946560
  try dsimp only
  repeat' first
    | with_reducible assumption
    | with_reducible apply State.moduleInsert_same
    | (with_reducible refine Sub.trans hM ?_; decide)
    | intro _
    | with_reducible split

theorem execModuleReady_same (p : Fin 4) (bias : List Nat) {s t : State}
    (h : execModuleReady p bias s = .next t) : Same 4535753900032 s t := by
  refine State.on_same h ?_
  have hk := Same.refl 4535753900032 s
  have hM := Sub.refl 4535753900032
  try dsimp only
  repeat' first
    | with_reducible assumption
    | with_reducible apply State.moduleReady_same
    | (with_reducible refine Sub.trans hM ?_; decide)
    | intro _
    | with_reducible split

theorem execModuleReadyTimeout_same (p : Fin 4) {s t : State}
    (h : execModuleReadyTimeout p s = .next t) : Same 4398314946560 s t := by
  refine State.on_same h ?_
  have hk := Same.refl 4398314946560 s
  have hM := Sub.refl 4398314946560
  try dsimp only
  repeat' first
    | with_reducible assumption
    | with_reducible apply State.moduleTimeout_same
    | (with_reducible refine Sub.trans hM ?_; decide)
    | intro _
    | with_reducible split

theorem execModuleRemove_same (p : Fin 4) {s t : State}
    (h : execModuleRemove p s = .next t) : Same 5295476377552 s t := by
  refine State.on_same h ?_
  have hk := Same.refl 5295476377552 s
  have hM := Sub.refl 5295476377552
  try dsimp only
  repeat' first
    | with_reducible assumption
    | with_reducible apply State.moduleRemove_same
    | (with_reducible refine Sub.trans hM ?_; decide)
    | intro _
    | with_reducible split

theorem execNapIdleExpire_same (t : Tile) {s t' : State}
    (h : execNapIdleExpire t s = .next t') : Same 158608847272928 s t' := by
  refine State.on_same h ?_
  have hk := Same.refl 158608847272928 s
  have hM := Sub.refl 158608847272928
  try dsimp only
  repeat' first
    | with_reducible assumption
    | with_reducible apply State.napExpire_same
    | (with_reducible refine Sub.trans hM ?_; decide)
    | intro _
    | with_reducible split

theorem execOffIdleExpire_same (t : Tile) {s t' : State}
    (h : execOffIdleExpire t s = .next t') : Same 158608847272928 s t' := by
  refine State.on_same h ?_
  have hk := Same.refl 158608847272928 s
  have hM := Sub.refl 158608847272928
  try dsimp only
  repeat' first
    | with_reducible assumption
    | with_reducible apply State.offExpire_same
    | (with_reducible refine Sub.trans hM ?_; decide)
    | intro _
    | with_reducible split

theorem execWakeDone_same (t : Tile) {s t' : State}
    (h : execWakeDone t s = .next t') : Same 356241775853680 s t' := by
  refine State.on_same h ?_
  have hk := Same.refl 356241775853680 s
  have hM := Sub.refl 356241775853680
  try dsimp only
  repeat' first
    | with_reducible assumption
    | with_reducible apply State.wakeDone_same
    | (with_reducible refine Sub.trans hM ?_; decide)
    | intro _
    | with_reducible split

theorem execYardClearDone_same {s t : State}
    (h : execYardClearDone s = .next t) : Same 528 s t := by
  refine State.on_same h ?_
  have hk := Same.refl 528 s
  have hM := Sub.refl 528
  try dsimp only
  repeat' first
    | with_reducible assumption
    | with_reducible apply State.yardCleared_same
    | (with_reducible refine Sub.trans hM ?_; decide)
    | intro _
    | with_reducible split

theorem execSleep_same (level : Fin 4) {s t : State}
    (h : execSleep level s = .next t) : Same 4398046511120 s t := by
  refine State.on_same h ?_
  have hk := Same.refl 4398046511120 s
  have hM := Sub.refl 4398046511120
  try dsimp only
  repeat' first
    | with_reducible assumption
    | with_reducible apply State.sleepWrite_same
    | (with_reducible refine Sub.trans hM ?_; decide)
    | intro _
    | with_reducible split

theorem execSleepEnter_same {s t : State}
    (h : execSleepEnter s = .next t) : Same 172906793401328 s t := by
  refine State.on_same h ?_
  have hk := Same.refl 172906793401328 s
  have hM := Sub.refl 172906793401328
  try dsimp only
  repeat' first
    | with_reducible assumption
    | with_reducible apply State.sleepEnter_same
    | (with_reducible refine Sub.trans hM ?_; decide)
    | intro _
    | with_reducible split

theorem execSleepStall_same (source : Nat) (destination : Tile) {s t : State}
    (h : execSleepStall source destination s = .next t) : Same 74766799077392 s t := by
  refine State.on_same h ?_
  have hk := Same.refl 74766799077392 s
  have hM := Sub.refl 74766799077392
  try dsimp only
  repeat' first
    | with_reducible assumption
    | with_reducible apply State.sleepStalled_same
    | (with_reducible refine Sub.trans hM ?_; decide)
    | intro _
    | with_reducible split

theorem execFrequencyStep_same (n : Fin 72) {s t : State}
    (h : execFrequencyStep n s = .next t) : Same 64 s t := by
  refine State.on_same h ?_
  have hk := Same.refl 64 s
  have hM := Sub.refl 64
  try dsimp only
  repeat' first
    | with_reducible assumption
    | with_reducible apply State.freqStep_same
    | (with_reducible refine Sub.trans hM ?_; decide)
    | intro _
    | with_reducible split

theorem execDroop_same (faces : List (Fin 72)) {s t : State}
    (h : execDroop faces s = .next t) : Same 4471060955216 s t := by
  refine State.on_same h ?_
  have hk := Same.refl 4471060955216 s
  have hM := Sub.refl 4471060955216
  try dsimp only
  repeat' first
    | with_reducible assumption
    | with_reducible apply State.droop_same
    | (with_reducible refine Sub.trans hM ?_; decide)
    | intro _
    | with_reducible split

theorem execDroopClear_same (faces : List (Fin 72)) {s t : State}
    (h : execDroopClear faces s = .next t) : Same 64 s t := by
  refine State.on_same h ?_
  have hk := Same.refl 64 s
  have hM := Sub.refl 64
  try dsimp only
  repeat' first
    | with_reducible assumption
    | with_reducible apply State.modFace_same
    | with_reducible apply Same.foldl
    | (with_reducible refine Sub.trans hM ?_; decide)
    | intro _
    | with_reducible split

theorem execPwrFaceCapWrite_same (n : Fin 72) (v : Word) {s t : State}
    (h : execPwrFaceCapWrite n v s = .next t) : Same 4398046511168 s t := by
  refine State.on_same h ?_
  have hk := Same.refl 4398046511168 s
  have hM := Sub.refl 4398046511168
  try dsimp only
  repeat' first
    | with_reducible assumption
    | with_reducible apply State.pwrFaceWrite_same
    | (with_reducible refine Sub.trans hM ?_; decide)
    | intro _
    | with_reducible split

theorem execSurgeStepDown_same {s t : State}
    (h : execSurgeStepDown s = .next t) : Same 4294967296 s t := by
  refine State.on_same h ?_
  have hk := Same.refl 4294967296 s
  have hM := Sub.refl 4294967296
  try dsimp only
  repeat' first
    | with_reducible assumption
    | with_reducible apply State.surgeDown_same
    | (with_reducible refine Sub.trans hM ?_; decide)
    | intro _
    | with_reducible split

theorem execSurgeResume_same {s t : State}
    (h : execSurgeResume s = .next t) : Same 4294967296 s t := by
  refine State.on_same h ?_
  have hk := Same.refl 4294967296 s
  have hM := Sub.refl 4294967296
  try dsimp only
  repeat' first
    | with_reducible assumption
    | with_reducible apply State.surgeUp_same
    | (with_reducible refine Sub.trans hM ?_; decide)
    | intro _
    | with_reducible split

theorem execLedgerStore_same {s t : State}
    (h : execLedgerStore s = .next t) : Same 1103806595072 s t := by
  refine State.on_same h ?_
  have hk := Same.refl 1103806595072 s
  have hM := Sub.refl 1103806595072
  try dsimp only
  repeat' first
    | with_reducible assumption
    | with_reducible apply State.storeLedger_same
    | (with_reducible refine Sub.trans hM ?_; decide)
    | intro _
    | with_reducible split

theorem execSurgeWithdraw_same {s t : State}
    (h : execSurgeWithdraw s = .next t) : Same 4402341478416 s t := by
  refine State.on_same h ?_
  have hk := Same.refl 4402341478416 s
  have hM := Sub.refl 4402341478416
  try dsimp only
  repeat' first
    | with_reducible assumption
    | with_reducible apply State.surgeWithdraw_same
    | (with_reducible refine Sub.trans hM ?_; decide)
    | intro _
    | with_reducible split

theorem execAgingRead_same (short : List (Fin 72)) {s t : State}
    (h : execAgingRead short s = .next t) : Same 5909917730032 s t := by
  refine State.on_same h ?_
  have hk := Same.refl 5909917730032 s
  have hM := Sub.refl 5909917730032
  try dsimp only
  repeat' first
    | with_reducible assumption
    | with_reducible apply State.derate_same
    | with_reducible apply Same.foldl
    | (with_reducible refine Sub.trans hM ?_; decide)
    | intro _
    | with_reducible split

theorem execTempRead_same (degrees : List Int) {s t : State}
    (h : execTempRead degrees s = .next t) : Same 4449854554192 s t := by
  refine State.on_same h ?_
  have hk := Same.refl 4449854554192 s
  have hM := Sub.refl 4449854554192
  try dsimp only
  repeat' first
    | with_reducible assumption
    | with_reducible apply State.tempRead_same
    | (with_reducible refine Sub.trans hM ?_; decide)
    | intro _
    | with_reducible split

theorem execTripClr_same {s t : State}
    (h : execTripClr s = .next t) : Same 80 s t := by
  refine State.on_same h ?_
  have hk := Same.refl 80 s
  have hM := Sub.refl 80
  try dsimp only
  repeat' first
    | with_reducible assumption
    | with_reducible apply State.tripClear_same
    | (with_reducible refine Sub.trans hM ?_; decide)
    | intro _
    | with_reducible split

theorem execCrossModeWrite_same (g : Fin 5) (v : Word) {s t : State}
    (h : execCrossModeWrite g v s = .next t) : Same 4406636445696 s t := by
  refine State.on_same h ?_
  have hk := Same.refl 4406636445696 s
  have hM := Sub.refl 4406636445696
  try dsimp only
  repeat' first
    | with_reducible assumption
    | with_reducible apply State.crossWrite_same
    | (with_reducible refine Sub.trans hM ?_; decide)
    | intro _
    | with_reducible split

theorem execCrossingChangeApply_same (g : Fin 5) {s t : State}
    (h : execCrossingChangeApply g s = .next t) : Same 8589934592 s t := by
  refine State.on_same h ?_
  have hk := Same.refl 8589934592 s
  have hM := Sub.refl 8589934592
  try dsimp only
  repeat' first
    | with_reducible assumption
    | with_reducible apply State.crossApply_same
    | (with_reducible refine Sub.trans hM ?_; decide)
    | intro _
    | with_reducible split

theorem execFabricLockCheck_same (count : Nat) {s t : State}
    (h : execFabricLockCheck count s = .next t) : Same 4406636445712 s t := by
  refine State.on_same h ?_
  have hk := Same.refl 4406636445712 s
  have hM := Sub.refl 4406636445712
  try dsimp only
  repeat' first
    | with_reducible assumption
    | with_reducible apply State.lockCheck_same
    | (with_reducible refine Sub.trans hM ?_; decide)
    | intro _
    | with_reducible split

theorem execCrossingParity_same (path : CrossPath) {s t : State}
    (h : execCrossingParity path s = .next t) : Same 39994778191344 s t := by
  refine State.on_same h ?_
  have hk := Same.refl 39994778191344 s
  have hM := Sub.refl 39994778191344
  try dsimp only
  repeat' first
    | with_reducible assumption
    | with_reducible apply State.crossParity_same
    | (with_reducible refine Sub.trans hM ?_; decide)
    | intro _
    | with_reducible split

theorem execHostReset_same {s t : State}
    (h : execHostReset s = .next t) : Same 559402310433776 s t := by
  refine State.on_same h ?_
  have hk := Same.refl 559402310433776 s
  have hM := Sub.refl 559402310433776
  try dsimp only
  repeat' first
    | with_reducible assumption
    | with_reducible apply State.hostReset_same
    | (with_reducible refine Sub.trans hM ?_; decide)
    | intro _
    | with_reducible split

theorem execEngReset_same {s t : State}
    (h : execEngReset s = .next t) : Same 559402310433776 s t := by
  refine State.on_same h ?_
  have hk := Same.refl 559402310433776 s
  have hM := Sub.refl 559402310433776
  try dsimp only
  repeat' first
    | with_reducible assumption
    | with_reducible apply State.hostReset_same
    | with_reducible apply State.resetOver_same
    | (with_reducible refine Sub.trans hM ?_; decide)
    | intro _
    | with_reducible split

theorem execHostResetRelease_same {s t : State}
    (h : execHostResetRelease s = .next t) : Same 48 s t := by
  refine State.on_same h ?_
  have hk := Same.refl 48 s
  have hM := Sub.refl 48
  try dsimp only
  repeat' first
    | with_reducible assumption
    | with_reducible apply State.resetOver_same
    | (with_reducible refine Sub.trans hM ?_; decide)
    | intro _
    | with_reducible split

theorem execYardCorrected_same (addr : Nat) {s t : State}
    (h : execYardCorrected addr s = .next t) : Same 13262859010576 s t := by
  unfold execYardCorrected State.onYard at h
  split at h
  case isFalse => cases h
  refine State.on_same h ?_
  have hk := Same.refl 13262859010576 s
  have hM := Sub.refl 13262859010576
  try dsimp only
  repeat' first
    | with_reducible assumption
    | with_reducible apply State.correctWord_same
    | (with_reducible refine Sub.trans hM ?_; decide)
    | intro _
    | with_reducible split

theorem execPatrolScrub_same (line : Nat) (errors : List (Fin 8)) {s t : State}
    (h : execPatrolScrub line errors s = .next t) : Same 13262859010576 s t := by
  unfold execPatrolScrub State.onYard at h
  split at h
  case isFalse => cases h
  refine State.on_same h ?_
  have hk := Same.refl 13262859010576 s
  have hM := Sub.refl 13262859010576
  try dsimp only
  repeat' first
    | with_reducible assumption
    | with_reducible apply State.correctWord_same
    | with_reducible apply Same.foldl
    | (with_reducible refine Sub.trans hM ?_; decide)
    | intro _
    | with_reducible split

theorem execBankMigrationDone_same (b : Fin 256) {s t : State}
    (h : execBankMigrationDone b s = .next t) : Same 4535485465104 s t := by
  refine State.on_same h ?_
  have hk := Same.refl 4535485465104 s
  have hM := Sub.refl 4535485465104
  try dsimp only
  repeat' first
    | with_reducible assumption
    | with_reducible apply State.migrationDone_same
    | (with_reducible refine Sub.trans hM ?_; decide)
    | intro _
    | with_reducible split

theorem execUncorrectableYard_same (addr : Nat) {s t : State}
    (h : execUncorrectableYard addr s = .next t) : Same 13607577061360 s t := by
  unfold execUncorrectableYard State.onYard at h
  split at h
  case isFalse => cases h
  refine State.on_same h ?_
  have hk := Same.refl 13607577061360 s
  have hM := Sub.refl 13607577061360
  try dsimp only
  repeat' first
    | with_reducible assumption
    | with_reducible apply State.uncorrectable_same
    | (with_reducible refine Sub.trans hM ?_; decide)
    | intro _
    | with_reducible split

theorem execFillWakeDone_same (woke : Bool) {s t : State}
    (h : execFillWakeDone woke s = .next t) : Same 4810406102256 s t := by
  refine State.on_same h ?_
  have hk := Same.refl 4810406102256 s
  have hM := Sub.refl 4810406102256
  try dsimp only
  repeat' first
    | with_reducible assumption
    | with_reducible apply State.fillWake_same
    | (with_reducible refine Sub.trans hM ?_; decide)
    | intro _
    | with_reducible split

theorem execFillConfigDone_same (ok : Bool) {s t : State}
    (h : execFillConfigDone ok s = .next t) : Same 4810406102256 s t := by
  refine State.on_same h ?_
  have hk := Same.refl 4810406102256 s
  have hM := Sub.refl 4810406102256
  try dsimp only
  repeat' first
    | with_reducible assumption
    | with_reducible apply State.fillConfig_same
    | (with_reducible refine Sub.trans hM ?_; decide)
    | intro _
    | with_reducible split

theorem execFillTestDone_same (result : FaceTest) {s t : State}
    (h : execFillTestDone result s = .next t) : Same 4810406102256 s t := by
  refine State.on_same h ?_
  have hk := Same.refl 4810406102256 s
  have hM := Sub.refl 4810406102256
  try dsimp only
  repeat' first
    | with_reducible assumption
    | with_reducible apply State.fillTest_same
    | (with_reducible refine Sub.trans hM ?_; decide)
    | intro _
    | with_reducible split

theorem execWakeNotComplete_same (f : Fin 72) {s t : State}
    (h : execWakeNotComplete f s = .next t) : Same 4810406102256 s t := by
  refine State.on_same h ?_
  have hk := Same.refl 4810406102256 s
  have hM := Sub.refl 4810406102256
  try dsimp only
  repeat' first
    | with_reducible assumption
    | with_reducible apply State.wakeFailed_same
    | (with_reducible refine Sub.trans hM ?_; decide)
    | intro _
    | with_reducible split

theorem execSpareMapStore_same {s t : State}
    (h : execSpareMapStore s = .next t) : Same 1099511627776 s t := by
  refine State.on_same h ?_
  have hk := Same.refl 1099511627776 s
  have hM := Sub.refl 1099511627776
  try dsimp only
  repeat' first
    | with_reducible assumption
    | (with_reducible refine Sub.trans hM ?_; decide)
    | intro _
    | with_reducible split
    | with_reducible apply Same.set_nv

theorem execSnapshotCapture_same {s t : State}
    (h : execSnapshotCapture s = .next t) : Same 620631688352 s t := by
  refine State.on_same h ?_
  have hk := Same.refl 620631688352 s
  have hM := Sub.refl 620631688352
  try dsimp only
  repeat' first
    | with_reducible assumption
    | with_reducible apply State.snapCapture_same
    | (with_reducible refine Sub.trans hM ?_; decide)
    | intro _
    | with_reducible split

theorem execSnapshotCommit_same (sections : List (Nat × List Byte)) {s t : State}
    (h : execSnapshotCommit sections s = .next t) : Same 5295476377552 s t := by
  refine State.on_same h ?_
  have hk := Same.refl 5295476377552 s
  have hM := Sub.refl 5295476377552
  try dsimp only
  repeat' first
    | with_reducible assumption
    | with_reducible apply State.snapCommit_same
    | (with_reducible refine Sub.trans hM ?_; decide)
    | intro _
    | with_reducible split

theorem execPeerSnapshotRecord_same (slot : Nat) (offset : Nat) (data : List Byte) {s t : State}
    (h : execPeerSnapshotRecord slot offset data s = .next t) : Same 4398314947584 s t := by
  refine State.on_same h ?_
  have hk := Same.refl 4398314947584 s
  have hM := Sub.refl 4398314947584
  try dsimp only
  repeat' first
    | with_reducible assumption
    | with_reducible apply State.peerSnap_same
    | (with_reducible refine Sub.trans hM ?_; decide)
    | intro _
    | with_reducible split

theorem execSnapCtlRestore_same {s t : State}
    (h : execSnapCtlRestore s = .next t) : Same 4947802324992 s t := by
  refine State.on_same h ?_
  have hk := Same.refl 4947802324992 s
  have hM := Sub.refl 4947802324992
  try dsimp only
  repeat' first
    | with_reducible assumption
    | with_reducible apply State.startRestore_same
    | (with_reducible refine Sub.trans hM ?_; decide)
    | intro _
    | with_reducible split

theorem execSnapCtlForce_same {s t : State}
    (h : execSnapCtlForce s = .next t) : Same 549755813888 s t := by
  refine State.on_same h ?_
  have hk := Same.refl 549755813888 s
  have hM := Sub.refl 549755813888
  try dsimp only
  repeat' first
    | with_reducible assumption
    | (with_reducible refine Sub.trans hM ?_; decide)
    | intro _
    | with_reducible split
    | with_reducible apply Same.set_snap

theorem execRestoreFirstReadDone_same (bytes : List Byte) {s t : State}
    (h : execRestoreFirstReadDone bytes s = .next t) : Same 549755813904 s t := by
  refine State.on_same h ?_
  have hk := Same.refl 549755813904 s
  have hM := Sub.refl 549755813904
  try dsimp only
  repeat' first
    | with_reducible assumption
    | with_reducible apply State.restoreOutcome_same
    | (with_reducible refine Sub.trans hM ?_; decide)
    | intro _
    | with_reducible split
    | with_reducible apply Same.set_snap

theorem execRestoreSecondReadDone_same (bytes : List Byte) {s t : State}
    (h : execRestoreSecondReadDone bytes s = .next t) : Same 828441954194 s t := by
  refine State.on_same h ?_
  have hk := Same.refl 828441954194 s
  have hM := Sub.refl 828441954194
  try dsimp only
  repeat' first
    | with_reducible assumption
    | with_reducible apply State.applySnap_same
    | with_reducible apply State.brokenRestore_same
    | with_reducible apply State.restoreOutcome_same
    | (with_reducible refine Sub.trans hM ?_; decide)
    | intro _
    | with_reducible split

theorem execStreamHeader_same (p : Fin 4) (vc : Fin 8) {s t : State}
    (h : execStreamHeader p vc s = .next t) : Same 5295476377552 s t := by
  refine State.on_same h ?_
  have hk := Same.refl 5295476377552 s
  have hM := Sub.refl 5295476377552
  try dsimp only
  repeat' first
    | with_reducible assumption
    | with_reducible apply State.vHead_same
    | with_reducible apply State.streamHead_same
    | (with_reducible refine Sub.trans hM ?_; decide)
    | intro _
    | with_reducible split

theorem execVSliceRecord_same (e : Fin 4096) (index length : Nat) (crc : DWord) (own : List Byte)
    (fetched : List (List Byte)) {s t : State}
    (h : execVSliceRecord e index length crc own fetched s = .next t) : Same 5295476377552 s t := by
  refine State.on_same h ?_
  have hk := Same.refl 5295476377552 s
  have hM := Sub.refl 5295476377552
  try dsimp only
  repeat' first
    | with_reducible assumption
    | with_reducible apply State.vSlice_same
    | (with_reducible refine Sub.trans hM ?_; decide)
    | intro _
    | with_reducible split

theorem execUnitFault_same (u : Unspared) (unrecoverable : Bool) {s t : State}
    (h : execUnitFault u unrecoverable s = .next t) : Same 5432915331024 s t := by
  refine State.on_same h ?_
  have hk := Same.refl 5432915331024 s
  have hM := Sub.refl 5432915331024
  try dsimp only
  repeat' first
    | with_reducible assumption
    | with_reducible apply State.unitFault_same
    | (with_reducible refine Sub.trans hM ?_; decide)
    | intro _
    | with_reducible split

theorem execFmnCtlUpdate_same {s t : State}
    (h : execFmnCtlUpdate s = .next t) : Same 2199023255552 s t := by
  refine State.on_same h ?_
  have hk := Same.refl 2199023255552 s
  have hM := Sub.refl 2199023255552
  try dsimp only
  repeat' first
    | with_reducible assumption
    | with_reducible apply State.startUpdate_same
    | (with_reducible refine Sub.trans hM ?_; decide)
    | intro _
    | with_reducible split

theorem execFwUpdateDone_same (bytes : List Byte) (errorResponse : Bool) {s t : State}
    (h : execFwUpdateDone bytes errorResponse s = .next t) : Same 7696581394448 s t := by
  refine State.on_same h ?_
  have hk := Same.refl 7696581394448 s
  have hM := Sub.refl 7696581394448
  try dsimp only
  repeat' first
    | with_reducible assumption
    | with_reducible apply State.updateDone_same
    | (with_reducible refine Sub.trans hM ?_; decide)
    | intro _
    | with_reducible split

theorem execFmnCtlSwap_same {s t : State}
    (h : execFmnCtlSwap s = .next t) : Same 51677046505488 s t := by
  refine State.on_same h ?_
  have hk := Same.refl 51677046505488 s
  have hM := Sub.refl 51677046505488
  try dsimp only
  repeat' first
    | with_reducible assumption
    | with_reducible apply State.swapFw_same
    | (with_reducible refine Sub.trans hM ?_; decide)
    | intro _
    | with_reducible split

theorem execLoadStart_same {s t : State}
    (h : execLoadStart s = .next t) : Same 8224 s t := by
  refine State.on_same h ?_
  have hk := Same.refl 8224 s
  have hM := Sub.refl 8224
  try dsimp only
  repeat' first
    | with_reducible assumption
    | with_reducible apply State.loadStart_same
    | (with_reducible refine Sub.trans hM ?_; decide)
    | intro _
    | with_reducible split

theorem execLoadFirstReadDone_same (bytes : List Byte) (errorResponse : Bool) {s t : State}
    (h : execLoadFirstReadDone bytes errorResponse s = .next t) : Same 4398046519312 s t := by
  refine State.on_same h ?_
  have hk := Same.refl 4398046519312 s
  have hM := Sub.refl 4398046519312
  try dsimp only
  repeat' first
    | with_reducible assumption
    | with_reducible apply State.firstRead_same
    | (with_reducible refine Sub.trans hM ?_; decide)
    | intro _
    | with_reducible split

theorem execTableBankWaitEnd_same {s t : State}
    (h : execTableBankWaitEnd s = .next t) : Same 8192 s t := by
  refine State.on_same h ?_
  have hk := Same.refl 8192 s
  have hM := Sub.refl 8192
  try dsimp only
  repeat' first
    | with_reducible assumption
    | with_reducible apply State.bankWaitEnd_same
    | (with_reducible refine Sub.trans hM ?_; decide)
    | intro _
    | with_reducible split

theorem execLoadCommit_same (bytes : List Byte) (errorResponse : Bool) {s t : State}
    (h : execLoadCommit bytes errorResponse s = .next t) : Same 154979381672944 s t := by
  refine State.on_same h ?_
  have hk := Same.refl 154979381672944 s
  have hM := Sub.refl 154979381672944
  try dsimp only
  repeat' first
    | with_reducible assumption
    | with_reducible apply State.loadCommit_same
    | (with_reducible refine Sub.trans hM ?_; decide)
    | intro _
    | with_reducible split

theorem execPartialCommit_same (bytes : List Byte) (errorResponse : Bool) {s t : State}
    (h : execPartialCommit bytes errorResponse s = .next t) : Same 145548133334640 s t := by
  refine State.on_same h ?_
  have hk := Same.refl 145548133334640 s
  have hM := Sub.refl 145548133334640
  try dsimp only
  repeat' first
    | with_reducible assumption
    | with_reducible apply State.partialCommit_same
    | (with_reducible refine Sub.trans hM ?_; decide)
    | intro _
    | with_reducible split

theorem execStepOpen_same (w : Fin 16) {s t : State}
    (h : execStepOpen w s = .next t) : Same 5016527832592 s t := by
  refine State.on_same h ?_
  have hk := Same.refl 5016527832592 s
  have hM := Sub.refl 5016527832592
  try dsimp only
  repeat' first
    | with_reducible assumption
    | with_reducible apply State.stepOpen_same
    | (with_reducible refine Sub.trans hM ?_; decide)
    | intro _
    | with_reducible split

theorem execCutStart_same (e : Fin 4096) (reads : StartReads) {s t : State}
    (h : execCutStart e reads s = .next t) : Same 5432915331056 s t := by
  refine State.on_same h ?_
  have hk := Same.refl 5432915331056 s
  have hM := Sub.refl 5432915331056
  try dsimp only
  repeat' first
    | with_reducible assumption
    | with_reducible apply State.cutStart_same
    | (with_reducible refine Sub.trans hM ?_; decide)
    | intro _
    | with_reducible split

theorem execEvictionDone_same (e : Fin 4096) (reads : StartReads) {s t : State}
    (h : execEvictionDone e reads s = .next t) : Same 5432915331056 s t := by
  refine State.on_same h ?_
  have hk := Same.refl 5432915331056 s
  have hM := Sub.refl 5432915331056
  try dsimp only
  repeat' first
    | with_reducible assumption
    | with_reducible apply State.evictionDone_same
    | (with_reducible refine Sub.trans hM ?_; decide)
    | intro _
    | with_reducible split

theorem execCutEnd_same (e : Fin 4096) {s t : State}
    (h : execCutEnd e s = .next t) : Same 5295207942096 s t := by
  refine State.on_same h ?_
  have hk := Same.refl 5295207942096 s
  have hM := Sub.refl 5295207942096
  try dsimp only
  repeat' first
    | with_reducible assumption
    | with_reducible apply State.cutEnd_same
    | (with_reducible refine Sub.trans hM ?_; decide)
    | intro _
    | with_reducible split

theorem execRerun_same (e : Fin 4096) {s t : State}
    (h : execRerun e s = .next t) : Same 4398051231232 s t := by
  refine State.on_same h ?_
  have hk := Same.refl 4398051231232 s
  have hM := Sub.refl 4398051231232
  try dsimp only
  repeat' first
    | with_reducible assumption
    | with_reducible apply State.rerunWrite_same
    | (with_reducible refine Sub.trans hM ?_; decide)
    | intro _
    | with_reducible split

theorem execWrkCtlRun_same (w : Fin 16) {s t : State}
    (h : execWrkCtlRun w s = .next t) : Same 9176192 s t := by
  refine State.on_same h ?_
  have hk := Same.refl 9176192 s
  have hM := Sub.refl 9176192
  try dsimp only
  repeat' first
    | with_reducible assumption
    | with_reducible apply State.runWorking_same
    | (with_reducible refine Sub.trans hM ?_; decide)
    | intro _
    | with_reducible split

theorem execWrkCtlStop_same (w : Fin 16) {s t : State}
    (h : execWrkCtlStop w s = .next t) : Same 262144 s t := by
  refine State.on_same h ?_
  have hk := Same.refl 262144 s
  have hM := Sub.refl 262144
  try dsimp only
  repeat' first
    | with_reducible assumption
    | with_reducible apply State.stopWorking_same
    | (with_reducible refine Sub.trans hM ?_; decide)
    | intro _
    | with_reducible split

theorem execGlbPreemptSet_same (w : Fin 16) {s t : State}
    (h : execGlbPreemptSet w s = .next t) : Same 42468496 s t := by
  refine State.on_same h ?_
  have hk := Same.refl 42468496 s
  have hM := Sub.refl 42468496
  try dsimp only
  repeat' first
    | with_reducible assumption
    | with_reducible apply State.preemptSet_same
    | (with_reducible refine Sub.trans hM ?_; decide)
    | intro _
    | with_reducible split

theorem execGlbPreemptClear_same (w : Fin 16) {s t : State}
    (h : execGlbPreemptClear w s = .next t) : Same 8914064 s t := by
  refine State.on_same h ?_
  have hk := Same.refl 8914064 s
  have hM := Sub.refl 8914064
  try dsimp only
  repeat' first
    | with_reducible assumption
    | with_reducible apply State.preemptClear_same
    | (with_reducible refine Sub.trans hM ?_; decide)
    | intro _
    | with_reducible split

theorem execRegisterWrite_same (who : Requester) (off size : Nat) (v : Word) {s t : State}
    (h : execRegisterWrite who off size v s = .next t) : Same 562778154729456 s t := by
  refine State.on_same h ?_
  have hk := Same.refl 562778154729456 s
  have hM := Sub.refl 562778154729456
  try dsimp only
  repeat' first
    | with_reducible assumption
    | with_reducible apply State.busWrite_same
    | (with_reducible refine Sub.trans hM ?_; decide)
    | intro _
    | with_reducible split

theorem execPairLoRead_same (who : Requester) (off : Nat) {s t : State}
    (h : execPairLoRead who off s = .next t) : Same 52776558133280 s t := by
  refine State.on_same h ?_
  have hk := Same.refl 52776558133280 s
  have hM := Sub.refl 52776558133280
  try dsimp only
  repeat' first
    | with_reducible assumption
    | with_reducible apply State.busRead_same
    | (with_reducible refine Sub.trans hM ?_; decide)
    | intro _
    | with_reducible split

theorem execPairLoWrite_same (who : Requester) (off : Nat) (v : Word) {s t : State}
    (h : execPairLoWrite who off v s = .next t) : Same 52776558133280 s t := by
  refine State.on_same h ?_
  have hM := Sub.refl 52776558133280
  have hk := Same.refl 52776558133280 s
  try dsimp only
  split
  · rename_i hp
    unfold State.busWrite
    split
    · exact State.waitAccess_same (hM.trans (by decide)) hk _
    · unfold State.writeNow pairOffset at *
      split
      · split
        · exact hk
        · split
          · rename_i lo hlo
            rw [hlo] at hp
            have e : off = lo := by simpa using hp
            rw [if_pos e]
            exact State.stage_same (hM.trans (by decide)) hk _ _ _
          · rename_i hlo
            rw [hlo] at hp
            cases hp
      · exact hk
  · exact hk

theorem execPairHiWrite_same (who : Requester) (off : Nat) (v : Word) {s t : State}
    (h : execPairHiWrite who off v s = .next t) : Same 55525337276448 s t := by
  refine State.on_same h ?_
  have hM := Sub.refl 55525337276448
  have hk := Same.refl 55525337276448 s
  try dsimp only
  split
  · rename_i hp
    unfold State.busWrite
    split
    · exact State.waitAccess_same (hM.trans (by decide)) hk _
    · unfold State.writeNow pairOffset at *
      split
      · split
        · exact hk
        · split
          · rename_i lo hlo
            rw [hlo] at hp
            have e : off ≠ lo := by simpa using hp
            rw [if_neg e]
            exact State.commitPair_same (hM.trans (by decide)) hk _ _ _
          · rename_i hlo
            rw [hlo] at hp
            cases hp
      · exact hk
  · exact hk

theorem execFceCtlCntClr_same (n : Fin 72) {s t : State}
    (h : execFceCtlCntClr n s = .next t) : Same 35184372088928 s t := by
  refine State.on_same h ?_
  have hM := Sub.refl 35184372088928
  have hk := Same.refl 35184372088928 s
  try dsimp only
  unfold State.busWrite
  split
  · exact State.waitAccess_same (hM.trans (by decide)) hk _
  · unfold State.writeNow
    have h0 : ∀ k : Fin 72, pairLo (0x100000 + 0x10000 * k.val) = none := by decide
    replace h0 := h0 n
    have h1 : (0x100000 + 0x10000 * n.val - 0x100000) / 0x10000 = n.val := by omega
    have h2 : (0x100000 + 0x10000 * n.val) % 0x10000 = 0 := by omega
    have hn := n.isLt
    refine Same.ite (Same.ite hk ?_) hk
    rw [h0]
    dsimp only
    unfold State.regWrite
    rw [if_neg (by omega), if_neg (by omega), if_neg (by omega), if_neg (by omega), if_neg (by omega), if_neg (by omega),
      if_neg (by omega), if_neg (by omega), if_neg (by omega), if_neg (by omega), if_pos (by omega), h1, h2]
    unfold State.fceWrite
    rw [if_pos rfl]
    exact Same.ite hk (Same.ite (State.modFace_same (hM.trans (by decide)) hk _ _) hk)

theorem execRiskThrWrite_same (v : Word) {s t : State}
    (h : execRiskThrWrite v s = .next t) : Same 4466765987856 s t := by
  refine State.on_same h ?_
  have hk := Same.refl 4466765987856 s
  have hM := Sub.refl 4466765987856
  try dsimp only
  repeat' first
    | with_reducible assumption
    | with_reducible apply State.riskThrWrite_same
    | (with_reducible refine Sub.trans hM ?_; decide)
    | intro _
    | with_reducible split

theorem execUartBaudWrite_same (v : Word) {s t : State}
    (h : execUartBaudWrite v s = .next t) : Same 6597069766656 s t := by
  refine State.on_same h ?_
  have hk := Same.refl 6597069766656 s
  have hM := Sub.refl 6597069766656
  try dsimp only
  repeat' first
    | with_reducible assumption
    | with_reducible apply State.baudWrite_same
    | (with_reducible refine Sub.trans hM ?_; decide)
    | intro _
    | with_reducible split

theorem execTallyAdd_same (i : Fin 1024) (v : Word) {s t : State}
    (h : execTallyAdd i v s = .next t) : Same 285873023287344 s t := by
  refine State.on_same h ?_
  have hk := Same.refl 285873023287344 s
  have hM := Sub.refl 285873023287344
  try dsimp only
  repeat' first
    | with_reducible assumption
    | with_reducible apply State.tallyAdd_same
    | with_reducible apply State.tallyWrite_same
    | (with_reducible refine Sub.trans hM ?_; decide)
    | intro _
    | with_reducible split

theorem execTallyApertureWrite_same (off size : Nat) (v : DWord) {s t : State}
    (h : execTallyApertureWrite off size v s = .next t) : Same 285873023418416 s t := by
  refine State.on_same h ?_
  have hk := Same.refl 285873023418416 s
  have hM := Sub.refl 285873023418416
  try dsimp only
  repeat' first
    | with_reducible assumption
    | with_reducible apply State.apertureWrite_same
    | (with_reducible refine Sub.trans hM ?_; decide)
    | intro _
    | with_reducible split

theorem execMonitorChar_same (c : Byte) {s t : State}
    (h : execMonitorChar c s = .next t) : Same 8796093022208 s t := by
  refine State.on_same h ?_
  have hk := Same.refl 8796093022208 s
  have hM := Sub.refl 8796093022208
  try dsimp only
  repeat' first
    | with_reducible assumption
    | with_reducible apply State.monitorChar_same
    | (with_reducible refine Sub.trans hM ?_; decide)
    | intro _
    | with_reducible split

theorem execRd_same (off : Nat) (n : Nat) {s t : State}
    (h : execRd off n s = .next t) : Same 65970697666592 s t := by
  refine State.on_same h ?_
  have hk := Same.refl 65970697666592 s
  have hM := Sub.refl 65970697666592
  try dsimp only
  repeat' first
    | with_reducible assumption
    | with_reducible apply State.monitorDo_same
    | with_reducible apply State.rd_same
    | (with_reducible refine Sub.trans hM ?_; decide)
    | intro _
    | with_reducible split

theorem execTile_same (first : Fin 72) (all : Bool) {s t : State}
    (h : execTile first all s = .next t) : Same 65970697666592 s t := by
  refine State.on_same h ?_
  have hk := Same.refl 65970697666592 s
  have hM := Sub.refl 65970697666592
  try dsimp only
  repeat' first
    | with_reducible assumption
    | with_reducible apply State.monitorDo_same
    | with_reducible apply State.readsOn_same
    | (with_reducible refine Sub.trans hM ?_; decide)
    | intro _
    | with_reducible split

theorem execImage_same {s t : State}
    (h : execImage s = .next t) : Same 65970697666592 s t := by
  refine State.on_same h ?_
  have hk := Same.refl 65970697666592 s
  have hM := Sub.refl 65970697666592
  try dsimp only
  repeat' first
    | with_reducible assumption
    | with_reducible apply State.monitorDo_same
    | with_reducible apply State.readsOn_same
    | (with_reducible refine Sub.trans hM ?_; decide)
    | intro _
    | with_reducible split

theorem execWr_same (off : Nat) (v : Word) {s t : State}
    (h : execWr off v s = .next t) : Same 562778154729456 s t := by
  refine State.on_same h ?_
  have hk := Same.refl 562778154729456 s
  have hM := Sub.refl 562778154729456
  try dsimp only
  repeat' first
    | with_reducible assumption
    | with_reducible apply State.monitorDo_same
    | with_reducible apply State.wr_same
    | (with_reducible refine Sub.trans hM ?_; decide)
    | intro _
    | with_reducible split

theorem execRegisterAccessComplete_same (t : Tile) {s t' : State}
    (h : execRegisterAccessComplete t s = .next t') : Same 562778154729456 s t' := by
  refine State.on_same h ?_
  have hk := Same.refl 562778154729456 s
  have hM := Sub.refl 562778154729456
  try dsimp only
  repeat' first
    | with_reducible assumption
    | with_reducible apply State.accessComplete_same
    | (with_reducible refine Sub.trans hM ?_; decide)
    | intro _
    | with_reducible split

theorem execHelp_same {s t : State}
    (h : execHelp s = .next t) : Same 13194139533312 s t := by
  refine State.on_same h ?_
  have hk := Same.refl 13194139533312 s
  have hM := Sub.refl 13194139533312
  try dsimp only
  repeat' first
    | with_reducible assumption
    | with_reducible apply State.monitorDo_same
    | with_reducible apply State.say_same
    | (with_reducible refine Sub.trans hM ?_; decide)
    | intro _
    | with_reducible split

theorem execLog_same (n : Nat) (seq : Option Nat) {s t : State}
    (h : execLog n seq s = .next t) : Same 13194139533312 s t := by
  refine State.on_same h ?_
  have hk := Same.refl 13194139533312 s
  have hM := Sub.refl 13194139533312
  try dsimp only
  repeat' first
    | with_reducible assumption
    | with_reducible apply State.monitorDo_same
    | with_reducible apply State.logCmd_same
    | (with_reducible refine Sub.trans hM ?_; decide)
    | intro _
    | with_reducible split

theorem execRisk_same {s t : State}
    (h : execRisk s = .next t) : Same 13194139533312 s t := by
  refine State.on_same h ?_
  have hk := Same.refl 13194139533312 s
  have hM := Sub.refl 13194139533312
  try dsimp only
  repeat' first
    | with_reducible assumption
    | with_reducible apply State.monitorDo_same
    | with_reducible apply State.say_same
    | (with_reducible refine Sub.trans hM ?_; decide)
    | intro _
    | with_reducible split

theorem execSnap_same {s t : State}
    (h : execSnap s = .next t) : Same 13194139533312 s t := by
  refine State.on_same h ?_
  have hk := Same.refl 13194139533312 s
  have hM := Sub.refl 13194139533312
  try dsimp only
  repeat' first
    | with_reducible assumption
    | with_reducible apply State.monitorDo_same
    | with_reducible apply State.say_same
    | (with_reducible refine Sub.trans hM ?_; decide)
    | intro _
    | with_reducible split

theorem execClk_same {s t : State}
    (h : execClk s = .next t) : Same 13194139533312 s t := by
  refine State.on_same h ?_
  have hk := Same.refl 13194139533312 s
  have hM := Sub.refl 13194139533312
  try dsimp only
  repeat' first
    | with_reducible assumption
    | with_reducible apply State.monitorDo_same
    | with_reducible apply State.say_same
    | (with_reducible refine Sub.trans hM ?_; decide)
    | intro _
    | with_reducible split

theorem execSlc_same (p : Fin 4) {s t : State}
    (h : execSlc p s = .next t) : Same 13194139533312 s t := by
  refine State.on_same h ?_
  have hk := Same.refl 13194139533312 s
  have hM := Sub.refl 13194139533312
  try dsimp only
  repeat' first
    | with_reducible assumption
    | with_reducible apply State.monitorDo_same
    | with_reducible apply State.say_same
    | (with_reducible refine Sub.trans hM ?_; decide)
    | intro _
    | with_reducible split

theorem execFw_same {s t : State}
    (h : execFw s = .next t) : Same 13194139533312 s t := by
  refine State.on_same h ?_
  have hk := Same.refl 13194139533312 s
  have hM := Sub.refl 13194139533312
  try dsimp only
  repeat' first
    | with_reducible assumption
    | with_reducible apply State.monitorDo_same
    | with_reducible apply State.say_same
    | (with_reducible refine Sub.trans hM ?_; decide)
    | intro _
    | with_reducible split

theorem execUnlock_same (draw : Word) {s t : State}
    (h : execUnlock draw s = .next t) : Same 13194139533312 s t := by
  refine State.on_same h ?_
  have hk := Same.refl 13194139533312 s
  have hM := Sub.refl 13194139533312
  try dsimp only
  repeat' first
    | with_reducible assumption
    | with_reducible apply State.monitorDo_same
    | with_reducible apply State.unlock_same
    | (with_reducible refine Sub.trans hM ?_; decide)
    | intro _
    | with_reducible split

theorem execUnlockResponse_same (resp : Word) {s t : State}
    (h : execUnlockResponse resp s = .next t) : Same 13194139533312 s t := by
  refine State.on_same h ?_
  have hk := Same.refl 13194139533312 s
  have hM := Sub.refl 13194139533312
  try dsimp only
  repeat' first
    | with_reducible assumption
    | with_reducible apply State.monitorDo_same
    | with_reducible apply State.unlockResponse_same
    | (with_reducible refine Sub.trans hM ?_; decide)
    | intro _
    | with_reducible split

theorem execLock_same {s t : State}
    (h : execLock s = .next t) : Same 13194139533312 s t := by
  refine State.on_same h ?_
  have hk := Same.refl 13194139533312 s
  have hM := Sub.refl 13194139533312
  try dsimp only
  repeat' first
    | with_reducible assumption
    | with_reducible apply State.monitorDo_same
    | with_reducible apply State.lockSession_same
    | with_reducible apply State.answer_same
    | (with_reducible refine Sub.trans hM ?_; decide)
    | intro _
    | with_reducible split

theorem execSessionTimeout_same {s t : State}
    (h : execSessionTimeout s = .next t) : Same 8796093022208 s t := by
  refine State.on_same h ?_
  have hk := Same.refl 8796093022208 s
  have hM := Sub.refl 8796093022208
  try dsimp only
  repeat' first
    | with_reducible assumption
    | with_reducible apply State.lockSession_same
    | (with_reducible refine Sub.trans hM ?_; decide)
    | intro _
    | with_reducible split

theorem execChallengeWithholdEnd_same {s t : State}
    (h : execChallengeWithholdEnd s = .next t) : Same 8796093022208 s t := by
  refine State.on_same h ?_
  have hk := Same.refl 8796093022208 s
  have hM := Sub.refl 8796093022208
  try dsimp only
  repeat' first
    | with_reducible assumption
    | with_reducible apply State.modMon_same
    | (with_reducible refine Sub.trans hM ?_; decide)
    | intro _
    | with_reducible split

theorem execBaud_same (rate : Nat) {s t : State}
    (h : execBaud rate s = .next t) : Same 15393162788864 s t := by
  refine State.on_same h ?_
  have hk := Same.refl 15393162788864 s
  have hM := Sub.refl 15393162788864
  try dsimp only
  repeat' first
    | with_reducible assumption
    | with_reducible apply State.monitorDo_same
    | with_reducible apply State.baudCmd_same
    | (with_reducible refine Sub.trans hM ?_; decide)
    | intro _
    | with_reducible split

theorem execRetireFace_same (f : Fin 72) {s t : State}
    (h : execRetireFace f s = .next t) : Same 13606499124464 s t := by
  refine State.on_same h ?_
  have hk := Same.refl 13606499124464 s
  have hM := Sub.refl 13606499124464
  try dsimp only
  repeat' first
    | with_reducible assumption
    | with_reducible apply State.monitorDo_same
    | with_reducible apply State.retireFace_same
    | with_reducible apply State.retireCmd_same
    | (with_reducible refine Sub.trans hM ?_; decide)
    | intro _
    | with_reducible split

theorem execReturn_same (kind : ReturnKind) (passed : Bool) {s t : State}
    (h : execReturn kind passed s = .next t) : Same 13608915043568 s t := by
  refine State.on_same h ?_
  have hk := Same.refl 13608915043568 s
  have hM := Sub.refl 13608915043568
  try dsimp only
  repeat' first
    | with_reducible assumption
    | with_reducible apply State.monitorDo_same
    | with_reducible apply State.returnCmd_same
    | (with_reducible refine Sub.trans hM ?_; decide)
    | intro _
    | with_reducible split

theorem execInject_same (kind : InjectKind) {s t : State}
    (h : execInject kind s = .next t) : Same 13194139533312 s t := by
  refine State.on_same h ?_
  have hk := Same.refl 13194139533312 s
  have hM := Sub.refl 13194139533312
  try dsimp only
  repeat' first
    | with_reducible assumption
    | with_reducible apply State.monitorDo_same
    | with_reducible apply State.injectCmd_same
    | (with_reducible refine Sub.trans hM ?_; decide)
    | intro _
    | with_reducible split

theorem execInjectClear_same {s t : State}
    (h : execInjectClear s = .next t) : Same 13194139533312 s t := by
  refine State.on_same h ?_
  have hk := Same.refl 13194139533312 s
  have hM := Sub.refl 13194139533312
  try dsimp only
  repeat' first
    | with_reducible assumption
    | with_reducible apply State.monitorDo_same
    | with_reducible apply State.lockedDo_same
    | with_reducible apply State.modMon_same
    | (with_reducible refine Sub.trans hM ?_; decide)
    | intro _
    | with_reducible split

theorem execKeyInstall_same (slot : Fin 4) (x y : Nat) {s t : State}
    (h : execKeyInstall slot x y s = .next t) : Same 14293651161088 s t := by
  refine State.on_same h ?_
  have hk := Same.refl 14293651161088 s
  have hM := Sub.refl 14293651161088
  try dsimp only
  repeat' first
    | with_reducible assumption
    | with_reducible apply State.monitorDo_same
    | with_reducible apply State.keyInstall_same
    | (with_reducible refine Sub.trans hM ?_; decide)
    | intro _
    | with_reducible split

theorem execKeyRevoke_same (slot : Fin 4) {s t : State}
    (h : execKeyRevoke slot s = .next t) : Same 14293651161088 s t := by
  refine State.on_same h ?_
  have hk := Same.refl 14293651161088 s
  have hM := Sub.refl 14293651161088
  try dsimp only
  repeat' first
    | with_reducible assumption
    | with_reducible apply State.monitorDo_same
    | with_reducible apply State.keyRevoke_same
    | (with_reducible refine Sub.trans hM ?_; decide)
    | intro _
    | with_reducible split

theorem execFwSwap_same {s t : State}
    (h : execFwSwap s = .next t) : Same 51677046505488 s t := by
  refine State.on_same h ?_
  have hk := Same.refl 51677046505488 s
  have hM := Sub.refl 51677046505488
  try dsimp only
  repeat' first
    | with_reducible assumption
    | with_reducible apply State.monitorDo_same
    | with_reducible apply State.fwSwapCmd_same
    | (with_reducible refine Sub.trans hM ?_; decide)
    | intro _
    | with_reducible split

theorem execSnapForce_same {s t : State}
    (h : execSnapForce s = .next t) : Same 13743895347200 s t := by
  refine State.on_same h ?_
  have hk := Same.refl 13743895347200 s
  have hM := Sub.refl 13743895347200
  try dsimp only
  repeat' first
    | with_reducible assumption
    | with_reducible apply State.monitorDo_same
    | with_reducible apply State.snapWrite_same
    | with_reducible apply State.answer_same
    | (with_reducible refine Sub.trans hM ?_; decide)
    | intro _
    | with_reducible split

theorem execSlcFlag_same (p : Fin 4) {s t : State}
    (h : execSlcFlag p s = .next t) : Same 154829057755088 s t := by
  refine State.on_same h ?_
  have hk := Same.refl 154829057755088 s
  have hM := Sub.refl 154829057755088
  try dsimp only
  repeat' first
    | with_reducible assumption
    | with_reducible apply State.monitorDo_same
    | with_reducible apply State.lockedDo_same
    | with_reducible apply State.flagModule_same
    | (with_reducible refine Sub.trans hM ?_; decide)
    | intro _
    | with_reducible split

theorem execSlcRetrain_same (p : Fin 4) {s t : State}
    (h : execSlcRetrain p s = .next t) : Same 13194407968768 s t := by
  refine State.on_same h ?_
  have hk := Same.refl 13194407968768 s
  have hM := Sub.refl 13194407968768
  try dsimp only
  repeat' first
    | with_reducible assumption
    | with_reducible apply State.monitorDo_same
    | with_reducible apply State.lockedDo_same
    | with_reducible apply State.retrain_same
    | (with_reducible refine Sub.trans hM ?_; decide)
    | intro _
    | with_reducible split

theorem execPreempt_same (w : Fin 16) {s t : State}
    (h : execPreempt w s = .next t) : Same 13194182001808 s t := by
  refine State.on_same h ?_
  have hk := Same.refl 13194182001808 s
  have hM := Sub.refl 13194182001808
  try dsimp only
  repeat' first
    | with_reducible assumption
    | with_reducible apply State.monitorDo_same
    | with_reducible apply State.lockedDo_same
    | with_reducible apply State.preemptSet_same
    | (with_reducible refine Sub.trans hM ?_; decide)
    | intro _
    | with_reducible split

theorem execResume_same (w : Fin 16) {s t : State}
    (h : execResume w s = .next t) : Same 13194148447376 s t := by
  refine State.on_same h ?_
  have hk := Same.refl 13194148447376 s
  have hM := Sub.refl 13194148447376
  try dsimp only
  repeat' first
    | with_reducible assumption
    | with_reducible apply State.monitorDo_same
    | with_reducible apply State.lockedDo_same
    | with_reducible apply State.preemptClear_same
    | (with_reducible refine Sub.trans hM ?_; decide)
    | intro _
    | with_reducible split

theorem execSnapDrain_same {s t : State}
    (h : execSnapDrain s = .next t) : Same 13743937815680 s t := by
  refine State.on_same h ?_
  have hk := Same.refl 13743937815680 s
  have hM := Sub.refl 13743937815680
  try dsimp only
  repeat' first
    | with_reducible assumption
    | with_reducible apply State.monitorDo_same
    | with_reducible apply State.snapDrain_same
    | (with_reducible refine Sub.trans hM ?_; decide)
    | intro _
    | with_reducible split

end Sys2Proof.Machine
end

