-- ==== Sys2Proof/WellFormed.lean ====
section
/-! DEFINITION. Which commands the block's interfaces can carry: the sizes and ranges of operands that the types of
`Instr` leave open. A meaning does not rely on it: what it does with other operands is defined too. -/

namespace Sys2Proof

/-- Every element code, scale code and lane number of a stationary load fits its width (R74, R75). -/
def StatLoad.wf (x : StatLoad) : Bool :=
  decide (x.lanes.length ≤ 512) && x.lanes.all (fun l => l.all (fun c => decide (c < 2 ^ 16))) &&
  x.scales.all (fun l => l.all (fun c => decide (c < 2 ^ 8)))

/-- Codes of a readout element in their widths (R208). -/
def ReadElem.wf (x : ReadElem) : Bool :=
  decide (x.y < 2 ^ 32) && decide (x.yScale < 2 ^ 8) && decide (x.x < 2 ^ 32) && decide (x.xScale < 2 ^ 8) &&
  decide (x.f < 2 ^ 32) && decide (x.fScale < 2 ^ 8)

/-- FP32 codes of a dresser's element (R291). -/
def DressElem.wf (x : DressElem) : Bool :=
  decide (x.w < 2 ^ 32) && decide (x.m < 2 ^ 32) && decide (x.v < 2 ^ 32) && decide (x.working < 2 ^ 32) &&
  decide (x.r < 2 ^ 32)

/-- A channel of the kiln's pair in range (R248). -/
def KilnPair.wf (x : KilnPair) : Bool :=
  decide (x.qpos < 2 ^ 32) && decide (x.kpos < 2 ^ 32) && decide (x.segq < 2 ^ 32) && decide (x.segk < 2 ^ 32) &&
  decide (x.row < 2 ^ 32)

/-- A fault that `inject` can arm: a yard byte that exists with one bit or two, and two different lanes (R444). -/
def InjectKind.wf : InjectKind → Bool
  | .yard a b => decide (a < Config.yardBytes) && (b == 1 || b == 2)
  | .lanes _ _ l1 l2 => l1 != l2
  | _ => true

/-- Operands that the interface of a command can carry. -/
def Instr.wf : Instr → Bool
  | .bootRestoreDone modules => modules.all (fun m => decide (m.2.length ≤ 61))
  | .bootStockpileDone failed => failed.all (fun g => decide (g < Config.granules))
  | .bootFaceGroupDone results => decide (results.length ≤ 8)
  | .pairLoRead _ off => decide (off < 2 ^ 24) && decide (off % 4 = 0)
  | .pairLoWrite _ off _ => decide (off < 2 ^ 24) && decide (off % 4 = 0)
  | .pairHiWrite _ off _ => decide (off < 2 ^ 24) && decide (off % 4 = 0)
  | .registerWrite _ off _ _ => decide (off < 2 ^ 24)
  | .tallyApertureWrite off _ _ => decide (off < 8192)
  | .sleep level => level != 3
  | .stationaryLoadFull _ _ _ load => load.wf
  | .contextRestoreDone _ _ active idle _ => active.wf && idle.wf
  | .readoutDone _ _ elems => elems.all ReadElem.wf
  | .fabricReadReturn _ _ data => decide (data.length = 64)
  | .frameReceive _ bytes => decide (bytes.length = 256)
  | .kilnResult _ _ _ _ pair => pair.wf
  | .slabDone _ _ _ elems => elems.all DressElem.wf
  | .moduleInsert _ identity _ => decide (identity.length = 61)
  | .modulePoll _ _ _ lanes => decide (lanes.length = 9)
  | .moduleReady _ bias => decide (bias.length = 9)
  | .tempRead degrees => decide (degrees.length = 84)
  | .yardCorrected addr => decide (addr < Config.yardBytes)
  | .uncorrectableYard addr => decide (addr < Config.yardBytes)
  | .patrolScrub line errors => decide (line < Config.yardBytes / 64) && !errors.isEmpty
  | .peerSnapshotRecord slot _ data => decide (slot < 2) && decide (data.length ≤ 4096)
  | .rd off n => decide (off % 4 = 0) && decide (1 ≤ n) && decide (n ≤ 64)
  | .wr off _ => decide (off < 2 ^ 24)
  | .log n _ => decide (1 ≤ n) && decide (n ≤ 256)
  | .inject kind => kind.wf
  | .keyInstall slot x y => slot != 0 && decide (x < 2 ^ 384) && decide (y < 2 ^ 384)
  | .baud rate => decide (rate % 100 = 0) && decide (9600 ≤ rate) && decide (rate ≤ 3000000)
  | _ => true

end Sys2Proof
end

