-- ==== Sys2Proof/Tests/Slice0.lean ====
section
/-! SUPPORT. Tests. First an ill-formed command for each check of `Instr.wf`; then, for each statement of
Certificates/Slice0/Obligations.lean with hypotheses, small states and operands that meet them, clause by clause, most
with the value that the rule gives there. -/

namespace Sys2Proof.Tests

set_option Elab.async false

open Sys2Proof Sys2Proof.Machine

/-- The state that a command leads to. -/
def after (c : Instr) (s : State) : State :=
  match exec c s with
  | .next t => t
  | _ => s

/-- A state in phase `n` of the power-up order. -/
def phase (n : Nat) : State := { State.reset with glb := { Glb.reset with boot := n } }

/-- A booted engine whose yard and ports run. -/
def up : State :=
  { phase 7 with
    glb := { Glb.reset with boot := 7, ready := true }, tiles := [(3, .run), (72, .run), (106, .run)]
    yard := { Yard.reset with cleared := true }
    foreman := { Foreman.reset with healthy := true, inactiveOk := true } }

/-- The same with one face's registers. -/
def withFace (f : Face) : State := { up with faces := [(3, f)] }

/-- An unlocked session. -/
def unlocked : State := { up with monitor := { Monitor.reset with unlocked := true } }

/-- Code and flags of the newest record. -/
def newest (s : State) : Nat × Nat := (s.log.recs.map (fun r => (r.code, r.flags))).headD (0, 0)

/-! ### Well-formedness -/

theorem test_wf_accepts : ([.powerOn, .rd 0 1, .baud 9600, .keyInstall 1 2 3, .log 256 none, .sleep 2] : List Instr).all
    Instr.wf = true := by decide +kernel

theorem test_wf_refuses_registers : ([.pairLoRead .host 2, .pairLoRead .host (2 ^ 24), .pairLoWrite .host 6 0,
    .pairHiWrite .host 1 0, .registerWrite .host (2 ^ 24) 4 0, .tallyApertureWrite 8192 8 0, .sleep 3, .rd 2 1, .rd 0 0,
    .rd 0 65, .wr (2 ^ 24) 0] : List Instr).all (fun c => !c.wf) = true := by decide

theorem test_wf_refuses_boot : ([.bootRestoreDone [(0, List.replicate 62 0)], .bootStockpileDone [6144],
    .bootFaceGroupDone (List.replicate 9 (FaceTest.mk 0 [] [] false))] : List Instr).all (fun c => !c.wf) = true := by
  decide

theorem test_wf_refuses_data : ([.stationaryLoadFull 0 0 0 { lanes := [[2 ^ 16]], scales := [] },
    .stationaryLoadFull 0 0 0 { lanes := [], scales := [[256]] },
    .contextRestoreDone 0 0 { lanes := [[2 ^ 16]], scales := [] } default [],
    .readoutDone 0 0 [{ (default : ReadElem) with yScale := 256 }], .fabricReadReturn 0 0 [], .frameReceive 0 [],
    .kilnResult 0 0 0 0 { (default : KilnPair) with qpos := 2 ^ 32 }, .slabDone 0 0 0 [{ (default : DressElem) with w := 2 ^ 32 }],
    .moduleInsert 0 [] true, .modulePoll 0 false false [], .moduleReady 0 [], .tempRead [],
    .peerSnapshotRecord 2 0 [], .yardCorrected Config.yardBytes, .uncorrectableYard Config.yardBytes,
    .patrolScrub 0 [], .patrolScrub (Config.yardBytes / 64) [0]] : List Instr).all (fun c => !c.wf) = true := by
  decide +kernel

theorem test_wf_refuses_monitor : ([.log 0 none, .log 257 none, .inject (.yard Config.yardBytes 1), .inject (.yard 0 0),
    .inject (.lanes 0 0 4 4), .keyInstall 0 1 1, .keyInstall 1 (2 ^ 384) 0, .baud 9650, .baud 9500, .baud 3000100] :
    List Instr).all (fun c => !c.wf) = true := by decide +kernel

/-! ### Resets, boot and the foreman -/

theorem test_supply : (State.reset.supply = .good ∧ (after .clockLoss up).supply = .noClock ∧ (after .clockLoss up).glb.cause = 1) ∧
    (after .alwaysOnRailLoss up).supply = .noRail ∧ (after .nightClockPresent (after .clockLoss up)).glb.boot = 1 ∧
    (after .powerOn up).glb.cause = 0 := by decide +kernel

theorem test_host_reset : (after .hostReset up).glb.resetHeld = true ∧ (after .hostReset up).clk 72 = .off ∧
    (after .hostResetRelease (after .hostReset up)).clk 72 = .wakingOff ∧ (after .engReset up).glb.cause = 2 ∧
    (after .engReset up).clk 72 = .wakingOff ∧ up.glb.resetHeld = false := by decide +kernel

theorem test_boot_rom : (after (.bootRomDone false false) (phase 1)).glb.boot = 2 ∧
    (after (.bootRomDone true false) (phase 1)).foreman.activeB = true ∧
    (after (.bootRomDone true true) (phase 1)).glb.boot = 15 ∧
    (after (.bootRomDone true true) (phase 1)).log.head = 3 := by decide +kernel

theorem test_boot_phases : ((phase 2).clk 72 = .off ∧ (phase 2).clk 106 = .nap ∧
      (after (.bootRestoreDone [(1, [7])]) (phase 2)).glb.boot = 3 ∧
      (after (.bootRestoreDone [(1, [7])]) (phase 2)).surge.ledger = 2 ^ 28) ∧
    ((after (.bootYardDone []) (phase 3)).glb.boot = 4 ∧ (after (.bootYardDone [5]) (phase 3)).log.head = 1) ∧
    ((after (.bootStockpileDone [9]) (phase 4)).glb.stockfail = true) ∧
    ((after (.bootFaceGroupDone []) (phase 5)).glb.boot = 5) ∧
    ((after (.bootUnitsDone (UnitTest.mk [] [] [] [] false false)) { up with glb := (phase 6).glb }).glb.ready = true) ∧
    ((after (.bootUnitsDone (UnitTest.mk [] [] [] [] false false)) (phase 6)).glb.ready = false) := by decide +kernel

theorem test_foreman_restarts : ((after .watchdogRestart up).foreman.restarting = true ∧
      (after .watchdogRestart up).glb.cause = 3) ∧
    ((after .watchdogRevert { up with foreman := { Foreman.reset with trial := true } }).foreman.activeB = true) ∧
    ((after .foremanRestartDone (after .watchdogRestart up)).monitor.out = [.ready false, .prompt]) ∧
    ((after .firmwareReportsHealthy { up with glb := (phase 7).glb }).glb.ready = true) := by decide +kernel

theorem test_firmware_updates : (after .fmnCtlUpdate up).foreman.update = 1 ∧
    (after (.fwUpdateDone [] true) (after .fmnCtlUpdate up)).foreman.update = 3 ∧
    newest (after (.fwUpdateDone [] true) (after .fmnCtlUpdate up)) = (0x0704, 0) ∧
    up.foremanUp = true ∧ (after .fmnCtlSwap up).foreman.activeB = true ∧ (after .fmnCtlSwap up).nv.bootB = true := by
  decide +kernel

/-! ### The machine as a whole -/

theorem test_step_takes_front : (match step { up with pending := [.fmnCtlUpdate, .lock] } with
    | .next t => t.pending == [.lock] && t.foreman.update == 1
    | _ => false) = true := by decide +kernel

theorem test_idle_night : up.pending = [] ∧ (match step up with
    | .next t => t.nc == 1
    | _ => false) = true ∧ (after .clockLoss up).pending = [] ∧ (after .clockLoss up).supply ≠ .good := by decide +kernel

theorem test_nothing_without_supply : after .lock (after .clockLoss up) = after .clockLoss up := by decide +kernel

theorem test_yard_hole : (match exec (.yardCorrected Config.yardBytes) up with
    | .fault (.yardHole a) => a == Config.yardBytes
    | _ => false) = true ∧ (match exec (.yardCorrected (Config.yardBytes - 1)) up with
    | .next _ => true
    | _ => false) = true := by decide +kernel

theorem test_sound : Sound up ∧ ManufacturerKey up := by
  refine ⟨⟨by decide, by decide, ⟨by decide, by decide⟩, by decide, ?_⟩, rfl⟩
  intro i h
  cases h

theorem test_monitor_ready : MonitorReady up ∧ MonitorReady unlocked :=
  ⟨⟨by decide, by decide, by decide, by decide, by decide, by decide, by decide⟩,
   ⟨by decide, by decide, by decide, by decide, by decide, by decide, by decide⟩⟩

theorem test_keys : (up.nv.keys.length = 4 ∧ nth KeySlot.empty up.nv.keys 0 = .manufacturer) ∧
    (nth KeySlot.empty (after (.keyInstall 1 2 3) unlocked).nv.keys 1 = .key 2 3) ∧
    (nth KeySlot.empty (after (.keyRevoke 1) (after (.keyInstall 1 2 3) unlocked)).nv.keys 1 = .revoked) ∧
    ((after (.keyInstall 1 2 3) up).nv.keys = up.nv.keys) ∧
    (nth KeySlot.empty (after (.keyInstall 1 2 3) (after (.keyRevoke 1) (after (.keyInstall 1 2 3) unlocked))).nv.keys 1 =
      .revoked) := by decide +kernel

theorem test_counters : (after (.riskThrWrite 0) up).log.head = up.log.head + 1 ∧
    (after (.riskThrWrite 0) up).glb.boot = up.glb.boot := by decide +kernel

/-! ### Registers -/

theorem test_pairs : (pairOffset 0x60100 false = true ∧ up.waitTile 0x60100 = none ∧ up.answeredAway 0x60100 = false) ∧
    (up.pairSide .host 0x60100).staged = none ∧
    (after (.pairHiWrite .host 0x60104 2) (after (.pairLoWrite .host 0x60100 7) up)).load.addr = 0x200000007#64 ∧
    (after (.pairHiWrite .host 0xE0014 1) up).snap.restoreAddr = 0x100000000#64 ∧
    (after (.pairHiWrite .host 0xF000C 1) up).foreman.fwAddr = 0x100000000#64 ∧
    (after (.pairHiWrite .host 0x65FFC 1) up).tally 1023 = 2 ^ 32 := by decide +kernel

theorem test_register_writes : (up.waitTile 0x20 = none ∧ after (.registerWrite .host 0x20 2 5) up = up) ∧
    (up.waitTile 0x100004 = some (.face 0) ∧ (after (.registerWrite .host 0x100004 4 5) up).clk 0 = .wakingOff) ∧
    ((after (.registerWrite .host 0x20 4 0xFFFFFFFF) up).glb.evtEn = 0xFFFFF#32) ∧
    (up.image = none ∧ up.clk 3 = .run ∧ (up.face 3).away = false ∧
      ((after (.registerWrite .host 0x130008 4 0xC) up).face 3).acc = 4#32) ∧
    (newest (after (.registerWrite .host 0x130008 4 1) { up with image := some default }) = (0x0701, 0)) ∧
    (up.bus.waiting.find? (fun y => y.tile == .yard) = none) ∧
    (let s := after (.registerWrite .host 0x64000 4 1) { up with tiles := [] }
     s.bus.waiting.length = 1 ∧ (after (.registerAccessComplete .yard) { s with tiles := [(72, .run)] }).bus.waiting = []) := by
  decide +kernel

theorem test_tallies : ((after (.tallyAdd 1023 1) { up with tallies := [(1023, 2 ^ 64 - 2)] }).tally 1023 = 2 ^ 64 - 1) ∧
    (newest (after (.tallyAdd 1023 1) { up with tallies := [(1023, 2 ^ 64 - 1)] }) = (0x0705, 0)) ∧
    ((after (.tallyAdd 0 9) { up with tiles := [] }).tallyWait = [(0, 9)]) ∧
    ((after (.tallyApertureWrite 8184 8 3) up).tally 1023 = 3) ∧
    ((after (.tallyApertureWrite 4 8 3) up).apertureErr = 1) := by decide +kernel

theorem test_fields : (newest (after (.riskThrWrite 0) up) = (0x0702, 0)) ∧ ((after (.riskThrWrite 9) up).health.thr = 9) ∧
    (newest (after (.riskThrWrite 9) { up with health := { up.health with score := 9 } }) = (0x0402, 0)) ∧
    ((after (.uartBaudWrite 96) up).foreman.baud = 96 ∧ newest (after (.uartBaudWrite 95) up) = (0x0702, 0)) ∧
    (((after (.pwrFaceCapWrite 3 0x81) up).face 3).cap = 8 ∧ newest (after (.pwrFaceCapWrite 3 0x70) up) = (0x0702, 0)) ∧
    (((after (.fceCtlCntClr 3) (withFace { Face.reset with unchk := [(0, 5)] })).face 3).unchk = []) := by decide +kernel

theorem test_crossings : (newest (after (.crossModeWrite 2 1) up) = (0x0702, 0)) ∧
    ((after (.crossModeWrite 1 1) up).crossing 1).asked.isSome = true ∧
    ((after (.crossingChangeApply 1) (after (.crossModeWrite 1 1) up)).crossing 1).mode.paced = true ∧
    (newest (after (.fabricLockCheck 41943043) (after (.crossModeWrite 1 1) up)) = (0x0605, 0)) ∧
    (after (.fabricLockCheck 41943042) (after (.crossModeWrite 1 1) up)).log.head = 0 ∧
    (up.crossing 1).asked = none := by decide +kernel

theorem test_mismatches : ((after (.crossingParity (.register .host)) up).bus.hostErrors = 1) ∧
    (((after (.crossingParity (.foldLine 3 0)) up).face 3).mismatches = [0]) ∧
    (up.faceGone 3 = false ∧ (after (.crossingParity (.foldLine 3 0)) (withFace { Face.reset with mismatches := [0, 0] })).clk 3 = .off) ∧
    (up.hoist 0).cut = none := by decide +kernel

theorem test_away_faces :
    (after (.registerWrite .host 0x130008 4 1) (withFace { Face.reset with role := .retired })) =
      withFace { Face.reset with role := .retired } ∧
    (withFace { Face.reset with role := .failed, benches := 3 }).readValue .host 0x130004 = 0x7F180024 ∧
    (withFace { Face.reset with role := .failed, acc := 7 }).readValue .host 0x130008 = 0 ∧
    (after (.rd 0x130004 1) (withFace { Face.reset with role := .retired })).monitor.out =
      [.reg 0x130004 0x7F000023, .ok, .prompt] := by decide +kernel

/-! ### Clocks, sleep, frequency, surge, heat -/

theorem test_tile_clocks : (up.active 3 = true ∧ up.tileIdle 3 = true ∧ (after (.napIdleExpire (.face 3)) up).clk 3 = .nap) ∧
    (let s := { up with glb := { up.glb with asleep := 2 } }
     s.tileIdle 72 = true ∧ (after (.napIdleExpire .yard) s).clk 72 = .off) ∧
    (let s := { up with tiles := [(3, .nap), (88, .nap)] }
     s.tileIdle 88 = true ∧ (after (.offIdleExpire (.dresser 0)) s).clk 88 = .off ∧
     s.tileIdle 3 = true ∧ (after (.offIdleExpire (.face 3)) s).clk 3 = .off) := by decide +kernel

theorem test_waking : ((after (.wakeDone (.face 3)) { up with tiles := [(3, .wakingNap)], stalls := [(1, .face 3)] }).stalls = []) ∧
    (let s := after (.wakeDone (.face 3)) { withFace { Face.reset with acc := 7 } with tiles := [(3, .wakingOff)] }
     s.clk 3 = .run ∧ (s.face 3).acc = 0) ∧
    ((after (.wakeDone .yard) { up with tiles := [(72, .wakingNap)] }).clk 72 = .run ∧ up.tallyWait = []) ∧
    (after (.wakeDone .yard) { up with tiles := [(72, .wakingNap)], glb := { up.glb with tripped := true } }).clk 72 = .wakingNap ∧
    ((after .yardClearDone { up with yard := Yard.reset, glb := (phase 7).glb }).glb.ready = true) ∧
    (after .yardClearDone up).log.head = 0 := by decide +kernel

theorem test_sleep : ((after (.sleep 1) up).glb.sleepReq = 1 ∧ newest (after (.sleep 3) up) = (0x0702, 0)) ∧
    (up.quiet = true ∧ (after .sleepEnter (after (.sleep 1) up)).glb.asleep = 1 ∧
      (after .sleepEnter (after (.sleep 1) up)).clk 72 = .nap) ∧
    ((after .sleepEnter (after (.sleep 2) up)).clk 72 = .off) ∧
    (newest (after (.sleepStall 4 (.face 0)) up) = (0x0606, 0)) ∧
    (after (.sleepStall 4 (.face 3)) up).log.head = 0 := by decide +kernel

theorem test_frequency : (up.active 3 = true ∧ (after (.frequencyStep 4) up).faces = []) ∧
    ((after (.droop [3]) up).surge.droops = 1 ∧ ((after (.droop [3]) up).face 3).stretched = true) ∧
    ((after (.droopClear [3]) (after (.droop [3]) up)).face 3).stretched = false := by decide +kernel

theorem test_aging : ((up.agingOf 3).offset < 10 ∧ (up.face 3).away = false) ∧
    10 ≤ ({ up with nv := { up.nv with aging := [(3, { offset := 10, reductions := 0 })] } }.agingOf 3).offset := by
  decide +kernel

theorem test_surge : (up.surging = false ∧ (after .surgeResume { up with surge := { up.surge with permitted := false } }).surge.permitted = true) ∧
    ((after .ledgerStore { up with surge := { up.surge with ledger := 2 ^ 28 } }).nv.ledger = 2 ^ 28) ∧
    ((after .ledgerStore { up with surge := { up.surge with ledger := 2 ^ 28 - 1 } }).nv.ledger = 0) ∧
    (newest (after .surgeWithdraw { up with surge := { up.surge with ledger := 360000000000000 } }) = (0x0604, 0)) ∧
    (after .surgeWithdraw { up with surge := { up.surge with ledger := 359999999999999 } }).surge.withdrawn = false := by
  decide +kernel

/-- A face that surges, with a spent budget. -/
def surging : State :=
  { withFace { Face.reset with freq := 20, role := .inService } with
    surge := { Surge.reset with en := true, buckets := [2 ^ 24] } }

theorem test_surge_window : surging.surgeLimits.1 < surging.surgeWindow := by decide +kernel

theorem test_heat : (let s := after (.tempRead ((List.replicate 83 (0 : Int)) ++ [115])) up
     s.glb.tripped = true ∧ s.hot = true ∧ (s.port 3).half = true) ∧
    (((after (.tempRead (List.replicate 84 (105 : Int))) up).glb.tripped = false)) ∧
    (((after (.tempRead ([0, 0, 0, 105] ++ List.replicate 80 (0 : Int))) up).face 3).ceiling = 15) ∧
    ((after (.tempRead (List.replicate 84 (104 : Int))) up).log.head = 0) ∧
    (let s := after .tripClr { up with glb := { up.glb with tripped := true } }
     s.glb.tripped = false ∧ (s.face 3).ceiling = 12) ∧
    ((after .tripClr { up with hot := true, glb := { up.glb with tripped := true } }).glb.tripped = true) := by decide +kernel

/-! ### Loading an image; steps and cuts -/

/-- A D-cut of working 0 on bench 0 of face 3: one slice and one pass. -/
def dCut : CutDesc :=
  { CutDesc.empty with
    kind := 1, faces := 8, benches := 1, split := 1, period := 1, passL := 32, passJ := 16, axR := 32, axP := 16, axL := 512,
    axB0 := 1, axB1 := 1, pTile := 16, lTile := 512, progress := { idx := 0xFFFF, add := 0 }, hoists := [],
    maps := [0xFFFF, 0xFFFF, 2, 0xFFFF]
    area := .d { (default : DArea) with accRegion := 0 } }

/-- A U-cut of working 0, on dresser 0, that consumes seam 0. -/
def uCut : CutDesc :=
  { CutDesc.empty with
    kind := 4, period := 1, hoists := [7], progress := { idx := 0xFFFF, add := 0 }
    area := .u { (default : UArea) with drsMask := 1, freezeMap := 0xFFFF, source := 0xFFFF } }

/-- An image with the two cuts, an accumulator region and its headers. -/
def img : Image :=
  { (default : Image) with
    header := { (default : Header) with workings := 2, cuts := 8 }
    cuts := [(4, uCut), (5, dCut)]
    regions := [(0, { (default : Region) with size := 262144, purpose := 1, hdr := 1 }),
      (1, { (default : Region) with base := 0x100000, size := 4096, purpose := 2 }),
      (2, { (default : Region) with base := 0x200000, size := 0x100000, purpose := 4 })]
    maps := [(2, default)] }

/-- The engine under the image, with face 3 in service and working 0 running. -/
def loaded : State :=
  { up with
    image := some img, faces := [(3, { Face.reset with role := .inService, benches := 4 })]
    tiles := [(3, .run), (72, .run), (88, .run), (106, .run)]
    working := [(0, { Working.reset with seq := .running })] }

/-- The same with a step open and both cuts pending. -/
def stepped : State :=
  { loaded with
    working := [(0, { Working.reset with seq := .running, isOpen := true })]
    cuts := [(4, { CutRun.reset with phase := .pending, desc := uCut }), (5, { CutRun.reset with phase := .pending, desc := dCut })] }

/-- The D-cut runs, its pass at work on its bench. -/
def running : State :=
  { stepped with
    cuts := [(5, { CutRun.reset with phase := .running, desc := dCut, maps := img.maps, items := 1 })]
    benches := [(12, { Bench.reset with cut := some 5, cur := some (dCut.pass 0 0), taken := true })] }

theorem test_load_reads : (up.load.phase = .idle ∧ up.glb.ready = true ∧ (after .loadStart up).load.phase = .firstRead) ∧
    ((after .loadStart { up with glb := (phase 7).glb }).load.ignored = 1) ∧
    ((after (.loadFirstReadDone [] true) (after .loadStart up)).load.reason = 9) ∧
    ((after (.loadFirstReadDone [] false) (after .loadStart up)).load.reason = 1) ∧
    (up.quiet = true ∧ loaded.quiet = false) ∧
    (let s := { up with load := { LoadState.reset with phase := .bankWait, staged := some img } }
     s.banksBusy img = false ∧ (after .tableBankWaitEnd s).load.phase = .secondRead) := by decide +kernel

theorem test_load_commits :
    (let s := { up with load := { LoadState.reset with phase := .secondRead, staged := some img } }
     img.header.kind = 0 ∧ (after (.loadCommit [] true) s).image = none ∧ (after (.loadCommit [] true) s).load.reason = 9) ∧
    (let p := { img with header := { img.header with kind := 1 } }
     let s := { loaded with load := { LoadState.reset with phase := .secondRead, staged := some p } }
     s.atCommitPoint p = true ∧ (after (.partialCommit [] true) s).image.isSome = true ∧
     (after (.partialCommit [] true) s).load.reason = 9) := by decide +kernel

theorem test_sequencers : (loaded.workCount = 2 ∧ ((after (.wrkCtlRun 1) loaded).work 1).seq = .running) ∧
    ((after (.wrkCtlStop 0) loaded).work 0).seq = .stopped ∧ ((after (.wrkCtlStop 0) stepped).work 0).seq = .stopping ∧
    stepped.heldByBroken 0 = false ∧
    (let s := after (.glbPreemptSet 0) running
     s.preempted 0 = true ∧ (s.cut 5).phase = .stopped ∧ (s.cut 5).status = 0x40 ∧ s.waitsForFace 5 = false ∧
     ((after (.glbPreemptClear 0) s).cut 5).phase = .running) ∧
    (let s := { after (.glbPreemptSet 0) running with working := [(0, { Working.reset with seq := .halted })] }
     (after (.glbPreemptClear 0) s).preempted 0 = false ∧ ((after (.glbPreemptClear 0) s).cut 5).phase = .stopped) ∧
    (let s := { running with
       working := [(0, { Working.reset with seq := .halted })]
       cuts := [(5, { CutRun.reset with phase := .stopped, desc := dCut })] }
     ((after (.wrkCtlRun 0) s).cut 5).phase = .running) := by decide +kernel

theorem test_steps_open : (loaded.mayOpen 0 = true ∧ loaded.refused = [] ∧ loaded.entriesOf 0 = [4, 5] ∧
      (∀ e ∈ loaded.entriesOf 0, (loaded.descOf e).kind ≠ 6) ∧ dCut.eligible (loaded.work 0).nextStep false = true) ∧
    (((after (.stepOpen 0) loaded).work 0).isOpen = true ∧ ((after (.stepOpen 0) loaded).cut 5).phase = .pending) ∧
    (stepped.mayOpen 0 = false) ∧
    (let s := { stepped with cuts := [(5, { CutRun.reset with phase := .ended, status := 0x50, desc := dCut })] }
     s.mayRerun 5 = true ∧ ((after (.rerun 5) s).cut 5).phase = .pending) ∧
    (newest (after (.rerun 5) stepped) = (0x0702, 0)) := by decide +kernel

/-- What the two starts read. -/
def reads : StartReads := { (default : StartReads) with hyper := List.replicate 64 0 }

/-- The seam that the U-cut consumes, held. -/
def held : Seam :=
  { (default : Seam) with region := 0, split := 1, rows := 16, cols := 512, pTile := 16, lTile := 512, handoff := 4, phase := .held }

theorem test_cuts_start : (stepped.startable 5 = true ∧ stepped.tilesRun dCut = true ∧ stepped.outranked 5 = false ∧
      stepped.startPorts dCut = [] ∧ stepped.readsFit img dCut reads = true ∧
      stepped.startRefusal img 5 dCut reads = none ∧
      ((after (.cutStart 5 reads) stepped).cut 5).phase = .running ∧
      ((after (.cutStart 5 reads) stepped).bench 3 0).cut = some 5) ∧
    (let s := { stepped with seams := [(0, held)], hoists := [(7, { Hoist.reset with st := .idle, tmpl := some default })] }
     s.startable 4 = true ∧ s.tilesRun uCut = true ∧ s.outranked 4 = false ∧ s.readsFit img uCut reads = true ∧
     s.startRefusal img 4 uCut reads = none ∧ s.healthyDressers ≠ [] ∧
     ((after (.cutStart 4 reads) s).hoist 7).cut = some 4) ∧
    (let s := { stepped with refused := [(5, { status := 0x21, detailMap := 2, detailAux := 3 })] }
     ((after (.cutStart 5 reads) s).cut 5).status = 0x21 ∧ (after (.cutStart 5 reads) s).glb.evt = 4) ∧
    (let s := { stepped with tiles := [(72, .run), (106, .run), (3, .nap)] }
     s.mayStart 5 = true ∧ (after (.cutStart 5 reads) s).clk 3 = .wakingNap) ∧
    (loaded.mayStart 5 = false) := by decide +kernel

theorem test_cuts_end :
    (let s := { running with
       cuts := [(5, { CutRun.reset with phase := .running, desc := { dCut with dones := [{ idx := 9, add := 2 }] }, items := 0 })]
       benches := [] }
     (s.publish 5).cutDone 5 = true ∧ ((after (.cutEnd 5) s).cut 5).phase = .ended ∧ (after (.cutEnd 5) s).tally 9 = 2) ∧
    ((running.publish 5).cutDone 5 = false ∧ ((after (.cutEnd 5) running).cut 5).phase = .running) := by decide +kernel

/-! ### Benches, folds, readouts and buffers -/

/-- The pass's load stands full on the idle side. -/
def fullSide : FeederSide := { (default : FeederSide) with tag := some (dCut.pass 0 0).tag, full := true }

theorem test_bench_filling : ((running.bench 3 0).idle.held = false ∧
      ((after (.stationaryLoadFull 3 0 8 { lanes := [[1]], scales := [[127]] }) running).bench 3 0).idle.tag = some 8) ∧
    (let s := { running with benches := [(12, { Bench.reset with cut := some 5, work := [dCut.pass 0 0], feedB := fullSide, feedA := fullSide })] }
     (s.bench 3 0).nextSide.tag = some (dCut.pass 0 0).tag ∧ s.blockReady 5 3 0 = true ∧
     ((after (.scaleUnitDone 3 0 [[127]]) s).bench 3 0).cur = some (dCut.pass 0 0)) ∧
    (let s := { running with benches := [(12, { Bench.reset with
       cut := some 5, cur := some (dCut.pass 0 0), work := [dCut.pass 0 0], feedB := fullSide, feedA := fullSide })] }
     ((after (.scaleUnitDone 3 0 [[127]]) s).bench 3 0).nextPre = some [[127]]) ∧
    ((running.bench 3 0).nextSide.full = false) := by decide +kernel

/-- A shadow of one pocket, that no check has to clear. -/
def shadow : Shadow :=
  { (default : Shadow) with
    cut := 5, pass := dCut.pass 0 0, cleared := true, unchecked := true
    pockets := [(0, { w := 3, e := 0, nan := false })] }

theorem test_pass_boundaries : (running.monitor.armed = [] ∧
      (((after (.passBoundary 3 0 [] [] []) running).bench 3 0).shadow.isSome = true)) ∧
    (let s := { running with benches := [(12, { Bench.reset with
       cut := some 5, cur := some (dCut.pass 0 0), taken := true, shadow := some shadow })] }
     ((after (.passBoundary 3 0 [] [] []) s).bench 3 0).frozen = some 3) ∧
    (let s := { running with
       cuts := [(5, { CutRun.reset with phase := .stopped, desc := dCut })]
       benches := [(12, { Bench.reset with cut := some 5, cur := some (dCut.pass 0 0), stopped := true })] }
     let t := after (.contextSaveDone 3 0 [] 0 0) s
     s.ctxAddr 0 3 0 = some 0x200000 ∧ (t.bench 3 0).saved = some (dCut.pass 0 0) ∧ (t.bench 3 0).cur = none ∧
     ((after (.contextRestoreDone 3 0 default default [])
       { t with cuts := [(5, { CutRun.reset with phase := .running, desc := dCut })] }).bench 3 0).cur =
         some (dCut.pass 0 0)) := by decide +kernel

/-- A column-checked shadow whose C0 and C1 differ by 1 and 8: the error sits in lane 7. -/
def faulty : Shadow :=
  { (default : Shadow) with
    cut := 5, pass := dCut.pass 0 0, chk := { col := true, row := false, replays := 1, pair := false }
    pockets := [(7, { w := 1, e := 0, nan := false })]
    c0 := [(0, { w := 0, e := 0, nan := false })], c1 := [(0, { w := 0, e := 0, nan := false })] }

/-- The running cut with that shadow. -/
def shadowed (sh : Shadow) : State :=
  { running with benches := [(12, { Bench.reset with cut := some 5, work := [dCut.pass 0 0], shadow := some sh })] }

theorem test_checks : (let s := shadowed { faulty with pockets := [] }
      { faulty with pockets := [] }.check (s.freeLanes 3 0) = .pass ∧
      (((after (.checkEnd 3 0) s).bench 3 0).shadow.map Shadow.cleared = some true)) ∧
    (let s := shadowed faulty
     faulty.check (s.freeLanes 3 0) = .located [7] ∧ 0 < s.freeLanes 3 0 ∧
     (after (.checkEnd 3 0) s).physLane 3 0 7 = 512 ∧ ((after (.checkEnd 3 0) s).bench 3 0).replays = 1) ∧
    (let sh := { faulty with c1 := [(0, { w := 5, e := 0, nan := false })], c0 := [(0, { w := 3, e := 0, nan := false })] }
     sh.check ((shadowed sh).freeLanes 3 0) = .unlocated ∧
     (after (.checkEnd 3 0) (shadowed sh)).benchRetired 3 0 = true) := by decide +kernel

/-- A W-cut of two ranks on faces 3 and 4 with one element. -/
def wCut : CutDesc :=
  { dCut with
    kind := 2, faces := 24, split := 2, passL := 1, axR := 2, axP := 1, axL := 1, pTile := 1, lTile := 1
    area := .w { (default : WArea) with initMap := 0xFFFF, freezeMap := 0xFFFF } }

/-- The same without ranks. -/
def wOne : CutDesc := { wCut with faces := 8, split := 1, axR := 1 }

/-- The W-cut's image: its output map lies in the yard, with a second rank beside it. -/
def wImg (d : CutDesc) : Image :=
  { img with
    cuts := [(5, d)], maps := [(2, { (default : MapDesc) with type := 5, yard := true })]
    regions := [(0, { (default : Region) with size := 64, purpose := 1, hdr := 2 }),
      (1, { (default : Region) with base := 64, size := 64, purpose := 1, hdr := 2 }),
      (2, { (default : Region) with base := 4096, size := 4096, purpose := 2 })] }

/-- The engine with the W-cut running, and a shadow on bench 0 of face 3 or none. -/
def wRun (d : CutDesc) (sh : Option Shadow) : State :=
  { loaded with
    image := some (wImg d)
    cuts := [(5, { CutRun.reset with phase := .running, desc := d, maps := (wImg d).maps, items := 1 })]
    benches := match sh with
      | some x => [(12, { Bench.reset with cut := some 5, shadow := some x })]
      | none => [] }

/-- The shadow of the W-cut's pass. -/
def wShadow : Shadow := { shadow with pass := wOne.pass 0 0 }

theorem test_folds : let s := wRun wOne (some wShadow)
    let u : TileRef := { working := 0, hdr := 4096, base := 0, pitch := 1, rows := 1, cols := 1 }
    s.passTile 5 3 wShadow.pass = some u ∧ s.orderMet 5 3 wShadow.pass = true ∧
    s.slotFree 5 3 wShadow.pass = true ∧ s.initialMet 5 wShadow.pass u = true ∧ Mem.wf s.yard.mem = true ∧
    (readHdr (after (.fold 3 0) s).yard.mem 4096).folds = 1 ∧ ((after (.fold 3 0) s).bench 3 0).shadow = none ∧
    (let t := s.putYard 4096 { Hdr.reset with folds := 1 }.bytes
     (readHdr t.yard.mem 4096).slot = 0xFFFF ∧ wShadow.contributions.map Prod.fst = [(0, 0)] ∧
     (readHdr (after (.fold 3 0) t).yard.mem 4096).folds = 2 ∧
     (after (.fold 3 0) t).elemCode u (readHdr t.yard.mem 4096) 0 0 = 512 * 2 ^ 29 + 2 ^ 28) := by decide +kernel

theorem test_trees : let s := wRun wCut none
    s.levelDone 5 0 0 0 = true ∧ s.levelDone 5 0 1 0 = true ∧ wCut.levels = 1 ∧ wCut.slices = 1 ∧
    (s.rankTile 5 0 0).map TileRef.hdr = some 4096 ∧ (s.rankTile 5 0 1).map TileRef.hdr = some 4104 ∧
    treeKey 0 0 1 ∈ ((after (.treeCombination 5 0 1 0) s).cut 5).trees ∧
    (let t := s.putYard 4104 { Hdr.reset with folds := 1, e128 := true, slot := 0 }.bytes
     (readHdr t.yard.mem 4104).e128 = true ∧
     (readHdr (after (.treeCombination 5 0 1 0) t).yard.mem 4104).slot = 0xFFFF ∧
     (readHdr (after (.treeCombination 5 0 1 0) t).yard.mem 4096).slot = 0) := by decide +kernel

theorem test_initial_fold :
    let d := { wOne with area := .w { (default : WArea) with initMap := 2, freezeMap := 0xFFFF } }
    let s := wRun d none
    (readHdr s.yard.mem 4096).folds = 0 ∧ (s.rankTile 5 0 0).isSome = true ∧
    (readHdr (after (.initialFoldDone 5 0 []) s).yard.mem 4096).folds = 1 := by decide +kernel

theorem test_readouts : let s := { running with benches := [] }
    s.liveCuts = [5] ∧ s.readySlice 5 3 0 = some 0 ∧ (s.cut 5).mapOf 2 = some default ∧
    (s.rankTile 5 0 0).isSome = true ∧ running.readySlice 5 3 0 = none := by decide +kernel

theorem test_table_parity : ((∀ e ∈ up.liveCuts, 3 ∉ up.cutFaces (up.cut e).desc) ∧
      Tab.get 0 (after (.tableParityError 3) up).drvPerr 3 = 1) ∧
    (Tab.get 0 (running.cut 5).parity 3 = 0 ∧ ((after (.tableParityError 3) running).cut 5).flags = 0x4000#32) := by
  decide +kernel

theorem test_buffers :
    (let d := { dCut with stMode := 1, stBuf := 0, shMode := 0 }
     let s := { running with cuts := [(5, { CutRun.reset with phase := .running, desc := d })] }
     0 ∈ d.bufs ∧ s.bufPhys 0 = 0 ∧ ((s.cut 5).tileOperand .stationary 0).map Prod.fst = some 0 ∧
     (Tab.get [] (after (.tileLoadDone 0 .stationary 0 5 [[1, 2]] [] [(1, 9)]) s).tileSlots 0).length = 1) ∧
    (let d := { dCut with kind := 3, area := .a { (default : AArea) with bufs := 0x0123, allowNarrow := true } }
     let s := { running with cuts := [(5, { CutRun.reset with phase := .running, desc := d })] }
     let t := after (.tileLoadDone 3 .pages 1 5 [[0x79, 0x3D]] [[0x6B, 0x6B]] []) s
     ((s.cut 5).tileOperand .pages 1).map (fun x => (x.1, x.2.narrows)) = some (3, true) ∧
     (Tab.get [] t.tileSlots 3).map TileSlot.segments = [[[0x7A], [0x05]]] ∧ (t.cut 5).flags = 0x100#32 ∧
     after (.tileLoadDone 2 .pages 1 5 [[0x79]] [[0x6B]] []) s = s) ∧
    ((after (.tpbFault 7) up).spare.bufRet = [7] ∧ ((after (.tpbFault 7) up).tpb 7).sumErr = 1) ∧
    (let s := { up with spare := { up.spare with bufRet := [7] } }
     after (.tpbFault 7) s = s) := by decide +kernel

/-! ### Hoists and the stockpile -/

/-- A hoist of the D-cut that fills from map 2 for one receiver, with a floor of 4 granules and no more. -/
def tmpl : HoistTmpl :=
  { (default : HoistTmpl) with
    srcMap := 2, dstMap := 0xFFFF, floor := 4, tsize := 4, doneTally := 0xFFFF, borrow := 0, spillEn := true, spillHoist := 8
    spillMap := 2, detachEn := true, detachMask := 2, detachBase := 9, recvN := 2 }

/-- The running D-cut with that hoist as number 7, and idle hoists 8 and 9. -/
def hoisted (h : Hoist) : State :=
  { running with hoists := [(7, { h with tmpl := some tmpl, cut := some 5, st := .stream }),
      (8, { Hoist.reset with tmpl := some tmpl }), (9, { Hoist.reset with tmpl := some tmpl })] }

/-- A line asked for that has not come. -/
def asked (n : Nat) : LineReq := { (default : LineReq) with addr := some 0, valid := 64, errors := n }

/-- A line to be written. -/
def line (n : Nat) : LineWrite := { item := 0, addr := 0x40, bytes := [1, 2], errors := n }

theorem test_claims : let s := hoisted Hoist.reset
    (s.hoistView (s.cut 5) (s.hoist 7) false).isSome = true ∧ granulesOf 2 = 1 ∧ s.canClaim (s.hoist 7) 1 = true ∧
    ((after (.hoistClaim 7 [default, default]) s).hoist 7).nextSeq = 2 ∧
    (let t := hoisted { Hoist.reset with occ := 4 }
     t.canClaim (t.hoist 7) 1 = false ∧ ((after (.hoistClaim 7 [default]) t).hoist 7).st = .claim) := by decide +kernel

theorem test_lines_read : let s := hoisted { Hoist.reset with reqs := [asked 0], nextSeq := 1 }
    (s.hoist 7).waitingFor 0 = some (asked 0) ∧ s.fedPasses (s.hoist 7) = [] ∧ (s.hoist 7).waitingFor 1 = none ∧
    (s.hoist 7).deliver = 0 ∧
    ((after (.fabricReadReturn 7 0 (List.replicate 64 5)) s).hoist 7).deliver = 1 ∧
    ((after (.fabricReadError 7 0) s).hoist 7).errRd = 1 ∧
    ((after (.fabricReadError 7 0) (hoisted { Hoist.reset with reqs := [asked 3], nextSeq := 1 })).work 0).seq = .halted := by
  decide +kernel

theorem test_lines_written : ((after (.fabricWriteAck 7) (hoisted { Hoist.reset with out := [line 0] })).fabricByte 0x41 = some 2) ∧
    (((hoisted Hoist.reset).hoist 7).out = []) ∧ (line 0).errors < 3 ∧ 3 ≤ (line 3).errors := by decide +kernel

theorem test_receivers : (let s := hoisted { Hoist.reset with attached := 3, taken := [0, 0], nextSeq := 64, deliver := 64 }
      (s.hoist 7).takes 0 = true ∧ (s.hoist 7).refused 0 = false ∧ (s.hoist 7).granuleReady 0 = true ∧
      ((after (.receiverTake 7 0) s).hoist 7).taken = [1, 0]) ∧
    (let s := hoisted { Hoist.reset with attached := 3, taken := [8, 0], nextSeq := 1024, deliver := 1024 }
     (s.hoist 7).refused 0 = true ∧ (s.hoist 7).attachedList = [0, 1] ∧
     (s.hoist 7).attachedList.filter (fun x => (s.hoist 7).pos1 x == (s.hoist 7).posMin && bit tmpl.detachMask x) = [1] ∧
     tmpl.detachHoist 1 = 9 ∧ (s.hoist 9).isIdle = true ∧ ((after (.detach 7) s).hoist 9).cut = some 5) := by decide +kernel

theorem test_stream_end : let s := hoisted { Hoist.reset with attached := 3, taken := [0, 0] }
    (s.hoist 7).drained = true ∧ (s.hoist 7).detachedTo = [] ∧ ((after (.streamEnd 7) s).hoist 7).ended = true := by
  decide +kernel

theorem test_spill : let s := { hoisted { Hoist.reset with occ := 4 } with
      image := some { img with maps := [(2, { (default : MapDesc) with dims := 1, dim := [{ (default : DimRec) with extent := 128, stride := 1 }] })] } }
    (s.spillArea tmpl).isSome = true ∧ (s.spillArea tmpl).all (fun x => decide (2 ≤ x.2)) = true ∧
    (running.cut 5).desc.release = false ∧ s.canClaim (s.hoist 7) (granulesOf 1) = false ∧
    (let t := { s with cuts := [(5, { s.cut 5 with desc := { dCut with release := true } })] }
     ((after (.spillPark 7 [1, 2]) t).hoist 7).parked = [[1, 2]]) ∧
    (let t := hoisted { Hoist.reset with parked := [[1, 2]] }
     t.canClaim (t.hoist 7) 1 = true ∧ ((after (.spillReadback 7) t).hoist 7).parked = []) ∧
    ((after (.stockpileEccError 7 false) s).hoist 7).spCorr = 1 ∧ ((after (.stockpileEccError 7 true) s).hoist 7).spUncorr = 1 := by
  decide +kernel

/-! ### Seams, attention backward, dressers -/

/-- A W-cut that may start where an older seam is held, with a backing map and a spill hoist. -/
def evicting : State :=
  let d := { wOne with hoists := [0xFFFF, 0xFFFF, 0xFFFF, 0xFFFF, 7], area := .w { (default : WArea) with
    seamId := 1, initMap := 0xFFFF, freezeMap := 0xFFFF, spill := 1 } }
  { wRun d none with
    image := some { wImg d with
      maps := [(2, { (default : MapDesc) with type := 5, yard := true }), (3, { (default : MapDesc) with type := 4, dims := 1, base := 0x1000 })]
      regions := [(0, { (default : Region) with size := 64, purpose := 1, hdr := 2, backing := 3 }),
        (2, { (default : Region) with base := 4096, size := 4096, purpose := 2 })] }
    working := [(0, { Working.reset with seq := .running, isOpen := true })]
    cuts := [(5, { CutRun.reset with phase := .pending, desc := d })]
    hoists := [(7, { Hoist.reset with tmpl := some { tmpl with recvN := 0, spillEn := false } })]
    seams := [(0, { held with rows := 1, cols := 1, pTile := 1, lTile := 1 })] }

theorem test_eviction : evicting.mayStart 5 = true ∧ (evicting.hoist 7).isIdle = true ∧ evicting.drainsSeams = false ∧
    ((evicting.evictable (evicting.descOf 5)).map Prod.fst = some 0) ∧ (evicting.backingMap 0).isSome = true ∧
    (let s := after (.evictionStart 5) evicting
     (Tab.find s.seams 0).map Seam.phase = some .evicting ∧ (s.hoist 7).cut = some 5 ∧ (s.hoist 7).out.length = 1 ∧
     (let t := { s with hoists := [(7, { s.hoist 7 with out := [] })] }
      (Tab.find (after (.evictionDone 5 reads) t).seams 0).map Seam.phase = some .evicted)) := by decide +kernel

/-- An A-cut of one head on bench 0 of face 3, at stage 1 of its only row, with one pocket to come back. -/
def aArea : AArea := { (default : AArea) with qbLog2 := 7, heads := 1, dh := 4, ring := 1, kilnRegion := 2, smScale := 0x3F800000, segMap := 0xFFFF, biasMap := 0xFFFF, pfMap := 2, ptBase := 0 }

/-- The A-cut. -/
def aCut (a : AArea) : CutDesc :=
  { dCut with kind := 3, maps := [0xFFFF, 0xFFFF, 0xFFFF, 0xFFFF], area := .a a }

/-- The engine with the A-cut running at a stage of its pass. -/
def aRun (a : AArea) (stage : Nat) (seen : List Nat) : State :=
  { running with
    cuts := [(5, { CutRun.reset with phase := .running, desc := aCut a, maps := img.maps, items := 1 })]
    aruns := [(5, { (default : ARun) with seqs := [{ (default : SeqRow) with qCount := 1 }] })]
    kilns := [(12, { Kiln.reset with seen := seen })]
    benches := [(12, { Bench.reset with cut := some 5, shadow := some { shadow with
      pass := { (default : PassId) with stage := stage }, cleared := true } })] }

theorem test_kilns : let s := aRun aArea 1 []
    s.stagingBase (aCut aArea) aArea 3 0 = some 0x200000 ∧ ((s.bench 3 0).idle.held = false) ∧
    (Tab.get Kiln.reset (after (.kilnResult 3 0 0 0 default) s).kilns 12).seen = [0] ∧
    (let t := aRun aArea 3 []
     (Tab.get Kiln.reset (after (.kilnResult 3 0 0 0 default) t).kilns 12).seen = [0]) ∧
    kilnStage { (default : PassId) with stage := 1 } = true ∧ s.kilnAll 3 0 { shadow with pass := default } = false ∧
    ((after (.kilnDrainDone 3 0) (aRun aArea 1 [0])).bench 3 0).shadow = none ∧
    Tab.get 0 (after (.kilnParityError 4) up).klnPerr 4 = 1 ∧
    ((after (.kilnParityError 3) s).cut 5).flags = 0x4000#32 := by decide +kernel

/-- R15: an aborted cut shows 0x41 until its replay starts. -/
theorem test_aborts :
    (let s := { running with benches := [(12, { Bench.reset with
       cut := some 5, cur := some (dCut.pass 0 0), feedB := fullSide, feedA := fullSide })] }
     let t := after (.crossingParity (.benchFeed 3 0)) s
     (t.cut 5).status = 0x41 ∧ (t.cut 5).awaiting = [.pass 3 0] ∧
     ((after (.scaleUnitDone 3 0 [[127]]) t).cut 5).status = 0 ∧
     ((after (.scaleUnitDone 3 0 [[127]]) t).cut 5).awaiting = []) ∧
    (let s := { running with benches := [] }
     (s.readySlice 5 3 0).isSome = true ∧ ((after (.tableParityError 3) s).cut 5).status = 0x41) ∧
    (let s := aRun aArea 1 []
     (s.bench 3 0).restages = true ∧ ((after (.kilnParityError 3) s).cut 5).status = 0x41) := by decide +kernel

theorem test_reread :
    let s := { hoisted { Hoist.reset with reqs := [asked 0], nextSeq := 1 } with
      cuts := [(5, { CutRun.reset with phase := .running, desc := { dCut with kind := 5 }, maps := img.maps })] }
    let t := after (.fabricReadError 7 0) s
    (t.cut 5).status = 0x41 ∧ ((after (.fabricReadReturn 7 0 (List.replicate 64 5)) t).cut 5).status = 0 := by
  decide +kernel

theorem test_delta_and_pages : (let a := { aArea with deltaMake := true }
      let s := aRun a 1 []
      0 < (s.arun 5).rows a ∧ (rowOf a.heads a.qbLog2 (s.arun 5).seqs 0 0).isSome = true ∧
      Tab.find ((after (.deltaMakeDone 5 0 []) s).arun 5).delta 0 = some []) ∧
    (let s := { aRun aArea 1 [] with aruns := [(5, { (default : ARun) with pages := [(0, [default])] })] }
     (s.prefetchArea 5).isSome = true ∧ (s.arun 5).nextPage ≠ some 1 ∧ ((after (.pageCopy 5 1 [] 0) s).arun 5).copied = []) := by
  decide +kernel

theorem test_ring : let a := { aArea with ring := 2, rxMap := 2, vcKv := 1, portPrev := 2, allowNarrow := true }
    let h := blockHeader a 1 1 0 0
    let s := { aRun a 1 [] with aruns := [(5, { (default : ARun) with landed := 1, seqs := [{ (default : SeqRow) with qCount := 1 }] })] }
    (s.arun 5).waitingBlock = [] ∧ headerFits a 1 h = true ∧
    Tab.find (s.arun 5).slots 1 = none ∧ (s.slotArea 5 1).isSome = true ∧
    ((after (.ringBlockArrive 5 h []) s).arun 5).landed = 2 ∧
    ((after (.ringBlockArrive 5 [] []) s).cut 5).status = 0x50 ∧
    (let u := { s with aruns := [(5, { (default : ARun) with
        pages := [(0, [default])], seqs := [{ (default : SeqRow) with qCount := 1, ptCount := 1 }] })] }
     (u.arun 5).tilesIn a 0 = 1 ∧ ((after (.ringPartialArrive 5 2 0 []) u).arun 5).returned = [0]) := by
  decide +kernel

/-- The U-cut runs on dresser 0, over a seam of two elements. -/
def dressing : State :=
  let d := { uCut with area := .u { uCut.uArea with source := 6 } }
  { loaded with
    image := some { img with cuts := [(4, d), (6, { wOne with axP := 2, area := .w { (default : WArea) with seamId := 0 } })] }
    cuts := [(4, { CutRun.reset with phase := .running, desc := d, items := 1 })] }

theorem test_dressers : dressing.slabDresser 4 0 = some 0 ∧ dressing.seamSlabs (dressing.cut 4).desc = 1 ∧
    dressing.seamSize (dressing.cut 4).desc = 2 ∧ dressing.running 88 = true ∧ (dressing.unit 5 0).busy = none ∧
    dressing.earlierSlabs 4 0 0 = true ∧ dressing.drainsBuffer 4 1 = false ∧
    ((after (.slabDone 4 0 0 [default, default]) dressing).cut 4).done = [0] ∧
    ((after (.slabFault 4 0 0 false) dressing).cut 4).flags = 0x4000#32 ∧
    nextDresser (dressing.dressersOf (dressing.cut 4).desc.uArea) 0 = some 0 ∧
    ((after (.slabFault 4 0 0 true) dressing).unit 5 0).faults = 1 ∧
    (let s := { dressing with units := [(80, { (dressing.unit 5 0) with cutFaults := 5 })] }
     (after (.slabFault 4 0 0 true) s).spare.unitRet = [80]) := by decide +kernel

theorem test_drain_waits :
    let x : HeldWrite := { entry := 4, slab := 0, writes := [], since := 0 }
    let s := { dressing with
      cuts := (6, { CutRun.reset with phase := .running, desc := { CutDesc.empty with
        kind := 6, area := .s { (default : SArea) with content := 4 } } }) :: dressing.cuts
      snap := { Snap.reset with phase := .draining, entry := 6 } }
    s.drainsBuffer 4 (1 - (s.cut 4).desc.readBuffer (s.cut 4).step) = false ∨
      (after (.slabDone 4 0 0 [default, default]) s).snap.waiting.length = 1 ∧
      ((after (.drainWaitEnd 4 0) { dressing with snap := { Snap.reset with waiting := [x] } }).cut 4).done = [0] := by decide +kernel

/-! ### The link layer, X-cuts, modules -/

/-- Port 1 in a state. -/
def ported (q : Port) : State := { loaded with ports := [(1, q)] }

/-- A port that is up and trained. -/
def upPort : Port := { Port.reset with st := .up, trained := true }

/-- A frame with every field at its largest. -/
def fullFrame : FrameView :=
  { vc := 7, type := 3, tail := true, seq := 2 ^ 24 - 1, ack := 2 ^ 24 - 1, credVc := 7, credTotal := 65535, payload := [1] }

/-- The CRC with each byte's value made at once, so that the kernel evaluates it. -/
def crcGo : List Byte → Nat → Nat
  | [], c => c
  | b :: bs, c =>
    match (crc32cByte (BitVec.ofNat 32 c) b).toNat with
    | 0 => crcGo bs 0
    | n + 1 => crcGo bs (n + 1)

theorem crcGo_eq (bs : List Byte) (c : BitVec 32) : BitVec.ofNat 32 (crcGo bs c.toNat) = bs.foldl crc32cByte c := by
  induction bs generalizing c with
  | nil => simp [crcGo]
  | cons b bs ih =>
    have h : crcGo (b :: bs) c.toNat = crcGo bs (crc32cByte c b).toNat := by
      simp only [crcGo, BitVec.ofNat_toNat, BitVec.setWidth_eq]
      split <;> simp_all
    rw [h, ih, List.foldl_cons]

theorem crc32c_eq (bs : List Byte) : crc32c bs = ~~~ BitVec.ofNat 32 (crcGo bs 0xFFFFFFFF) := by
  rw [crc32c, ← crcGo_eq]
  rfl

theorem test_frame_reads_back : (frameBytes fullFrame).length = 256 ∧ readFrame (frameBytes fullFrame) = some fullFrame := by
  simp only [readFrame, frameBytes, crc32c_eq]
  decide +kernel

theorem test_frames_sent : (upPort.st.linked = true ∧ upPort.room = true ∧
      ((after (.frameSend 1) (ported { upPort with retry := true })).port 1).retryTx = 1) ∧
    ((after (.frameSend 1) (ported { upPort with txCtl := [[9]] })).port 1).txNext = nextSeq 0 ∧
    (let s := ported { upPort with chans := [(2, { Channel.reset with tx := [{ bytes := [1], tail := true, cut := 5 }], peerFreed := 1 })] }
     s.dataSlot 1 = true) ∧
    ((after (.frameSend 1) (ported upPort)).port 1).txNext = 0 ∧ (ported upPort).nextChannel 1 = none ∧
    ((after (.retryRepeat 1) (ported { upPort with waiting := true })).port 1).retry = true := by decide +kernel

/-- A frame with the next number. -/
def view (type : Nat) : FrameView :=
  { vc := 2, type := type, tail := false, seq := 0, ack := 0, credVc := 0, credTotal := 0, payload := [1] }

theorem test_frames_received : readFrame [] = none ∧ ((after (.frameReceive 1 []) (ported upPort)).port 1).discards = 1 ∧
    ((upPort.chan 2).discarding = false ∧ (upPort.chan 2).accepted = none ∧ upPort.rxNext = 0) := by decide +kernel

theorem test_frames_read : readFrame (frameBytes (view 1)) = some (view 1) ∧ readFrame (frameBytes (view 2)) = some (view 2) ∧
    readFrame (frameBytes (view 3)) = some (view 3) := by
  simp only [readFrame, frameBytes, crc32c_eq]
  decide +kernel

theorem test_crc64 : crc64 (List.map (BitVec.ofNat 8) [0x31, 0x32, 0x33, 0x34, 0x35, 0x36, 0x37, 0x38, 0x39]) =
    0x6C40DF5F0B497347#64 := by decide +kernel

theorem test_port_states : let q := { Port.reset with st := .training }
    (((after (.retrainDone 1 true) (ported q)).port 1).trained = true) ∧
    (((after (.retrainDone 1 false) (ported { q with fails := 1 })).port 1).fails = 2) ∧
    (((after (.retrainDone 1 false) (ported { q with fails := 2 })).port 1).st = .down) ∧
    (((after (.portDown 1) (ported upPort)).port 1).st = .down) ∧ (loaded.port 1).st.linked = false ∧
    ((loaded.unit 9 1).retired = false ∧ ((after (.slcCfgRetrain 1) (ported upPort)).port 1).st = .training) ∧
    ((after (.slcCfgRetrain 1) (ported { Port.reset with st := .down })).port 1).st = .training := by decide +kernel

/-- The image with a neighbour on port 1. -/
def netted (q : Port) : State :=
  { ported q with image := some { img with ports := [default, { (default : PortEntry) with enable := true, peerSysId := 77, peerPort := 2 }] } }

theorem test_messages : (((netted upPort).portEntry 1).map PortEntry.peerSysId = some 77) ∧
    (((after (.hello 1) (netted { upPort with st := .training, helloAcked := true, rxCtl := [helloMsg 77 2] })).port 1).st = .up) ∧
    (((after (.hello 1) (netted { upPort with rxCtl := [helloMsg 78 2] })).port 1).st = .miswired) ∧
    (((after (.close 1) (netted { upPort with rxCtl := [closeMsg] })).port 1).st = .down) ∧
    (((after (.broken 1) (netted { upPort with rxCtl := [brokenMsg 3 0 77 2] })).port 1).rxCtl = []) ∧
    field (moveMsg 3 0) 0 1 = 4 ∧ ((after (.move 1) (netted { upPort with rxCtl := [moveMsg 3 0] })).port 1).rxCtl = [] := by
  decide +kernel

/-- An X-cut of one slab on a leaf node, its stream on channel 2 of port 1. -/
def reducing (mask : Nat) (m : Tab MergeSlab) (down : List DownSlab) : State :=
  let d := { CutDesc.empty with
    kind := 5, period := 1, progress := { idx := 0xFFFF, add := 0 }
    area := .x { (default : XArea) with vc := 2, source := 6, resultRegion := 0, headroom := [0] } }
  { dressing with
    image := some { img with cuts := [(4, uCut), (3, d), (6, { wOne with axP := 2, area := .w { (default : WArea) with seamId := 0 } })] }
    cuts := [(3, { CutRun.reset with phase := .running, desc := d, items := 1 })]
    xruns := [(3, { (default : XRun) with plan := { (default : Plan) with parentPort := 1, childMask := mask, mergePort := 1, depth := 1 }, slabs := 1, merge := m, down := down })] }

theorem test_stream_headers : let h := natLe 0 12 ++ natLe 1 2 ++ natLe 0 2
    let s : List Byte → State := fun b => { reducing 0 [] [] with ports := [(1, { upPort with chans := [(2, { Channel.reset with rx := [{ bytes := b, tail := false }] })] })] }
    (s h).vcutOn 1 2 = none ∧ (s h).xcutOn 1 2 = some 3 ∧ (s h).headerCheck 3 h = 0 ∧
    (dropRx 16 (((s h).port 1).chan 2).rx).2.2 = false ∧
    (((after (.streamHeader 1 2) (s h)).port 1).chan 2).accepted = some 3 ∧
    ((after (.streamHeader 1 2) (s (natLe 9 16))).cut 3).status = 0x50 := by decide +kernel

theorem test_slabs : (let s := reducing 0 [] []
      (s.xrun 3).selected = 0 ∧ ((after (.selectorSlab 3 0 []) s).xrun 3).encoded = [0]) ∧
    (let s := reducing 1 [] []
     s.canMerge 3 0 = true ∧ (Tab.find ((after (.selectorSlab 3 0 []) s).xrun 3).merge 0).map MergeSlab.own = some true) ∧
    (let s := reducing 1 [(0, { MergeSlab.empty with own := true, children := 1 })] []
     ((after (.mergeSlabComplete 3 0) s).xrun 3).encoded = [0]) ∧
    (let s := reducing 1 [] [{ (default : DownSlab) with mask := 1 }]
     s.regionBase 0 = some 0 ∧ ((after (.resultDeliver 3 0) s).cut 3).done = [0]) := by decide +kernel

theorem test_modules : (newest (after (.moduleInsert 1 [] true) (ported upPort)) = (0x0502, 0)) ∧
    (let q := { upPort with module := { Module.reset with selecting := true, present := true } }
     ((after (.moduleReady 1 []) (ported q)).port 1).st = .training ∧
     ((after (.moduleReadyTimeout 1) (ported q)).port 1).module.selecting = false ∧
     ((after (.moduleRemove 1) (ported q)).port 1).st = .down ∧
     ((after (.modulePoll 1 true false []) (netted q)).port 1).st = .down ∧
     ((after (.modulePoll 1 false false [default]) (netted { q with module := { q.module with refBias := [1] } })).port 1).st = .up) ∧
    (((after (.laneLayerReport 1 .lostAlignment) (ported upPort)).port 1).trained = false) ∧
    (upPort.module.laneUsed 4 = true ∧ 4 ∉ upPort.module.retired ∧ upPort.module.spareFor = 0xF ∧
      ((after (.laneLayerReport 1 (.fault 4)) (ported upPort)).port 1).module.spareFor = 4) ∧
    after (.laneLayerReport 1 (.errors 4 1)) (netted upPort) = netted upPort ∧
    ((after (.slcCfgFlag 1) (ported upPort)).port 1).module.flagged = true := by decide +kernel

/-! ### Yard errors, fills, units without spares -/

theorem test_yard_corrected : ((after (.yardCorrected 64) up).yard.corr = 1 ∧ (after (.yardCorrected 64) up).yard.migrating = []) ∧
    (up.freeBanks.head? = some 256 ∧
      (let b := (up.bankAt 64).1
       let s := { up with yard := { up.yard with times := [(b, List.replicate 15 0)] } }
       Tab.find (after (.yardCorrected 64) s).yard.migrating b = some 256)) ∧
    (after (.patrolScrub 1 []) up = up ∧ (after (.patrolScrub 1 [7]) up).yard.corr = 1) ∧
    (let s := { up with yard := { up.yard with migrating := [(9, 256)] } }
     (after (.bankMigrationDone 9) s).bankPhys 9 = 256 ∧ newest (after (.bankMigrationDone 9) s) = (0x0302, 0)) ∧
    (Tab.find up.yard.migrating 9 = none) := by decide +kernel

theorem test_yard_uncorrectable : ((after (.uncorrectableYard 64) up).yard.uncorr = 1 ∧ up.image = none ∧ up.monitor.armed = []) ∧
    ((img.regionAt 0).map Prod.fst = some 0) ∧
    (let s := { loaded with seams := [(0, { held with handoff := 4 })] }
     s.seamOwns img 0x100000 1 (nth default (img.regions.map Prod.snd) 1) = true ∨
       (after (.uncorrectableYard 0) s).glb.evt = 0x20#32) ∧
    (let s := { loaded with results := [(0, 3)] }
     ((after (.uncorrectableYard 0) s).work 0).seq = .halted) ∧
    (running.liveCuts.find? (fun e => running.cutOwns img e 0 0 (nth default (img.regions.map Prod.snd) 0)) = some 5 ∧
      (running.cutFaces (running.cut 5).desc).all (fun n => !running.faceGone n) = true ∧
      (running.benchList (running.cut 5).desc).all (fun x => !running.benchRetired x.1 (running.physBench x.1 x.2)) = true ∧
      ((after (.uncorrectableYard 0) running).cut 5).flags = 0x4000#32) := by decide +kernel

theorem test_faces_fill : (loaded.fills.queue = [] ∧ loaded.faceGone 3 = false ∧ loaded.freeFaces ≠ [] ∧
      (let s := { loaded with tiles := [(3, .wakingOff)] }
       (after (.wakeNotComplete 3) s).fills.queue.map Fill.face = [3] ∧
       ((after (.wakeNotComplete 3) s).face 3).role = .retired)) ∧
    (after (.wakeNotComplete 3) loaded = loaded) := by decide +kernel

/-- A fill of face 3 by face 70 in a phase. -/
def filling (ph : FillPhase) : State :=
  { loaded with
    faces := [(3, { Face.reset with role := .retired }), (70, { Face.reset with role := .filling })]
    spare := { SpareMap.identity with faceRet := [3] }
    fills := { queue := [{ face := 3, working := 0, position := 2, spare := 70, phase := ph, saved := false }], waiting := [], adopted := [] } }

theorem test_fill_ends : (after (.fillWakeDone false) (filling .wake)).spare.faceFailed = [70] ∧
    (after (.fillConfigDone false) (filling .config)).spare.faceFailed = [70] ∧
    (filling .test).goodBenches 70 = 5 ∧
    (let s := after (.fillTestDone (FaceTest.mk 70 [] [] false)) (filling .test)
     (s.face 70).role = .inService ∧ (s.face 70).position = 2 ∧ s.placeOf 3 = 70) ∧
    (after (.fillTestDone (FaceTest.mk 70 [] [] true)) (filling .test)).spare.faceFailed = [70] ∧
    after (.fillTestDone (FaceTest.mk 9 [] [] false)) (filling .test) = filling .test := by decide +kernel

theorem test_unit_faults : (up.healthyDressers ≠ [] ∧ ((after (.unitFault (.dresser 0) false) up).unit 5 0).faults = 1) ∧
    ((after (.unitFault (.dresser 0) true) up).spare.unitRet = [80]) ∧
    (let s := { up with units := [(80, { (up.unit 5 0) with busy := some 4, cutFaults := 5 })] }
     (after (.unitFault (.dresser 0) false) s).spare.unitRet = [80]) ∧
    ((after (.unitFault (.selector 0) false) (reducing 0 [] [])).cut 3).status = 0x50 ∧
    ((after (.unitFault (.sluiceDp 1) true) (ported upPort)).port 1).st = .down ∧
    ((after (.unitFault .drain true) up).unit 7 0).retired = true ∧
    ((after (.unitFault .digest true) up).unit 8 0).retired = true := by decide +kernel

/-! ### Snapshots, restores, slices -/

/-- An S-cut as entry 6, over the stack. -/
def sCut (mode : Nat) : CutDesc :=
  { CutDesc.empty with
    kind := 6, period := 1, progress := { idx := 0xFFFF, add := 0 }
    area := .s { (default : SArea) with content := 1, mode := mode, targetBase := [0x1000, 0x4000], port := 1 } }

/-- The image with the S-cut to be inserted. -/
def sImg (mode : Nat) : Image :=
  { img with
    cuts := [(6, sCut mode)], vcs := [{ cls := 2, working := 0 }, { cls := 3, working := 0 }]
    modes := some { acc := none, chk := none, clk := none, risk := none, snap := some { (default : SnapPart) with
      insertEntry := 6, rxBase := [0x10000, 0x20000], rxLen := 8192 } } }

/-- A snapshot in a phase. -/
def snapping (mode : Nat) (ph : SnapPhase) (run : CutPhase) (items : Nat) : State :=
  { loaded with
    image := some (sImg mode), working := [(0, Working.reset)], tiles := [(72, .run), (96, .run), (106, .run)]
    cuts := [(6, { CutRun.reset with phase := run, desc := sCut mode, items := items })]
    snap := { Snap.reset with phase := ph, entry := 6 } }

theorem test_capture : (let s := snapping 0 .holding .pending 0
      (List.range s.workCount).all s.workingHeld = true ∧ s.drainUnit = some (7, 0) ∧ s.active (unitTile 7 0) = true ∧
      ((after .snapshotCapture s).cut 6).phase = .running ∧ (after .snapshotCapture s).snap.phase = .draining ∧
      (after .snapshotCapture { s with tiles := [] }).clk (unitTile 7 0) = .wakingOff) ∧
    (up.snap.phase ≠ .holding) := by decide +kernel

theorem test_snapshot_modes : (snapping 1 .draining .running 0).classVc 2 = some 0 ∧
    ((after (.snapshotCommit []) (snapping 1 .draining .running 0)).cut 6).items = 1 ∧
    (snapping 1 .draining .running 1).snapAcked 6 1 0 = true ∧ (snapping 0 .draining .running 0).snap.test = false ∧
    (let s := snapping 0 .idle .idle 0
     (after (.peerSnapshotRecord 1 4096 (List.replicate 8 1)) s).fabricByte 0x21000 = some 1 ∧
     (after (.peerSnapshotRecord 2 0 []) s).log.head = 1) := by decide +kernel

theorem test_restores : (up.snapBusy = false ∧ up.quiet = true ∧ (after .snapCtlRestore up).snap.phase = .restoreFirst) ∧
    ((after .snapCtlRestore loaded).snap.outcome = 2 ∧ (after .snapCtlRestore (after .snapCtlRestore up)).log.head = 1) ∧
    (up.snapGood [] = false ∧ (after (.restoreFirstReadDone []) (after .snapCtlRestore up)).snap.outcome = 2) ∧
    (let s := { up with snap := { Snap.reset with phase := .restoreSecond } }
     let bad : List Byte := List.replicate 6 0 ++ [1, 0] ++ List.replicate 248 0 ++ natLe 6 8 ++ natLe 1 8 ++ natLe 0 16
     crcsOk [] = true ∧ (after (.restoreSecondReadDone []) s).snap.outcome = 1 ∧
     crcsOk bad = false ∧ (after (.restoreSecondReadDone bad) s).snap.outcome = 3) := by decide +kernel

/-- A V-cut of one slice that has its peer's header. -/
def slicing (role : Nat) : State :=
  let d := { CutDesc.empty with
    kind := 7, period := 1, progress := { idx := 0xFFFF, add := 0 }
    area := .v { (default : VArea) with role := role, port := 1, retries := 1, listCount := 2 } }
  { loaded with
    image := some { sImg 0 with cuts := [(7, d)] }
    cuts := [(7, { CutRun.reset with phase := .running, desc := d, items := 2, peer := some 1, slices := [(0x40, 2), (0x80, 2)] })] }

theorem test_slices : (slicing 1).classVc 3 = some 1 ∧
    ((after (.vSliceRecord 7 0 2 (crc64 [1, 2]) [1, 2] []) (slicing 1)).cut 7).kd0 = 1 ∧
    ((after (.vSliceRecord 7 0 2 (crc64 [1, 3]) [1, 2] []) (slicing 1)).cut 7).kd1 = 1 ∧
    (after (.vSliceRecord 7 0 2 (crc64 [1, 3]) [1, 2] [[1, 3]]) (slicing 0)).fabricByte 0x41 = some 3 ∧
    ((after (.vSliceRecord 7 0 2 (crc64 [1, 3]) [1, 2] [[1, 4]]) (slicing 0)).cut 7).status = 0x50 := by decide +kernel

/-! ### The foreman's serial monitor -/

/-- The monitor after the characters of a line. -/
def typed (s : State) (cs : List Nat) : State := cs.foldl (fun (t : State) c => after (.monitorChar (BitVec.ofNat 8 c)) t) s

theorem test_lines : ((typed up [0x6C, 0x6F, 0x08]).monitor.line = [0x6C]) ∧
    ((typed up [0x0D]).monitor.out = [.echo 0x0D, .prompt] ∧ (typed up [0x0D, 0x0A]).monitor.out = [.echo 0x0A]) ∧
    ((typed up [0x7A, 0x0D]).monitor.out = [.echo 0x0D, .err 2, .prompt]) ∧
    ((typed up [0x6C, 0x6F, 0x63, 0x6B, 0x0D]).monitor.command = some [0x6C, 0x6F, 0x63, 0x6B]) ∧
    ((typed up [0x6C, 0x6F, 0x63, 0x6B, 0x0D, 0x61]).monitor.hold = [0x61]) ∧
    ((after .lock (typed up [0x6C, 0x6F, 0x63, 0x6B, 0x0D])).monitor.out = [.ok, .prompt]) ∧
    ((typed { up with monitor := { Monitor.reset with line := List.replicate 128 0x61 } } [0x61]).monitor.overlong = true) := by
  decide +kernel

theorem test_reports : ((after .help up).monitor.out.length = 22 ∧ (after (.log 257 none) up).monitor.out = [.err 3, .prompt]) ∧
    ((after (.log 1 none) (after (.riskThrWrite 0) up)).monitor.out.length = 3) ∧
    ((after .watchdogRestart up).foremanUp = false ∧ after .help (after .watchdogRestart up) = after .watchdogRestart up) ∧
    ((after .clk up).monitor.out.length = 76 ∧ (after (.slc 1) up).monitor.out.length = 15) := by decide +kernel

theorem test_accesses : ((after (.rd 0x00 1) up).monitor.out = [.reg 0 0x4B520100, .ok, .prompt]) ∧
    ((after (.rd 0x100004 1) up).monitor.owed = true ∧ (after (.rd 0x100004 1) up).clk 0 = .wakingOff) ∧
    ((after (.rd 0xFFFFFC 2) up).monitor.out = [.err 3, .prompt]) ∧
    (up.waitTile 0x130004 = none ∧ (after (.tile 3 false) up).monitor.out.length = 3) ∧
    (up.waitTile 0x60110 = none ∧ (after .image up).monitor.out.length = 7) ∧
    ((after (.wr 0x20 5) up).monitor.out = [.err 4, .prompt] ∧ (after (.wr 0x20 5) unlocked).glb.evtEn = 5) ∧
    ((after (.wr 0x100004 5) unlocked).monitor.owed = true) := by decide +kernel

theorem test_session : ((after (.unlock 7) up).monitor.challenge = some 7 ∧
      (after (.unlockResponse 7) up).monitor.out = [.err 5, .prompt] ∧
      (after (.unlock 7) (after (.unlockResponse 7) up)).monitor.out = [.err 9, .prompt]) ∧
    ((after .challengeWithholdEnd (after (.unlockResponse 7) up)).monitor.withheld = false) ∧
    ((after .lock unlocked).monitor.unlocked = false ∧ (after .sessionTimeout unlocked).monitor.unlocked = false) ∧
    ((after (.baud 9600) unlocked).foreman.baud = 96 ∧ (after (.baud 9600) unlocked).monitor.unlocked = false ∧
      (after (.baud 9650) unlocked).monitor.out = [.err 3, .prompt]) ∧
    ((after (.preempt 0) up).monitor.out = [.err 4, .prompt]) := by decide +kernel

theorem test_session_resets : ([.powerOn, .alwaysOnRailLoss, .clockLoss, .hostReset, .engReset, .watchdogRestart, .fmnCtlSwap, .fwSwap] :
    List Instr).all (fun c => !(after c unlocked).monitor.unlocked) = true := by decide +kernel

/-- An unlocked session over the image. -/
def master : State := { running with monitor := { Monitor.reset with unlocked := true } }

theorem test_units : ((after (.retireFace 3) master).spare.faceRet = [3] ∧ newest (after (.retireFace 3) master) = (0x0301, 2) ∧
      (after (.retireFace 3) (after (.retireFace 3) master)).monitor.out = [.err 6, .prompt]) ∧
    (let s := { master with spare := { master.spare with faceRet := [70], bankRet := [4], bufRet := [1], benchRet := [(3, 1)] }, units := [(145, { (master.unit 9 1) with retired := true })] }
     s.mayReturn (.face 70) = true ∧ s.goodBenches 70 = 5 ∧ (after (.return_ (.face 70) true) s).spare.faceRet = [] ∧
     s.mayReturn (.bank 4) = true ∧ (after (.return_ (.bank 4) true) s).spare.bankRet = [] ∧
     s.mayReturn (.buffer 1) = true ∧ (after (.return_ (.buffer 1) true) s).spare.bufRet = [] ∧
     s.mayReturn (.bench 3 0) = true ∧ (after (.return_ (.bench 3 0) true) s).benchRetired 3 0 = false ∧
     s.mayReturn (.dp 1) = true ∧ ((after (.return_ (.dp 1) true) s).unit 9 1).retired = false ∧
     (after (.return_ (.face 70) false) s).monitor.out = [.err 6, .prompt]) ∧
    (((after (.slcFlag 1) master).port 1).module.flagged = true ∧ (after (.slcRetrain 1) master).monitor.out = [.ok, .prompt]) ∧
    (((after (.preempt 0) master).cut 5).status = 0x40 ∧ ((after (.resume 0) (after (.preempt 0) master)).cut 5).phase = .running) := by
  decide +kernel

theorem test_tools : ((after .snapForce up).snap.force = true) ∧
    (up.insertEntry = 0xFFFF ∧ (after .snapDrain unlocked).monitor.out = [.err 7, .prompt]) ∧
    (let s := { snapping 0 .idle .idle 0 with monitor := { Monitor.reset with unlocked := true } }
     s.insertEntry = 6 ∧ (after .snapDrain s).snap.phase = .holding ∧ (after .snapDrain s).snap.test = true) ∧
    ((after (.inject (.frame 1)) unlocked).monitor.armed = [.frame 1] ∧
      (after .injectClear (after (.inject (.frame 1)) unlocked)).monitor.armed = [] ∧
      injectOk (.yard 0 0) = false ∧ injectOk (.yard 0 2) = true) ∧
    ((after .fwSwap unlocked).foreman.restarting = true ∧
      (after .fwSwap { unlocked with foreman := Foreman.reset }).monitor.out = [.err 6, .prompt] ∧
      (after .fwSwap { unlocked with foreman := { Foreman.reset with update := 1 } }).monitor.out = [.err 7, .prompt]) := by
  decide +kernel

end Sys2Proof.Tests
end

section
/-! The register obligations: pairs (R8) and writes of single registers (R6, R10, R347, R418 to R422). -/

namespace Sys2Proof.Machine

/-- A command whose meaning is the effect `f` under the supplies leads to what `f` makes of the state. -/
theorem Leads.effect {c : Instr} {s y : State} {f : State → State} {P : State → Prop} (hs : s.supply = .good)
    (h : exec c s = s.on f) (hf : f s = y) (k : P y) : Leads c s P :=
  ⟨y, by rw [h, s.on_good f hs, hf], k⟩

theorem exec_pairLoRead (who : Requester) (off : Nat) (s : State) : exec (.pairLoRead who off) s =
    s.on (fun s => if pairOffset off false then s.busRead who off else s) := rfl

theorem exec_pairLoWrite (who : Requester) (off : Nat) (v : Word) (s : State) : exec (.pairLoWrite who off v) s =
    s.on (fun s => if pairOffset off false then s.busWrite who off 4 v.toNat else s) := rfl

theorem exec_pairHiWrite (who : Requester) (off : Nat) (v : Word) (s : State) : exec (.pairHiWrite who off v) s =
    s.on (fun s => if pairOffset off true then s.busWrite who off 4 v.toNat else s) := rfl

/-! ### What a pair holds for each requester (R8) -/

theorem pairKey_inj {w who : Requester} {lo off : Nat} (h : pairKey w lo = pairKey who off) : w = who ∧ lo = off := by
  unfold pairKey at h
  cases w <;> cases who <;> simp at h ⊢ <;> omega

@[simp] theorem State.pairSide_modPair (s : State) (who : Requester) (lo : Nat) (f : PairSide → PairSide) :
    (s.modPair who lo f).pairSide who lo = f (s.pairSide who lo) :=
  Tab.get_update_same _ _ _ _

theorem State.pairSide_modPair_other (s : State) {who w : Requester} {lo off : Nat} (f : PairSide → PairSide)
    (h : w ≠ who ∨ lo ≠ off) : (s.modPair who off f).pairSide w lo = s.pairSide w lo := by
  refine Tab.get_update_other _ _ _ _ _ fun k => ?_
  obtain ⟨hw, hl⟩ := pairKey_inj k
  exact h.elim (absurd hw) (absurd hl)

@[simp] theorem State.pairSide_giveData (s : State) (who w : Requester) (v lo : Nat) :
    (s.giveData who v).pairSide w lo = s.pairSide w lo := by
  cases who <;> rfl

/-- Data for a requester and what it latches change the front end and the pairs alone. -/
theorem State.modPair_giveData_eq (s : State) (who : Requester) (v lo : Nat) (f : PairSide → PairSide) :
    (s.giveData who v).modPair who lo f = { s with
      bus := ((s.giveData who v).modPair who lo f).bus, pairs := ((s.giveData who v).modPair who lo f).pairs } := by
  cases who <;> rfl

@[simp] theorem State.giveData_waiting (s : State) (who : Requester) (v : Nat) :
    (s.giveData who v).bus.waiting = s.bus.waiting := by
  cases who <;> rfl

@[simp] theorem State.giveData_host (s : State) (v : Nat) : (s.giveData .host v).bus.hostData = BitVec.ofNat 32 v := rfl

@[simp] theorem State.giveData_foreman (s : State) (v : Nat) :
    (s.giveData .foreman v).bus.foremanData = BitVec.ofNat 32 v := rfl

/-! ### Which offsets are halves of pairs -/

theorem pairOffset_lo {off : Nat} (h : pairOffset off false = true) : pairLo off = some off := by
  unfold pairOffset at h
  split at h
  · next lo hlo =>
    rw [hlo]
    simpa using (beq_iff_eq.mp h).symm
  · exact absurd h (by decide)

/-- One case of a chain of ranges: either the offset is in the first, or the rest of the chain answers. -/
theorem some_ite {α : Type} {c : Prop} [Decidable c] {a x : α} {r : Option α} {Q : Prop}
    (h : (if c then some a else r) = some x) (yes : c → a = x → Q) (no : r = some x → Q) : Q := by
  split at h
  · exact yes ‹_› (Option.some.inj h)
  · exact no h

/-- The low half of every pair lies on a word. -/
theorem pairLo_aligned {off : Nat} (h : pairLo off = some off) : off % 4 = 0 := by
  unfold pairLo at h
  repeat refine some_ite h (fun _ _ => by omega) fun h => ?_
  contradiction

theorem pairLo_load : pairLo (0x60100 + 4) = some 0x60100 := by decide
theorem pairLo_restore : pairLo (0xE0010 + 4) = some 0xE0010 := by decide
theorem pairLo_firmware : pairLo (0xF0008 + 4) = some 0xF0008 := by decide

theorem pairLo_tally {i : Nat} (hi : i < 1024) : pairLo (0x64000 + 8 * i + 4) = some (0x64000 + 8 * i) := by
  have hlo : 0x64000 + 8 * i + 4 - (0x64000 + 8 * i + 4) % 8 = 0x64000 + 8 * i := by omega
  unfold pairLo
  rw [if_neg (by omega), if_neg (by omega), if_neg (by omega), if_neg (by omega), if_neg (by omega), if_neg (by omega),
    if_neg (by omega), if_pos (by omega), hlo]

/-! ### Accesses that do not wait -/

theorem State.busWrite_now {s : State} {off : Nat} (h : s.waitTile off = none) (who : Requester) (size v : Nat) :
    s.busWrite who off size v = s.writeNow who off size v := by
  unfold State.busWrite
  rw [h]

theorem State.busRead_now {s : State} {off : Nat} (h : s.waitTile off = none) (who : Requester) :
    s.busRead who off = s.readNow who off := by
  unfold State.busRead
  rw [h]

/-- Below the faces every register answers for itself. -/
theorem State.answeredAway_below (s : State) {off : Nat} (h : off < 0x100000) : s.answeredAway off = false := by
  have hn : ¬ 0x100000 ≤ off := by omega
  simp [State.answeredAway, hn]

theorem State.readNow_lo {s : State} {off : Nat} (hp : pairLo off = some off) (ha : s.answeredAway off = false)
    (who : Requester) : s.readNow who off = (s.giveData who (s.regValue off)).modPair who off
      (fun p => { p with shadow := some (BitVec.ofNat 32 (s.regValue (off + 4))) }) := by
  simp [State.readNow, State.readValue, hp, ha, pairHi]

theorem State.writeNow_lo {s : State} {off : Nat} (hp : pairLo off = some off) (ha : s.answeredAway off = false)
    (who : Requester) (v : Nat) : s.writeNow who off 4 v = s.stage who off v := by
  simp [State.writeNow, hp, ha, pairLo_aligned hp]

theorem State.writeNow_hi {s : State} {lo : Nat} (hp : pairLo (lo + 4) = some lo) (hlo : lo % 4 = 0)
    (ha : s.answeredAway (lo + 4) = false) (who : Requester) (v : Nat) :
    s.writeNow who (lo + 4) 4 v = s.commitPair who lo v := by
  simp [State.writeNow, hp, ha, hlo]

/-! ### O15: register pairs -/

/-- What a write of `v` to the upper half of the pair at `lo` commits: the low half is the requester's staging, or
else as it stands (R8). -/
def State.pairValue (s : State) (who : Requester) (lo : Nat) (v : Word) : Nat :=
  v.toNat * 2 ^ 32 + match (s.pairSide who lo).staged with
    | some x => x.toNat
    | none => s.regValue lo

theorem State.commitPair_eq (s : State) (who : Requester) (lo : Nat) (v : Word) :
    s.commitPair who lo v.toNat =
      (s.setPair lo (s.pairValue who lo v)).modPair who lo (fun p => { p with staged := none }) := by
  have hv : v.toNat % 2 ^ 32 = v.toNat := Nat.mod_eq_of_lt v.isLt
  simp only [State.commitPair, State.pairValue, hv] <;> rfl

/-- A write of an upper half below the faces whose access need not wait commits the pair. -/
theorem pairHiWrite_leads {s : State} {who : Requester} {lo : Nat} {v : Word} {P : State → Prop}
    (hs : s.supply = .good) (hw : s.waitTile (lo + 4) = none) (hp : pairLo (lo + 4) = some lo) (hlo : lo % 4 = 0)
    (hb : lo + 4 < 0x100000)
    (k : P ((s.setPair lo (s.pairValue who lo v)).modPair who lo (fun p => { p with staged := none }))) :
    Leads (.pairHiWrite who (lo + 4) v) s P := by
  have ho : pairOffset (lo + 4) true = true := by simp [pairOffset, hp]
  refine Leads.effect hs (exec_pairHiWrite ..) ?_ k
  rw [if_pos ho, State.busWrite_now hw, State.writeNow_hi hp hlo (s.answeredAway_below hb), State.commitPair_eq]

/-- A read of a low half that need not wait: the value goes to the requester and the upper half is latched for it. -/
theorem State.busRead_lo {s : State} {off : Nat} (hp : pairLo off = some off) (hw : s.waitTile off = none)
    (ha : s.answeredAway off = false) (who : Requester) : s.busRead who off =
      (s.giveData who (s.regValue off)).modPair who off
        (fun p => { p with shadow := some (BitVec.ofNat 32 (s.regValue (off + 4))) }) := by
  rw [State.busRead_now hw, State.readNow_lo hp ha]

theorem pairLoRead_leads {s : State} {who : Requester} {off : Nat} (hs : s.supply = .good)
    (ho : pairOffset off false = true) (hw : s.waitTile off = none) (ha : s.answeredAway off = false) :
    Leads (.pairLoRead who off) s (fun t =>
      t = { s with bus := t.bus, pairs := t.pairs } ∧ t.bus.waiting = s.bus.waiting ∧
      (who = .host → t.bus.hostData = BitVec.ofNat 32 (s.regValue off)) ∧
      (who = .foreman → t.bus.foremanData = BitVec.ofNat 32 (s.regValue off)) ∧
      t.pairSide who off = { shadow := some (BitVec.ofNat 32 (s.regValue (off + 4))),
                             staged := (s.pairSide who off).staged } ∧
      ∀ w lo, w ≠ who ∨ lo ≠ off → t.pairSide w lo = s.pairSide w lo) := by
  refine Leads.effect hs (exec_pairLoRead ..) ((if_pos ho).trans (State.busRead_lo (pairOffset_lo ho) hw ha who)) ?_
  refine ⟨?_, ?_, ?_, ?_, ?_, fun w lo h => ?_⟩
  · exact s.modPair_giveData_eq who _ off _
  · rw [State.modPair_bus, State.giveData_waiting]
  · rintro rfl
    rw [State.modPair_bus, State.giveData_host]
  · rintro rfl
    rw [State.modPair_bus, State.giveData_foreman]
  · rw [State.pairSide_modPair, State.pairSide_giveData]
  · rw [State.pairSide_modPair_other _ _ h, State.pairSide_giveData]

theorem pairLoWrite_leads {s : State} {who : Requester} {off : Nat} {v : Word} (hs : s.supply = .good)
    (ho : pairOffset off false = true) (hw : s.waitTile off = none) (ha : s.answeredAway off = false) :
    Leads (.pairLoWrite who off v) s (fun t =>
      t = { s with pairs := t.pairs } ∧
      t.pairSide who off = { shadow := (s.pairSide who off).shadow, staged := some v } ∧
      ∀ w lo, w ≠ who ∨ lo ≠ off → t.pairSide w lo = s.pairSide w lo) := by
  refine Leads.effect hs (exec_pairLoWrite ..)
    (by rw [if_pos ho, State.busWrite_now hw, State.writeNow_lo (pairOffset_lo ho) ha]) ?_
  refine ⟨rfl, ?_, fun w lo h => State.pairSide_modPair_other _ _ h⟩
  rw [State.stage, State.pairSide_modPair, BitVec.ofNat_toNat, BitVec.setWidth_eq]

theorem State.setPair_load (s : State) (x : Nat) :
    s.setPair 0x60100 x = { s with load := { s.load with addr := BitVec.ofNat 64 x } } := by
  simp [State.setPair]

theorem State.setPair_restore (s : State) (x : Nat) :
    s.setPair 0xE0010 x = { s with snap := { s.snap with restoreAddr := BitVec.ofNat 64 x } } := by
  simp [State.setPair]

theorem State.setPair_firmware (s : State) (x : Nat) :
    s.setPair 0xF0008 x = { s with foreman := { s.foreman with fwAddr := BitVec.ofNat 64 x } } := by
  simp [State.setPair]

theorem State.setPair_tally (s : State) {i : Nat} (hi : i < 1024) (x : Nat) :
    s.setPair (0x64000 + 8 * i) x = { s with tallies := Tab.set s.tallies i x } := by
  have h1 : 0x64000 + 8 * i ≠ 0x60100 := by omega
  have h2 : 0x64000 ≤ 0x64000 + 8 * i ∧ 0x64000 + 8 * i < 0x66000 := by omega
  have h3 : (0x64000 + 8 * i - 0x64000) / 8 = i := by omega
  simp only [State.setPair, if_neg h1, if_pos h2, h3]

/-- Settles O15: a half that need not wait is latched, staged or committed at once, and the keys of the pairs keep
requesters and pairs apart. -/
theorem registerPairs : Obligations.RegisterPairs := by
  unfold Obligations.RegisterPairs
  intro s who off v hs
  refine ⟨fun ho hw ha => ⟨pairLoRead_leads hs ho hw ha, pairLoWrite_leads hs ho hw ha⟩, fun lo hw => ?_⟩
  refine ⟨?load, ?restore, ?firmware, ?tally⟩
  case load =>
    rintro rfl
    refine pairHiWrite_leads hs hw pairLo_load (by decide) (by decide) ?_
    rw [State.setPair_load]
    exact ⟨rfl, by rw [State.pairSide_modPair]⟩
  case restore =>
    rintro rfl
    refine pairHiWrite_leads hs hw pairLo_restore (by decide) (by decide) ?_
    rw [State.setPair_restore]
    exact ⟨rfl, by rw [State.pairSide_modPair]⟩
  case firmware =>
    rintro rfl
    refine pairHiWrite_leads hs hw pairLo_firmware (by decide) (by decide) ?_
    rw [State.setPair_firmware]
    exact ⟨rfl, by rw [State.pairSide_modPair]⟩
  case tally =>
    rintro i rfl
    have hi := i.isLt
    refine pairHiWrite_leads hs hw (pairLo_tally hi) (by omega) (by omega) ?_
    rw [State.setPair_tally s hi]
    refine ⟨rfl, Tab.get_set_same _ _ _ _, fun j hj => Tab.get_set_other _ _ _ _ _ hj, ?_⟩
    rw [State.pairSide_modPair]

end Sys2Proof.Machine
end

section
/-! Writes of single registers (R6, R10, R347, R418 to R422). -/

namespace Sys2Proof.Machine

theorem exec_registerWrite (who : Requester) (off size : Nat) (v : Word) (s : State) :
    exec (.registerWrite who off size v) s = s.on (fun s => s.busWrite who off size v.toNat) := rfl

theorem exec_registerAccessComplete (k : Tile) (s : State) :
    exec (.registerAccessComplete k) s = s.on (fun s => s.accessComplete k) := rfl

/-- A command whose effect is none under the supplies is ignored. -/
theorem Ignored.effect {c : Instr} {s : State} {f : State → State} (hs : s.supply = .good)
    (h : exec c s = s.on f) (hf : f s = s) : Ignored c s := by
  unfold Ignored
  rw [h, s.on_good f hs, hf]

theorem word_ofNat_toNat (v : Word) : BitVec.ofNat 32 v.toNat = v := by
  rw [BitVec.ofNat_toNat, BitVec.setWidth_eq]

/-! ### Which accesses wait (R347) -/

theorem State.waitTile_night (s : State) {off : Nat} (h : regTile off = none) : s.waitTile off = none := by
  unfold State.waitTile
  rw [h]

theorem regTile_face (n : Fin 72) {o : Nat} (ho : o < 0x10000) : regTile (0x100000 + 0x10000 * n.val + o) = some n.val := by
  have hn := n.isLt
  have hq : (0x100000 + 0x10000 * n.val + o - 0x100000) / 0x10000 = n.val := by omega
  unfold regTile
  rw [if_neg (by omega), if_pos (by omega), hq]

theorem State.answeredAway_face (s : State) (n : Fin 72) {o : Nat} (ho : o < 0x10000) :
    s.answeredAway (0x100000 + 0x10000 * n.val + o) = (s.face n.val).away := by
  have hn := n.isLt
  have hq : (0x100000 + 0x10000 * n.val + o - 0x100000) / 0x10000 = n.val := by omega
  have h1 : 0x100000 ≤ 0x100000 + 0x10000 * n.val + o := by omega
  have h2 : 0x100000 + 0x10000 * n.val + o < 0x580000 := by omega
  unfold State.answeredAway
  rw [decide_eq_true h1, decide_eq_true h2, hq, Bool.and_self, Bool.true_and]

theorem tileKey_tileOf_face (n : Fin 72) : tileKey (tileOf n.val) = n.val := by
  unfold tileOf
  rw [dif_pos n.isLt]
  rfl

/-- A face that runs, with no older access waiting for it, takes an access at once. -/
theorem State.waitTile_face {s : State} (n : Fin 72) {o : Nat} (ho : o < 0x10000) (hr : s.clk n.val = .run)
    (hw : ∀ x ∈ s.bus.waiting, tileKey x.tile ≠ n.val) : s.waitTile (0x100000 + 0x10000 * n.val + o) = none := by
  have hnone : s.bus.waiting.any (fun x => x.tile == tileOf n.val) = false := by
    rw [List.any_eq_false]
    intro x hx hk
    exact hw x hx ((congrArg tileKey (beq_iff_eq.mp hk)).trans (tileKey_tileOf_face n))
  have hrun : s.running n.val = true := by simp [State.running, hr]
  unfold State.waitTile
  rw [regTile_face n ho]
  simp [hnone, hrun]

/-! ### Where a write of a single register arrives -/

theorem State.writeNow_reg {s : State} {off : Nat} (hp : pairLo off = none) (h4 : off % 4 = 0)
    (ha : s.answeredAway off = false) (who : Requester) (v : Nat) : s.writeNow who off 4 v = s.regWrite off v := by
  simp [State.writeNow, hp, h4, ha]

theorem State.writeNow_misfit (s : State) (who : Requester) {off size : Nat} (v : Nat) (h : size ≠ 4 ∨ off % 4 ≠ 0) :
    s.writeNow who off size v = s := by
  unfold State.writeNow
  rw [if_neg (by omega)]

theorem State.regWrite_glb (s : State) {off : Nat} (h : off < 0x10000) (v : Nat) : s.regWrite off v = s.glbWrite off v := by
  unfold State.regWrite
  rw [if_pos h]

theorem State.regWrite_face (s : State) (n : Fin 72) {o : Nat} (ho : o < 0x10000) (v : Nat) :
    s.regWrite (0x100000 + 0x10000 * n.val + o) v = s.fceWrite n.val o v := by
  have hn := n.isLt
  have hq : (0x100000 + 0x10000 * n.val + o - 0x100000) / 0x10000 = n.val := by omega
  have hr : (0x100000 + 0x10000 * n.val + o) % 0x10000 = o := by omega
  unfold State.regWrite
  iterate 10 rw [if_neg (by omega)]
  rw [if_pos (by omega), hq, hr]

/-- The GLB registers that R8 makes no pairs: an aligned write of one arrives at once. -/
theorem State.busWrite_glb (s : State) (who : Requester) {off : Nat} (h : off < 0x10000) (h4 : off % 4 = 0) (v : Nat) :
    s.busWrite who off 4 v = s.glbWrite off v := by
  have hp : pairLo off = none := by
    unfold pairLo
    iterate 18 rw [if_neg (by omega)]
  have hw : s.waitTile off = none := s.waitTile_night (by
    unfold regTile
    rw [if_neg (by omega), if_neg (by omega)])
  rw [State.busWrite_now hw, State.writeNow_reg hp h4 (s.answeredAway_below (by omega)), s.regWrite_glb h]

/-- A write of a face's register at an offset below its pairs, while the face runs and answers for itself. -/
theorem State.busWrite_face {s : State} (who : Requester) (n : Fin 72) {o : Nat} (ho : o < 0x100) (h4 : o % 4 = 0)
    (hr : s.clk n.val = .run) (ha : (s.face n.val).away = false)
    (hw : ∀ x ∈ s.bus.waiting, tileKey x.tile ≠ n.val) (v : Nat) :
    s.busWrite who (0x100000 + 0x10000 * n.val + o) 4 v = s.fceWrite n.val o v := by
  have hn := n.isLt
  have ho' : o < 0x10000 := by omega
  have hp : pairLo (0x100000 + 0x10000 * n.val + o) = none := by
    unfold pairLo
    iterate 18 rw [if_neg (by omega)]
  rw [State.busWrite_now (State.waitTile_face n ho' hr hw),
    State.writeNow_reg hp (by omega) ((s.answeredAway_face n ho').trans ha), s.regWrite_face n ho']

/-! ### ACC_MODE, a field that a sealed image locks (R10, R434) -/

theorem State.fceWrite_acc_locked {s : State} {n : Nat} (ha : (s.face n).away = false) (hl : s.rwlLocked = true)
    (v : Nat) : s.fceWrite n 0x0008 v = s.lockedWrite (0x100000 + 0x10000 * n + 0x0008) v := by
  simp [State.fceWrite, ha, hl]

theorem State.fceWrite_acc_open {s : State} {n : Nat} {v : Word} (ha : (s.face n).away = false)
    (hl : s.rwlLocked = false) (hv : bits v.toNat 2 0 ≤ 4) :
    s.fceWrite n 0x0008 v.toNat = s.modFace n (fun f => { f with acc := v &&& 0xF7 }) := by
  have hv' : ¬ 4 < bits v.toNat 2 0 := by omega
  simp [State.fceWrite, ha, hl, hv']

theorem State.rwlLocked_image {s : State} (hi : s.image.isSome = true) (hp : s.load.phase ≠ .secondRead) :
    s.rwlLocked = true := by
  simp [State.rwlLocked, hi, hp]

theorem State.rwlLocked_none {s : State} (hi : s.image = none) : s.rwlLocked = false := by
  simp [State.rwlLocked, hi]

/-- A locked write says so: LOCKW and a record with the offset and the value (R10, R422). -/
theorem State.lockedWrite_spec (s : State) (off : Nat) (v : Word) :
    s.lockedWrite off v.toNat = { s with glb := (s.lockedWrite off v.toNat).glb, log := (s.lockedWrite off v.toNat).log } ∧
      Raised s (s.lockedWrite off v.toNat) 16 ∧ Logged s (s.lockedWrite off v.toNat) 0x0701 0xFF 0 off v.toNat :=
  ⟨rfl, rfl, (s.setEvt evLockw).logged_logEvt 0x0701 off v.toNat⟩

/-! ### O16: register writes -/

theorem low20_eq (v : Word) : BitVec.ofNat 32 (bits v.toNat 19 0) = v &&& 0xFFFFF#32 := by
  have hmask : (0xFFFFF#32).toNat = 2 ^ 20 - 1 := by decide
  have hlt : v.toNat % 2 ^ 20 < 2 ^ 32 := Nat.lt_of_lt_of_le (Nat.mod_lt _ (by decide)) (by decide)
  have hbits : bits v.toNat 19 0 = v.toNat % 2 ^ 20 := rfl
  apply BitVec.eq_of_toNat_eq
  rw [BitVec.toNat_and, BitVec.toNat_ofNat, hmask, Nat.and_two_pow_sub_one_eq_mod, hbits, Nat.mod_eq_of_lt hlt]

/-- The read-only registers of GLB are words of its window, and none of the registers that a write reaches (R422). -/
theorem glb_readOnly {o : Nat} (ho : o ∈ [0x00, 0x04, 0x08, 0x0C, 0x10, 0x18]) :
    (o < 0x10000 ∧ o % 4 = 0) ∧ o ≠ 0x14 ∧ o ≠ 0x1C ∧ o ≠ 0x20 ∧ o ≠ 0x24 :=
  (by decide : ∀ o ∈ [0x00, 0x04, 0x08, 0x0C, 0x10, 0x18],
    (o < 0x10000 ∧ o % 4 = 0) ∧ o ≠ 0x14 ∧ o ≠ 0x1C ∧ o ≠ 0x20 ∧ o ≠ 0x24) o ho

/-- The identification and status registers of GLB are read-only (R422). -/
theorem State.glbWrite_readOnly (s : State) {o : Nat} (ho : o ∈ [0x00, 0x04, 0x08, 0x0C, 0x10, 0x18]) (v : Nat) :
    s.glbWrite o v = s := by
  obtain ⟨-, hctl, hevt, hevtEn, hpreempt⟩ := glb_readOnly ho
  unfold State.glbWrite
  rw [if_neg hctl, if_neg hevt, if_neg hevtEn, if_neg hpreempt]

theorem State.glbWrite_evt (s : State) (v : Word) :
    s.glbWrite 0x1C v.toNat = { s with glb := { s.glb with evt := s.glb.evt &&& ~~~v } } := by
  simp [State.glbWrite, State.modGlb]

theorem State.glbWrite_evtEn (s : State) (v : Word) :
    s.glbWrite 0x20 v.toNat = { s with glb := { s.glb with evtEn := v &&& 0xFFFFF#32 } } := by
  simp [State.glbWrite, State.modGlb, low20_eq]

/-- A write that waits joins the queue of its tile and wakes it (R347). -/
theorem State.busWrite_waits {s : State} {off : Nat} {k : Tile} (h : s.waitTile off = some k) (who : Requester)
    (size : Nat) (v : Word) : s.busWrite who off size v.toNat =
      s.waitAccess { tile := k, who := who, write := true, off := off, size := size, value := v } := by
  unfold State.busWrite
  rw [h]
  simp only [word_ofNat_toNat]

theorem State.waitAccess_spec (s : State) (x : BusAccess) :
    s.waitAccess x = { s with tiles := (s.waitAccess x).tiles, bus := { s.bus with waiting := s.bus.waiting ++ [x] } } ∧
      (s.clk (tileKey x.tile) = .nap → (s.waitAccess x).clk (tileKey x.tile) = .wakingNap) ∧
      (s.clk (tileKey x.tile) = .off → (s.waitAccess x).clk (tileKey x.tile) = .wakingOff) :=
  let queued : State := { s with bus := { s.bus with waiting := s.bus.waiting ++ [x] } }
  ⟨queued.wake_eq _, queued.clk_wake_nap _, queued.clk_wake_off _⟩

/-- The oldest access that waits for a tile in RUN, a write of the host, reaches its register. -/
theorem State.accessComplete_hostWrite {s : State} {k : Tile} {x : BusAccess}
    (hf : s.bus.waiting.find? (fun y => y.tile == k) = some x) (hw : x.who = .host) (hx : x.write = true)
    (hr : s.running (tileKey k) = true) : s.accessComplete k =
      State.writeNow { s with bus := { s.bus with waiting := s.bus.waiting.erase x } } .host x.off x.size
        x.value.toNat := by
  simp [State.accessComplete, State.completeAccess, hf, hw, hx, hr]

theorem State.accessComplete_none {s : State} {k : Tile} (hf : s.bus.waiting.find? (fun y => y.tile == k) = none) :
    s.accessComplete k = s := by
  unfold State.accessComplete
  rw [hf]

/-- Settles O16: each clause is the effect of a write that waits, or of one that arrives at its register. -/
theorem registerWrites : Obligations.RegisterWrites := by
  unfold Obligations.RegisterWrites
  intro s who off size v hs
  refine ⟨?misfit, ?waits, ?evt, ?evtEn, ?readOnly, ?locked, ?opened, ?completes, ?nothing⟩
  case misfit =>
    intro hw h
    refine Ignored.effect hs (exec_registerWrite ..) ?_
    rw [State.busWrite_now hw, s.writeNow_misfit who _ h]
  case waits =>
    intro k hk
    exact Leads.effect hs (exec_registerWrite ..) (State.busWrite_waits hk who size v) (s.waitAccess_spec _)
  case evt =>
    exact Leads.effect hs (exec_registerWrite ..)
      ((s.busWrite_glb who (by decide) (by decide) _).trans (s.glbWrite_evt v)) rfl
  case evtEn =>
    exact Leads.effect hs (exec_registerWrite ..)
      ((s.busWrite_glb who (by decide) (by decide) _).trans (s.glbWrite_evtEn v)) rfl
  case readOnly =>
    intro o ho
    obtain ⟨⟨hb, h4⟩, -⟩ := glb_readOnly ho
    refine Ignored.effect hs (exec_registerWrite ..) ?_
    rw [s.busWrite_glb who hb h4, s.glbWrite_readOnly ho]
  case locked =>
    intro n hi hp hr ha hw
    have hoff : 0x100008 + 0x10000 * n.val = 0x100000 + 0x10000 * n.val + 0x0008 := by omega
    rw [hoff]
    refine Leads.effect hs (exec_registerWrite ..) ?_ (s.lockedWrite_spec _ v)
    rw [State.busWrite_face who n (by decide) (by decide) hr ha hw,
      State.fceWrite_acc_locked ha (State.rwlLocked_image hi hp)]
  case opened =>
    intro n hi hr ha hv hw
    have hoff : 0x100008 + 0x10000 * n.val = 0x100000 + 0x10000 * n.val + 0x0008 := by omega
    rw [hoff]
    refine Leads.effect hs (exec_registerWrite ..) ?_
      ⟨rfl, s.face_modFace n.val (fun f => { f with acc := v &&& 0xF7 }), fun m hm => s.face_modFace_other _ _ _ hm⟩
    rw [State.busWrite_face who n (by decide) (by decide) hr ha hw,
      State.fceWrite_acc_open ha (State.rwlLocked_none hi) hv]
  case completes =>
    intro k x hf hw hx hr
    exact Leads.effect hs (exec_registerAccessComplete ..) (State.accessComplete_hostWrite hf hw hx hr) rfl
  case nothing =>
    intro k hf
    exact Ignored.effect hs (exec_registerAccessComplete ..) (State.accessComplete_none hf)

end Sys2Proof.Machine
end

section
/-! What the operations behind the start and the end of a cut leave: folds, clocks that are woken, the passes of benches,
and the rising bits of GLB.EVT. -/

namespace Sys2Proof.Machine

/-! ### Folds -/

/-- A fold brings about what one of its steps does, if every step keeps it. -/
theorem foldl_of_mem {α β : Type} {f : β → α → β} {Q : β → Prop} {xs : List α} {x : α} (hx : x ∈ xs)
    (keep : ∀ t y, Q t → Q (f t y)) (hit : ∀ t, Q (f t x)) (s : β) : Q (xs.foldl f s) := by
  induction xs generalizing s with
  | nil => cases hx
  | cons y ys ih =>
    rcases List.mem_cons.mp hx with rfl | hx
    · exact List.foldlRecOn ys f (hit s) fun t ht z _ => keep t z ht
    · exact ih hx (f s y)

/-- A fold none of whose steps changes its start gives its start. -/
theorem foldl_idle {α β : Type} {f : β → α → β} {xs : List α} {s : β} (h : ∀ x ∈ xs, f s x = s) : xs.foldl f s = s :=
  List.foldlRecOn (motive := fun t => t = s) xs f rfl fun t ht x hx => by rw [ht, h x hx]

/-- A sparse array with its values changed gives the changed value, where the default is not changed. -/
theorem Tab.get_map {α : Type} (d : α) (t : Tab α) (f : Nat → α → α) (k : Nat) (hd : f k d = d) :
    Tab.get d (List.map (fun x : Nat × α => (x.1, f x.1 x.2)) t) k = f k (Tab.get d t k) := by
  induction t with
  | nil => exact hd.symm
  | cons x t ih =>
    obtain ⟨j, v⟩ := x
    simp only [List.map_cons, Tab.get]
    split
    · next hk => rw [hk]
    · exact ih

/-! ### States that agree in every part -/

theorem State.eq_of_parts {s t : State} (h : ∀ p : Part, p.same s t) : t = s := by
  cases s
  cases t
  rw [State.mk.injEq]
  exact ⟨h .pending, h .fresh, h .supply, h .nc, h .glb, h .tiles, h .faces, h .benches, h .kilns, h .yard, h .fabric,
    h .image, h .cfgDigest, h .load, h .tables, h .refused, h .tallies, h .apertureErr, h .working, h .cuts, h .seams,
    h .results, h .slots, h .hoists, h .tpbs, h .tileSlots, h .klnPerr, h .drvPerr, h .ports, h .xruns, h .aruns,
    h .units, h .surge, h .cross, h .temps, h .hot, h .health, h .spare, h .fills, h .snap, h .nv, h .foreman, h .log,
    h .monitor, h .pairs, h .bus, h .stalls, h .moves, h .tallyWait⟩

/-- The mask of a list of parts. -/
def partMask (ps : List Part) : Nat := ps.foldl (fun m p => m ||| 2 ^ p.bit) 0

/-! ### Wake requests (R336) -/

/-- What a wake request makes of a clock state. -/
def ClkState.woken : ClkState → ClkState
  | .nap => .wakingNap
  | .off => .wakingOff
  | c => c

theorem ClkState.woken_woken (c : ClkState) : c.woken.woken = c.woken := by
  cases c <;> rfl

theorem State.clk_wake (s : State) (k j : Nat) : (s.wake k).clk j = if j = k then (s.clk j).woken else s.clk j := by
  split
  · next h =>
    subst h
    cases hc : s.clk j with
    | nap => exact s.clk_wake_nap j hc
    | off => exact s.clk_wake_off j hc
    | run | wakingNap | wakingOff => simp [State.wake, hc, ClkState.woken]
  · next h => exact s.clk_wake_other k j h

theorem State.clk_wakeAll (s : State) (ks : List Nat) (j : Nat) :
    (s.wakeAll ks).clk j = if j ∈ ks then (s.clk j).woken else s.clk j := by
  induction ks generalizing s with
  | nil => simp [State.wakeAll]
  | cons k ks ih =>
    have h : s.wakeAll (k :: ks) = (s.wake k).wakeAll ks := rfl
    rw [h, ih, s.clk_wake k j]
    by_cases hk : j = k <;> by_cases hj : j ∈ ks <;> simp [hk, hj, ClkState.woken_woken]

theorem State.wakeAll_eq (s : State) (ks : List Nat) : s.wakeAll ks = { s with tiles := (s.wakeAll ks).tiles } :=
  State.eq_of_parts fun p => by
    have hp := (State.wakeAll_same (Sub.refl _) (Same.refl _ s) ks).part p
    cases p <;> first
      | exact hp (by decide)
      | rfl

/-! ### The start of passes (R76, R80) -/

/-- What the start of passes leaves: the cut that holds each bench; of each cut its phase, step, start and descriptor;
and the whole of a cut that does not run. -/
structure PassStart (s t : State) : Prop where
  /-- who holds a bench -/
  holder : ∀ m c, (t.bench m c).cut = (s.bench m c).cut
  /-- where a cut stands in its step -/
  phase : ∀ k, (t.cut k).phase = (s.cut k).phase
  /-- the step of a cut -/
  step : ∀ k, (t.cut k).step = (s.cut k).step
  /-- the night cycle at which a cut started -/
  startNc : ∀ k, (t.cut k).startNc = (s.cut k).startNc
  /-- the descriptor of a cut -/
  desc : ∀ k, (t.cut k).desc = (s.cut k).desc
  /-- a cut that does not run -/
  rest : ∀ k, (s.cut k).phase ≠ .running → t.cut k = s.cut k

theorem PassStart.refl (s : State) : PassStart s s :=
  ⟨fun _ _ => rfl, fun _ => rfl, fun _ => rfl, fun _ => rfl, fun _ => rfl, fun _ _ => rfl⟩

theorem PassStart.trans {s a t : State} (h : PassStart s a) (k : PassStart a t) : PassStart s t where
  holder m c := (k.holder m c).trans (h.holder m c)
  phase i := (k.phase i).trans (h.phase i)
  step i := (k.step i).trans (h.step i)
  startNc i := (k.startNc i).trans (h.startNc i)
  desc i := (k.desc i).trans (h.desc i)
  rest i hi := (k.rest i (by rwa [h.phase])).trans (h.rest i hi)

/-- A change of neither the benches nor the cuts. -/
theorem PassStart.of_eq {s t : State} (hb : t.benches = s.benches) (hc : t.cuts = s.cuts) : PassStart s t := by
  have bench : ∀ m c, t.bench m c = s.bench m c := fun m c => by rw [State.bench, hb]; rfl
  have cut : ∀ k, t.cut k = s.cut k := fun k => by rw [State.cut, hc]; rfl
  exact ⟨fun m c => by rw [bench], fun k => by rw [cut], fun k => by rw [cut], fun k => by rw [cut],
    fun k => by rw [cut], fun k _ => cut k⟩

/-- A change of a bench that leaves it to its cut. -/
theorem PassStart.modBench (s : State) (n b : Nat) {f : Bench → Bench} (hf : ∀ x, (f x).cut = x.cut) :
    PassStart s (s.modBench n b f) where
  holder m c := by
    by_cases h : m * 4 + c = n * 4 + b
    · simp [State.bench, State.modBench, h, hf]
    · rw [State.bench_modBench_other s n b m c f h]
  phase _ := rfl
  step _ := rfl
  startNc _ := rfl
  desc _ := rfl
  rest _ _ := rfl

/-- A change of a running cut that leaves its phase, step, start and descriptor. -/
theorem PassStart.modCut {s : State} {e : Nat} {f : CutRun → CutRun} (hr : (s.cut e).phase = .running)
    (hf : ∀ c : CutRun, (f c).phase = c.phase ∧ (f c).step = c.step ∧ (f c).startNc = c.startNc ∧ (f c).desc = c.desc) :
    PassStart s (s.modCut e f) := by
  have one : ∀ k, (s.modCut e f).cut k = if k = e then f (s.cut k) else s.cut k := fun k => by
    split
    · next h => rw [h, State.cut_modCut]
    · next h => exact State.cut_modCut_other s e k f h
  refine ⟨fun _ _ => rfl, fun k => ?_, fun k => ?_, fun k => ?_, fun k => ?_, fun k hk => ?_⟩
  case refine_5 =>
    rw [one, if_neg]
    rintro rfl
    exact hk hr
  all_goals
    rw [one]
    split
    · simp [hf]
    · rfl

theorem PassStart.setStatus {s : State} {e : Nat} (hr : (s.cut e).phase = .running) (code : Nat) :
    PassStart s (s.setStatus e code) := by
  have h := PassStart.modCut (f := fun c => { c with status := code }) hr fun _ => ⟨rfl, rfl, rfl, rfl⟩
  unfold State.setStatus
  split
  · exact h.trans (PassStart.of_eq rfl rfl)
  · exact h

theorem PassStart.orFlags {s : State} {e : Nat} (hr : (s.cut e).phase = .running) (k : Nat) :
    PassStart s (s.orFlags e k) :=
  PassStart.modCut hr fun _ => ⟨rfl, rfl, rfl, rfl⟩

theorem PassStart.replayStarts {s : State} {e : Nat} (hr : (s.cut e).phase = .running) (p : Replay → Bool) :
    PassStart s (s.replayStarts e p) := by
  have h := PassStart.modCut (f := fun c => { c with awaiting := c.awaiting.filter (fun r => !p r) }) hr
    fun _ => ⟨rfl, rfl, rfl, rfl⟩
  unfold State.replayStarts
  split
  · dsimp only
    split
    · exact h.trans (PassStart.setStatus ((h.phase e).trans hr) 0)
    · exact h
  · exact PassStart.refl s

theorem PassStart.noteDrvBank {s : State} {e : Nat} (hr : (s.cut e).phase = .running) (item : Nat) :
    PassStart s (s.noteDrvBank e item) := by
  have h := PassStart.modCut
    (f := fun c => { c with bank := some s.tables.drvCur, banks := Tab.set c.banks item s.tables.drvCur }) hr
    fun _ => ⟨rfl, rfl, rfl, rfl⟩
  unfold State.noteDrvBank
  dsimp only
  split
  · exact PassStart.refl s
  · split
    · split
      · exact h
      · exact h.trans (PassStart.orFlags ((h.phase e).trans hr) _)
    · exact h

theorem PassStart.noteKilnBank {s : State} {e : Nat} (hr : (s.cut e).phase = .running) (n b : Nat) (p : PassId) :
    PassStart s (s.noteKilnBank n b e p) := by
  have note : ∀ ks : Tab Kiln,
      PassStart s (State.modCut { s with kilns := ks } e (fun c => { c with bank := some s.tables.kilnCur })) := fun ks =>
    PassStart.trans (a := { s with kilns := ks }) (PassStart.of_eq rfl rfl)
      (PassStart.modCut (f := fun c => { c with bank := some s.tables.kilnCur }) hr fun _ => ⟨rfl, rfl, rfl, rfl⟩)
  unfold State.noteKilnBank
  extract_lets cur k same s1 s2
  split
  · exact PassStart.refl s
  · split
    · split
      · exact (note _).trans (PassStart.orFlags (((note _).phase e).trans hr) _)
      · exact note _
    · exact note _

theorem PassStart.noteBank {s : State} {e : Nat} (hr : (s.cut e).phase = .running) (n b : Nat) :
    PassStart s (s.noteBank n b e) := by
  unfold State.noteBank
  split
  · split
    · exact PassStart.noteDrvBank hr _
    · split
      · exact PassStart.noteKilnBank hr n b _
      · exact PassStart.refl s
  · exact PassStart.refl s

theorem PassStart.showEcon (s : State) (n b : Nat) : PassStart s (s.showEcon n b) :=
  PassStart.of_eq rfl rfl

theorem Bench.swap_cut (b : Bench) : b.swap.cut = b.cut := by
  unfold Bench.swap
  dsimp only
  split <;> rfl

/-- A bench that tries to start a pass stays with its cut. -/
theorem Bench.tryStart_cut (b : Bench) (f : Face) (c : CutRun) : (b.tryStart f c).cut = b.cut := by
  unfold Bench.tryStart
  split
  · rfl
  · split
    · rfl
    · split
      · rfl
      · dsimp only
        split
        · rfl
        · split
          · rfl
          · split
            · rfl
            · exact b.swap_cut

theorem PassStart.tryStart (s : State) (n b : Nat) : PassStart s (s.tryStart n b) := by
  unfold State.tryStart
  split
  · next e _ =>
    split
    · next hgo =>
      obtain ⟨hr, -, -⟩ := hgo
      extract_lets s0 s1
      have h0 : PassStart s s0 := PassStart.modBench s n b fun x => x.tryStart_cut _ _
      have h1 : PassStart s s1 := by
        dsimp only [s1]
        split
        · exact h0.trans (PassStart.modCut ((h0.phase e).trans hr) fun _ => ⟨rfl, rfl, rfl, rfl⟩)
        · exact h0
      have hr1 : (s1.cut e).phase = .running := (h1.phase e).trans hr
      refine PassStart.trans ?_ (PassStart.showEcon _ n b)
      split
      · have h2 := PassStart.noteBank hr1 n b
        exact (h1.trans h2).trans (PassStart.replayStarts ((h2.phase e).trans hr1) _)
      · exact h1
    · exact PassStart.refl s
  · exact PassStart.refl s

/-- Benches that try to start one after another. -/
theorem PassStart.foldl {α : Type} (s : State) (xs : List α) {f : State → α → State} (h : ∀ t x, PassStart t (f t x)) :
    PassStart s (xs.foldl f s) :=
  List.foldlRecOn xs f (PassStart.refl s) fun t ht x _ => ht.trans (h t x)

/-! ### GLB.EVT: what is set stays set (R422) -/

/-- Bits of GLB.EVT that are set. -/
def State.flagged (s : State) (m : Word) : Prop := s.glb.evt &&& m = m

theorem State.flagged_of_glb {s t : State} {m : Word} (h : s.flagged m) (hg : t.glb = s.glb) : t.flagged m := by
  unfold State.flagged
  rw [hg]
  exact h

/-- The flag that is set is set. -/
theorem State.setEvt_flagged (s : State) (i : Nat) : (s.setEvt i).flagged (BitVec.ofNat 32 (2 ^ i)) := by
  have h : ∀ a b : Word, (a ||| b) &&& b = b := fun a b => by
    ext j
    simp only [BitVec.getElem_and, BitVec.getElem_or]
    grind
  exact h _ _

theorem State.flagged_setEvt {s : State} {m : Word} (h : s.flagged m) (i : Nat) : (s.setEvt i).flagged m := by
  have hb : (s.glb.evt ||| BitVec.ofNat 32 (2 ^ i)) &&& m = (s.glb.evt &&& m) ||| (BitVec.ofNat 32 (2 ^ i) &&& m) := by
    ext j
    simp only [BitVec.getElem_and, BitVec.getElem_or, Bool.and_or_distrib_right]
  have ha : m ||| (BitVec.ofNat 32 (2 ^ i) &&& m) = m := by
    ext j
    simp only [BitVec.getElem_and, BitVec.getElem_or]
    grind
  exact hb.trans (by rw [h, ha])

theorem State.flagged_riskAdd {s : State} {m : Word} (h : s.flagged m) (k : Nat) : (s.riskAdd k).flagged m := by
  unfold State.riskAdd
  dsimp only
  split
  · exact State.flagged_setEvt (s := { s with health := _ }) h evRisk
  · exact h

theorem State.flagged_healthEvent {s : State} {m : Word} (h : s.flagged m) (i k : Nat) :
    (s.healthEvent i k).flagged m := by
  unfold State.healthEvent
  refine State.flagged_riskAdd ?_ _
  exact h

theorem State.flagged_riskClose {s : State} {m : Word} (h : s.flagged m) : s.riskClose.flagged m := by
  unfold State.riskClose
  refine State.flagged_healthEvent (State.flagged_healthEvent (State.flagged_healthEvent ?_ 4 _) 5 _) 7 _
  exact h

theorem State.flagged_tryClose {s : State} {m : Word} (h : s.flagged m) (w : Nat) : (s.tryClose w).flagged m := by
  have hs : ∀ (t : State) (k : Nat), (t.snapBegin k).glb = t.glb := fun t k =>
    (State.snapBegin_same (Sub.refl _) (Same.refl _ t) k).part .glb (by decide)
  unfold State.tryClose State.closeStep
  dsimp only
  split
  · split
    · refine State.flagged_of_glb (State.flagged_riskClose ?_) (hs _ _)
      exact h
    · exact h
  · exact h

end Sys2Proof.Machine
end

section
/-! The start of a cut (R15, R181, R186, R191 to R194, R336, R450). -/

namespace Sys2Proof.Machine

theorem exec_cutStart (e : Fin 4096) (r : StartReads) (s : State) :
    exec (.cutStart e r) s = s.on (fun s => s.cutStart e.val r) := rfl

/-! ### What CUT_START comes to -/

section
variable {s : State} {i : Image} {e : Nat} {r : StartReads}

/-- A cut that may not start yet waits. -/
theorem State.cutStart_awaits (hi : s.image = some i)
    (hw : s.startable e = false ∨ s.tilesRun (s.descOf e) = false) : s.cutStart e r = s.awaitStart e := by
  have h : (!(s.startable e && s.tilesRun (s.descOf e))) = true := by
    rcases hw with h | h <;> simp [h]
  unfold State.cutStart
  simp only [hi, h, if_true]

/-- No port of the cut is lost. -/
theorem State.find?_lostPort (hp : ∀ p ∈ s.startPorts (s.descOf e), (s.port p).st = .up) :
    (s.startPorts (s.descOf e)).find? (fun p => (s.port p).st != .up) = none :=
  List.find?_eq_none.mpr fun p hm => by simp [hp p hm]

variable (hi : s.image = some i) (hs : s.startable e = true) (ht : s.tilesRun (s.descOf e) = true)
  (ho : s.outranked e = false) (hp : ∀ p ∈ s.startPorts (s.descOf e), (s.port p).st = .up)
  (hf : s.readsFit i (s.descOf e) r = true)
include hi hs ht ho hp hf

theorem State.cutStart_starts (hn : s.startRefusal i e (s.descOf e) r = none) :
    s.cutStart e r = (s.claimAll i e r).beginCut e r := by
  unfold State.cutStart
  simp [hi, hs, ht, ho, State.find?_lostPort hp, hf, hn]

theorem State.cutStart_refuses {x : CutRefusal} (hx : s.startRefusal i e (s.descOf e) r = some x) :
    s.cutStart e r = s.refuse e x := by
  unfold State.cutStart
  simp [hi, hs, ht, ho, State.find?_lostPort hp, hf, hx]

end

/-- A cut that may not start at all is not startable. -/
theorem State.startable_of_mayStart {s : State} {e : Nat} (h : s.mayStart e = false) : s.startable e = false := by
  simp [State.startable, h]

theorem State.awaitStart_idle {s : State} {e : Nat} (h : s.mayStart e = false) : s.awaitStart e = s := by
  simp [State.awaitStart, h]

/-- A cut whose waits are met, other than a W- or S-cut, wakes its tiles. -/
theorem State.awaitStart_wakes {s : State} {e : Nat} (h6 : (s.descOf e).kind ≠ 6) (h2 : (s.descOf e).kind ≠ 2)
    (h : s.mayStart e = true) : s.awaitStart e = s.wakeAll (s.startTiles (s.descOf e)) := by
  simp [State.awaitStart, h, h6, h2]

/-! ### The cut claims its entry and its hoists (R142, R181) -/

/-- COUNT changes the reduction axis of a descriptor alone (R135, R228). -/
theorem Image.countedDesc_eq (i : Image) (d : CutDesc) (r : StartReads) :
    i.countedDesc d r = { d with axR := (i.countedDesc d r).axR } := by
  unfold Image.countedDesc
  split
  · split <;> rfl
  · split <;> rfl
  · rfl

theorem Image.countedDesc_u (i : Image) {d : CutDesc} {a : UArea} (h : d.area = .u a) (r : StartReads) :
    i.countedDesc d r = d := by
  unfold Image.countedDesc
  rw [h]

theorem State.cuts_foldl_modHoist (s : State) (hs : List Nat) (f : Hoist → Hoist) :
    (hs.foldl (fun t h => t.modHoist h f) s).cuts = s.cuts :=
  List.foldlRecOn (motive := fun t : State => t.cuts = s.cuts) hs _ rfl fun _ ht _ _ => ht

/-- The record of a cut that starts is a fresh one. -/
theorem State.cut_claimAll (s : State) (i : Image) (e : Nat) (r : StartReads) :
    let c := (s.claimAll i e r).cut e
    let d := i.countedDesc (s.descOf e) r
    c.phase = .running ∧ c.step = (s.work d.working).step ∧ c.startNc = s.nc ∧ c.runs = (s.cut e).runs + 1 ∧
      c.desc = d ∧ c.maps = i.maps ∧ c.items = s.itemsOf d := by
  unfold State.claimAll
  extract_lets d waited kd fresh s1 c
  have hc : (d.hoistList.foldl (fun t h => t.modHoist h (fun x => x.begin e)) s1).cut e = s1.cut e := by
    rw [State.cut, State.cuts_foldl_modHoist]
    rfl
  have h1 : s1.cut e = _ := s.cut_modCut e _
  have h : c = _ := (State.cut_modCut _ e _).trans (by rw [hc, h1])
  rw [h]
  exact ⟨rfl, rfl, rfl, rfl, rfl, rfl, rfl⟩

theorem State.cut_claimAll_other (s : State) (i : Image) {e k : Nat} (r : StartReads) (hk : k ≠ e) :
    (s.claimAll i e r).cut k = s.cut k := by
  unfold State.claimAll
  extract_lets d waited kd fresh s1
  refine (State.cut_modCut_other _ e k _ hk).trans ?_
  rw [State.cut, State.cuts_foldl_modHoist]
  exact State.cut_modCut_other s e k _ hk

/-- The hoists of a cut that starts stream for it. -/
theorem State.hoist_claimAll (s : State) (i : Image) (e : Nat) (r : StartReads) {h : Nat}
    (hh : h ∈ (s.descOf e).hoistList) :
    ((s.claimAll i e r).hoist h).cut = some e ∧ ((s.claimAll i e r).hoist h).st = .stream := by
  have hl : (i.countedDesc (s.descOf e) r).hoistList = (s.descOf e).hoistList := by rw [Image.countedDesc_eq]; rfl
  rw [← hl] at hh
  refine foldl_of_mem (Q := fun t : State => (t.hoist h).cut = some e ∧ (t.hoist h).st = .stream) hh ?keep ?hit _
  case keep =>
    intro t j ht
    by_cases hj : h = j
    · subst hj
      rw [State.hoist_modHoist]
      exact ⟨rfl, rfl⟩
    · rwa [State.hoist_modHoist_other t j h _ hj]
  case hit =>
    intro t
    rw [State.hoist_modHoist]
    exact ⟨rfl, rfl⟩

/-! ### U-cuts -/

theorem State.healthyDressers_congr {s t : State} (h : t.units = s.units) : t.healthyDressers = s.healthyDressers := by
  unfold State.healthyDressers State.unitHealthy State.unit
  rw [h]

/-- A U-cut that finds a healthy dresser only claims what is its own. -/
theorem State.beginCut_u {s : State} {e : Nat} {a : UArea} (ha : (s.cut e).desc.area = .u a)
    (hd : s.healthyDressers ≠ []) (r : StartReads) : s.beginCut e r = s := by
  unfold State.beginCut State.startU
  rw [ha]
  simp [hd]

theorem State.claimAll_eq (s : State) (i : Image) (e : Nat) (r : StartReads) : s.claimAll i e r =
    { s with cuts := (s.claimAll i e r).cuts, hoists := (s.claimAll i e r).hoists } :=
  State.eq_of_parts fun p => by
    have hp := (State.claimAll_same (Sub.refl _) (Same.refl _ s) i e r).part p
    cases p <;> first
      | exact hp (by decide)
      | rfl

theorem State.start_u {s : State} {i : Image} {e : Nat} {a : UArea} (ha : (s.descOf e).area = .u a)
    (hd : s.healthyDressers ≠ []) (r : StartReads) : (s.claimAll i e r).beginCut e r = s.claimAll i e r := by
  obtain ⟨-, -, -, -, hdesc, -, -⟩ := s.cut_claimAll i e r
  refine State.beginCut_u (a := a) ?_ ?_ r
  · rw [hdesc, i.countedDesc_u ha, ha]
  · rwa [State.healthyDressers_congr (by rw [s.claimAll_eq i e r])]

/-! ### D-cuts: the benches take their passes (R206) -/

theorem State.beginCut_d {s : State} {e : Nat} {a : DArea} (ha : (s.cut e).desc.area = .d a) (r : StartReads) :
    s.beginCut e r = s.dealStart e := by
  unfold State.beginCut
  rw [ha]

theorem State.mem_benchList {s : State} {d : CutDesc} {x : Nat × Nat} :
    x ∈ s.benchList d ↔ x.1 ∈ s.cutFaces d ∧ x.2 < d.benches := by
  obtain ⟨n, b⟩ := x
  simp only [State.benchList, List.mem_flatten, List.mem_map]
  constructor
  · rintro ⟨_, ⟨m, hm, rfl⟩, hx⟩
    obtain ⟨c, hc, hx⟩ := List.mem_map.mp hx
    cases hx
    exact ⟨hm, List.mem_range.mp hc⟩
  · rintro ⟨hn, hb⟩
    exact ⟨_, ⟨n, hn, rfl⟩, List.mem_map.mpr ⟨b, List.mem_range.mpr hb, rfl⟩⟩

/-- The benches of a cut depend on the spare map and on what the descriptor names. -/
theorem State.cutFaces_congr {s t : State} {d d' : CutDesc} (hs : t.spare = s.spare) (hf : d'.faces = d.faces) :
    t.cutFaces d' = s.cutFaces d := by
  have hpl : t.placeOf = s.placeOf := funext fun n => by rw [State.placeOf, hs]; rfl
  unfold State.cutFaces
  rw [hf, hpl]

theorem State.benchList_congr {s t : State} {d d' : CutDesc} (hs : t.spare = s.spare) (hf : d'.faces = d.faces)
    (hb : d'.benches = d.benches) : t.benchList d' = s.benchList d := by
  unfold State.benchList
  rw [State.cutFaces_congr hs hf, hb]

/-- A bench dealt to a cut is the cut's. -/
theorem State.bench_deal (t : State) (n b m c e : Nat) (ps : List PassId) :
    ((t.modBench n b (fun y => y.deal e ps)).bench m c).cut = some e ∨
      ((t.modBench n b (fun y => y.deal e ps)).bench m c).cut = (t.bench m c).cut := by
  by_cases h : m * 4 + c = n * 4 + b
  · left
    simp [State.bench, State.modBench, h, Bench.deal]
  · right
    rw [State.bench_modBench_other t n b m c _ h]

theorem State.bench_deal_keeps {t : State} {m c e : Nat} (h : (t.bench m c).cut = some e) (n b : Nat) (ps : List PassId) :
    ((t.modBench n b (fun y => y.deal e ps)).bench m c).cut = some e :=
  (t.bench_deal n b m c e ps).elim id fun k => k.trans h

/-- The benches of a D- or W-cut are dealt to it, and its record keeps where it stands. -/
theorem State.dealCut_spec {s : State} {e : Nat} (hk : (s.cut e).desc.kind ≠ 3) :
    (∀ x ∈ s.benchList (s.cut e).desc, ((s.dealCut e).bench x.1 x.2).cut = some e) ∧
      ((s.dealCut e).cut e).phase = (s.cut e).phase ∧ ((s.dealCut e).cut e).step = (s.cut e).step ∧
      ((s.dealCut e).cut e).startNc = (s.cut e).startNc ∧ ((s.dealCut e).cut e).desc = (s.cut e).desc := by
  unfold State.dealCut
  extract_lets d s1
  rw [if_neg hk]
  have hcut : s1.cut e = s.cut e := by
    have h : Same (partMask [.benches]) s s1 := Same.foldl (Same.refl _ s) _ _ fun t x ht =>
      Same.foldl ht _ _ fun u b hu => State.modBench_same ⟨by decide⟩ hu _ _ _
    have hc : s1.cuts = s.cuts := h.part .cuts (by decide)
    rw [State.cut, hc]
    rfl
  have hheld : ∀ x ∈ s.benchList d, (s1.bench x.1 x.2).cut = some e := by
    rintro ⟨n, b⟩ hx
    obtain ⟨hn, hb⟩ := State.mem_benchList.mp hx
    obtain ⟨j, hj⟩ : ∃ j, (n, j) ∈ (s.cutFaces d).zipIdx := by
      obtain ⟨j, hlt, hj⟩ := List.getElem_of_mem hn
      exact ⟨j, List.mk_mem_zipIdx_iff_getElem?.mpr (List.getElem?_eq_some_iff.mpr ⟨hlt, hj⟩)⟩
    refine foldl_of_mem (Q := fun t : State => (t.bench n b).cut = some e) hj (fun t y ht => ?_) (fun t => ?_) s
    · exact List.foldlRecOn (motive := fun u : State => (u.bench n b).cut = some e) _ _ ht fun u hu c _ =>
        State.bench_deal_keeps hu _ _ _
    · refine foldl_of_mem (Q := fun u : State => (u.bench n b).cut = some e) (List.mem_range.mpr hb)
        (fun u c hu => State.bench_deal_keeps hu _ _ _) (fun u => ?_) t
      rw [State.bench_modBench]
      rfl
  have hp := PassStart.foldl s1 (s.benchList d) (f := fun t x => t.tryStart x.1 x.2)
    fun t x => PassStart.tryStart t x.1 x.2
  refine ⟨fun x hx => (hp.holder _ _).trans (hheld x hx), ?_, ?_, ?_, ?_⟩
  · rw [hp.phase, hcut]
  · rw [hp.step, hcut]
  · rw [hp.startNc, hcut]
  · rw [hp.desc, hcut]

/-- With every bench of the cut healthy and no face adopted there is no work to take over (R89, R380). -/
theorem State.shareWork_idle {s : State} {e : Nat}
    (hb : ∀ x ∈ s.benchList (s.cut e).desc, s.benchRetired x.1 (s.physBench x.1 x.2) = false)
    (hn : ∀ n ∈ s.cutFaces (s.cut e).desc, s.adopted n = false) : s.shareWork e = s := by
  have hshare : (s.benchList (s.cut e).desc).foldl (fun t x => t.shareBench e x.1 x.2) s = s :=
    foldl_idle fun x hx => by simp [State.shareBench, hb x hx]
  have hadopt : (s.cutFaces (s.cut e).desc).filter s.adopted = [] :=
    List.filter_eq_nil_iff.mpr fun n hm => by simp [hn n hm]
  unfold State.shareWork
  dsimp only
  rw [hshare, hadopt]
  rfl

/-- A D-cut that starts on healthy benches of faces that serve takes its benches; its record tells where it stands. -/
theorem State.start_d {s : State} {i : Image} {e : Nat} {a : DArea} (ha : (s.descOf e).area = .d a)
    (hk : (s.descOf e).kind = 1)
    (hb : ∀ x ∈ s.benchList (s.descOf e), s.benchRetired x.1 (s.physBench x.1 x.2) = false)
    (hn : ∀ n ∈ s.cutFaces (s.descOf e), s.adopted n = false) (r : StartReads) :
    let t := (s.claimAll i e r).beginCut e r
    (t.cut e).phase = .running ∧ (t.cut e).startNc = s.nc ∧ (t.cut e).step = (s.work (s.descOf e).working).step ∧
      (∀ x ∈ s.benchList (s.descOf e), (t.bench x.1 x.2).cut = some e) ∧ t.tallies = s.tallies ∧ t.yard = s.yard ∧
      t.log = s.log ∧ t.glb = s.glb := by
  intro t
  obtain ⟨hphase, hstep, hnc, -, hdesc, -, -⟩ := s.cut_claimAll i e r
  rw [i.countedDesc_eq] at hdesc hstep
  have hsame : Same (partMask [.faces, .benches, .kilns, .fabric, .cuts, .aruns, .hoists]) s
      ((s.claimAll i e r).dealCut e) :=
    State.dealCut_same ⟨by decide⟩ (State.claimAll_same ⟨by decide⟩ (Same.refl _ s) i e r) e
  have hspare : ((s.claimAll i e r).dealCut e).spare = s.spare := hsame.part .spare (by decide)
  have hfills : ((s.claimAll i e r).dealCut e).fills = s.fills := hsame.part .fills (by decide)
  obtain ⟨hheld, dphase, dstep, dnc, ddesc⟩ := State.dealCut_spec (s := s.claimAll i e r) (e := e)
    (by rw [hdesc]; simp [hk])
  have hbl : s.benchList (s.descOf e) = (s.claimAll i e r).benchList ((s.claimAll i e r).cut e).desc :=
    (State.benchList_congr (by rw [s.claimAll_eq i e r]) (by rw [hdesc]) (by rw [hdesc])).symm
  have ht : t = (s.claimAll i e r).dealCut e := by
    refine (State.beginCut_d (a := a) (by rw [hdesc]; exact ha) r).trans (State.shareWork_idle ?_ ?_)
    · rw [ddesc, State.benchList_congr hspare (by rw [hdesc]) (by rw [hdesc])]
      unfold State.benchRetired State.physBench
      rw [hspare]
      exact hb
    · rw [ddesc, State.cutFaces_congr hspare (by rw [hdesc])]
      unfold State.adopted State.faceGone
      rw [hspare, hfills]
      exact hn
  rw [ht]
  refine ⟨dphase.trans hphase, dnc.trans hnc, dstep.trans hstep, ?_, hsame.part .tallies (by decide),
    hsame.part .yard (by decide), hsame.part .log (by decide), hsame.part .glb (by decide)⟩
  rw [hbl]
  exact hheld

/-! ### A refusal (R141, R186, R194, R450) -/

theorem State.cut_writeRecord (s : State) (e k : Nat) : (s.writeRecord e).cut k = s.cut k := by
  have h : (s.writeRecord e).cuts = s.cuts :=
    (State.writeRecord_same (Sub.refl _) (Same.refl _ s) e).part .cuts (by decide)
  rw [State.cut, h]
  rfl

/-- The record of a cut that has its final status. -/
theorem State.cut_finish (s : State) (e code : Nat) :
    (s.finish e code).cut e = { s.cut e with phase := .ended, status := code, endNc := s.nc } := by
  unfold State.finish
  rw [State.cut_writeRecord, State.cut_modCut]

/-- The record of a refused cut, but for its end (R141, R450). -/
def State.refusedRun (s : State) (e : Nat) (x : CutRefusal) (c : CutRun) : CutRun :=
  { CutRun.reset with
    desc := s.descOf e, step := (s.work (s.descOf e).working).step, startNc := s.nc, detailMap := x.detailMap
    detailAux := x.detailAux, runs := c.runs, flags := c.flags }

/-- CUT_REFUSED, its record and what a refusal means for the seam, the cuts that wait and the step. -/
def State.tellRefused (s : State) (e w status : Nat) : State :=
  ((((s.setEvt evCutRefused).logCut 0x0201 e).endSeam e status).logStalled e).tryClose w

theorem State.refuse_eq (s : State) (e : Nat) (x : CutRefusal) : s.refuse e x =
    ((s.modCut e (s.refusedRun e x)).finish e x.status).tellRefused e (s.descOf e).working x.status := rfl

/-- The refusal told, the cut's record stands and CUT_REFUSED is set. -/
theorem State.tellRefused_spec (s : State) (e w status : Nat) :
    (s.tellRefused e w status).cut e = s.cut e ∧
      (s.tellRefused e w status).flagged (BitVec.ofNat 32 (2 ^ evCutRefused)) := by
  constructor
  · have hc : (s.tellRefused e w status).cuts = s.cuts :=
      (State.tryClose_same (M := partMask [.glb, .yard, .seams, .slots, .log, .working, .health, .snap])
        ⟨by decide⟩ (State.logStalled_same ⟨by decide⟩ (State.endSeam_same ⟨by decide⟩ (State.logCut_same ⟨by decide⟩
          (State.setEvt_same ⟨by decide⟩ (Same.refl _ s) _) _ _) _ _) _) _).part .cuts (by decide)
    rw [State.cut, hc]
    rfl
  · refine State.flagged_tryClose (State.flagged_of_glb (s.setEvt_flagged evCutRefused) ?_) _
    exact (State.logStalled_same (M := partMask [.yard, .seams, .slots, .log]) ⟨by decide⟩ (State.endSeam_same ⟨by decide⟩
      (State.logCut_same ⟨by decide⟩ (Same.refl _ _) _ _) _ _) _).part .glb (by decide)

theorem State.refuse_spec (s : State) (e : Nat) (x : CutRefusal) :
    let t := s.refuse e x
    (t.cut e).phase = .ended ∧ (t.cut e).status = x.status ∧ (t.cut e).detailMap = x.detailMap ∧
      (t.cut e).detailAux = x.detailAux ∧ (t.cut e).startNc = s.nc ∧ (t.cut e).endNc = s.nc ∧
      t.glb.evt &&& 4 = 4 ∧ t.tallies = s.tallies ∧ t.hoists = s.hoists ∧ t.benches = s.benches := by
  intro t
  have hsame : Same _ s t := State.refuse_same (Sub.refl _) (Same.refl _ s) e x
  obtain ⟨hcut, hflag⟩ :=
    ((s.modCut e (s.refusedRun e x)).finish e x.status).tellRefused_spec e (s.descOf e).working x.status
  rw [← State.refuse_eq] at hcut hflag
  rw [State.cut_finish, State.cut_modCut] at hcut
  change t.cut e = _ at hcut
  rw [hcut]
  exact ⟨rfl, rfl, rfl, rfl, rfl, rfl, hflag, hsame.part .tallies (by decide), hsame.part .hoists (by decide),
    hsame.part .benches (by decide)⟩

end Sys2Proof.Machine
end

section
/-! The end of a cut (R190 to R194, R223), and the statement about the run of cuts. -/

namespace Sys2Proof.Machine

theorem exec_cutEnd (e : Fin 4096) (s : State) : exec (.cutEnd e) s = s.on (fun s => s.cutEnd e.val) := rfl

/-! ### DONE tallies and the final status (R13, R14, R190) -/

/-- No flag makes a final status that fails. -/
theorem failedCode_finalStatus (flags : Nat) : failedCode (finalStatus flags) = false := by
  unfold finalStatus
  repeat' split
  all_goals rfl

theorem State.tallyAdd_tallies (s : State) (i k : Nat) :
    (s.tallyAdd i k).tallies = Tab.set s.tallies i (satAdd 64 (Tab.get 0 s.tallies i) k) := by
  unfold State.tallyAdd
  dsimp only
  split <;> rfl

theorem State.tallyDone_congr {s t : State} (h : t.tallies = s.tallies) (d : DoneDesc) :
    (t.tallyDone d).tallies = (s.tallyDone d).tallies := by
  unfold State.tallyDone
  split
  · exact h
  · rw [State.tallyAdd_tallies, State.tallyAdd_tallies, h]

/-- What the DONE tallies come to depends on the tallies alone. -/
theorem State.doneTallies_congr {s t : State} (h : t.tallies = s.tallies) (d : CutDesc) :
    (t.doneTallies d).tallies = (s.doneTallies d).tallies := by
  unfold State.doneTallies
  induction d.dones generalizing s t with
  | nil => exact h
  | cons x xs ih => exact ih (State.tallyDone_congr h x)

/-! ### What the cut held is free -/

theorem State.retmpl_cut (s : State) (n : Nat) (h : Hoist) : (s.retmpl n h).cut = h.cut := by
  unfold State.retmpl
  split
  · split <;> rfl
  · rfl

/-- No hoist streams for a cut whose hoists are freed. -/
theorem State.hoist_freeHoists (s : State) (e h : Nat) : ((s.freeHoists e).hoist h).cut ≠ some e := by
  have hg : (s.freeHoists e).hoist h =
      (fun k x => if x.cut = some e then s.retmpl k x.idleNow else x) h (s.hoist h) :=
    Tab.get_map Hoist.reset s.hoists (fun k x => if x.cut = some e then s.retmpl k x.idleNow else x) h rfl
  rw [hg]
  dsimp only
  split
  · rw [State.retmpl_cut]
    exact (Option.some_ne_none e).symm
  · assumption

/-- A bench that yields to no cut is free without the cut that held it. -/
theorem State.freeBench_cut {s : State} {e : Nat} {b : Bench} (hc : b.cut = some e) (hy : b.yielded = none) :
    (s.freeBench e b).cut = none := by
  simp [State.freeBench, hc, hy, Bench.reset]

theorem State.freeBench_reset (s : State) (e : Nat) : s.freeBench e Bench.reset = Bench.reset := by
  simp [State.freeBench, Bench.reset]

theorem State.bench_freeBenches (s : State) (e n b : Nat) :
    ((s.freeBenches e).bench n b).cut = (s.freeBench e (s.bench n b)).cut := by
  unfold State.freeBenches
  extract_lets keys s1
  have hp := PassStart.foldl s1 keys (f := fun t k => t.tryStart (k / 4) (k % 4)) fun t k => PassStart.tryStart t _ _
  have h1 : s1.bench n b = s.freeBench e (s.bench n b) :=
    Tab.get_map Bench.reset s.benches (fun _ => s.freeBench e) (n * 4 + b) (s.freeBench_reset e)
  rw [hp.holder, h1]

/-- The passes that start on benches given back are those of cuts that run. -/
theorem State.cut_freeBenches {s : State} {k : Nat} (hk : (s.cut k).phase ≠ .running) (e : Nat) :
    (s.freeBenches e).cut k = s.cut k := by
  unfold State.freeBenches
  extract_lets keys s1
  have hp := PassStart.foldl s1 keys (f := fun t k => t.tryStart (k / 4) (k % 4)) fun t k => PassStart.tryStart t _ _
  exact hp.rest k hk

/-- What a cut held before its benches are freed. -/
def State.freeOthers (s : State) (e : Nat) : State :=
  let s1 := ((s.freeHoists e).freeUnits e).dropTiles e
  { s1 with fills := { s1.fills with waiting := s1.fills.waiting.filter (fun x => x.1 != e) } }

theorem State.freeCut_eq (s : State) (e : Nat) : s.freeCut e = (s.freeOthers e).freeBenches e := rfl

theorem State.freeOthers_same (s : State) (e : Nat) :
    Same (partMask [.hoists, .units, .tileSlots, .fills]) s (s.freeOthers e) :=
  Same.set_fills ⟨by decide⟩ (State.dropTiles_same ⟨by decide⟩ (State.freeUnits_same ⟨by decide⟩
    (State.freeHoists_same ⟨by decide⟩ (Same.refl _ s) e) e) e)

theorem State.freeCut_spec {s : State} {e : Nat} (he : (s.cut e).phase ≠ .running) :
    let t := s.freeCut e
    t.cut e = s.cut e ∧ t.tallies = s.tallies ∧ (∀ h, (t.hoist h).cut ≠ some e) ∧
      ∀ n b, (s.bench n b).cut = some e → (s.bench n b).yielded = none → (t.bench n b).cut = none := by
  intro t
  have hcuts : (s.freeOthers e).cuts = s.cuts := (s.freeOthers_same e).part .cuts (by decide)
  have hbenches : (s.freeOthers e).benches = s.benches := (s.freeOthers_same e).part .benches (by decide)
  have hhoists : t.hoists = (s.freeHoists e).hoists :=
    (State.freeBenches_same (Sub.refl _) (Same.refl _ (s.freeOthers e)) e).part .hoists (by decide)
  have hcut : (s.freeOthers e).cut e = s.cut e := by
    rw [State.cut, hcuts]
    rfl
  have hstill : ((s.freeOthers e).cut e).phase ≠ .running := by rwa [hcut]
  have htallies : t.tallies = s.tallies :=
    (State.freeCut_same (Sub.refl _) (Same.refl _ s) e).part .tallies (by decide)
  refine ⟨(State.cut_freeBenches hstill e).trans hcut, htallies, fun h => ?_, fun n b hc hy => ?_⟩
  · rw [State.hoist, hhoists]
    exact s.hoist_freeHoists e h
  · have hb : (s.freeOthers e).bench n b = s.bench n b := by
      rw [State.bench, hbenches]
      rfl
    have ht : t = (s.freeOthers e).freeBenches e := s.freeCut_eq e
    rw [ht, State.bench_freeBenches, hb, State.freeBench_cut hc hy]

/-! ### The end of a cut, before and after what it held is freed -/

/-- A cut that ends up to where what it holds is freed: its record, its tallies, and what its end means for its seam and
its result. -/
def State.concludeCut (s : State) (e code : Nat) : State :=
  let s1 := s.finish e code
  let s2 := if failedCode code then s1 else s1.doneTallies (s.cut e).desc
  let s3 := if needsAttention code then (s2.setEvt evCutAttn).logCut 0x0202 e else s2
  (s3.endSeam e code).endResult e code

/-- A cut that ends from where what it held is free: adoption, stalled cuts and the close of the step. -/
def State.leaveCut (s : State) (e w code : Nat) : State :=
  let s4 := s.endAdoption e
  let s5 := if failedCode code then s4.logStalled e else s4
  State.tryClose { s5 with aruns := Tab.drop s5.aruns e, xruns := Tab.drop s5.xruns e } w

theorem State.endCut_eq (s : State) (e code : Nat) :
    s.endCut e code = ((s.concludeCut e code).freeCut e).leaveCut e (s.cut e).desc.working code := rfl

theorem State.concludeCut_spec {s : State} {e code : Nat} (hf : failedCode code = false) :
    let t := s.concludeCut e code
    t.cut e = { s.cut e with phase := .ended, status := code, endNc := s.nc } ∧ t.benches = s.benches ∧
      t.tallies = (s.doneTallies (s.cut e).desc).tallies := by
  have hsame : Same (partMask [.glb, .log, .yard, .seams, .slots, .results])
      ((s.finish e code).doneTallies (s.cut e).desc) (s.concludeCut e code) := by
    unfold State.concludeCut
    rw [hf]
    refine State.endResult_same ⟨by decide⟩ (State.endSeam_same ⟨by decide⟩ (Same.ite ?_ (Same.refl _ _)) _ _) _ _
    exact State.logCut_same ⟨by decide⟩ (State.setEvt_same ⟨by decide⟩ (Same.refl _ _) _) _ _
  have hfinish : Same (partMask [.fabric, .cuts]) s (s.finish e code) :=
    State.finish_same ⟨by decide⟩ (Same.refl _ s) e code
  have hdone := State.doneTallies_same (Sub.refl _) (Same.refl _ (s.finish e code)) (s.cut e).desc
  have hcuts : (s.concludeCut e code).cuts = (s.finish e code).cuts :=
    (hsame.part .cuts (by decide)).trans (hdone.part .cuts (by decide))
  refine ⟨?_, ?_, ?_⟩
  · rw [← State.cut_finish, State.cut, hcuts]
    rfl
  · exact (hsame.part .benches (by decide)).trans
      ((hdone.part .benches (by decide)).trans (hfinish.part .benches (by decide)))
  · exact (hsame.part .tallies (by decide)).trans (State.doneTallies_congr (hfinish.part .tallies (by decide)) _)

theorem State.leaveCut_same (s : State) (e w code : Nat) :
    Same (partMask [.faces, .fills, .log, .aruns, .xruns, .glb, .working, .health, .snap]) s (s.leaveCut e w code) := by
  have h4 : Same (partMask [.faces, .fills, .log, .aruns, .xruns, .glb, .working, .health, .snap]) s (s.endAdoption e) :=
    State.endAdoption_same ⟨by decide⟩ (Same.refl _ s) e
  exact State.tryClose_same ⟨by decide⟩ (Same.set_xruns_aruns ⟨by decide⟩
    (Same.ite (State.logStalled_same ⟨by decide⟩ h4 e) h4)) w

/-- A cut that ends with a status that does not fail. -/
theorem State.endCut_spec {s : State} {e code : Nat} (hf : failedCode code = false) :
    let t := s.endCut e code
    t.cut e = { s.cut e with phase := .ended, status := code, endNc := s.nc } ∧
      t.tallies = (s.doneTallies (s.cut e).desc).tallies ∧ (∀ h, (t.hoist h).cut ≠ some e) ∧
      ∀ n b, (s.bench n b).cut = some e → (s.bench n b).yielded = none → (t.bench n b).cut = none := by
  obtain ⟨hcut, hbenches, htallies⟩ := State.concludeCut_spec (s := s) (e := e) hf
  obtain ⟨fcut, ftallies, fhoist, fbench⟩ := State.freeCut_spec (s := s.concludeCut e code) (e := e) (by
    rw [hcut]
    exact CutPhase.noConfusion)
  have hleave := ((s.concludeCut e code).freeCut e).leaveCut_same e (s.cut e).desc.working code
  rw [← State.endCut_eq] at hleave
  have lcuts : (s.endCut e code).cuts = _ := hleave.part .cuts (by decide)
  have lhoists : (s.endCut e code).hoists = _ := hleave.part .hoists (by decide)
  have lbenches : (s.endCut e code).benches = _ := hleave.part .benches (by decide)
  have hb : ∀ n b, (s.concludeCut e code).bench n b = s.bench n b := fun n b => by
    rw [State.bench, hbenches]
    rfl
  refine ⟨?_, ?_, fun h => ?_, fun n b hc hy => ?_⟩
  · rw [State.cut, lcuts]
    exact fcut.trans hcut
  · exact (hleave.part .tallies (by decide)).trans (ftallies.trans htallies)
  · rw [State.hoist, lhoists]
    exact fhoist h
  · rw [State.bench, lbenches]
    exact fbench n b (by rwa [hb]) (by rwa [hb])

/-! ### CUT_END -/

theorem State.publish_eq (s : State) (e : Nat) : s.publish e = { s with
    cuts := (s.publish e).cuts, tallies := (s.publish e).tallies, glb := (s.publish e).glb, log := (s.publish e).log } :=
  State.eq_of_parts fun p => by
    have hp := (State.publish_same (Sub.refl _) (Same.refl _ s) e).part p
    cases p <;> first
      | exact hp (by decide)
      | rfl

theorem State.cutEnd_done {s : State} {e : Nat} (h : (s.publish e).cutDone e = true) : s.cutEnd e =
    ((s.publish e).endStreams e).endCut e (finalStatus ((s.publish e).cut e).flags.toNat) := by
  unfold State.cutEnd
  dsimp only
  rw [if_pos h]

theorem State.cutEnd_open {s : State} {e : Nat} (h : (s.publish e).cutDone e = false) : s.cutEnd e = s.publish e := by
  unfold State.cutEnd
  dsimp only
  rw [if_neg (by rw [h]; exact Bool.noConfusion)]

theorem cutEnd_leads {s : State} {e : Fin 4096} (hs : s.supply = .good) (h : (s.publish e.val).cutDone e.val = true) :
    let u := s.publish e.val
    Leads (.cutEnd e) s (fun t =>
      (t.cut e.val).phase = .ended ∧ (t.cut e.val).status = finalStatus (u.cut e.val).flags.toNat ∧
      (t.cut e.val).endNc = s.nc ∧ (t.cut e.val).flags = (u.cut e.val).flags ∧
      t.tallies = ((u.endStreams e.val).doneTallies (u.cut e.val).desc).tallies ∧
      (∀ n b, (u.bench n b).cut = some e.val → (u.bench n b).yielded = none → (t.bench n b).cut = none) ∧
      ∀ h, (t.hoist h).cut ≠ some e.val) := by
  intro u
  refine Leads.effect hs (exec_cutEnd ..) (State.cutEnd_done h) ?_
  have hsame := State.endStreams_same (Sub.refl _) (Same.refl _ u) e.val
  have hcuts : (u.endStreams e.val).cuts = u.cuts := hsame.part .cuts (by decide)
  have hbenches : (u.endStreams e.val).benches = u.benches := hsame.part .benches (by decide)
  have hnc : (u.endStreams e.val).nc = s.nc :=
    (hsame.part .nc (by decide)).trans ((State.publish_same (Sub.refl _) (Same.refl _ s) e.val).part .nc (by decide))
  have hcut : (u.endStreams e.val).cut e.val = u.cut e.val := by
    rw [State.cut, hcuts]
    rfl
  have hb : ∀ n b, (u.endStreams e.val).bench n b = u.bench n b := fun n b => by
    rw [State.bench, hbenches]
    rfl
  obtain ⟨ecut, etallies, ehoist, ebench⟩ := State.endCut_spec (s := u.endStreams e.val) (e := e.val)
    (failedCode_finalStatus (u.cut e.val).flags.toNat)
  rw [hcut, hnc] at ecut
  rw [hcut] at etallies
  rw [ecut]
  exact ⟨rfl, rfl, rfl, rfl, etallies, fun n b hc hy => ebench n b (by rwa [hb]) (by rwa [hb]), ehoist⟩

/-! ### O29: the run of cuts -/

/-- Settles O29: a start comes to the claim of the entry, to a refusal or to a wait, and an end to the freed cut. -/
theorem cutsRun : Obligations.CutsRun := by
  unfold Obligations.CutsRun
  refine ⟨fun s i e r hs hi => ⟨fun hst ht ho hp hf => ⟨?u, ?d, ?refused⟩, ?waits, ?idle⟩,
    fun s e hs => ⟨cutEnd_leads hs, ?opened⟩⟩
  case u =>
    rintro hn ⟨a, ha⟩ hd
    refine Leads.effect hs (exec_cutStart ..)
      ((State.cutStart_starts hi hst ht ho hp hf hn).trans (State.start_u ha hd r)) ?_
    obtain ⟨hphase, -, hnc, hruns, -, hmaps, hitems⟩ := s.cut_claimAll i e.val r
    refine ⟨s.claimAll_eq i e.val r, hphase, hnc, hruns, hmaps, ?_, fun k hk => s.cut_claimAll_other i r hk,
      fun h hh => s.hoist_claimAll i e.val r hh⟩
    rw [hitems, i.countedDesc_u ha]
    simp only [State.itemsOf, ha]
  case d =>
    rintro hn ⟨a, ha⟩ hk hb hnf
    exact Leads.effect hs (exec_cutStart ..) (State.cutStart_starts hi hst ht ho hp hf hn) (State.start_d ha hk hb hnf r)
  case refused =>
    intro x hx
    exact Leads.effect hs (exec_cutStart ..) (State.cutStart_refuses hi hst ht ho hp hf hx) (s.refuse_spec e.val x)
  case waits =>
    intro hw h6 h2 hm
    refine Leads.effect hs (exec_cutStart ..)
      ((State.cutStart_awaits hi hw).trans (State.awaitStart_wakes h6 h2 hm)) ⟨s.wakeAll_eq _, fun k hk => ?_⟩
    rw [State.clk_wakeAll, if_pos hk]
    exact ⟨fun h => by rw [h]; rfl, fun h => by rw [h]; rfl⟩
  case idle =>
    intro hm
    exact Ignored.effect hs (exec_cutStart ..)
      ((State.cutStart_awaits hi (.inl (State.startable_of_mayStart hm))).trans (State.awaitStart_idle hm))
  case opened =>
    intro h
    exact Leads.effect hs (exec_cutEnd ..) (State.cutEnd_open h) ⟨rfl, s.publish_eq e.val⟩

end Sys2Proof.Machine
end

section
/-! Bytes in memory: little-endian numbers (R4), bytes that are read back, and headers of fold tiles (R57). -/

namespace Sys2Proof

/-! ### Little-endian numbers -/

@[simp] theorem natLe_length (n k : Nat) : (natLe n k).length = k := by
  induction k generalizing n with
  | zero => rfl
  | succ k ih => simp [natLe, ih]

theorem leNat_natLe (n k : Nat) : leNat (natLe n k) = n % 256 ^ k := by
  induction k generalizing n with
  | zero => simp [natLe, leNat, Nat.mod_one]
  | succ k ih =>
    have h256 : 2 ^ 8 = 256 := by decide
    rw [natLe, leNat, ih, BitVec.toNat_ofNat, h256, Nat.pow_succ', Nat.mod_mul]

theorem natLe_take (n : Nat) {j k : Nat} (h : j ≤ k) : (natLe n k).take j = natLe n j := by
  induction j generalizing n k with
  | zero => simp [natLe]
  | succ j ih =>
    obtain ⟨k, rfl⟩ : ∃ i, k = i + 1 := ⟨k - 1, by omega⟩
    simp [natLe, ih (n / 256) (Nat.le_of_succ_le_succ h)]

/-! ### Bytes that are read back -/

@[simp] theorem Mem.readBytes_length (m : Mem) (a n : Nat) : (Mem.readBytes m a n).length = n := by
  induction n generalizing a with
  | zero => rfl
  | succ n ih => simp [Mem.readBytes, ih]

theorem Mem.readBytes_congr {m m' : Mem} {a n : Nat} (h : ∀ i, a ≤ i → i < a + n → Mem.read m' i = Mem.read m i) :
    Mem.readBytes m' a n = Mem.readBytes m a n := by
  induction n generalizing a with
  | zero => rfl
  | succ n ih =>
    rw [Mem.readBytes, Mem.readBytes, h a (by omega) (by omega), ih fun i _ _ => h i (by omega) (by omega)]

/-- A string of bytes that has been written is read back, from any of its bytes on. -/
theorem Mem.readBytes_writeBytes {m : Mem} (hm : Mem.wf m = true) (a : Nat) {bs : List Byte} {o n : Nat}
    (h : o + n ≤ bs.length) : Mem.readBytes (Mem.writeBytes m a bs) (a + o) n = (bs.drop o).take n := by
  induction bs generalizing m a o n with
  | nil =>
    obtain ⟨rfl, rfl⟩ : o = 0 ∧ n = 0 := by simpa using h
    rfl
  | cons b bs ih =>
    have hw := Mem.write_wf m a b hm
    simp only [List.length_cons] at h
    cases o with
    | succ o =>
      have ha : a + (o + 1) = a + 1 + o := by omega
      rw [Mem.writeBytes, ha, ih hw (a + 1) (by omega), List.drop_succ_cons]
    | zero =>
      cases n with
      | zero => simp [Mem.readBytes]
      | succ n =>
        have hrest := ih hw (a + 1) (o := 0) (n := n) (by omega)
        rw [Nat.add_zero, List.drop_zero] at hrest
        rw [Nat.add_zero, Mem.readBytes, Mem.writeBytes, hrest, Mem.read_writeBytes_other _ _ _ _ (.inl (by omega)),
          Mem.read_write_same m a b hm, List.drop_zero, List.take_succ_cons]

namespace Machine

/-! ### Headers (R57) -/

theorem Hdr.bytes_length (h : Hdr) : h.bytes.length = 8 := by
  simp [Hdr.bytes]

/-- A header lies in 8 bytes. -/
theorem readHdr_congr {m m' : Mem} {a : Nat} (h : ∀ i, a ≤ i → i < a + 8 → Mem.read m' i = Mem.read m i) :
    readHdr m' a = readHdr m a := by
  have hfolds : Mem.readBytes m' a 4 = Mem.readBytes m a 4 := Mem.readBytes_congr fun i _ _ => h i (by omega) (by omega)
  have hslot : Mem.readBytes m' (a + 5) 2 = Mem.readBytes m (a + 5) 2 :=
    Mem.readBytes_congr fun i _ _ => h i (by omega) (by omega)
  simp only [readHdr, hfolds, hslot, h (a + 4) (by omega) (by omega)]

/-- Bytes written beside a header leave it. -/
theorem readHdr_writeBytes_other (m : Mem) {a b : Nat} {bs : List Byte} (h : a + 8 ≤ b ∨ b + bs.length ≤ a) :
    readHdr (Mem.writeBytes m b bs) a = readHdr m a :=
  readHdr_congr fun i _ _ => Mem.read_writeBytes_other bs m b i (by omega)

/-- The six flags of a header lie in one byte. -/
theorem flagByte_bits : ∀ f l x s n e : Bool,
    let v := (BitVec.ofNat 8 (b2n f + 2 * b2n l + 4 * b2n x + 8 * b2n s + 16 * b2n n + 32 * b2n e)).toNat
    bit v 0 = f ∧ bit v 1 = l ∧ bit v 2 = x ∧ bit v 3 = s ∧ bit v 4 = n ∧ bit v 5 = e := by
  decide

/-- A header that has been written is read back, FOLDS and SLOT as far as their fields hold them. -/
theorem readHdr_writeHdr {m : Mem} (hm : Mem.wf m = true) (a : Nat) (h : Hdr) :
    readHdr (Mem.writeBytes m a h.bytes) a = { h with folds := h.folds % 2 ^ 32, slot := h.slot % 2 ^ 16 } := by
  have hread : ∀ o n, o + n ≤ 8 →
      Mem.readBytes (Mem.writeBytes m a h.bytes) (a + o) n = (h.bytes.drop o).take n := fun o n hn =>
    Mem.readBytes_writeBytes hm a (by rw [h.bytes_length]; exact hn)
  have hfolds : leNat (Mem.readBytes (Mem.writeBytes m a h.bytes) a 4) = h.folds % 2 ^ 32 :=
    (congrArg leNat (hread 0 4 (by decide))).trans (leNat_natLe h.folds 4)
  have hslot : leNat (Mem.readBytes (Mem.writeBytes m a h.bytes) (a + 5) 2) = h.slot % 2 ^ 16 :=
    (congrArg leNat (hread 5 2 (by decide))).trans (leNat_natLe h.slot 2)
  have hflags : Mem.read (Mem.writeBytes m a h.bytes) (a + 4) = BitVec.ofNat 8 (b2n h.e128 + 2 * b2n h.longsum +
      4 * b2n h.exlost + 8 * b2n h.span + 16 * b2n h.nan + 32 * b2n h.econ) :=
    (List.cons.inj (hread 4 1 (by decide))).1
  obtain ⟨b0, b1, b2, b3, b4, b5⟩ := flagByte_bits h.e128 h.longsum h.exlost h.span h.nan h.econ
  simp only [readHdr, hfolds, hslot, hflags, b0, b1, b2, b3, b4, b5]

theorem readHdr_folds_lt (m : Mem) (a : Nat) : (readHdr m a).folds < 2 ^ 32 := by
  have h := leNat_lt (Mem.readBytes m a 4)
  rwa [Mem.readBytes_length] at h

theorem readHdr_slot_lt (m : Mem) (a : Nat) : (readHdr m a).slot < 2 ^ 16 := by
  have h := leNat_lt (Mem.readBytes m (a + 5) 2)
  rwa [Mem.readBytes_length] at h

end Machine
end Sys2Proof
end

section
/-! The width of the codes that a fold writes (R33, R35, R59, R63). -/

namespace Sys2Proof.Machine

/-- Rounding to the nearest integer does not pass an integer that the quotient does not pass. -/
theorem rneDiv_le {n : Int} {d : Nat} {k : Int} (hd : 0 < d) (h : n ≤ k * d) : rneDiv n d ≤ k := by
  have hd' : (0 : Int) < d := by exact_mod_cast hd
  have hdiv : n / (d : Int) * d + n % d = n := Int.ediv_mul_add_emod n d
  have hq : n / (d : Int) ≤ k := Int.ediv_le_of_le_mul hd' h
  have hr := Int.emod_nonneg n (Int.ne_of_gt hd')
  unfold rneDiv
  dsimp only
  by_cases he : n / (d : Int) = k
  · have hsmall : 2 * (n - n / (d : Int) * d) < d := by
      rw [he] at hdiv ⊢
      omega
    rw [if_pos hsmall]
    exact hq
  · have hlt : n / (d : Int) + 1 ≤ k := by omega
    split
    · exact hq
    · split
      · exact hlt
      · split <;> omega

/-- A value's significand at 29 bits below its top bit has at most 30 bits, or is 2³⁰ (R38). -/
theorem rneAt_topBit_le (m : Nat) (e : Int) : rneAt m e ((Nat.log2 m : Int) + e - 29) ≤ 2 ^ 30 := by
  have hm : m < 2 ^ (Nat.log2 m + 1) := Nat.lt_log2_self
  unfold rneAt pow2
  split
  · next h =>
    obtain ⟨j, hj⟩ : ∃ j, j + Nat.log2 m = 29 := ⟨29 - Nat.log2 m, by omega⟩
    have hexp : (e - ((Nat.log2 m : Int) + e - 29)).toNat = j := by omega
    have hpow : 2 ^ (Nat.log2 m + 1) * 2 ^ j = 2 ^ 30 := by
      rw [← Nat.pow_add]
      exact congrArg _ (by omega)
    rw [hexp]
    exact_mod_cast Nat.le_trans (Nat.mul_le_mul_right _ (Nat.le_of_lt hm)) (Nat.le_of_eq hpow)
  · next h =>
    obtain ⟨j, hj⟩ : ∃ j, Nat.log2 m = j + 29 := ⟨Nat.log2 m - 29, by omega⟩
    have hexp : ((Nat.log2 m : Int) + e - 29 - e).toNat = j := by omega
    have hpow : 2 ^ (Nat.log2 m + 1) = 2 ^ 30 * 2 ^ j := by
      rw [← Nat.pow_add]
      exact congrArg _ (by omega)
    rw [hexp]
    refine rneDiv_le (Nat.two_pow_pos j) ?_
    exact_mod_cast Nat.le_trans (Nat.le_of_lt hm) (Nat.le_of_eq hpow)

/-- A G40 code has 40 bits (R33). -/
theorem toG40_code_lt (v : Val) : (toG40 v).code < 2 ^ 40 := by
  unfold toG40
  split
  · decide
  · next m e =>
    split
    · exact Nat.two_pow_pos 40
    · extract_lets q r q' r' sign
      have hsign : sign ≤ 2 ^ 39 := by
        dsimp only [sign]
        split <;> omega
      have hr : r ≤ 2 ^ 30 := by
        have h := rneAt_topBit_le m.natAbs e
        dsimp only [r, q, topBit]
        omega
      have hr' : r' < 2 ^ 30 := by
        dsimp only [r']
        split <;> omega
      clear_value sign r' q'
      split
      · exact Nat.two_pow_pos 40
      · split
        · show sign + 0x7FDFFFFFFF < 2 ^ 40
          omega
        · have hq : (q' + 540).toNat ≤ 1022 := by omega
          show sign + (q' + 540).toNat * 2 ^ 29 + (r' - 2 ^ 29) < 2 ^ 40
          omega

theorem unsigned_lt (i : Int) (w : Nat) : unsigned i w < 2 ^ w := by
  have hpos : (0 : Int) < 2 ^ w := Int.pow_pos (by decide)
  have hlt : i % 2 ^ w < ((2 ^ w : Nat) : Int) := by exact_mod_cast Int.emod_lt_of_pos i hpos
  exact (Int.toNat_lt (Int.emod_nonneg i (Int.ne_of_gt hpos))).mpr hlt

theorem e128Code_lt (s a : Int) : e128Code s a < 2 ^ 128 := by
  have hs := unsigned_lt s 112
  have ha := unsigned_lt a 16
  unfold e128Code
  omega

/-- An E128 element has 128 bits (R35). -/
theorem toE128_code_lt (v : Val) : (toE128 v).1 < 2 ^ 128 := by
  unfold toE128
  split
  · decide
  · split
    · exact Nat.two_pow_pos 128
    · dsimp only
      split
      · exact e128Code_lt _ _
      · exact e128Code_lt _ _

/-- A folded element fits the bytes that hold its code: 16 in E128, 5 in G40 (R34, R35). -/
theorem foldElem_lt (e128 : Bool) (x : Nat) (v : Val) :
    (foldElem e128 x v).1 < 256 ^ (if e128 then 16 else 5) := by
  cases e128 with
  | true => exact toE128_code_lt _
  | false => exact toG40_code_lt _

end Sys2Proof.Machine
end

section
/-! What the fold of a tile does to the yard (R57 to R61, R79). -/

namespace Sys2Proof.Machine

/-! ### The yard stays in canonical form -/

theorem YardCanonical.putYard {s : State} (h : YardCanonical s) (a : Nat) (bs : List Byte) :
    YardCanonical (s.putYard a bs) :=
  Mem.writeBytes_wf bs _ a h

theorem YardCanonical.foldlFst {α β : Type} {f : State × β → α → State × β} {a : State × β} (xs : List α)
    (h : YardCanonical a.1) (step : ∀ b x, YardCanonical b.1 → YardCanonical (f b x).1) :
    YardCanonical (xs.foldl f a).1 :=
  List.foldlRecOn (motive := fun b : State × β => YardCanonical b.1) xs f h fun b hb x _ => step b x hb

theorem YardCanonical.promotionRule {s : State} (hs : YardCanonical s) (t : TileRef) (h : Hdr) (allowed : Bool) :
    YardCanonical (s.promotionRule t h allowed).1 := by
  unfold State.promotionRule
  split
  · exact List.foldlRecOn (motive := YardCanonical) t.positions _ hs fun _ hu _ _ => hu.putYard _ _
  · exact hs

theorem YardCanonical.zeroRest {s : State} (hs : YardCanonical s) (t : TileRef) (h : Hdr) :
    YardCanonical (s.zeroRest t h) := by
  unfold State.zeroRest
  split
  · exact List.foldlRecOn (motive := YardCanonical) t.positions _ hs fun _ hu _ _ => Mem.clear_wf _ _ _ hu
  · exact hs

theorem YardCanonical.foldInto {s : State} (hs : YardCanonical s) (t : TileRef) (h : Hdr)
    (ps : List ((Nat × Nat) × Val)) : YardCanonical (s.foldInto t h ps).1 := by
  refine YardCanonical.foldlFst ps hs fun b x hb => ?_
  dsimp only
  split
  · exact hb.putYard _ _
  · exact hb

/-! ### The tile that a fold meets, and what it leaves of it -/

/-- A tile's header as a fold takes it: before the first fold one that is reset, in the format of the pass (R70). -/
def Hdr.taken (h : Hdr) (first : Bool) : Hdr := if h.folds = 0 then { Hdr.reset with e128 := first } else h

/-- The state and the header after the promotion rule, and whether a slot was taken (R61). -/
def State.promoted (s : State) (t : TileRef) (first promoteOn : Bool) : State × Hdr × Bool :=
  let h := (readHdr s.yard.mem t.hdr).taken first
  if !h.e128 && !h.longsum && decide (65536 < h.folds + 1) then s.promotionRule t h promoteOn else (s, h, false)

/-- A tile's header with one more contribution counted, of the pass that `fl` describes (R57). -/
def Hdr.counted (h : Hdr) (lost : Bool) (fl : FoldFlags) : Hdr :=
  { h with folds := foldsAdd h 1, exlost := h.exlost || lost, span := h.span || fl.span,
           nan := h.nan || fl.nan, econ := h.econ || fl.econ }

/-- The state in which a fold has written its elements, and whether one lost a bit (R63). -/
def State.elemsFolded (s : State) (t : TileRef) (first promoteOn : Bool) (ps : List ((Nat × Nat) × Val)) :
    State × Bool :=
  let r := s.promoted t first promoteOn
  (r.1.zeroRest t r.2.1).foldInto t r.2.1 ps

/-- A fold writes its elements and then the header. -/
theorem State.foldTile_mem (s : State) (e : Nat) (t : TileRef) (first promoteOn : Bool)
    (ps : List ((Nat × Nat) × Val)) (fl : FoldFlags) :
    let u := s.elemsFolded t first promoteOn ps
    (s.foldTile e t first promoteOn ps fl).yard.mem =
      Mem.writeBytes u.1.yard.mem t.hdr ((s.promoted t first promoteOn).2.1.counted u.2 fl).bytes := rfl

theorem YardCanonical.promoted {s : State} (hs : YardCanonical s) (t : TileRef) (first promoteOn : Bool) :
    YardCanonical (s.promoted t first promoteOn).1 := by
  unfold State.promoted
  dsimp only
  split
  · exact hs.promotionRule _ _ _
  · exact hs

theorem YardCanonical.elemsFolded {s : State} (hs : YardCanonical s) (t : TileRef) (first promoteOn : Bool)
    (ps : List ((Nat × Nat) × Val)) : YardCanonical (s.elemsFolded t first promoteOn ps).1 :=
  ((hs.promoted t first promoteOn).zeroRest _ _).foldInto _ _ _

theorem Hdr.taken_folds (h : Hdr) (first : Bool) : (h.taken first).folds = h.folds := by
  unfold Hdr.taken
  split
  · next h0 => exact h0.symm
  · rfl

theorem Hdr.taken_folded {h : Hdr} (h0 : 0 < h.folds) (first : Bool) : h.taken first = h :=
  if_neg (Nat.pos_iff_ne_zero.mp h0)

theorem State.promotionRule_folds (s : State) (t : TileRef) (h : Hdr) (allowed : Bool) :
    (s.promotionRule t h allowed).2.1.folds = h.folds := by
  unfold State.promotionRule
  split <;> rfl

/-- The promotion rule leaves the count of contributions. -/
theorem State.promoted_folds (s : State) (t : TileRef) (first promoteOn : Bool) :
    (s.promoted t first promoteOn).2.1.folds = (readHdr s.yard.mem t.hdr).folds := by
  unfold State.promoted
  dsimp only
  split
  · rw [State.promotionRule_folds, Hdr.taken_folds]
  · exact Hdr.taken_folds _ _

/-- A tile that has been folded into, and that has room in its format, is not promoted (R61). -/
theorem State.promoted_idle {s : State} {t : TileRef} {h : Hdr} (hh : readHdr s.yard.mem t.hdr = h) (h0 : 0 < h.folds)
    (hroom : h.folds < 65536 ∨ h.e128 = true ∨ h.longsum = true) (first promoteOn : Bool) :
    s.promoted t first promoteOn = (s, h, false) := by
  have hno : (!h.e128 && !h.longsum && decide (65536 < h.folds + 1)) = false := by
    rcases hroom with hf | he | hl
    · have hle : ¬ 65536 < h.folds + 1 := by omega
      simp [hle]
    · simp [he]
    · simp [hl]
  unfold State.promoted
  rw [hh, Hdr.taken_folded h0]
  simp only [hno]
  rfl

/-- A fold counts one contribution in the tile's header (R57). -/
theorem State.foldTile_folds {s : State} (hs : YardCanonical s) (e : Nat) (t : TileRef) (first promoteOn : Bool)
    (ps : List ((Nat × Nat) × Val)) (fl : FoldFlags) :
    (readHdr (s.foldTile e t first promoteOn ps fl).yard.mem t.hdr).folds =
      min ((readHdr s.yard.mem t.hdr).folds + 1) (2 ^ 32 - 1) := by
  have hmin : min ((readHdr s.yard.mem t.hdr).folds + 1) (2 ^ 32 - 1) < 2 ^ 32 := by omega
  rw [State.foldTile_mem, readHdr_writeHdr (hs.elemsFolded t first promoteOn ps)]
  dsimp only [Hdr.counted, foldsAdd, satAdd]
  rw [State.promoted_folds, Nat.mod_eq_of_lt hmin]

/-! ### The fold of one element -/

/-- The state in which one contribution has been folded into a tile: the element alone is written. -/
theorem State.elemsFolded_single {s : State} {t : TileRef} {h : Hdr} (hh : readHdr s.yard.mem t.hdr = h)
    (h0 : 0 < h.folds) (hroom : h.folds < 65536 ∨ h.e128 = true ∨ h.longsum = true) (first promoteOn : Bool)
    {j l : Nat} (hj : j < t.rows) (hl : l < t.cols) (v : Val) :
    let r := foldElem h.e128 (s.elemCode t h j l) v
    s.elemsFolded t first promoteOn [((j, l), v)] =
      (s.putYard (s.elemAt t h j l) (natLe r.1 (elemSize h.e128)), r.2) := by
  have hz : s.zeroRest t h = s := if_neg (Nat.pos_iff_ne_zero.mp h0)
  have hin : j < t.rows ∧ l < t.cols := ⟨hj, hl⟩
  simp only [State.elemsFolded, State.promoted_idle hh h0 hroom, hz, State.foldInto, List.foldl_cons, List.foldl_nil,
    if_pos hin, Bool.false_or]

/-- The memory after the fold of one contribution: the element, then the header (R59). -/
theorem State.foldTile_mem_single {s : State} {t : TileRef} {h : Hdr} (hh : readHdr s.yard.mem t.hdr = h)
    (h0 : 0 < h.folds) (hroom : h.folds < 65536 ∨ h.e128 = true ∨ h.longsum = true) (e : Nat) (first promoteOn : Bool)
    {j l : Nat} (hj : j < t.rows) (hl : l < t.cols) (v : Val) (fl : FoldFlags) :
    let r := foldElem h.e128 (s.elemCode t h j l) v
    (s.foldTile e t first promoteOn [((j, l), v)] fl).yard.mem =
      Mem.writeBytes (Mem.writeBytes s.yard.mem (s.elemAt t h j l) (natLe r.1 (elemSize h.e128))) t.hdr
        (h.counted r.2 fl).bytes := by
  rw [State.foldTile_mem, State.elemsFolded_single hh h0 hroom first promoteOn hj hl v,
    State.promoted_idle hh h0 hroom]
  rfl

/-- An element of a tile that has no promotion slot lies in its region, wherever its state is. -/
theorem State.elemAt_region (s : State) (t : TileRef) {h : Hdr} (hslot : h.slot = 0xFFFF) (j l : Nat) :
    s.elemAt t h j l = t.base + (j * t.pitch + l) * elemSize h.e128 := by
  simp [State.elemAt, hslot]

/-- The code of an element reads its bytes in the yard. -/
theorem State.elemCode_folded (s : State) (t : TileRef) {h : Hdr} (h0 : 0 < h.folds) (j l : Nat) :
    s.elemCode t h j l = leNat (Mem.readBytes s.yard.mem (s.elemAt t h j l) (if h.e128 then 16 else 5)) :=
  if_neg (Nat.pos_iff_ne_zero.mp h0)

theorem codeBytes_le (e128 : Bool) : (if e128 then 16 else 5) ≤ elemSize e128 := by
  cases e128 <;> decide

/-- An element that has been written reads as its code, where the code fits the bytes that hold it (R34, R35). -/
theorem leNat_readBytes_elem {m : Mem} (hm : Mem.wf m = true) (a : Nat) {e128 : Bool} {x : Nat}
    (hx : x < 256 ^ (if e128 then 16 else 5)) :
    leNat (Mem.readBytes (Mem.writeBytes m a (natLe x (elemSize e128))) a (if e128 then 16 else 5)) = x := by
  have hread := Mem.readBytes_writeBytes hm a (bs := natLe x (elemSize e128)) (o := 0)
    (n := if e128 then 16 else 5) (by simpa using codeBytes_le e128)
  rw [Nat.add_zero, List.drop_zero, natLe_take x (codeBytes_le e128)] at hread
  rw [hread, leNat_natLe, Nat.mod_eq_of_lt hx]

section
variable {s : State} {t : TileRef} {h : Hdr} (hh : readHdr s.yard.mem t.hdr = h) (h0 : 0 < h.folds)
  (hroom : h.folds < 65536 ∨ h.e128 = true ∨ h.longsum = true)
include hh h0 hroom

/-- A fold of one contribution leaves every byte but the element's and the header's (R79). -/
theorem State.foldTile_frame (e : Nat) (first promoteOn : Bool) {j l : Nat} (hj : j < t.rows) (hl : l < t.cols)
    (v : Val) (fl : FoldFlags) {a : Nat} (helem : a < s.elemAt t h j l ∨ s.elemAt t h j l + elemSize h.e128 ≤ a)
    (hhdr : a < t.hdr ∨ t.hdr + 8 ≤ a) :
    Mem.read (s.foldTile e t first promoteOn [((j, l), v)] fl).yard.mem a = Mem.read s.yard.mem a := by
  rw [State.foldTile_mem_single hh h0 hroom e first promoteOn hj hl,
    Mem.read_writeBytes_other _ _ _ _ (by rwa [Hdr.bytes_length]),
    Mem.read_writeBytes_other _ _ _ _ (by rwa [natLe_length])]

/-- A fold into a tile that is not promoted leaves its format and its slot. -/
theorem State.foldTile_format (hs : YardCanonical s) (e : Nat) (first promoteOn : Bool)
    (ps : List ((Nat × Nat) × Val)) (fl : FoldFlags) :
    let h' := readHdr (s.foldTile e t first promoteOn ps fl).yard.mem t.hdr
    h'.e128 = h.e128 ∧ h'.slot = h.slot := by
  have hslot : h.slot < 2 ^ 16 := hh ▸ readHdr_slot_lt s.yard.mem t.hdr
  rw [State.foldTile_mem, readHdr_writeHdr (hs.elemsFolded t first promoteOn ps), State.promoted_idle hh h0 hroom]
  exact ⟨rfl, Nat.mod_eq_of_lt hslot⟩

/-- The element that a fold of one contribution names takes the sum (R59). -/
theorem State.foldTile_elem (hs : YardCanonical s) (hslot : h.slot = 0xFFFF) (e : Nat) (first promoteOn : Bool)
    {j l : Nat} (hj : j < t.rows) (hl : l < t.cols) (v : Val) (fl : FoldFlags)
    (hoff : t.hdr + 8 ≤ s.elemAt t h j l ∨ s.elemAt t h j l + elemSize h.e128 ≤ t.hdr) :
    let u := s.foldTile e t first promoteOn [((j, l), v)] fl
    u.elemCode t (readHdr u.yard.mem t.hdr) j l = (foldElem h.e128 (s.elemCode t h j l) v).1 := by
  intro u
  obtain ⟨he, hslot'⟩ := State.foldTile_format hh h0 hroom hs e first promoteOn [((j, l), v)] fl
  have hfolds : 0 < (readHdr u.yard.mem t.hdr).folds := by
    rw [State.foldTile_folds hs]
    omega
  have hat : u.elemAt t (readHdr u.yard.mem t.hdr) j l = s.elemAt t h j l := by
    rw [u.elemAt_region t (hslot'.trans hslot), s.elemAt_region t hslot, he]
  have hcode := foldElem_lt h.e128 (s.elemCode t h j l) v
  have hsize := codeBytes_le h.e128
  rw [u.elemCode_folded t hfolds, hat, he, State.foldTile_mem_single hh h0 hroom e first promoteOn hj hl,
    Mem.readBytes_congr fun i _ _ => ?_, leNat_readBytes_elem hs _ hcode]
  rw [Mem.read_writeBytes_other]
  rw [Hdr.bytes_length]
  omega

end

end Sys2Proof.Machine
end

section
/-! What the operations around a fold leave of a cut's counts and of the benches (R79, R190, R193). -/

namespace Sys2Proof.Machine

/-! ### The counts of cuts -/

/-- A cut's record keeps its passes and its tree combinations, and no flag that is set is cleared (R193). -/
def CutRun.SameCounts (c c' : CutRun) : Prop :=
  c'.passes = c.passes ∧ c'.trees = c.trees ∧ ∀ m, c.flags &&& m = m → c'.flags &&& m = m

/-- Every cut keeps its counts and its flags. -/
def CountsKept (s t : State) : Prop := ∀ k, (s.cut k).SameCounts (t.cut k)

theorem CutRun.SameCounts.refl (c : CutRun) : c.SameCounts c := ⟨rfl, rfl, fun _ h => h⟩

theorem CountsKept.of_cuts {s t : State} (h : t.cuts = s.cuts) : CountsKept s t := fun k => by
  rw [State.cut, State.cut, h]
  exact CutRun.SameCounts.refl _

theorem CountsKept.refl (s : State) : CountsKept s s := CountsKept.of_cuts rfl

theorem CountsKept.trans {s a t : State} (h : CountsKept s a) (k : CountsKept a t) : CountsKept s t := fun i => by
  obtain ⟨hpasses, htrees, hflags⟩ := h i
  obtain ⟨kpasses, ktrees, kflags⟩ := k i
  exact ⟨kpasses.trans hpasses, ktrees.trans htrees, fun m hm => kflags m (hflags m hm)⟩

theorem CountsKept.modCut (s : State) (e : Nat) {f : CutRun → CutRun} (hf : ∀ c : CutRun, c.SameCounts (f c)) :
    CountsKept s (s.modCut e f) := fun k => by
  by_cases h : k = e
  · rw [h, State.cut_modCut]
    exact hf _
  · rw [State.cut_modCut_other s e k f h]
    exact CutRun.SameCounts.refl _

/-- Bits that are set stay set where others are set beside them. -/
theorem word_or_and_of_set {f m : Word} (h : f &&& m = m) (x : Word) : (f ||| x) &&& m = m := by
  ext i hi
  have hbit : (f &&& m)[i] = m[i] := by rw [h]
  rw [BitVec.getElem_and] at hbit
  rw [BitVec.getElem_and, BitVec.getElem_or, Bool.and_or_distrib_right, hbit]
  cases m[i] <;> simp

theorem CountsKept.orFlags (s : State) (e k : Nat) : CountsKept s (s.orFlags e k) :=
  CountsKept.modCut s e fun _ => ⟨rfl, rfl, fun _ h => word_or_and_of_set h _⟩

/-- A flag that has been set is set. -/
theorem State.orFlags_set (s : State) (e k : Nat) :
    ((s.orFlags e k).cut e).flags &&& BitVec.ofNat 32 k = BitVec.ofNat 32 k := by
  rw [State.orFlags, State.cut_modCut, BitVec.or_comm]
  exact word_or_and_of_set BitVec.and_self _

/-! ### The start of a pass -/

theorem CountsKept.setStatus (s : State) (e code : Nat) : CountsKept s (s.setStatus e code) := by
  have h := CountsKept.modCut s e (f := fun c => { c with status := code }) fun _ => ⟨rfl, rfl, fun _ h => h⟩
  unfold State.setStatus
  split
  · exact h.trans (CountsKept.of_cuts rfl)
  · exact h

theorem CountsKept.replayStarts (s : State) (e : Nat) (p : Replay → Bool) : CountsKept s (s.replayStarts e p) := by
  have h := CountsKept.modCut s e (f := fun c => { c with awaiting := c.awaiting.filter (fun r => !p r) })
    fun _ => ⟨rfl, rfl, fun _ h => h⟩
  unfold State.replayStarts
  split
  · dsimp only
    split
    · exact h.trans (CountsKept.setStatus _ e 0)
    · exact h
  · exact CountsKept.refl s

theorem CountsKept.noteDrvBank (s : State) (e item : Nat) : CountsKept s (s.noteDrvBank e item) := by
  have h := CountsKept.modCut s e
    (f := fun c => { c with bank := some s.tables.drvCur, banks := Tab.set c.banks item s.tables.drvCur })
    fun _ => ⟨rfl, rfl, fun _ h => h⟩
  unfold State.noteDrvBank
  dsimp only
  split
  · exact CountsKept.refl s
  · split
    · split
      · exact h
      · exact h.trans (CountsKept.orFlags _ _ _)
    · exact h

theorem CountsKept.noteKilnBank (s : State) (n b e : Nat) (p : PassId) : CountsKept s (s.noteKilnBank n b e p) := by
  have note : ∀ ks : Tab Kiln,
      CountsKept s (State.modCut { s with kilns := ks } e (fun c => { c with bank := some s.tables.kilnCur })) :=
    fun ks => CountsKept.trans (a := { s with kilns := ks }) (CountsKept.of_cuts rfl)
      (CountsKept.modCut _ e fun _ => ⟨rfl, rfl, fun _ h => h⟩)
  unfold State.noteKilnBank
  extract_lets cur k same s1 s2
  split
  · exact CountsKept.refl s
  · split
    · split
      · exact (note _).trans (CountsKept.orFlags _ _ _)
      · exact note _
    · exact note _

theorem CountsKept.noteBank (s : State) (n b e : Nat) : CountsKept s (s.noteBank n b e) := by
  unfold State.noteBank
  split
  · split
    · exact CountsKept.noteDrvBank s e _
    · split
      · exact CountsKept.noteKilnBank s n b e _
      · exact CountsKept.refl s
  · exact CountsKept.refl s

theorem State.showEcon_benches (s : State) (n b : Nat) : (s.showEcon n b).benches = s.benches := rfl

/-- A bench that tries to start a pass, up to its own change: what follows leaves the benches. -/
theorem State.tryStart_cases (s : State) (n b : Nat) :
    s.tryStart n b = s ∨ ∃ (f : Face) (c : CutRun), (s.tryStart n b).benches =
      (s.modBench n b (fun x => x.tryStart f c)).benches := by
  unfold State.tryStart
  split
  · next e _ =>
    split
    · right
      refine ⟨s.face n, s.cut e, ?_⟩
      extract_lets s0 s1
      have h1 : Same (partMask [.cuts]) s0 s1 := by
        dsimp only [s1]
        split
        · exact State.modCut_same ⟨by decide⟩ (Same.refl _ s0) _ _
        · exact Same.refl _ s0
      have hsame : Same (partMask [.cuts, .kilns, .fabric]) s1
          (if (s1.bench n b).cur.isSome then
            (s1.noteBank n b e).replayStarts e (fun r => r == .pass n b || r == .cut) else s1) :=
        Same.ite (State.replayStarts_same ⟨by decide⟩ (State.noteBank_same ⟨by decide⟩ (Same.refl _ s1) n b e) e _)
          (Same.refl _ s1)
      exact (State.showEcon_benches _ n b).trans
        ((hsame.part .benches (by decide)).trans (h1.part .benches (by decide)))
    · exact .inl rfl
  · exact .inl rfl

theorem CountsKept.tryStart (s : State) (n b : Nat) : CountsKept s (s.tryStart n b) := by
  unfold State.tryStart
  split
  · next e _ =>
    split
    · extract_lets s0 s1
      have h0 : CountsKept s s0 := CountsKept.of_cuts rfl
      have h1 : CountsKept s s1 := by
        dsimp only [s1]
        split
        · exact h0.trans (CountsKept.modCut s0 e fun _ => ⟨rfl, rfl, fun _ h => h⟩)
        · exact h0
      refine CountsKept.trans ?_ (CountsKept.of_cuts rfl)
      split
      · exact (h1.trans (CountsKept.noteBank s1 n b e)).trans (CountsKept.replayStarts _ e _)
      · exact h1
    · exact CountsKept.refl s
  · exact CountsKept.refl s

theorem Bench.swap_shadow (b : Bench) : b.swap.shadow = b.shadow := by
  unfold Bench.swap
  dsimp only
  split <;> rfl

/-- A bench that tries to start a pass keeps its shadow. -/
theorem Bench.tryStart_shadow (b : Bench) (f : Face) (c : CutRun) : (b.tryStart f c).shadow = b.shadow := by
  unfold Bench.tryStart
  split
  · rfl
  · split
    · rfl
    · split
      · rfl
      · dsimp only
        split
        · rfl
        · split
          · rfl
          · unfold Bench.begin
            split
            · rfl
            · exact b.swap_shadow

theorem State.tryStart_shadow (s : State) (n b : Nat) : ((s.tryStart n b).bench n b).shadow = (s.bench n b).shadow := by
  rcases s.tryStart_cases n b with h | ⟨f, c, h⟩
  · rw [h]
  · have hb : (s.tryStart n b).bench n b = (s.modBench n b (fun x => x.tryStart f c)).bench n b := by
      rw [State.bench, State.bench, h]
    rw [hb, State.bench_modBench, Bench.tryStart_shadow]

/-- A shadow that is freed is free, also where the next pass starts (R79). -/
theorem State.freeShadow_shadow (s : State) (n b : Nat) : ((s.freeShadow n b).bench n b).shadow = none := by
  rw [State.freeShadow, State.tryStart_shadow, State.bench_modBench]

theorem CountsKept.freeShadow (s : State) (n b : Nat) : CountsKept s (s.freeShadow n b) :=
  CountsKept.trans (a := s.modBench n b fun x => { x with shadow := none }) (CountsKept.of_cuts rfl)
    (CountsKept.tryStart _ n b)

/-! ### Items that complete (R190) -/

theorem CountsKept.publishN (s : State) (e k : Nat) : CountsKept s (s.publishN e k) := by
  induction k generalizing s with
  | zero => exact CountsKept.refl s
  | succ k ih =>
    unfold State.publishN
    dsimp only
    split
    · refine CountsKept.trans ?_ (ih _)
      refine (CountsKept.modCut s e (f := fun c => { c with published := c.published + 1 })
        fun _ => ⟨rfl, rfl, fun _ h => h⟩).trans (CountsKept.of_cuts ?_)
      exact (State.tallyDone_same (Sub.refl _) (Same.refl _ _) _).part .cuts (by decide)
    · exact CountsKept.refl s

theorem CountsKept.itemDone (s : State) (e item : Nat) : CountsKept s (s.itemDone e item) := by
  unfold State.itemDone
  split
  · exact CountsKept.refl s
  · exact (CountsKept.modCut s e (f := fun c => { c with done := item :: c.done })
      fun _ => ⟨rfl, rfl, fun _ h => h⟩).trans (CountsKept.publishN _ e _)

theorem CountsKept.checkSlice (s : State) (e slice : Nat) : CountsKept s (s.checkSlice e slice) := by
  unfold State.checkSlice
  split
  · exact CountsKept.itemDone s e slice
  · exact CountsKept.refl s

theorem State.checkSlice_yard (s : State) (e slice : Nat) : (s.checkSlice e slice).yard = s.yard :=
  (State.checkSlice_same (Sub.refl _) (Same.refl _ s) e slice).part .yard (by decide)

theorem State.checkSlice_benches (s : State) (e slice : Nat) : (s.checkSlice e slice).benches = s.benches :=
  (State.checkSlice_same (Sub.refl _) (Same.refl _ s) e slice).part .benches (by decide)

/-! ### The fold of a tile -/

/-- A fold of a tile changes of the cuts the flags of one and its counts of long and promoted tiles. -/
theorem CountsKept.foldTile (s : State) (e : Nat) (t : TileRef) (first promoteOn : Bool)
    (ps : List ((Nat × Nat) × Val)) (fl : FoldFlags) : CountsKept s (s.foldTile e t first promoteOn ps fl) := by
  have h1 : Same (partMask [.yard, .slots]) s (s.promoted t first promoteOn).1 := by
    unfold State.promoted
    dsimp only
    split
    · exact State.promotionRule_same ⟨by decide⟩ (Same.refl _ s) _ _ _
    · exact Same.refl _ s
  have h2 : Same (partMask [.yard, .slots]) s (s.elemsFolded t first promoteOn ps).1 :=
    State.foldInto_same ⟨by decide⟩ (State.zeroRest_same ⟨by decide⟩ h1 _ _) _ _ _
  have hcuts : (s.elemsFolded t first promoteOn ps).1.cuts = s.cuts := h2.part .cuts (by decide)
  exact (CountsKept.trans (CountsKept.of_cuts hcuts) (CountsKept.orFlags (State.putYard _ t.hdr _) e _)).trans
    (CountsKept.modCut _ e fun _ => ⟨rfl, rfl, fun _ h => h⟩)

end Sys2Proof.Machine
end

section
/-! Folds, tree combinations and initial folds (R57 to R59, R67, R79, R230). -/

namespace Sys2Proof.Machine

theorem exec_fold (n : Fin 72) (b : Fin 4) (s : State) :
    exec (.fold n b) s = s.on (fun s => s.foldAny n.val b.val) := rfl

theorem exec_treeCombination (e : Fin 4096) (slice level rank : Nat) (s : State) :
    exec (.treeCombination e slice level rank) s = s.on (fun s => s.treeStep e.val slice level rank) := rfl

theorem exec_initialFoldDone (e : Fin 4096) (slice : Nat) (values : List (List Nat)) (s : State) :
    exec (.initialFoldDone e slice values) s = s.on (fun s => s.initialFold e.val slice values) := rfl

/-! ### FOLD (R59, R79) -/

/-- The state after the tile of a shadow has been folded. -/
def State.shadowFolded (s : State) (n : Nat) (sh : Shadow) (u : TileRef) : State :=
  s.foldTile sh.cut u (s.passE128 sh.cut n) (s.face n).accMode.promote sh.contributions
    { span := sh.span, nan := sh.nan, econ := sh.econ }

/-- The state after the fold of a shadow: the tile, the cut's flags, the bench and the cut's counts. -/
def State.shadowDone (s : State) (n b : Nat) (sh : Shadow) (u : TileRef) : State :=
  (((s.shadowFolded n sh u).orFlags sh.cut sh.cutFlags).freeShadow n b).afterFold sh.cut sh.pass

section
variable {s : State} {n b : Nat} {sh : Shadow} {u : TileRef} (hsh : (s.bench n b).shadow = some sh)
  (hu : s.passTile sh.cut n sh.pass = some u)
include hsh hu

/-- A shadow that has not passed its check folds nothing. -/
theorem State.foldAny_uncleared (hc : sh.cleared = false) : s.foldAny n b = s := by
  have hfold : s.fold n b = s := by
    simp [State.fold, hsh, hu, hc]
  simp [State.foldAny, hsh, hfold]

/-- A shadow in its turn folds. -/
theorem State.foldAny_eq (hc : sh.cleared = true) (hk : (s.cut sh.cut).desc.kind ≠ 3)
    (ho : s.orderMet sh.cut n sh.pass = true) (hf : s.slotFree sh.cut n sh.pass = true)
    (hi : s.initialMet sh.cut sh.pass u = true) : s.foldAny n b = s.shadowDone n b sh u := by
  have hyard : foldsToYard (s.cut sh.cut).desc.kind sh.pass = true := by simp [foldsToYard, hk]
  have hfold : s.fold n b = s.shadowDone n b sh u := by
    simp only [State.fold, hsh, hu, hc, hyard, ho, hf, hi, Bool.and_self, if_true]
    rfl
  simp only [State.foldAny, hsh, hk, false_and, if_false, hfold]

end

theorem State.afterFold_bench (s : State) (e : Nat) (p : PassId) (n b : Nat) :
    (s.afterFold e p).bench n b = s.bench n b := by
  rw [State.bench, State.afterFold, State.checkSlice_benches]
  rfl

/-- A completed fold counts one pass of its cut. -/
theorem State.afterFold_passes (s : State) (e : Nat) (p : PassId) :
    ((s.afterFold e p).cut e).passes = (s.cut e).passes + 1 := by
  unfold State.afterFold
  extract_lets s1
  have hone : (s1.cut e).passes = (s.cut e).passes + 1 := by
    rw [State.cut_modCut]
  exact (CountsKept.checkSlice s1 e p.item e).1.trans hone

/-- What follows the fold of its tile leaves the yard and the image. -/
theorem State.shadowDone_same (s : State) (n b : Nat) (sh : Shadow) (u : TileRef) :
    Same (partMask [.glb, .tallies, .log, .cuts, .benches, .kilns, .faces, .fabric]) (s.shadowFolded n sh u)
      (s.shadowDone n b sh u) :=
  State.afterFold_same ⟨by decide⟩ (State.freeShadow_same ⟨by decide⟩
    (State.orFlags_same ⟨by decide⟩ (Same.refl _ _) _ _) n b) _ _

/-- The codes of elements are those of the yard and of the image's regions. -/
theorem State.elemCode_congr {s t : State} (hy : t.yard = s.yard) (hi : t.image = s.image) (u : TileRef) (h : Hdr)
    (j l : Nat) : t.elemCode u h j l = s.elemCode u h j l := by
  simp only [State.elemCode, State.elemAt, State.reserve, hy, hi]

/-- A shadow that folds: FOLDS rises by one, the shadow is free and its cut counts the pass (R57, R79). -/
theorem State.shadowDone_counts {s : State} (hs : YardCanonical s) (n b : Nat) (sh : Shadow) (u : TileRef) :
    let t := s.shadowDone n b sh u
    (readHdr t.yard.mem u.hdr).folds = min ((readHdr s.yard.mem u.hdr).folds + 1) (2 ^ 32 - 1) ∧
      (t.bench n b).shadow = none ∧ (t.cut sh.cut).passes = (s.cut sh.cut).passes + 1 := by
  intro t
  have hyard : t.yard = (s.shadowFolded n sh u).yard := (s.shadowDone_same n b sh u).part .yard (by decide)
  have hcounts : CountsKept s (((s.shadowFolded n sh u).orFlags sh.cut sh.cutFlags).freeShadow n b) :=
    ((CountsKept.foldTile s _ u _ _ _ _).trans (CountsKept.orFlags _ _ _)).trans (CountsKept.freeShadow _ n b)
  refine ⟨?_, ?_, ?_⟩
  · rw [hyard]
    exact State.foldTile_folds hs sh.cut u _ _ _ _
  · exact (congrArg Bench.shadow (State.afterFold_bench _ _ _ n b)).trans (State.freeShadow_shadow _ n b)
  · exact (State.afterFold_passes _ _ _).trans (congrArg (· + 1) (hcounts sh.cut).1)

/-- A shadow of one pocket that folds: its element takes the sum, and no other byte but the header's changes (R59). -/
theorem State.shadowDone_elem {s : State} (hs : YardCanonical s) (n b : Nat) {sh : Shadow} {u : TileRef} {h : Hdr}
    (hh : readHdr s.yard.mem u.hdr = h) (h0 : 0 < h.folds)
    (hroom : h.folds < 65536 ∨ h.e128 = true ∨ h.longsum = true) (hslot : h.slot = 0xFFFF) {j l : Nat} {v : Val}
    (hv : sh.contributions = [((j, l), v)]) (hj : j < u.rows) (hl : l < u.cols)
    (hoff : u.hdr + 8 ≤ s.elemAt u h j l ∨ s.elemAt u h j l + elemSize h.e128 ≤ u.hdr) :
    let t := s.shadowDone n b sh u
    t.elemCode u (readHdr t.yard.mem u.hdr) j l = (foldElem h.e128 (s.elemCode u h j l) v).1 ∧
      ∀ a, a < s.elemAt u h j l ∨ s.elemAt u h j l + elemSize h.e128 ≤ a → a < u.hdr ∨ u.hdr + 8 ≤ a →
        Mem.read t.yard.mem a = Mem.read s.yard.mem a := by
  intro t
  have hsame := s.shadowDone_same n b sh u
  have hyard : t.yard = (s.shadowFolded n sh u).yard := hsame.part .yard (by decide)
  have himage : t.image = (s.shadowFolded n sh u).image := hsame.part .image (by decide)
  rw [State.elemCode_congr hyard himage, hyard, State.shadowFolded, hv]
  exact ⟨State.foldTile_elem hh h0 hroom hs hslot sh.cut _ _ hj hl v _ hoff,
    fun a helem hhdr => State.foldTile_frame hh h0 hroom sh.cut _ _ hj hl v _ helem hhdr⟩

/-! ### TREE_COMBINATION (R67) -/

/-- The header that a combination leaves of the partner: a promoted partner of a G40 tile gives its slot up (R61). -/
def Hdr.afterJoin (hx hy : Hdr) : Hdr := if !hx.e128 && hy.e128 then { hy with slot := 0xFFFF } else hy

theorem Hdr.afterJoin_fits (hx : Hdr) {hy : Hdr} (hf : hy.folds < 2 ^ 32) (hs : hy.slot < 2 ^ 16) :
    (hx.afterJoin hy).folds < 2 ^ 32 ∧ (hx.afterJoin hy).slot < 2 ^ 16 := by
  unfold Hdr.afterJoin
  split
  · exact ⟨hf, (by decide : 0xFFFF < 2 ^ 16)⟩
  · exact ⟨hf, hs⟩

/-- A tree combination writes its elements, then the header of the destination with the counts added, then the header of
the partner (R67). -/
theorem State.combine_mem {s : State} (hs : YardCanonical s) (e : Nat) (t u : TileRef) (promoteOn : Bool) :
    let hx := readHdr s.yard.mem t.hdr
    let hy := readHdr s.yard.mem u.hdr
    ∃ (x : State) (h : Hdr), YardCanonical x ∧ h.folds = min (hx.folds + hy.folds) (2 ^ 32 - 1) ∧
      (s.combine e t u promoteOn).yard.mem =
        Mem.writeBytes (Mem.writeBytes x.yard.mem t.hdr h.bytes) u.hdr (hx.afterJoin hy).bytes := by
  intro hx hy
  unfold State.combine
  extract_lets bothG tooMany vals steal slot h0 h1 hy'
  have hfolds : h0.folds = hx.folds := by
    dsimp only [h0]
    clear_value slot
    split
    · rfl
    · split
      · rfl
      · split <;> rfl
  split
  next x lost hr =>
  have hcanon : YardCanonical x := by
    have hx : _ = x := congrArg Prod.fst hr
    rw [← hx]
    exact YardCanonical.foldlFst vals hs fun _ _ ha => ha.putYard _ _
  refine ⟨x, { h1 with exlost := h1.exlost || lost }, hcanon, ?_, rfl⟩
  show min (h0.folds + hy.folds) (2 ^ 32 - 1) = _
  rw [hfolds]

/-- The headers that a tree combination leaves. -/
theorem State.combine_headers {s : State} (hs : YardCanonical s) (e : Nat) {t u : TileRef} (promoteOn : Bool)
    (hoff : t.hdr + 8 ≤ u.hdr ∨ u.hdr + 8 ≤ t.hdr) :
    let hx := readHdr s.yard.mem t.hdr
    let hy := readHdr s.yard.mem u.hdr
    let y := s.combine e t u promoteOn
    (readHdr y.yard.mem t.hdr).folds = min (hx.folds + hy.folds) (2 ^ 32 - 1) ∧
      readHdr y.yard.mem u.hdr = hx.afterJoin hy := by
  intro hx hy y
  obtain ⟨x, h, hcanon, hfolds, hmem⟩ := State.combine_mem hs e t u promoteOn
  rw [hmem]
  constructor
  · have hlt : h.folds < 2 ^ 32 := by omega
    rw [readHdr_writeBytes_other _ (by rwa [Hdr.bytes_length]), readHdr_writeHdr hcanon]
    exact (Nat.mod_eq_of_lt hlt).trans hfolds
  · obtain ⟨hf, hslot⟩ := hx.afterJoin_fits (readHdr_folds_lt s.yard.mem u.hdr) (readHdr_slot_lt s.yard.mem u.hdr)
    rw [readHdr_writeHdr (Mem.writeBytes_wf _ _ _ hcanon), Nat.mod_eq_of_lt hf, Nat.mod_eq_of_lt hslot]

section
variable {s : State} {e slice level rank : Nat}

/-- The combination of two complete ranks. -/
theorem State.treeStep_eq {u v : TileRef} (h1 : 1 ≤ level) (hl : level ≤ (s.cut e).desc.levels)
    (hr : rank % 2 ^ level = 0) (ho : rank + 2 ^ (level - 1) < (s.cut e).desc.split)
    (hsl : slice < (s.cut e).desc.slices) (hlive : (s.cut e).live = true)
    (hd : s.levelDone e slice rank (level - 1) = true)
    (hd' : s.levelDone e slice (rank + 2 ^ (level - 1)) (level - 1) = true)
    (hk : treeKey slice rank level ∉ (s.cut e).trees) (hu : s.rankTile e slice rank = some u)
    (hv : s.rankTile e slice (rank + 2 ^ (level - 1)) = some v) :
    s.treeStep e slice level rank =
      ((s.combine e u v (s.face (nth 0 (s.cutFaces (s.cut e).desc) 0)).accMode.promote).modCut e
        (fun x => { x with trees := treeKey slice rank level :: x.trees })).checkSlice e slice := by
  have hk' : (s.cut e).trees.contains (treeKey slice rank level) = false := by simpa using hk
  unfold State.treeStep
  extract_lets c other
  rw [if_pos ⟨h1, hl, hr, ho, hsl, hlive, hd, hd', hk'⟩]
  simp only [hu, hv, other]
  rfl

/-- A combination that is none, or that has been made, is not made. -/
theorem State.treeStep_idle
    (h : level = 0 ∨ rank % 2 ^ level ≠ 0 ∨ treeKey slice rank level ∈ (s.cut e).trees) :
    s.treeStep e slice level rank = s := by
  unfold State.treeStep
  extract_lets c other
  rw [if_neg]
  rintro ⟨h1, -, hr, -, -, -, -, -, hk⟩
  rcases h with h0 | hr' | hk'
  · omega
  · exact hr' hr
  · simp [hk'] at hk

end

/-- What a combination that is made leaves: its key, the counts added, and the partner's header (R67, R230). -/
theorem State.combined_spec {s : State} (hs : YardCanonical s) (e slice key : Nat) {u v : TileRef} (promoteOn : Bool)
    (hoff : u.hdr + 8 ≤ v.hdr ∨ v.hdr + 8 ≤ u.hdr) :
    let hx := readHdr s.yard.mem u.hdr
    let hy := readHdr s.yard.mem v.hdr
    let t := ((s.combine e u v promoteOn).modCut e (fun x => { x with trees := key :: x.trees })).checkSlice e slice
    key ∈ (t.cut e).trees ∧ (readHdr t.yard.mem u.hdr).folds = min (hx.folds + hy.folds) (2 ^ 32 - 1) ∧
      readHdr t.yard.mem v.hdr = hx.afterJoin hy := by
  intro hx hy t
  have hyard : t.yard = (s.combine e u v promoteOn).yard := State.checkSlice_yard _ e slice
  rw [hyard]
  refine ⟨?_, State.combine_headers hs e promoteOn hoff⟩
  obtain ⟨-, htrees, -⟩ := CountsKept.checkSlice
    ((s.combine e u v promoteOn).modCut e (fun x => { x with trees := key :: x.trees })) e slice e
  rw [htrees, State.cut_modCut]
  exact List.mem_cons_self

theorem State.treeStep_hoists (s : State) (e slice level rank : Nat) :
    (s.treeStep e slice level rank).hoists = s.hoists :=
  (State.treeStep_same (Sub.refl _) (Same.refl _ s) e slice level rank).part .hoists (by decide)

theorem State.treeStep_benches (s : State) (e slice level rank : Nat) :
    (s.treeStep e slice level rank).benches = s.benches :=
  (State.treeStep_same (Sub.refl _) (Same.refl _ s) e slice level rank).part .benches (by decide)

/-! ### INITIAL_FOLD_DONE (R230) -/

section
variable {s : State} {e slice : Nat} {u : TileRef} (hk : (s.cut e).desc.kind = 2)
  (hr : (s.cut e).phase = .running) (hi : (s.cut e).desc.wArea.initMap ≠ 0xFFFF)
  (hsl : slice < (s.cut e).desc.slices) (hu : s.rankTile e slice 0 = some u)
include hk hr hi hsl hu

/-- The initial fold of a slice is a fold of its tile, and FLAGS says that it was made. -/
theorem State.initialFold_eq (h0 : (readHdr s.yard.mem u.hdr).folds = 0) (values : List (List Nat)) :
    ∃ first promoteOn ps fl, s.initialFold e slice values =
      ((s.foldTile e u first promoteOn ps fl).orFlags e (flag 24)).checkSlice e slice := by
  unfold State.initialFold
  extract_lets c d
  rw [if_pos ⟨hk, hr, hi, hsl⟩, hu]
  exact ⟨_, _, _, _, if_pos h0⟩

/-- A slice that has been folded into takes no initial fold. -/
theorem State.initialFold_late (h0 : (readHdr s.yard.mem u.hdr).folds ≠ 0) (values : List (List Nat)) :
    s.initialFold e slice values = s := by
  unfold State.initialFold
  extract_lets c d
  rw [if_pos ⟨hk, hr, hi, hsl⟩, hu]
  exact if_neg h0

end

theorem State.initialFold_hoists (s : State) (e slice : Nat) (values : List (List Nat)) :
    (s.initialFold e slice values).hoists = s.hoists :=
  (State.initialFold_same (Sub.refl _) (Same.refl _ s) e slice values).part .hoists (by decide)

theorem State.initialFold_benches (s : State) (e slice : Nat) (values : List (List Nat)) :
    (s.initialFold e slice values).benches = s.benches :=
  (State.initialFold_same (Sub.refl _) (Same.refl _ s) e slice values).part .benches (by decide)

/-- The initial fold of a slice counts as its first, and FLAGS says that it was made (R230). -/
theorem State.initialFolded_spec {s : State} (hs : YardCanonical s) (e slice : Nat) {u : TileRef}
    (h0 : (readHdr s.yard.mem u.hdr).folds = 0) (first promoteOn : Bool) (ps : List ((Nat × Nat) × Val))
    (fl : FoldFlags) :
    let t := ((s.foldTile e u first promoteOn ps fl).orFlags e (flag 24)).checkSlice e slice
    (readHdr t.yard.mem u.hdr).folds = 1 ∧ (t.cut e).flags &&& 0x1000000#32 = 0x1000000#32 := by
  intro t
  have hyard : t.yard = (s.foldTile e u first promoteOn ps fl).yard := State.checkSlice_yard _ e slice
  obtain ⟨-, -, hflags⟩ := CountsKept.checkSlice ((s.foldTile e u first promoteOn ps fl).orFlags e (flag 24)) e slice e
  refine ⟨?_, hflags _ (State.orFlags_set _ e (flag 24))⟩
  rw [hyard, State.foldTile_folds hs, h0]
  rfl

/-! ### O33: folds, tree combinations and initial folds -/

theorem Hdr.afterJoin_promoted {hx hy : Hdr} (h : hx.e128 = false) (h' : hy.e128 = true) :
    (hx.afterJoin hy).slot = 0xFFFF := by
  simp [Hdr.afterJoin, h, h']

theorem Hdr.afterJoin_stands {hx hy : Hdr} (h : hx.e128 = true ∨ hy.e128 = false) : hx.afterJoin hy = hy := by
  rcases h with h | h <;> simp [Hdr.afterJoin, h]

/-- Settles O33: a fold, a combination and an initial fold write their elements first and their headers last, and what
follows them leaves the yard and the counts. -/
theorem State.foldsAdd : Obligations.FoldsAdd := by
  unfold Obligations.FoldsAdd
  refine ⟨fun s n b sh u hs hy hsh hu => ⟨?fold, ?unchecked⟩,
    fun s e slice level rank hs hy => ⟨?tree, ?made, ?initial⟩⟩
  case fold =>
    intro hc hk ho hf hi
    obtain ⟨hfolds, hfree, hpasses⟩ := State.shadowDone_counts hy n.val b.val sh u
    exact Leads.effect hs (exec_fold ..) (State.foldAny_eq hsh hu hc hk ho hf hi) ⟨hfolds, hfree, hpasses,
      fun h0 hroom hslot j l v hv hj hl hoff => State.shadowDone_elem hy n.val b.val rfl h0 hroom hslot hv hj hl hoff⟩
  case unchecked =>
    intro hc
    exact Ignored.effect hs (exec_fold ..) (State.foldAny_uncleared hsh hu hc)
  case tree =>
    intro u v h1 hl hr ho hsl hlive hd hd' hk hu hv hoff
    have hstep := State.treeStep_eq h1 hl hr ho hsl hlive hd hd' hk hu hv
    obtain ⟨hmade, hfolds, hpartner⟩ := State.combined_spec hy e.val slice (treeKey slice rank level)
      (s.face (nth 0 (s.cutFaces (s.cut e.val).desc) 0)).accMode.promote hoff
    rw [← hstep] at hmade hfolds hpartner
    exact Leads.effect hs (exec_treeCombination ..) rfl ⟨hmade, hfolds,
      fun hx hy => by rw [hpartner, Hdr.afterJoin_promoted hx hy],
      fun h => by rw [hpartner, Hdr.afterJoin_stands h], s.treeStep_hoists .., s.treeStep_benches ..⟩
  case made =>
    intro h
    exact Ignored.effect hs (exec_treeCombination ..) (State.treeStep_idle h)
  case initial =>
    intro values u hk hr hi hsl hu
    refine ⟨fun h0 => ?_, fun h0 => Ignored.effect hs (exec_initialFoldDone ..)
      (State.initialFold_late hk hr hi hsl hu h0 values)⟩
    obtain ⟨first, promoteOn, ps, fl, hstep⟩ := State.initialFold_eq hk hr hi hsl hu h0 values
    obtain ⟨hfolds, hflag⟩ := State.initialFolded_spec hy e.val slice h0 first promoteOn ps fl
    rw [← hstep] at hfolds hflag
    exact Leads.effect hs (exec_initialFoldDone ..) rfl
      ⟨hfolds, hflag, s.initialFold_hoists .., s.initialFold_benches ..⟩

end Sys2Proof.Machine
end

section
/-! What the start of a pass leaves of the benches, of the faces and of the cuts' records (R15, R76, R80, R91, R380). -/

namespace Sys2Proof.Machine

/-! ### Parts that are read of states that agree in them -/

theorem State.bench_congr {s t : State} (h : t.benches = s.benches) (m c : Nat) : t.bench m c = s.bench m c := by
  rw [State.bench, h]
  rfl

theorem State.face_congr {s t : State} (h : t.faces = s.faces) (m : Nat) : t.face m = s.face m := by
  rw [State.face, h]
  rfl

theorem State.cut_congr {s t : State} (h : t.cuts = s.cuts) (k : Nat) : t.cut k = s.cut k := by
  rw [State.cut, h]
  rfl

/-- Two benches of the machine are two places of its table. -/
theorem benchKey_ne {n m : Fin 72} {b c : Fin 4} (h : m ≠ n ∨ c ≠ b) :
    m.val * 4 + c.val ≠ n.val * 4 + b.val := by
  intro hk
  have hm : m.val = n.val := by omega
  have hc : c.val = b.val := by omega
  rcases h with h | h
  · exact h (Fin.ext hm)
  · exact h (Fin.ext hc)

/-! ### The records of cuts -/

/-- A cut's record without what the start of a pass may change in it. -/
def CutRun.frame (c : CutRun) : CutRun :=
  { c with status := 0, flags := 0, bank := none, banks := [], awaiting := [], kept := [] }

/-- Every cut's record stays, up to what the start of a pass may change in it. -/
def FramesKept (s t : State) : Prop := ∀ k, (t.cut k).frame = (s.cut k).frame

theorem FramesKept.of_cuts {s t : State} (h : t.cuts = s.cuts) : FramesKept s t := fun k => by
  rw [State.cut_congr h]

theorem FramesKept.trans {s a t : State} (h : FramesKept s a) (k : FramesKept a t) : FramesKept s t := fun i =>
  (k i).trans (h i)

theorem FramesKept.replays {s t : State} (h : FramesKept s t) (k : Nat) : (t.cut k).replays = (s.cut k).replays := by
  have hk := congrArg CutRun.replays (h k)
  exact hk

theorem FramesKept.parity {s t : State} (h : FramesKept s t) (k : Nat) : (t.cut k).parity = (s.cut k).parity := by
  have hk := congrArg CutRun.parity (h k)
  exact hk

/-- The operand types of a pass come from what the start of a pass leaves. -/
theorem FramesKept.passTypes {s t : State} (h : FramesKept s t) (k : Nat) (p : PassId) :
    (t.cut k).passTypes p = (s.cut k).passTypes p := by
  have hk := congrArg (fun c => CutRun.passTypes c p) (h k)
  exact hk

theorem FramesKept.modCut (s : State) (e : Nat) {f : CutRun → CutRun} (hf : ∀ c : CutRun, (f c).frame = c.frame) :
    FramesKept s (s.modCut e f) := fun k => by
  by_cases h : k = e
  · rw [h, State.cut_modCut, hf]
  · rw [State.cut_modCut_other s e k f h]

theorem FramesKept.setStatus (s : State) (e code : Nat) : FramesKept s (s.setStatus e code) := by
  have h := FramesKept.modCut s e (f := fun c => { c with status := code }) fun _ => rfl
  unfold State.setStatus
  split
  · exact h
  · exact h

theorem FramesKept.awaitReplay (s : State) (e : Nat) (r : Replay) : FramesKept s (s.awaitReplay e r) :=
  (FramesKept.modCut s e (f := fun c => { c with awaiting := c.awaiting.filter (· != r) ++ [r] }) fun _ => rfl).trans
    (FramesKept.setStatus _ e 0x41)

theorem FramesKept.replayStarts (s : State) (e : Nat) (p : Replay → Bool) : FramesKept s (s.replayStarts e p) := by
  have h := FramesKept.modCut s e (f := fun c => { c with awaiting := c.awaiting.filter (fun r => !p r) }) fun _ => rfl
  unfold State.replayStarts
  split
  · dsimp only
    split
    · exact h.trans (FramesKept.setStatus _ e 0)
    · exact h
  · exact FramesKept.of_cuts rfl

/-! ### The banks of tables that a pass takes (R216, R250) -/

/-- A cut's record without the banks that its passes have taken, its flags and the contexts that it keeps. -/
def CutRun.unnoted (c : CutRun) : CutRun := { c with flags := 0, bank := none, banks := [], kept := [] }

/-- What the note of a bank leaves: the cuts' records up to banks, flags and kept contexts; what has come back to each
kiln; and every part but those two. -/
structure BanksNoted (s t : State) : Prop where
  /-- the records of cuts -/
  record : ∀ k, (t.cut k).unnoted = (s.cut k).unnoted
  /-- the results that have come back to a kiln -/
  seen : ∀ i, (Tab.get Kiln.reset t.kilns i).seen = (Tab.get Kiln.reset s.kilns i).seen
  /-- the parts beside -/
  same : Same (partMask [.cuts, .kilns]) s t

theorem BanksNoted.refl (s : State) : BanksNoted s s := ⟨fun _ => rfl, fun _ => rfl, Same.refl _ s⟩

theorem BanksNoted.trans {s a t : State} (h : BanksNoted s a) (k : BanksNoted a t) : BanksNoted s t :=
  ⟨fun i => (k.record i).trans (h.record i), fun i => (k.seen i).trans (h.seen i), h.same.trans k.same⟩

theorem BanksNoted.modCut (s : State) (e : Nat) {f : CutRun → CutRun} (hf : ∀ c : CutRun, (f c).unnoted = c.unnoted) :
    BanksNoted s (s.modCut e f) where
  record k := by
    by_cases h : k = e
    · rw [h, State.cut_modCut, hf]
    · rw [State.cut_modCut_other s e k f h]
  seen _ := rfl
  same := State.modCut_same ⟨by decide⟩ (Same.refl _ s) e f

theorem BanksNoted.orFlags (s : State) (e k : Nat) : BanksNoted s (s.orFlags e k) :=
  BanksNoted.modCut s e fun _ => rfl

theorem BanksNoted.noteDrvBank (s : State) (e item : Nat) : BanksNoted s (s.noteDrvBank e item) := by
  have h := BanksNoted.modCut s e
    (f := fun c => { c with bank := some s.tables.drvCur, banks := Tab.set c.banks item s.tables.drvCur }) fun _ => rfl
  unfold State.noteDrvBank
  dsimp only
  split
  · exact BanksNoted.refl s
  · split
    · split
      · exact h
      · exact h.trans (BanksNoted.orFlags _ _ _)
    · exact h

theorem BanksNoted.noteKilnBank (s : State) (n b e : Nat) (p : PassId) : BanksNoted s (s.noteKilnBank n b e p) := by
  unfold State.noteKilnBank
  extract_lets cur k same s1 s2
  split
  · exact BanksNoted.refl s
  · have h1 : BanksNoted s s1 := by
      refine ⟨fun _ => rfl, fun i => ?_, Same.set_kilns ⟨by decide⟩ (Same.refl _ s)⟩
      dsimp only [s1]
      by_cases hi : i = n * 4 + b
      · rw [hi, Tab.get_set_same]
      · rw [Tab.get_set_other _ _ _ _ _ hi]
    have h2 : BanksNoted s s2 := h1.trans (BanksNoted.modCut s1 e fun _ => rfl)
    split
    · split
      · exact h2.trans (BanksNoted.orFlags s2 _ _)
      · exact h2
    · exact h2

theorem BanksNoted.noteBank (s : State) (n b e : Nat) : BanksNoted s (s.noteBank n b e) := by
  unfold State.noteBank
  split
  · split
    · exact BanksNoted.noteDrvBank s e _
    · split
      · exact BanksNoted.noteKilnBank s n b e _
      · exact BanksNoted.refl s
  · exact BanksNoted.refl s

theorem BanksNoted.frames {s t : State} (h : BanksNoted s t) : FramesKept s t := fun k => by
  have hk := congrArg CutRun.frame (h.record k)
  exact hk

/-! ### What a bench that tries to start a pass comes to -/

/-- A bench that tries to start its next pass changes itself; then the pass takes its banks, a pass that starts may
end a wait for its replay (R15), and the face shows the bench's window. -/
theorem State.tryStart_inv (s : State) (n b : Nat) : s.tryStart n b = s ∨ ∃ (e : Nat) (v u : State),
    let y := (s.bench n b).tryStart (s.face n) (s.cut e)
    (s.bench n b).cut = some e ∧ BanksNoted (s.modBench n b (fun x => x.tryStart (s.face n) (s.cut e))) v ∧
      (u = v ∨ y.cur.isSome = true ∧ ∃ p, u = v.replayStarts e p) ∧ s.tryStart n b = u.showEcon n b := by
  unfold State.tryStart
  split
  · next e he =>
    split
    · right
      extract_lets s0 s1
      have h1 : BanksNoted s0 s1 := by
        dsimp only [s1]
        split
        · exact BanksNoted.modCut s0 e fun _ => rfl
        · exact BanksNoted.refl s0
      have hcur : (s1.bench n b).cur = ((s.bench n b).tryStart (s.face n) (s.cut e)).cur := by
        rw [State.bench_congr (h1.same.part .benches (by decide)), State.bench_modBench]
      by_cases hgo : (s1.bench n b).cur.isSome = true
      · rw [if_pos hgo]
        exact ⟨e, _, _, he, h1.trans (BanksNoted.noteBank s1 n b e), .inr ⟨hcur ▸ hgo, _, rfl⟩, rfl⟩
      · rw [if_neg hgo]
        exact ⟨e, s1, s1, he, h1, .inl rfl, rfl⟩
    · exact .inl rfl
  · exact .inl rfl

/-- What the start of a pass changes beside its bench and its face: records, kilns, and a status byte of fabric
memory. -/
theorem State.tryStart_changes (s : State) (n b : Nat) : s.tryStart n b = s ∨ ∃ (e : Nat) (u : State),
    (s.bench n b).cut = some e ∧ s.tryStart n b = u.showEcon n b ∧ FramesKept s u ∧
      Same (partMask [.cuts, .kilns, .fabric]) (s.modBench n b (fun x => x.tryStart (s.face n) (s.cut e))) u := by
  rcases s.tryStart_inv n b with h | ⟨e, v, u, he, hv, hu, h⟩
  · exact .inl h
  · have hframe : FramesKept s v := FramesKept.trans (a := s.modBench n b _) (FramesKept.of_cuts rfl) hv.frames
    have hsame := hv.same.mono (m := partMask [.cuts, .kilns, .fabric]) ⟨by decide⟩
    rcases hu with rfl | ⟨-, p, rfl⟩
    · exact .inr ⟨e, _, he, h, hframe, hsame⟩
    · exact .inr ⟨e, _, he, h, hframe.trans (FramesKept.replayStarts v e p),
        State.replayStarts_same ⟨by decide⟩ hsame e p⟩

theorem FramesKept.tryStart (s : State) (n b : Nat) : FramesKept s (s.tryStart n b) := by
  rcases s.tryStart_changes n b with h | ⟨e, u, -, h, hu, -⟩
  · exact FramesKept.of_cuts (by rw [h])
  · rw [h]
    exact hu

/-- The bench after it has tried to start its next pass is as it was, or tried for its cut and its face. -/
theorem State.tryStart_bench (s : State) (n b : Nat) : (s.tryStart n b).bench n b = s.bench n b ∨
    ∃ e, (s.bench n b).cut = some e ∧ (s.tryStart n b).bench n b = (s.bench n b).tryStart (s.face n) (s.cut e) := by
  rcases s.tryStart_changes n b with h | ⟨e, u, he, h, -, hu⟩
  · exact .inl (by rw [h])
  · refine .inr ⟨e, he, ?_⟩
    rw [h, State.bench_congr (u.showEcon_benches n b), State.bench_congr (hu.part .benches (by decide)),
      State.bench_modBench]

/-- The start of a pass leaves what has come back to the kilns. -/
theorem State.tryStart_seen (s : State) (n b i : Nat) :
    (Tab.get Kiln.reset (s.tryStart n b).kilns i).seen = (Tab.get Kiln.reset s.kilns i).seen := by
  rcases s.tryStart_inv n b with h | ⟨e, v, u, -, hv, hu, h⟩
  · rw [h]
  · rw [h]
    rcases hu with rfl | ⟨-, p, rfl⟩
    · exact hv.seen i
    · have hk : (v.replayStarts e p).kilns = v.kilns :=
        (State.replayStarts_same (Sub.refl _) (Same.refl _ v) e p).part .kilns (by decide)
      rw [State.showEcon, State.modFace_kilns, hk]
      exact hv.seen i

theorem State.replayStarts_idle {s : State} {e : Nat} (h : (s.cut e).awaiting = []) (p : Replay → Bool) :
    s.replayStarts e p = s := by
  simp [State.replayStarts, h]

/-- A pass that starts in a cut that waits for no replay writes no status. -/
theorem State.tryStart_fabric {s : State} {n b e : Nat} (hc : (s.bench n b).cut = some e)
    (ha : (s.cut e).awaiting = []) : (s.tryStart n b).fabric = s.fabric := by
  rcases s.tryStart_inv n b with h | ⟨e', v, u, he, hv, hu, h⟩
  · rw [h]
  · cases hc.symm.trans he
    have hv' : (v.cut e).awaiting = [] := by
      have hk := congrArg CutRun.awaiting (hv.record e)
      exact hk.trans ha
    have huv : u = v := by
      rcases hu with hu | ⟨-, p, hu⟩
      · exact hu
      · rw [hu, State.replayStarts_idle hv']
    rw [h, huv, State.showEcon, State.modFace_fabric]
    exact hv.same.part .fabric (by decide)

/-- Where no pass starts no status changes. -/
theorem State.tryStart_status {s : State} {n b e : Nat} (hc : (s.bench n b).cut = some e)
    (hw : ((s.bench n b).tryStart (s.face n) (s.cut e)).cur = none) (k : Nat) :
    ((s.tryStart n b).cut k).status = (s.cut k).status := by
  rcases s.tryStart_inv n b with h | ⟨e', v, u, he, hv, hu, h⟩
  · rw [h]
  · cases hc.symm.trans he
    have huv : u = v := by
      rcases hu with hu | ⟨hcur, -⟩
      · exact hu
      · rw [hw] at hcur
        cases hcur
    rw [h, huv]
    have hk := congrArg CutRun.status (hv.record k)
    exact hk

theorem State.tryStart_bench_other (s : State) {n b m c : Nat} (hk : m * 4 + c ≠ n * 4 + b) :
    (s.tryStart n b).bench m c = s.bench m c := by
  rcases s.tryStart_changes n b with h | ⟨e, u, -, h, -, hu⟩
  · rw [h]
  · rw [h, State.bench_congr (u.showEcon_benches n b), State.bench_congr (hu.part .benches (by decide)),
      State.bench_modBench_other s n b m c _ hk]

theorem State.showEcon_unchk (s : State) (n b m : Nat) : ((s.showEcon n b).face m).unchk = (s.face m).unchk := by
  unfold State.showEcon
  by_cases h : m = n
  · rw [h, State.face_modFace]
  · rw [State.face_modFace_other _ n m _ h]

/-- The start of a pass leaves the counts of unchecked passes. -/
theorem State.tryStart_unchk (s : State) (n b m : Nat) : ((s.tryStart n b).face m).unchk = (s.face m).unchk := by
  rcases s.tryStart_changes n b with h | ⟨e, u, -, h, -, hu⟩
  · rw [h]
  · rw [h, State.showEcon_unchk, State.face_congr (hu.part .faces (by decide))]
    rfl

/-- A bench that tries to start a pass stands frozen or idle, takes up a context that was saved elsewhere, or begins the
pass that its work names, on the side it reads or on the other one (R76, R80, R380). -/
theorem Bench.tryStart_inv (b : Bench) (f : Face) (c : CutRun) :
    (∃ fr, b.tryStart f c = { b with frozen := fr }) ∨ (∃ k rest, b.tryStart f c = b.takeKept k rest) ∨
      ∃ p rest y, (y = b ∨ y = b.swap) ∧ b.work = p :: rest ∧ b.scalesReady (c.passTypes p) = true ∧
        b.tryStart f c = y.begin f p rest := by
  unfold Bench.tryStart
  split
  · exact .inl ⟨b.frozen, rfl⟩
  · split
    · exact .inl ⟨none, rfl⟩
    · next p rest hw =>
      split
      · next k _ => exact .inr (.inl ⟨k, rest, rfl⟩)
      · extract_lets keep swap
        split
        · exact .inl ⟨some frzSide, rfl⟩
        · split
          · exact .inl ⟨some frzScales, rfl⟩
          · next hready =>
            refine .inr (.inr ⟨p, rest, _, ?_, hw, by simpa using hready, rfl⟩)
            split
            · exact .inl rfl
            · exact .inr rfl

theorem Bench.swap_replays (b : Bench) : b.swap.replays = b.replays := by
  unfold Bench.swap
  dsimp only
  split <;> rfl

/-- A bench that tries to start a pass keeps its count of replays. -/
theorem Bench.tryStart_replays (b : Bench) (f : Face) (c : CutRun) : (b.tryStart f c).replays = b.replays := by
  rcases b.tryStart_inv f c with ⟨fr, h⟩ | ⟨k, rest, h⟩ | ⟨p, rest, y, hy, -, -, h⟩
  · rw [h]
  · rw [h]
    rfl
  · rw [h]
    rcases hy with rfl | rfl
    · rfl
    · exact b.swap_replays

theorem State.tryStart_replays (s : State) (n b : Nat) :
    ((s.tryStart n b).bench n b).replays = (s.bench n b).replays := by
  rcases s.tryStart_bench n b with h | ⟨e, -, h⟩
  · rw [h]
  · rw [h, Bench.tryStart_replays]

/-- A bench between two passes begins none while its next pass has no scales, or where it has no work. -/
theorem Bench.tryStart_waits {b : Bench} (hcur : b.cur = none) {c : CutRun}
    (h : ∀ p rest, b.work = p :: rest → b.scalesReady (c.passTypes p) = false) (f : Face) :
    (b.tryStart f c).cur = none := by
  rcases b.tryStart_inv f c with ⟨fr, hb⟩ | ⟨k, rest, hb⟩ | ⟨p, rest, y, -, hw, hready, -⟩
  · rw [hb]
    exact hcur
  · rw [hb]
    exact hcur
  · rw [h p rest hw] at hready
    cases hready

end Sys2Proof.Machine
end

section
/-! The boundary of a pass (R79, R81, R82, R182). -/

namespace Sys2Proof.Machine

theorem exec_passBoundary (n : Fin 72) (b : Fin 4) (shared : List (List Nat)) (errors : List PassError)
    (frozen : List (Fin 6 × Nat)) (s : State) : exec (.passBoundary n b shared errors frozen) s =
      s.on (fun s => s.passBoundary n.val b.val shared errors frozen) := rfl

/-! ### What the steps of a boundary leave -/

/-- The cycles that held a bench count on its face alone. -/
theorem State.addFrozen_eq (s : State) (n b : Nat) (fs : List (Fin 6 × Nat)) :
    s.addFrozen n b fs = { s with faces := (s.addFrozen n b fs).faces } :=
  List.foldlRecOn (motive := fun t : State => t = { s with faces := t.faces }) fs _ rfl fun t ht _ _ => by
    rw [ht]
    rfl

theorem State.addFrozen_benches (s : State) (n b : Nat) (fs : List (Fin 6 × Nat)) :
    (s.addFrozen n b fs).benches = s.benches := by
  rw [State.addFrozen_eq]

theorem State.addFrozen_face_other (s : State) {n m : Nat} (b : Nat) (fs : List (Fin 6 × Nat)) (h : m ≠ n) :
    (s.addFrozen n b fs).face m = s.face m :=
  List.foldlRecOn (motive := fun t : State => t.face m = s.face m) fs _ rfl fun t ht _ _ =>
    (t.face_modFace_other n m _ h).trans ht

theorem State.addFrozen_unchk (s : State) (n b : Nat) (fs : List (Fin 6 × Nat)) :
    ((s.addFrozen n b fs).face n).unchk = (s.face n).unchk :=
  List.foldlRecOn (motive := fun t : State => (t.face n).unchk = (s.face n).unchk) fs _ rfl fun t ht _ _ => by
    rw [State.face_modFace]
    exact ht

/-- A bench that gives way keeps its shadow. -/
theorem State.yieldBench_shadow (s : State) (n b : Nat) :
    ((s.yieldBench n b).bench n b).shadow = (s.bench n b).shadow := by
  unfold State.yieldBench
  split
  · split
    · rw [State.bench_modBench]
    · rfl
  · rfl

theorem State.yieldBench_other (s : State) {n b m c : Nat} (h : m * 4 + c ≠ n * 4 + b) :
    (s.yieldBench n b).bench m c = s.bench m c := by
  unfold State.yieldBench
  split
  · split
    · exact s.bench_modBench_other n b m c _ h
    · rfl
  · rfl

/-- A bench whose work is done has nothing to give up. -/
theorem State.yieldBench_idle {s : State} {n b : Nat} (h : (s.bench n b).work = []) : s.yieldBench n b = s := by
  unfold State.yieldBench
  split
  · rw [if_neg (by simp [h])]
  · rfl

/-! ### The pass moves to the shadow -/

/-- The bench whose pass has moved to its shadow. -/
def Bench.passEnds (x : Bench) (sh : Shadow) : Bench :=
  { x with shadow := some sh, cur := none, taken := false, preamble := [], sigma := [], pockets := [], group := 0,
           pocket := 0, span := false, replays := if sh.unchecked then 0 else x.replays }

/-- The state in which an unchecked pass has counted in UNCHK (R85, R434). -/
def State.countUnchk (s : State) (n b : Nat) (sh : Shadow) : State :=
  if sh.unchecked then s.modFace n (fun f => { f with unchk := Tab.update 0 f.unchk b (fun v => satAdd 32 v 1) }) else s

/-- The state in which a pass has moved to the shadow of its bench, before its bench goes on. -/
def State.passMoved (s : State) (n b e : Nat) (p : PassId) (sh : Shadow) (frozen : List (Fin 6 × Nat)) : State :=
  (((((s.countUnchk n b sh).newDrain n b e).modBench n b (fun y => y.passEnds sh)).markHoists e n b).sentTiles e
    ((s.cut e).passStream p)).addFrozen n b frozen

section
variable {s : State} {n b e : Nat} {p : PassId} (hc : (s.bench n b).cut = some e) (hp : (s.bench n b).cur = some p)
include hc hp

/-- With the shadow still held the bench freezes as shadow busy (R81). -/
theorem State.passBoundary_busy (hst : (s.bench n b).stopped = false) (hr : (s.cut e).phase = .running)
    (hsh : (s.bench n b).shadow.isSome = true) (shared : List (List Nat)) (errors : List PassError)
    (frozen : List (Fin 6 × Nat)) : s.passBoundary n b shared errors frozen =
      (s.addFrozen n b frozen).modBench n b (fun y => { y with frozen := some frzShadow }) := by
  unfold State.passBoundary
  simp [hc, hp, hst, hr, hsh]

/-- With the shadow free and no fault armed the pass moves there, and the bench goes on. -/
theorem State.passBoundary_moves (hst : (s.bench n b).stopped = false) (hr : (s.cut e).phase = .running)
    (hsh : (s.bench n b).shadow = none) (ha : s.monitor.armed = []) (shared : List (List Nat))
    (frozen : List (Fin 6 × Nat)) :
    let x := s.bench n b
    let d := x.passData (s.cut e) p shared
    let acc := d.pockets x.pockets (cursorTerms d.types x.group x.pocket) (fun _ => 4096)
    let sh := makeShadow e p d acc x.chk x.active.wide x.span false []
    s.passBoundary n b shared [] frozen =
      ((((s.passMoved n b e p sh frozen).yieldBench n b).tryStart n b).showEcon n b) := by
  intro x d acc sh
  have hinj : injected s.monitor.armed n b shared.length s.fresh = [] := by
    rw [ha]
    rfl
  unfold State.passBoundary
  simp only [hc, hp]
  rw [if_neg (by simp [hst, hr]), if_neg (by simp [hsh])]
  simp only [hinj, List.isEmpty_nil, Bool.or_true, if_true]
  rfl

theorem State.passBoundary_none (h : (s.bench n b).stopped = true ∨ (s.cut e).phase ≠ .running)
    (shared : List (List Nat)) (errors : List PassError) (frozen : List (Fin 6 × Nat)) :
    s.passBoundary n b shared errors frozen = s := by
  have hno : ((s.bench n b).stopped || !((s.cut e).phase == .running)) = true := by
    rcases h with h | h <;> simp [h]
  unfold State.passBoundary
  simp only [hc, hp]
  rw [if_pos hno]

end

theorem State.countUnchk_benches (s : State) (n b : Nat) (sh : Shadow) : (s.countUnchk n b sh).benches = s.benches := by
  unfold State.countUnchk
  split <;> rfl

theorem State.newDrain_benches (s : State) (n b e : Nat) : (s.newDrain n b e).benches = s.benches := by
  unfold State.newDrain
  split <;> rfl

theorem State.newDrain_faces (s : State) (n b e : Nat) : (s.newDrain n b e).faces = s.faces := by
  unfold State.newDrain
  split <;> rfl

/-- The move of a pass changes its bench, and marks its streams; the faces stay. -/
theorem State.endPass_parts (u : State) (n b e : Nat) (f : Bench → Bench) (stream : Option TileStream) :
    let t := ((u.modBench n b f).markHoists e n b).sentTiles e stream
    t.benches = (u.modBench n b f).benches ∧ t.faces = u.faces := ⟨rfl, rfl⟩

theorem State.passMoved_benches (s : State) (n b e : Nat) (p : PassId) (sh : Shadow) (frozen : List (Fin 6 × Nat)) :
    (s.passMoved n b e p sh frozen).benches = (s.modBench n b (fun y => y.passEnds sh)).benches := by
  have hb : ((s.countUnchk n b sh).newDrain n b e).benches = s.benches :=
    (State.newDrain_benches _ n b e).trans (s.countUnchk_benches n b sh)
  rw [State.passMoved, State.addFrozen_benches, (State.endPass_parts _ n b e _ _).1, State.modBench, hb]
  rfl

theorem State.passMoved_bench (s : State) (n b e : Nat) (p : PassId) (sh : Shadow) (frozen : List (Fin 6 × Nat)) :
    (s.passMoved n b e p sh frozen).bench n b = (s.bench n b).passEnds sh := by
  rw [State.bench_congr (s.passMoved_benches n b e p sh frozen), State.bench_modBench]

/-- An unchecked pass counts in UNCHK. -/
theorem State.passMoved_unchk (s : State) (n b e : Nat) (p : PassId) (sh : Shadow) (frozen : List (Fin 6 × Nat)) :
    ((s.passMoved n b e p sh frozen).face n).unchk = if sh.unchecked then
      Tab.update 0 (s.face n).unchk b (fun v => min (v + 1) (2 ^ 32 - 1)) else (s.face n).unchk := by
  rw [State.passMoved, State.addFrozen_unchk, State.face_congr (State.endPass_parts _ n b e _ _).2,
    State.face_congr (State.newDrain_faces _ n b e)]
  unfold State.countUnchk
  split
  · rw [State.face_modFace]
    rfl
  · rfl

section
variable (s : State) (n b e : Nat) (p : PassId) (sh : Shadow) (frozen : List (Fin 6 × Nat))

/-- The state after a boundary at which the pass has moved to its shadow. -/
def State.passDone : State :=
  ((((s.passMoved n b e p sh frozen).yieldBench n b).tryStart n b).showEcon n b)

theorem State.passDone_shadow : ((s.passDone n b e p sh frozen).bench n b).shadow = some sh := by
  rw [State.passDone, State.bench_congr (State.showEcon_benches _ n b), State.tryStart_shadow,
    State.yieldBench_shadow, State.passMoved_bench]
  rfl

theorem State.passDone_unchk : ((s.passDone n b e p sh frozen).face n).unchk = if sh.unchecked then
      Tab.update 0 (s.face n).unchk b (fun v => min (v + 1) (2 ^ 32 - 1)) else (s.face n).unchk := by
  have hy : ((s.passMoved n b e p sh frozen).yieldBench n b).faces = (s.passMoved n b e p sh frozen).faces :=
    (State.yieldBench_same (Sub.refl _) (Same.refl _ _) n b).part .faces (by decide)
  rw [State.passDone, State.showEcon_unchk, State.tryStart_unchk, State.face_congr hy, State.passMoved_unchk]

/-- A bench whose work is done has no pass in progress after its last boundary. -/
theorem State.passDone_cur (hw : (s.bench n b).work = []) : ((s.passDone n b e p sh frozen).bench n b).cur = none := by
  have hb := s.passMoved_bench n b e p sh frozen
  have hwork : ((s.passMoved n b e p sh frozen).bench n b).work = [] := by
    rw [hb]
    exact hw
  have hcur : ((s.passMoved n b e p sh frozen).bench n b).cur = none := by
    rw [hb]
    rfl
  rw [State.passDone, State.bench_congr (State.showEcon_benches _ n b), State.yieldBench_idle hwork]
  rcases State.tryStart_bench (s.passMoved n b e p sh frozen) n b with h | ⟨k, -, h⟩
  · rw [h, hcur]
  · rw [h]
    exact Bench.tryStart_waits hcur (fun q rest hq => by rw [hwork] at hq; cases hq) _

theorem State.passDone_bench_other {m c : Nat} (h : m * 4 + c ≠ n * 4 + b) :
    (s.passDone n b e p sh frozen).bench m c = s.bench m c := by
  rw [State.passDone, State.bench_congr (State.showEcon_benches _ n b), State.tryStart_bench_other _ h,
    State.yieldBench_other _ h, State.bench_congr (s.passMoved_benches n b e p sh frozen),
    State.bench_modBench_other _ _ _ _ _ _ h]

end

end Sys2Proof.Machine
end

section
/-! Context save and restore (R92 to R94, R376, R380). -/

namespace Sys2Proof

theorem mem_of_mem_nub {x : Nat} {xs : List Nat} (h : x ∈ nub xs) : x ∈ xs := by
  induction xs with
  | nil => exact h
  | cons y ys ih =>
    rw [nub] at h
    split at h
    · exact List.mem_cons_of_mem _ (ih h)
    · rcases List.mem_cons.mp h with rfl | h
      · exact List.mem_cons_self
      · exact List.mem_cons_of_mem _ (ih h)

theorem mem_of_mem_distinct {x : Nat} {xs : List Nat} (h : x ∈ distinct xs) : x ∈ xs :=
  List.mem_reverse.mp (mem_of_mem_nub (List.mem_reverse.mp h))

/-- Clearing a range leaves every byte outside it. -/
theorem Mem.read_clear_other (m : Mem) {a n b : Nat} (h : b < a ∨ a + n ≤ b) :
    Mem.read (Mem.clear m a n) b = Mem.read m b := by
  unfold Mem.clear Mem.read
  induction m with
  | nil => rfl
  | cons x m ih =>
    obtain ⟨i, v⟩ := x
    by_cases hi : b = i
    · subst hi
      have hkeep : (decide (b < a) || decide (a + n ≤ b)) = true := by simpa using h
      simp [hkeep, Tab.get]
    · rw [List.filter_cons]
      split
      · simp only [Tab.get, hi, if_false]
        exact ih
      · simp only [Tab.get, hi, if_false]
        exact ih

namespace Machine

theorem exec_contextSaveDone (n : Fin 72) (b : Fin 4) (shared : List (List Nat)) (group pocket : Nat) (s : State) :
    exec (.contextSaveDone n b shared group pocket) s =
      s.on (fun s => s.contextSave n.val b.val shared group pocket) := rfl

theorem exec_contextRestoreDone (n : Fin 72) (b : Fin 4) (active idle : StatLoad) (pre : List (List Nat)) (s : State) :
    exec (.contextRestoreDone n b active idle pre) s =
      s.on (fun s => s.contextRestore n.val b.val active idle pre) := rfl

/-! ### A context record lies in its slot (R93) -/

theorem ctxHeader_length (e w group pocket : Nat) (p : PassId) (x : Bench) :
    (ctxHeader e w group pocket p x).length = 19 := by
  simp [ctxHeader]

/-- Every part of the record of a bench of at most 16 pockets a lane ends in the slot. -/
theorem ctxParts_fit {x : Bench} {hdr : List Byte} (hh : hdr.length ≤ 64) (hx : ∀ q ∈ x.pockets, q.1 < 8192)
    {part : Nat × List Byte} (h : part ∈ ctxParts x hdr) : part.1 + part.2.length ≤ ctxSlot := by
  have hlane : ∀ l ∈ distinct (List.map (fun q : Nat × Pocket => q.1 % 512) x.pockets), l < 512 := fun l hl => by
    obtain ⟨q, -, rfl⟩ := List.mem_map.mp (mem_of_mem_distinct hl)
    exact Nat.mod_lt _ (by decide)
  have hpocket : ∀ j ∈ distinct (List.map (fun q : Nat × Pocket => q.1 / 512) x.pockets), j < 16 := fun j hj => by
    obtain ⟨q, hq, rfl⟩ := List.mem_map.mp (mem_of_mem_distinct hj)
    have := hx q hq
    omega
  unfold ctxSlot
  simp only [ctxParts, List.mem_cons, List.mem_append, List.mem_map] at h
  rcases h with rfl | ((((⟨q, hq, rfl⟩ | ⟨l, hl, rfl⟩) | hrow) | ⟨j, hj, rfl⟩) | ⟨j, hj, rfl⟩)
  · show 0 + hdr.length ≤ 131072
    omega
  · have := hx q hq
    simp only [intLe, natLe_length]
    omega
  · have := hlane l hl
    simp only [natLe_length]
    omega
  · split at hrow
    · obtain ⟨l, hl, rfl⟩ := List.mem_map.mp hrow
      have := hlane l hl
      simp only [intLe, natLe_length]
      omega
    · cases hrow
  · have := hpocket j hj
    simp only [intLe, natLe_length]
    omega
  · have := hpocket j hj
    simp only [intLe, natLe_length]
    omega

/-- A context record leaves every byte outside its slot. -/
theorem putContext_read_other (m : Mem) {a b : Nat} {parts : List (Nat × List Byte)}
    (hp : ∀ part ∈ parts, part.1 + part.2.length ≤ ctxSlot) (h : b < a ∨ a + ctxSlot ≤ b) :
    Mem.read (putContext m a parts) b = Mem.read m b :=
  List.foldlRecOn (motive := fun m' => Mem.read m' b = Mem.read m b) parts _ (Mem.read_clear_other m h)
    fun m' hm part hpart => by
      have hfit := hp part hpart
      rw [Mem.read_writeBytes_other _ _ _ _ (by omega), hm]

/-- The pockets of a pass of at most 16 pockets in 512 lanes. -/
theorem PassData.pockets_key_lt {d : PassData} (hj : d.shared.length ≤ 16) (hl : d.load.lanes.length ≤ 512)
    (held : Tab Pocket) (skip upto : Nat → Nat) {q : Nat × Accum} (hq : q ∈ d.pockets held skip upto) :
    q.1 < 8192 := by
  simp only [PassData.pockets, List.mem_flatten, List.mem_map, List.mem_range] at hq
  obtain ⟨_, ⟨j, hj', rfl⟩, hq⟩ := hq
  obtain ⟨l, hl', rfl⟩ := List.mem_map.mp hq
  have := List.mem_range.mp hl'
  show j * 512 + l < 8192
  omega

/-! ### CONTEXT_SAVE_DONE -/

/-- A stopped bench whose pass in progress is saved at a cursor. -/
def Bench.savedAt (x : Bench) (c : CutRun) (p : PassId) (shared : List (List Nat)) (group pocket : Nat) : Bench :=
  let d := x.passData c p shared
  let acc := d.pockets x.pockets (cursorTerms d.types x.group x.pocket) (cursorTerms d.types group pocket)
  { x with pockets := acc.map (fun q => (q.1, q.2.p)), group := group, pocket := pocket,
           span := x.span || acc.any (fun q => q.2.lost), saved := some p, cur := none }

/-- The bench after the save: the scale codes of its pass are gone. -/
def Bench.emptied (x : Bench) : Bench := { x with preamble := [], sigma := [] }

/-- The yard with the context of a bench in its slot, where the working has one. -/
def State.savedYard (s : State) (n b e : Nat) (p : PassId) (y : Bench) : Yard :=
  let w := (s.cut e).desc.working
  match s.ctxAddr w n b with
  | some a => { s.yard with
      mem := putContext s.yard.mem a (ctxParts y (ctxHeader e w y.group y.pocket p y))
      poison := freshWords s.yard.poison a ctxSlot }
  | none => s.yard

theorem State.savedYard_none {s : State} {n b e : Nat} (p : PassId) (y : Bench)
    (ha : s.ctxAddr (s.cut e).desc.working n b = none) : s.savedYard n b e p y = s.yard := by
  simp [State.savedYard, ha]

theorem State.savedYard_mem {s : State} {n b e a : Nat} (p : PassId) (y : Bench)
    (ha : s.ctxAddr (s.cut e).desc.working n b = some a) : (s.savedYard n b e p y).mem =
      putContext s.yard.mem a (ctxParts y (ctxHeader e (s.cut e).desc.working y.group y.pocket p y)) := by
  simp [State.savedYard, ha]

section
variable {s : State} {n b e : Nat} {p : PassId} (hc : (s.bench n b).cut = some e) (hp : (s.bench n b).cur = some p)
  (hst : (s.bench n b).stopped = true)
include hc hp hst

theorem State.contextSave_eq (shared : List (List Nat)) (group pocket : Nat) :
    s.contextSave n b shared group pocket = (s.contextWrite n b shared group pocket).settle n := by
  simp [State.contextSave, hc, hp, hst]

/-- A context that is saved changes its bench and the yard. -/
theorem State.contextWrite_eq (shared : List (List Nat)) (group pocket : Nat) :
    let y := (s.bench n b).savedAt (s.cut e) p shared group pocket
    s.contextWrite n b shared group pocket =
      { s.modBench n b (fun _ => y.emptied) with yard := s.savedYard n b e p y } := by
  intro y
  unfold State.contextWrite
  extract_lets x
  split
  · next hc' hp' =>
    cases hc.symm.trans hc'
    cases hp.symm.trans hp'
    have hgo : ¬ (!x.stopped) = true := by simp [x, hst]
    rw [if_neg hgo]
    unfold State.savedYard
    dsimp only
    cases s.ctxAddr (s.cut e).desc.working n b <;> rfl
  · next h => exact absurd hp (h _ _ hc)

theorem State.contextWrite_benches (shared : List (List Nat)) (group pocket : Nat) :
    (s.contextWrite n b shared group pocket).benches =
      (s.modBench n b (fun _ => ((s.bench n b).savedAt (s.cut e) p shared group pocket).emptied)).benches := by
  rw [State.contextWrite_eq hc hp hst]

theorem State.contextWrite_bench (shared : List (List Nat)) (group pocket : Nat) :
    (s.contextWrite n b shared group pocket).bench n b =
      ((s.bench n b).savedAt (s.cut e) p shared group pocket).emptied := by
  rw [State.bench_congr (State.contextWrite_benches hc hp hst shared group pocket), State.bench_modBench]

theorem State.contextWrite_bench_other (shared : List (List Nat)) (group pocket : Nat) {m c : Nat}
    (h : m * 4 + c ≠ n * 4 + b) : (s.contextWrite n b shared group pocket).bench m c = s.bench m c := by
  rw [State.bench_congr (State.contextWrite_benches hc hp hst shared group pocket),
    State.bench_modBench_other s n b m c _ h]

/-- A context that is saved leaves the yard outside its slot. -/
theorem State.contextWrite_yard {shared : List (List Nat)} (hj : shared.length ≤ 16)
    (hl : (s.bench n b).active.load.lanes.length ≤ 512) (group pocket : Nat) {a : Nat}
    (ha : s.ctxAddr (s.cut e).desc.working n b = some a) :
    SameYardOutside s (s.contextWrite n b shared group pocket) a 131072 := by
  intro i hi
  rw [State.contextWrite_eq hc hp hst]
  refine (congrArg (Mem.read · i) (State.savedYard_mem p _ ha)).trans (putContext_read_other _ (fun part hpart =>
    ctxParts_fit (by rw [ctxHeader_length]; decide) (fun q hq => ?_) hpart) hi)
  obtain ⟨r, hr, rfl⟩ := List.mem_map.mp hq
  exact PassData.pockets_key_lt (d := (s.bench n b).passData (s.cut e) p shared) hj hl _ _ _ hr

end

/-- No work is adopted from a face in place. -/
theorem State.settle_idle {s : State} {n : Nat} (h : s.faceGone n = false) : s.settle n = s := by
  simp [State.settle, State.adopted, h]

/-! ### CONTEXT_RESTORE_DONE -/

/-- A feeder side that holds a saved load again under its tag. -/
def restoredSide (c : CutRun) (p : PassId) (tag : Option Nat) (load : StatLoad) : FeederSide :=
  { tag := tag, full := tag.isSome, held := false, wide := loadWide (c.passTypes p).2 c.across load, load := load }

theorem State.contextRestore_eq {s : State} {n b e : Nat} {p : PassId} (hc : (s.bench n b).cut = some e)
    (hp : (s.bench n b).saved = some p) (hr : (s.cut e).phase = .running) (active idle : StatLoad)
    (pre : List (List Nat)) : s.contextRestore n b active idle pre = s.modBench n b (fun y => { y with
      activeB := false, feedA := restoredSide (s.cut e) p y.savedTags.1 active
      feedB := restoredSide (s.cut e) p y.savedTags.2 idle
      preamble := pre, sigma := sigmas (s.cut e).across active pre, cur := some p, saved := none
      stopped := false, taken := true, frozen := none, nextPre := none, nextSigma := [] }) := by
  unfold State.contextRestore
  simp only [hc, hp]
  rw [if_pos hr]
  rfl

theorem State.contextRestore_none {s : State} {n b e : Nat} (hc : (s.bench n b).cut = some e)
    (h : (s.bench n b).saved = none ∨ (s.cut e).phase ≠ .running) (active idle : StatLoad) (pre : List (List Nat)) :
    s.contextRestore n b active idle pre = s := by
  unfold State.contextRestore
  simp only [hc]
  rcases h with h | h
  · simp only [h]
  · split
    · next e' p he hp =>
      cases he
      rw [if_neg h]
    · rfl

/-! ### O31: pass boundaries, context saves and restores -/

/-- Settles O31: a boundary freezes its bench or moves its pass to the shadow; a save writes into the bench's slot; a
restore is one change of the bench. -/
theorem passBoundaries : Obligations.PassBoundaries := by
  unfold Obligations.PassBoundaries
  refine ⟨fun s n b e p shared frozen hs hc hp => ?_, fun s n b e p hs hc => ?_⟩
  · intro x d acc sh
    refine ⟨fun hst hr hsh => ?busy, fun hst hr hsh ha => ?moves, fun h => ?none⟩
    case busy =>
      refine Leads.effect hs (exec_passBoundary ..) (State.passBoundary_busy hc hp hst hr hsh shared [] frozen)
        ⟨?_, ?_, ?_, ?_, ?_⟩
      · rw [State.addFrozen_eq]
        rfl
      · rw [State.bench_modBench, State.addFrozen_eq]
        rfl
      · rintro rfl m
        rfl
      · exact fun m hm => State.addFrozen_face_other s b.val frozen hm
      · intro m c hmc
        rw [State.bench_modBench_other _ _ _ _ _ _ (benchKey_ne hmc), State.addFrozen_eq]
        rfl
    case moves =>
      have hframe := State.passBoundary_same (Sub.refl _) (Same.refl _ s) n.val b.val shared [] frozen
      have hmoves := State.passBoundary_moves hc hp hst hr hsh ha shared frozen
      refine Leads.effect hs (exec_passBoundary ..) rfl ⟨?_, Iff.rfl, rfl, ?_, fun hw => ?_,
        hframe.part .yard (by decide), hframe.part .tallies (by decide), hframe.part .log (by decide),
        hframe.part .spare (by decide), fun m c hmc => ?_⟩
      all_goals rw [hmoves]
      · exact State.passDone_shadow ..
      · exact State.passDone_unchk ..
      · exact State.passDone_cur _ _ _ _ _ _ _ hw
      · exact State.passDone_bench_other _ _ _ _ _ _ _ (benchKey_ne hmc)
    case none =>
      exact Ignored.effect hs (exec_passBoundary ..) (State.passBoundary_none hc hp h shared [] frozen)
  · intro x
    refine ⟨fun shared group pocket hp hst hj hl => ?save, fun shared group pocket h => ?unsaved,
      fun active idle pre hp hr => ?restore, fun active idle pre h => ?unrestored⟩
    case save =>
      have ht := State.contextWrite_eq hc hp hst shared group pocket
      have hgone : (s.contextWrite n.val b.val shared group pocket).faceGone n.val = s.faceGone n.val := by
        rw [ht]
        rfl
      refine Leads.effect hs (exec_contextSaveDone ..) (State.contextSave_eq hc hp hst shared group pocket)
        ⟨_, rfl, fun h => State.settle_idle (hgone.trans h), ?_⟩
      rw [State.contextWrite_bench hc hp hst]
      refine ⟨by rw [ht]; rfl, rfl, rfl, rfl, rfl, hst, fun ha => ?_,
        fun a ha => State.contextWrite_yard hc hp hst hj hl group pocket ha,
        fun m c hmc => State.contextWrite_bench_other hc hp hst shared group pocket (benchKey_ne hmc)⟩
      rw [ht]
      exact State.savedYard_none p _ ha
    case unsaved =>
      refine Ignored.effect hs (exec_contextSaveDone ..) (if_neg ?_)
      rcases h with h | h <;> simp [x] at h <;> simp [h]
    case restore =>
      refine Leads.effect hs (exec_contextRestoreDone ..)
        (State.contextRestore_eq hc hp hr active idle pre) ⟨rfl, ?_⟩
      rw [State.bench_modBench]
      exact ⟨rfl, rfl, rfl, rfl, rfl, rfl, rfl, rfl, rfl, rfl, rfl⟩
    case unrestored =>
      exact Ignored.effect hs (exec_contextRestoreDone ..) (State.contextRestore_none hc h active idle pre)

end Machine
end Sys2Proof
end

section
/-! The end of a check: a pass that passes, a lane that is located, a bench that is retired (R77, R83 to R89). -/

namespace Sys2Proof

theorem bit_setBit (n i : Nat) : bit (setBit n i) i = true := by
  unfold setBit
  split
  · assumption
  · next h =>
    have hdiv : (n + 2 ^ i) / 2 ^ i = n / 2 ^ i + 1 := Nat.add_div_right n (Nat.two_pow_pos i)
    have hclear : ¬ n / 2 ^ i % 2 = 1 := by simpa [bit, Nat.shiftRight_eq_div_pow] using h
    have hset : (n / 2 ^ i + 1) % 2 = 1 := by omega
    simp [bit, Nat.shiftRight_eq_div_pow, hdiv, hset]

namespace Machine

theorem exec_checkEnd (n : Fin 72) (b : Fin 4) (s : State) :
    exec (.checkEnd n b) s = s.on (fun s => s.checkEnd n.val b.val) := rfl

/-! ### What CHECK_END comes to -/

/-- A bench whose pass has passed its check: the shadow may fold, and the sides that it held are free (R77, R79). -/
def Bench.passes (y : Bench) (sh : Shadow) : Bench :=
  { y with shadow := some { sh with cleared := true }, replays := 0
           feedA := { y.feedA with held := false }, feedB := { y.feedB with held := false } }

theorem State.checkEnd_none {s : State} {n b : Nat} (h : (s.bench n b).shadow = none) : s.checkEnd n b = s := by
  simp [State.checkEnd, h]

section
variable {s : State} {n b : Nat} {sh : Shadow} (hsh : (s.bench n b).shadow = some sh)
include hsh

theorem State.checkEnd_cleared (hc : sh.cleared = true) : s.checkEnd n b = s := by
  simp [State.checkEnd, hsh, hc]

variable (hc : sh.cleared = false)
include hc

theorem State.checkEnd_pass (h : sh.check (s.freeLanes n (s.physBench n b)) = .pass) :
    s.checkEnd n b = s.modBench n b (fun y => y.passes sh) := by
  simp only [State.checkEnd, hsh, hc, h]
  rfl

/-- A lane that is located, with a replay and a spare lane left, is moved, and its pass replays. -/
theorem State.checkEnd_located {l : Nat} (h : sh.check (s.freeLanes n (s.physBench n b)) = .located [l])
    (hr : (s.bench n b).replays < sh.chk.replays) (hf : 0 < s.freeLanes n (s.physBench n b)) :
    s.checkEnd n b = s.remapReplay n b sh.cut [l] (if sh.injected then fromInject else 0) := by
  have hlanes : ¬ s.freeLanes n (s.physBench n b) < [l].length := Nat.not_lt.mpr hf
  simp only [State.checkEnd, hsh, hc, h, Nat.not_le.mpr hr, hlanes]
  rfl

/-- An error that no lane explains retires the bench. -/
theorem State.checkEnd_unlocated (h : sh.check (s.freeLanes n (s.physBench n b)) = .unlocated) :
    ∃ cause fl, s.checkEnd n b = s.failBench n b sh.cut cause fl := by
  simp only [State.checkEnd, hsh, hc, h]
  rw [if_neg Bool.false_ne_true]
  split
  · exact ⟨_, _, rfl⟩
  · exact ⟨_, _, rfl⟩

end

/-! ### A lane moves to a spare lane, and the pass replays (R88) -/

theorem State.physLane_congr {s t : State} (h : t.spare = s.spare) (n phys l : Nat) :
    t.physLane n phys l = s.physLane n phys l := by
  rw [State.physLane, h]
  rfl

theorem State.freeLanes_congr {s t : State} (h : t.spare = s.spare) (n phys : Nat) :
    t.freeLanes n phys = s.freeLanes n phys := by
  rw [State.freeLanes, h]
  rfl

/-- A lane that moves is found on the lowest spare lane that was free. -/
theorem State.remapLane_physLane (s : State) (n phys l fl : Nat) :
    (s.remapLane n phys l fl).physLane n phys l = 512 + Tab.get 0 s.spare.laneUsed (n * 5 + phys) :=
  Tab.get_set_same ..

/-- A lane that moves takes one of the spare lanes. -/
theorem State.remapLane_freeLanes (s : State) (n phys l fl : Nat) :
    (s.remapLane n phys l fl).freeLanes n phys = s.freeLanes n phys - 1 := by
  have h : Tab.get 0 (s.remapLane n phys l fl).spare.laneUsed (n * 5 + phys) =
      Tab.get 0 s.spare.laneUsed (n * 5 + phys) + 1 := Tab.get_set_same ..
  rw [State.freeLanes, h, Nat.sub_add_eq]
  rfl

theorem State.remapLane_flagged (s : State) (n phys l fl : Nat) :
    (s.remapLane n phys l fl).flagged (BitVec.ofNat 32 (2 ^ evRetire)) :=
  State.setEvt_flagged (State.modSpare s _) evRetire

/-- The state in which a located lane has moved and counted, for the face and for the health model (R88, R385). -/
def State.laneMoved (s : State) (n b l fl : Nat) : State :=
  ((s.remapLane n (s.physBench n b) l fl).modFace n (fun f =>
    { f with reloc := Tab.update 0 f.reloc b (fun v => satAdd 16 v 1) })).healthEvent 1 1

theorem State.laneMoved_same (s : State) (n b l fl : Nat) :
    Same (partMask [.glb, .faces, .spare, .health, .log]) s (s.laneMoved n b l fl) :=
  State.healthEvent_same ⟨by decide⟩ (State.modFace_same ⟨by decide⟩
    (State.remapLane_same ⟨by decide⟩ (Same.refl _ s) _ _ _ _) _ _) 1 1

theorem State.laneMoved_spare (s : State) (n b l fl : Nat) :
    (s.laneMoved n b l fl).spare = (s.remapLane n (s.physBench n b) l fl).spare :=
  (State.healthEvent_same (Sub.refl _) (Same.refl _ _) 1 1).part .spare (by decide)

/-- The bench that goes back to the pass that failed, once more replayed. -/
def Bench.replayed (x : Bench) : Bench := { x.goBack with replays := x.replays + 1 }

theorem Bench.goBack_shadow (x : Bench) : x.goBack.shadow = none := by
  unfold Bench.goBack
  split
  · rfl
  · assumption

/-- The state in which the failed pass is to replay, before its bench starts it. -/
def State.replaySet (s : State) (n b e l fl : Nat) : State :=
  (((s.laneMoved n b l fl).modBench n b Bench.replayed).orFlags e (flag 11)).addReplays e 1

theorem State.remapReplay_eq (s : State) (n b e l fl : Nat) :
    s.remapReplay n b e [l] fl = (s.replaySet n b e l fl).tryStart n b := rfl

section
variable (s : State) (n b e l fl : Nat)

/-- What the replay of a pass changes beside the lane that has moved. -/
theorem State.remapReplay_changes :
    Same (partMask [.faces, .benches, .kilns, .fabric, .cuts]) (s.laneMoved n b l fl) (s.remapReplay n b e [l] fl) :=
  State.tryStart_same ⟨by decide⟩ (State.addReplays_same ⟨by decide⟩ (State.orFlags_same ⟨by decide⟩
    (State.modBench_same ⟨by decide⟩ (Same.refl _ _) n b _) e _) e 1) n b

theorem State.remapReplay_spare :
    (s.remapReplay n b e [l] fl).spare = (s.remapLane n (s.physBench n b) l fl).spare :=
  ((s.remapReplay_changes n b e l fl).part .spare (by decide)).trans (s.laneMoved_spare n b l fl)

theorem State.replaySet_bench : (s.replaySet n b e l fl).bench n b = (s.bench n b).replayed := by
  have h : (s.replaySet n b e l fl).benches = ((s.laneMoved n b l fl).modBench n b Bench.replayed).benches :=
    (State.addReplays_same (M := partMask [.cuts]) ⟨by decide⟩
      (State.orFlags_same ⟨by decide⟩ (Same.refl _ _) e _) e 1).part .benches (by decide)
  rw [State.bench_congr h, State.bench_modBench,
    State.bench_congr ((s.laneMoved_same n b l fl).part .benches (by decide))]

theorem State.remapReplay_shadow : ((s.remapReplay n b e [l] fl).bench n b).shadow = none := by
  rw [State.remapReplay_eq, State.tryStart_shadow, State.replaySet_bench]
  exact Bench.goBack_shadow _

theorem State.remapReplay_benchReplays :
    ((s.remapReplay n b e [l] fl).bench n b).replays = (s.bench n b).replays + 1 := by
  rw [State.remapReplay_eq, State.tryStart_replays, State.replaySet_bench]
  rfl

theorem State.remapReplay_cutReplays :
    ((s.remapReplay n b e [l] fl).cut e).replays = min ((s.cut e).replays + 1) 65535 := by
  have hstart : ((s.remapReplay n b e [l] fl).cut e).replays = ((s.replaySet n b e l fl).cut e).replays :=
    (FramesKept.tryStart (s.replaySet n b e l fl) n b).replays e
  have hcut : ((s.laneMoved n b l fl).modBench n b Bench.replayed).cut e = s.cut e :=
    State.cut_congr (s := s) ((s.laneMoved_same n b l fl).part .cuts (by decide)) e
  rw [hstart, State.replaySet, State.addReplays, State.cut_modCut, State.orFlags, State.cut_modCut, hcut]
  rfl

theorem State.remapReplay_flag : ((s.remapReplay n b e [l] fl).cut e).flags &&& 0x800#32 = 0x800#32 := by
  have hadd : CountsKept (((s.laneMoved n b l fl).modBench n b Bench.replayed).orFlags e (flag 11))
      (s.replaySet n b e l fl) := CountsKept.modCut _ e fun _ => ⟨rfl, rfl, fun _ h => h⟩
  obtain ⟨-, -, hflags⟩ := hadd.trans (CountsKept.tryStart (s.replaySet n b e l fl) n b) e
  exact hflags _ (State.orFlags_set _ e (flag 11))

theorem State.remapReplay_flagged : (s.remapReplay n b e [l] fl).flagged (BitVec.ofNat 32 (2 ^ evRetire)) := by
  have hmoved : (s.laneMoved n b l fl).flagged (BitVec.ofNat 32 (2 ^ evRetire)) := by
    unfold State.laneMoved
    refine State.flagged_healthEvent ?_ 1 1
    exact State.flagged_of_glb (s.remapLane_flagged n (s.physBench n b) l fl) (State.modFace_glb _ n _)
  exact State.flagged_of_glb hmoved ((s.remapReplay_changes n b e l fl).part .glb (by decide))

end

/-! ### What the retirement of a bench and of a face leaves of the cuts' flags (R89, R375 to R380) -/

theorem CountsKept.foldl {α : Type} (s : State) (xs : List α) {f : State → α → State}
    (h : ∀ t x, CountsKept t (f t x)) : CountsKept s (xs.foldl f s) :=
  List.foldlRecOn xs f (CountsKept.refl s) fun t ht x _ => ht.trans (h t x)

/-- A change of a cut's record that leaves its counts and its flags. -/
theorem CountsKept.modCut_rest (s : State) (e : Nat) {f : CutRun → CutRun}
    (hf : ∀ c : CutRun, (f c).passes = c.passes ∧ (f c).trees = c.trees ∧ (f c).flags = c.flags) :
    CountsKept s (s.modCut e f) :=
  CountsKept.modCut s e fun c => by
    obtain ⟨hpasses, htrees, hflags⟩ := hf c
    exact ⟨hpasses, htrees, fun m h => by rw [hflags, h]⟩

theorem CountsKept.addReplays (s : State) (e k : Nat) : CountsKept s (s.addReplays e k) :=
  CountsKept.modCut_rest s e fun _ => ⟨rfl, rfl, rfl⟩

theorem CountsKept.stopCut (s : State) (e code fl : Nat) : CountsKept s (s.stopCut e code fl) := by
  have hphase := CountsKept.modCut_rest s e (f := fun c => { c with phase := .stopped }) fun _ => ⟨rfl, rfl, rfl⟩
  unfold State.stopCut
  split
  · refine CountsKept.trans ?_ (CountsKept.setStatus _ e code)
    exact (hphase.trans (CountsKept.orFlags _ e (flag fl))).trans (CountsKept.of_cuts rfl)
  · exact CountsKept.refl s

theorem CountsKept.resumeCut (s : State) (e : Nat) : CountsKept s (s.resumeCut e) := by
  have hphase := CountsKept.modCut_rest s e (f := fun c => { c with phase := .running, awaiting := [] })
    fun _ => ⟨rfl, rfl, rfl⟩
  unfold State.resumeCut
  split
  · refine CountsKept.trans ?_ (CountsKept.setStatus _ e 0)
    exact hphase.trans (CountsKept.of_cuts rfl)
  · exact CountsKept.refl s

theorem CountsKept.abortPasses (s : State) (e : Nat) : CountsKept s (s.abortPasses e) := by
  unfold State.abortPasses
  extract_lets s1
  have h1 : CountsKept s s1 := CountsKept.of_cuts rfl
  exact ((h1.trans (CountsKept.addReplays s1 e _)).trans (CountsKept.orFlags _ e _)).trans
    (CountsKept.setStatus _ e 0x41)

theorem CountsKept.halt (s : State) (w cause arg : Nat) (at' : Option Nat) : CountsKept s (s.halt w cause arg at') := by
  unfold State.halt
  extract_lets s1 s2 s3
  have h1 : CountsKept s s1 := CountsKept.of_cuts rfl
  have h2 : CountsKept s s2 := by
    dsimp only [s2]
    split
    · exact (h1.trans (CountsKept.abortPasses s1 _)).trans (CountsKept.stopCut _ _ _ _)
    · exact h1
  have h3 : CountsKept s s3 := h2.trans (CountsKept.foldl s2 _ fun t e => CountsKept.stopCut t e _ _)
  clear_value s3
  exact h3.trans (CountsKept.of_cuts rfl)

theorem CountsKept.adoptBench (s : State) (e n m b : Nat) : CountsKept s (s.adoptBench e n m b) := by
  unfold State.adoptBench
  extract_lets old items again s1
  split
  · exact CountsKept.of_cuts rfl
  · exact CountsKept.trans (a := s1) (CountsKept.of_cuts rfl) (CountsKept.modCut_rest s1 e fun _ => ⟨rfl, rfl, rfl⟩)

theorem CountsKept.adoptCut (s : State) (n e : Nat) : CountsKept s (s.adoptCut n e) := by
  unfold State.adoptCut
  extract_lets d
  split
  · next m _ =>
    split
    · exact CountsKept.refl s
    · extract_lets s1 s2 fills s3
      have h1 : CountsKept s s1 := CountsKept.foldl s _ fun t b => CountsKept.adoptBench t e n m b
      have h3 : CountsKept s s3 := (h1.trans (CountsKept.orFlags s1 e (flag flReduced))).trans (CountsKept.of_cuts rfl)
      split
      · exact h3.trans (CountsKept.resumeCut s3 e)
      · exact h3
  · split
    · exact CountsKept.refl s
    · exact CountsKept.halt s _ 2 n (some e)

theorem CountsKept.adopt (s : State) (n : Nat) : CountsKept s (s.adopt n) :=
  CountsKept.foldl s _ fun t e => CountsKept.adoptCut t n e

/-- What the engine keeps when a face leaves service: the cuts' counts and flags, and which benches are retired. -/
structure FaceLeaves (s t : State) : Prop where
  /-- the counts and flags of cuts -/
  counts : CountsKept s t
  /-- the benches recorded as retired -/
  benchRet : t.spare.benchRet = s.spare.benchRet

theorem FaceLeaves.refl (s : State) : FaceLeaves s s := ⟨CountsKept.refl s, rfl⟩

theorem FaceLeaves.trans {s a t : State} (h : FaceLeaves s a) (k : FaceLeaves a t) : FaceLeaves s t :=
  ⟨h.counts.trans k.counts, k.benchRet.trans h.benchRet⟩

theorem FaceLeaves.of_spare {s t : State} (hc : CountsKept s t) (h : t.spare = s.spare) : FaceLeaves s t :=
  ⟨hc, by rw [h]⟩

theorem FaceLeaves.foldl {α : Type} (s : State) (xs : List α) {f : State → α → State}
    (h : ∀ t x, FaceLeaves t (f t x)) : FaceLeaves s (xs.foldl f s) :=
  List.foldlRecOn xs f (FaceLeaves.refl s) fun t ht x _ => ht.trans (h t x)

theorem FaceLeaves.adopt (s : State) (n : Nat) : FaceLeaves s (s.adopt n) :=
  .of_spare (CountsKept.adopt s n) ((State.adopt_same (Sub.refl _) (Same.refl _ s) n).part .spare (by decide))

theorem FaceLeaves.startFill (s : State) : FaceLeaves s s.startFill :=
  have h := State.startFill_same (Sub.refl _) (Same.refl _ s)
  .of_spare (CountsKept.of_cuts (h.part .cuts (by decide))) (h.part .spare (by decide))

theorem FaceLeaves.stopCut (s : State) (e code fl : Nat) : FaceLeaves s (s.stopCut e code fl) :=
  .of_spare (CountsKept.stopCut s e code fl)
    ((State.stopCut_same (Sub.refl _) (Same.refl _ s) e code fl).part .spare (by decide))

theorem FaceLeaves.dropFace (s : State) (n cause fl : Nat) : FaceLeaves s (s.dropFace n cause fl) := by
  unfold State.dropFace
  extract_lets cuts s1 s2 s3
  have h1 : FaceLeaves s s1 := FaceLeaves.foldl s cuts fun t e => by
    dsimp only
    split
    · refine FaceLeaves.trans ?_ ((FaceLeaves.stopCut _ e _ _).trans ⟨CountsKept.of_cuts rfl, rfl⟩)
      refine FaceLeaves.trans (a := { t with benches := _ }) ⟨CountsKept.of_cuts rfl, rfl⟩
        ⟨CountsKept.addReplays _ e _, rfl⟩
    · exact (FaceLeaves.stopCut t e _ _).trans ⟨CountsKept.of_cuts rfl, rfl⟩
  clear_value s1
  exact h1.trans ⟨CountsKept.of_cuts rfl, rfl⟩

theorem FaceLeaves.retireFace (s : State) (n cause fl : Nat) : FaceLeaves s (s.retireFace n cause fl) := by
  unfold State.retireFace
  split
  · exact FaceLeaves.refl s
  · split
    · split
      · next sp _ _ =>
        extract_lets x s1
        have hremap : FaceLeaves s (s.logRemap (unitArg 2 0 0 n) sp fl (s.ownerOf n)) :=
          ⟨CountsKept.of_cuts rfl, rfl⟩
        have h1 : FaceLeaves s s1 := hremap.trans (FaceLeaves.dropFace _ n cause fl)
        refine FaceLeaves.trans ?_ (FaceLeaves.startFill _)
        exact h1.trans ⟨CountsKept.of_cuts rfl, rfl⟩
      · split
        · exact ⟨CountsKept.of_cuts rfl, rfl⟩
        · exact (FaceLeaves.dropFace s n cause fl).trans (FaceLeaves.adopt _ n)
    · exact ⟨CountsKept.of_cuts rfl, rfl⟩

theorem FaceLeaves.recheckBenches (s : State) : FaceLeaves s s.recheckBenches :=
  FaceLeaves.foldl s _ fun t n => by
    split
    · exact FaceLeaves.retireFace t n 0 0
    · exact FaceLeaves.refl t

/-! ### A bench is retired (R89) -/

theorem CountsKept.retireBench (s : State) (n phys cause fl : Nat) : CountsKept s (s.retireBench n phys cause fl) :=
  CountsKept.of_cuts ((State.retireBench_same (Sub.refl _) (Same.refl _ s) n phys cause fl).part .cuts (by decide))

theorem State.retireBench_retired (s : State) (n phys cause fl : Nat) :
    (s.retireBench n phys cause fl).benchRetired n phys = true := by
  unfold State.retireBench
  split
  · assumption
  · extract_lets s1 s2
    have h1 : Tab.get 0 s1.spare.benchRet n = setBit (Tab.get 0 s.spare.benchRet n) phys :=
      Tab.get_update_same 0 s.spare.benchRet n (setBit · phys)
    have h2 : s2.spare.benchRet = s1.spare.benchRet := by
      dsimp only [s2]
      split <;> rfl
    show bit (Tab.get 0 s2.spare.benchRet n) phys = true
    rw [h2, h1]
    exact bit_setBit _ _

/-- The state in which a bench that fails is recorded as retired, before its work goes on elsewhere. -/
def State.benchFailed (s : State) (n b e cause fl : Nat) : State :=
  ((s.modBench n b (fun x => { (x.goBack.emptyFeeders).remakeFor (s.cut e) with replays := 0 })).orFlags e
    (flag 12)).retireBench n (s.physBench n b) cause fl

/-- What follows the retirement of a bench leaves the flags of cuts and the benches that are retired. -/
theorem State.failBench_leaves (s : State) (n b e cause fl : Nat) :
    FaceLeaves (s.benchFailed n b e cause fl) (s.failBench n b e cause fl) := by
  unfold State.failBench
  extract_lets phys spare s1 others work s2 s3
  split
  · exact FaceLeaves.recheckBenches s1
  · split
    · exact FaceLeaves.retireFace s1 n 6 fl
    · have h2 : Same (partMask [.benches]) s1 s2 :=
        State.modBench_same ⟨by decide⟩ (State.dealItems_same ⟨by decide⟩ (Same.refl _ s1) _ _ _ _) _ _ _
      have hdeal : FaceLeaves s1 s2 :=
        .of_spare (CountsKept.of_cuts (h2.part .cuts (by decide))) (h2.part .spare (by decide))
      have h3 : FaceLeaves s1 s3 := hdeal.trans ⟨CountsKept.orFlags s2 e (flag flReduced), rfl⟩
      refine (h3.trans (FaceLeaves.foldl s3 others fun t k => ?_)).trans (FaceLeaves.recheckBenches _)
      exact .of_spare (CountsKept.tryStart t n k)
        ((State.tryStart_same (Sub.refl _) (Same.refl _ t) n k).part .spare (by decide))

theorem State.failBench_retired (s : State) (n b e cause fl : Nat) :
    (s.failBench n b e cause fl).benchRetired n (s.physBench n b) = true := by
  rw [State.benchRetired, (s.failBench_leaves n b e cause fl).benchRet]
  exact State.retireBench_retired ..

theorem State.failBench_flag (s : State) (n b e cause fl : Nat) :
    ((s.failBench n b e cause fl).cut e).flags &&& 0x1000#32 = 0x1000#32 := by
  obtain ⟨-, -, hflags⟩ := (CountsKept.retireBench (State.orFlags _ e (flag 12)) n (s.physBench n b) cause fl).trans
    (s.failBench_leaves n b e cause fl).counts e
  exact hflags _ (State.orFlags_set _ e (flag 12))

/-! ### O32: the end of a check -/

/-- Settles O32: a check that ends frees the shadow, or moves the located lane, or retires the bench; what follows the
retirement keeps the flag and the record of it. -/
theorem checksEnd : Obligations.ChecksEnd := by
  unfold Obligations.ChecksEnd
  intro s n b hs x phys
  refine ⟨fun hsh => Ignored.effect hs (exec_checkEnd ..) (State.checkEnd_none hsh), fun sh hsh =>
    ⟨fun hc => Ignored.effect hs (exec_checkEnd ..) (State.checkEnd_cleared hsh hc), fun hc h => ?pass,
      fun l hc h hr hf => ?located, fun hc h => ?unlocated⟩⟩
  case pass =>
    refine Leads.effect hs (exec_checkEnd ..) (State.checkEnd_pass hsh hc h)
      ⟨rfl, State.bench_modBench .., fun m c hmc => ?_⟩
    exact State.bench_modBench_other s n.val b.val m.val c.val _ (benchKey_ne hmc)
  case located =>
    have hframe := State.checkEnd_same (Sub.refl _) (Same.refl _ s) n.val b.val
    have hstep := State.checkEnd_located hsh hc h hr hf
    refine Leads.effect hs (exec_checkEnd ..) rfl ⟨?_, ?_, ?_, ?_, ?_, ?_, ?_, hframe.part .yard (by decide),
      hframe.part .tallies (by decide)⟩
    all_goals rw [hstep]
    · rw [State.physLane_congr (State.remapReplay_spare ..)]
      exact State.remapLane_physLane ..
    · rw [State.freeLanes_congr (State.remapReplay_spare ..)]
      exact State.remapLane_freeLanes ..
    · exact State.remapReplay_shadow ..
    · exact State.remapReplay_benchReplays ..
    · exact State.remapReplay_cutReplays ..
    · exact State.remapReplay_flag ..
    · exact State.remapReplay_flagged ..
  case unlocated =>
    have hframe := State.checkEnd_same (Sub.refl _) (Same.refl _ s) n.val b.val
    obtain ⟨cause, fl, hstep⟩ := State.checkEnd_unlocated hsh hc h
    refine Leads.effect hs (exec_checkEnd ..) rfl ⟨?_, ?_, hframe.part .yard (by decide),
      hframe.part .tallies (by decide)⟩
    · rw [hstep]
      exact State.failBench_retired ..
    · rw [hstep]
      exact State.failBench_flag ..

end Machine
end Sys2Proof
end

section
/-! The kiln: results, drains and parity errors (R77, R79, R245, R248 to R252, R277). -/

namespace Sys2Proof.Machine

theorem exec_kilnResult (n : Fin 72) (b : Fin 4) (l : Fin 512) (j : Fin 16) (pair : KilnPair) (s : State) :
    exec (.kilnResult n b l j pair) s = s.on (fun s => s.kilnResultAny n.val b.val l.val j.val pair) := rfl

theorem exec_kilnDrainDone (n : Fin 72) (b : Fin 4) (s : State) :
    exec (.kilnDrainDone n b) s = s.on (fun s => s.kilnDrain n.val b.val) := rfl

theorem exec_kilnParityError (n : Fin 72) (s : State) :
    exec (.kilnParityError n) s = s.on (fun s => s.kilnParity n.val) := rfl

/-! ### A result comes back (R248 to R252) -/

/-- The kiln at `key` has at most the flags of its arithmetic changed, and no other kiln anything. -/
structure KilnFlagged (key : Nat) (s t : State) : Prop where
  /-- the kiln at the key -/
  here : ∃ fl, Tab.get Kiln.reset t.kilns key = { Tab.get Kiln.reset s.kilns key with fl := fl }
  /-- the other kilns -/
  other : ∀ i, i ≠ key → Tab.get Kiln.reset t.kilns i = Tab.get Kiln.reset s.kilns i

theorem KilnFlagged.of_kilns {key : Nat} {s t : State} (h : t.kilns = s.kilns) : KilnFlagged key s t :=
  ⟨⟨(Tab.get Kiln.reset s.kilns key).fl, by rw [h]⟩, fun i _ => by rw [h]⟩

theorem KilnFlagged.trans {key : Nat} {s a t : State} (h : KilnFlagged key s a) (k : KilnFlagged key a t) :
    KilnFlagged key s t := by
  obtain ⟨x, hx⟩ := h.here
  obtain ⟨y, hy⟩ := k.here
  exact ⟨⟨y, by rw [hy, hx]⟩, fun i hi => (k.other i hi).trans (h.other i hi)⟩

/-- The flags of a block that is written join those of the kiln. -/
theorem KilnFlagged.orFlags (s : State) (key m : Nat) :
    KilnFlagged key s { s with kilns := Tab.update Kiln.reset s.kilns key (fun k => { k with fl := k.fl ||| m }) } :=
  ⟨⟨_, Tab.get_update_same Kiln.reset s.kilns key (fun k => { k with fl := k.fl ||| m })⟩, fun i hi =>
    Tab.get_update_other Kiln.reset s.kilns key i (fun k => { k with fl := k.fl ||| m }) hi⟩

theorem KilnFlagged.writeKeyBlock (s : State) (n b tag base qb stage l q : Nat) (codes : List Nat) :
    KilnFlagged (n * 4 + b) s (s.writeKeyBlock n b tag base qb stage l q codes) := by
  unfold State.writeKeyBlock
  extract_lets q0 m side s1 s2
  have h1 : KilnFlagged (n * 4 + b) s s1 := KilnFlagged.of_kilns rfl
  have h2 : KilnFlagged (n * 4 + b) s s2 := h1.trans (KilnFlagged.orFlags s1 _ m.fl)
  split
  · exact h2.trans (KilnFlagged.of_kilns rfl)
  · exact h2

theorem KilnFlagged.writeQueryBlock (s : State) (n b base qb l q : Nat) (codes : List Nat) :
    KilnFlagged (n * 4 + b) s (s.writeQueryBlock n b base qb l q codes) := by
  unfold State.writeQueryBlock
  extract_lets m s1 s2
  have h1 : s1.kilns = s.kilns :=
    List.foldlRecOn (motive := fun t : State => t.kilns = s.kilns) _ _ rfl fun t ht _ _ => ht
  have h2 : KilnFlagged (n * 4 + b) s s2 := KilnFlagged.of_kilns h1
  exact h2.trans (KilnFlagged.orFlags s2 _ m.fl)

/-- A kiln with one more result back, for pocket `j` of lane `l` of a shadow. -/
def Kiln.takes (k : Kiln) (sh : Shadow) (l j : Nat) (v : Fp) (high : Bool) : Kiln :=
  let q := sh.pass.sub * 16 + j
  { k with
    byKey := Tab.set k.byKey (l * 4096 + q) v.code
    byQuery := if sh.pass.stage = 3 then Tab.set k.byQuery (q * 512 + l) v.code else k.byQuery
    seen := if k.seen.contains (pocketKey j l) then k.seen else pocketKey j l :: k.seen
    fl := k.fl ||| v.fl ||| (if high then flag 24 else 0) }

theorem Kiln.takes_byKey (k : Kiln) (sh : Shadow) (l j : Nat) (v : Fp) (high : Bool) :
    Tab.find (k.takes sh l j v high).byKey (l * 4096 + (sh.pass.sub * 16 + j)) = some v.code :=
  Tab.find_set_same ..

theorem Kiln.takes_seen (k : Kiln) (sh : Shadow) (l j : Nat) (v : Fp) (high : Bool) :
    pocketKey j l ∈ (k.takes sh l j v high).seen := by
  unfold Kiln.takes
  dsimp only
  split
  · next h => simpa using h
  · exact List.mem_cons_self

section
variable (s : State) (n b base : Nat) (sh : Shadow) (a : AArea) (l j : Nat) (v : Fp) (high : Bool)

/-- A result that comes back is kept for its lane and query and noted for its pocket; the other kilns stay. -/
theorem State.kilnReturn_kilns :
    let t := s.kilnReturn n b base sh a l j v high
    let k := Tab.get Kiln.reset t.kilns (n * 4 + b)
    Tab.find k.byKey (l * 4096 + (sh.pass.sub * 16 + j)) = some v.code ∧ pocketKey j l ∈ k.seen ∧
      ∀ i, i ≠ n * 4 + b → Tab.get Kiln.reset t.kilns i = Tab.get Kiln.reset s.kilns i := by
  unfold State.kilnReturn
  extract_lets qb q s1 k tag s2 t k'
  have hk : k = (Tab.get Kiln.reset s.kilns (n * 4 + b)).takes sh l j v high :=
    Tab.get_update_same Kiln.reset s.kilns (n * 4 + b) (fun k => k.takes sh l j v high)
  have h2 : KilnFlagged (n * 4 + b) s1 s2 := by
    dsimp only [s2]
    split
    · exact KilnFlagged.writeKeyBlock ..
    · exact KilnFlagged.of_kilns rfl
  have ht : KilnFlagged (n * 4 + b) s1 t := by
    dsimp only [t]
    split
    · exact h2.trans (KilnFlagged.writeQueryBlock ..)
    · exact h2
  obtain ⟨fl, hfl⟩ := ht.here
  have hk' : k' = { k with fl := fl } := hfl
  rw [hk', hk]
  exact ⟨Kiln.takes_byKey _ sh l j v high, Kiln.takes_seen _ sh l j v high, fun i hi => (ht.other i hi).trans
    (Tab.get_update_other Kiln.reset s.kilns (n * 4 + b) i (fun k => k.takes sh l j v high) hi)⟩

theorem State.kilnReturn_eq : s.kilnReturn n b base sh a l j v high =
    { s with kilns := (s.kilnReturn n b base sh a l j v high).kilns
             benches := (s.kilnReturn n b base sh a l j v high).benches
             yard := (s.kilnReturn n b base sh a l j v high).yard } :=
  State.eq_of_parts fun p => by
    have hp := (State.kilnReturn_same (Sub.refl _) (Same.refl _ s) n b base sh a l j v high).part p
    cases p <;> first
      | exact hp (by decide)
      | rfl

end

/-- With no fault armed a result that comes back strikes none. -/
theorem State.kilnResultAny_eq {s : State} (h : s.monitor.armed = []) (n b l j : Nat) (pair : KilnPair) :
    s.kilnResultAny n b l j pair = s.kilnResult n b l j pair := by
  simp [State.kilnResultAny, h]

section
variable {s : State} {n b base : Nat} {sh : Shadow} {a : AArea} (hsh : (s.bench n b).shadow = some sh)
  (ha : (s.cut sh.cut).desc.area = .a a) (hb : s.stagingBase (s.cut sh.cut).desc a n b = some base)
  (l j : Nat) (pair : KilnPair)
include hsh ha hb

/-- While the idle side is held a result waits. -/
theorem State.kilnResult_waits (hh : (s.bench n b).idle.held = true) : s.kilnResult n b l j pair = s := by
  simp [State.kilnResult, hsh, ha, hb, hh]

variable (hr : (s.cut sh.cut).phase = .running) (hh : (s.bench n b).idle.held = false)
include hr hh

/-- A pocket of stage 1 comes back as P (R249). -/
theorem State.kilnResult_p (hst : sh.pass.stage = 1) : ∃ high, s.kilnResult n b l j pair =
    s.kilnReturn n b base sh a l j (kilnP (s.kilnTable a n b) a pair
      (Tab.get Pocket.zero sh.pockets (pocketKey j l)).val).1 high := by
  refine ⟨(kilnP (s.kilnTable a n b) a pair (Tab.get Pocket.zero sh.pockets (pocketKey j l)).val).2, ?_⟩
  simp [State.kilnResult, hsh, ha, hb, hr, hh, hst, kilnStage]

/-- A pocket of stage 3 comes back as dS (R251). -/
theorem State.kilnResult_ds (hst : sh.pass.stage = 3) : s.kilnResult n b l j pair =
    s.kilnReturn n b base sh a l j (kilnDS a pair
      ((s.arun sh.cut).deltaOf a sh.pass.item (sh.pass.sub * 16 + j) pair.row)
      (s.stagedP base (2 ^ a.qbLog2) (sh.pass.sub * 16 + j) l)
      (Tab.get Pocket.zero sh.pockets (pocketKey j l)).val) false := by
  simp [State.kilnResult, hsh, ha, hb, hr, hh, hst, kilnStage]

end

/-- A pair that the mask or a segment keeps out has P 0 (R252). -/
theorem kilnP_masked {a : AArea} {pair : KilnPair} (h : a.keeps pair = false) (table : EvalTable) (g : Val) :
    (kilnP table a pair g).1.code = 0 := by
  simp [kilnP, h]

/-! ### A shadow has drained (R79, R245) -/

/-- The state in which a shadow has drained to the kiln, before it is free. -/
def State.drained (s : State) (n b : Nat) (sh : Shadow) : State :=
  let k := Tab.get Kiln.reset s.kilns (n * 4 + b)
  (State.orFlags { s with kilns := Tab.set s.kilns (n * 4 + b) (k.afterDrain sh.pass.sub) } sh.cut
    (sh.cutFlags ||| k.fl)).modCut sh.cut (fun c => { c with passes := c.passes + 1 })

section
variable {s : State} {n b : Nat} {sh : Shadow} (hsh : (s.bench n b).shadow = some sh)
include hsh

theorem State.kilnDrain_eq (hc : sh.cleared = true) (hst : kilnStage sh.pass = true)
    (hk : (s.cut sh.cut).desc.kind = 3) (hall : s.kilnAll n b sh = true) :
    s.kilnDrain n b = (s.drained n b sh).freeShadow n b := by
  simp only [State.kilnDrain, hsh, hc, hst, hk, hall]
  rfl

/-- A shadow that has not passed its check, or of which a pocket is still to come back, is not free. -/
theorem State.kilnDrain_waits (h : sh.cleared = false ∨ s.kilnAll n b sh = false) : s.kilnDrain n b = s := by
  rcases h with h | h <;> simp [State.kilnDrain, hsh, h]

end

section
variable (s : State) (n b : Nat) (sh : Shadow)

theorem State.kilnDrain_frame : s.kilnDrain n b = { s with
    benches := (s.kilnDrain n b).benches, kilns := (s.kilnDrain n b).kilns, cuts := (s.kilnDrain n b).cuts
    faces := (s.kilnDrain n b).faces, fabric := (s.kilnDrain n b).fabric } :=
  State.eq_of_parts fun p => by
    have hp := (State.kilnDrain_same (Sub.refl _) (Same.refl _ s) n b).part p
    cases p <;> first
      | exact hp (by decide)
      | rfl

theorem State.cut_drained : (s.drained n b sh).cut sh.cut = { s.cut sh.cut with
    flags := (s.cut sh.cut).flags |||
      BitVec.ofNat 32 (sh.cutFlags ||| (Tab.get Kiln.reset s.kilns (n * 4 + b)).fl)
    passes := (s.cut sh.cut).passes + 1 } := by
  rw [State.drained, State.cut_modCut, State.orFlags, State.cut_modCut]
  rfl

theorem State.drained_passes :
    (((s.drained n b sh).freeShadow n b).cut sh.cut).passes = (s.cut sh.cut).passes + 1 := by
  obtain ⟨hpasses, -, -⟩ := CountsKept.freeShadow (s.drained n b sh) n b sh.cut
  rw [hpasses, State.cut_drained]

/-- A kiln that has drained waits for no pocket. -/
theorem State.drained_seen :
    (Tab.get Kiln.reset ((s.drained n b sh).freeShadow n b).kilns (n * 4 + b)).seen = [] := by
  rw [State.freeShadow, State.tryStart_seen]
  show (Tab.get Kiln.reset (Tab.set s.kilns (n * 4 + b) _) (n * 4 + b)).seen = []
  rw [Tab.get_set_same]
  rfl

theorem State.drained_fabric (ha : (s.cut sh.cut).awaiting = []) (hc : (s.bench n b).cut = some sh.cut) :
    ((s.drained n b sh).freeShadow n b).fabric = s.fabric := by
  have hcut : (((s.drained n b sh).modBench n b (fun x => { x with shadow := none })).bench n b).cut = some sh.cut := by
    rw [State.bench_modBench]
    exact hc
  have hwait : (((s.drained n b sh).modBench n b (fun x => { x with shadow := none })).cut sh.cut).awaiting = [] := by
    have h := congrArg CutRun.awaiting (s.cut_drained n b sh)
    exact h.trans ha
  rw [State.freeShadow, State.tryStart_fabric hcut hwait]
  rfl

end

/-! ### The stage begins again (R277) -/

theorem Bench.modIdle_rest (x : Bench) (f : FeederSide → FeederSide) :
    (x.modIdle f).cut = x.cut ∧ (x.modIdle f).cur = x.cur ∧ (x.modIdle f).work = x.work ∧
      (x.modIdle f).nextPre = x.nextPre := by
  unfold Bench.modIdle
  split <;> exact ⟨rfl, rfl, rfl, rfl⟩

/-- Every pass of a stage is of that stage. -/
theorem AArea.stage_of_mem {a : AArea} {row red st : Nat} {p : PassId} (h : p ∈ a.stage row red st) :
    p.stage = st := by
  obtain ⟨k, -, rfl⟩ := List.mem_map.mp h
  rfl

theorem Bench.restageKiln_eq {x : Bench} {p : PassId} {ps : List PassId} (hw : x.discard.work = p :: ps)
    (hst : kilnStage p = true) (a : AArea) : x.restageKiln a =
      ({ x.discard with work := (a.stage p.item p.red p.stage).take p.sub ++ p :: ps } : Bench).modIdle
        (fun _ => FeederSide.empty) := by
  unfold Bench.restageKiln
  extract_lets y
  split
  · next q qs hq =>
    cases hw.symm.trans hq
    rw [if_pos hst]
    show Bench.modIdle { x.discard with work := _ ++ x.discard.work } _ = _
    rw [hw]
  · next h => cases hw.symm.trans h

/-- A bench that begins its kiln stage again stays with its cut, between two passes, with the first pass of the stage
next and no scale codes for it. -/
theorem Bench.restageKiln_spec {x : Bench} (h : x.restages = true) (a : AArea) :
    (x.restageKiln a).cut = x.cut ∧ (x.restageKiln a).cur = none ∧ (x.restageKiln a).nextPre = none ∧
      ∀ p rest, (x.restageKiln a).work = p :: rest → kilnStage p = true := by
  obtain ⟨p, ps, hw, hst⟩ : ∃ p ps, x.discard.work = p :: ps ∧ kilnStage p = true := by
    unfold Bench.restages at h
    split at h
    · next p ps hw => exact ⟨p, ps, hw, (Bool.and_eq_true_iff.mp h).1⟩
    · cases h
  rw [Bench.restageKiln_eq hw hst]
  obtain ⟨hcut, hcur, hwork, hpre⟩ := Bench.modIdle_rest
    { x.discard with work := (a.stage p.item p.red p.stage).take p.sub ++ p :: ps } (fun _ => FeederSide.empty)
  refine ⟨hcut, hcur, hpre, fun q rest hq => ?_⟩
  have hq' := hwork.symm.trans hq
  dsimp only at hq'
  cases hag : (a.stage p.item p.red p.stage).take p.sub with
  | nil =>
    rw [hag] at hq'
    cases hq'
    exact hst
  | cons r rs =>
    rw [hag] at hq'
    cases hq'
    have hmem : q ∈ a.stage p.item p.red p.stage := List.mem_of_mem_take (hag ▸ List.mem_cons_self)
    rw [kilnStage, AArea.stage_of_mem hmem]
    exact hst

/-- The state in which a bench is back at the start of its kiln stage, before it starts a pass. -/
def State.restaged (s : State) (n e b : Nat) : State :=
  (State.modBench { s with kilns := Tab.drop s.kilns (n * 4 + b) } n b
    (fun x => x.restageKiln (s.cut e).aArea)).awaitReplay e (.pass n b)

/-- A bench of the face that works for the cut, and that has a kiln stage to begin again, begins it. -/
def State.restageStep (n e : Nat) (s : State) (b : Nat) : State :=
  if (s.bench n b).cut = some e ∧ (s.bench n b).restages = true then (s.restaged n e b).tryStart n b else s

theorem State.restage_eq (s : State) (n e : Nat) : s.restage n e = (List.range 4).foldl (State.restageStep n e) s := rfl

theorem State.awaitReplay_benches (s : State) (e : Nat) (r : Replay) : (s.awaitReplay e r).benches = s.benches :=
  (State.awaitReplay_same (Sub.refl _) (Same.refl _ s) e r).part .benches (by decide)

theorem State.setStatus_status (s : State) (e code : Nat) : ((s.setStatus e code).cut e).status = code := by
  have h : ((s.modCut e fun c => { c with status := code }).cut e).status = code := by
    rw [State.cut_modCut]
  unfold State.setStatus
  split <;> exact h

section
variable (n e : Nat) (s : State) (b : Nat)

theorem State.restaged_bench : (s.restaged n e b).bench n b = (s.bench n b).restageKiln (s.cut e).aArea := by
  rw [State.restaged, State.bench_congr (State.awaitReplay_benches ..), State.bench_modBench]
  rfl

theorem State.restaged_bench_other {c : Nat} (h : n * 4 + c ≠ n * 4 + b) :
    (s.restaged n e b).bench n c = s.bench n c := by
  rw [State.restaged, State.bench_congr (State.awaitReplay_benches ..), State.bench_modBench_other _ _ _ _ _ _ h]
  rfl

theorem State.restaged_status : ((s.restaged n e b).cut e).status = 0x41 := State.setStatus_status _ e 0x41

theorem FramesKept.restaged : FramesKept s (s.restaged n e b) :=
  FramesKept.trans (a := State.modBench { s with kilns := _ } n b _) (FramesKept.of_cuts rfl)
    (FramesKept.awaitReplay _ e _)

theorem FramesKept.restageStep : FramesKept s (State.restageStep n e s b) := by
  unfold State.restageStep
  split
  · exact (FramesKept.restaged n e s b).trans (FramesKept.tryStart _ n b)
  · exact FramesKept.of_cuts rfl

theorem State.restageStep_other {c : Nat} (h : c ≠ b) : (State.restageStep n e s b).bench n c = s.bench n c := by
  have hk : n * 4 + c ≠ n * 4 + b := by omega
  unfold State.restageStep
  split
  · rw [State.tryStart_bench_other _ hk, State.restaged_bench_other n e s b hk]
  · rfl

end

/-- Where the cut's kiln stages take exact operands, a bench that begins its stage again waits for scale codes. -/
theorem State.restageStep_hit {s : State} {n e b : Nat} (hc : (s.bench n b).cut = some e)
    (h : (s.bench n b).restages = true)
    (hexact : ∀ p, kilnStage p = true → floatPath ((s.cut e).passTypes p) = false) :
    ((State.restageStep n e s b).cut e).status = 0x41 := by
  have hbench := s.restaged_bench n e b
  obtain ⟨hcut, hcur, hpre, hwork⟩ := Bench.restageKiln_spec h (s.cut e).aArea
  rw [← hbench] at hcut hcur hpre hwork
  rw [State.restageStep, if_pos ⟨hc, h⟩,
    State.tryStart_status (hcut.trans hc) (Bench.tryStart_waits hcur (fun p rest hp => ?_) _), State.restaged_status]
  have hfloat : floatPath (((s.restaged n e b).cut e).passTypes p) = false := by
    rw [(FramesKept.restaged n e s b).passTypes, hexact p (hwork p rest hp)]
  simp [Bench.scalesReady, hpre, hfloat]

/-- A restage keeps a cut at 0x41. -/
theorem State.restageStep_status {s : State} {n e : Nat} (h : (s.cut e).status = 0x41)
    (hexact : ∀ p, kilnStage p = true → floatPath ((s.cut e).passTypes p) = false) (b : Nat) :
    ((State.restageStep n e s b).cut e).status = 0x41 := by
  by_cases hgo : (s.bench n b).cut = some e ∧ (s.bench n b).restages = true
  · exact State.restageStep_hit hgo.1 hgo.2 hexact
  · rwa [State.restageStep, if_neg hgo]

/-- With a bench of the face to begin its stage again, the cut shows 0x41 (R15, R277). -/
theorem State.restage_status {s : State} {n e b : Nat} (hb : b < 4) (hc : (s.bench n b).cut = some e)
    (hr : (s.bench n b).restages = true)
    (hexact : ∀ p, kilnStage p = true → floatPath ((s.cut e).passTypes p) = false) :
    ((s.restage n e).cut e).status = 0x41 := by
  have exact_of : ∀ {t : State}, FramesKept s t →
      ∀ p, kilnStage p = true → floatPath ((t.cut e).passTypes p) = false :=
    fun ht p hp => by rw [ht.passTypes, hexact p hp]
  obtain ⟨before, after, hsplit, hnot⟩ := List.eq_append_cons_of_mem (List.mem_range.mpr hb)
  rw [State.restage_eq, hsplit, List.foldl_append, List.foldl_cons]
  have hbefore : FramesKept s (before.foldl (State.restageStep n e) s) ∧
      (before.foldl (State.restageStep n e) s).bench n b = s.bench n b :=
    List.foldlRecOn (motive := fun t : State => FramesKept s t ∧ t.bench n b = s.bench n b) before _
      ⟨FramesKept.of_cuts rfl, rfl⟩ fun t ht c hm => by
        obtain ⟨hframe, hbench⟩ := ht
        have hne : b ≠ c := fun h => hnot (h ▸ hm)
        exact ⟨hframe.trans (FramesKept.restageStep n e t c), (State.restageStep_other n e t c hne).trans hbench⟩
  obtain ⟨hframe, hbench⟩ := hbefore
  rw [← hbench] at hc hr
  have hhit := State.restageStep_hit hc hr (exact_of hframe)
  exact (List.foldlRecOn (motive := fun t : State => FramesKept s t ∧ (t.cut e).status = 0x41) after _
    ⟨hframe.trans (FramesKept.restageStep n e _ b), hhit⟩ fun t ht c _ => by
      obtain ⟨hf, hs⟩ := ht
      exact ⟨hf.trans (FramesKept.restageStep n e t c), State.restageStep_status hs (exact_of hf) c⟩).2

theorem FramesKept.restage (s : State) (n e : Nat) : FramesKept s (s.restage n e) := by
  rw [State.restage_eq]
  exact List.foldlRecOn (motive := fun t : State => FramesKept s t) _ _ (FramesKept.of_cuts rfl) fun t ht b _ =>
    ht.trans (FramesKept.restageStep n e t b)

/-- With no bench of the face to begin a stage again nothing changes. -/
theorem State.restage_idle {s : State} {n e : Nat}
    (h : ∀ b < 4, (s.bench n b).cut = some e → (s.bench n b).restages = false) : s.restage n e = s := by
  rw [State.restage_eq]
  refine foldl_idle fun b hb => ?_
  rw [State.restageStep, if_neg]
  rintro ⟨hc, hr⟩
  rw [h b (List.mem_range.mp hb) hc] at hr
  cases hr

/-! ### KILN_PARITY_ERROR (R277, R375) -/

/-- The state in which a parity error of a face's kiln tables has counted. -/
def State.kilnErrorCounted (s : State) (n : Nat) : State :=
  { s with klnPerr := Tab.update 0 s.klnPerr n (fun v => satAdd 16 v 1) }

theorem State.kilnErrorCounted_here (s : State) (n : Nat) :
    Tab.get 0 (s.kilnErrorCounted n).klnPerr n = min (Tab.get 0 s.klnPerr n + 1) 65535 :=
  Tab.get_update_same 0 s.klnPerr n (fun v => satAdd 16 v 1)

theorem State.kilnErrorCounted_other (s : State) {n m : Nat} (h : m ≠ n) :
    Tab.get 0 (s.kilnErrorCounted n).klnPerr m = Tab.get 0 s.klnPerr m :=
  Tab.get_update_other 0 s.klnPerr n m (fun v => satAdd 16 v 1) h

theorem State.takeTableInject_none {s : State} (h : s.monitor.armed = []) (n : Nat) : s.takeTableInject n = (s, 0) := by
  simp [State.takeTableInject, h]

section
variable {s : State} {n : Nat} (ha : s.monitor.armed = [])
include ha

/-- On a face that no running cut uses the error only counts. -/
theorem State.kilnParity_unused (h : ∀ e ∈ s.liveCuts, n ∉ s.cutFaces (s.cut e).desc) :
    s.kilnParity n = s.kilnErrorCounted n := by
  unfold State.kilnParity
  rw [State.takeTableInject_none ha]
  dsimp only
  split
  · next e he =>
    have hmem : e ∈ s.liveCuts := List.mem_of_find?_eq_some he
    have hface := List.find?_some he
    simp only [Bool.and_eq_true, List.contains_iff_mem] at hface
    exact absurd hface.2 (h e hmem)
  · rfl

theorem State.kilnParity_used {e : Nat}
    (h : s.liveCuts.find? (fun e => (s.cut e).desc.kind == 3 && (s.cut e).phase == .running &&
      (s.cutFaces (s.cut e).desc).contains n) = some e) :
    s.kilnParity n = ((s.kilnErrorCounted n).restage n e).parityError e n 0 := by
  unfold State.kilnParity
  rw [State.takeTableInject_none ha]
  dsimp only
  split
  · next k hk =>
    cases h.symm.trans hk
    rfl
  · next hk => cases h.symm.trans hk

end

/-- The state in which a parity error has counted in its cut. -/
def State.parityCounted (s : State) (e n : Nat) : State :=
  (s.modCut e (fun c => { c with parity := Tab.update 0 c.parity n (· + 1) })).orFlags e (flag flFaulted)

/-- The first parity error of a face in a cut leaves the face in service. -/
theorem State.parityError_first {s : State} {e n : Nat} (h : Tab.get 0 (s.cut e).parity n = 0) (fl : Nat) :
    s.parityError e n fl = s.parityCounted e n := by
  unfold State.parityError
  dsimp only
  rw [State.cut_modCut, Tab.get_update_same, h]
  rfl

theorem State.parityCounted_same (s : State) (e n : Nat) : Same (partMask [.cuts]) s (s.parityCounted e n) :=
  State.orFlags_same ⟨by decide⟩ (State.modCut_same ⟨by decide⟩ (Same.refl _ s) e _) e _

theorem State.parityCounted_spec (s : State) (e n : Nat) :
    ((s.parityCounted e n).cut e).flags &&& 0x4000#32 = 0x4000#32 ∧
      Tab.get 0 ((s.parityCounted e n).cut e).parity n = Tab.get 0 (s.cut e).parity n + 1 ∧
      ((s.parityCounted e n).cut e).status = (s.cut e).status := by
  refine ⟨State.orFlags_set _ e (flag flFaulted), ?_, ?_⟩
  all_goals rw [State.parityCounted, State.orFlags, State.cut_modCut, State.cut_modCut]
  exact Tab.get_update_same ..

/-- What a parity error in a cut changes: the counts of such errors, and what the restart of the stage changes. -/
theorem State.kilnRestaged_same (s : State) (n e : Nat) :
    Same (partMask [.klnPerr, .cuts, .benches, .kilns, .faces, .fabric]) s
      (((s.kilnErrorCounted n).restage n e).parityCounted e n) :=
  (State.restage_same ⟨by decide⟩ (Same.set_klnPerr ⟨by decide⟩ (Same.refl _ s)) n e).trans
    ((State.parityCounted_same _ e n).mono ⟨by decide⟩)

theorem State.kilnRestaged_klnPerr (s : State) (n e : Nat) :
    (((s.kilnErrorCounted n).restage n e).parityCounted e n).klnPerr = (s.kilnErrorCounted n).klnPerr :=
  ((State.parityCounted_same _ e n).part .klnPerr (by decide)).trans
    ((State.restage_same (Sub.refl _) (Same.refl _ (s.kilnErrorCounted n)) n e).part .klnPerr (by decide))

/-! ### O40: the kiln -/

/-- Settles O40: a result that comes back is kept, a drain frees its shadow, and a parity error counts, sends the
benches of its face back to the start of their stage, and leaves the face in service. -/
theorem kilns : Obligations.Kilns := by
  unfold Obligations.Kilns
  intro s n b hs ha key
  refine ⟨fun sh a base l j pair hsh harea hbase hr => ?result,
    fun sh hsh => ⟨fun hc hst hk hall => ?drain, fun h => ?waits⟩,
    fun h => ?unused, fun e h h0 => ?used⟩
  case result =>
    intro q g
    have hany := State.kilnResultAny_eq ha n.val b.val l.val j.val pair
    refine ⟨fun hh hst => ?_, fun hh hst => ?_, fun hh => ?_⟩
    · obtain ⟨high, hstep⟩ := State.kilnResult_p hsh harea hbase l.val j.val pair hr hh hst
      obtain ⟨hcode, hseen, hother⟩ := State.kilnReturn_kilns s n.val b.val base sh a l.val j.val
        (kilnP (s.kilnTable a n.val b.val) a pair g).1 high
      exact Leads.effect hs (exec_kilnResult ..) (hany.trans hstep) ⟨State.kilnReturn_eq .., hcode,
        fun hm => by rw [hcode, kilnP_masked hm], hseen, hother⟩
    · have hstep := State.kilnResult_ds hsh harea hbase l.val j.val pair hr hh hst
      obtain ⟨hcode, hseen, -⟩ := State.kilnReturn_kilns s n.val b.val base sh a l.val j.val
        (kilnDS a pair ((s.arun sh.cut).deltaOf a sh.pass.item q pair.row)
          (s.stagedP base (2 ^ a.qbLog2) q l.val) g) false
      exact Leads.effect hs (exec_kilnResult ..) (hany.trans hstep) ⟨State.kilnReturn_eq .., hcode, hseen⟩
    · exact Ignored.effect hs (exec_kilnResult ..)
        (hany.trans (State.kilnResult_waits hsh harea hbase l.val j.val pair hh))
  case drain =>
    have hstep := State.kilnDrain_eq hsh hc hst hk hall
    refine Leads.effect hs (exec_kilnDrainDone ..) rfl ⟨State.kilnDrain_frame .., fun hw hcut => ?_, ?_, ?_, ?_⟩
    all_goals rw [hstep]
    · exact State.drained_fabric _ _ _ _ hw hcut
    · exact State.freeShadow_shadow ..
    · exact State.drained_passes ..
    · exact State.drained_seen ..
  case waits =>
    exact Ignored.effect hs (exec_kilnDrainDone ..) (State.kilnDrain_waits hsh h)
  case unused =>
    exact Leads.effect hs (exec_kilnParityError ..) (State.kilnParity_unused ha h)
      ⟨rfl, s.kilnErrorCounted_here n.val, fun m hm => s.kilnErrorCounted_other hm⟩
  case used =>
    have hframe := FramesKept.restage (s.kilnErrorCounted n.val) n.val e
    have hsame := State.kilnRestaged_same s n.val e
    have hzero : Tab.get 0 (((s.kilnErrorCounted n.val).restage n.val e).cut e).parity n.val = 0 := by
      rw [hframe.parity]
      exact h0
    have hstep := (State.kilnParity_used ha h).trans (State.parityError_first hzero 0)
    obtain ⟨hflag, hcount, hstatus⟩ := ((s.kilnErrorCounted n.val).restage n.val e).parityCounted_spec e n.val
    refine Leads.effect hs (exec_kilnParityError ..) hstep ⟨?_, hflag, ?_, fun hidle => ?_,
      fun ⟨c, hc, hcut, hr⟩ hexact => ?_, hsame.part .yard (by decide), hsame.part .tallies (by decide),
      hsame.part .log (by decide)⟩
    · rw [State.kilnRestaged_klnPerr, State.kilnErrorCounted_here]
    · rw [hcount, hzero]
    · have hrest := State.restage_idle (s := s.kilnErrorCounted n.val) hidle
      rw [hstatus, hrest]
      exact ⟨rfl, rfl⟩
    · rw [hstatus]
      exact State.restage_status (s := s.kilnErrorCounted n.val) hc hcut hr hexact

end Sys2Proof.Machine
end

section
/-! The scale unit's result on a free bench whose next item was adopted with a saved context (R78, R94, R380). -/

namespace Sys2Proof.Machine

theorem exec_scaleUnitDone (n : Fin 72) (b : Fin 4) (pre : List (List Nat)) (s : State) :
    exec (.scaleUnitDone n b pre) s = s.on (fun s => s.scaleDone n.val b.val pre) := rfl

/-- A running D-cut that keeps a saved context for the next pass of bench 0 of face 0, whose load stands full. -/
def adoptedContext : State :=
  { State.reset with
    cuts := [(0, { CutRun.reset with phase := .running, desc := { CutDesc.empty with kind := 1 }, kept := [default] })]
    benches := [(0, { Bench.reset with
      cut := some 0, work := [default], feedA := { FeederSide.empty with tag := some 0, full := true } })] }

/-- The bench takes up the saved context, which is to be restored first, and begins no pass. -/
theorem adoptedContext_scaleDone : ((adoptedContext.scaleDone 0 0 []).bench 0 0).cur = none := by
  decide

/-- Refutes O30: a bench whose next pass an adopted item brought with a saved context waits for its restore (R94, R380),
and does not begin the pass when the scale unit is done. -/
theorem not_benchFilling : ¬ Obligations.BenchFilling := by
  unfold Obligations.BenchFilling
  intro h
  obtain ⟨-, -, hdone, -⟩ := h adoptedContext 0 0 0 rfl rfl (by decide)
  obtain ⟨-, hstart⟩ := hdone [] default [] rfl rfl rfl
  obtain ⟨t, ht, -, -, -, hcur, -⟩ := hstart rfl rfl rfl rfl rfl
  rw [exec_scaleUnitDone, State.on_good _ _ rfl] at ht
  cases ht
  cases adoptedContext_scaleDone.symm.trans hcur

end Sys2Proof.Machine
end

section
/-! Transposing buffers: a tile that takes a slot, and what the fault of a buffer leaves behind (R102 to R112). -/

namespace Sys2Proof.Machine

theorem exec_tileLoadDone (k : Fin 6) (st : TileStream) (fmt : Fin 4) (e : Fin 4096) (rows scales : List (List Nat))
    (stalls : List (Fin 4 × Nat)) (s : State) : exec (.tileLoadDone k st fmt e rows scales stalls) s =
      s.on (fun s => s.tileLoadAny k.val st fmt.val e.val rows scales stalls) := rfl

theorem exec_tpbFault (j : Fin 8) (s : State) : exec (.tpbFault j) s = s.on (fun s => s.tpbFault j.val) := rfl

/-! ### A tile takes a slot (R102, R104, R107) -/

/-- The slot that a tile of the operand takes: its segments in emission order, with their scale codes. -/
def TpbOperand.tile (o : TpbOperand) (e : Nat) (st : TileStream) (rows scales : List (List Nat)) : TileSlot :=
  .mk e st ((o.segments rows scales).map Prod.fst) ((o.segments rows scales).map Prod.snd)

/-- The state in which physical buffer `j` has counted its stalls and holds one more tile. -/
def State.tileTaken (s : State) (j : Nat) (x : TileSlot) (stalls : List (Fin 4 × Nat)) : State :=
  { s.modTpb j (fun t => t.addStalls stalls) with
    tileSlots := Tab.set s.tileSlots j (Tab.get [] s.tileSlots j ++ [x]) }

theorem State.tileTaken_spec (s : State) (j : Nat) (x : TileSlot) (stalls : List (Fin 4 × Nat)) :
    let t := s.tileTaken j x stalls
    t.tpb j = (s.tpb j).addStalls stalls ∧ (∀ i, i ≠ j → t.tpb i = s.tpb i) ∧
      Tab.get [] t.tileSlots j = Tab.get [] s.tileSlots j ++ [x] ∧
      ∀ i, i ≠ j → Tab.get [] t.tileSlots i = Tab.get [] s.tileSlots i :=
  ⟨s.tpb_modTpb j (·.addStalls stalls), fun i hi => s.tpb_modTpb_other j i (·.addStalls stalls) hi,
    Tab.get_set_same .., fun i hi => Tab.get_set_other [] s.tileSlots j i _ hi⟩

section
variable (o : TpbOperand) (rows scales : List (List Nat))

/-- Every tile that is narrowed raises NARROWED, beside the flags of its block conversions. -/
theorem TpbOperand.rowFlags_narrowed : ∃ m, o.rowFlags rows scales = flag 8 ||| m :=
  ⟨_, List.foldl_assoc (op := fun a x : Nat => a ||| x) (a₁ := flag 8) (a₂ := 0)⟩

theorem TpbOperand.orFlags_narrowed (s : State) (e : Nat) :
    ((s.orFlags e (o.rowFlags rows scales)).cut e).flags &&& 0x100#32 = 0x100#32 := by
  obtain ⟨m, hm⟩ := o.rowFlags_narrowed rows scales
  have hset : BitVec.ofNat 32 (flag 8 ||| m) &&& 0x100#32 = 0x100#32 := by
    rw [BitVec.ofNat_or]
    exact word_or_and_of_set (by decide) _
  rw [State.orFlags, State.cut_modCut, BitVec.or_comm, hm]
  exact word_or_and_of_set hset _

end

section
variable {s : State} {k e fmt : Nat} {st : TileStream} {rows scales : List (List Nat)} {stalls : List (Fin 4 × Nat)}

/-- A tile of a running cut takes a slot where its stream holds fewer than 2 of the buffer's fewer than 4. -/
theorem State.tileLoad_takes {o : TpbOperand} (hr : (s.cut e).phase = .running)
    (ho : (s.cut e).tileOperand st fmt = some (k, o)) (hb : s.bufPhys k ∉ s.spare.bufRet)
    (h4 : (Tab.get [] s.tileSlots (s.bufPhys k)).length < 4)
    (h2 : streamTiles (Tab.get [] s.tileSlots (s.bufPhys k)) e st < 2) :
    s.tileLoad k st fmt e rows scales stalls =
      let t := s.tileTaken (s.bufPhys k) (o.tile e st rows scales) stalls
      if o.narrows then t.orFlags e (o.rowFlags rows scales) else t := by
  have hroom : ¬ (4 ≤ (Tab.get [] s.tileSlots (s.bufPhys k)).length ∨
      2 ≤ streamTiles (Tab.get [] s.tileSlots (s.bufPhys k)) e st) := by omega
  simp only [State.tileLoad, ho, hr, List.contains_iff_mem, hb, hroom, not_false_eq_true, and_self, if_true, if_false]
  rfl

/-- A buffer with 4 tiles, a stream with 2 and a cut that does not run take no tile. -/
theorem State.tileLoad_none (h : 4 ≤ (Tab.get [] s.tileSlots (s.bufPhys k)).length ∨
      2 ≤ streamTiles (Tab.get [] s.tileSlots (s.bufPhys k)) e st ∨ (s.cut e).phase ≠ .running) :
    s.tileLoad k st fmt e rows scales stalls = s := by
  unfold State.tileLoad
  dsimp only
  split
  case h_2 => rfl
  case h_1 =>
    split
    case isFalse => rfl
    case isTrue hgo =>
      obtain ⟨hr, -, -⟩ := hgo
      rw [if_pos]
      rcases h with h4 | h2 | hn
      · exact .inl h4
      · exact .inr h2
      · exact absurd hr hn

/-- With no injection armed a tile's sum is found right. -/
theorem State.tileLoadAny_unarmed (h : s.monitor.armed = []) :
    s.tileLoadAny k st fmt e rows scales stalls = s.tileLoad k st fmt e rows scales stalls := by
  simp [State.tileLoadAny, h]

/-- Where no tile is taken an armed injection waits. -/
theorem State.tileLoadAny_none (h : s.tileLoad k st fmt e rows scales stalls = s) :
    s.tileLoadAny k st fmt e rows scales stalls = s := by
  simp [State.tileLoadAny, h]

end

/-! ### The fault of a buffer (R110 to R112) -/

theorem State.tpb_congr {s t : State} (h : t.tpbs = s.tpbs) (j : Nat) : t.tpb j = s.tpb j := by
  rw [State.tpb, h]
  rfl

/-- Buffer `j` is retired and OFF, holds no tile, and GLB.EVT shows a retirement. -/
structure BufferOut (j : Nat) (t : State) : Prop where
  retired : j ∈ t.spare.bufRet
  empty : Tab.get [] t.tileSlots j = []
  off : t.clk (bufTile j) = .off
  shown : t.flagged (BitVec.ofNat 32 (2 ^ evRetire))

/-- What leaves the spare map, the clocks and GLB.EVT, and gives the buffer no tile, leaves it out. -/
theorem BufferOut.of_same {j : Nat} {s t : State} {m : Nat} (h : BufferOut j s) (hm : Same m s t)
    (he : Tab.get [] t.tileSlots j = []) (hspare : m.testBit Part.spare.bit = false)
    (htiles : m.testBit Part.tiles.bit = false) (hglb : m.testBit Part.glb.bit = false) : BufferOut j t where
  retired := by
    rw [show t.spare = s.spare from hm.part .spare hspare]
    exact h.retired
  empty := he
  off := by
    rw [State.clk, show t.tiles = s.tiles from hm.part .tiles htiles]
    exact h.off
  shown := State.flagged_of_glb h.shown (hm.part .glb hglb)

/-- The state in which the logical buffer `k` of the retired buffer `j` has moved to buffer `i`, which wakes. -/
def State.bufferMoved (s : State) (j k i fl : Nat) : State :=
  ((s.modSpare (fun m => { m with bufMap := Tab.set m.bufMap k i })).logRemap (unitArg 4 0 0 j) i fl).wake (bufTile i)

theorem State.bufferMoved_spare (s : State) (j k i fl : Nat) :
    (s.bufferMoved j k i fl).spare = { s.spare with bufMap := Tab.set s.spare.bufMap k i } :=
  (State.wake_same (Sub.refl _) (Same.refl _ _) _).part .spare (by decide)

theorem State.bufferMoved_flagged (s : State) (j k i fl : Nat) :
    (s.bufferMoved j k i fl).flagged (BitVec.ofNat 32 (2 ^ evRetire)) :=
  State.flagged_of_glb (State.setEvt_flagged (State.modSpare s _) evRetire)
    ((State.wake_same (Sub.refl _) (Same.refl _ _) _).part .glb (by decide))

theorem State.retireBuffer_out {s : State} {j : Nat} (h : j ∉ s.spare.bufRet) (cause fl : Nat) :
    BufferOut j (s.retireBuffer j cause fl) := by
  have out : ∀ t : State, j ∈ t.spare.bufRet → t.flagged (BitVec.ofNat 32 (2 ^ evRetire)) →
      BufferOut j (({ t with tileSlots := Tab.set t.tileSlots j [] } : State).setClk (bufTile j) .off) :=
    fun t hret hshown => ⟨hret, Tab.get_set_same .., State.clk_setClk .., State.flagged_of_glb hshown rfl⟩
  unfold State.retireBuffer
  rw [if_neg (by simpa using h)]
  dsimp only
  split
  case h_1 k i _ _ =>
    refine out (State.bufferMoved _ j k i fl) ?_ (State.bufferMoved_flagged ..)
    rw [State.bufferMoved_spare]
    exact List.mem_cons_self
  case h_2 => exact out _ List.mem_cons_self (State.setEvt_flagged (State.modSpare s _) evRetire)

/-- The state in which the sum error of buffer `j` has counted, and an injection armed for it is spent. -/
def State.sumErrorCounted (s : State) (j : Nat) : State :=
  State.modTpb { s with monitor := { s.monitor with armed := s.monitor.armed.filter (fun k => !injectsTpb j k) } } j
    (fun t => { t with sumErr := satAdd 16 t.sumErr 1 })

/-- What the loss of a buffer brings about: the cuts that its tiles fed abort their passes, and with fewer than 6 healthy
buffers the cuts that name it go on at reduced capacity or stop. -/
def State.bufferLost (s : State) (fed cuts : List Nat) : State :=
  let s3 := fed.foldl State.abortCutPasses s
  if s3.tpbDegraded then
    let s4 := s3.logEvt (Config.unnamedCode 5) s3.healthyBufs.length 0
    if s3.healthyBufs.isEmpty then cuts.foldl State.stopForBuffer s4
    else cuts.foldl (fun t e => t.orFlags e (flag flReduced)) s4
  else s3

/-- A fault of a buffer in use counts, retires the buffer and brings about its loss. -/
theorem State.tpbFault_eq {s : State} {j : Nat} (h : j ∉ s.spare.bufRet) : ∃ fl,
    s.tpbFault j = ((s.sumErrorCounted j).retireBuffer j 0 fl).bufferLost
      (distinct ((Tab.get [] s.tileSlots j).map TileSlot.cut)) (s.cutsOnBuffer j) := by
  unfold State.tpbFault
  rw [if_neg (by simpa using h)]
  exact ⟨_, rfl⟩

theorem State.tpbFault_retired {s : State} {j : Nat} (h : j ∈ s.spare.bufRet) : s.tpbFault j = s := by
  unfold State.tpbFault
  rw [if_pos (by simpa using h)]

/-- What the loss of a buffer may change. -/
def lossMask : Nat := partMask [.faces, .benches, .kilns, .fabric, .cuts, .working, .hoists, .tileSlots, .log]

theorem State.bufferLost_same (s : State) (fed cuts : List Nat) : Same lossMask s (s.bufferLost fed cuts) := by
  have habort : Same lossMask s (fed.foldl State.abortCutPasses s) :=
    (Same.refl _ s).foldl _ _ fun _ e ht => State.abortCutPasses_same ⟨by decide⟩ ht e
  unfold State.bufferLost
  dsimp only
  split
  · have hlog := State.logEvt_same ⟨by decide⟩ habort (Config.unnamedCode 5)
      (fed.foldl State.abortCutPasses s).healthyBufs.length 0
    split
    · exact hlog.foldl _ _ fun _ e ht => State.stopForBuffer_same ⟨by decide⟩ ht e
    · exact hlog.foldl _ _ fun _ e ht => State.orFlags_same ⟨by decide⟩ ht e _
  · exact habort

/-- A cut that stops gives no buffer a tile. -/
theorem State.stopForBuffer_empty {s : State} {j : Nat} (h : Tab.get [] s.tileSlots j = []) (e : Nat) :
    Tab.get [] (s.stopForBuffer e).tileSlots j = [] := by
  have hdrop : ∀ t : State, t.tileSlots = s.tileSlots → Tab.get [] (t.dropTiles e).tileSlots j = [] := fun t ht => by
    rw [State.dropTiles, Tab.get_map [] t.tileSlots (fun _ v => v.filter (fun x => x.cut != e)) j rfl, ht, h]
    rfl
  have hcut : Tab.get [] (s.stopCut e 0x41 flFaulted).tileSlots j = [] := by
    unfold State.stopCut
    split
    · rw [show (State.setStatus _ e 0x41).tileSlots = _ from
        (State.setStatus_same (Sub.refl _) (Same.refl _ _) e 0x41).part .tileSlots (by decide)]
      exact hdrop _ rfl
    · exact h
  exact hcut

/-- The loss of a buffer gives no buffer a tile. -/
theorem State.bufferLost_empty {s : State} {j : Nat} (h : Tab.get [] s.tileSlots j = []) (fed cuts : List Nat) :
    Tab.get [] (s.bufferLost fed cuts).tileSlots j = [] := by
  have habort : Tab.get [] (fed.foldl State.abortCutPasses s).tileSlots j = [] :=
    List.foldlRecOn (motive := fun t : State => Tab.get [] t.tileSlots j = []) fed _ h fun t ht e _ => by
      rw [show (t.abortCutPasses e).tileSlots = t.tileSlots from
        (State.abortCutPasses_same (Sub.refl _) (Same.refl _ t) e).part .tileSlots (by decide)]
      exact ht
  unfold State.bufferLost
  dsimp only
  split
  · split
    · exact List.foldlRecOn (motive := fun t : State => Tab.get [] t.tileSlots j = []) cuts _ habort
        fun t ht e _ => State.stopForBuffer_empty ht e
    · exact List.foldlRecOn (motive := fun t : State => Tab.get [] t.tileSlots j = []) cuts _ habort
        fun t ht e _ => ht
  · exact habort

section
variable {s : State} {j : Nat} (h : j ∉ s.spare.bufRet)
include h

theorem State.tpbFault_out : BufferOut j (s.tpbFault j) := by
  obtain ⟨fl, hfault⟩ := State.tpbFault_eq h
  rw [hfault]
  have hout := State.retireBuffer_out (s := s.sumErrorCounted j) h 0 fl
  exact hout.of_same (State.bufferLost_same ..) (State.bufferLost_empty hout.empty ..) (by decide) (by decide) (by decide)

/-- A fault changes the counters of the faulty buffer alone. -/
theorem State.tpbFault_tpb (i : Nat) : (s.tpbFault j).tpb i = (s.sumErrorCounted j).tpb i := by
  obtain ⟨fl, hfault⟩ := State.tpbFault_eq h
  rw [hfault]
  refine State.tpb_congr (s := s.sumErrorCounted j) (((State.bufferLost_same _ _ _).part .tpbs (by decide)).trans ?_) i
  exact (State.retireBuffer_same (Sub.refl _) (Same.refl _ (s.sumErrorCounted j)) j 0 fl).part .tpbs (by decide)

end

/-! ### O35: transposing buffers -/

/-- Settles O35: a tile that finds room changes its slot, the buffer's stall counters and, if narrowed, its cut's flags;
a fault retires the buffer, and what follows the retirement neither wakes it nor gives it a tile. -/
theorem buffers : Obligations.Buffers := by
  unfold Obligations.Buffers
  intro s hs
  refine ⟨fun k st fmt e rows scales stalls => ⟨fun o hr ho hb h4 h2 ha => ?takes, fun h => ?full⟩, fun j h => ?fault,
    fun j h => ?retired⟩
  case takes =>
    have hstep := (State.tileLoadAny_unarmed ha).trans
      (State.tileLoad_takes (rows := rows) (scales := scales) (stalls := stalls) hr ho hb h4 h2)
    obtain ⟨hstalls, hstallsOther, hslots, hslotsOther⟩ :=
      s.tileTaken_spec (s.bufPhys k.val) (o.tile e.val st rows scales) stalls
    cases hn : o.narrows with
    | false =>
      rw [hn] at hstep
      exact Leads.effect hs (exec_tileLoadDone ..) hstep ⟨rfl, hstalls, hstallsOther, hslots, hslotsOther, fun _ => rfl,
        nofun⟩
    | true =>
      rw [hn] at hstep
      exact Leads.effect hs (exec_tileLoadDone ..) hstep ⟨rfl, hstalls, hstallsOther, hslots, hslotsOther, nofun,
        fun _ => ⟨congrArg CutRun.flags (State.cut_modCut ..), o.orFlags_narrowed rows scales _ e.val,
          fun i hi => State.cut_modCut_other _ e.val i _ hi⟩⟩
  case full =>
    exact Ignored.effect hs (exec_tileLoadDone ..) (State.tileLoadAny_none (State.tileLoad_none h))
  case fault =>
    have hsame := State.tpbFault_same (Sub.refl _) (Same.refl _ s) j.val
    obtain ⟨hret, hempty, hoff, hshown⟩ := State.tpbFault_out h
    refine Leads.effect hs (exec_tpbFault ..) rfl ⟨hret, ?_, fun i hi => ?_, hempty, hoff, hshown,
      hsame.part .yard (by decide), hsame.part .tallies (by decide)⟩
    · rw [State.tpbFault_tpb h, State.sumErrorCounted, State.tpb_modTpb]
      rfl
    · rw [State.tpbFault_tpb h, State.sumErrorCounted, State.tpb_modTpb_other _ _ _ _ hi]
      rfl
  case retired =>
    exact Ignored.effect hs (exec_tpbFault ..) (State.tpbFault_retired h)

end Sys2Proof.Machine
end

section
/-! Which commands have a next state: all but those that name a byte beyond the end of the yard (R114, R176). -/

namespace Sys2Proof.Machine

/-- The byte of the yard that a command names (R369, R371). -/
def yardByte : Instr → Option Nat
  | .yardCorrected a => some a
  | .uncorrectableYard a => some a
  | .patrolScrub line _ => some (line * 64)
  | _ => none

theorem eq_of_yardByte {c : Instr} {a : Nat} (h : yardByte c = some a) :
    c = .yardCorrected a ∨ c = .uncorrectableYard a ∨ ∃ line es, c = .patrolScrub line es ∧ a = line * 64 := by
  unfold yardByte at h
  split at h
  · exact .inl (by rw [Option.some.inj h])
  · exact .inr (.inl (by rw [Option.some.inj h]))
  · exact .inr (.inr ⟨_, _, rfl, (Option.some.inj h).symm⟩)
  · cases h

/-- A command that names no byte of the yard has a next state. -/
theorem exec_of_yardByte_none {c : Instr} (h : yardByte c = none) (s : State) : ∃ t, exec c s = .next t := by
  cases c with
  | yardCorrected | uncorrectableYard | patrolScrub => cases h
  | _ => exact ⟨_, rfl⟩

/-- A command that names a byte of the yard is an effect on that byte. -/
theorem exec_of_yardByte {c : Instr} {a : Nat} (h : yardByte c = some a) (s : State) :
    ∃ f, exec c s = s.onYard a f := by
  rcases eq_of_yardByte h with rfl | rfl | ⟨line, es, rfl, rfl⟩ <;> exact ⟨_, rfl⟩

theorem State.onYard_within (s : State) {a : Nat} (h : a < Config.yardBytes) (f : State → State) :
    s.onYard a f = s.on f := if_pos h

theorem State.onYard_beyond (s : State) {a : Nat} (h : ¬ a < Config.yardBytes) (f : State → State) :
    s.onYard a f = .fault (.yardHole a) := if_neg h

/-- Settles O9: a command that names no byte of the yard always has a next state, and one that names a byte has one
exactly where the yard has the byte. -/
theorem everyCommandRuns : Obligations.EveryCommandRuns := by
  unfold Obligations.EveryCommandRuns
  intro c s
  cases hc : yardByte c with
  | none => exact .inl (exec_of_yardByte_none hc s)
  | some a =>
    obtain ⟨f, hf⟩ := exec_of_yardByte hc s
    by_cases ha : a < Config.yardBytes
    · exact .inl ⟨_, hf.trans (s.onYard_within ha f)⟩
    · exact .inr ⟨a, Nat.le_of_not_lt ha, hf.trans (s.onYard_beyond ha f), eq_of_yardByte hc⟩

end Sys2Proof.Machine
end

section
/-! Lines that hoists read: claims, delivery in stream order, lines that come back and lines that come back with an
error (R123, R147, R150, R166, R322, R366). -/

namespace Sys2Proof.Machine

theorem exec_hoistClaim (n : Fin 128) (lines : List LinePoint) (s : State) :
    exec (.hoistClaim n lines) s = s.on (fun s => s.claim n.val lines) := rfl

theorem exec_fabricReadReturn (n : Fin 128) (seq : Nat) (data : List Byte) (s : State) :
    exec (.fabricReadReturn n seq data) s = s.on (fun s => s.readReturn n.val seq data) := rfl

theorem exec_fabricReadError (n : Fin 128) (seq : Nat) (s : State) :
    exec (.fabricReadError n seq) s = s.on (fun s => s.readError n.val seq) := rfl

/-- What claims and reads of hoists may change where they halt no working. -/
def readMask : Nat := partMask [.hoists, .yard, .cuts, .fabric]

theorem Same.eq_of_readMask {s t : State} (h : Same readMask s t) :
    t = { s with hoists := t.hoists, yard := t.yard, cuts := t.cuts, fabric := t.fabric } :=
  State.eq_of_parts fun p => by
    have hp := h.part p
    cases p <;> first
      | exact hp (by decide)
      | rfl

theorem State.hoist_congr {s t : State} (h : t.hoists = s.hoists) (k : Nat) : t.hoist k = s.hoist k := by
  rw [State.hoist, h]
  rfl

theorem State.claim_frame (s : State) (n : Nat) (lines : List LinePoint) :
    s.claim n lines = { s with hoists := (s.claim n lines).hoists, yard := (s.claim n lines).yard } := by
  have hsame := State.claim_same (Sub.refl _) (Same.refl _ s) n lines
  have hcuts : (s.claim n lines).cuts = s.cuts := hsame.part .cuts (by decide)
  have hfabric : (s.claim n lines).fabric = s.fabric := hsame.part .fabric (by decide)
  have hframe := (State.claim_same ⟨by decide⟩ (Same.refl _ s) n lines).eq_of_readMask
  rwa [hcuts, hfabric] at hframe

/-! ### Delivery in stream order (R166) -/

/-- What the delivery of lines leaves: the other hoists; of hoist `n` all but its state and what it has delivered; and
the yard, unless the hoist writes there. -/
structure Delivers (n : Nat) (s t : State) : Prop where
  others : ∀ k, k ≠ n → t.hoist k = s.hoist k
  hoist : t.hoist n = { s.hoist n with
    deliver := (t.hoist n).deliver, bytes := (t.hoist n).bytes, out := (t.hoist n).out, st := (t.hoist n).st }
  yard : ∀ t₀, (s.hoist n).tmpl = some t₀ → t₀.dst ≠ 1 → t.yard = s.yard

theorem Delivers.refl (n : Nat) (s : State) : Delivers n s s := ⟨fun _ _ => rfl, rfl, fun _ _ _ => rfl⟩

theorem Delivers.tmpl {n : Nat} {s t : State} (h : Delivers n s t) : (t.hoist n).tmpl = (s.hoist n).tmpl :=
  (congrArg Hoist.tmpl h.hoist :)

theorem Delivers.trans {n : Nat} {s a t : State} (h : Delivers n s a) (k : Delivers n a t) : Delivers n s t where
  others j hj := (k.others j hj).trans (h.others j hj)
  hoist := k.hoist.trans (by rw [h.hoist])
  yard t₀ ht hne := (k.yard t₀ (h.tmpl.trans ht) hne).trans (h.yard t₀ ht hne)

theorem Delivers.modHoist (n : Nat) (s : State) {f : Hoist → Hoist}
    (hf : ∀ h, f h = { h with deliver := (f h).deliver, bytes := (f h).bytes, out := (f h).out, st := (f h).st }) :
    Delivers n s (s.modHoist n f) where
  others k hk := s.hoist_modHoist_other n k f hk
  hoist := by
    rw [State.hoist_modHoist]
    exact hf _
  yard _ _ _ := rfl

theorem Delivers.putYard {n : Nat} {s : State} {t : HoistTmpl} (ht : (s.hoist n).tmpl = some t) (hd : t.dst = 1)
    (a : Nat) (bs : List Byte) : Delivers n s (s.putYard a bs) where
  others _ _ := rfl
  hoist := rfl
  yard t₀ h₀ hne := by
    cases ht.symm.trans h₀
    exact absurd hd hne

theorem Delivers.deliverLine (n : Nat) (s : State) (q : LineReq) (bs : List Byte) :
    Delivers n s (s.deliverLine n q bs) := by
  unfold State.deliverLine
  extract_lets h s1
  have h1 : Delivers n s s1 := .modHoist n s fun _ => rfl
  clear_value s1
  split
  · next t a ht _ =>
    split
    · exact h1.trans (.modHoist n s1 fun _ => rfl)
    · split
      · next hd => exact h1.trans (.putYard (h1.tmpl.trans ht) hd a bs)
      · exact h1
  · exact h1

theorem Delivers.deliverN (n : Nat) (s : State) (k : Nat) : Delivers n s (s.deliverN n k) := by
  induction k generalizing s with
  | zero => exact .refl n s
  | succ k ih =>
    unfold State.deliverN
    split
    · split
      · exact (Delivers.deliverLine n s _ _).trans (ih _)
      · exact .refl n s
    · exact .refl n s

theorem Delivers.deliverAll (n : Nat) (s : State) : Delivers n s (s.deliverAll n) :=
  (Delivers.deliverN n s _).trans (.modHoist n _ fun _ => rfl)

/-- The line at the delivery point has not arrived. -/
def Hoist.awaitsNext (h : Hoist) : Prop := ∀ r ∈ h.reqs, r.seq = h.deliver → r.data = none

/-- Nothing is delivered ahead of a line that has not arrived. -/
theorem State.deliverN_awaitsNext {s : State} {n : Nat} (h : (s.hoist n).awaitsNext) (k : Nat) :
    s.deliverN n k = s := by
  cases k with
  | zero => rfl
  | succ k =>
    unfold State.deliverN
    split
    · next q hq =>
      rw [h q (List.mem_of_find?_eq_some hq) (by simpa using List.find?_some hq)]
    · rfl

theorem State.deliverAll_awaitsNext {s : State} {n : Nat} (h : (s.hoist n).awaitsNext) :
    ((s.deliverAll n).hoist n).deliver = (s.hoist n).deliver ∧ (s.deliverAll n).yard = s.yard ∧
      ((s.deliverAll n).hoist n).out = (s.hoist n).out := by
  unfold State.deliverAll
  rw [State.deliverN_awaitsNext h]
  dsimp only
  rw [State.hoist_modHoist]
  exact ⟨rfl, rfl, rfl⟩

/-! ### HOIST_CLAIM (R147, R150) -/

/-- The hoist with the granules of the requested lines claimed. -/
def Hoist.claims (h : Hoist) (reqs : List LineReq) : Hoist :=
  { h with occ := h.occ + granulesOf reqs.length, st := .stream, reqs := h.reqs ++ reqs
           nextSeq := h.nextSeq + reqs.length }

/-- A stream that is neither stopped nor over, with nothing parked, may claim granules within its transfer size. -/
theorem Hoist.mayClaim {h : Hoist} {t : HoistTmpl} {g : Nat} (hst : h.st ≠ .stopped) (hend : h.ended = false)
    (hpos : 0 < g) (hsize : g ≤ t.tsize) (hpark : h.parked = []) :
    ¬ (h.st = .stopped ∨ h.ended = true ∨ g = 0 ∨ t.tsize < g ∨ ¬ h.parked = []) := by
  simp only [hst, hend, hpark, not_true_eq_false, Bool.false_eq_true, false_or, or_false]
  omega

section
variable {s : State} {n e : Nat} {t₁ : HoistTmpl} {lines : List LinePoint}

/-- A hoist that is stopped, has ended or has parked transfers claims nothing. -/
theorem State.claim_none (h : (s.hoist n).st = .stopped ∨ (s.hoist n).ended = true ∨ (s.hoist n).parked ≠ []) :
    s.claim n lines = s := by
  unfold State.claim
  dsimp only
  split
  · split
    · rfl
    · exact if_pos (h.imp_right (Or.imp_right fun hp => .inr (.inr hp)))
  · rfl

variable (ht : s.streamTmpl (s.hoist n) = some t₁) (hc : (s.hoist n).cut = some e) {sm : MapDesc}
  (hv : s.hoistView (s.cut e) (s.hoist n) false = some sm)
  (hgo : ¬ ((s.hoist n).st = .stopped ∨ (s.hoist n).ended = true ∨ granulesOf lines.length = 0 ∨
    t₁.tsize < granulesOf lines.length ∨ ¬ (s.hoist n).parked = []))
include ht hc hv hgo

/-- Without room the hoist waits. -/
theorem State.claim_waits (hr : s.canClaim (s.hoist n) (granulesOf lines.length) = false) :
    s.claim n lines = s.modHoist n (fun h => { h with st := .claim }) := by
  simp [State.claim, ht, hc, hv, hgo, hr]

/-- With room a request for each line joins the stream, and what has arrived goes on. -/
theorem State.claim_room (hr : s.canClaim (s.hoist n) (granulesOf lines.length) = true) :
    ∃ reqs : List LineReq, reqs.length = lines.length ∧
      s.claim n lines = (s.modHoist n (fun h => h.claims reqs)).deliverAll n := by
  simp only [State.claim, ht, hc, hv, hgo, hr, if_true, if_false]
  generalize hreqs : List.mapIdx (β := LineReq) _ lines = reqs
  have hlen : reqs.length = lines.length := hreqs ▸ List.length_mapIdx
  refine ⟨reqs, hlen, ?_⟩
  rw [← hlen]
  rfl

/-- A claim with room takes its granules and asks for its lines; only a hoist that writes to the yard changes it. -/
theorem State.claim_takes (hr : s.canClaim (s.hoist n) (granulesOf lines.length) = true) :
    let t := s.claim n lines
    (t.hoist n).occ = (s.hoist n).occ + granulesOf lines.length ∧
      (t.hoist n).nextSeq = (s.hoist n).nextSeq + lines.length ∧
      (t.hoist n).reqs.length = (s.hoist n).reqs.length + lines.length ∧
      (∀ t₀, (s.hoist n).tmpl = some t₀ → t₀.dst ≠ 1 → t.yard = s.yard) ∧ ∀ k, k ≠ n → t.hoist k = s.hoist k := by
  obtain ⟨reqs, hlen, hclaim⟩ := State.claim_room ht hc hv hgo hr
  obtain ⟨hothers, hself, hyard⟩ := Delivers.deliverAll n (s.modHoist n (fun h => h.claims reqs))
  rw [← hclaim, s.hoist_modHoist] at hself
  rw [← hclaim, s.hoist_modHoist] at hyard
  rw [← hclaim] at hothers
  refine ⟨?occ, ?nextSeq, ?reqs, hyard, fun k hk => (hothers k hk).trans (s.hoist_modHoist_other n k _ hk)⟩
  case occ => rw [hself, ← hlen]; rfl
  case nextSeq => rw [hself, ← hlen]; rfl
  case reqs => rw [hself, ← hlen]; exact List.length_append

end

/-! ### FABRIC_READ_RETURN (R123, R166) -/

/-- The hoist with the line of request `q` arrived: its valid bytes, then fill. -/
def Hoist.lineArrived (h : Hoist) (seq : Nat) (q : LineReq) (data : List Byte) : Hoist :=
  h.modReq seq (fun r => { r with errors := 0, data := some (data.take q.valid ++ q.fill.drop q.valid) })

theorem Hoist.waitingFor_mem {h : Hoist} {seq : Nat} {q : LineReq} (hq : h.waitingFor seq = some q) :
    q ∈ h.reqs ∧ q.seq = seq := by
  refine ⟨List.mem_of_find?_eq_some hq, ?_⟩
  have hp := List.find?_some hq
  simp only [Bool.and_eq_true, beq_iff_eq] at hp
  obtain ⟨⟨hseq, -⟩, -⟩ := hp
  exact hseq

/-- A request that is changed where it stands. -/
theorem Hoist.mem_modReq {h : Hoist} {q : LineReq} (hq : q ∈ h.reqs) (f : LineReq → LineReq) :
    f q ∈ (h.modReq q.seq f).reqs :=
  List.mem_map.mpr ⟨q, hq, if_pos rfl⟩

/-- A line that arrives out of turn leaves the delivery point waiting. -/
theorem Hoist.lineArrived_awaitsNext {h : Hoist} {seq : Nat} (hw : h.awaitsNext) (hne : seq ≠ h.deliver) (q : LineReq)
    (data : List Byte) : (h.lineArrived seq q data).awaitsNext := by
  intro r hr hd
  obtain ⟨x, hx, rfl⟩ := List.mem_map.mp hr
  by_cases hs : x.seq = seq
  · rw [if_pos hs] at hd
    exact absurd (hs.symm.trans hd) hne
  · rw [if_neg hs] at hd ⊢
    exact hw x hx hd

/-- The state in which the line of request `q` has arrived and what can be delivered is. -/
def State.lineTaken (s : State) (n seq : Nat) (q : LineReq) (data : List Byte) : State :=
  (s.modHoist n (fun h => h.lineArrived seq q data)).deliverAll n

theorem State.readReturn_eq {s : State} {n seq : Nat} {q : LineReq} (h : (s.hoist n).waitingFor seq = some q)
    (data : List Byte) : s.readReturn n seq data = (s.lineTaken n seq q data).linesBack n := by
  unfold State.readReturn
  rw [h]
  rfl

theorem State.readReturn_none {s : State} {n seq : Nat} (h : (s.hoist n).waitingFor seq = none) (data : List Byte) :
    s.readReturn n seq data = s := by
  unfold State.readReturn
  rw [h]

/-- A cut that reads no lines of the hoist again starts no replay with them. -/
theorem State.linesBack_none {s : State} {n e : Nat} (hc : (s.hoist n).cut = some e)
    (h : ∀ k, .lines n k ∉ (s.cut e).awaiting) : s.linesBack n = s := by
  unfold State.linesBack State.replayStarts
  rw [hc]
  refine if_neg ?_
  rw [List.any_eq_true]
  rintro ⟨r, hr, hp⟩
  split at hp
  · next m k =>
    simp only [Bool.and_eq_true, beq_iff_eq] at hp
    obtain ⟨rfl, -⟩ := hp
    exact h k hr
  · cases hp

theorem State.hoist_linesBack (s : State) (n k : Nat) : (s.linesBack n).hoist k = s.hoist k :=
  State.hoist_congr ((State.linesBack_same (Sub.refl _) (Same.refl _ s) n).part .hoists (by decide)) k

theorem State.lineTaken_same (s : State) (n seq : Nat) (q : LineReq) (data : List Byte) :
    Same (partMask [.hoists, .yard]) s (s.lineTaken n seq q data) :=
  State.deliverAll_same ⟨by decide⟩ (State.modHoist_same ⟨by decide⟩ (Same.refl _ s) n _) n

/-- The delivery leaves the hoist its cut and its requests, and leaves the other hoists. -/
theorem State.lineTaken_hoist (s : State) (n seq : Nat) (q : LineReq) (data : List Byte) :
    ((s.lineTaken n seq q data).hoist n).cut = (s.hoist n).cut ∧
    ((s.lineTaken n seq q data).hoist n).reqs = ((s.hoist n).lineArrived seq q data).reqs ∧
    ∀ k, k ≠ n → (s.lineTaken n seq q data).hoist k = s.hoist k := by
  obtain ⟨hothers, hself, -⟩ := Delivers.deliverAll n (s.modHoist n (fun h => h.lineArrived seq q data))
  rw [s.hoist_modHoist] at hself
  exact ⟨(congrArg Hoist.cut hself :), (congrArg Hoist.reqs hself :),
    fun k hk => (hothers k hk).trans (s.hoist_modHoist_other n k _ hk)⟩

section
variable {s : State} {n seq e : Nat} {q : LineReq} (data : List Byte)

/-- The line's request holds its valid bytes and then fill, and counts no error. -/
theorem State.readReturn_arrives (hq : (s.hoist n).waitingFor seq = some q) :
    ∃ r ∈ ((s.readReturn n seq data).hoist n).reqs, r.seq = seq ∧
      r.data = some (data.take q.valid ++ q.fill.drop q.valid) ∧ r.errors = 0 := by
  obtain ⟨hmem, hseq⟩ := Hoist.waitingFor_mem hq
  obtain ⟨-, hreqs, -⟩ := s.lineTaken_hoist n seq q data
  rw [State.readReturn_eq hq, State.hoist_linesBack, hreqs]
  subst hseq
  exact ⟨_, Hoist.mem_modReq hmem _, rfl, rfl, rfl⟩

theorem State.readReturn_others (hq : (s.hoist n).waitingFor seq = some q) {k : Nat} (hk : k ≠ n) :
    (s.readReturn n seq data).hoist k = s.hoist k := by
  obtain ⟨-, -, hothers⟩ := s.lineTaken_hoist n seq q data
  rw [State.readReturn_eq hq, State.hoist_linesBack, hothers k hk]

/-- Lines that no replay waits for leave the cuts and their records. -/
theorem State.readReturn_cuts (hq : (s.hoist n).waitingFor seq = some q) (hc : (s.hoist n).cut = some e)
    (h : ∀ k, .lines n k ∉ (s.cut e).awaiting) :
    (s.readReturn n seq data).cuts = s.cuts ∧ (s.readReturn n seq data).fabric = s.fabric := by
  have hsame := s.lineTaken_same n seq q data
  have hcuts : (s.lineTaken n seq q data).cuts = s.cuts := hsame.part .cuts (by decide)
  have hcut : (s.lineTaken n seq q data).cut e = s.cut e := by
    rw [State.cut, hcuts]
    rfl
  obtain ⟨hn, -, -⟩ := s.lineTaken_hoist n seq q data
  rw [State.readReturn_eq hq, State.linesBack_none (hn.trans hc) (by rwa [hcut])]
  exact ⟨hcuts, hsame.part .fabric (by decide)⟩

/-- A line that arrives out of turn is not delivered. -/
theorem State.readReturn_early (hq : (s.hoist n).waitingFor seq = some q) (hw : (s.hoist n).awaitsNext)
    (hne : seq ≠ (s.hoist n).deliver) :
    ((s.readReturn n seq data).hoist n).deliver = (s.hoist n).deliver ∧ (s.readReturn n seq data).yard = s.yard ∧
      ((s.readReturn n seq data).hoist n).out = (s.hoist n).out := by
  have hstill := State.deliverAll_awaitsNext (s := s.modHoist n (fun h => h.lineArrived seq q data)) (n := n)
    (by rw [s.hoist_modHoist]; exact Hoist.lineArrived_awaitsNext hw hne q data)
  rw [s.hoist_modHoist] at hstill
  obtain ⟨hdeliver, hyard, hout⟩ := hstill
  rw [State.readReturn_eq hq, State.hoist_linesBack]
  refine ⟨hdeliver, ?_, hout⟩
  exact ((State.linesBack_same (Sub.refl _) (Same.refl _ _) n).part .yard (by decide)).trans hyard

end

/-! ### FABRIC_READ_ERROR (R322, R366) -/

/-- The hoist with one more error of the line with a sequence number. -/
def Hoist.lineFailed (h : Hoist) (seq : Nat) : Hoist :=
  { h.modReq seq (fun r => { r with errors := r.errors + 1 }) with errRd := satAdd 8 h.errRd 1 }

/-- The state in which an error has counted and the passes that would take the line are aborted. -/
def State.lineUnread (s : State) (n seq : Nat) : State :=
  (s.modHoist n (fun h => h.lineFailed seq)).abortFed n (seq + 1) (s.hoist n)

theorem State.readError_none {s : State} {n seq : Nat} (h : (s.hoist n).waitingFor seq = none) :
    s.readError n seq = s := by
  simp only [State.readError, h]

section
variable {s : State} {n seq e : Nat} {q : LineReq} (hq : (s.hoist n).waitingFor seq = some q)
  (hc : (s.hoist n).cut = some e)
include hq hc

/-- Up to three errors in a row: the line is asked for again. -/
theorem State.readError_again (h : q.errors < 3) : s.readError n seq = s.lineUnread n seq := by
  have h4 : q.errors + 1 < 4 := by omega
  simp only [State.readError, hq, hc, h4, if_true]
  rfl

/-- The fourth error in a row halts the working. -/
theorem State.readError_halts (h : 3 ≤ q.errors) : s.readError n seq =
    (s.lineUnread n seq).halt (s.cut e).desc.working haltFabric (q.addr.getD 0) (some e) := by
  have h4 : ¬ q.errors + 1 < 4 := by omega
  simp only [State.readError, hq, hc, h4, if_false]
  rfl

end

/-- Where the hoist feeds no pass in progress, only an X-cut's slab is read again (R322). -/
theorem State.abortFed_unfed {s : State} {h : Hoist} {e : Nat} (hf : s.fedPasses h = []) (hc : h.cut = some e)
    (n upTo : Nat) : s.abortFed n upTo h = if (s.cut e).desc.kind = 5 ∧ h.out = [] then
      (s.orFlags e (flag flFaulted)).awaitReplay e (.lines n upTo) else s := by
  simp only [State.abortFed, hf, hc, List.foldl_nil]

theorem State.setStatus_awaiting (s : State) (e code : Nat) :
    ((s.setStatus e code).cut e).awaiting = (s.cut e).awaiting := by
  have h1 : ((s.modCut e (fun c => { c with status := code })).cut e).awaiting = (s.cut e).awaiting := by
    rw [State.cut_modCut]
  unfold State.setStatus
  split <;> exact h1

/-- An aborted part of a cut shows 0x41 and waits for its replay (R15). -/
theorem State.awaitReplay_cut (s : State) (e : Nat) (r : Replay) :
    ((s.awaitReplay e r).cut e).status = 0x41 ∧ r ∈ ((s.awaitReplay e r).cut e).awaiting := by
  refine ⟨State.setStatus_status .., ?_⟩
  rw [State.awaitReplay, State.setStatus_awaiting, State.cut_modCut]
  exact List.mem_append_right _ (List.mem_singleton_self r)

section
variable {s : State} {n e : Nat} (hf : s.fedPasses (s.hoist n) = []) (hc : (s.hoist n).cut = some e) (seq : Nat)
include hf hc

theorem State.lineUnread_eq : s.lineUnread n seq =
    let s1 := s.modHoist n (fun h => h.lineFailed seq)
    if (s.cut e).desc.kind = 5 ∧ (s.hoist n).out = [] then
      (s1.orFlags e (flag flFaulted)).awaitReplay e (.lines n (seq + 1)) else s1 :=
  State.abortFed_unfed (s := s.modHoist n (fun h => h.lineFailed seq)) hf hc n (seq + 1)

/-- Of the hoists, the error changes the one that it struck. -/
theorem State.lineUnread_spec : Same (partMask [.hoists, .cuts, .fabric]) s (s.lineUnread n seq) ∧
    (s.lineUnread n seq).hoist n = (s.hoist n).lineFailed seq ∧
    ∀ k, k ≠ n → (s.lineUnread n seq).hoist k = s.hoist k := by
  have hcount := State.modHoist_same (M := partMask [.hoists, .cuts, .fabric]) ⟨by decide⟩ (Same.refl _ s) n
    (fun h => h.lineFailed seq)
  have habort : Same (partMask [.cuts, .fabric]) (s.modHoist n (fun h => h.lineFailed seq)) (s.lineUnread n seq) := by
    rw [State.lineUnread_eq hf hc]
    dsimp only
    split
    · exact State.awaitReplay_same ⟨by decide⟩ (State.orFlags_same ⟨by decide⟩ (Same.refl _ _) e _) e _
    · exact Same.refl _ _
  have hhoist := State.hoist_congr (habort.part .hoists (by decide))
  exact ⟨hcount.trans (habort.mono ⟨by decide⟩), (hhoist n).trans (s.hoist_modHoist n _),
    fun k hk => (hhoist k).trans (s.hoist_modHoist_other n k _ hk)⟩

/-- But for the slab of an X-cut that sends nothing, no cut changes. -/
theorem State.lineUnread_stands (h : (s.cut e).desc.kind ≠ 5 ∨ (s.hoist n).out ≠ []) :
    (s.lineUnread n seq).cuts = s.cuts ∧ (s.lineUnread n seq).fabric = s.fabric := by
  have hstands : ¬ ((s.cut e).desc.kind = 5 ∧ (s.hoist n).out = []) :=
    fun ⟨h5, hout⟩ => h.elim (absurd h5) (absurd hout)
  rw [State.lineUnread_eq hf hc, if_neg hstands]
  exact ⟨rfl, rfl⟩

/-- An X-cut shows 0x41 until the lines of its slab have come again (R322). -/
theorem State.lineUnread_replays (h5 : (s.cut e).desc.kind = 5) (hout : (s.hoist n).out = []) :
    ((s.lineUnread n seq).cut e).status = 0x41 ∧ .lines n (seq + 1) ∈ ((s.lineUnread n seq).cut e).awaiting := by
  rw [State.lineUnread_eq hf hc, if_pos ⟨h5, hout⟩]
  exact State.awaitReplay_cut _ e _

end

/-! ### The halt of a working (R365) -/

/-- The state in which the sequencer of a working that halts and the working's cuts have stopped. -/
def State.haltStops (s : State) (w : Nat) (at' : Option Nat) : State :=
  let s1 := s.modWork w (fun x => { x with seq := .halted })
  let s2 := match at' with
    | some e => (s1.abortPasses e).stopCut e 0x41 flFaulted
    | none => s1
  (s2.liveOf w).foldl (fun t e => t.stopCut e 0x41 flPreempted) s2

theorem State.halt_eq (s : State) (w cause arg : Nat) (at' : Option Nat) :
    s.halt w cause arg at' = ((s.haltStops w at').setEvt evHalt).logRec 0x0205 w 0 cause arg := rfl

theorem State.haltStops_same (s : State) (w : Nat) (at' : Option Nat) :
    Same (partMask [.benches, .cuts, .fabric, .hoists, .tileSlots]) (s.modWork w (fun x => { x with seq := .halted }))
      (s.haltStops w at') := by
  unfold State.haltStops
  extract_lets s1 s2
  have h2 : Same (partMask [.benches, .cuts, .fabric, .hoists, .tileSlots]) s1 s2 := by
    dsimp only [s2]
    split
    · exact State.stopCut_same ⟨by decide⟩ (State.abortPasses_same ⟨by decide⟩ (Same.refl _ s1) _) _ _ _
    · exact Same.refl _ s1
  exact h2.foldl _ _ fun _ e ht => State.stopCut_same ⟨by decide⟩ ht e _ _

theorem State.halt_work (s : State) (w cause arg : Nat) (at' : Option Nat) :
    ((s.halt w cause arg at').work w).seq = .halted := by
  have hw : (s.halt w cause arg at').working = (s.modWork w (fun x => { x with seq := .halted })).working :=
    (s.haltStops_same w at').part .working (by decide)
  rw [State.work, hw]
  exact congrArg Working.seq (s.work_modWork w _)

theorem Raised.of_glb {s a t : State} {i : Nat} (h : Raised a t i) (hg : a.glb = s.glb) : Raised s t i := by
  rwa [Raised, ← hg]

theorem Logged.of_log {s a t : State} {code w fl x y : Nat} (h : Logged a t code w fl x y) (hl : a.log = s.log)
    (hn : a.nc = s.nc) : Logged s t code w fl x y := by
  rwa [Logged, ← hl, ← hn]

theorem State.halt_raised (s : State) (w cause arg : Nat) (at' : Option Nat) :
    Raised s (s.halt w cause arg at') evHalt := by
  rw [State.halt_eq]
  exact Raised.of_glb (a := s.haltStops w at') rfl ((s.haltStops_same w at').part .glb (by decide))

theorem State.halt_logged (s : State) (w cause arg : Nat) (at' : Option Nat) :
    Logged s (s.halt w cause arg at') 0x0205 w 0 cause arg := by
  rw [State.halt_eq]
  have hlogged := State.logged_logRec ((s.haltStops w at').setEvt evHalt) 0x0205 w 0 cause arg
  exact hlogged.of_log ((s.haltStops_same w at').part .log (by decide)) ((s.haltStops_same w at').part .nc (by decide))

theorem Hoist.stop_errRd (h : Hoist) : h.stop.errRd = h.errRd := by
  unfold Hoist.stop
  split
  · rfl
  · split <;> rfl

/-- Every hoist's count of read errors is the same. -/
def ReadErrorsKept (s t : State) : Prop := ∀ k, (t.hoist k).errRd = (s.hoist k).errRd

theorem ReadErrorsKept.of_hoists {s t : State} (h : t.hoists = s.hoists) : ReadErrorsKept s t := fun k =>
  congrArg Hoist.errRd (State.hoist_congr h k)

theorem ReadErrorsKept.trans {s a t : State} (h : ReadErrorsKept s a) (k : ReadErrorsKept a t) : ReadErrorsKept s t :=
  fun j => (k j).trans (h j)

theorem ReadErrorsKept.stopHoists (s : State) (e : Nat) : ReadErrorsKept s (s.stopHoists e) := fun k => by
  have hk := Tab.get_map Hoist.reset s.hoists (fun _ h => if h.cut = some e then h.stop else h) k rfl
  rw [State.hoist, State.stopHoists, hk]
  split
  · exact Hoist.stop_errRd _
  · rfl

theorem ReadErrorsKept.stopCut (s : State) (e code fl : Nat) : ReadErrorsKept s (s.stopCut e code fl) := by
  unfold State.stopCut
  split
  · refine .trans ?_ (.of_hoists ((State.setStatus_same (Sub.refl _) (Same.refl _ _) e code).part .hoists (by decide)))
    exact ReadErrorsKept.stopHoists ((s.modCut e _).orFlags e (flag fl)) e
  · exact .of_hoists rfl

theorem ReadErrorsKept.halt (s : State) (w cause arg : Nat) (at' : Option Nat) :
    ReadErrorsKept s (s.halt w cause arg at') := by
  have hstops : ReadErrorsKept s (s.haltStops w at') := by
    unfold State.haltStops
    extract_lets s1 s2
    have h2 : ReadErrorsKept s s2 := by
      dsimp only [s2]
      split
      · refine .trans (.of_hoists ?_) (.stopCut _ _ _ _)
        exact (State.abortPasses_same (Sub.refl _) (Same.refl _ s1) _).part .hoists (by decide)
      · exact .of_hoists rfl
    exact List.foldlRecOn (motive := ReadErrorsKept s) _ _ h2 fun t ht e _ => ht.trans (.stopCut t e _ _)
  exact hstops

/-! ### O36: the reads of hoists -/

/-- Settles O36: delivery stops at the line that has not arrived and leaves a hoist's granules and requests; an error
changes what its line's hoist holds, begins the replay of an X-cut's slab, and at the fourth halts the working. -/
theorem hoistReads : Obligations.HoistReads := by
  unfold Obligations.HoistReads
  intro s n t₀ t₁ e hs h₀ h₁ hc h
  refine ⟨fun lines sm hv hst hend hpos hsize hpark => ⟨fun hr => ?waits, fun hr => ?takes⟩, fun lines hn => ?noClaim,
    fun seq data q hq => ?line, fun seq data hq => ?noLine, fun seq q hq hfed => ⟨fun he => ?again, fun he => ?halts⟩⟩
  case waits =>
    have hgo := Hoist.mayClaim hst hend hpos hsize hpark
    exact Leads.effect hs (exec_hoistClaim ..) (State.claim_waits h₁ hc hv hgo hr)
      ⟨rfl, s.hoist_modHoist .., fun k hk => s.hoist_modHoist_other _ k _ hk⟩
  case takes =>
    have hgo := Hoist.mayClaim hst hend hpos hsize hpark
    obtain ⟨hocc, hnext, hreqs, hyard, hothers⟩ := State.claim_takes h₁ hc hv hgo hr
    exact Leads.effect hs (exec_hoistClaim ..) rfl
      ⟨s.claim_frame n.val lines, hocc, hnext, hreqs, hyard t₀ h₀, hothers⟩
  case noClaim =>
    exact Ignored.effect hs (exec_hoistClaim ..) (State.claim_none hn)
  case line =>
    exact Leads.effect hs (exec_fabricReadReturn ..) rfl
      ⟨(State.readReturn_same ⟨by decide⟩ (Same.refl _ s) n.val seq data).eq_of_readMask,
        State.readReturn_cuts data hq hc, State.readReturn_arrives data hq, State.readReturn_early data hq,
        fun k hk => State.readReturn_others data hq hk⟩
  case noLine =>
    exact ⟨Ignored.effect hs (exec_fabricReadReturn ..) (State.readReturn_none hq data),
      Ignored.effect hs (exec_fabricReadError ..) (State.readError_none hq)⟩
  case again =>
    obtain ⟨hsame, hself, hothers⟩ := State.lineUnread_spec hfed hc seq
    have hyard : (s.lineUnread n.val seq).yard = s.yard := hsame.part .yard (by decide)
    refine Leads.effect hs (exec_fabricReadError ..) (State.readError_again hq hc he) ⟨?frame, fun hx => ?stands,
      fun h5 hout => ?replays, hself, hothers⟩
    case frame =>
      have hframe := (hsame.mono ⟨by decide⟩).eq_of_readMask
      rwa [hyard] at hframe
    case stands => exact State.lineUnread_stands hfed hc seq hx
    case replays => exact State.lineUnread_replays hfed hc seq h5 hout
  case halts =>
    obtain ⟨hsame, hself, -⟩ := State.lineUnread_spec hfed hc seq
    have hhalt := State.halt_same (Sub.refl _) (Same.refl _ (s.lineUnread n.val seq)) (s.cut e).desc.working haltFabric
      (q.addr.getD 0) (some e)
    refine Leads.effect hs (exec_fabricReadError ..) (State.readError_halts hq hc he) ⟨State.halt_work .., ?errors,
      (State.halt_raised ..).of_glb (hsame.part .glb (by decide)),
      (State.halt_logged ..).of_log (hsame.part .log (by decide)) (hsame.part .nc (by decide)),
      (hhalt.part .yard (by decide)).trans (hsame.part .yard (by decide)),
      (hhalt.part .tallies (by decide)).trans (hsame.part .tallies (by decide))⟩
    case errors =>
      rw [ReadErrorsKept.halt _ _ _ _ _ n.val, hself]
      rfl

end Sys2Proof.Machine
end

section
/-! Lines that hoists write, granules that receivers take, and the ends of streams (R147, R151, R153, R159, R160, R167,
R367). -/

namespace Sys2Proof

/-- A byte of memory outside the engine after bytes were put from `a` on. -/
theorem Mem.find_put (m : Mem) (a : Nat) (bs : List Byte) (b : Nat) : Tab.find (Mem.put m a bs) b =
    if a ≤ b ∧ b < a + bs.length then some (nth 0#8 bs (b - a)) else Tab.find m b := by
  induction bs generalizing m a with
  | nil => exact (if_neg (by rw [List.length_nil]; omega)).symm
  | cons x xs ih =>
    rw [Mem.put, ih, List.length_cons]
    by_cases hb : b = a
    · subst hb
      rw [if_neg (by omega), if_pos (by omega), Tab.find_set_same, Nat.sub_self]
      rfl
    · rw [Tab.find_set_other _ _ _ _ hb]
      by_cases hin : a + 1 ≤ b ∧ b < a + 1 + xs.length
      · rw [if_pos hin, if_pos (by omega), show b - a = b - (a + 1) + 1 by omega]
        rfl
      · rw [if_neg hin, if_neg (by omega)]

namespace Machine

theorem exec_fabricWriteAck (n : Fin 128) (s : State) :
    exec (.fabricWriteAck n) s = s.on (fun s => s.writeAck n.val) := rfl

theorem exec_fabricWriteError (n : Fin 128) (s : State) :
    exec (.fabricWriteError n) s = s.on (fun s => s.writeError n.val) := rfl

theorem exec_receiverTake (n : Fin 128) (r : Fin 16) (s : State) :
    exec (.receiverTake n r) s = s.on (fun s => s.receiverTake n.val r.val) := rfl

theorem exec_streamEnd (n : Fin 128) (s : State) : exec (.streamEnd n) s = s.on (fun s => s.streamEnd n.val) := rfl

/-! ### FABRIC_WRITE_ACK (R167) -/

theorem FabricWritten.of_put {s t : State} {a : Nat} {bs : List Byte} (h : t.fabric = Mem.put s.fabric a bs) :
    FabricWritten s t a bs := fun b => by
  rw [State.fabricByte, h]
  exact Mem.find_put s.fabric a bs b

theorem Hoist.countWrites_out (h : Hoist) : h.countWrites.out = h.out := by
  unfold Hoist.countWrites
  split
  · split <;> rfl
  · rfl

theorem Hoist.countWrites_bytes (h : Hoist) : h.countWrites.bytes = h.bytes := by
  unfold Hoist.countWrites
  split
  · split <;> rfl
  · rfl

/-- The hoist whose oldest write, of bytes `bs`, is acknowledged; `rest` are the writes behind it. -/
def Hoist.acked (h : Hoist) (bs : List Byte) (rest : List LineWrite) : Hoist :=
  Hoist.countWrites { h with out := rest, bytes := h.bytes + bs.length, pos := h.pos + bs.length }

theorem Hoist.acked_out (h : Hoist) (bs : List Byte) (rest : List LineWrite) : (h.acked bs rest).out = rest :=
  Hoist.countWrites_out _

theorem Hoist.acked_bytes (h : Hoist) (bs : List Byte) (rest : List LineWrite) :
    (h.acked bs rest).bytes = h.bytes + bs.length := Hoist.countWrites_bytes _

/-- The state in which a hoist's oldest write is in fabric memory. -/
def State.writeLands (s : State) (n : Nat) (w : LineWrite) (rest : List LineWrite) : State :=
  (s.modHoist n (fun h => h.acked w.bytes rest)).putFabric w.addr w.bytes

theorem State.writeLands_hoist (s : State) (n : Nat) (w : LineWrite) (rest : List LineWrite) :
    (s.writeLands n w rest).hoist n = (s.hoist n).acked w.bytes rest ∧
    ∀ k, k ≠ n → (s.writeLands n w rest).hoist k = s.hoist k := by
  have hhoist := State.hoist_congr (s := s.modHoist n (fun h => h.acked w.bytes rest)) (t := s.writeLands n w rest) rfl
  exact ⟨(hhoist n).trans (s.hoist_modHoist n _), fun k hk => (hhoist k).trans (s.hoist_modHoist_other n k _ hk)⟩

theorem State.writeAck_none {s : State} {n : Nat} (h : (s.hoist n).out = []) : s.writeAck n = s := by
  simp only [State.writeAck, h]

section
variable {s : State} {n : Nat} {w : LineWrite} {rest : List LineWrite} (h : (s.hoist n).out = w :: rest)
include h

/-- A hoist that no cut holds has no PROGRESS to bring up to date. -/
theorem State.writeAck_idle (hc : (s.hoist n).cut = none) : s.writeAck n = s.writeLands n w rest := by
  simp only [State.writeAck, h, hc]
  rfl

/-- Behind the write that lands, PROGRESS alone may follow (R190). -/
theorem State.writeAck_follows :
    Same (partMask [.glb, .tallies, .cuts, .log]) (s.writeLands n w rest) (s.writeAck n) := by
  cases hc : (s.hoist n).cut with
  | none =>
    rw [State.writeAck_idle h hc]
    exact Same.refl _ _
  | some e =>
    simp only [State.writeAck, h, hc]
    exact State.publish_same ⟨by decide⟩ (Same.refl _ _) e

end

/-! ### FABRIC_WRITE_ERROR (R167, R367) -/

/-- Each byte from `a` on is the one that was there or the one of `bs`; no other byte changes (R167). -/
def FabricTorn (s t : State) (a : Nat) (bs : List Byte) : Prop :=
  ∀ b, t.fabricByte b = s.fabricByte b ∨
    (a ≤ b ∧ b < a + bs.length ∧ t.fabricByte b = some (nth 0 bs (b - a)))

/-- Whether the byte of a failed write is taken or not, it is the old one or the written one. -/
theorem FabricTorn.putIf (s : State) (c : Bool) (a : Nat) (x : Byte) :
    FabricTorn s (if c then s.putFabric a [x] else s) a [x] := by
  intro b
  cases c with
  | false => exact .inl rfl
  | true =>
    have hput := FabricWritten.of_put (s := s) (t := s.putFabric a [x]) rfl b
    rw [if_pos rfl, hput]
    split
    · next hin =>
      obtain ⟨hlo, hhi⟩ := hin
      exact .inr ⟨hlo, hhi, rfl⟩
    · exact .inl rfl

/-- A first byte and the bytes behind it. -/
theorem FabricTorn.cons {s u t : State} {a : Nat} {x : Byte} {xs : List Byte} (h : FabricTorn s u a [x])
    (k : FabricTorn u t (a + 1) xs) : FabricTorn s t a (x :: xs) := by
  intro b
  rw [List.length_cons]
  rcases k b with hb | ⟨hlo, hhi, hb⟩
  · rw [hb]
    refine (h b).imp_right fun ⟨hlo, hhi, hx⟩ => ?_
    rw [List.length_singleton] at hhi
    refine ⟨hlo, by omega, ?_⟩
    rw [hx, show b - a = 0 by omega]
    rfl
  · refine .inr ⟨by omega, by omega, ?_⟩
    rw [hb, show b - a = b - (a + 1) + 1 by omega]
    rfl

/-- A failed write uses one free value for each of its bytes, and reaches fabric memory alone. -/
theorem State.failWrite_eq (s : State) (a : Nat) (bs : List Byte) :
    s.failWrite a bs = { s with fabric := (s.failWrite a bs).fabric, fresh := s.fresh + bs.length } := by
  induction bs generalizing s a with
  | nil => rfl
  | cons x xs ih =>
    rw [State.failWrite, ih, List.length_cons, Nat.add_comm xs.length 1, ← Nat.add_assoc]
    split <;> rfl

theorem FabricTorn.failWrite (s : State) (a : Nat) (bs : List Byte) : FabricTorn s (s.failWrite a bs) a bs := by
  induction bs generalizing s a with
  | nil => exact fun _ => .inl rfl
  | cons x xs ih => exact (FabricTorn.putIf s (Config.failedWriteTaken s.fresh) a x).cons (ih _ _)

/-- The hoist with one more error of its oldest write, which is to be issued again. -/
def Hoist.writeFailed (h : Hoist) (w : LineWrite) (rest : List LineWrite) : Hoist :=
  { h with errWr := satAdd 8 h.errWr 1, out := { w with errors := w.errors + 1 } :: rest }

/-- The state in which a hoist's oldest write has failed. -/
def State.writeFails (s : State) (n : Nat) (w : LineWrite) (rest : List LineWrite) : State :=
  (s.modHoist n (fun h => h.writeFailed w rest)).failWrite w.addr w.bytes

theorem State.writeFails_hoists (s : State) (n : Nat) (w : LineWrite) (rest : List LineWrite) :
    (s.writeFails n w rest).hoists = (s.modHoist n (fun h => h.writeFailed w rest)).hoists := by
  rw [State.writeFails, State.failWrite_eq]

theorem State.writeFails_eq (s : State) (n : Nat) (w : LineWrite) (rest : List LineWrite) :
    s.writeFails n w rest = { s with
      hoists := (s.writeFails n w rest).hoists, fabric := (s.writeFails n w rest).fabric
      fresh := s.fresh + w.bytes.length } := by
  rw [State.writeFails_hoists]
  exact State.failWrite_eq ..

theorem State.writeFails_hoist (s : State) (n : Nat) (w : LineWrite) (rest : List LineWrite) :
    (s.writeFails n w rest).hoist n = (s.hoist n).writeFailed w rest ∧
    ∀ k, k ≠ n → (s.writeFails n w rest).hoist k = s.hoist k := by
  have hhoist := State.hoist_congr (s.writeFails_hoists n w rest)
  exact ⟨(hhoist n).trans (s.hoist_modHoist n _), fun k hk => (hhoist k).trans (s.hoist_modHoist_other n k _ hk)⟩

/-- The state in which the working of cut `e` halts at a hoist's oldest write, which keeps no count of its errors. -/
def State.writeHalts (s : State) (n e : Nat) (w : LineWrite) (rest : List LineWrite) : State :=
  ((s.writeFails n w rest).modHoist n (fun h => { h with out := { w with errors := 0 } :: rest })).halt
    (s.descOf e).working haltFabric w.addr (some e)

/-- What a failed write and the halt of its working may change. -/
theorem State.writeHalts_same (s : State) (n e : Nat) (w : LineWrite) (rest : List LineWrite) :
    Same (partMask [.fresh, .glb, .benches, .fabric, .working, .cuts, .hoists, .tileSlots, .log]) s
      (s.writeHalts n e w rest) :=
  State.halt_same ⟨by decide⟩ (State.modHoist_same ⟨by decide⟩ (State.failWrite_same ⟨by decide⟩
    (State.modHoist_same ⟨by decide⟩ (Same.refl _ s) n _) _ _) n _) _ _ _ _

theorem State.writeError_none {s : State} {n : Nat} (h : (s.hoist n).out = []) : s.writeError n = s := by
  simp only [State.writeError, h]

section
variable {s : State} {n : Nat} {w : LineWrite} {rest : List LineWrite} (h : (s.hoist n).out = w :: rest)
include h

/-- Up to three errors: the write is issued again. -/
theorem State.writeError_again (he : w.errors < 3) : s.writeError n = s.writeFails n w rest := by
  have h4 : w.errors + 1 < 4 := by omega
  simp only [State.writeError, h, h4, if_true]
  rfl

/-- The fourth error halts the working; where no eviction is in progress, the hoist keeps the write. -/
theorem State.writeError_halts {e : Nat} (he : 3 ≤ w.errors) (hc : (s.hoist n).cut = some e)
    (hev : ∀ m ∈ s.seams, m.2.phase ≠ .evicting) : s.writeError n = s.writeHalts n e w rest := by
  have h4 : ¬ w.errors + 1 < 4 := by omega
  simp only [State.writeError, h, h4, hc, if_false]
  have hseams : (s.writeHalts n e w rest).seams = s.seams := (s.writeHalts_same n e w rest).part .seams (by decide)
  have hnone : ¬ (s.writeHalts n e w rest).seams.any
      (fun m => m.2.phase == .evicting && m.2.evictor == some e) = true := by
    rw [hseams, List.any_eq_true]
    rintro ⟨m, hm, hp⟩
    rw [Bool.and_eq_true, beq_iff_eq] at hp
    obtain ⟨hphase, -⟩ := hp
    exact hev m hm hphase
  exact if_neg hnone

end

/-! ### RECEIVER_TAKE (R151, R153) -/

theorem Hoist.release_taken (h : Hoist) (old : Nat) : (h.release old).taken = h.taken := by
  unfold Hoist.release
  dsimp only
  split <;> rfl

/-- Granules that are released are no longer occupied, and no others are claimed. -/
theorem Hoist.release_occ_le (h : Hoist) (old : Nat) : (h.release old).occ ≤ h.occ := by
  unfold Hoist.release
  dsimp only
  split
  · exact Nat.sub_le ..
  · exact Nat.le_refl _

/-- The hoist whose receiver `r` has taken its next granule. -/
def Hoist.granuleTaken (h : Hoist) (r : Nat) : Hoist :=
  Hoist.release { h with taken := h.taken.set r (h.pos1 r + 1) } h.posMin

theorem Hoist.granuleTaken_taken (h : Hoist) (r : Nat) :
    (h.granuleTaken r).taken = h.taken.set r (h.pos1 r + 1) := Hoist.release_taken _ _

theorem Hoist.granuleTaken_pos1_same {h : Hoist} {r : Nat} (hr : r < h.taken.length) :
    (h.granuleTaken r).pos1 r = h.pos1 r + 1 := by
  rw [Hoist.pos1, Hoist.granuleTaken_taken]
  simp [nth, hr]

theorem Hoist.granuleTaken_pos1_other {h : Hoist} {r k : Nat} (hk : k ≠ r) :
    (h.granuleTaken r).pos1 k = h.pos1 k := by
  rw [Hoist.pos1, Hoist.granuleTaken_taken]
  simp [nth, Hoist.pos1, List.getElem?_set_ne hk.symm]

theorem Hoist.granuleTaken_occ_le (h : Hoist) (r : Nat) : (h.granuleTaken r).occ ≤ h.occ :=
  Hoist.release_occ_le _ _

/-- A receiver that may take its next granule, which has been delivered whole, takes it. -/
theorem State.receiverTake_takes {s : State} {n r : Nat} (hc : (s.hoist n).cut.isSome = true)
    (hst : (s.hoist n).st ≠ .stopped) (ht : (s.hoist n).takes r = true) (hr : (s.hoist n).refused r = false)
    (hg : (s.hoist n).granuleReady ((s.hoist n).pos1 r) = true) :
    s.receiverTake n r = s.modHoist n (fun h => h.granuleTaken r) := by
  refine if_pos ?_
  rw [hc, ht, hr, hg, bne_iff_ne.mpr hst]
  rfl

/-- A receiver whose skid is full, or whose next granule is not there, takes nothing. -/
theorem State.receiverTake_none {s : State} {n r : Nat}
    (h : (s.hoist n).refused r = true ∨ (s.hoist n).granuleReady ((s.hoist n).pos1 r) = false) :
    s.receiverTake n r = s := by
  refine if_neg ?_
  rcases h with hr | hg
  · simp [hr]
  · simp [hg]

/-! ### STREAM_END (R147, R159, R160) -/

/-- A tally with room takes what is added, and no other tally changes (R187). -/
theorem State.tallyDone_room {s : State} {d : DoneDesc}
    (h : d.idx = 0xFFFF ∨ s.tally d.idx + d.add < 2 ^ 64) :
    s.tallyDone d = { s with
      tallies := if d.idx = 0xFFFF then s.tallies else Tab.set s.tallies d.idx (s.tally d.idx + d.add) } := by
  unfold State.tallyDone
  by_cases hi : d.idx = 0xFFFF
  · rw [if_pos hi, if_pos hi]
  · have hroom := h.resolve_left hi
    have hsum : satAdd 64 (s.tally d.idx) d.add = s.tally d.idx + d.add := Nat.min_eq_left (by omega)
    rw [if_neg hi, if_neg hi, State.tallyAdd, hsum]
    exact if_neg (by omega)

/-- A stream end takes over the template in force: of the hoist, its template and its re-arm index change (R160). -/
theorem State.retmpl_eq (s : State) (n : Nat) (h : Hoist) :
    s.retmpl n h = { h with tmpl := (s.retmpl n h).tmpl, k := (s.retmpl n h).k } := by
  unfold State.retmpl
  split
  · split <;> rfl
  · rfl

/-- A re-arm moves the hoist's index and says whether its new bases are good (R159). -/
theorem State.rearm_hoist (s : State) (n : Nat) :
    (s.rearm n).hoist n = { s.hoist n with
      k := ((s.rearm n).hoist n).k, badRearm := ((s.rearm n).hoist n).badRearm } ∧
    ∀ k, k ≠ n → (s.rearm n).hoist k = s.hoist k := by
  unfold State.rearm
  dsimp only
  split
  · split
    · rw [State.hoist_modHoist]
      exact ⟨rfl, fun k hk => s.hoist_modHoist_other n k _ hk⟩
    · exact ⟨rfl, fun _ _ => rfl⟩
  · exact ⟨rfl, fun _ _ => rfl⟩

/-- The hoist of a stream that is over. -/
def Hoist.streamOver (h : Hoist) : Hoist :=
  { h with ended := true, st := .idle, occ := 0, reqs := [], attached := 0, detachedTo := [] }

section
variable {s : State} {n : Nat} {t₀ : HoistTmpl} (ht : (s.hoist n).tmpl = some t₀)
include ht

/-- The end of a stream from which no receiver is detached. -/
theorem State.endStream_eq (hd : (s.hoist n).detachedTo = []) : s.endStream n =
    let s1 := s.tallyDone { idx := t₀.doneTally, add := 1 }
    (s1.modHoist n (fun h => (s1.retmpl n h).streamOver)).rearm n := by
  simp only [State.endStream, ht, hd]
  rfl

/-- The end of such a stream changes the tallies as its DONE_TALLY says and, of the hoists, its own. -/
theorem State.endStream_spec (hd : (s.hoist n).detachedTo = [])
    (hroom : t₀.doneTally = 0xFFFF ∨ s.tally t₀.doneTally + 1 < 2 ^ 64) :
    let t := s.endStream n
    t = { s with hoists := t.hoists, tallies := t.tallies } ∧
    t.tallies = (if t₀.doneTally = 0xFFFF then s.tallies
      else Tab.set s.tallies t₀.doneTally (s.tally t₀.doneTally + 1)) ∧
    ((t.hoist n).ended = true ∧ (t.hoist n).st = .idle ∧ (t.hoist n).occ = 0 ∧ (t.hoist n).reqs = [] ∧
      (t.hoist n).cut = (s.hoist n).cut) ∧
    ∀ k, k ≠ n → t.hoist k = s.hoist k := by
  rw [State.endStream_eq ht hd, State.tallyDone_room hroom]
  extract_lets s1 t
  have hsame : Same (partMask [.hoists]) s1 t :=
    State.rearm_same ⟨by decide⟩ (State.modHoist_same ⟨by decide⟩ (Same.refl _ s1) n _) n
  have htallies : t.tallies = s1.tallies := hsame.part .tallies (by decide)
  have hframe := (hsame.mono ⟨by decide⟩).eq_of_readMask
  rw [show t.yard = s1.yard from hsame.part .yard (by decide),
    show t.cuts = s1.cuts from hsame.part .cuts (by decide),
    show t.fabric = s1.fabric from hsame.part .fabric (by decide)] at hframe
  obtain ⟨hself, hothers⟩ := (s1.modHoist n (fun h => (s1.retmpl n h).streamOver)).rearm_hoist n
  rw [State.hoist_modHoist, State.retmpl_eq] at hself
  refine ⟨hframe.trans (by rw [htallies]), htallies, ?_,
    fun k hk => (hothers k hk).trans (s1.hoist_modHoist_other n k _ hk)⟩
  exact ⟨(congrArg Hoist.ended hself :), (congrArg Hoist.st hself :), (congrArg Hoist.occ hself :),
    (congrArg Hoist.reqs hself :), (congrArg Hoist.cut hself :)⟩

end

/-- A stream that nothing holds up and from which no receiver is detached ends. -/
theorem State.streamEnd_ends {s : State} {n : Nat} (hc : (s.hoist n).cut.isSome = true)
    (he : (s.hoist n).ended = false) (hst : (s.hoist n).st ≠ .stopped) (hsrc : (s.hoist n).source = none)
    (hdr : (s.hoist n).drained = true) (hd : (s.hoist n).detachedTo = []) : s.streamEnd n = s.endStream n := by
  refine if_pos ?_
  rw [hc, he, hsrc, hdr, hd, bne_iff_ne.mpr hst]
  rfl

theorem State.streamEnd_none {s : State} {n : Nat} (h : (s.hoist n).ended = true ∨ (s.hoist n).cut = none) :
    s.streamEnd n = s := by
  refine if_neg ?_
  rcases h with he | hc
  · simp [he]
  · simp [hc]

/-! ### O37: the writes of hoists -/

/-- Settles O37: a write that lands puts its bytes and what follows it leaves them, a write that fails puts some of its
bytes and is kept, a take moves one receiver, and a stream end moves one tally. -/
theorem hoistWrites : Obligations.HoistWrites := by
  unfold Obligations.HoistWrites
  intro s n hs h
  refine ⟨fun w rest hout => ⟨?ack, fun he => ?again, fun e he hc hev => ?halts⟩, fun hout => ?noWrite,
    fun r hc hst ht hr => ⟨fun href hready => ?take, fun hno => ?noTake⟩,
    fun t₀ ht hc he hst hsrc hdr hd hroom => ?ends, fun hno => ?noEnd⟩
  case ack =>
    have hsame := State.writeAck_follows hout
    have hhoist := State.hoist_congr (hsame.part .hoists (by decide))
    obtain ⟨hself, hothers⟩ := s.writeLands_hoist n.val w rest
    refine Leads.effect hs (exec_fabricWriteAck ..) rfl ⟨FabricWritten.of_put (hsame.part .fabric (by decide)),
      ?out, ?bytes, fun k hk => (hhoist k).trans (hothers k hk), hsame.part .yard (by decide), fun hc => ?idle⟩
    case out => rw [hhoist, hself, Hoist.acked_out]
    case bytes => rw [hhoist, hself, Hoist.acked_bytes]
    case idle =>
      rw [State.writeAck_idle hout hc]
      rfl
  case again =>
    obtain ⟨hself, hothers⟩ := s.writeFails_hoist n.val w rest
    exact Leads.effect hs (exec_fabricWriteError ..) (State.writeError_again hout he)
      ⟨s.writeFails_eq n.val w rest, hself, hothers, FabricTorn.failWrite (s.modHoist n.val _) w.addr w.bytes⟩
  case halts =>
    have hsame := s.writeHalts_same n.val e w rest
    have hfails := s.writeFails_eq n.val w rest
    exact Leads.effect hs (exec_fabricWriteError ..) (State.writeError_halts hout he hc hev)
      ⟨State.halt_work .., (State.halt_raised ..).of_glb (congrArg State.glb hfails :),
        (State.halt_logged ..).of_log (congrArg State.log hfails :) (congrArg State.nc hfails :),
        hsame.part .seams (by decide), hsame.part .tallies (by decide)⟩
  case noWrite =>
    exact ⟨Ignored.effect hs (exec_fabricWriteAck ..) (State.writeAck_none hout),
      Ignored.effect hs (exec_fabricWriteError ..) (State.writeError_none hout)⟩
  case take =>
    refine Leads.effect hs (exec_receiverTake ..) (State.receiverTake_takes hc hst ht href hready) ?_
    rw [State.hoist_modHoist]
    exact ⟨rfl, Hoist.granuleTaken_pos1_same hr, fun k hk => Hoist.granuleTaken_pos1_other hk,
      Hoist.granuleTaken_occ_le _ _, fun k hk => s.hoist_modHoist_other _ k _ hk⟩
  case noTake => exact Ignored.effect hs (exec_receiverTake ..) (State.receiverTake_none hno)
  case ends =>
    obtain ⟨hframe, htallies, ⟨hended, hidle, hocc, hreqs, hcut⟩, hothers⟩ := State.endStream_spec ht hd hroom
    refine Leads.effect hs (exec_streamEnd ..) (State.streamEnd_ends hc he hst hsrc hdr hd)
      ⟨hframe, hended, hidle, hocc, hreqs, hcut, fun hnone => ?unnamed,
        fun hsome => ⟨?counts, fun i hi => ?untouched⟩, hothers⟩
    case unnamed => rw [htallies, if_pos hnone]
    case counts => rw [State.tally, htallies, if_neg hsome, Tab.get_set_same]
    case untouched =>
      rw [State.tally, htallies, if_neg hsome]
      exact Tab.get_set_other 0 s.tallies _ i _ hi
  case noEnd => exact Ignored.effect hs (exec_streamEnd ..) (State.streamEnd_none hno)

end Machine
end Sys2Proof
end

section
/-! Receivers that are detached, transfers that are parked in the spill area and come back, and errors of stockpile
words (R154 to R156, R161, R171). -/

namespace Sys2Proof.Machine

theorem exec_detach (n : Fin 128) (s : State) : exec (.detach n) s = s.on (fun s => s.detach n.val) := rfl

theorem exec_spillPark (n : Fin 128) (data : List Byte) (s : State) :
    exec (.spillPark n data) s = s.on (fun s => s.spillPark n.val data) := rfl

theorem exec_spillReadback (n : Fin 128) (s : State) :
    exec (.spillReadback n) s = s.on (fun s => s.spillReadback n.val) := rfl

theorem exec_stockpileEccError (n : Fin 128) (bad : Bool) (s : State) :
    exec (.stockpileEccError n bad) s = s.on (fun s => s.stockpileError n.val bad) := rfl

/-! ### DETACH (R154 to R156) -/

/-- The detach hoist `x` reads the stream of multicast hoist `n`, in state `h`, again from where receiver `r` stands,
for cut `e`. -/
def Hoist.takesOver (x : Hoist) (n r e : Nat) (h : Hoist) : Hoist :=
  { x with
    cut := some e, st := .stream, source := some n, k := h.k, taken := [h.pos1 r], attached := 0, reqs := []
    nextSeq := h.pos1 r * 64, deliver := h.pos1 r * 64, pos := h.pos1 r * 4096, mark := h.mark }

/-- The multicast without receiver `r`, which detach hoist `d` serves. -/
def Hoist.letsGo (h : Hoist) (r d : Nat) : Hoist :=
  { h with attached := clrBit h.attached r, detachedTo := Tab.set h.detachedTo r d, detaches := satAdd 16 h.detaches 1 }

/-- The multicast after a detach: its stall timer is 0, and granules that no receiver waits for are released. -/
def Hoist.detachOver (h : Hoist) (low : Nat) : Hoist := { h.release low with timer := 0 }

theorem Hoist.release_frame (h : Hoist) (old : Nat) : h.release old = { h with
    occ := (h.release old).occ, timer := (h.release old).timer, pos := (h.release old).pos
    reqs := (h.release old).reqs } := by
  unfold Hoist.release
  dsimp only
  split <;> rfl

/-- The state in which receiver `r` of hoist `n`, which cut `e` holds, has gone over to hoist `d`. -/
def State.handsOver (s : State) (n r d e : Nat) : State :=
  ((s.modHoist d (fun x => x.takesOver n r e (s.hoist n))).modHoist n (fun h => h.letsGo r d)).modCut e
    (fun c => { c with detaches := satAdd 16 c.detaches 1 })

/-- The state in which that is logged, and the multicast goes on without the receiver. -/
def State.detached (s : State) (n r d e : Nat) : State :=
  ((s.handsOver n r d e).logEvt (Config.unnamedCode 6) n r).modHoist n (fun h => h.detachOver (s.hoist n).posMin)

section
variable {s : State} {n : Nat} {t₀ : HoistTmpl} (ht : (s.hoist n).tmpl = some t₀)
include ht

/-- Where one receiver holds up the stream and may be detached, it goes over to its detach hoist. -/
theorem State.detach_one {r e : Nat} (hc : (s.hoist n).cut = some e) (hen : t₀.detachEn = true)
    (hst : (s.hoist n).st ≠ .stopped) (href : ∃ x ∈ (s.hoist n).attachedList, (s.hoist n).refused x = true)
    (hlow : (s.hoist n).attachedList.filter
      (fun x => (s.hoist n).pos1 x == (s.hoist n).posMin && bit t₀.detachMask x) = [r])
    (hidle : (s.hoist (t₀.detachHoist r)).isIdle = true) :
    s.detach n = s.detached n r (t₀.detachHoist r) e := by
  have hany : (s.hoist n).attachedList.any (fun x => (s.hoist n).refused x) = true := List.any_eq_true.mpr href
  simp only [State.detach, ht, hen, hc, bne_iff_ne.mpr hst, hany, hlow, hidle, Option.isSome_some, Bool.and_self,
    if_true, List.foldl_cons, List.foldl_nil, State.detachOne]
  rfl

/-- A hoist that may not detach, or whose receivers all keep up, detaches none. -/
theorem State.detach_none
    (h : t₀.detachEn = false ∨ ∀ x ∈ (s.hoist n).attachedList, (s.hoist n).refused x = false) : s.detach n = s := by
  simp only [State.detach, ht]
  refine if_neg ?_
  rcases h with hen | hkeep
  · simp [hen]
  · have hany : (s.hoist n).attachedList.any (fun x => (s.hoist n).refused x) = false := by
      simpa using hkeep
    simp [hany]

end

/-- What a detach may change. -/
def detachMask : Nat := partMask [.hoists, .cuts, .log]

theorem Same.eq_of_detachMask {s t : State} (h : Same detachMask s t) :
    t = { s with hoists := t.hoists, cuts := t.cuts, log := t.log } :=
  State.eq_of_parts fun p => by
    have hp := h.part p
    cases p <;> first
      | exact hp (by decide)
      | rfl

theorem State.detached_same (s : State) (n r d e : Nat) : Same detachMask s (s.detached n r d e) :=
  State.modHoist_same ⟨by decide⟩ (State.logEvt_same ⟨by decide⟩ (State.modCut_same ⟨by decide⟩
    (State.modHoist_same ⟨by decide⟩ (State.modHoist_same ⟨by decide⟩ (Same.refl _ s) d _) n _) e _) _ n r) n _

theorem State.detached_cut (s : State) (n r d e : Nat) :
    ((s.detached n r d e).cut e).detaches = satAdd 16 (s.cut e).detaches 1 ∧
    ∀ k, k ≠ e → (s.detached n r d e).cut k = s.cut k := by
  have hcut : ∀ k, (s.detached n r d e).cut k = (s.handsOver n r d e).cut k := fun _ => rfl
  unfold State.handsOver at hcut
  refine ⟨?_, fun k hk => (hcut k).trans (State.cut_modCut_other _ e k _ hk)⟩
  rw [hcut, State.cut_modCut]
  rfl

theorem State.detached_logged (s : State) (n r d e : Nat) :
    Logged s (s.detached n r d e) (Config.unnamedCode 6) 0xFF 0 n r :=
  ((s.handsOver n r d e).logged_logEvt (Config.unnamedCode 6) n r).of_log rfl rfl

/-- Of the two hoists, one takes the receiver's part of the stream and the other lets it go. -/
theorem State.detached_hoist (s : State) {n d : Nat} (hd : d ≠ n) (r e : Nat) :
    (s.detached n r d e).hoist d = (s.hoist d).takesOver n r e (s.hoist n) ∧
    (s.detached n r d e).hoist n = ((s.hoist n).letsGo r d).detachOver (s.hoist n).posMin := by
  have hover : ∀ k, ((s.handsOver n r d e).logEvt (Config.unnamedCode 6) n r).hoist k =
    ((s.modHoist d (fun x => x.takesOver n r e (s.hoist n))).modHoist n (fun h => h.letsGo r d)).hoist k := fun _ => rfl
  unfold State.detached
  refine ⟨?own, ?multicast⟩
  case own => rw [State.hoist_modHoist_other _ n d _ hd, hover, State.hoist_modHoist_other _ n d _ hd,
    State.hoist_modHoist]
  case multicast => rw [State.hoist_modHoist, hover, State.hoist_modHoist, State.hoist_modHoist_other _ d n _ hd.symm]

/-! ### SPILL_PARK and SPILL_READBACK (R161) -/

/-- The hoist with one more transfer parked behind the others. -/
def Hoist.parks (h : Hoist) (data : List Byte) : Hoist :=
  { h with parked := h.parked ++ [data], parkedCount := satAdd 32 h.parkedCount 1 }

/-- The state in which hoist `n` has parked a transfer, which spill hoist `d` writes from `a` on. -/
def State.parks (s : State) (n d a : Nat) (data : List Byte) : State :=
  (s.modHoist n (fun h => h.parks data)).modHoist d (fun h => { h with out := h.out ++ linesAt 0 a data })

theorem State.parks_hoist (s : State) {n d : Nat} (hd : d ≠ n) (a : Nat) (data : List Byte) :
    (s.parks n d a data).hoist n = (s.hoist n).parks data ∧
    ((s.parks n d a data).hoist d).out = (s.hoist d).out ++ linesAt 0 a data ∧
    ∀ k, k ≠ n → k ≠ d → (s.parks n d a data).hoist k = s.hoist k := by
  unfold State.parks
  refine ⟨?self, ?spill, fun k hn hk => ?others⟩
  case self => rw [State.hoist_modHoist_other _ d n _ hd.symm, State.hoist_modHoist]
  case spill => rw [State.hoist_modHoist, State.hoist_modHoist_other s n d _ hd]
  case others => rw [State.hoist_modHoist_other _ d k _ hk, State.hoist_modHoist_other s n k _ hn]

section
variable {s : State} {n e base len : Nat} {t₀ : HoistTmpl} {data : List Byte} (ht : (s.hoist n).tmpl = some t₀)
  (hc : (s.hoist n).cut = some e) (ha : s.spillArea t₀ = some (base, len))
include ht hc ha

/-- A transfer that must leave its source and finds no granules is parked behind what the area holds. -/
theorem State.spillPark_parks (hen : t₀.spillEn = true) (hrel : (s.cut e).desc.release = true)
    (hst : (s.hoist n).st ≠ .stopped) (hfit : ((s.hoist n).parked.map List.length).sum + data.length ≤ len)
    (hfull : (s.hoist n).parked ≠ [] ∨ s.canClaim (s.hoist n) (granulesOf (ceilDiv data.length 64)) = false) :
    s.spillPark n data =
      s.parks n t₀.spillHoist (base + ((s.hoist n).parked.map List.length).sum) data := by
  simp only [State.spillPark, ht, hc, ha, hen, hrel, bne_iff_ne.mpr hst, decide_eq_true hfit, Bool.true_and]
  refine if_pos ?_
  rw [Bool.or_eq_true, Bool.not_eq_true', Bool.not_eq_true', List.isEmpty_eq_false_iff]
  exact hfull

theorem State.spillPark_none
    (h : t₀.spillEn = false ∨ len < ((s.hoist n).parked.map List.length).sum + data.length) :
    s.spillPark n data = s := by
  simp only [State.spillPark, ht, hc, ha]
  refine if_neg ?_
  rcases h with hen | hfull
  · simp [hen]
  · simp [Nat.not_le.mpr hfull]

end

/-- The hoist with the first of its parked transfers come back into its stream. -/
def Hoist.readsBack (h : Hoist) (d : List Byte) (rest : List (List Byte)) : Hoist :=
  { h with
    parked := rest, occ := h.occ + granulesOf (ceilDiv d.length 64), st := .stream
    reqs := h.reqs ++ readbackReqs h.nextSeq d, nextSeq := h.nextSeq + ceilDiv d.length 64 }

theorem State.spillReadback_none {s : State} {n : Nat} (h : (s.hoist n).parked = []) : s.spillReadback n = s := by
  simp only [State.spillReadback, h]

theorem State.spillReadback_frame (s : State) (n : Nat) : s.spillReadback n = { s with
    hoists := (s.spillReadback n).hoists, yard := (s.spillReadback n).yard } := by
  have hsame := State.spillReadback_same (Sub.refl _) (Same.refl _ s) n
  have hframe := (hsame.mono (m := readMask) ⟨by decide⟩).eq_of_readMask
  rwa [show (s.spillReadback n).cuts = s.cuts from hsame.part .cuts (by decide),
    show (s.spillReadback n).fabric = s.fabric from hsame.part .fabric (by decide)] at hframe

section
variable {s : State} {n : Nat} {d : List Byte} {rest : List (List Byte)} (hp : (s.hoist n).parked = d :: rest)
include hp

theorem State.spillReadback_full (hr : s.canClaim (s.hoist n) (granulesOf (ceilDiv d.length 64)) = false) :
    s.spillReadback n = s := by
  simp [State.spillReadback, hp, hr]

/-- With room the first parked transfer comes back, and what follows is delivery in stream order. -/
theorem State.spillReadback_takes (hst : (s.hoist n).st ≠ .stopped)
    (hr : s.canClaim (s.hoist n) (granulesOf (ceilDiv d.length 64)) = true) :
    ((s.spillReadback n).hoist n).parked = rest ∧
    ((s.spillReadback n).hoist n).occ = (s.hoist n).occ + granulesOf (ceilDiv d.length 64) ∧
    ((s.spillReadback n).hoist n).nextSeq = (s.hoist n).nextSeq + ceilDiv d.length 64 ∧
    ∀ k, k ≠ n → (s.spillReadback n).hoist k = s.hoist k := by
  have hback : s.spillReadback n = (s.modHoist n (fun h => h.readsBack d rest)).deliverAll n := by
    simp only [State.spillReadback, hp, hr, bne_iff_ne.mpr hst, Bool.and_self, if_true]
    rfl
  obtain ⟨hothers, hself, -⟩ := Delivers.deliverAll n (s.modHoist n (fun h => h.readsBack d rest))
  rw [← hback, s.hoist_modHoist] at hself
  rw [← hback] at hothers
  exact ⟨(congrArg Hoist.parked hself :), (congrArg Hoist.occ hself :), (congrArg Hoist.nextSeq hself :),
    fun k hk => (hothers k hk).trans (s.hoist_modHoist_other n k _ hk)⟩

end

/-! ### STOCKPILE_ECC_ERROR (R171, R322) -/

/-- Lines that are read again have not arrived. -/
theorem Hoist.reread_data (h : Hoist) : ∀ q ∈ h.reread.reqs, q.addr.isSome = true → q.data = none := by
  intro q hq ha
  obtain ⟨x, -, rfl⟩ := List.mem_map.mp hq
  by_cases hx : x.addr.isSome = true
  · rw [if_pos hx]
  · rw [if_neg hx] at ha
    exact absurd ha hx

theorem State.stockpileError_corrected (s : State) (n : Nat) :
    s.stockpileError n false = s.modHoist n (fun h => { h with spCorr := satAdd 8 h.spCorr 1 }) := rfl

/-- The hoist with one more uncorrectable word. -/
def Hoist.wordBad (h : Hoist) : Hoist := { h with spUncorr := satAdd 8 h.spUncorr 1 }

theorem State.stockpileError_idle {s : State} {n : Nat} (hc : (s.hoist n).cut = none) :
    s.stockpileError n true = s.modHoist n Hoist.wordBad := by
  simp only [State.stockpileError, hc]
  rfl

/-- The state in which hoist `n` has lost a word and is to read its lines again. -/
def State.wordLost (s : State) (n : Nat) : State := (s.modHoist n Hoist.wordBad).modHoist n Hoist.reread

theorem State.wordLost_hoist (s : State) (n : Nat) : (s.wordLost n).hoist n = (s.hoist n).wordBad.reread ∧
    ∀ k, k ≠ n → (s.wordLost n).hoist k = s.hoist k := by
  unfold State.wordLost
  refine ⟨?_, fun k hk => (State.hoist_modHoist_other _ n k _ hk).trans (State.hoist_modHoist_other s n k _ hk)⟩
  rw [State.hoist_modHoist, State.hoist_modHoist]

theorem State.stockpileError_read {s : State} {n e : Nat} (hc : (s.hoist n).cut = some e)
    (hout : (s.hoist n).out = []) :
    s.stockpileError n true = (s.wordLost n).abortFed n (s.hoist n).deliver (s.hoist n) := by
  simp only [State.stockpileError, hc, hout, if_true]
  rfl

section
variable {s : State} {h : Hoist} {e : Nat} (hf : s.fedPasses h = []) (hc : h.cut = some e) (n upTo : Nat)
include hf hc

/-- Where the hoist feeds no pass in progress, an abort changes at most its cut's record. -/
theorem State.abortFed_unfed_same : Same (partMask [.cuts, .fabric]) s (s.abortFed n upTo h) := by
  rw [State.abortFed_unfed hf hc]
  split
  · exact State.awaitReplay_same ⟨by decide⟩ (State.orFlags_same ⟨by decide⟩ (Same.refl _ _) e _) e _
  · exact Same.refl _ _

/-- Only an X-cut reads its slab again (R322). -/
theorem State.abortFed_unfed_stands (hk : (s.cut e).desc.kind ≠ 5) : s.abortFed n upTo h = s := by
  rw [State.abortFed_unfed hf hc, if_neg fun ⟨h5, _⟩ => hk h5]

/-- An X-cut that reads its slab again shows 0x41 (R15, R322). -/
theorem State.abortFed_unfed_status (hk : (s.cut e).desc.kind = 5) (hout : h.out = []) :
    ((s.abortFed n upTo h).cut e).status = 0x41 := by
  rw [State.abortFed_unfed hf hc, if_pos ⟨hk, hout⟩]
  exact State.setStatus_status ..

end

section
variable {s : State} {n e : Nat} (hc : (s.hoist n).cut = some e) (hout : (s.hoist n).out = [])
  (hf : s.fedPasses (s.hoist n) = [])
include hc hout hf

/-- Of the hoists, a lost word changes its own, which counts it and asks for its lines again. -/
theorem State.wordRead_hoist :
    let t := s.stockpileError n true
    t = { s with hoists := t.hoists, cuts := t.cuts, fabric := t.fabric } ∧
    t.hoist n = (s.hoist n).wordBad.reread ∧ ∀ k, k ≠ n → t.hoist k = s.hoist k := by
  rw [State.stockpileError_read hc hout]
  extract_lets t
  have habort : Same (partMask [.cuts, .fabric]) (s.wordLost n) t :=
    State.abortFed_unfed_same (s := s.wordLost n) hf hc n _
  have hlost : Same (partMask [.hoists]) s (s.wordLost n) :=
    State.modHoist_same ⟨by decide⟩ (State.modHoist_same ⟨by decide⟩ (Same.refl _ s) n _) n _
  have hyard : t.yard = s.yard := (habort.part .yard (by decide)).trans (hlost.part .yard (by decide))
  have hframe := ((hlost.mono (m := readMask) ⟨by decide⟩).trans (habort.mono ⟨by decide⟩)).eq_of_readMask
  rw [hyard] at hframe
  have hhoist := State.hoist_congr (habort.part .hoists (by decide))
  obtain ⟨hself, hothers⟩ := s.wordLost_hoist n
  exact ⟨hframe, (hhoist n).trans hself, fun k hk => (hhoist k).trans (hothers k hk)⟩

theorem State.wordRead_stands (hk : (s.cut e).desc.kind ≠ 5) :
    (s.stockpileError n true).cuts = s.cuts ∧ (s.stockpileError n true).fabric = s.fabric := by
  rw [State.stockpileError_read hc hout, State.abortFed_unfed_stands (s := s.wordLost n) hf hc n _ hk]
  exact ⟨rfl, rfl⟩

theorem State.wordRead_status (hk : (s.cut e).desc.kind = 5) : ((s.stockpileError n true).cut e).status = 0x41 := by
  rw [State.stockpileError_read hc hout]
  exact State.abortFed_unfed_status (s := s.wordLost n) hf hc n _ hk hout

end

/-! ### O38: detaches, the spill area and stockpile words -/

/-- Settles O38: a detach changes its two hoists, its cut and the log; a transfer is parked behind the others, and the
first comes back; an uncorrectable word leaves none of the lines that its hoist asked for. -/
theorem detachAndSpill : Obligations.DetachAndSpill := by
  unfold Obligations.DetachAndSpill
  intro s n t₀ hs ht h
  refine ⟨fun r e hc hen hst href hlow hidle hne => ?detach, fun hno => ?noDetach,
    fun e base len data hc ha hne => ⟨fun hen hrel hst hfit hfull => ?park, fun hno => ?noPark⟩,
    fun d rest hp hst => ⟨fun hr => ?back, fun hr => ?noRoom⟩, fun hp => ?nothing, ?corrected, fun hc => ?idle,
    fun e hc hout hf => ?lost⟩
  case detach =>
    obtain ⟨hcut, hcuts⟩ := s.detached_cut n.val r (t₀.detachHoist r) e
    obtain ⟨hown, hmulticast⟩ := s.detached_hoist hne r e
    refine Leads.effect hs (exec_detach ..) (State.detach_one ht hc hen hst href hlow hidle) ?_
    rw [hown, hmulticast, Hoist.detachOver, Hoist.release_frame]
    exact ⟨(s.detached_same ..).eq_of_detachMask, rfl, rfl, rfl, rfl, rfl, rfl, rfl, rfl, hcut, hcuts,
      s.detached_logged ..⟩
  case noDetach => exact Ignored.effect hs (exec_detach ..) (State.detach_none ht hno)
  case park =>
    exact Leads.effect hs (exec_spillPark ..) (State.spillPark_parks ht hc ha hen hrel hst hfit hfull)
      ⟨rfl, s.parks_hoist hne _ data⟩
  case noPark => exact Ignored.effect hs (exec_spillPark ..) (State.spillPark_none ht hc ha hno)
  case back =>
    exact Leads.effect hs (exec_spillReadback ..) rfl
      ⟨s.spillReadback_frame n.val, State.spillReadback_takes hp hst hr⟩
  case noRoom => exact Ignored.effect hs (exec_spillReadback ..) (State.spillReadback_full hp hr)
  case nothing => exact Ignored.effect hs (exec_spillReadback ..) (State.spillReadback_none hp)
  case corrected =>
    exact Leads.effect hs (exec_stockpileEccError ..) (s.stockpileError_corrected n.val)
      ⟨rfl, s.hoist_modHoist .., fun k hk => s.hoist_modHoist_other _ k _ hk⟩
  case idle =>
    exact Leads.effect hs (exec_stockpileEccError ..) (State.stockpileError_idle hc)
      ⟨rfl, s.hoist_modHoist .., fun k hk => s.hoist_modHoist_other _ k _ hk⟩
  case lost =>
    obtain ⟨hframe, hself, hothers⟩ := State.wordRead_hoist hc hout hf
    refine Leads.effect hs (exec_stockpileEccError ..) rfl ⟨hframe, State.wordRead_stands hc hout hf,
      State.wordRead_status hc hout hf, ?count, ?lines, hothers⟩
    case count =>
      rw [hself]
      rfl
    case lines =>
      rw [hself]
      exact Hoist.reread_data _

end Sys2Proof.Machine
end

section
/-! Tally additions and the commands that write one field (R23, R187, R421, R424, R431, R433, R434). -/

namespace Sys2Proof.Machine

theorem exec_tallyAdd (i : Fin 1024) (v : Word) (s : State) : exec (.tallyAdd i v) s =
    s.on (fun s => if s.glb.tripped then s.tallyAdd i.val v.toNat else s.tallyWrite i.val v.toNat) := rfl

theorem exec_tallyApertureWrite (off size : Nat) (v : DWord) (s : State) :
    exec (.tallyApertureWrite off size v) s = s.on (fun s => s.apertureWrite off size v.toNat) := rfl

theorem exec_riskThrWrite (v : Word) (s : State) :
    exec (.riskThrWrite v) s = s.on (fun s => s.riskThrWrite v.toNat) := rfl

theorem exec_uartBaudWrite (v : Word) (s : State) :
    exec (.uartBaudWrite v) s = s.on (fun s => s.baudWrite v.toNat) := rfl

theorem exec_pwrFaceCapWrite (n : Fin 72) (v : Word) (s : State) :
    exec (.pwrFaceCapWrite n v) s = s.on (fun s => s.pwrFaceWrite n.val v.toNat) := rfl

theorem exec_fceCtlCntClr (n : Fin 72) (s : State) :
    exec (.fceCtlCntClr n) s = s.on (fun s => s.busWrite .host (0x100000 + 0x10000 * n.val) 4 1) := rfl

/-! ### Tallies (R23, R187) -/

/-- The state with tally `i` at `x`. -/
def State.setTally (s : State) (i x : Nat) : State := { s with tallies := Tab.set s.tallies i x }

theorem State.setTally_spec (s : State) (i x : Nat) :
    s.setTally i x = { s with tallies := (s.setTally i x).tallies } ∧ (s.setTally i x).tally i = x ∧
      ∀ j, j ≠ i → (s.setTally i x).tally j = s.tally j :=
  ⟨rfl, Tab.get_set_same _ _ _ _, fun _ hj => Tab.get_set_other _ _ _ _ _ hj⟩

theorem State.tallyAdd_room {s : State} {i k : Nat} (h : s.tally i + k < 2 ^ 64) :
    s.tallyAdd i k = s.setTally i (s.tally i + k) := by
  have hsum : satAdd 64 (s.tally i) k = s.tally i + k := Nat.min_eq_left (by omega)
  rw [State.tallyAdd, hsum]
  exact if_neg (by omega)

theorem State.tallyAdd_full {s : State} {i k : Nat} (h : 2 ^ 64 ≤ s.tally i + k) :
    s.tallyAdd i k = ((s.setTally i (2 ^ 64 - 1)).setEvt evTallySat).logEvt 0x0705 i 0 := by
  have hsum : satAdd 64 (s.tally i) k = 2 ^ 64 - 1 := Nat.min_eq_right (by omega)
  rw [State.tallyAdd, hsum]
  exact if_pos (by omega)

theorem State.tallyWrite_running {s : State} (h : s.running 72 = true) (i k : Nat) :
    s.tallyWrite i k = s.tallyAdd i k := if_pos h

/-- A tally write that waits for the yard's clock joins those that wait and wakes the yard (R23). -/
theorem State.tallyWrite_waits {s : State} (h : s.running 72 = false) (i k : Nat) :
    s.tallyWrite i k = State.wake { s with tallyWait := s.tallyWait ++ [(i, k)] } 72 :=
  if_neg (by rw [yardTile, h]; decide)

/-- An addition takes effect at once while the yard runs, and during a trip (R347). -/
theorem exec_tallyAdd_now {s : State} {i : Fin 1024} {v : Word} (hs : s.supply = .good)
    (h : s.glb.tripped = true ∨ s.running 72 = true) {y : State} (hy : s.tallyAdd i.val v.toNat = y)
    {P : State → Prop} (k : P y) : Leads (.tallyAdd i v) s P := by
  refine Leads.effect hs (exec_tallyAdd ..) (Eq.trans ?_ hy) k
  by_cases ht : s.glb.tripped = true
  · exact if_pos ht
  · exact (if_neg ht).trans (State.tallyWrite_running (h.resolve_left ht) _ _)

/-! ### The tally aperture (R187) -/

theorem State.apertureWrite_fit (s : State) (i : Fin 1024) (v : Nat) :
    s.apertureWrite (8 * i.val) 8 v = s.tallyWrite i.val v := by
  have hi := i.isLt
  have hq : 8 * i.val / 8 = i.val := by omega
  rw [State.apertureWrite, if_neg (by omega), if_pos ⟨rfl, by omega⟩, hq]

theorem State.apertureWrite_misfit (s : State) {off size : Nat} (v : Nat) (ho : off < 8192)
    (h : size ≠ 8 ∨ off % 8 ≠ 0) :
    s.apertureWrite off size v = { s with apertureErr := min (s.apertureErr + 1) (2 ^ 32 - 1) } := by
  rw [State.apertureWrite, if_neg (by omega), if_neg (by omega)]
  rfl

/-! ### Writes of one field -/

/-- What R421 makes of a value out of range: it is logged, and nothing else changes. -/
theorem State.badWrite_spec (s : State) (off v : Nat) :
    s.badWrite off v = { s with log := (s.badWrite off v).log } ∧ Logged s (s.badWrite off v) 0x0702 0xFF 0 off v :=
  ⟨rfl, s.logged_logEvt 0x0702 off v⟩

theorem State.riskThrWrite_zero (s : State) {v : Nat} (h : bits v 15 0 = 0) :
    s.riskThrWrite v = s.badWrite 0xD0004 v := if_pos h

/-- A threshold above the score, one that does not fall, or one under a pending request is taken and no more (R431). -/
theorem State.riskThrWrite_quiet {s : State} {v : Nat} (h0 : 0 < bits v 15 0)
    (h : s.health.score < bits v 15 0 ∨ s.health.thr ≤ bits v 15 0 ∨ s.health.pending = true) :
    s.riskThrWrite v = { s with health := { s.health with thr := bits v 15 0 } } := by
  have hno : ¬ (bits v 15 0 < s.health.thr ∧ bits v 15 0 ≤ s.health.score ∧ s.health.pending = false) := by
    rintro ⟨hthr, hscore, hp⟩
    rcases h with h | h | h
    · omega
    · omega
    · simp [hp] at h
  rw [State.riskThrWrite, if_neg (by omega)]
  exact if_neg hno

/-- A threshold that falls to the score or below it asks for a snapshot (R386, R431). -/
theorem State.riskThrWrite_pends {s : State} {v : Nat} (h0 : 0 < bits v 15 0) (hscore : bits v 15 0 ≤ s.health.score)
    (hthr : bits v 15 0 < s.health.thr) (hp : s.health.pending = false) :
    s.riskThrWrite v = State.setPending { s with health := { s.health with thr := bits v 15 0 } } := by
  rw [State.riskThrWrite, if_neg (by omega)]
  exact if_pos ⟨hthr, hscore, hp⟩

theorem State.baudWrite_bad (s : State) {v : Nat} (h : bits v 15 0 < 96 ∨ 30000 < bits v 15 0) :
    s.baudWrite v = s.badWrite 0xF0018 v := if_pos h

theorem State.baudWrite_good (s : State) {v : Nat} (hlo : 96 ≤ bits v 15 0) (hhi : bits v 15 0 ≤ 30000) :
    s.baudWrite v = { s with foreman := { s.foreman with baud := bits v 15 0 } } := if_neg (by omega)

theorem State.pwrFaceWrite_bad (s : State) (n : Nat) {v : Nat}
    (h : 2 ≤ bits v 1 0 ∨ bits v 8 4 < 8 ∨ 16 < bits v 8 4) :
    s.pwrFaceWrite n v = s.badWrite (0x10100 + 4 * n) v := if_pos h

theorem State.pwrFaceWrite_good (s : State) (n : Nat) {v : Nat} (hreq : bits v 1 0 < 2) (hlo : 8 ≤ bits v 8 4)
    (hhi : bits v 8 4 ≤ 16) :
    s.pwrFaceWrite n v = s.modFace n (fun f => { f with req := bits v 1 0, cap := bits v 8 4 }) := if_neg (by omega)

/-- What a change of one face comes to. -/
theorem State.modFace_spec (s : State) (n : Nat) (f : Face → Face) :
    s.modFace n f = { s with faces := (s.modFace n f).faces } ∧ (s.modFace n f).face n = f (s.face n) ∧
      ∀ m, m ≠ n → (s.modFace n f).face m = s.face m :=
  ⟨rfl, s.face_modFace n f, fun m hm => s.face_modFace_other n m f hm⟩

theorem State.fceWrite_cntClr {s : State} {n : Nat} (ha : (s.face n).away = false) :
    s.fceWrite n 0 1 = s.modFace n Face.clearCounts := by
  rw [State.fceWrite, if_neg (by rw [ha]; decide), if_pos rfl]
  exact if_pos (by decide)

/-! ### O17: tally additions and writes of one field -/

theorem tallyAdds {s : State} (hs : s.supply = .good) (i : Fin 1024) (v : Word) :
    ((s.glb.tripped = true ∨ s.running 72 = true) → s.tally i.val + v.toNat < 2 ^ 64 →
      Leads (.tallyAdd i v) s (fun t => t = { s with tallies := t.tallies } ∧ t.tally i.val = s.tally i.val + v.toNat ∧
        ∀ j, j ≠ i.val → t.tally j = s.tally j)) ∧
    ((s.glb.tripped = true ∨ s.running 72 = true) → 2 ^ 64 ≤ s.tally i.val + v.toNat →
      Leads (.tallyAdd i v) s (fun t => t = { s with tallies := t.tallies, glb := t.glb, log := t.log } ∧
        t.tally i.val = 2 ^ 64 - 1 ∧ (∀ j, j ≠ i.val → t.tally j = s.tally j) ∧ Raised s t 4 ∧
        Logged s t 0x0705 0xFF 0 i.val 0)) ∧
    (s.glb.tripped = false → s.running 72 = false → Leads (.tallyAdd i v) s (fun t =>
      t = { s with tiles := t.tiles, tallyWait := s.tallyWait ++ [(i.val, v.toNat)] } ∧
      (s.clk 72 = .nap → t.clk 72 = .wakingNap) ∧ (s.clk 72 = .off → t.clk 72 = .wakingOff))) := by
  refine ⟨fun h hroom => ?_, fun h hfull => ?_, fun ht hr => ?_⟩
  · exact exec_tallyAdd_now hs h (State.tallyAdd_room hroom) (s.setTally_spec i.val _)
  · obtain ⟨-, hsame, hother⟩ := s.setTally_spec i.val (2 ^ 64 - 1)
    exact exec_tallyAdd_now hs h (State.tallyAdd_full hfull)
      ⟨rfl, hsame, hother, rfl, ((s.setTally i.val _).setEvt evTallySat).logged_logEvt 0x0705 i.val 0⟩
  · let queued : State := { s with tallyWait := s.tallyWait ++ [(i.val, v.toNat)] }
    refine Leads.effect hs (exec_tallyAdd ..) ((if_neg (by rw [ht]; decide)).trans (State.tallyWrite_waits hr _ _)) ?_
    exact ⟨queued.wake_eq 72, queued.clk_wake_nap 72, queued.clk_wake_off 72⟩

theorem apertureWrites {s : State} (hs : s.supply = .good) (i : Fin 1024) :
    (∀ w : DWord, s.running 72 = true → s.tally i.val + w.toNat < 2 ^ 64 →
      Leads (.tallyApertureWrite (8 * i.val) 8 w) s (fun t => t = { s with tallies := t.tallies } ∧
        t.tally i.val = s.tally i.val + w.toNat ∧ ∀ j, j ≠ i.val → t.tally j = s.tally j)) ∧
    (∀ (off size : Nat) (w : DWord), off < 8192 → size ≠ 8 ∨ off % 8 ≠ 0 →
      Leads (.tallyApertureWrite off size w) s (fun t =>
        t = { s with apertureErr := min (s.apertureErr + 1) (2 ^ 32 - 1) })) := by
  refine ⟨fun w hr hroom => ?_, fun off size w ho h => ?_⟩
  · refine Leads.effect hs (exec_tallyApertureWrite ..) ?_ (s.setTally_spec i.val _)
    rw [s.apertureWrite_fit, State.tallyWrite_running hr, State.tallyAdd_room hroom]
  · exact Leads.effect hs (exec_tallyApertureWrite ..) (s.apertureWrite_misfit _ ho h) rfl

/-- Settles O17: an addition comes to the tally's new value or to its saturation, and a write of a field to the value or
to the record of R421. -/
theorem fieldWrites : Obligations.FieldWrites := by
  unfold Obligations.FieldWrites
  refine ⟨fun s i v hs => ?_, fun s v hs => ⟨?_, ?_, ?_, ?_, ?_, ?_, ?_, ?_⟩⟩
  · obtain ⟨hroom, hfull, hwaits⟩ := tallyAdds hs i v
    exact ⟨hroom, hfull, hwaits, apertureWrites hs i⟩
  · intro h
    exact Leads.effect hs (exec_riskThrWrite ..) (s.riskThrWrite_zero h) (s.badWrite_spec 0xD0004 v.toNat)
  · intro h0 h
    exact Leads.effect hs (exec_riskThrWrite ..) (State.riskThrWrite_quiet h0 h) rfl
  · intro h0 hscore hthr hp
    refine Leads.effect hs (exec_riskThrWrite ..) (State.riskThrWrite_pends h0 hscore hthr hp) ⟨rfl, rfl, ?_⟩
    exact State.logged_logEvt _ 0x0402 s.health.score (bits v.toNat 15 0)
  · intro hlo hhi
    exact Leads.effect hs (exec_uartBaudWrite ..) (s.baudWrite_good hlo hhi) rfl
  · intro h
    exact Leads.effect hs (exec_uartBaudWrite ..) (s.baudWrite_bad h) (s.badWrite_spec 0xF0018 v.toNat)
  · intro n hreq hlo hhi
    exact Leads.effect hs (exec_pwrFaceCapWrite ..) (s.pwrFaceWrite_good n.val hreq hlo hhi) (s.modFace_spec n.val _)
  · intro n h
    exact Leads.effect hs (exec_pwrFaceCapWrite ..) (s.pwrFaceWrite_bad n.val h) (s.badWrite_spec _ v.toNat)
  · intro n ha hr hw
    refine Leads.effect hs (exec_fceCtlCntClr ..) ?_ (s.modFace_spec n.val Face.clearCounts)
    exact (State.busWrite_face .host n (by decide : 0 < 0x100) rfl hr ha hw 1).trans (State.fceWrite_cntClr ha)

end Sys2Proof.Machine
end

section
/-! The reads of a load: its beginning, the first read and the wait for a table bank (R195, R198, R216, R413). -/

namespace Sys2Proof.Machine

theorem exec_loadStart (s : State) : exec .loadStart s = s.on State.loadStart := rfl

theorem exec_loadFirstReadDone (bs : List Byte) (err : Bool) (s : State) :
    exec (.loadFirstReadDone bs err) s = s.on (fun s => s.firstRead bs err) := rfl

theorem exec_tableBankWaitEnd (s : State) : exec .tableBankWaitEnd s = s.on State.bankWaitEnd := rfl

/-! ### LOAD_START (R195, R413) -/

theorem State.loadStart_begins {s : State} (hp : s.load.phase = .idle) (hr : s.glb.ready = true) :
    s.loadStart = State.wake { s with load := { s.load with phase := .firstRead, staged := none } } 106 :=
  if_pos ⟨hp, hr⟩

theorem State.loadStart_counted {s : State} (h : s.load.phase ≠ .idle ∨ s.glb.ready = false) :
    s.loadStart = { s with load := { s.load with ignored := min (s.load.ignored + 1) 65535 } } := by
  refine if_neg ?_
  rintro ⟨hp, hr⟩
  rcases h with h | h
  · exact h hp
  · rw [hr] at h
    cases h

/-! ### The first read (R198, R216) -/

/-- A refusal of a load: LOAD_STAT, the event and the record (R198). -/
theorem State.refuseLoad_spec (s : State) (reason : Nat) :
    s.refuseLoad reason = { s with
      load := { s.load with phase := .idle, code := 0x60, reason := reason, staged := none }
      glb := (s.refuseLoad reason).glb, log := (s.refuseLoad reason).log } ∧
    Raised s (s.refuseLoad reason) 1 ∧
    Logged s (s.refuseLoad reason) 0x0102 0xFF 0 reason s.load.addr.toNat :=
  ⟨rfl, rfl, State.logged_logEvt _ 0x0102 reason s.load.addr.toNat⟩

theorem State.firstRead_accepted {s : State} {bs : List Byte} {err : Bool} (hp : s.load.phase = .firstRead)
    (hr : s.loadReason bs err = 0) : s.firstRead bs err = { s with load := { s.load with
      staged := some (decodeImage bs)
      phase := if s.banksBusy (decodeImage bs) then .bankWait else .secondRead } } := by
  rw [State.firstRead, if_pos hp]
  exact if_neg (not_not_intro hr)

theorem State.firstRead_refused {s : State} {bs : List Byte} {err : Bool} (hp : s.load.phase = .firstRead)
    (hr : s.loadReason bs err ≠ 0) : s.firstRead bs err = s.refuseLoad (s.loadReason bs err) := by
  rw [State.firstRead, if_pos hp]
  exact if_pos hr

/-- An error response before the header is in comes first of all reasons. -/
theorem State.loadReason_short (s : State) {bs : List Byte} (h : bs.length < 0x200) : s.loadReason bs true = 9 :=
  if_pos ⟨rfl, h⟩

/-- A whole image waits for no cut: while one runs it is refused. -/
theorem State.loadReason_busy {s : State} {bs : List Byte} (hk : (decodeHeader bs).kind = 0) (hq : s.quiet = false) :
    s.loadReason bs false = 7 := by
  unfold State.loadReason
  dsimp only
  rw [if_neg (fun h => Bool.false_ne_true h.1), if_pos ⟨hk, hq⟩]

/-! ### The wait for a table bank (R216) -/

theorem State.bankWaitEnd_goesOn {s : State} {p : Image} (hst : s.load.staged = some p)
    (hp : s.load.phase = .bankWait) (hb : s.banksBusy p = false) :
    s.bankWaitEnd = { s with load := { s.load with phase := .secondRead } } := by
  simp only [State.bankWaitEnd, hst]
  exact if_pos ⟨hp, hb⟩

theorem State.bankWaitEnd_idle {s : State} {p : Image} (hst : s.load.staged = some p)
    (h : s.load.phase ≠ .bankWait ∨ s.banksBusy p = true) : s.bankWaitEnd = s := by
  simp only [State.bankWaitEnd, hst]
  refine if_neg ?_
  rintro ⟨hp, hb⟩
  rcases h with h | h
  · exact h hp
  · rw [hb] at h
    cases h

/-! ### O25: a load begins, and its first read ends -/

/-- Settles O25: a start wakes the fabric ports or is counted, and a first read ends by the reason that R198 gives. -/
theorem loadReads : Obligations.LoadReads := by
  unfold Obligations.LoadReads
  intro s bs err hs
  refine ⟨?begins, ?counted, ?accepted, ?refused, fun h => s.loadReason_short h,
    fun hk hq => State.loadReason_busy hk hq, ?notReading, ?goesOn, ?waits⟩
  case begins =>
    intro hp hr
    let reading : State := { s with load := { s.load with phase := .firstRead, staged := none } }
    exact Leads.effect hs (exec_loadStart s) (State.loadStart_begins hp hr)
      ⟨reading.wake_eq 106, reading.clk_wake_nap 106, reading.clk_wake_off 106,
        fun k hk => reading.clk_wake_other 106 k hk⟩
  case counted =>
    intro h
    exact Leads.effect hs (exec_loadStart s) (State.loadStart_counted h) rfl
  case accepted =>
    intro hp hr
    exact Leads.effect hs (exec_loadFirstReadDone ..) (State.firstRead_accepted hp hr) rfl
  case refused =>
    intro hp hr
    exact Leads.effect hs (exec_loadFirstReadDone ..) (State.firstRead_refused hp hr) (s.refuseLoad_spec _)
  case notReading =>
    intro hp
    exact Ignored.effect hs (exec_loadFirstReadDone ..) (if_neg hp)
  case goesOn =>
    intro p hst hp hb
    exact Leads.effect hs (exec_tableBankWaitEnd s) (State.bankWaitEnd_goesOn hst hp hb) rfl
  case waits =>
    intro p hst h
    exact Ignored.effect hs (exec_tableBankWaitEnd s) (State.bankWaitEnd_idle hst h)

end Sys2Proof.Machine
end

section
/-! The commits of a load: a whole image and a partial (R197 to R200, R214, R216). -/

namespace Sys2Proof.Machine

theorem exec_loadCommit (bs : List Byte) (err : Bool) (s : State) :
    exec (.loadCommit bs err) s = s.on (fun s => s.loadCommit bs err) := rfl

theorem exec_partialCommit (bs : List Byte) (err : Bool) (s : State) :
    exec (.partialCommit bs err) s = s.on (fun s => s.partialCommit bs err) := rfl

/-! ### What the end of a commit says -/

/-- LOAD_DONE, and the record that names the image (R422, R446). -/
def State.tellLoaded (s : State) (h : Header) : State :=
  (s.setEvt evLoadDone).logEvt 0x0101 (h.imageId % 2 ^ 32) h.imageVer

theorem State.tellLoaded_said (s : State) (h : Header) :
    (s.tellLoaded h).glb.evt &&& 1 = 1 ∧
      ∃ r rs, (s.tellLoaded h).log.recs = r :: rs ∧ r.code = 0x0101 ∧ r.arg0 = h.imageId % 2 ^ 32 ∧
        r.arg1 = h.imageVer % 2 ^ 32 :=
  ⟨s.setEvt_flagged evLoadDone, _, _, rfl, rfl, Nat.mod_mod _ _, rfl⟩

/-! ### A whole image (R197) -/

/-- The state in which nothing of an image is left but what the commit or the refusal itself replaces (R197, R234,
R365). -/
def State.runOver (s : State) : State := s.releaseAll.dropHalted.clearRun

theorem State.runOver_same (s : State) : Same (partMask [.benches, .kilns, .yard, .refused, .cuts, .seams, .results,
    .slots, .hoists, .tileSlots, .xruns, .aruns, .units, .spare, .fills, .snap, .moves]) s s.runOver :=
  State.clearRun_same ⟨by decide⟩ (State.dropHalted_same ⟨by decide⟩
    (State.releaseAll_same ⟨by decide⟩ (Same.refl _ s)))

/-- A whole image in force, before faces and ports follow it (R197, R214). -/
def State.takesWhole (s : State) (i : Image) : State :=
  { s.runOver with
    image := some i, cfgDigest := i.digest, tallies := i.tallies, tables := Tables.whole i.tables
    load := { s.runOver.load with phase := .idle, code := 1, reason := 0, staged := none }
    working := i.workings.map (fun w : Nat × WorkingEntry => (w.1, freshWorking i w.1 w.2))
    hoists := i.hoists.map (fun h : Nat × HoistTmpl => (h.1, armedHoist h.2))
    refused := i.refusals (Tables.whole i.tables).inForce }

/-- Faces, the parts of MODES and ports follow a whole image (R414, R415). -/
def State.followWhole (s : State) (i : Image) : State :=
  ((List.range 4).foldl State.bringUp ((List.range 72).foldl (State.freshFace i) s).seatFaces.giveParts).checkDrains

theorem State.commitWhole_eq (s : State) (i : Image) :
    s.commitWhole i = ((s.takesWhole i).followWhole i).tellLoaded i.header := rfl

/-- What follows a whole image, and what is said of it, leaves all that the image itself gives. -/
theorem State.followWhole_same (s : State) (i : Image) :
    Same (partMask [.glb, .tiles, .faces, .ports, .surge, .cross, .health, .spare, .log]) s
      ((s.followWhole i).tellLoaded i.header) := by
  have hfaces : Same (partMask [.glb, .tiles, .faces, .ports, .surge, .cross, .health, .spare, .log]) s
      ((List.range 72).foldl (State.freshFace i) s) :=
    (Same.refl _ s).foldl _ _ fun _ n h => State.freshFace_same ⟨by decide⟩ h i n
  have hports := (State.giveParts_same ⟨by decide⟩ (State.seatFaces_same ⟨by decide⟩ hfaces)).foldl State.bringUp
    (List.range 4) fun _ p h => State.bringUp_same ⟨by decide⟩ h p
  exact State.logEvt_same ⟨by decide⟩
    (State.setEvt_same ⟨by decide⟩ (State.checkDrains_same ⟨by decide⟩ hports) _) _ _ _

/-- What a whole image leaves of the load and of the image before it. -/
theorem State.takesWhole_spec (s : State) (i : Image) :
    (s.takesWhole i).load = { s.load with phase := .idle, code := 1, reason := 0, staged := none } ∧
      (s.takesWhole i).cuts = [] ∧ (s.takesWhole i).seams = [] ∧ (s.takesWhole i).results = [] ∧
      (s.takesWhole i).moves = [] ∧ (s.takesWhole i).nv = s.nv := by
  have hload : s.runOver.load = s.load := s.runOver_same.part .load (by decide)
  have hnv : s.runOver.nv = s.nv := s.runOver_same.part .nv (by decide)
  exact ⟨by rw [State.takesWhole, hload], rfl, rfl, rfl, rfl, hnv⟩

theorem State.commitWhole_spec {s t : State} {i : Image} (h : s.commitWhole i = t) :
    t.image = some i ∧ t.cfgDigest = i.digest ∧ t.tallies = i.tallies ∧ t.tables = Tables.whole i.tables ∧
      t.load = { s.load with phase := .idle, code := 1, reason := 0, staged := none } ∧
      t.cuts = [] ∧ t.seams = [] ∧ t.results = [] ∧ t.moves = [] ∧
      t.working = i.workings.map (fun w => (w.1, freshWorking i w.1 w.2)) ∧
      t.refused = i.refusals (Tables.whole i.tables).inForce ∧ t.glb.evt &&& 1 = 1 ∧
      (∃ r rs, t.log.recs = r :: rs ∧ r.code = 0x0101 ∧ r.arg0 = i.header.imageId % 2 ^ 32 ∧
        r.arg1 = i.header.imageVer % 2 ^ 32) ∧ t.nv = s.nv := by
  have hsame := (s.takesWhole i).followWhole_same i
  obtain ⟨hevt, hrec⟩ := ((s.takesWhole i).followWhole i).tellLoaded_said i.header
  rw [← State.commitWhole_eq, h] at hsame hevt hrec
  obtain ⟨hload, hcuts, hseams, hresults, hmoves, hnv⟩ := s.takesWhole_spec i
  exact ⟨hsame.part .image (by decide), hsame.part .cfgDigest (by decide), hsame.part .tallies (by decide),
    hsame.part .tables (by decide), (hsame.part .load (by decide)).trans hload,
    (hsame.part .cuts (by decide)).trans hcuts, (hsame.part .seams (by decide)).trans hseams,
    (hsame.part .results (by decide)).trans hresults, (hsame.part .moves (by decide)).trans hmoves,
    hsame.part .working (by decide), hsame.part .refused (by decide), hevt, hrec,
    (hsame.part .nv (by decide)).trans hnv⟩

/-! ### A whole image refused in its second read (R198) -/

/-- Every port closes, and its clock stops (R337). -/
def State.closePorts (s : State) : State :=
  (List.range 4).foldl (fun t p => (t.closeDown PortState.linked p).setClk (102 + p) .off) s

theorem State.closePorts_same (s : State) :
    Same (partMask [.tiles, .ports, .log, .monitor]) s s.closePorts :=
  (Same.refl _ s).foldl _ _ fun _ p h =>
    State.setClk_same ⟨by decide⟩ (State.closeDown_same ⟨by decide⟩ h PortState.linked p) _ _

/-- A load refused, and no image in force (R198). -/
def State.withoutImage (s : State) (reason : Nat) : State :=
  State.refuseLoad { s with
    image := none, cfgDigest := [], tables := Tables.reset, working := []
    faces := s.faces.map (fun f : Nat × Face => (f.1, f.2.unserve)) } reason

theorem State.loseImage_refuseLoad_eq (s : State) (reason : Nat) :
    s.loseImage.refuseLoad reason = s.runOver.closePorts.withoutImage reason := rfl

theorem State.withoutImage_spec (s : State) (reason : Nat) :
    let t := s.withoutImage reason
    t.image = none ∧ t.cfgDigest = [] ∧ t.working = [] ∧ t.cuts = s.cuts ∧ t.seams = s.seams ∧
      t.tables = Tables.reset ∧
      t.load = { s.load with phase := .idle, code := 0x60, reason := reason, staged := none } ∧
      t.glb.evt &&& 2 = 2 ∧ t.nv = s.nv :=
  ⟨rfl, rfl, rfl, rfl, rfl, rfl, rfl, s.setEvt_flagged evLoadRefused, rfl⟩

theorem State.loseImage_refuseLoad_spec {s t : State} {reason : Nat} (h : s.loseImage.refuseLoad reason = t) :
    t.image = none ∧ t.cfgDigest = [] ∧ t.working = [] ∧ t.cuts = [] ∧ t.seams = [] ∧ t.tables = Tables.reset ∧
      t.load = { s.load with phase := .idle, code := 0x60, reason := reason, staged := none } ∧
      t.glb.evt &&& 2 = 2 ∧ t.nv = s.nv := by
  have hports := s.runOver.closePorts_same
  have hload : s.runOver.closePorts.load = s.load :=
    (hports.part .load (by decide)).trans (s.runOver_same.part .load (by decide))
  have hnv : s.runOver.closePorts.nv = s.nv :=
    (hports.part .nv (by decide)).trans (s.runOver_same.part .nv (by decide))
  have hcuts : s.runOver.closePorts.cuts = [] := hports.part .cuts (by decide)
  have hseams : s.runOver.closePorts.seams = [] := hports.part .seams (by decide)
  have hspec := s.runOver.closePorts.withoutImage_spec reason
  dsimp only at hspec
  rwa [← State.loseImage_refuseLoad_eq, h, hload, hnv, hcuts, hseams] at hspec

/-! ### LOAD_COMMIT -/

section
variable {s : State} {i : Image} {bs : List Byte} {err : Bool} (hst : s.load.staged = some i)
  (hp : s.load.phase = .secondRead)
include hst hp

theorem State.loadCommit_commits (hk : i.header.kind = 0) (he : err = false) (hd : imageDigest bs = i.digest) :
    s.loadCommit bs err = s.commitWhole i := by
  simp [State.loadCommit, hst, hp, hk, he, hd]

theorem State.loadCommit_refuses (hk : i.header.kind = 0) (h : err = true ∨ imageDigest bs ≠ i.digest) :
    s.loadCommit bs err = s.loseImage.refuseLoad (if err then 9 else 0xA) := by
  cases err with
  | true => simp [State.loadCommit, hst, hp, hk]
  | false =>
    have hd : imageDigest bs ≠ i.digest := h.resolve_left Bool.false_ne_true
    simp [State.loadCommit, hst, hp, hk, hd]

/-! ### PARTIAL_COMMIT -/

theorem State.partialCommit_commits (hk : i.header.kind ≠ 0) (he : err = false) (hd : imageDigest bs = i.digest)
    (hc : s.atCommitPoint i = true) : s.partialCommit bs err = s.commitPartial i := by
  simp [State.partialCommit, hst, hp, hk, he, hd, hc]

theorem State.partialCommit_waits (hk : i.header.kind ≠ 0) (he : err = false) (hd : imageDigest bs = i.digest)
    (hc : s.atCommitPoint i = false) : s.partialCommit bs err = s := by
  simp [State.partialCommit, hst, hp, hk, he, hd, hc]

theorem State.partialCommit_refuses (hk : i.header.kind ≠ 0) (h : err = true ∨ imageDigest bs ≠ i.digest) :
    s.partialCommit bs err = s.refuseLoad (if err then 9 else 0xA) := by
  cases err with
  | true => simp [State.partialCommit, hst, hp, hk]
  | false =>
    have hd : imageDigest bs ≠ i.digest := h.resolve_left Bool.false_ne_true
    simp [State.partialCommit, hst, hp, hk, hd]

end

/-! ### A partial (R199, R200, R216) -/

/-- A partial laid over the image in force, before templates, faces, plans and cuts follow it (R200, R216). -/
def State.takesPartial (s : State) (p : Image) : State :=
  let tables := match p.tables with
    | some x => s.tables.write x
    | none => s.tables
  { s with
    image := some (s.merged p), cfgDigest := sha384 (s.cfgDigest ++ p.digest), tables := tables
    load := { s.load with phase := .idle, code := 1, reason := 0, staged := none }
    refused := (s.merged p).refusals tables.inForce }

/-- Templates, modes, plans, faces and broken cuts follow a partial; `i` is the image that it makes, and `old` the
working that named its face (R160, R201, R329, R382). -/
def State.followPartial (s : State) (p i : Image) (old : Option Nat) : State :=
  let s1 := ((s.giveTemplates p).partialModes p).dropMoves p i
  let s2 := if p.header.kind = 2 ∧ p.has 1 = true then s1.facePartition old p.header.scope else s1
  (s2.rerunReplaced p).checkDrains

theorem State.commitPartial_eq (s : State) (p : Image) : s.commitPartial p =
    ((s.takesPartial p).followPartial p (s.merged p) (s.workingOf p.header.scope)).tellLoaded p.header := rfl

theorem State.followPartial_same (s : State) (p i : Image) (old : Option Nat) :
    Same (partMask [.glb, .tiles, .faces, .yard, .fabric, .cuts, .slots, .hoists, .ports, .spare, .fills, .log,
      .moves]) s ((s.followPartial p i old).tellLoaded p.header) := by
  unfold State.followPartial
  extract_lets s1 s2
  have h1 : Same (partMask [.glb, .tiles, .faces, .yard, .fabric, .cuts, .slots, .hoists, .ports, .spare, .fills, .log,
      .moves]) s s1 :=
    State.dropMoves_same ⟨by decide⟩ (State.partialModes_same ⟨by decide⟩
      (State.giveTemplates_same ⟨by decide⟩ (Same.refl _ s) p) p) p i
  have h2 := Same.ite (c := p.header.kind = 2 ∧ p.has 1 = true)
    (State.facePartition_same ⟨by decide⟩ h1 old p.header.scope) h1
  exact State.logEvt_same ⟨by decide⟩ (State.setEvt_same ⟨by decide⟩ (State.checkDrains_same ⟨by decide⟩
    (State.rerunReplaced_same ⟨by decide⟩ h2 p)) _) _ _ _

theorem State.commitPartial_spec {s t : State} {p : Image} (h : s.commitPartial p = t) :
    t.image = some (s.merged p) ∧ t.cfgDigest = sha384 (s.cfgDigest ++ p.digest) ∧
      t.load = { s.load with phase := .idle, code := 1, reason := 0, staged := none } ∧
      (p.tables = none → t.tables = s.tables) ∧ (∀ x, p.tables = some x → t.tables = s.tables.write x) ∧
      t.refused = (s.merged p).refusals t.tables.inForce ∧ t.tallies = s.tallies ∧ t.seams = s.seams ∧
      t.glb.evt &&& 1 = 1 ∧
      (∃ r rs, t.log.recs = r :: rs ∧ r.code = 0x0101 ∧ r.arg0 = p.header.imageId % 2 ^ 32 ∧
        r.arg1 = p.header.imageVer % 2 ^ 32) := by
  have hsame := (s.takesPartial p).followPartial_same p (s.merged p) (s.workingOf p.header.scope)
  obtain ⟨hevt, hrec⟩ :=
    ((s.takesPartial p).followPartial p (s.merged p) (s.workingOf p.header.scope)).tellLoaded_said p.header
  rw [← State.commitPartial_eq, h] at hsame hevt hrec
  have htables : t.tables = (s.takesPartial p).tables := hsame.part .tables (by decide)
  refine ⟨hsame.part .image (by decide), hsame.part .cfgDigest (by decide), hsame.part .load (by decide), ?_, ?_, ?_,
    hsame.part .tallies (by decide), hsame.part .seams (by decide), hevt, hrec⟩
  · intro hn
    simp only [htables, State.takesPartial, hn]
  · intro x hx
    simp only [htables, State.takesPartial, hx]
  · rw [htables]
    exact hsame.part .refused (by decide)

/-! ### O26: the second reads -/

/-- Settles O26: a whole image replaces everything of the one before or leaves none, and a partial is laid over the
image in force, waits, or is refused. -/
theorem loadCommits : Obligations.LoadCommits := by
  unfold Obligations.LoadCommits
  refine ⟨fun s i bs err hs hp hst hk => ⟨fun he hd => ?_, fun h => ?_⟩,
    fun s p bs err hs hp hst hk => ⟨fun he hd hc => ?_, fun he hd hc => ?_, fun h => ?_⟩⟩
  · exact Leads.effect hs (exec_loadCommit ..) (State.loadCommit_commits hst hp hk he hd) (State.commitWhole_spec rfl)
  · exact Leads.effect hs (exec_loadCommit ..) (State.loadCommit_refuses hst hp hk h)
      (State.loseImage_refuseLoad_spec rfl)
  · exact Leads.effect hs (exec_partialCommit ..) (State.partialCommit_commits hst hp hk he hd hc)
      (State.commitPartial_spec rfl)
  · exact Ignored.effect hs (exec_partialCommit ..) (State.partialCommit_waits hst hp hk he hd hc)
  · exact Leads.effect hs (exec_partialCommit ..) (State.partialCommit_refuses hst hp hk h) (s.refuseLoad_spec _)

end Sys2Proof.Machine
end

section
/-! Sequencers that start and stop, and the cuts of a working that stop and resume (R15, R180, R365, R376, R383, R384,
R394, R427, R445). -/

namespace Sys2Proof.Machine

theorem exec_wrkCtlRun (w : Fin 16) (s : State) : exec (.wrkCtlRun w) s = s.on (fun s => s.runWorking w.val) := rfl

theorem exec_wrkCtlStop (w : Fin 16) (s : State) : exec (.wrkCtlStop w) s = s.on (fun s => s.stopWorking w.val) := rfl

theorem exec_glbPreemptSet (w : Fin 16) (s : State) :
    exec (.glbPreemptSet w) s = s.on (fun s => s.preemptSet w.val) := rfl

theorem exec_glbPreemptClear (w : Fin 16) (s : State) :
    exec (.glbPreemptClear w) s = s.on (fun s => s.preemptClear w.val) := rfl

/-! ### Records of cuts after an operation on one cut, and on each of a list -/

theorem State.cut_modCut_eq (s : State) (e : Nat) (f : CutRun → CutRun) (k : Nat) :
    (s.modCut e f).cut k = if k = e then f (s.cut k) else s.cut k := by
  split
  · next h => rw [h, State.cut_modCut]
  · next h => exact State.cut_modCut_other s e k f h

theorem State.cut_setStatus (s : State) (e code k : Nat) :
    (s.setStatus e code).cut k = if k = e then { s.cut k with status := code } else s.cut k := by
  have h := s.cut_modCut_eq e (fun c => { c with status := code }) k
  unfold State.setStatus
  split <;> exact h

/-- A fold of an operation that changes the record of its own cut alone, by a change that does no more when it is made
again: each cut of the list has changed, and no other. -/
theorem State.cut_foldl {f : State → Nat → State} {g : Nat → CutRun → CutRun} {Inv : State → Prop} {es : List Nat}
    (keep : ∀ t e, Inv t → Inv (f t e))
    (one : ∀ t e k, Inv t → e ∈ es → (f t e).cut k = if k = e then g k (t.cut k) else t.cut k)
    (again : ∀ k c, g k (g k c) = g k c) {s : State} (hs : Inv s) (k : Nat) :
    (es.foldl f s).cut k = if k ∈ es then g k (s.cut k) else s.cut k := by
  induction es generalizing s with
  | nil => simp
  | cons e es ih =>
    rw [List.foldl_cons, ih (fun t x j ht hx => one t x j ht (List.mem_cons_of_mem e hx)) (keep s e hs),
      one s e k hs List.mem_cons_self]
    by_cases he : k = e <;> by_cases hk : k ∈ es <;> simp [he, hk, again]

/-! ### The running cuts of a working -/

/-- A value other than the default is listed. -/
theorem Tab.mem_of_get_ne {α : Type} {d : α} {t : Tab α} {k : Nat} (h : Tab.get d t k ≠ d) :
    (k, Tab.get d t k) ∈ t := by
  induction t with
  | nil => exact absurd rfl h
  | cons x t ih =>
    obtain ⟨i, v⟩ := x
    by_cases hk : k = i
    · simp [Tab.get, hk]
    · simp only [Tab.get, if_neg hk] at h ⊢
      exact List.mem_cons_of_mem _ (ih h)

theorem State.mem_liveCuts {s : State} {e : Nat} (h : (s.cut e).live = true) : e ∈ s.liveCuts := by
  have hne : s.cut e ≠ CutRun.reset := fun hr => by
    rw [hr] at h
    cases h
  exact List.mem_map.mpr ⟨(e, s.cut e), List.mem_filter.mpr ⟨Tab.mem_of_get_ne hne, h⟩, rfl⟩

theorem State.mem_liveOf {s : State} {w e : Nat} (h : (s.cut e).live = true) (hw : (s.cut e).desc.working = w) :
    e ∈ s.liveOf w :=
  List.mem_filter.mpr ⟨State.mem_liveCuts h, beq_iff_eq.mpr hw⟩

theorem State.working_of_mem_liveOf {s : State} {w e : Nat} (h : e ∈ s.liveOf w) : (s.cut e).desc.working = w :=
  beq_iff_eq.mp (List.mem_filter.mp h).2

/-! ### A cut stops (R15, R383) -/

/-- What stopping makes of a cut's record. -/
def CutRun.stop (code fl : Nat) (c : CutRun) : CutRun :=
  if c.phase = .running then
    { c with phase := .stopped, status := code, flags := c.flags ||| BitVec.ofNat 32 (flag fl) }
  else c

theorem CutRun.stop_stop (code fl : Nat) (c : CutRun) : (c.stop code fl).stop code fl = c.stop code fl := by
  by_cases h : c.phase = .running
  · have hstop : c.stop code fl =
        { c with phase := .stopped, status := code, flags := c.flags ||| BitVec.ofNat 32 (flag fl) } := if_pos h
    rw [hstop]
    exact if_neg nofun
  · have hsame : c.stop code fl = c := if_neg h
    rw [hsame, hsame]

theorem State.cut_stopCut (s : State) (e code fl k : Nat) :
    (s.stopCut e code fl).cut k = if k = e then (s.cut k).stop code fl else s.cut k := by
  unfold State.stopCut CutRun.stop
  by_cases hr : (s.cut e).phase = .running
  · let stopped := s.modCut e (fun c => { c with phase := .stopped })
    have hcut : ((((stopped.orFlags e (flag fl)).stopHoists e).stopBenches e).dropTiles e).cut k =
        (stopped.modCut e (fun c => { c with flags := c.flags ||| BitVec.ofNat 32 (flag fl) })).cut k := rfl
    rw [if_pos hr, State.cut_setStatus, hcut, State.cut_modCut_eq, State.cut_modCut_eq]
    by_cases hk : k = e
    · subst hk
      simp [hr]
    · simp [hk]
  · rw [if_neg hr]
    split
    · next hk => rw [hk, if_neg hr]
    · rfl

theorem State.cut_preemptWorking (s : State) (w k : Nat) :
    (s.preemptWorking w).cut k = if k ∈ s.liveOf w then (s.cut k).stop 0x40 flPreempted else s.cut k :=
  State.cut_foldl (g := fun _ => CutRun.stop 0x40 flPreempted) (Inv := fun _ => True) (fun _ _ _ => trivial)
    (fun t e k _ _ => t.cut_stopCut e 0x40 flPreempted k) (fun _ c => c.stop_stop 0x40 flPreempted) trivial k

/-! ### A cut resumes (R376, R383) -/

/-- What resuming makes of a cut's record; one that waits for a face stays stopped. -/
def CutRun.resume (waits : Bool) (c : CutRun) : CutRun :=
  if c.phase = .stopped ∧ ¬ waits = true then { c with phase := .running, awaiting := [], status := 0 } else c

theorem CutRun.resume_resume (waits : Bool) (c : CutRun) : (c.resume waits).resume waits = c.resume waits := by
  by_cases h : c.phase = .stopped ∧ ¬ waits = true
  · have hgo : c.resume waits = { c with phase := .running, awaiting := [], status := 0 } := if_pos h
    rw [hgo]
    exact if_neg nofun
  · have hsame : c.resume waits = c := if_neg h
    rw [hsame, hsame]

theorem State.cut_resumeCut (s : State) (e k : Nat) :
    (s.resumeCut e).cut k = if k = e then (s.cut k).resume (s.waitsForFace k) else s.cut k := by
  unfold State.resumeCut CutRun.resume
  by_cases hr : (s.cut e).phase = .stopped ∧ ¬ s.waitsForFace e = true
  · let going := s.modCut e (fun c => { c with phase := .running, awaiting := [] })
    have hcut : ((going.resumeHoists e).resumeBenches e).cut k = going.cut k := rfl
    rw [if_pos hr, State.cut_setStatus, hcut, State.cut_modCut_eq]
    by_cases hk : k = e
    · subst hk
      simp [hr]
    · simp [hk]
  · rw [if_neg hr]
    split
    · next hk => rw [hk, if_neg hr]
    · rfl

theorem State.waitsForFace_congr {s t : State} (h : t.fills = s.fills) (e : Nat) :
    t.waitsForFace e = s.waitsForFace e := by
  rw [State.waitsForFace, h]
  rfl

theorem State.cut_resumeWorking (s : State) (w k : Nat) :
    (s.resumeWorking w).cut k =
      if k ∈ s.liveOf w then (s.cut k).resume (s.waitsForFace k) else s.cut k := by
  refine State.cut_foldl (g := fun k => CutRun.resume (s.waitsForFace k)) (Inv := fun t => t.fills = s.fills)
    (fun t e ht => ?_) (fun t e k ht _ => ?_) (fun k c => c.resume_resume _) rfl k
  · exact ((State.resumeCut_same (Sub.refl _) (Same.refl _ t) e).part .fills (by decide)).trans ht
  · rw [State.cut_resumeCut, State.waitsForFace_congr ht]

/-! ### What the stop and the resumption of a working come to -/

theorem State.preemptWorking_cuts (s : State) (w : Nat) :
    (∀ e, (s.cut e).phase = .running → (s.cut e).desc.working = w →
      ((s.preemptWorking w).cut e).phase = .stopped ∧ ((s.preemptWorking w).cut e).status = 0x40 ∧
      ((s.preemptWorking w).cut e).flags = (s.cut e).flags ||| 0x2000#32) ∧
    (∀ e, (s.cut e).phase ≠ .running ∨ (s.cut e).desc.working ≠ w → (s.preemptWorking w).cut e = s.cut e) := by
  refine ⟨fun e hr hw => ?_, fun e h => ?_⟩
  · have hlive : e ∈ s.liveOf w := State.mem_liveOf (by rw [CutRun.live, hr]; rfl) hw
    rw [State.cut_preemptWorking, if_pos hlive, CutRun.stop, if_pos hr]
    exact ⟨rfl, rfl, rfl⟩
  · rw [State.cut_preemptWorking]
    split
    · next hlive => exact if_neg (h.resolve_right (not_not_intro (State.working_of_mem_liveOf hlive)))
    · rfl

theorem State.resumeWorking_cuts (s : State) (w : Nat) :
    (∀ e, (s.cut e).phase = .stopped → (s.cut e).desc.working = w → s.waitsForFace e = false →
      ((s.resumeWorking w).cut e).phase = .running ∧ ((s.resumeWorking w).cut e).status = 0) ∧
    (∀ e, (s.cut e).phase ≠ .stopped ∨ (s.cut e).desc.working ≠ w → (s.resumeWorking w).cut e = s.cut e) := by
  refine ⟨fun e hst hw hf => ?_, fun e h => ?_⟩
  · have hlive : e ∈ s.liveOf w := State.mem_liveOf (by rw [CutRun.live, hst]; rfl) hw
    rw [State.cut_resumeWorking, if_pos hlive, CutRun.resume, if_pos ⟨hst, by rw [hf]; decide⟩]
    exact ⟨rfl, rfl⟩
  · rw [State.cut_resumeWorking]
    split
    · next hlive =>
      exact if_neg fun hst => h.resolve_right (not_not_intro (State.working_of_mem_liveOf hlive)) hst.1
    · rfl

/-! ### Sequencers (R180, R394, R427) -/

/-- What a change of one working comes to. -/
theorem State.modWork_spec (s : State) (w : Nat) (f : Working → Working) :
    s.modWork w f = { s with working := (s.modWork w f).working } ∧ (s.modWork w f).work w = f (s.work w) ∧
      ∀ v, v ≠ w → (s.modWork w f).work v = s.work v :=
  ⟨rfl, s.work_modWork w f, fun v hv => s.work_modWork_other w v f hv⟩

/-- The sequencer of a working runs. -/
def State.sequenced (s : State) (w : Nat) : State := s.modWork w (fun x => { x with seq := .running })

theorem State.mayGoOn_sequenced (s : State) (w : Nat) :
    (s.sequenced w).mayGoOn w = (!s.preempted w && !(s.snap.phase == .holding && s.snap.test)) := by
  have hp : (s.sequenced w).preempted w = s.preempted w := rfl
  have hsnap : (s.sequenced w).snap = s.snap := rfl
  have hseq : ((s.sequenced w).work w).seq = .running := by rw [State.sequenced, State.work_modWork]
  have hne : (SeqState.running != SeqState.halted) = true := rfl
  rw [State.mayGoOn, hp, hsnap, hseq, hne, Bool.and_true]

section
variable {s : State} {w : Nat} (hi : s.image.isSome = true) (hw : w < s.workCount) (hb : s.snap.blocked = false)
include hi hw hb

theorem State.runWorking_runs (h : (s.work w).seq ≠ .halted ∨ s.preempted w = true ∨
    (s.snap.phase = .holding ∧ s.snap.test = true)) : s.runWorking w = s.sequenced w := by
  have hno : ((s.work w).seq == .halted && (s.sequenced w).mayGoOn w) = false := by
    rw [State.mayGoOn_sequenced]
    rcases h with h | h | ⟨hp, ht⟩ <;> simp [*]
  simp only [State.runWorking, hi, hw, hb, decide_true, Bool.not_false, Bool.and_self, if_true]
  exact if_neg (by rw [← State.sequenced, hno]; decide)

theorem State.runWorking_resumes (hh : (s.work w).seq = .halted) (hp : s.preempted w = false)
    (ht : s.snap.phase ≠ .holding ∨ s.snap.test = false) : s.runWorking w = (s.sequenced w).resumeWorking w := by
  have hyes : ((s.work w).seq == .halted && (s.sequenced w).mayGoOn w) = true := by
    rw [State.mayGoOn_sequenced]
    rcases ht with ht | ht <;> simp [*]
  simp only [State.runWorking, hi, hw, hb, decide_true, Bool.not_false, Bool.and_self, if_true]
  exact if_pos (by rw [← State.sequenced, hyes])

end

/-- RUN does nothing with no image, for a working that it has not, or after a refused restore (R394, R427). -/
theorem State.runWorking_none {s : State} {w : Nat}
    (h : s.image = none ∨ s.workCount ≤ w ∨ s.snap.blocked = true) : s.runWorking w = s := by
  have hno : (s.image.isSome && decide (w < s.workCount) && !s.snap.blocked) = false := by
    rcases h with h | h | h
    · rw [h, Option.isSome_none, Bool.false_and, Bool.false_and]
    · rw [decide_eq_false (Nat.not_lt.mpr h), Bool.and_false, Bool.false_and]
    · rw [h, Bool.not_true, Bool.and_false]
  rw [State.runWorking, hno]
  rfl

theorem State.runWorking_resumes_spec {s t : State} {w : Nat} (ht : (s.sequenced w).resumeWorking w = t) :
    t.work w = { s.work w with seq := .running } ∧ t.tallies = s.tallies ∧ t.glb = s.glb ∧
      (∀ e, (s.cut e).phase = .stopped → (s.cut e).desc.working = w → s.waitsForFace e = false →
        (t.cut e).phase = .running ∧ (t.cut e).status = 0) ∧
      (∀ e, (s.cut e).phase ≠ .stopped ∨ (s.cut e).desc.working ≠ w → t.cut e = s.cut e) := by
  subst ht
  have hsame := State.resumeWorking_same (Sub.refl _) (Same.refl _ (s.sequenced w)) w
  have hwork : ((s.sequenced w).resumeWorking w).working = (s.sequenced w).working := hsame.part .working (by decide)
  obtain ⟨hgo, hrest⟩ := (s.sequenced w).resumeWorking_cuts w
  refine ⟨?_, hsame.part .tallies (by decide), hsame.part .glb (by decide), hgo, hrest⟩
  rw [State.work, hwork]
  exact s.work_modWork w _

/-- STOP of a running sequencer: at once, or at the close of its step (R180, R427). -/
theorem State.stopWorking_running {s : State} {w : Nat} {q : SeqState} (h : (s.work w).seq = .running)
    (hq : (if !(s.work w).isOpen || s.heldByBroken w then SeqState.stopped else .stopping) = q) :
    s.stopWorking w = s.modWork w (fun x => { x with seq := q }) := by
  subst hq
  exact if_pos (Or.inl h)

theorem State.stopWorking_none {s : State} {w : Nat} (h : (s.work w).seq = .stopped ∨ (s.work w).seq = .halted) :
    s.stopWorking w = s := by
  refine if_neg ?_
  rcases h with h | h <;> simp [h]

/-! ### GLB.PREEMPT (R383, R384) -/

/-- GLB.PREEMPT with a working's bit set. -/
def State.preemptOn (s : State) (w : Nat) : State :=
  s.modGlb (fun g => { g with preempt := g.preempt ||| BitVec.ofNat 16 (2 ^ w) })

/-- GLB.PREEMPT with a working's bit clear. -/
def State.preemptOff (s : State) (w : Nat) : State :=
  s.modGlb (fun g => { g with preempt := g.preempt &&& ~~~BitVec.ofNat 16 (2 ^ w) })

theorem State.preemptOn_preempted (s : State) (w : Fin 16) (v : Nat) :
    (s.preemptOn w.val).preempted v = if v = w.val then true else s.preempted v := by
  have hw := w.isLt
  have hbit : (s.preemptOn w.val).preempted v =
      (s.glb.preempt ||| BitVec.ofNat 16 (2 ^ w.val)).getLsbD v := rfl
  rw [hbit, BitVec.getLsbD_or, BitVec.getLsbD_ofNat, Nat.testBit_two_pow]
  split
  · next h => simp [h]
  · next h => simp [State.preempted, Ne.symm h]

theorem State.preemptOff_preempted (s : State) (w : Fin 16) (v : Nat) :
    (s.preemptOff w.val).preempted v = if v = w.val then false else s.preempted v := by
  have hw := w.isLt
  have hbit : (s.preemptOff w.val).preempted v =
      (s.glb.preempt &&& ~~~BitVec.ofNat 16 (2 ^ w.val)).getLsbD v := rfl
  rw [hbit, BitVec.getLsbD_and, BitVec.getLsbD_not, BitVec.getLsbD_ofNat, Nat.testBit_two_pow]
  split
  · next h => simp [h]
  · next h =>
    have hlt : s.glb.preempt.getLsbD v = true → v < 16 := BitVec.lt_of_getLsbD
    simp only [State.preempted, decide_eq_false (Ne.symm h), Bool.and_false, Bool.not_false, Bool.and_true]
    cases hv : s.glb.preempt.getLsbD v with
    | false => rfl
    | true => simp [hlt hv]

theorem State.mayGoOn_preemptOff (s : State) (w : Fin 16) :
    (s.preemptOff w.val).mayGoOn w.val =
      ((s.work w.val).seq != .halted && !(s.snap.phase == .holding && s.snap.test)) := by
  have hwork : (s.preemptOff w.val).work w.val = s.work w.val := rfl
  have hsnap : (s.preemptOff w.val).snap = s.snap := rfl
  simp [State.mayGoOn, State.preemptOff_preempted, hwork, hsnap]

theorem State.preemptClear_resumes {s : State} {w : Fin 16} (hp : s.preempted w.val = true)
    (hh : (s.work w.val).seq ≠ .halted) (ht : s.snap.phase ≠ .holding ∨ s.snap.test = false) :
    s.preemptClear w.val = (s.preemptOff w.val).resumeWorking w.val := by
  have hgo : (s.preemptOff w.val).mayGoOn w.val = true := by
    rw [State.mayGoOn_preemptOff]
    rcases ht with ht | ht <;> simp [*]
  rw [State.preemptClear, if_pos hp]
  exact if_pos hgo

theorem State.preemptClear_holds {s : State} {w : Fin 16} (hp : s.preempted w.val = true)
    (h : (s.work w.val).seq = .halted ∨ (s.snap.phase = .holding ∧ s.snap.test = true)) :
    s.preemptClear w.val = s.preemptOff w.val := by
  have hno : (s.preemptOff w.val).mayGoOn w.val = false := by
    rw [State.mayGoOn_preemptOff]
    rcases h with h | ⟨h, ht⟩ <;> simp [*]
  rw [State.preemptClear, if_pos hp]
  exact if_neg (by rw [← State.preemptOff, hno]; decide)

theorem State.preemptClear_none {s : State} {w : Nat} (hp : s.preempted w = false) : s.preemptClear w = s :=
  if_neg (by rw [hp]; decide)

theorem State.preemptSet_spec {s t : State} {w : Fin 16} (ht : (s.preemptOn w.val).preemptWorking w.val = t) :
    t.preempted w.val = true ∧ (∀ v, v ≠ w.val → t.preempted v = s.preempted v) ∧
      (∀ e, (s.cut e).phase = .running → (s.cut e).desc.working = w.val → (t.cut e).phase = .stopped ∧
        (t.cut e).status = 0x40 ∧ (t.cut e).flags = (s.cut e).flags ||| 0x2000#32) ∧
      (∀ e, (s.cut e).phase ≠ .running ∨ (s.cut e).desc.working ≠ w.val → t.cut e = s.cut e) ∧
      t.tallies = s.tallies ∧ t.working = s.working ∧ t.log = s.log ∧ t.yard = s.yard ∧ t.glb.evt = s.glb.evt := by
  subst ht
  have hsame := State.preemptWorking_same (Sub.refl _) (Same.refl _ (s.preemptOn w.val)) w.val
  have hglb : ((s.preemptOn w.val).preemptWorking w.val).glb = (s.preemptOn w.val).glb := hsame.part .glb (by decide)
  have hbits : ∀ v, ((s.preemptOn w.val).preemptWorking w.val).preempted v =
      if v = w.val then true else s.preempted v := fun v => by rw [← State.preemptOn_preempted, State.preempted, hglb]; rfl
  obtain ⟨hstop, hrest⟩ := (s.preemptOn w.val).preemptWorking_cuts w.val
  exact ⟨(hbits w.val).trans (if_pos rfl), fun v hv => (hbits v).trans (if_neg hv), hstop, hrest,
    hsame.part .tallies (by decide), hsame.part .working (by decide), hsame.part .log (by decide),
    hsame.part .yard (by decide), (congrArg Glb.evt hglb).trans rfl⟩

theorem State.preemptClear_spec {s t : State} {w : Fin 16} (ht : (s.preemptOff w.val).resumeWorking w.val = t) :
    t.preempted w.val = false ∧ (∀ v, v ≠ w.val → t.preempted v = s.preempted v) ∧
      (∀ e, (s.cut e).phase = .stopped → (s.cut e).desc.working = w.val → s.waitsForFace e = false →
        (t.cut e).phase = .running ∧ (t.cut e).status = 0) ∧
      (∀ e, (s.cut e).phase ≠ .stopped ∨ (s.cut e).desc.working ≠ w.val → t.cut e = s.cut e) ∧
      t.tallies = s.tallies ∧ t.working = s.working ∧ t.log = s.log ∧ t.yard = s.yard := by
  subst ht
  have hsame := State.resumeWorking_same (Sub.refl _) (Same.refl _ (s.preemptOff w.val)) w.val
  have hglb : ((s.preemptOff w.val).resumeWorking w.val).glb = (s.preemptOff w.val).glb := hsame.part .glb (by decide)
  have hbits : ∀ v, ((s.preemptOff w.val).resumeWorking w.val).preempted v =
      if v = w.val then false else s.preempted v := fun v => by rw [← State.preemptOff_preempted, State.preempted, hglb]; rfl
  obtain ⟨hgo, hrest⟩ := (s.preemptOff w.val).resumeWorking_cuts w.val
  exact ⟨(hbits w.val).trans (if_pos rfl), fun v hv => (hbits v).trans (if_neg hv), hgo, hrest,
    hsame.part .tallies (by decide), hsame.part .working (by decide), hsame.part .log (by decide),
    hsame.part .yard (by decide)⟩

/-! ### O27: RUN, STOP and pre-emption -/

/-- Settles O27: RUN and STOP change the working's sequencer, and its cuts stop and resume one by one. -/
theorem sequencers : Obligations.Sequencers := by
  unfold Obligations.Sequencers
  refine ⟨fun s w hs => ⟨fun hi hw hb => ⟨?runs, ?resumes⟩, ?runNone, ?stops, ?stopping, ?stopNone⟩,
    fun s w hs => ⟨?set, ?clears, ?held, ?clearNone⟩⟩
  case runs =>
    intro h
    exact Leads.effect hs (exec_wrkCtlRun ..) (State.runWorking_runs hi hw hb h) (s.modWork_spec w.val _)
  case resumes =>
    intro hh hp ht
    exact Leads.effect hs (exec_wrkCtlRun ..) (State.runWorking_resumes hi hw hb hh hp ht)
      (State.runWorking_resumes_spec rfl)
  case runNone =>
    intro h
    exact Ignored.effect hs (exec_wrkCtlRun ..) (State.runWorking_none h)
  case stops =>
    intro hr ho
    exact Leads.effect hs (exec_wrkCtlStop ..) (State.stopWorking_running hr (by rw [ho]; rfl)) (s.modWork_spec w.val _)
  case stopping =>
    intro hr ho hb
    exact Leads.effect hs (exec_wrkCtlStop ..) (State.stopWorking_running hr (by rw [ho, hb]; rfl))
      (s.modWork_spec w.val _)
  case stopNone =>
    intro h
    exact Ignored.effect hs (exec_wrkCtlStop ..) (State.stopWorking_none h)
  case set =>
    exact Leads.effect hs (exec_glbPreemptSet ..) rfl (State.preemptSet_spec rfl)
  case clears =>
    intro hp hh ht
    exact Leads.effect hs (exec_glbPreemptClear ..) (State.preemptClear_resumes hp hh ht) (State.preemptClear_spec rfl)
  case held =>
    intro hp h
    exact Leads.effect hs (exec_glbPreemptClear ..) (State.preemptClear_holds hp h) rfl
  case clearNone =>
    intro hp
    exact Ignored.effect hs (exec_glbPreemptClear ..) (State.preemptClear_none hp)

end Sys2Proof.Machine
end

section
/-! Steps that open, and cuts that run again in an open step (R180, R183, R382). -/

namespace Sys2Proof.Machine

theorem exec_stepOpen (w : Fin 16) (s : State) : exec (.stepOpen w) s = s.on (fun s => s.stepOpen w.val) := rfl

theorem exec_rerun (e : Fin 4096) (s : State) : exec (.rerun e) s = s.on (fun s => s.rerunWrite e.val) := rfl

/-! ### Entries as their step opens (R180, R183) -/

/-- The record of an entry as its step opens: pending if it is eligible, and else idle. -/
def CutDesc.openRun (d : CutDesc) (step : Nat) (restored : Bool) : CutRun :=
  { CutRun.reset with phase := if d.eligible step restored then .pending else .idle, desc := d, step := step }

theorem State.descOf_congr {s t : State} (h : t.image = s.image) (e : Nat) : t.descOf e = s.descOf e := by
  rw [State.descOf, h]
  rfl

theorem State.entriesOf_congr {s t : State} (h : t.image = s.image) (w : Nat) : t.entriesOf w = s.entriesOf w := by
  have hd : t.descOf = s.descOf := funext (State.descOf_congr h)
  have hc : t.cutCount = s.cutCount := by
    rw [State.cutCount, h]
    rfl
  rw [State.entriesOf, hd, hc]
  rfl

theorem State.cut_openEntry {s : State} {e : Nat} (h6 : (s.descOf e).kind ≠ 6) (step : Nat) (restored : Bool)
    (k : Nat) : (s.openEntry step restored e).cut k = if k = e then (s.descOf k).openRun step restored else s.cut k := by
  unfold State.openEntry CutDesc.openRun
  simp only [if_neg h6]
  by_cases hel : (s.descOf e).eligible step restored = true
  · rw [if_pos hel, State.cut_setStatus, State.cut_modCut_eq]
    split
    · next hk =>
      rw [hk, if_pos hel]
      rfl
    · rfl
  · rw [if_neg hel, State.cut_modCut_eq]
    split
    · next hk =>
      rw [hk, if_neg hel]
      rfl
    · rfl

/-- Every entry of a list opens. -/
def State.openEntries (s : State) (step : Nat) (restored : Bool) (es : List Nat) : State :=
  es.foldl (State.openEntry step restored) s

theorem State.openEntries_same (s : State) (step : Nat) (restored : Bool) (es : List Nat) :
    Same (partMask [.fabric, .cuts]) s (s.openEntries step restored es) :=
  (Same.refl _ s).foldl _ _ fun _ e h => State.openEntry_same ⟨by decide⟩ h step restored e

theorem State.cut_openEntries {s : State} {es : List Nat} (h6 : ∀ e ∈ es, (s.descOf e).kind ≠ 6) (step : Nat)
    (restored : Bool) (k : Nat) : (s.openEntries step restored es).cut k =
      if k ∈ es then (s.descOf k).openRun step restored else s.cut k := by
  refine State.cut_foldl (g := fun k _ => (s.descOf k).openRun step restored) (Inv := fun t => t.image = s.image)
    (fun t e ht => ?_) (fun t e k ht he => ?_) (fun _ _ => rfl) rfl k
  · exact ((State.openEntry_same (Sub.refl _) (Same.refl _ t) step restored e).part .image (by decide)).trans ht
  · have h6t : (t.descOf e).kind ≠ 6 := by
      rw [State.descOf_congr ht]
      exact h6 e he
    rw [State.cut_openEntry h6t, State.descOf_congr ht]

/-! ### STEP_OPEN (R180, R450) -/

/-- The working whose step opens, and its entries. -/
def State.opened (s : State) (w : Nat) : State :=
  (s.modWork w (fun x => { x with isOpen := true, step := (s.work w).nextStep })).openEntries (s.work w).nextStep
    (s.work w).restored (s.entriesOf w)

/-- Where no entry was refused at load, none is refused as its step opens (R450). -/
theorem State.refuseEntry_none {s : State} (h : s.refused = []) (step : Nat) (restored : Bool) (e : Nat) :
    s.refuseEntry step restored e = s := by
  rw [State.refuseEntry, h]
  rfl

/-- A step with a pending cut does not close (R180). -/
theorem State.tryClose_pending {s : State} {w e : Nat} (he : e ∈ s.entriesOf w) (h6 : (s.descOf e).kind ≠ 6)
    (hp : (s.cut e).phase = .pending) : s.tryClose w = s := by
  have hstep : e ∈ s.stepCuts w := List.mem_filter.mpr ⟨he, by simp [hp, h6]⟩
  have hopen : s.stepDone w = false := by
    rw [State.stepDone, List.all_eq_false]
    exact ⟨e, hstep, by simp [hp]⟩
  rw [State.tryClose, hopen, Bool.and_false]
  rfl

section
variable {s : State} {w : Nat} (h6 : ∀ e ∈ s.entriesOf w, (s.descOf e).kind ≠ 6)

theorem State.opened_same : Same (partMask [.fabric, .working, .cuts]) s (s.opened w) :=
  (State.modWork_same ⟨by decide⟩ (Same.refl _ s) w _).trans
    ((State.openEntries_same _ _ _ _).mono ⟨by decide⟩)

theorem State.opened_work (v : Nat) : (s.opened w).work v =
    (s.modWork w (fun x => { x with isOpen := true, step := (s.work w).nextStep })).work v := by
  have hwork : (s.opened w).working =
      (s.modWork w (fun x => { x with isOpen := true, step := (s.work w).nextStep })).working :=
    (State.openEntries_same _ _ _ _).part .working (by decide)
  rw [State.work, hwork]
  rfl

include h6 in
theorem State.opened_cut (k : Nat) : (s.opened w).cut k =
    if k ∈ s.entriesOf w then (s.descOf k).openRun (s.work w).nextStep (s.work w).restored else s.cut k :=
  State.cut_openEntries (s := s.modWork w _) h6 _ _ k

include h6 in
theorem State.stepOpen_opens (hm : s.mayOpen w = true) (hr : s.refused = [])
    (he : ∃ e ∈ s.entriesOf w, (s.descOf e).eligible (s.work w).nextStep (s.work w).restored = true) :
    s.stepOpen w = s.opened w := by
  obtain ⟨e, he, hel⟩ := he
  have himage : (s.opened w).image = s.image := State.opened_same.part .image (by decide)
  have hrefused : (s.opened w).refused = [] := (State.opened_same.part .refused (by decide)).trans hr
  have hopen : s.stepOpen w = (((s.opened w).entriesOf w).foldl
      (State.refuseEntry (s.work w).nextStep (s.work w).restored) (s.opened w)).tryClose w := if_pos hm
  rw [hopen, foldl_idle fun e _ => State.refuseEntry_none hrefused _ _ e]
  refine State.tryClose_pending (e := e) ?_ ?_ ?_
  · rwa [State.entriesOf_congr himage]
  · rw [State.descOf_congr himage]
    exact h6 e he
  · rw [State.opened_cut h6, if_pos he]
    exact if_pos hel

end

theorem State.opened_frame (s : State) (w : Nat) : s.opened w = { s with
    working := (s.opened w).working, cuts := (s.opened w).cuts, fabric := (s.opened w).fabric } :=
  State.eq_of_parts fun p => by
    have hp := (State.opened_same (s := s) (w := w)).part p
    cases p <;> first
      | exact hp (by decide)
      | rfl

/-! ### RERUN (R382, R427) -/

theorem State.cut_runAgain (s : State) (e k : Nat) : (s.runAgain e).cut k =
    if k = e then { CutRun.reset with
      phase := .pending, step := (s.cut k).step, runs := (s.cut k).runs, desc := s.descOf k } else s.cut k := by
  have hcuts : (s.resetRegions (s.descOf e)).cuts = s.cuts :=
    (State.resetRegions_same (Sub.refl _) (Same.refl _ s) _).part .cuts (by decide)
  rw [State.runAgain, State.cut_setStatus, State.cut_modCut_eq, State.cut_congr hcuts]
  split
  · next hk =>
    rw [hk]
    rfl
  · rfl

theorem State.runAgain_spec (s : State) (e : Nat) :
    (s.runAgain e).cut e = { CutRun.reset with
      phase := .pending, step := (s.cut e).step, runs := (s.cut e).runs, desc := s.descOf e } ∧
    (∀ k, k ≠ e → (s.runAgain e).cut k = s.cut k) ∧ (s.runAgain e).working = s.working ∧
    (s.runAgain e).tallies = s.tallies ∧ (s.runAgain e).log = s.log ∧ (s.runAgain e).glb = s.glb ∧
    (s.runAgain e).hoists = s.hoists := by
  have hsame := State.runAgain_same (Sub.refl _) (Same.refl _ s) e
  exact ⟨(s.cut_runAgain e e).trans (if_pos rfl), fun k hk => (s.cut_runAgain e k).trans (if_neg hk),
    hsame.part .working (by decide), hsame.part .tallies (by decide), hsame.part .log (by decide),
    hsame.part .glb (by decide), hsame.part .hoists (by decide)⟩

/-! ### O28: steps and reruns -/

/-- Settles O28: an eligible entry keeps the step that opens from closing at once, and a rerun changes the record of its
own entry alone. -/
theorem stepsOpen : Obligations.StepsOpen := by
  unfold Obligations.StepsOpen
  intro s w hs
  refine ⟨fun hm hr h6 he => ?opens, fun hm => ?stays, fun e hm => ?reruns, fun e hm => ?refused⟩
  case opens =>
    refine Leads.effect hs (exec_stepOpen ..) (State.stepOpen_opens h6 hm hr he)
      ⟨s.opened_frame w.val, ?_, fun v hv => ?_, fun e he => ?_, fun e he => ?_⟩
    · rw [State.opened_work, State.work_modWork]
    · rw [State.opened_work, State.work_modWork_other _ _ _ _ hv]
    · exact (State.opened_cut h6 e).trans (if_pos he)
    · exact (State.opened_cut h6 e).trans (if_neg he)
  case stays =>
    exact Ignored.effect hs (exec_stepOpen ..) (if_neg (by rw [hm]; decide))
  case reruns =>
    exact Leads.effect hs (exec_rerun ..) (if_pos hm) (s.runAgain_spec e.val)
  case refused =>
    exact Leads.effect hs (exec_rerun ..) (if_neg (by rw [hm]; decide)) (s.badWrite_spec 0x6011C e.val)

end Sys2Proof.Machine
end

section
/-! Readouts of slices that stand complete, and parity errors of the derivative tables (R208, R217, R223, R375). -/

namespace Sys2Proof.Machine

theorem exec_readoutDone (n : Fin 72) (b : Fin 4) (es : List ReadElem) (s : State) :
    exec (.readoutDone n b es) s = s.on (fun s => s.readout n.val b.val es) := rfl

theorem exec_tableParityError (n : Fin 72) (s : State) :
    exec (.tableParityError n) s = s.on (fun s => s.tableParity n.val) := rfl

/-! ### Replays that start or are awaited (R15) -/

/-- A cut's record when the replays of a kind start: with none left to wait for, its status returns to 0. -/
def CutRun.startsReplays (c : CutRun) (p : Replay → Bool) : CutRun :=
  let rest := c.awaiting.filter (fun r => !p r)
  if c.awaiting.any p then { c with awaiting := rest, status := if rest.isEmpty then 0 else c.status } else c

theorem CutRun.startsReplays_kd0 (c : CutRun) (p : Replay → Bool) : (c.startsReplays p).kd0 = c.kd0 := by
  unfold CutRun.startsReplays
  dsimp only
  split <;> rfl

/-- The start of a replay that is not awaited leaves the status. -/
theorem CutRun.startsReplays_unawaited {c : CutRun} {r : Replay} (h : r ∉ c.awaiting) :
    (c.startsReplays (fun x => x == r)).status = c.status := by
  simp [CutRun.startsReplays, h]

/-- A cut that waits for one replay alone shows 0 once that has started. -/
theorem CutRun.startsReplays_last {c : CutRun} {r : Replay} (h : c.awaiting = [r]) :
    (c.startsReplays (fun x => x == r)).status = 0 := by
  simp [CutRun.startsReplays, h]

theorem State.cut_replayStarts (s : State) (e : Nat) (p : Replay → Bool) (k : Nat) :
    (s.replayStarts e p).cut k = if k = e then (s.cut k).startsReplays p else s.cut k := by
  by_cases hk : k = e
  · subst hk
    rw [if_pos rfl, State.replayStarts, CutRun.startsReplays]
    dsimp only
    rw [State.cut_modCut]
    dsimp only
    split
    · split <;> simp [State.cut_setStatus]
    · rfl
  · rw [if_neg hk, State.replayStarts]
    dsimp only
    split
    · split <;> simp [State.cut_setStatus, State.cut_modCut_eq, hk]
    · rfl

/-- Where the replay is not awaited nothing changes. -/
theorem State.replayStarts_unawaited {s : State} {e : Nat} {r : Replay} (h : r ∉ (s.cut e).awaiting) :
    s.replayStarts e (fun x => x == r) = s := by
  simp [State.replayStarts, h]

theorem State.cut_awaitReplay (s : State) (e : Nat) (r : Replay) (k : Nat) :
    (s.awaitReplay e r).cut k = if k = e then
      { s.cut k with awaiting := (s.cut k).awaiting.filter (· != r) ++ [r], status := 0x41 } else s.cut k := by
  rw [State.awaitReplay, State.cut_setStatus, State.cut_modCut_eq]
  split <;> rfl

/-! ### Items that complete (R190) -/

/-- Of the cuts, publishing changes how many items of one are published. -/
theorem State.cut_publishN (s : State) (e k : Nat) :
    ∃ p, ∀ j, (s.publishN e k).cut j = if j = e then { s.cut j with published := p } else s.cut j := by
  induction k generalizing s with
  | zero => exact ⟨(s.cut e).published, fun j => (ite_eq_right_iff.mpr fun hj => by rw [hj]; rfl).symm⟩
  | succ k ih =>
    unfold State.publishN
    dsimp only
    split
    · obtain ⟨p, hp⟩ := ih ((s.modCut e fun c => { c with published := c.published + 1 }).tallyDone
        (s.cut e).desc.progress)
      refine ⟨p, fun j => ?_⟩
      have hcuts := (State.tallyDone_same (Sub.refl _)
        (Same.refl _ (s.modCut e fun c => { c with published := c.published + 1 }))
        (s.cut e).desc.progress).part .cuts (by decide)
      rw [hp, State.cut_congr hcuts, State.cut_modCut_eq]
      split <;> rfl
    · exact ⟨(s.cut e).published, fun j => (ite_eq_right_iff.mpr fun hj => by rw [hj]).symm⟩

/-- An item that completes is among its cut's completed items; no other cut changes. -/
theorem State.cut_itemDone (s : State) (e item : Nat) : ∃ ds p, item ∈ ds ∧ ∀ j, (s.itemDone e item).cut j =
    if j = e then { s.cut j with done := ds, published := p } else s.cut j := by
  unfold State.itemDone
  split
  · next hd =>
    exact ⟨(s.cut e).done, (s.cut e).published, List.contains_iff_mem.mp hd, fun j =>
      (ite_eq_right_iff.mpr fun hj => by rw [hj]).symm⟩
  · obtain ⟨p, hp⟩ := State.cut_publishN (s.modCut e fun c => { c with done := item :: c.done }) e
      ((s.modCut e fun c => { c with done := item :: c.done }).cut e).items
    refine ⟨item :: (s.cut e).done, p, List.mem_cons_self, fun j => ?_⟩
    rw [State.publish, hp, State.cut_modCut_eq]
    split
    · next hj => rw [hj]
    · rfl

/-! ### The header of a slice that has been read (R208) -/

theorem State.resetTile_hdr {s : State} (hs : YardCanonical s) (a : Nat) :
    readHdr (s.resetTile a).yard.mem a = Hdr.reset :=
  readHdr_writeHdr hs a Hdr.reset

/-- On a cut of one rank, the header of rank 0's tile alone is reset. -/
theorem State.resetSlice_one {s : State} {e item : Nat} {u : TileRef} (h1 : (s.cut e).desc.split = 1)
    (hu : s.rankTile e item 0 = some u) : s.resetSlice e item = s.resetTile u.hdr := by
  have hranks : List.range (max (s.cut e).desc.split 1) = [0] := by
    rw [h1]
    rfl
  rw [State.resetSlice, hranks, List.foldl_cons, List.foldl_nil, hu]

/-! ### What a readout makes of its cut and of the yard (R208, R223) -/

/-- The state in which the output of a slice has gone to its map, with the roundings' flags and the writes dropped. -/
def State.sliceWritten (s : State) (e item : Nat) (m : MapDesc) (bs : List (Nat × Byte)) (fl k : Nat) : State :=
  ((s.putOut item m (nth 0xFFFF (s.cut e).desc.hoists 2) bs).orFlags e fl).countDropped e k

/-- The record of a cut with one more slice read, and its clamped derivatives (R223). -/
def CutRun.countsSlice (c : CutRun) (item clamps : Nat) : CutRun :=
  { c with kd0 := c.kd0 + 1, kd1 := satAdd 32 c.kd1 clamps, banks := Tab.drop c.banks item }

/-- The state in which a slice has been written, its headers are reset and the record has counted it. -/
def State.sliceCounted (s : State) (e item : Nat) (m : MapDesc) (bs : List (Nat × Byte)) (fl k clamps : Nat) : State :=
  ((s.sliceWritten e item m bs fl k).resetSlice e item).modCut e (fun c => c.countsSlice item clamps)

/-- A readout comes, whatever values it writes, to its slice counted, its replay started and its item completed. -/
theorem State.readSlice_eq (s : State) (e n item : Nat) (u : TileRef) (m : MapDesc) (es : List ReadElem) :
    ∃ bs fl k clamps, s.readSlice e n item u m es =
      ((s.sliceCounted e item m bs fl k clamps).replayStarts e (fun r => r == .readout n)).itemDone e item :=
  ⟨_, _, _, _, rfl⟩

theorem YardCanonical.putOut {s : State} (hs : YardCanonical s) (item : Nat) (m : MapDesc) (h : Nat)
    (bs : List (Nat × Byte)) : YardCanonical (s.putOut item m h bs) := by
  unfold State.putOut
  dsimp only
  split
  · exact List.foldlRecOn (motive := YardCanonical) _ _ hs fun _ ht _ _ => ht.putYard _ _
  · split <;> exact hs

/-- Dropped writes change a cut's count of them and its flags. -/
theorem State.cut_countDropped (s : State) (e k : Nat) : ∃ f d, ∀ j, (s.countDropped e k).cut j =
    if j = e then { s.cut j with flags := f, dropped := d } else s.cut j := by
  unfold State.countDropped
  split
  · exact ⟨(s.cut e).flags, (s.cut e).dropped, fun j => (ite_eq_right_iff.mpr fun hj => by rw [hj]).symm⟩
  · refine ⟨(s.cut e).flags ||| BitVec.ofNat 32 (flag 3), satAdd 32 (s.cut e).dropped k, fun j => ?_⟩
    rw [State.orFlags, State.cut_modCut_eq, State.cut_modCut_eq]
    split
    · next hj => rw [hj]
    · rfl

section
variable (s : State) (e item : Nat) (m : MapDesc) (bs : List (Nat × Byte)) (fl k clamps : Nat)

theorem State.sliceWritten_same : Same (partMask [.yard, .hoists, .cuts]) s (s.sliceWritten e item m bs fl k) :=
  State.countDropped_same ⟨by decide⟩
    (State.orFlags_same ⟨by decide⟩ (State.putOut_same ⟨by decide⟩ (Same.refl _ s) item m _ bs) e fl) e k

theorem State.sliceWritten_cut : ∃ f d, ∀ j, (s.sliceWritten e item m bs fl k).cut j =
    if j = e then { s.cut j with flags := f, dropped := d } else s.cut j := by
  have hcuts : (s.putOut item m (nth 0xFFFF (s.cut e).desc.hoists 2) bs).cuts = s.cuts :=
    (State.putOut_same (Sub.refl _) (Same.refl _ s) item m _ bs).part .cuts (by decide)
  obtain ⟨f, d, h⟩ := State.cut_countDropped
    ((s.putOut item m (nth 0xFFFF (s.cut e).desc.hoists 2) bs).orFlags e fl) e k
  refine ⟨f, d, fun j => ?_⟩
  rw [State.sliceWritten, h, State.orFlags, State.cut_modCut_eq, State.cut_congr hcuts]
  split <;> rfl

theorem YardCanonical.sliceWritten {s : State} (hs : YardCanonical s) :
    YardCanonical (s.sliceWritten e item m bs fl k) := by
  have hyard : (s.sliceWritten e item m bs fl k).yard =
      (s.putOut item m (nth 0xFFFF (s.cut e).desc.hoists 2) bs).yard :=
    (State.countDropped_same (Sub.refl _) (Same.refl _ _) e k).part .yard (by decide)
  rw [YardCanonical, hyard]
  exact hs.putOut item m _ bs

/-- The output of a slice moves no tile. -/
theorem State.sliceWritten_rankTile (slice rank : Nat) :
    (s.sliceWritten e item m bs fl k).rankTile e slice rank = s.rankTile e slice rank := by
  have hsame := s.sliceWritten_same e item m bs fl k
  have himage : (s.sliceWritten e item m bs fl k).image = s.image := hsame.part .image (by decide)
  have hfaces : (s.sliceWritten e item m bs fl k).faces = s.faces := hsame.part .faces (by decide)
  have haruns : (s.sliceWritten e item m bs fl k).aruns = s.aruns := hsame.part .aruns (by decide)
  obtain ⟨f, d, hcut⟩ := s.sliceWritten_cut e item m bs fl k
  have hcut := (hcut e).trans (if_pos rfl)
  have hposs : (s.sliceWritten e item m bs fl k).cutFaces (s.cut e).desc = s.cutFaces (s.cut e).desc :=
    State.cutFaces_congr (hsame.part .spare (by decide)) rfl
  simp only [State.rankTile, State.passTile, State.passE128, State.arun, State.face_congr hfaces, himage, haruns, hcut,
    hposs]
  rfl

theorem State.sliceCounted_same :
    Same (partMask [.yard, .hoists, .cuts, .slots]) s (s.sliceCounted e item m bs fl k clamps) :=
  State.modCut_same ⟨by decide⟩
    (State.resetSlice_same ⟨by decide⟩ ((s.sliceWritten_same e item m bs fl k).mono ⟨by decide⟩) e item) e _

theorem State.sliceCounted_cut : ∃ f d, ∀ j, (s.sliceCounted e item m bs fl k clamps).cut j =
    if j = e then CutRun.countsSlice { s.cut j with flags := f, dropped := d } item clamps else s.cut j := by
  have hcuts : ((s.sliceWritten e item m bs fl k).resetSlice e item).cuts = (s.sliceWritten e item m bs fl k).cuts :=
    (State.resetSlice_same (Sub.refl _) (Same.refl _ _) e item).part .cuts (by decide)
  obtain ⟨f, d, h⟩ := s.sliceWritten_cut e item m bs fl k
  refine ⟨f, d, fun j => ?_⟩
  rw [State.sliceCounted, State.cut_modCut_eq, State.cut_congr hcuts, h]
  split <;> rfl

variable {s e item}

theorem State.sliceCounted_hdr {u : TileRef} (hs : YardCanonical s) (h1 : (s.cut e).desc.split = 1)
    (hu : s.rankTile e item 0 = some u) :
    readHdr (s.sliceCounted e item m bs fl k clamps).yard.mem u.hdr = Hdr.reset := by
  obtain ⟨f, d, hcut⟩ := s.sliceWritten_cut e item m bs fl k
  have hsplit : ((s.sliceWritten e item m bs fl k).cut e).desc.split = 1 := by
    rw [hcut, if_pos rfl]
    exact h1
  have hreset := State.resetSlice_one hsplit ((s.sliceWritten_rankTile e item m bs fl k item 0).trans hu)
  rw [State.sliceCounted, State.modCut_yard, hreset]
  exact State.resetTile_hdr (hs.sliceWritten e item m bs fl k) u.hdr

end

/-! ### READOUT_DONE (R208) -/

/-- The cut runs, computes the data gradient and has a slice that the bench may read out. -/
def State.readsOut (s : State) (n b e : Nat) : Bool :=
  (s.cut e).desc.kind == 1 && (s.cut e).phase == .running && (s.readySlice e n b).isSome

section
variable {s : State} {n b e item : Nat} {m : MapDesc} {u : TileRef}

theorem State.readout_reads (he : s.liveCuts.find? (s.readsOut n b) = some e) (hi : s.readySlice e n b = some item)
    (hm : (s.cut e).mapOf 2 = some m) (hu : s.rankTile e item 0 = some u) (es : List ReadElem) :
    s.readout n b es = s.readSlice e n item u m es := by
  unfold State.readsOut at he
  simp only [State.readout, he, hi, hm, hu]

theorem State.readout_none (h : ∀ e ∈ s.liveCuts, s.readySlice e n b = none) (es : List ReadElem) :
    s.readout n b es = s := by
  have hfind : s.liveCuts.find? (s.readsOut n b) = none :=
    List.find?_eq_none.mpr fun e he => by simp [State.readsOut, h e he]
  unfold State.readsOut at hfind
  simp only [State.readout, hfind]

/-- A slice that is read out counts in its cut's record, which awaits the readout no longer. -/
theorem State.readSlice_cut (es : List ReadElem) : ∃ f d clamps ds p, item ∈ ds ∧
    ∀ j, (s.readSlice e n item u m es).cut j = if j = e then
      { (CutRun.countsSlice { s.cut j with flags := f, dropped := d } item clamps).startsReplays
          (fun r => r == .readout n) with done := ds, published := p } else s.cut j := by
  obtain ⟨bs, fl, k, clamps, h⟩ := s.readSlice_eq e n item u m es
  obtain ⟨f, d, hcounted⟩ := s.sliceCounted_cut e item m bs fl k clamps
  obtain ⟨ds, p, hmem, hdone⟩ := State.cut_itemDone
    ((s.sliceCounted e item m bs fl k clamps).replayStarts e (fun r => r == .readout n)) e item
  refine ⟨f, d, clamps, ds, p, hmem, fun j => ?_⟩
  rw [h, hdone, State.cut_replayStarts, hcounted]
  split <;> rfl

theorem State.readSlice_hdr (hs : YardCanonical s) (h1 : (s.cut e).desc.split = 1)
    (hu : s.rankTile e item 0 = some u) (es : List ReadElem) :
    readHdr (s.readSlice e n item u m es).yard.mem u.hdr = Hdr.reset := by
  obtain ⟨bs, fl, k, clamps, h⟩ := s.readSlice_eq e n item u m es
  have hafter := State.itemDone_same (M := partMask [.cuts, .fabric, .tallies, .glb, .log]) ⟨by decide⟩
    (State.replayStarts_same ⟨by decide⟩ (Same.refl _ (s.sliceCounted e item m bs fl k clamps)) e
      (fun r => r == .readout n)) e item
  have hyard : (s.readSlice e n item u m es).yard = (s.sliceCounted e item m bs fl k clamps).yard := by
    rw [h]
    exact hafter.part .yard (by decide)
  rw [hyard]
  exact State.sliceCounted_hdr m bs fl k clamps hs h1 hu

/-- A readout that no replay awaits writes nothing to fabric memory but through its hoist. -/
theorem State.readSlice_fabric (h : .readout n ∉ (s.cut e).awaiting) (es : List ReadElem) :
    (s.readSlice e n item u m es).fabric = s.fabric := by
  obtain ⟨bs, fl, k, clamps, heq⟩ := s.readSlice_eq e n item u m es
  obtain ⟨f, d, hcounted⟩ := s.sliceCounted_cut e item m bs fl k clamps
  have hwait : ((s.sliceCounted e item m bs fl k clamps).cut e).awaiting = (s.cut e).awaiting := by
    rw [hcounted, if_pos rfl]
    rfl
  have hnone : s.readSlice e n item u m es = (s.sliceCounted e item m bs fl k clamps).itemDone e item := by
    rw [heq, State.replayStarts_unawaited (hwait ▸ h)]
  have hdone := (State.itemDone_same (Sub.refl _) (Same.refl _ (s.sliceCounted e item m bs fl k clamps)) e item).part
    .fabric (by decide)
  rw [hnone]
  exact hdone.trans ((s.sliceCounted_same e item m bs fl k clamps).part .fabric (by decide))

end

/-! ### TABLE_PARITY_ERROR (R217, R375) -/

/-- The state in which a parity error of a face's derivative tables has counted. -/
def State.drvErrorCounted (s : State) (n : Nat) : State :=
  { s with drvPerr := Tab.update 0 s.drvPerr n (fun v => satAdd 16 v 1) }

theorem State.drvErrorCounted_here (s : State) (n : Nat) :
    Tab.get 0 (s.drvErrorCounted n).drvPerr n = min (Tab.get 0 s.drvPerr n + 1) 65535 :=
  Tab.get_update_same 0 s.drvPerr n (fun v => satAdd 16 v 1)

theorem State.drvErrorCounted_other (s : State) {n k : Nat} (h : k ≠ n) :
    Tab.get 0 (s.drvErrorCounted n).drvPerr k = Tab.get 0 s.drvPerr k :=
  Tab.get_update_other 0 s.drvPerr n k (fun v => satAdd 16 v 1) h

/-- The cut runs, computes the data gradient and uses the face. -/
def State.derives (s : State) (n e : Nat) : Bool :=
  (s.cut e).desc.kind == 1 && (s.cut e).phase == .running && (s.cutFaces (s.cut e).desc).contains n

/-- A bench of the face has a slice of the cut to read out. -/
def State.hasReadout (s : State) (n e : Nat) : Bool := (List.range 4).any (fun b => (s.readySlice e n b).isSome)

/-- The state in which the error has counted, and the cut awaits the readout that begins again. -/
def State.readoutAborted (s : State) (n e : Nat) : State :=
  if s.hasReadout n e then (s.drvErrorCounted n).awaitReplay e (.readout n) else s.drvErrorCounted n

section
variable {s : State} {n e : Nat}

/-- On a face that no running cut uses the error only counts. -/
theorem State.tableParity_unused (h : ∀ e ∈ s.liveCuts, n ∉ s.cutFaces (s.cut e).desc) :
    s.tableParity n = s.drvErrorCounted n := by
  have hfind : (s.drvErrorCounted n).liveCuts.find? ((s.drvErrorCounted n).derives n) = none :=
    List.find?_eq_none.mpr fun e he => by
      have hface : n ∉ (s.drvErrorCounted n).cutFaces ((s.drvErrorCounted n).cut e).desc := h e he
      simp [State.derives, hface]
  unfold State.derives State.drvErrorCounted at hfind
  simp only [State.tableParity, hfind]
  rfl

theorem State.tableParity_used (he : s.liveCuts.find? (s.derives n) = some e) :
    s.tableParity n = (s.readoutAborted n e).parityError e n 0 := by
  have hfind : (s.drvErrorCounted n).liveCuts.find? ((s.drvErrorCounted n).derives n) = some e := he
  unfold State.derives State.drvErrorCounted at hfind
  simp only [State.tableParity, hfind]
  rfl

theorem State.readoutAborted_same (s : State) (n e : Nat) :
    Same (partMask [.cuts, .fabric]) (s.drvErrorCounted n) (s.readoutAborted n e) :=
  Same.ite (State.awaitReplay_same (Sub.refl _) (Same.refl _ _) e _) (Same.refl _ _)

/-- A cut whose readout begins again shows 0x41 (R15). -/
theorem State.cut_readoutAborted (s : State) (n e : Nat) : ∃ ws, ∀ k, (s.readoutAborted n e).cut k = if k = e then
    { s.cut k with awaiting := ws, status := if s.hasReadout n e then 0x41 else (s.cut k).status } else s.cut k := by
  unfold State.readoutAborted
  split
  · refine ⟨(s.cut e).awaiting.filter (· != .readout n) ++ [.readout n], fun k => ?_⟩
    rw [State.cut_awaitReplay]
    split
    · next hk =>
      rw [hk]
      rfl
    · rfl
  · exact ⟨(s.cut e).awaiting, fun k => (ite_eq_right_iff.mpr fun hk => by rw [hk]; rfl).symm⟩

/-- A parity error that has counted in its cut sets FAULTED there (R193). -/
theorem State.cut_parityCounted (s : State) (e n k : Nat) : (s.parityCounted e n).cut k = if k = e then
    { s.cut k with parity := Tab.update 0 (s.cut k).parity n (· + 1), flags := (s.cut k).flags ||| 0x4000#32 }
    else s.cut k := by
  rw [State.parityCounted, State.orFlags, State.cut_modCut_eq, State.cut_modCut_eq]
  split <;> rfl

/-- The state in which the error has also counted in its cut. -/
def State.tableErrorCounted (s : State) (n e : Nat) : State := (s.readoutAborted n e).parityCounted e n

/-- The first parity error of the face in its cut counts in both, and the cut's readout, if it has one, begins again. -/
theorem State.tableParity_first (he : s.liveCuts.find? (s.derives n) = some e)
    (h0 : Tab.get 0 (s.cut e).parity n = 0) : s.tableParity n = s.tableErrorCounted n e := by
  obtain ⟨ws, hcut⟩ := s.cut_readoutAborted n e
  have hzero : Tab.get 0 ((s.readoutAborted n e).cut e).parity n = 0 := by
    rw [hcut, if_pos rfl]
    exact h0
  exact (State.tableParity_used he).trans (State.parityError_first hzero 0)

theorem State.tableErrorCounted_same (s : State) (n e : Nat) :
    Same (partMask [.cuts, .fabric]) (s.drvErrorCounted n) (s.tableErrorCounted n e) :=
  (s.readoutAborted_same n e).trans ((State.parityCounted_same _ e n).mono ⟨by decide⟩)

theorem State.tableErrorCounted_drvPerr (s : State) (n e : Nat) :
    (s.tableErrorCounted n e).drvPerr = (s.drvErrorCounted n).drvPerr :=
  (s.tableErrorCounted_same n e).part .drvPerr (by decide)

theorem State.tableErrorCounted_frame (s : State) (n e : Nat) : s.tableErrorCounted n e = { s with
    drvPerr := (s.tableErrorCounted n e).drvPerr, cuts := (s.tableErrorCounted n e).cuts
    fabric := (s.tableErrorCounted n e).fabric } :=
  State.eq_of_parts fun p => by
    have hp := (s.tableErrorCounted_same n e).part p
    cases p <;> first
      | exact hp (by decide)
      | rfl

theorem State.cut_tableErrorCounted (s : State) (n e : Nat) : ∃ ws, ∀ k,
    (s.tableErrorCounted n e).cut k = if k = e then { s.cut k with
      awaiting := ws, status := if s.hasReadout n e then 0x41 else (s.cut k).status
      parity := Tab.update 0 (s.cut k).parity n (· + 1), flags := (s.cut k).flags ||| 0x4000#32 } else s.cut k := by
  obtain ⟨ws, h⟩ := s.cut_readoutAborted n e
  refine ⟨ws, fun k => ?_⟩
  rw [State.tableErrorCounted, State.cut_parityCounted, h]
  split <;> rfl

end

/-! ### O34: readouts and parity errors of the derivative tables -/

theorem readoutDone_leads {s : State} {n : Fin 72} {b : Fin 4} (es : List ReadElem) {e item : Nat} {m : MapDesc}
    {u : TileRef} (hs : s.supply = .good) (hy : YardCanonical s)
    (he : s.liveCuts.find? (s.readsOut n.val b.val) = some e) (hi : s.readySlice e n.val b.val = some item)
    (hm : (s.cut e).mapOf 2 = some m) (hu : s.rankTile e item 0 = some u) (h1 : (s.cut e).desc.split = 1) :
    Leads (.readoutDone n b es) s (fun t =>
      item ∈ (t.cut e).done ∧ (t.cut e).kd0 = (s.cut e).kd0 + 1 ∧ readHdr t.yard.mem u.hdr = Hdr.reset ∧
      (∀ k, k ≠ e → t.cut k = s.cut k) ∧ t.benches = s.benches ∧
      (.readout n.val ∉ (s.cut e).awaiting → t.fabric = s.fabric ∧ (t.cut e).status = (s.cut e).status) ∧
      ((s.cut e).awaiting = [.readout n.val] → (t.cut e).status = 0)) := by
  obtain ⟨f, d, clamps, ds, p, hmem, hcuts⟩ := s.readSlice_cut (n := n.val) (e := e) (item := item) (m := m) (u := u) es
  have hcut := (hcuts e).trans (if_pos rfl)
  refine Leads.effect hs (exec_readoutDone ..) (State.readout_reads he hi hm hu es)
    ⟨?done, ?kd0, State.readSlice_hdr hy h1 hu es, fun k hk => (hcuts k).trans (if_neg hk),
      (State.readSlice_same (Sub.refl _) (Same.refl _ s) e n.val item u m es).part .benches (by decide),
      fun hw => ⟨State.readSlice_fabric hw es, ?stays⟩, fun hw => ?returns⟩
  all_goals rw [hcut]
  case done => exact hmem
  case kd0 => exact CutRun.startsReplays_kd0 ..
  case stays => exact CutRun.startsReplays_unawaited hw
  case returns => exact CutRun.startsReplays_last hw

theorem tableParityError_leads {s : State} {n : Fin 72} {e : Nat} (hs : s.supply = .good)
    (he : s.liveCuts.find? (s.derives n.val) = some e) (h0 : Tab.get 0 (s.cut e).parity n.val = 0) :
    Leads (.tableParityError n) s (fun t => t = { s with drvPerr := t.drvPerr, cuts := t.cuts, fabric := t.fabric } ∧
      Tab.get 0 t.drvPerr n.val = min (Tab.get 0 s.drvPerr n.val + 1) 65535 ∧
      (t.cut e).flags = (s.cut e).flags ||| 0x4000#32 ∧
      (t.cut e).status = (if s.hasReadout n.val e then 0x41 else (s.cut e).status) ∧
      Tab.get 0 (t.cut e).parity n.val = 1 ∧ ∀ k, k ≠ e → t.cut k = s.cut k) := by
  obtain ⟨ws, hcuts⟩ := s.cut_tableErrorCounted n.val e
  have hcut := (hcuts e).trans (if_pos rfl)
  refine Leads.effect hs (exec_tableParityError ..) (State.tableParity_first he h0)
    ⟨s.tableErrorCounted_frame n.val e, ?_, by rw [hcut], by rw [hcut], ?_, fun k hk => (hcuts k).trans (if_neg hk)⟩
  · rw [State.tableErrorCounted_drvPerr, State.drvErrorCounted_here]
  · rw [hcut, Tab.get_update_same, h0]

/-- Settles O34: a readout writes its slice, resets its header and counts it, and the status returns with the replay
that starts; a parity error counts, and the first in a cut aborts at most a readout. -/
theorem readouts : Obligations.Readouts := by
  unfold Obligations.Readouts
  intro s n b es hs hy
  refine ⟨fun e item m u he hi hm hu h1 => ?reads, fun h => ?none, fun h => ?unused, fun e he h0 => ?used⟩
  case reads => exact readoutDone_leads es hs hy he hi hm hu h1
  case none => exact Ignored.effect hs (exec_readoutDone ..) (State.readout_none h es)
  case unused =>
    exact Leads.effect hs (exec_tableParityError ..) (State.tableParity_unused h)
      ⟨rfl, s.drvErrorCounted_here n.val, fun k hk => s.drvErrorCounted_other hk⟩
  case used => exact tableParityError_leads hs he h0

end Sys2Proof.Machine
end

section
/-! The eviction of a held seam: its start and its end (R235, R236, R243). -/

namespace Sys2Proof.Machine

theorem exec_evictionStart (e : Fin 4096) (s : State) :
    exec (.evictionStart e) s = s.on (fun s => s.evictionStart e.val) := rfl

theorem exec_evictionDone (e : Fin 4096) (r : StartReads) (s : State) :
    exec (.evictionDone e r) s = s.on (fun s => s.evictionDone e.val r) := rfl

/-- The hoist over which a W-cut evicts a seam (R236). -/
def State.evictHoist (s : State) (e : Nat) : Nat := nth 0xFFFF (s.descOf e).hoists 4

/-- What an eviction may change before its cut goes on to start. -/
def evictMask : Nat := partMask [.yard, .slots, .seams, .cuts, .hoists]

theorem Same.eq_of_evictMask {s t : State} (h : Same evictMask s t) : t = { s with
    yard := t.yard, slots := t.slots, seams := t.seams, cuts := t.cuts, hoists := t.hoists } :=
  State.eq_of_parts fun p => by
    have hp := h.part p
    cases p <;> first
      | exact hp (by decide)
      | rfl

/-- The state with seam `id` listed as `m`. -/
def State.withSeam (s : State) (id : Nat) (m : Seam) : State := { s with seams := Tab.set s.seams id m }

theorem State.withSeam_same (s : State) (id : Nat) (m : Seam) : Same (partMask [.seams]) s (s.withSeam id m) :=
  Same.set_seams ⟨by decide⟩ (Same.refl _ s)

@[simp] theorem State.withSeam_hoist (s : State) (id : Nat) (m : Seam) (k : Nat) :
    (s.withSeam id m).hoist k = s.hoist k := rfl

@[simp] theorem State.withSeam_cut (s : State) (id : Nat) (m : Seam) (k : Nat) :
    (s.withSeam id m).cut k = s.cut k := rfl

/-! ### The elements of a seam stand in the yard (R233, R236) -/

section
variable {s t : State} (hy : t.yard = s.yard) (hi : t.image = s.image) (hd : ∀ k, (t.cut k).desc = (s.cut k).desc)
include hy hi hd

/-- An element of a seam depends on the yard, the image and the descriptor of the seam's cut alone. -/
theorem State.seamElem_congr (m : Seam) (idx : Nat) : t.seamElem m idx = s.seamElem m idx := by
  have htile : t.seamTile m idx = s.seamTile m idx := by
    simp only [State.seamTile, hi, hd]
  simp only [State.seamElem, htile, hy, State.elemCode_congr hy hi]

theorem State.evictWrites_congr (m : Seam) (bm : MapDesc) : t.evictWrites m bm = s.evictWrites m bm := by
  simp only [State.evictWrites, State.seamElem_congr hy hi hd]

end

/-! ### HELD (R193, R243) -/

/-- The cut that waits on a held region shows HELD, and its wait counts from its first attempt. -/
theorem State.cut_noteHeld (s : State) (e k : Nat) : (s.noteHeld e).cut k = if k = e then { s.cut k with
    flags := (s.cut k).flags ||| 0x4000000#32, metNc := some ((s.cut k).metNc.getD s.nc) } else s.cut k := by
  rw [State.noteHeld, State.orFlags, State.cut_modCut_eq, State.cut_modCut_eq]
  split
  · cases (s.cut k).metNc <;> rfl
  · rfl

theorem State.cut_noteHeld_desc (s : State) (e k : Nat) : ((s.noteHeld e).cut k).desc = (s.cut k).desc := by
  rw [State.cut_noteHeld]
  split <;> rfl

/-! ### EVICTION_START (R235, R236) -/

/-- The hoist that an eviction for cut `e` has taken. -/
def Hoist.claimed (x : Hoist) (e : Nat) : Hoist := { x with cut := some e, st := .stream, taken := [0] }

theorem Hoist.countWrites_cut (h : Hoist) : h.countWrites.cut = h.cut := by
  unfold Hoist.countWrites
  split
  · split <;> rfl
  · rfl

/-- The state in which seam `id` is on its way to its backing area, cut `e` waits for it and has taken its hoist. -/
def State.evictionMarked (s : State) (e id : Nat) (m : Seam) : State :=
  ((s.noteHeld e).modHoist (s.evictHoist e) (·.claimed e)).withSeam id { m with phase := .evicting, evictor := some e }

/-- That state with the elements of the seam, written into the map `bm`, handed to the hoist. -/
def State.evictionBegun (s : State) (e id : Nat) (m : Seam) (bm : MapDesc) : State :=
  (s.evictionMarked e id m).handOut (s.evictHoist e) (s.evictWrites m bm)

theorem State.evictionMarked_evictWrites (s : State) (e id : Nat) (m : Seam) (bm : MapDesc) :
    (s.evictionMarked e id m).evictWrites m bm = s.evictWrites m bm :=
  State.evictWrites_congr (s := s) (t := s.evictionMarked e id m) rfl rfl (s.cut_noteHeld_desc e) m bm

section
variable {s : State} {e id : Nat} {m : Seam} {bm : MapDesc}

theorem State.evictionStart_begins (h2 : (s.descOf e).kind = 2) (hmay : s.mayStart e = true)
    (hidle : (s.hoist (s.evictHoist e)).isIdle = true) (hdrain : s.drainsSeams = false)
    (hev : s.evictable (s.descOf e) = some (id, m)) (hbm : s.backingMap m.region = some bm) :
    s.evictionStart e = s.evictionBegun e id m bm := by
  have hgo : (s.descOf e).kind = 2 ∧ s.mayStart e = true ∧ (s.hoist (s.evictHoist e)).isIdle = true ∧
      s.drainsSeams = false := ⟨h2, hmay, hidle, hdrain⟩
  rw [State.evictHoist] at hgo
  simp only [State.evictionStart, if_pos hgo, hev, hbm]
  exact congrArg (State.handOut _ _) (s.evictionMarked_evictWrites e id m bm)

theorem State.evictionStart_none (h : s.mayStart e = false ∨ s.evictable (s.descOf e) = none) :
    s.evictionStart e = s := by
  rcases h with h | h
  · exact if_neg fun hc => Bool.false_ne_true (h.symm.trans hc.2.1)
  · simp only [State.evictionStart, h, ite_self]

end

theorem State.evictionBegun_frame (s : State) (e id : Nat) (m : Seam) (bm : MapDesc) :
    s.evictionBegun e id m bm = { s with
      cuts := (s.evictionBegun e id m bm).cuts, seams := (s.evictionBegun e id m bm).seams
      hoists := (s.evictionBegun e id m bm).hoists } := by
  have hsame : Same (partMask [.cuts, .seams, .hoists]) s (s.evictionBegun e id m bm) :=
    State.handOut_same ⟨by decide⟩ ((State.modHoist_same ⟨by decide⟩
      (State.noteHeld_same ⟨by decide⟩ (Same.refl _ s) e) _ _).trans
        ((State.withSeam_same _ id _).mono ⟨by decide⟩)) _ _
  have hyard : (s.evictionBegun e id m bm).yard = s.yard := hsame.part .yard (by decide)
  have hslots : (s.evictionBegun e id m bm).slots = s.slots := hsame.part .slots (by decide)
  have hframe := (hsame.mono ⟨by decide⟩).eq_of_evictMask
  rwa [hyard, hslots] at hframe

theorem State.evictionBegun_seams (s : State) (e id : Nat) (m : Seam) (bm : MapDesc) :
    (s.evictionBegun e id m bm).seams = Tab.set s.seams id { m with phase := .evicting, evictor := some e } := rfl

theorem State.evictionBegun_cut (s : State) (e id : Nat) (m : Seam) (bm : MapDesc) (k : Nat) :
    (s.evictionBegun e id m bm).cut k = (s.noteHeld e).cut k := rfl

theorem State.evictionBegun_hoist (s : State) (e id : Nat) (m : Seam) (bm : MapDesc) :
    (s.evictionBegun e id m bm).hoist (s.evictHoist e) = Hoist.countWrites { (s.hoist (s.evictHoist e)).claimed e with
      out := (s.hoist (s.evictHoist e)).out ++ s.evictWrites m bm } := by
  rw [State.evictionBegun, State.handOut, State.hoist_modHoist, State.evictionMarked,
    State.withSeam_hoist, State.hoist_modHoist]
  rfl

theorem State.evictionBegun_hoist_other (s : State) (e id : Nat) (m : Seam) (bm : MapDesc) {k : Nat}
    (hk : k ≠ s.evictHoist e) : (s.evictionBegun e id m bm).hoist k = s.hoist k := by
  rw [State.evictionBegun, State.handOut, State.hoist_modHoist_other _ _ _ _ hk,
    State.evictionMarked, State.withSeam_hoist, State.hoist_modHoist_other _ _ _ _ hk]
  rfl

/-! ### EVICTION_DONE (R235, R236) -/

/-- The state in which seam `id` stands evicted, and the hoist of cut `e` is free. -/
def State.evictionEnded (s : State) (e id : Nat) (m : Seam) : State :=
  (((s.resetSeam m [0]).withSeam id { m with phase := .evicted, evictor := none }).orFlags e (flag 25)).modHoist
    (s.evictHoist e) Hoist.idleNow

/-- The seam is on its way to its backing area, and cut `e` waits for it. -/
def Seam.evictedFor (e : Nat) (x : Nat × Seam) : Bool := x.2.phase == .evicting && x.2.evictor == some e

section
variable {s : State} {e id : Nat} {m : Seam}

theorem State.finishEviction_ends (hf : s.seams.find? (Seam.evictedFor e) = some (id, m))
    (hout : (s.hoist (s.evictHoist e)).out = []) (hdrain : s.drainsSeams = false) :
    s.finishEviction e = s.evictionEnded e id m := by
  unfold Seam.evictedFor at hf
  rw [State.evictHoist] at hout
  simp only [State.finishEviction, hf, if_pos (And.intro hout hdrain)]
  rfl

/-- No eviction completes where no seam is on its way, or where a write is still to be acknowledged. -/
theorem State.finishEviction_none
    (h : (∀ x ∈ s.seams, x.2.phase ≠ .evicting) ∨ (s.hoist (s.evictHoist e)).out ≠ []) :
    s.finishEviction e = s := by
  unfold State.finishEviction
  split
  · next x hf =>
    rcases h with h | h
    · have hx := List.find?_some hf
      simp [h _ (List.mem_of_find?_eq_some hf)] at hx
    · exact if_neg fun hc => h hc.1
  · rfl

theorem State.evictionDone_none (h : s.finishEviction e = s) (r : StartReads) : s.evictionDone e r = s :=
  if_pos h

theorem State.evictionEnded_seam (s : State) (e id : Nat) (m : Seam) :
    Tab.find (s.evictionEnded e id m).seams id = some { m with phase := .evicted, evictor := none } :=
  Tab.find_set_same _ _ _

/-- A seam that was on its way has left its phase, so the cut goes on to start. -/
theorem State.evictionDone_starts (hf : s.seams.find? (Seam.evictedFor e) = some (id, m))
    (hm : Tab.find s.seams id = some m) (hend : s.finishEviction e = s.evictionEnded e id m) (r : StartReads) :
    s.evictionDone e r = (s.evictionEnded e id m).cutStart e r := by
  have hev : m.phase = .evicting := by
    have hx := List.find?_some hf
    simp only [Seam.evictedFor, Bool.and_eq_true, beq_iff_eq] at hx
    exact hx.1
  have hne : s.evictionEnded e id m ≠ s := fun heq => by
    have hseam := s.evictionEnded_seam e id m
    rw [heq, hm, Option.some.injEq] at hseam
    rw [hseam] at hev
    contradiction
  simp only [State.evictionDone, hend, if_neg hne]

end

theorem State.evictionEnded_frame (s : State) (e id : Nat) (m : Seam) : s.evictionEnded e id m = { s with
    yard := (s.evictionEnded e id m).yard, slots := (s.evictionEnded e id m).slots
    seams := (s.evictionEnded e id m).seams, cuts := (s.evictionEnded e id m).cuts
    hoists := (s.evictionEnded e id m).hoists } :=
  (State.modHoist_same ⟨by decide⟩ (State.orFlags_same ⟨by decide⟩
    ((State.resetSeam_same ⟨by decide⟩ (Same.refl _ s) m [0]).trans
      ((State.withSeam_same _ id _).mono ⟨by decide⟩)) _ _) _ _ : Same evictMask s _).eq_of_evictMask

/-- A seam whose headers are reset leaves the records of cuts. -/
theorem State.cut_resetSeam (s : State) (m : Seam) (ranks : List Nat) (k : Nat) :
    (s.resetSeam m ranks).cut k = s.cut k :=
  State.cut_congr ((State.resetSeam_same (Sub.refl _) (Same.refl _ s) m ranks).part .cuts (by decide)) k

theorem State.evictionEnded_flags (s : State) (e id : Nat) (m : Seam) :
    ((s.evictionEnded e id m).cut e).flags = (s.cut e).flags ||| 0x2000000#32 := by
  rw [State.evictionEnded, State.modHoist_read_cut, State.orFlags, State.cut_modCut, State.withSeam_cut,
    State.cut_resetSeam]
  rfl

theorem State.evictionEnded_hoist (s : State) (e id : Nat) (m : Seam) :
    ((s.evictionEnded e id m).hoist (s.evictHoist e)).cut = none := by
  rw [State.evictionEnded, State.hoist_modHoist]
  rfl

/-! ### O39: the eviction of a held seam -/

theorem evictionStart_leads {s : State} {e : Fin 4096} {id : Nat} {m : Seam} {bm : MapDesc} (hs : s.supply = .good)
    (hstart : s.evictionStart e.val = s.evictionBegun e.val id m bm) :
    Leads (.evictionStart e) s (fun t =>
      t = { s with cuts := t.cuts, seams := t.seams, hoists := t.hoists } ∧
      Tab.find t.seams id = some { m with phase := .evicting, evictor := some e.val } ∧
      (∀ k, k ≠ id → Tab.find t.seams k = Tab.find s.seams k) ∧
      (t.hoist (s.evictHoist e.val)).cut = some e.val ∧
      (t.hoist (s.evictHoist e.val)).out = (s.hoist (s.evictHoist e.val)).out ++ s.evictWrites m bm ∧
      (∀ k, k ≠ s.evictHoist e.val → t.hoist k = s.hoist k) ∧
      (t.cut e.val).flags = (s.cut e.val).flags ||| 0x4000000#32 ∧ (∀ k, k ≠ e.val → t.cut k = s.cut k)) := by
  refine Leads.effect hs (exec_evictionStart ..) hstart ⟨s.evictionBegun_frame e.val id m bm, ?seam,
    fun k hk => ?seams, ?cut, ?out, fun k hk => s.evictionBegun_hoist_other e.val id m bm hk, ?flags,
    fun k hk => ?others⟩
  case seam => rw [State.evictionBegun_seams, Tab.find_set_same]
  case seams => rw [State.evictionBegun_seams, Tab.find_set_other _ _ _ _ hk]
  case cut =>
    rw [State.evictionBegun_hoist, Hoist.countWrites_cut]
    rfl
  case out => rw [State.evictionBegun_hoist, Hoist.countWrites_out]
  case flags => rw [State.evictionBegun_cut, State.cut_noteHeld, if_pos rfl]
  case others => rw [State.evictionBegun_cut, State.cut_noteHeld, if_neg hk]

theorem evictionDone_leads {s : State} {e : Fin 4096} {r : StartReads} {id : Nat} {m : Seam} (hs : s.supply = .good)
    (hdone : s.evictionDone e.val r = (s.evictionEnded e.val id m).cutStart e.val r) :
    Leads (.evictionDone e r) s (fun t => ∃ u : State,
      u = { s with yard := u.yard, slots := u.slots, seams := u.seams, cuts := u.cuts, hoists := u.hoists } ∧
      Tab.find u.seams id = some { m with phase := .evicted, evictor := none } ∧
      (u.hoist (s.evictHoist e.val)).cut = none ∧ (u.cut e.val).flags = (s.cut e.val).flags ||| 0x2000000#32 ∧
      t = u.cutStart e.val r) :=
  Leads.effect hs (exec_evictionDone ..) hdone ⟨s.evictionEnded e.val id m, s.evictionEnded_frame e.val id m,
    s.evictionEnded_seam e.val id m, s.evictionEnded_hoist e.val id m, s.evictionEnded_flags e.val id m, rfl⟩

/-- Settles O39: the start of an eviction changes the seam, its hoist and its cut alone; its end moves the seam out of
the phase of an eviction, so the W-cut goes on to start. -/
theorem seamEviction : Obligations.SeamEviction := by
  unfold Obligations.SeamEviction
  intro s e r hs
  refine ⟨fun id m bm h2 hmay hidle hdrain hev hbm => ?begins, fun h => ?waits, fun id m hf hm hout hdrain => ?ends,
    fun h => ?early⟩
  case begins => exact evictionStart_leads hs (State.evictionStart_begins h2 hmay hidle hdrain hev hbm)
  case waits => exact Ignored.effect hs (exec_evictionStart ..) (State.evictionStart_none h)
  case ends =>
    exact evictionDone_leads hs (State.evictionDone_starts hf hm (State.finishEviction_ends hf hout hdrain) r)
  case early =>
    exact Ignored.effect hs (exec_evictionDone ..) (State.evictionDone_none (State.finishEviction_none h) r)

end Sys2Proof.Machine
end

section
/-! What the work of an A-cut leaves: the phase of the cut, what waits at the ports, and of its run what has arrived on
the ring (R263, R268, R269, R273, R274). -/

namespace Sys2Proof.Machine

/-! ### Benches that try to start a pass, one after another -/

/-- The benches of a list try to start their next passes. -/
def State.tryAll (s : State) (xs : List (Nat × Nat)) : State := xs.foldl (fun t x => t.tryStart x.1 x.2) s

theorem State.tryAll_same (s : State) (xs : List (Nat × Nat)) :
    Same (partMask [.faces, .benches, .kilns, .fabric, .cuts]) s (s.tryAll xs) :=
  Same.foldl (Same.refl _ s) _ xs fun _ x h => State.tryStart_same ⟨by decide⟩ h x.1 x.2

theorem State.tryAll_phase (s : State) (xs : List (Nat × Nat)) (k : Nat) :
    ((s.tryAll xs).cut k).phase = (s.cut k).phase :=
  (PassStart.foldl s xs (f := fun t x => t.tryStart x.1 x.2) fun t x => PassStart.tryStart t x.1 x.2).phase k

theorem CountsKept.tryAll (s : State) (xs : List (Nat × Nat)) : CountsKept s (s.tryAll xs) :=
  List.foldlRecOn xs _ (CountsKept.refl s) fun t h x _ => h.trans (CountsKept.tryStart t x.1 x.2)

theorem FramesKept.tryAll (s : State) (xs : List (Nat × Nat)) : FramesKept s (s.tryAll xs) :=
  List.foldlRecOn xs _ (FramesKept.of_cuts rfl) fun t h x _ => h.trans (FramesKept.tryStart t x.1 x.2)

theorem State.arun_congr {s t : State} (h : t.aruns = s.aruns) (k : Nat) : t.arun k = s.arun k := by
  rw [State.arun, h]
  rfl

theorem State.port_congr {s t : State} (h : t.ports = s.ports) (p : Nat) : t.port p = s.port p := by
  rw [State.port, h]
  rfl

theorem State.arun_tryAll (s : State) (xs : List (Nat × Nat)) (k : Nat) : (s.tryAll xs).arun k = s.arun k :=
  State.arun_congr ((s.tryAll_same xs).part .aruns (by decide)) k

/-! ### What has been received waits at the ports -/

/-- Cut `e` is in its phase still, and nothing has left or reached a receive queue. -/
structure RunsOn (e : Nat) (s t : State) : Prop where
  /-- the phase of the cut -/
  phase : (t.cut e).phase = (s.cut e).phase
  /-- what waits on each channel of each port -/
  rx : ∀ p v, ((t.port p).chan v).rx = ((s.port p).chan v).rx

theorem RunsOn.refl (e : Nat) (s : State) : RunsOn e s s := ⟨rfl, fun _ _ => rfl⟩

theorem RunsOn.trans {e : Nat} {s a t : State} (h : RunsOn e s a) (k : RunsOn e a t) : RunsOn e s t :=
  ⟨k.phase.trans h.phase, fun p v => (k.rx p v).trans (h.rx p v)⟩

theorem RunsOn.of_ports {e : Nat} {s t : State} (hc : (t.cut e).phase = (s.cut e).phase) (hp : t.ports = s.ports) :
    RunsOn e s t := ⟨hc, fun p v => by rw [State.port_congr hp]⟩

theorem RunsOn.modCut (e : Nat) (s : State) {f : CutRun → CutRun} (hf : ∀ c : CutRun, (f c).phase = c.phase) :
    RunsOn e s (s.modCut e f) := .of_ports (by rw [State.cut_modCut, hf]) rfl

theorem RunsOn.modArun (e : Nat) (s : State) (k : Nat) (f : ARun → ARun) : RunsOn e s (s.modArun k f) :=
  .of_ports rfl rfl

theorem RunsOn.tryAll (e : Nat) (s : State) (xs : List (Nat × Nat)) : RunsOn e s (s.tryAll xs) :=
  .of_ports (s.tryAll_phase xs e) ((s.tryAll_same xs).part .ports (by decide))

/-- A channel of a port after one channel of one port has changed. -/
theorem State.chan_modPort (s : State) (p vc : Nat) (f : Channel → Channel) (q v : Nat) :
    ((s.modPort p (fun x => x.modChan vc f)).port q).chan v =
      if q = p ∧ v = vc then f ((s.port p).chan vc) else (s.port q).chan v := by
  by_cases hq : q = p
  · rw [hq, State.port_modPort]
    by_cases hv : v = vc
    · rw [hv, if_pos ⟨rfl, rfl⟩]
      exact Tab.get_update_same ..
    · rw [if_neg (fun h => hv h.2)]
      exact Tab.get_update_other _ _ _ _ _ hv
  · rw [State.port_modPort_other s p q _ hq, if_neg (fun h => hq h.1)]

/-- A message that is sent joins what is to be sent alone. -/
theorem RunsOn.sendStream (e : Nat) (s : State) (p vc k : Nat) (bs : List Byte) :
    RunsOn e s (s.sendStream p vc k bs) where
  phase := rfl
  rx q v := by
    rw [State.sendStream, State.chan_modPort]
    split
    · next h => rw [h.1, h.2]
    · rfl

/-- The message at the front of a channel is taken off it. -/
theorem State.takeStream_rx (s : State) (p vc : Nat) : (((s.takeStream p vc).port p).chan vc).rx =
    (((s.port p).chan vc).rx).drop (throughTail ((s.port p).chan vc).rx) := by
  rw [State.takeStream, State.chan_modPort, if_pos ⟨rfl, rfl⟩]

/-! ### What has arrived on the ring -/

/-- A run of an A-cut keeps its own returns; a tile that has taken its partial has taken it, and a partial that waits
waits on or is taken; and no block lands while none waits. -/
structure ARun.Kept (r r' : ARun) : Prop where
  /-- the tiles of the own block that have come back -/
  returned : r'.returned = r.returned
  /-- a partial that has arrived -/
  arrived : ∀ o vs, o ∈ r.folded ∨ Tab.find r.partials o = some vs → o ∈ r'.folded ∨ Tab.find r'.partials o = some vs
  /-- the blocks that have landed -/
  landed : r.waitingBlock = [] → r'.waitingBlock = [] ∧ r'.landed = r.landed

theorem ARun.Kept.refl (r : ARun) : r.Kept r := ⟨rfl, fun _ _ h => h, fun h => ⟨h, rfl⟩⟩

theorem ARun.Kept.trans {r a r' : ARun} (h : r.Kept a) (k : a.Kept r') : r.Kept r' where
  returned := k.returned.trans h.returned
  arrived o vs ho := k.arrived o vs (h.arrived o vs ho)
  landed hw := by
    obtain ⟨ha, hl⟩ := h.landed hw
    obtain ⟨hb, hm⟩ := k.landed ha
    exact ⟨hb, hm.trans hl⟩

theorem Tab.find_drop_other {α : Type} (t : Tab α) {k j : Nat} (h : j ≠ k) :
    Tab.find (Tab.drop t k) j = Tab.find t j := by
  unfold Tab.drop
  induction t with
  | nil => rfl
  | cons x t ih =>
    obtain ⟨i, v⟩ := x
    by_cases hi : i = k
    · have hj : j ≠ i := hi ▸ h
      simpa [hi, Tab.find, h] using ih
    · simp [hi, Tab.find, ih]

/-- A partial that a tile takes leaves those that wait (R274). -/
theorem ARun.Kept.takePartial (r : ARun) (o : Nat) :
    r.Kept { r with folded := o :: r.folded, partials := Tab.drop r.partials o } where
  returned := rfl
  arrived j vs h := by
    by_cases hj : j = o
    · exact .inl (hj ▸ List.mem_cons_self)
    · rw [Tab.find_drop_other _ hj]
      exact h.imp_left (List.mem_cons_of_mem o)
  landed h := ⟨h, rfl⟩

/-- The work of an A-cut between two arrivals: the cut runs on, and its run keeps what has arrived. -/
structure Swept (e : Nat) (s t : State) : Prop extends RunsOn e s t where
  /-- the run of the cut -/
  arun : (s.arun e).Kept (t.arun e)

theorem Swept.refl (e : Nat) (s : State) : Swept e s s := ⟨.refl e s, .refl _⟩

theorem Swept.trans {e : Nat} {s a t : State} (h : Swept e s a) (k : Swept e a t) : Swept e s t :=
  ⟨h.toRunsOn.trans k.toRunsOn, h.arun.trans k.arun⟩

theorem Swept.foldl {α : Type} {e : Nat} {f : State → α → State} (s : State) (xs : List α)
    (h : ∀ t x, Swept e t (f t x)) : Swept e s (xs.foldl f s) :=
  List.foldlRecOn xs f (.refl e s) fun t ht x _ => ht.trans (h t x)

theorem Swept.of_aruns {e : Nat} {s t : State} (h : RunsOn e s t) (ha : t.aruns = s.aruns) : Swept e s t :=
  ⟨h, by rw [State.arun_congr ha]; exact .refl _⟩

/-- A change of none of the parts in question. -/
theorem Swept.of_same {m e : Nat} {s t : State} (h : Same m s t)
    (hm : [Part.cuts, .ports, .aruns].all (fun p => !m.testBit p.bit) = true) : Swept e s t := by
  have part : ∀ p ∈ [Part.cuts, .ports, .aruns], p.same s t := fun p hp =>
    h.part p (by simpa using List.all_eq_true.mp hm p hp)
  have hcuts : t.cuts = s.cuts := part .cuts (by decide)
  exact .of_aruns (.of_ports (by rw [State.cut_congr hcuts]) (part .ports (by decide))) (part .aruns (by decide))

theorem Swept.modCut (e : Nat) (s : State) {f : CutRun → CutRun} (hf : ∀ c : CutRun, (f c).phase = c.phase) :
    Swept e s (s.modCut e f) := .of_aruns (.modCut e s hf) rfl

theorem Swept.orFlags (e : Nat) (s : State) (k : Nat) : Swept e s (s.orFlags e k) := .modCut e s fun _ => rfl

theorem Swept.modArun (e : Nat) (s : State) {f : ARun → ARun} (hf : ∀ r : ARun, r.Kept (f r)) :
    Swept e s (s.modArun e f) :=
  ⟨.of_ports rfl rfl, by rw [State.arun_modArun]; exact hf _⟩

/-! ### Tiles, rows and rounds (R268, R269, R274, R280) -/

theorem Swept.writeOut (e : Nat) (s : State) (item map hoist : Nat) (es : List (List (Option Int) × Val)) :
    Swept e s (s.writeOut e item map hoist es) := by
  unfold State.writeOut
  dsimp only
  split
  · exact .refl e s
  · exact .trans (.of_same (State.putOut_same (Sub.refl _) (Same.refl _ s) _ _ _ _) (by decide)) (.orFlags e _ _)

theorem Swept.writeKeys (e : Nat) (s : State) (o round : Nat) (val : Nat → Nat → Nat → Val) :
    Swept e s (s.writeKeys e o round val) := .trans (.writeOut e s _ _ _ _) (.writeOut e _ _ _ _ _)

theorem Swept.resetTile (e : Nat) (s : State) (hdr : Nat) : Swept e s (s.resetTile hdr) :=
  .of_same (State.resetTile_same (Sub.refl _) (Same.refl _ s) hdr) (by decide)

/-- The elements of a fold go to the yard, after a promotion perhaps to its promotion slots. -/
theorem State.elemsFolded_same (s : State) (t : TileRef) (first promoteOn : Bool) (ps : List ((Nat × Nat) × Val)) :
    Same (partMask [.yard, .slots]) s (s.elemsFolded t first promoteOn ps).1 := by
  have h : Same (partMask [.yard, .slots]) s (s.promoted t first promoteOn).1 := by
    unfold State.promoted
    dsimp only
    split
    · exact State.promotionRule_same ⟨by decide⟩ (Same.refl _ s) _ _ _
    · exact Same.refl _ s
  exact State.foldInto_same ⟨by decide⟩ (State.zeroRest_same ⟨by decide⟩ h _ _) _ _ _

theorem Swept.foldTile (e : Nat) (s : State) (t : TileRef) (first promoteOn : Bool) (ps : List ((Nat × Nat) × Val))
    (fl : FoldFlags) : Swept e s (s.foldTile e t first promoteOn ps fl) := by
  have hput : ∀ bs, Swept e s ((s.elemsFolded t first promoteOn ps).1.putYard t.hdr bs) := fun bs =>
    .of_same (State.putYard_same ⟨by decide⟩ (s.elemsFolded_same t first promoteOn ps) t.hdr bs) (by decide)
  exact ((hput _).trans (.orFlags e _ _)).trans (.modCut e _ fun _ => rfl)

theorem Swept.foldPartial (e : Nat) (s : State) (o : Nat) (vs : List (List Nat)) : Swept e s (s.foldPartial e o vs) :=
  .trans (.foldl s _ fun _ _ => .foldTile e _ _ _ _ _ _) (.modArun e _ fun r => .takePartial r o)

theorem Swept.outTile (e : Nat) (s : State) (o : Nat) : Swept e s (s.outTile e o) := by
  unfold State.outTile
  extract_lets c a ts bs s1
  have h1 : Swept e s s1 := by
    dsimp only [s1]
    split
    · exact .writeKeys e s _ _ _
    · exact .trans (.of_aruns (.sendStream e s _ _ _ _) rfl) (.orFlags e _ _)
  exact (h1.trans (.foldl s1 ts fun t x => .resetTile e t x.hdr)).trans
    (.modArun e _ fun _ => ⟨rfl, fun _ _ h => h, fun h => ⟨h, rfl⟩⟩)

theorem Swept.tryTile (e : Nat) (s : State) (o : Nat) : Swept e s (s.tryTile e o) := by
  unfold State.tryTile
  dsimp only
  split
  · exact .refl e s
  · split
    · exact .outTile e s o
    · split
      · exact .trans (.foldPartial e s o _) (.outTile e _ o)
      · exact .refl e s

theorem Swept.resetRow (e : Nat) (s : State) (row : Nat) : Swept e s (s.resetRow e row) :=
  .of_same (State.resetRow_same (Sub.refl _) (Same.refl _ s) e row) (by decide)

theorem Swept.tryRow (e : Nat) (s : State) (row : Nat) : Swept e s (s.tryRow e row) := by
  unfold State.tryRow
  dsimp only
  split
  · exact .refl e s
  · exact ((Swept.writeOut e s _ _ _ _).trans (.resetRow e _ row)).trans
      (.modArun e _ fun _ => ⟨rfl, fun _ _ h => h, fun h => ⟨h, rfl⟩⟩)

theorem Swept.itemDone (e : Nat) (s : State) (item : Nat) : Swept e s (s.itemDone e item) := by
  have hsame := State.itemDone_same (Sub.refl _) (Same.refl _ s) e item
  obtain ⟨ds, p, -, hcut⟩ := s.cut_itemDone e item
  exact .of_aruns (.of_ports (by rw [hcut, if_pos rfl]) (hsame.part .ports (by decide))) (hsame.part .aruns (by decide))

theorem Swept.tryRound (e : Nat) (s : State) (round : Nat) : Swept e s (s.tryRound e round) := by
  unfold State.tryRound
  split
  · exact .refl e s
  · refine .trans ?_ (.itemDone e _ round)
    exact .modCut e s fun _ => rfl

/-! ### Blocks that land (R271, R273) -/

/-- The blocks of a round are dealt: benches and the cut's counts change, and the round has landed. -/
theorem State.dealRound_spec (s : State) (e round : Nat) : RunsOn e s (s.dealRound e round) ∧
    (s.dealRound e round).arun e = { s.arun e with landed := max (s.arun e).landed (round + 1) } := by
  unfold State.dealRound
  extract_lets a r n s1 s2
  have h1 : RunsOn e s s1 ∧ s1.aruns = s.aruns := by
    dsimp only [s1]
    refine List.foldlRecOn (motive := fun t => RunsOn e s t ∧ t.aruns = s.aruns) _ _ ⟨.refl e s, rfl⟩
      fun t ⟨ht, ha⟩ x _ => ?_
    split
    · exact ⟨ht.trans (.modCut e t fun _ => rfl), ha⟩
    · exact ⟨ht.trans (.of_ports rfl rfl), ha⟩
  obtain ⟨hrun, haruns⟩ := h1
  refine ⟨(hrun.trans (.modArun e s1 e _)).trans (.tryAll e s2 (s.benchList (s.cut e).desc)), ?_⟩
  exact (s2.arun_tryAll _ e).trans ((s1.arun_modArun e _).trans (by rw [State.arun_congr haruns]))

/-- A block that lands goes to memory, and on to the next chip where one needs it; then its blocks are dealt. -/
theorem State.landBlock_deals {s : State} {e : Nat} {x : RingSlot} {area : Nat × Nat}
    (h : s.slotArea e (x.round % 2) = some area) : ∃ (u : State) (placed : List PageRow), RunsOn e s u ∧
      u.aruns = s.aruns ∧ s.landBlock e x = (u.modArun e (fun r => { r with
        pages := Tab.set r.pages x.round placed, slots := Tab.set r.slots (x.round % 2) x })).dealRound e x.round := by
  have hput : ∀ a bs, RunsOn e s (s.putFabric a bs) := fun _ _ => ⟨rfl, fun _ _ => rfl⟩
  unfold State.landBlock
  simp only [h]
  refine ⟨_, _, ?_, ?_, rfl⟩
  · split
    · exact (hput _ _).trans (.sendStream e _ _ _ _ _)
    · exact hput _ _
  · split <;> rfl

/-- A block that lands changes of the run its pages, its slots and the rounds that have landed. -/
theorem State.landBlock_spec (s : State) (e : Nat) (x : RingSlot) : RunsOn e s (s.landBlock e x) ∧
    ∃ ps sl l, (s.landBlock e x).arun e = { s.arun e with pages := ps, slots := sl, landed := l } ∧
      ((s.slotArea e (x.round % 2)).isSome = true → l = max (s.arun e).landed (x.round + 1)) := by
  cases h : s.slotArea e (x.round % 2) with
  | none =>
    have hstay : s.landBlock e x = s := by
      unfold State.landBlock
      simp only [h]
    rw [hstay]
    exact ⟨.refl e s, _, _, _, rfl, fun h => by contradiction⟩
  | some area =>
    obtain ⟨u, placed, hu, haruns, hdeals⟩ := State.landBlock_deals h
    obtain ⟨hdeal, harun⟩ := State.dealRound_spec (u.modArun e (fun r => { r with
      pages := Tab.set r.pages x.round placed, slots := Tab.set r.slots (x.round % 2) x })) e x.round
    rw [← hdeals] at hdeal
    rw [← hdeals, State.arun_modArun, State.arun_congr haruns] at harun
    exact ⟨(hu.trans (.modArun e u e _)).trans hdeal, _, _, _, harun, fun _ => rfl⟩

/-- The only block that waits lands where its slot is free and RX_MAP names it. -/
theorem State.landWaiting_lands {s : State} {e : Nat} {x : RingSlot} (hw : (s.arun e).waitingBlock = [x])
    (hfree : Tab.find (s.arun e).slots (x.round % 2) = none) (harea : (s.slotArea e (x.round % 2)).isSome = true) :
    RunsOn e s (s.landWaiting e) ∧ ((s.landWaiting e).arun e).waitingBlock = [] ∧
      ((s.landWaiting e).arun e).landed = max (s.arun e).landed (x.round + 1) := by
  have hland : s.landWaiting e = (s.modArun e (fun r => { r with waitingBlock := [] })).landBlock e x := by
    unfold State.landWaiting
    rw [hw]
    dsimp only
    rw [hfree]
    rfl
  obtain ⟨hrun, ps, sl, l, harun, hl⟩ :=
    (s.modArun e (fun r => { r with waitingBlock := [] })).landBlock_spec e x
  rw [State.arun_modArun] at harun hl
  rw [hland, harun]
  exact ⟨(RunsOn.modArun e s e _).trans hrun, rfl, hl harea⟩

theorem Swept.landWaiting (e : Nat) (s : State) : Swept e s (s.landWaiting e) := by
  unfold State.landWaiting
  split
  · next x rest hw =>
    split
    · obtain ⟨hrun, ps, sl, l, harun, -⟩ :=
        (s.modArun e (fun r => { r with waitingBlock := rest })).landBlock_spec e x
      refine ⟨(RunsOn.modArun e s e _).trans hrun, ?_⟩
      rw [harun, State.arun_modArun]
      exact ⟨rfl, fun _ _ h => h, fun h => by rw [hw] at h; contradiction⟩
    · exact .refl e s
  · exact .refl e s

/-- What a fold, a partial or a landed block completes leaves what has arrived. -/
theorem Swept.sweepA (e : Nat) (s : State) : Swept e s (s.sweepA e) := by
  unfold State.sweepA
  extract_lets a r s1 s2 s3
  have h1 : Swept e s s1 := .foldl s _ fun t o => .tryTile e t o
  have h2 : Swept e s1 s2 := .foldl s1 _ fun t k => .tryRow e t k
  have h3 : Swept e s2 s3 := .foldl s2 _ fun t k => .tryRound e t k
  have hpages : Swept e s3 (s3.releasePages e) := .modArun e s3 fun _ => ⟨rfl, fun _ _ h => h, fun h => ⟨h, rfl⟩⟩
  have hslots : Swept e (s3.releasePages e) ((s3.releasePages e).freeSlots e) :=
    .modArun e _ fun _ => ⟨rfl, fun _ _ h => h, fun h => ⟨h, rfl⟩⟩
  exact ((((h1.trans h2).trans h3).trans hpages).trans hslots).trans (.landWaiting e _)

end Sys2Proof.Machine
end

section
/-! The ends of cuts whatever their final status (R194, R272, R321). -/

namespace Sys2Proof.Machine

/-- Up to where what a cut held is freed, its end changes no record but its own. -/
theorem State.concludeCut_cut (s : State) (e code : Nat) :
    (s.concludeCut e code).cut e = { s.cut e with phase := .ended, status := code, endNc := s.nc } := by
  have hsame : Same (partMask [.glb, .log, .tallies, .yard, .seams, .slots, .results]) (s.finish e code)
      (s.concludeCut e code) := by
    have hdone : Same (partMask [.glb, .log, .tallies, .yard, .seams, .slots, .results]) (s.finish e code)
        (if failedCode code then s.finish e code else (s.finish e code).doneTallies (s.cut e).desc) :=
      Same.ite (Same.refl _ _) (State.doneTallies_same ⟨by decide⟩ (Same.refl _ _) _)
    unfold State.concludeCut
    exact State.endResult_same ⟨by decide⟩ (State.endSeam_same ⟨by decide⟩ (Same.ite (State.logCut_same ⟨by decide⟩
      (State.setEvt_same ⟨by decide⟩ hdone _) _ _) hdone) _ _) _ _
  rw [State.cut_congr (hsame.part .cuts (by decide)), State.cut_finish]

/-- The record of a cut that has ended. -/
theorem State.cut_endCut (s : State) (e code : Nat) :
    (s.endCut e code).cut e = { s.cut e with phase := .ended, status := code, endNc := s.nc } := by
  have hleave := ((s.concludeCut e code).freeCut e).leaveCut_same e (s.cut e).desc.working code
  have hstill : ((s.concludeCut e code).cut e).phase ≠ .running := by
    rw [State.concludeCut_cut]
    exact CutPhase.noConfusion
  obtain ⟨hfree, -, -, -⟩ := State.freeCut_spec hstill
  rw [State.endCut_eq, State.cut_congr (hleave.part .cuts (by decide)), hfree, State.concludeCut_cut]

/-- A cut that lives and is broken has ended with 0x50. -/
theorem State.cut_breakCut {s : State} {e : Nat} (h : (s.cut e).live = true) :
    (s.breakCut e).cut e = { s.cut e with phase := .ended, status := 0x50, endNc := s.nc } := by
  rw [State.breakCut, if_pos h, State.cut_endCut]

theorem CutRun.live_of_running {c : CutRun} (h : c.phase = .running) : c.live = true := by
  rw [CutRun.live, h]
  rfl

end Sys2Proof.Machine
end

section
/-! Row sums, page copies, ring blocks and partials (R253, R259, R263, R271 to R274, R304). -/

namespace Sys2Proof.Machine

theorem exec_deltaMakeDone (e : Fin 4096) (row : Nat) (qs : List DeltaQuery) (s : State) :
    exec (.deltaMakeDone e row qs) s = s.on (fun s => s.deltaMade e.val row qs) := rfl

theorem exec_pageCopy (e : Fin 4096) (page : Nat) (data : List Byte) (waited : Nat) (s : State) :
    exec (.pageCopy e page data waited) s = s.on (fun s => s.pageCopy e.val page data waited) := rfl

theorem exec_ringBlockArrive (e : Fin 4096) (header data : List Byte) (s : State) :
    exec (.ringBlockArrive e header data) s = s.on (fun s => s.ringBlock e.val header data) := rfl

theorem exec_ringPartialArrive (e : Fin 4096) (round k : Nat) (vs : List (List Nat)) (s : State) :
    exec (.ringPartialArrive e round k vs) s = s.on (fun s => s.ringPartial e.val round k vs) := rfl

section
variable {s : State} {e : Nat} {a : AArea}

/-! ### Row sums (R253) -/

/-- The flags that the row sums of a row set: that they were made, what rounded, and what was truncated (R253). -/
def deltaFlags (ds : List (Fp × Bool)) : Nat :=
  ds.foldl (fun acc x => acc ||| roundFlags x.1.fl ||| (if x.2 then flag 6 else 0)) (flag 26)

theorem deltaFlags_made (ds : List (Fp × Bool)) :
    BitVec.ofNat 32 (deltaFlags ds) &&& 0x4000000#32 = 0x4000000#32 :=
  List.foldlRecOn (motive := fun acc => BitVec.ofNat 32 acc &&& 0x4000000#32 = 0x4000000#32) ds _ (by decide)
    fun acc h x _ => by
      rw [BitVec.ofNat_or, BitVec.ofNat_or]
      exact word_or_and_of_set (word_or_and_of_set h _) _

/-- The row sums of queries, rounded to FP32, each with whether a product was truncated (R253). -/
def CutRun.rowSums (c : CutRun) (qs : List DeltaQuery) : List (Fp × Bool) :=
  qs.map (deltaOfQuery (c.typeOf 4) (c.typeOf 5))

/-- The row sums of a row written out, flagged and kept. -/
def State.sumsKept (s : State) (e row : Nat) (es : List (List (Option Int) × Val)) (ds : List (Fp × Bool)) : State :=
  ((s.writeOut e 0 (nth 0xFFFF (s.cut e).desc.maps 7) 13 es).orFlags e (deltaFlags ds)).modArun e
    (fun r => { r with delta := Tab.set r.delta row (ds.map (fun x => x.1.code)) })

theorem State.deltaMade_makes {row : Nat} {x : Nat × Nat × Nat} (qs : List DeltaQuery) (ha : (s.cut e).desc.area = .a a)
    (hr : (s.cut e).phase = .running) (hm : a.deltaMake = true) (hrow : row < (s.arun e).rows a)
    (hx : rowOf a.heads a.qbLog2 (s.arun e).seqs 0 row = some x) (hnew : Tab.find (s.arun e).delta row = none) :
    ∃ es bl, s.deltaMade e row qs = (s.sumsKept e row es ((s.cut e).rowSums qs)).tryAll bl := by
  have hgo : (s.cut e).phase = .running ∧ a.deltaMake = true ∧ row < (s.arun e).rows a ∧
      (Tab.find (s.arun e).delta row).isNone = true := ⟨hr, hm, hrow, by rw [hnew]; rfl⟩
  unfold State.deltaMade
  simp only [ha, if_pos hgo, hx]
  exact ⟨_, _, rfl⟩

/-- A row whose sums have been made is left as it is. -/
theorem State.deltaMade_made {row : Nat} (qs : List DeltaQuery) (hmade : Tab.find (s.arun e).delta row ≠ none) :
    s.deltaMade e row qs = s := by
  have hstop : ¬ (Tab.find (s.arun e).delta row).isNone = true := fun h => hmade (Option.isNone_iff_eq_none.mp h)
  unfold State.deltaMade
  dsimp only
  split
  · exact if_neg fun ⟨_, _, _, h⟩ => hstop h
  · rfl

theorem State.sumsKept_same (s : State) (e row : Nat) (es : List (List (Option Int) × Val)) (ds : List (Fp × Bool)) :
    Same (partMask [.yard, .cuts, .hoists, .aruns]) s (s.sumsKept e row es ds) :=
  State.modArun_same ⟨by decide⟩ (State.orFlags_same ⟨by decide⟩
    (State.writeOut_same ⟨by decide⟩ (Same.refl _ s) _ _ _ _ _) _ _) _ _

theorem State.arun_sumsKept (s : State) (e row : Nat) (es : List (List (Option Int) × Val)) (ds : List (Fp × Bool)) :
    (s.sumsKept e row es ds).arun e =
      { s.arun e with delta := Tab.set (s.arun e).delta row (ds.map (fun x => x.1.code)) } := by
  have hout : Same (partMask [.yard, .hoists, .cuts]) s
      ((s.writeOut e 0 (nth 0xFFFF (s.cut e).desc.maps 7) 13 es).orFlags e (deltaFlags ds)) :=
    State.orFlags_same ⟨by decide⟩ (State.writeOut_same ⟨by decide⟩ (Same.refl _ s) _ _ _ _ _) _ _
  rw [State.sumsKept, State.arun_modArun, State.arun_congr (hout.part .aruns (by decide))]

theorem deltaMakeDone_leads {e : Fin 4096} {row : Nat} {x : Nat × Nat × Nat} (qs : List DeltaQuery)
    (hs : s.supply = .good) (ha : (s.cut e.val).desc.area = .a a) (hr : (s.cut e.val).phase = .running)
    (hm : a.deltaMake = true) (hrow : row < (s.arun e.val).rows a)
    (hx : rowOf a.heads a.qbLog2 (s.arun e.val).seqs 0 row = some x) (hnew : Tab.find (s.arun e.val).delta row = none) :
    Leads (.deltaMakeDone e row qs) s (fun t =>
      Tab.find (t.arun e.val).delta row =
        some (qs.map (fun q => (deltaOfQuery ((s.cut e.val).typeOf 4) ((s.cut e.val).typeOf 5) q).1.code)) ∧
      (∀ k, k ≠ row → Tab.find (t.arun e.val).delta k = Tab.find (s.arun e.val).delta k) ∧
      (t.cut e.val).flags &&& 0x4000000#32 = 0x4000000#32 ∧ t.tallies = s.tallies ∧ t.log = s.log) := by
  obtain ⟨es, bl, hmakes⟩ := State.deltaMade_makes qs ha hr hm hrow hx hnew
  have hkept := s.sumsKept_same e.val row es ((s.cut e.val).rowSums qs)
  have htry := (s.sumsKept e.val row es ((s.cut e.val).rowSums qs)).tryAll_same bl
  refine Leads.effect hs (exec_deltaMakeDone ..) hmakes ⟨?made, fun k hk => ?others, ?flag,
    (htry.part .tallies (by decide)).trans (hkept.part .tallies (by decide)),
    (htry.part .log (by decide)).trans (hkept.part .log (by decide))⟩
  case made =>
    rw [State.arun_tryAll, State.arun_sumsKept, Tab.find_set_same, CutRun.rowSums, List.map_map]
    rfl
  case others => rw [State.arun_tryAll, State.arun_sumsKept, Tab.find_set_other _ _ _ _ hk]
  case flag =>
    obtain ⟨-, -, hflags⟩ := CountsKept.tryAll (s.sumsKept e.val row es ((s.cut e.val).rowSums qs)) bl e.val
    refine hflags _ ?_
    rw [State.sumsKept, State.modArun_read_cut, State.orFlags, State.cut_modCut, BitVec.or_comm]
    exact word_or_and_of_set (deltaFlags_made _) _

/-! ### The page walker (R263, R280) -/

/-- A page's bytes in the prefetch area: its place, its space and that it has been copied (R263). -/
def ARun.pageKept (r : ARun) (page size len : Nat) : ARun :=
  { r with
    prefetch := r.prefetch ++ [(page, size)], pfHead := (r.pfHead + size) % max len 1, copied := page :: r.copied }

/-- A page copied, flagged, its waits counted, and kept. -/
def State.pageKept (s : State) (e page size len h waited : Nat) (ws : List LineWrite) : State :=
  (((s.handOut h ws).orFlags e (flag 27)).addPfStall e waited).modArun e (fun r => r.pageKept page size len)

theorem State.pageCopy_copies {page base len waited : Nat} {data : List Byte} (ha : (s.cut e).desc.area = .a a)
    (hr : (s.cut e).phase = .running) (hp : s.prefetchArea e = some (base, len))
    (hnext : (s.arun e).nextPage = some page)
    (hlen : data.length = (nth default (Tab.get [] (s.arun e).pages 0) page).allBytes a)
    (hfit :
      ((s.arun e).prefetch.map Prod.snd).sum + (nth default (Tab.get [] (s.arun e).pages 0) page).allBytes a ≤ len) :
    ∃ h ws bl, s.pageCopy e page data waited = (s.pageKept e page
      ((nth default (Tab.get [] (s.arun e).pages 0) page).allBytes a) len h waited ws).tryAll bl := by
  unfold State.pageCopy
  simp only [ha, hp]
  rw [if_pos ⟨hr, hnext, hlen, hfit⟩]
  exact ⟨_, _, _, rfl⟩

/-- A page that is not the next one, or has no space, is not copied. -/
theorem State.pageCopy_waits {page base len : Nat} (data : List Byte) (waited : Nat) (ha : (s.cut e).desc.area = .a a)
    (hp : s.prefetchArea e = some (base, len))
    (h : (s.arun e).nextPage ≠ some page ∨
      len < ((s.arun e).prefetch.map Prod.snd).sum + (nth default (Tab.get [] (s.arun e).pages 0) page).allBytes a) :
    s.pageCopy e page data waited = s := by
  unfold State.pageCopy
  simp only [ha, hp]
  exact if_neg fun ⟨_, hnext, _, hfit⟩ => h.elim (absurd hnext) (Nat.not_lt.mpr hfit)

/-- The two halves of PF_STALL_NC read as what was added up (R280). -/
theorem CutRun.pfStall_halves (c : CutRun) {v : Nat} (hv : v < 2 ^ 32) :
    ({ c with kd2 := c.kd2 % 65536 + v % 65536 * 65536, kd3 := v / 65536 } : CutRun).pfStall = v := by
  dsimp only [CutRun.pfStall]
  omega

theorem State.addPfStall_cut (s : State) (e waited : Nat) :
    ((s.addPfStall e waited).cut e).pfStall = min ((s.cut e).pfStall + waited) (2 ^ 32 - 1) := by
  rw [State.addPfStall, State.cut_modCut, ← satAdd]
  exact CutRun.pfStall_halves _ (by unfold satAdd; omega)

theorem State.pageKept_same (s : State) (e page size len h waited : Nat) (ws : List LineWrite) :
    Same (partMask [.hoists, .cuts, .aruns]) s (s.pageKept e page size len h waited ws) :=
  State.modArun_same ⟨by decide⟩ (State.addPfStall_same ⟨by decide⟩ (State.orFlags_same ⟨by decide⟩
    (State.handOut_same ⟨by decide⟩ (Same.refl _ s) h ws) e _) e _) e _

theorem State.pageKept_spec (s : State) (e page size len h waited : Nat) (ws : List LineWrite) :
    let t := s.pageKept e page size len h waited ws
    t.arun e = (s.arun e).pageKept page size len ∧ (t.cut e).flags &&& 0x8000000#32 = 0x8000000#32 ∧
      (t.cut e).pfStall = min ((s.cut e).pfStall + waited) (2 ^ 32 - 1) := by
  intro t
  refine ⟨State.arun_modArun _ e _, ?_, ?_⟩
  · have hcut : t.cut e = (((s.handOut h ws).orFlags e (flag 27)).addPfStall e waited).cut e := rfl
    rw [hcut, State.addPfStall, State.cut_modCut]
    exact (s.handOut h ws).orFlags_set e (flag 27)
  · refine (((s.handOut h ws).orFlags e (flag 27)).addPfStall_cut e waited).trans ?_
    rw [State.orFlags, State.cut_modCut]
    rfl

theorem pageCopy_leads {e : Fin 4096} {page base len : Nat} {data : List Byte} (waited : Nat) (hs : s.supply = .good)
    (ha : (s.cut e.val).desc.area = .a a) (hr : (s.cut e.val).phase = .running)
    (hp : s.prefetchArea e.val = some (base, len)) :
    let r := s.arun e.val
    let size := (nth default (Tab.get [] r.pages 0) page).allBytes a
    r.nextPage = some page → data.length = size → (r.prefetch.map Prod.snd).sum + size ≤ len →
    Leads (.pageCopy e page data waited) s (fun t =>
      (t.arun e.val).copied = page :: r.copied ∧ (t.arun e.val).prefetch = r.prefetch ++ [(page, size)] ∧
      (t.arun e.val).pfHead = (r.pfHead + size) % max len 1 ∧
      (t.cut e.val).flags &&& 0x8000000#32 = 0x8000000#32 ∧
      (t.cut e.val).pfStall = min ((s.cut e.val).pfStall + waited) (2 ^ 32 - 1) ∧ t.yard = s.yard ∧
      t.tallies = s.tallies) := by
  intro r size hnext hlen hfit
  obtain ⟨h, ws, bl, hcopies⟩ := State.pageCopy_copies (waited := waited) ha hr hp hnext hlen hfit
  have hkept := s.pageKept_same e.val page size len h waited ws
  have htry := (s.pageKept e.val page size len h waited ws).tryAll_same bl
  obtain ⟨harun, hflag, hstall⟩ := s.pageKept_spec e.val page size len h waited ws
  obtain ⟨-, -, hflags⟩ := CountsKept.tryAll (s.pageKept e.val page size len h waited ws) bl e.val
  have hframe := congrArg CutRun.pfStall (FramesKept.tryAll (s.pageKept e.val page size len h waited ws) bl e.val)
  refine Leads.effect hs (exec_pageCopy ..) hcopies ?_
  rw [State.arun_tryAll, harun]
  exact ⟨rfl, rfl, rfl, hflags _ hflag, Eq.trans hframe hstall,
    (htry.part .yard (by decide)).trans (hkept.part .yard (by decide)),
    (htry.part .tallies (by decide)).trans (hkept.part .tallies (by decide))⟩

/-! ### A visiting block (R271 to R273) -/

/-- A block taken off its channel that waits for its slot, and whether it has a page wider than the cut's own. -/
def State.blockWaits (s : State) (e p vc : Nat) (x : RingSlot) (wide : Bool) : State :=
  let u := (s.takeStream p vc).modArun e (fun r => { r with waitingBlock := r.waitingBlock ++ [x] })
  if wide then u.orFlags e (flag 8) else u

theorem State.blockWaits_same (s : State) (e p vc : Nat) (x : RingSlot) (wide : Bool) :
    Same (partMask [.ports, .cuts, .aruns]) s (s.blockWaits e p vc x wide) := by
  have h : Same (partMask [.ports, .cuts, .aruns]) s
      ((s.takeStream p vc).modArun e (fun r => { r with waitingBlock := r.waitingBlock ++ [x] })) :=
    State.modArun_same ⟨by decide⟩ (State.takeStream_same ⟨by decide⟩ (Same.refl _ s) p vc) e _
  exact Same.ite (State.orFlags_same ⟨by decide⟩ h e _) h

theorem State.blockWaits_spec (s : State) (e p vc : Nat) (x : RingSlot) (wide : Bool) :
    let t := s.blockWaits e p vc x wide
    t.arun e = { s.arun e with waitingBlock := (s.arun e).waitingBlock ++ [x] } ∧ (t.cut e).phase = (s.cut e).phase ∧
      (∀ k, t.slotArea e k = s.slotArea e k) ∧ ((t.port p).chan vc).rx =
        (((s.port p).chan vc).rx).drop (throughTail ((s.port p).chan vc).rx) := by
  intro t
  have hu : ((s.takeStream p vc).modArun e (fun r => { r with waitingBlock := r.waitingBlock ++ [x] })).arun e =
      { s.arun e with waitingBlock := (s.arun e).waitingBlock ++ [x] } := State.arun_modArun ..
  cases wide with
  | false => exact ⟨hu, rfl, fun _ => rfl, s.takeStream_rx p vc⟩
  | true =>
    have hcut : t.cut e = { s.cut e with flags := (s.cut e).flags ||| BitVec.ofNat 32 (flag 8) } := State.cut_modCut ..
    refine ⟨hu, by rw [hcut], fun k => ?_, s.takeStream_rx p vc⟩
    rw [State.slotArea, hcut]
    rfl

theorem State.ringBlock_takes {header data : List Byte} (ha : (s.cut e).desc.area = .a a)
    (hr : (s.cut e).phase = .running) (hring : 1 < a.ring) (hw : (s.arun e).waitingBlock = [])
    (hfits : headerFits a (s.arun e).landed header = true) (hmore : (s.arun e).landed < a.ring)
    (hpages : ∀ p ∈ decodePages (data.take (field header 12 4)),
      a.allowNarrow = true ∨ widerThan p.fmt a.qfmt = false) :
    ∃ wide, s.ringBlock e header data = ((s.blockWaits e a.portPrev a.vcKv
      { round := (s.arun e).landed, data := header ++ data } wide).landWaiting e).sweepA e := by
  have hall : (decodePages (data.take (field header 12 4))).all
      (fun p => a.allowNarrow || !widerThan p.fmt a.qfmt) = true := by
    simpa only [List.all_eq_true, Bool.or_eq_true, Bool.not_eq_true'] using hpages
  refine ⟨(decodePages (data.take (field header 12 4))).any (fun p => widerThan p.fmt a.qfmt), ?_⟩
  unfold State.ringBlock
  simp only [ha, hw, hr, hring, hfits, hmore, hall, List.length_nil, Nat.add_zero, decide_true, Bool.and_self,
    and_self, if_true, State.blockWaits]
  split <;> rfl

/-- A block that differs from the cut, or that comes after the last round, breaks the cut. -/
theorem State.ringBlock_breaks {header : List Byte} (data : List Byte) (ha : (s.cut e).desc.area = .a a)
    (hr : (s.cut e).phase = .running) (hring : 1 < a.ring) (hw : (s.arun e).waitingBlock = [])
    (h : headerFits a (s.arun e).landed header = false ∨ a.ring ≤ (s.arun e).landed) :
    s.ringBlock e header data = (s.takeStream a.portPrev a.vcKv).breakCut e := by
  have hno : (headerFits a (s.arun e).landed header && decide ((s.arun e).landed < a.ring)) = false := by
    rcases h with h | h
    · rw [h, Bool.false_and]
    · rw [decide_eq_false (Nat.not_lt.mpr h), Bool.and_false]
  unfold State.ringBlock
  simp only [ha, hw, hr, hring, hno, List.length_nil, Nat.add_zero, Bool.false_and, and_self, if_true,
    Bool.false_eq_true, if_false]

theorem ringBlockArrive_leads {e : Fin 4096} {header data : List Byte} (hs : s.supply = .good)
    (ha : (s.cut e.val).desc.area = .a a) (hr : (s.cut e.val).phase = .running) (hring : 1 < a.ring)
    (hw : (s.arun e.val).waitingBlock = []) (hfits : headerFits a (s.arun e.val).landed header = true)
    (hmore : (s.arun e.val).landed < a.ring)
    (hpages : ∀ p ∈ decodePages (data.take (field header 12 4)), a.allowNarrow = true ∨ widerThan p.fmt a.qfmt = false)
    (hfree : Tab.find (s.arun e.val).slots ((s.arun e.val).landed % 2) = none)
    (harea : (s.slotArea e.val ((s.arun e.val).landed % 2)).isSome = true) :
    Leads (.ringBlockArrive e header data) s (fun t =>
      (t.arun e.val).landed = (s.arun e.val).landed + 1 ∧ (t.cut e.val).phase = .running ∧
      ((t.port a.portPrev).chan a.vcKv).rx =
        (((s.port a.portPrev).chan a.vcKv).rx).drop (throughTail ((s.port a.portPrev).chan a.vcKv).rx) ∧
      t.working = s.working) := by
  obtain ⟨wide, htakes⟩ := State.ringBlock_takes (data := data) ha hr hring hw hfits hmore hpages
  generalize hx : ({ round := (s.arun e.val).landed, data := header ++ data } : RingSlot) = x at htakes
  have hround : x.round = (s.arun e.val).landed := by rw [← hx]
  have hsame := s.blockWaits_same e.val a.portPrev a.vcKv x wide
  obtain ⟨warun, wphase, warea, wrx⟩ := s.blockWaits_spec e.val a.portPrev a.vcKv x wide
  generalize s.blockWaits e.val a.portPrev a.vcKv x wide = u at htakes hsame warun wphase warea wrx
  obtain ⟨hland, hnone, hlanded⟩ := State.landWaiting_lands (s := u) (e := e.val) (x := x)
    (by rw [warun, hw]; rfl) (by rw [warun, hround]; exact hfree) (by rw [warea, hround]; exact harea)
  have hsweep := Swept.sweepA e.val (u.landWaiting e.val)
  obtain ⟨-, hstays⟩ := hsweep.arun.landed hnone
  have hruns := hland.trans hsweep.toRunsOn
  refine Leads.effect hs (exec_ringBlockArrive ..) htakes
    ⟨?_, hruns.phase.trans (wphase.trans hr), (hruns.rx _ _).trans wrx, ?_⟩
  · rw [hstays, hlanded, warun, hround]
    exact Nat.max_eq_right (Nat.le_succ _)
  · have hl := State.landWaiting_same (Sub.refl _) (Same.refl _ u) e.val
    have hsw := State.sweepA_same (Sub.refl _) (Same.refl _ (u.landWaiting e.val)) e.val
    exact (hsw.part .working (by decide)).trans
      ((hl.part .working (by decide)).trans (hsame.part .working (by decide)))

theorem ringBlockArrive_breaks {e : Fin 4096} {header : List Byte} (data : List Byte) (hs : s.supply = .good)
    (ha : (s.cut e.val).desc.area = .a a) (hr : (s.cut e.val).phase = .running) (hring : 1 < a.ring)
    (hw : (s.arun e.val).waitingBlock = [])
    (h : headerFits a (s.arun e.val).landed header = false ∨ a.ring ≤ (s.arun e.val).landed) :
    Leads (.ringBlockArrive e header data) s (fun t => (t.cut e.val).phase = .ended ∧ (t.cut e.val).status = 0x50) := by
  refine Leads.effect hs (exec_ringBlockArrive ..) (State.ringBlock_breaks data ha hr hring hw h) ?_
  rw [State.cut_breakCut (CutRun.live_of_running (c := (s.takeStream a.portPrev a.vcKv).cut e.val) hr)]
  exact ⟨rfl, rfl⟩

/-! ### Partials (R274) -/

theorem State.ringPartial_holds {round k : Nat} (vs : List (List Nat)) (ha : (s.cut e).desc.area = .a a)
    (hr : (s.cut e).phase = .running) (hring : 1 < a.ring) (h1 : 1 ≤ round) (h2 : round < a.ring)
    (h3 : round < (s.arun e).landed) (hk : k < (s.arun e).tilesIn a round)
    (hnew : (s.arun e).tileBase a round + k ∉ (s.arun e).folded) :
    s.ringPartial e round k vs = ((s.takeStream a.portPrev a.vcDkv).modArun e (fun r =>
      { r with partials := Tab.set r.partials ((s.arun e).tileBase a round + k) vs })).sweepA e := by
  have hfolded : (s.arun e).folded.contains ((s.arun e).tileBase a round + k) = false := by
    simpa using hnew
  unfold State.ringPartial
  simp only [ha]
  rw [if_neg fun ⟨_, _, heq, _⟩ => absurd heq (Nat.ne_of_lt h2), if_pos ⟨hr, hring, h1, h2, h3, hk, hfolded⟩]

theorem State.ringPartial_returns {k : Nat} (vs : List (List Nat)) (ha : (s.cut e).desc.area = .a a)
    (hr : (s.cut e).phase = .running) (hring : 1 < a.ring) (hk : k < (s.arun e).tilesIn a 0)
    (hnew : k ∉ (s.arun e).returned) :
    ∃ u : State, Swept e (s.takeStream a.portPrev a.vcDkv) u ∧
      s.ringPartial e a.ring k vs = (u.modArun e (fun r => { r with returned := k :: r.returned })).sweepA e := by
  have hreturned : (s.arun e).returned.contains k = false := by simpa using hnew
  unfold State.ringPartial
  simp only [ha]
  rw [if_pos ⟨hr, hring, trivial, hk, hreturned⟩]
  exact ⟨_, .writeKeys e _ _ _ _, rfl⟩

/-- No partial is taken without a ring, in round 0, beyond the ring, or where it has been taken. -/
theorem State.ringPartial_none {round k : Nat} (vs : List (List Nat)) (ha : (s.cut e).desc.area = .a a)
    (h : a.ring ≤ 1 ∨ round = 0 ∨ a.ring < round ∨
      round < a.ring ∧ (s.arun e).tileBase a round + k ∈ (s.arun e).folded ∨
      round = a.ring ∧ k ∈ (s.arun e).returned) : s.ringPartial e round k vs = s := by
  have hown : ¬ ((s.cut e).phase = .running ∧ 1 < a.ring ∧ round = a.ring ∧ k < (s.arun e).tilesIn a 0 ∧
      (s.arun e).returned.contains k = false) := by
    rintro ⟨-, hring, heq, -, hreturned⟩
    have hnew : k ∉ (s.arun e).returned := by simpa using hreturned
    rcases h with h | h | h | ⟨h, -⟩ | ⟨-, h⟩
    case inr.inr.inr.inr => exact hnew h
    all_goals omega
  have hvisit : ¬ ((s.cut e).phase = .running ∧ 1 < a.ring ∧ 1 ≤ round ∧ round < a.ring ∧
      round < (s.arun e).landed ∧ k < (s.arun e).tilesIn a round ∧
      (s.arun e).folded.contains ((s.arun e).tileBase a round + k) = false) := by
    rintro ⟨-, hring, h1, h2, -, -, hfolded⟩
    have hnew : (s.arun e).tileBase a round + k ∉ (s.arun e).folded := by simpa using hfolded
    rcases h with h | h | h | ⟨-, h⟩ | ⟨h, -⟩
    case inr.inr.inr.inl => exact hnew h
    all_goals omega
  unfold State.ringPartial
  simp only [ha]
  rw [if_neg hown, if_neg hvisit]

theorem ringPartialArrive_keeps {e : Fin 4096} {round k : Nat} (vs : List (List Nat)) (hs : s.supply = .good)
    (ha : (s.cut e.val).desc.area = .a a) (hr : (s.cut e.val).phase = .running) (hring : 1 < a.ring) (h1 : 1 ≤ round)
    (h2 : round < a.ring) (h3 : round < (s.arun e.val).landed) (hk : k < (s.arun e.val).tilesIn a round)
    (hnew : (s.arun e.val).tileBase a round + k ∉ (s.arun e.val).folded) :
    Leads (.ringPartialArrive e round k vs) s (fun t =>
      ((s.arun e.val).tileBase a round + k ∈ (t.arun e.val).folded ∨
        Tab.find (t.arun e.val).partials ((s.arun e.val).tileBase a round + k) = some vs) ∧
      (t.cut e.val).phase = .running) := by
  have hsweep := Swept.sweepA e.val ((s.takeStream a.portPrev a.vcDkv).modArun e.val (fun r =>
    { r with partials := Tab.set r.partials ((s.arun e.val).tileBase a round + k) vs }))
  refine Leads.effect hs (exec_ringPartialArrive ..) (State.ringPartial_holds vs ha hr hring h1 h2 h3 hk hnew)
    ⟨hsweep.arun.arrived _ vs (.inr ?_), hsweep.phase.trans hr⟩
  rw [State.arun_modArun, Tab.find_set_same]

theorem ringPartialArrive_returns {e : Fin 4096} {k : Nat} (vs : List (List Nat)) (hs : s.supply = .good)
    (ha : (s.cut e.val).desc.area = .a a) (hr : (s.cut e.val).phase = .running) (hring : 1 < a.ring)
    (hk : k < (s.arun e.val).tilesIn a 0) (hnew : k ∉ (s.arun e.val).returned) :
    Leads (.ringPartialArrive e a.ring k vs) s (fun t =>
      k ∈ (t.arun e.val).returned ∧ (t.cut e.val).phase = .running) := by
  obtain ⟨u, hu, hreturns⟩ := State.ringPartial_returns vs ha hr hring hk hnew
  have hsweep := Swept.sweepA e.val (u.modArun e.val (fun r => { r with returned := k :: r.returned }))
  refine Leads.effect hs (exec_ringPartialArrive ..) hreturns ⟨?_, hsweep.phase.trans (hu.phase.trans hr)⟩
  rw [hsweep.arun.returned, State.arun_modArun]
  exact List.mem_cons_self

/-- Without a ring no block arrives. -/
theorem State.ringBlock_alone (header data : List Byte) (ha : (s.cut e).desc.area = .a a) (h : a.ring ≤ 1) :
    s.ringBlock e header data = s := by
  unfold State.ringBlock
  simp only [ha]
  exact if_neg fun ⟨_, hring⟩ => Nat.not_lt.mpr h hring

end

/-! ### O41: row sums, page copies, ring blocks and partials -/

/-- Settles O41: row sums and pages are noted in the run of the cut, which the passes that then start leave; what a
sweep completes leaves the blocks that have landed, the own returns, and each partial waiting or folded. -/
theorem attentionPages : Obligations.AttentionPages := by
  unfold Obligations.AttentionPages
  refine ⟨fun s e a hs ha hr => ⟨fun row qs x hm hrow hx => ⟨?made, ?again⟩,
      fun page data waited base len hp => ⟨?copied, ?unfit⟩⟩,
    fun s e a hs ha hr => ⟨fun header data hring hw => ⟨?lands, ?breaks⟩, fun round k vs hring => ⟨?kept, ?own, ?idle⟩,
      fun header data round o vs hring => ⟨?alone, ?unasked⟩⟩⟩
  case made => exact deltaMakeDone_leads qs hs ha hr hm hrow hx
  case again => exact fun hmade => Ignored.effect hs (exec_deltaMakeDone ..) (State.deltaMade_made qs hmade)
  case copied => exact pageCopy_leads waited hs ha hr hp
  case unfit => exact fun h => Ignored.effect hs (exec_pageCopy ..) (State.pageCopy_waits data waited ha hp h)
  case lands =>
    exact fun hfits hmore hpages hfree harea =>
      ringBlockArrive_leads hs ha hr hring hw hfits hmore hpages hfree harea
  case breaks => exact ringBlockArrive_breaks data hs ha hr hring hw
  case kept => exact ringPartialArrive_keeps vs hs ha hr hring
  case own =>
    rintro rfl hk hnew
    exact ringPartialArrive_returns vs hs ha hr hring hk hnew
  case idle =>
    exact fun h => Ignored.effect hs (exec_ringPartialArrive ..) (State.ringPartial_none vs ha (.inr h))
  case alone => exact Ignored.effect hs (exec_ringBlockArrive ..) (State.ringBlock_alone header data ha hring)
  case unasked =>
    exact Ignored.effect hs (exec_ringPartialArrive ..) (State.ringPartial_none vs ha (.inl hring))

end Sys2Proof.Machine
end

section
/-! The slabs of a U-cut: their ends on a dresser, their faults, and the writes that wait for a drain (R283, R288,
R294, R297, R381, R391, R429). -/

namespace Sys2Proof.Machine

theorem exec_slabDone (e : Fin 4096) (d : Fin 4) (slab : Nat) (elems : List DressElem) (s : State) :
    exec (.slabDone e d slab elems) s = s.on (fun s => s.slabDone e.val d.val slab elems) := rfl

theorem exec_slabFault (e : Fin 4096) (d : Fin 4) (slab : Nat) (bad : Bool) (s : State) :
    exec (.slabFault e d slab bad) s = s.on (fun s => s.slabFault e.val d.val slab bad) := rfl

theorem exec_drainWaitEnd (e : Fin 4096) (slab : Nat) (s : State) :
    exec (.drainWaitEnd e slab) s = s.on (fun s => s.drainWaitEnd e.val slab) := rfl

/-! ### Units and the dressers of a U-cut (R283, R381) -/

theorem State.unit_congr {s t : State} (h : t.units = s.units) (kind n : Nat) : t.unit kind n = s.unit kind n := by
  rw [State.unit, h]
  rfl

/-- A change of a unit that does not retire it leaves every unit as healthy as it was. -/
theorem State.unitHealthy_modUnit (s : State) (kind n : Nat) {f : UnitState → UnitState}
    (hf : ∀ u, (f u).retired = u.retired) (kind' n' : Nat) :
    (s.modUnit kind n f).unitHealthy kind' n' = s.unitHealthy kind' n' := by
  unfold State.unitHealthy
  by_cases h : kind' * 16 + n' = kind * 16 + n
  · have hsame : ∀ t : State, t.unit kind' n' = t.unit kind n := fun t => by rw [State.unit, State.unit, h]
    rw [hsame, hsame, State.unit_modUnit, hf]
  · rw [State.unit_modUnit_other _ _ _ _ _ _ h]

theorem State.dressersOf_congr {s t : State} (h : ∀ d, t.unitHealthy 5 d = s.unitHealthy 5 d) (a : UArea) :
    t.dressersOf a = s.dressersOf a := by
  unfold State.dressersOf State.healthyDressers
  simp only [h]

/-! ### The end of a slab on a dresser (R283, R429) -/

theorem State.cut_endSlab (s : State) (e d slab : Nat) : ∃ ds p, slab ∈ ds ∧ ∀ k, (s.endSlab e d slab).cut k =
    if k = e then { s.cut k with done := ds, published := p } else s.cut k :=
  State.cut_itemDone (s.modUnit 5 d (fun u => { u with count := u.count + 1, busy := none })) e slab

theorem State.unit_endSlab (s : State) (e d slab : Nat) :
    (s.endSlab e d slab).unit 5 d = { s.unit 5 d with count := (s.unit 5 d).count + 1, busy := none } := by
  have hitem := State.itemDone_same (Sub.refl _)
    (Same.refl _ (s.modUnit 5 d (fun u => { u with count := u.count + 1, busy := none }))) e slab
  rw [State.endSlab, State.unit_congr (hitem.part .units (by decide)), State.unit_modUnit]

/-! ### SLAB_DONE (R283, R288, R297) -/

/-- The record of a U-cut that counts one more slab: the flags of its arithmetic, whether its guard acted and how many
of its blocks were frozen. -/
def CutRun.countsSlab (c : CutRun) (fl : Nat) (guarded : Bool) (frozen : Nat) : CutRun :=
  { c with
    flags := c.flags ||| BitVec.ofNat 32 fl |||
      BitVec.ofNat 32 ((if guarded then flag 25 else 0) + (if 0 < frozen then flag 24 else 0))
    kd1 := satAdd 16 (c.kd1 % 65536) 1 + 65536 * satAdd 16 (c.kd1 / 65536) (b2n guarded)
    kd2 := satAdd 32 c.kd2 frozen }

theorem CutRun.countsSlab_slabs (c : CutRun) (fl : Nat) (guarded : Bool) (frozen : Nat) :
    (c.countsSlab fl guarded frozen).kd1 % 65536 = min (c.kd1 % 65536 + 1) 65535 := by
  simp only [CutRun.countsSlab, satAdd]
  omega

/-- The state in which a slab's arithmetic is noted and the slab counts. -/
def State.slabCounted (s : State) (e fl : Nat) (guarded : Bool) (frozen : Nat) : State :=
  (s.orFlags e fl).countSlab e guarded frozen

theorem State.cut_slabCounted (s : State) (e fl : Nat) (guarded : Bool) (frozen k : Nat) :
    (s.slabCounted e fl guarded frozen).cut k = if k = e then (s.cut k).countsSlab fl guarded frozen else s.cut k := by
  simp only [State.slabCounted, State.countSlab, State.orFlags, State.cut_modCut_eq]
  split <;> rfl

/-- The state in which a slab's writes wait for the drain, and its dresser for them. -/
def State.slabWaits (s : State) (e d slab w : Nat) (ws : List (Nat × LineWrite)) : State :=
  ((s.orFlags e (flag 26)).holdWrites e slab ws).modUnit 5 d (fun u => { u with busy := some e, working := w })

theorem State.slabWaits_same (s : State) (e d slab w : Nat) (ws : List (Nat × LineWrite)) :
    Same (partMask [.cuts, .snap, .units]) s (s.slabWaits e d slab w ws) :=
  State.modUnit_same ⟨by decide⟩ (State.holdWrites_same ⟨by decide⟩
    (State.orFlags_same ⟨by decide⟩ (Same.refl _ s) e _) e slab ws) 5 d _

theorem State.snap_slabWaits (s : State) (e d slab w : Nat) (ws : List (Nat × LineWrite)) :
    (s.slabWaits e d slab w ws).snap =
      { s.snap with waiting := s.snap.waiting ++ [{ entry := e, slab := slab, writes := ws, since := s.nc }] } := rfl

theorem State.cut_slabWaits (s : State) (e d slab w : Nat) (ws : List (Nat × LineWrite)) (k : Nat) :
    (s.slabWaits e d slab w ws).cut k = (s.orFlags e (flag 26)).cut k := rfl

section
variable {s : State} {e d slab : Nat} {elems : List DressElem} (h4 : (s.cut e).desc.kind = 4)
  (hr : (s.cut e).phase = .running) (hd : s.slabDresser e slab = some d)
include h4 hr hd

/-- A slab that its dresser ends counts; its writes wait where a drain still reads the buffer they go to, and else go
out. -/
theorem State.slabDone_counts (hslab : slab < s.seamSlabs (s.cut e).desc) (hnew : slab ∉ (s.cut e).done)
    (hrun : s.running (88 + d) = true) (hfree : (s.unit 5 d).busy = none) (hnext : s.earlierSlabs e d slab = true)
    (hlen : elems.length = min 4096 (s.seamSize (s.cut e).desc - slab * 4096)) :
    ∃ fl guarded frozen ws, s.slabDone e d slab elems =
      if s.drainsBuffer e (1 - (s.cut e).desc.readBuffer (s.cut e).step) then
        (s.slabCounted e fl guarded frozen).slabWaits e d slab (s.cut e).desc.working ws
      else ((s.slabCounted e fl guarded frozen).issue ws).endSlab e d slab := by
  have hopen : (s.cut e).done.contains slab = false := by simpa using hnew
  have hbusy : (s.unit 5 d).busy.isNone = true := Option.isNone_iff_eq_none.mpr hfree
  unfold State.slabDone
  dsimp only
  rw [if_pos ⟨h4, hr, hslab, hopen, hd, hrun, hbusy, hnext, hlen⟩]
  exact ⟨_, _, _, _, rfl⟩

end

/-- A slab that is complete, or whose dresser does not run, does not end. -/
theorem State.slabDone_none {s : State} {e d slab : Nat} (elems : List DressElem)
    (h : slab ∈ (s.cut e).done ∨ s.running (88 + d) = false) : s.slabDone e d slab elems = s := by
  unfold State.slabDone
  refine if_neg fun ⟨_, _, _, hopen, _, hrun, _⟩ => ?_
  rcases h with hdone | hoff
  · exact Bool.eq_false_iff.mp hopen (List.contains_iff_mem.mpr hdone)
  · exact Bool.false_ne_true (hoff.symm.trans hrun)

section
variable (s : State) (e d slab fl : Nat) (guarded : Bool) (frozen : Nat) (ws : List (Nat × LineWrite))

theorem State.slabCounted_same : Same (partMask [.cuts]) s (s.slabCounted e fl guarded frozen) :=
  State.countSlab_same ⟨by decide⟩ (State.orFlags_same ⟨by decide⟩ (Same.refl _ s) e fl) e guarded frozen

theorem State.slabIssued_same :
    Same (partMask [.cuts, .hoists]) s ((s.slabCounted e fl guarded frozen).issue ws) :=
  State.issue_same ⟨by decide⟩ ((s.slabCounted_same e fl guarded frozen).mono ⟨by decide⟩) ws

theorem State.slabIssued_cut (k : Nat) : ((s.slabCounted e fl guarded frozen).issue ws).cut k =
    if k = e then (s.cut k).countsSlab fl guarded frozen else s.cut k := by
  have hissue := State.issue_same (Sub.refl _) (Same.refl _ (s.slabCounted e fl guarded frozen)) ws
  rw [State.cut_congr (hissue.part .cuts (by decide)), State.cut_slabCounted]

/-- Where no drain reads the buffer, the slab is complete and its dresser free. -/
theorem State.slabEnds_spec : let t := ((s.slabCounted e fl guarded frozen).issue ws).endSlab e d slab
    slab ∈ (t.cut e).done ∧ (t.unit 5 d).count = (s.unit 5 d).count + 1 ∧ (t.unit 5 d).busy = none ∧
      (t.cut e).kd1 % 65536 = min ((s.cut e).kd1 % 65536 + 1) 65535 ∧ (∀ k, k ≠ e → t.cut k = s.cut k) ∧
      t.yard = s.yard ∧ t.snap = s.snap ∧ t.fabric = s.fabric := by
  intro t
  have hissued := s.slabIssued_same e fl guarded frozen ws
  have hsame : Same (partMask [.glb, .log, .tallies, .cuts, .hoists, .units]) s t :=
    State.endSlab_same ⟨by decide⟩ (hissued.mono ⟨by decide⟩) e d slab
  have hunit : t.unit 5 d = { s.unit 5 d with count := (s.unit 5 d).count + 1, busy := none } := by
    rw [State.unit_endSlab, State.unit_congr (hissued.part .units (by decide))]
  obtain ⟨ds, p, hmem, hcut⟩ := State.cut_endSlab ((s.slabCounted e fl guarded frozen).issue ws) e d slab
  have hother : ∀ k, k ≠ e → t.cut k = s.cut k := fun k hk => by
    rw [hcut, if_neg hk, State.slabIssued_cut, if_neg hk]
  have hown : t.cut e = { (s.cut e).countsSlab fl guarded frozen with done := ds, published := p } := by
    rw [hcut, if_pos rfl, State.slabIssued_cut, if_pos rfl]
  rw [hown, hunit]
  exact ⟨hmem, rfl, rfl, (s.cut e).countsSlab_slabs fl guarded frozen, hother, hsame.part .yard (by decide),
    hsame.part .snap (by decide), hsame.part .fabric (by decide)⟩

/-- Where a drain reads the buffer, the writes wait and their dresser is busy with them. -/
theorem State.slabWaits_spec (w : Nat) : let t := (s.slabCounted e fl guarded frozen).slabWaits e d slab w ws
    t.snap = { s.snap with waiting :=
        s.snap.waiting ++ [{ entry := e, slab := slab, writes := ws, since := s.nc }] } ∧
      (t.unit 5 d).busy = some e ∧ (t.cut e).done = (s.cut e).done ∧
      (t.cut e).flags &&& 0x4000000#32 = 0x4000000#32 ∧ t.hoists = s.hoists ∧ t.tallies = s.tallies := by
  have hcounted := s.slabCounted_same e fl guarded frozen
  have hown := s.cut_slabCounted e fl guarded frozen e
  rw [if_pos rfl] at hown
  generalize s.slabCounted e fl guarded frozen = u at hcounted hown
  have hwaits := u.slabWaits_same e d slab w ws
  refine ⟨?snap, congrArg UnitState.busy (State.unit_modUnit _ 5 d _), ?done, ?flag,
    (hwaits.part .hoists (by decide)).trans (hcounted.part .hoists (by decide)),
    (hwaits.part .tallies (by decide)).trans (hcounted.part .tallies (by decide))⟩
  case snap =>
    have hsnap : u.snap = s.snap := hcounted.part .snap (by decide)
    have hnc : u.nc = s.nc := hcounted.part .nc (by decide)
    rw [State.snap_slabWaits, hsnap, hnc]
  case done =>
    rw [State.cut_slabWaits, State.orFlags, State.cut_modCut, hown]
    rfl
  case flag => exact u.orFlags_set e (flag 26)

end

/-! ### SLAB_FAULT (R294, R381) -/

/-- The state in which a fault has aborted part of a U-cut. -/
def State.slabAborted (s : State) (e : Nat) : State := (s.orFlags e (flag flFaulted)).setStatus e 0x41

/-- A unit after a fault in cut `e`. -/
def UnitState.struck (u : UnitState) (e : Nat) : UnitState :=
  { u with faults := satAdd 8 u.faults 1, cutFaults := e + 1 }

/-- The state in which a fault of a unit in cut `e` has been counted. -/
def State.unitStruck (s : State) (kind n e : Nat) : State := s.modUnit kind n (fun u => u.struck e)

/-- The state in which the next dresser takes a slab over, or with none left the working halts. -/
def State.slabPassedOn (s : State) (e d slab : Nat) (c : CutDesc) : State :=
  match nextDresser (s.dressersOf c.uArea) d with
  | some x => (s.modCut e (fun c => { c with moved := Tab.set c.moved slab x })).setStatus e 0
  | none => s.halt c.working haltUnit d (some e)

/-- The first fault of a unit in a cut counts. -/
theorem State.unitStrike_first {s : State} {kind n e : Nat} (h : (s.unit kind n).cutFaults ≠ e + 1) :
    s.unitStrike kind n (some e) false = s.unitStruck kind n e := by
  unfold State.unitStrike
  simp only [beq_eq_false_iff_ne.mpr h, Bool.and_false, Bool.or_false, Bool.false_eq_true, if_false]
  rfl

/-- The second fault of a unit in a cut retires it. -/
theorem State.unitStrike_second {s : State} {kind n e : Nat} (h : (s.unit kind n).cutFaults = e + 1) :
    s.unitStrike kind n (some e) false = (s.unitStruck kind n e).retireUnit kind n (unitRow kind) 0 := by
  unfold State.unitStrike
  simp only [beq_iff_eq.mpr h, bne_iff_ne.mpr (Nat.succ_ne_zero e), Bool.and_true, Bool.or_true, if_true]
  rfl

theorem State.retireUnit_retired {s : State} {kind n : Nat} (h : (s.unit kind n).retired = false) (cause flags : Nat) :
    ((s.retireUnit kind n cause flags).unit kind n).retired = true ∧
      kind * 16 + n ∈ (s.retireUnit kind n cause flags).spare.unitRet := by
  unfold State.retireUnit
  rw [if_neg (Bool.eq_false_iff.mp h)]
  exact ⟨congrArg UnitState.retired (s.unit_modUnit kind n (fun u => { u with retired := true })),
    List.mem_cons_self⟩

theorem State.slabAborted_same (s : State) (e : Nat) : Same (partMask [.cuts, .fabric]) s (s.slabAborted e) :=
  State.setStatus_same ⟨by decide⟩ (State.orFlags_same ⟨by decide⟩ (Same.refl _ s) e _) e 0x41

theorem State.cut_slabAborted (s : State) (e k : Nat) : (s.slabAborted e).cut k =
    if k = e then { s.cut k with flags := (s.cut k).flags ||| 0x4000#32, status := 0x41 } else s.cut k := by
  rw [State.slabAborted, State.orFlags, State.cut_setStatus, State.cut_modCut_eq]
  split <;> rfl

theorem State.unit_slabAborted (s : State) (e kind n : Nat) : (s.slabAborted e).unit kind n = s.unit kind n :=
  State.unit_congr ((s.slabAborted_same e).part .units (by decide)) kind n

theorem Same.eq_of_cutsFabricUnits {s t : State} (h : Same (partMask [.cuts, .fabric, .units]) s t) :
    t = { s with cuts := t.cuts, fabric := t.fabric, units := t.units } :=
  State.eq_of_parts fun p => by
    have hp := h.part p
    cases p with
    | cuts | fabric | units => rfl
    | _ => exact hp (by decide)

theorem State.slabPassedOn_same (s : State) (e d slab : Nat) (c : CutDesc) :
    Same (partMask [.cuts, .fabric, .glb, .log, .working, .hoists, .benches, .tileSlots]) s
      (s.slabPassedOn e d slab c) := by
  unfold State.slabPassedOn
  split
  · exact State.setStatus_same ⟨by decide⟩ (State.modCut_same ⟨by decide⟩ (Same.refl _ s) e _) e 0
  · exact State.halt_same ⟨by decide⟩ (Same.refl _ s) _ _ _ _

section
variable {s : State} {e d slab : Nat} (h4 : (s.cut e).desc.kind = 4) (hr : (s.cut e).phase = .running)
  (hd : s.slabDresser e slab = some d) (hnew : slab ∉ (s.cut e).done)
include h4 hr hd hnew

theorem State.slabFault_slab : s.slabFault e d slab false = (s.slabAborted e).setStatus e 0 := by
  unfold State.slabFault
  exact if_pos ⟨h4, hr, hd, by simpa using hnew⟩

theorem State.slabFault_dresser : s.slabFault e d slab true =
    ((s.slabAborted e).unitStrike 5 d (some e) false).slabPassedOn e d slab (s.cut e).desc := by
  unfold State.slabFault
  exact if_pos ⟨h4, hr, hd, by simpa using hnew⟩

end

/-- A slab that is complete is not replayed. -/
theorem State.slabFault_none {s : State} {e slab : Nat} (hdone : slab ∈ (s.cut e).done) (d : Nat) (bad : Bool) :
    s.slabFault e d slab bad = s := by
  unfold State.slabFault
  exact if_neg fun ⟨_, _, _, hopen⟩ => Bool.eq_false_iff.mp hopen (List.contains_iff_mem.mpr hdone)

section
variable (s : State) (e d slab : Nat)

/-- A slab's own fault leaves a cut that is FAULTED and replays. -/
theorem State.slabReplays_spec : let t := (s.slabAborted e).setStatus e 0
    t = { s with cuts := t.cuts, fabric := t.fabric } ∧ (t.cut e).flags = (s.cut e).flags ||| 0x4000#32 ∧
      (t.cut e).status = 0 ∧ (t.cut e).done = (s.cut e).done ∧ ∀ k, k ≠ e → t.cut k = s.cut k := by
  intro t
  have hsame : Same (partMask [.cuts, .fabric]) s t := State.setStatus_same ⟨by decide⟩ (s.slabAborted_same e) e 0
  have hframe := Same.eq_of_cutsFabricUnits (hsame.mono ⟨by decide⟩)
  have hunits : t.units = s.units := hsame.part .units (by decide)
  have hown : t.cut e = { s.cut e with flags := (s.cut e).flags ||| 0x4000#32, status := 0 } := by
    rw [State.cut_setStatus, if_pos rfl, State.cut_slabAborted, if_pos rfl]
  rw [hown]
  rw [hunits] at hframe
  refine ⟨hframe, rfl, rfl, rfl, fun k hk => ?_⟩
  rw [State.cut_setStatus, if_neg hk, State.cut_slabAborted, if_neg hk]

/-- A fault that does not retire its dresser leaves the dressers of the cut as they were. -/
theorem State.dressersOf_struck (a : UArea) : ((s.slabAborted e).unitStruck 5 d e).dressersOf a = s.dressersOf a := by
  have habort : ∀ n, (s.slabAborted e).unitHealthy 5 n = s.unitHealthy 5 n := fun n => by
    rw [State.unitHealthy, State.unit_slabAborted]
    rfl
  exact State.dressersOf_congr (fun n =>
    ((s.slabAborted e).unitHealthy_modUnit 5 d (f := fun u => u.struck e) (fun _ => rfl) 5 n).trans (habort n)) a

/-- The state in which a dresser's first fault in a cut has counted and dresser `x` has its slab. -/
def State.slabMoved (s : State) (e d slab x : Nat) : State :=
  (((s.slabAborted e).unitStruck 5 d e).modCut e (fun c => { c with moved := Tab.set c.moved slab x })).setStatus e 0

theorem State.slabPassedOn_next {c : CutDesc} {x : Nat} (hx : nextDresser (s.dressersOf c.uArea) d = some x) :
    ((s.slabAborted e).unitStruck 5 d e).slabPassedOn e d slab c = s.slabMoved e d slab x := by
  rw [State.slabPassedOn, State.dressersOf_struck, hx]
  rfl

theorem State.slabMoved_moved (x : Nat) : Tab.find ((s.slabMoved e d slab x).cut e).moved slab = some x := by
  rw [State.slabMoved, State.cut_setStatus, if_pos rfl, State.cut_modCut]
  exact Tab.find_set_same ..

theorem State.slabMoved_spec (x : Nat) : let t := s.slabMoved e d slab x
    t = { s with cuts := t.cuts, fabric := t.fabric, units := t.units } ∧
      (t.unit 5 d).faults = min ((s.unit 5 d).faults + 1) 255 ∧ (t.unit 5 d).retired = (s.unit 5 d).retired ∧
      Tab.find (t.cut e).moved slab = some x ∧ (t.cut e).status = 0 := by
  intro t
  have hmove : Same (partMask [.cuts, .fabric]) ((s.slabAborted e).unitStruck 5 d e) t :=
    State.setStatus_same ⟨by decide⟩ (State.modCut_same ⟨by decide⟩ (Same.refl _ _) e _) e 0
  have hsame : Same (partMask [.cuts, .fabric, .units]) s t :=
    (State.modUnit_same ⟨by decide⟩ ((s.slabAborted_same e).mono ⟨by decide⟩) 5 d _).trans (hmove.mono ⟨by decide⟩)
  have hunit : t.unit 5 d = (s.unit 5 d).struck e := by
    rw [State.unit_congr (hmove.part .units (by decide)), State.unitStruck, State.unit_modUnit,
      State.unit_slabAborted]
  rw [hunit]
  exact ⟨Same.eq_of_cutsFabricUnits hsame, rfl, rfl, s.slabMoved_moved e d slab x, State.setStatus_status _ e 0⟩

/-- A dresser's second fault in a cut retires it. -/
theorem State.slabRetires_spec (c : CutDesc) (h : (s.unit 5 d).retired = false) :
    let t := (((s.slabAborted e).unitStruck 5 d e).retireUnit 5 d (unitRow 5) 0).slabPassedOn e d slab c
    (t.unit 5 d).retired = true ∧ 80 + d ∈ t.spare.unitRet ∧ t.yard = s.yard ∧ t.tallies = s.tallies := by
  intro t
  have hpass := (((s.slabAborted e).unitStruck 5 d e).retireUnit 5 d (unitRow 5) 0).slabPassedOn_same e d slab c
  have hretire : Same (partMask [.cuts, .fabric, .units, .spare, .glb, .log]) s
      (((s.slabAborted e).unitStruck 5 d e).retireUnit 5 d (unitRow 5) 0) :=
    State.retireUnit_same ⟨by decide⟩
      (State.modUnit_same ⟨by decide⟩ ((s.slabAborted_same e).mono ⟨by decide⟩) 5 d _) 5 d _ _
  have hserves : (((s.slabAborted e).unitStruck 5 d e).unit 5 d).retired = false := by
    rw [State.unitStruck, State.unit_modUnit, State.unit_slabAborted]
    exact h
  obtain ⟨hret, hlist⟩ := State.retireUnit_retired hserves (unitRow 5) 0
  rw [State.unit_congr (hpass.part .units (by decide)), show t.spare = _ from hpass.part .spare (by decide)]
  exact ⟨hret, hlist, (hpass.part .yard (by decide)).trans (hretire.part .yard (by decide)),
    (hpass.part .tallies (by decide)).trans (hretire.part .tallies (by decide))⟩

end

/-! ### DRAIN_WAIT_END (R288, R297) -/

/-- Whether a held write is one of a slab. -/
def HeldWrite.isOf (e slab : Nat) (x : HeldWrite) : Bool := x.entry == e && x.slab == slab

/-- The one write that is a slab's names its cut and the slab. -/
theorem HeldWrite.names_slab {e slab : Nat} {x : HeldWrite} {xs : List HeldWrite}
    (hx : xs.filter (HeldWrite.isOf e slab) = [x]) : x.entry = e ∧ x.slab = slab := by
  have hof : x.isOf e slab = true := (List.mem_filter.mp (hx ▸ List.mem_singleton_self x)).2
  simpa [HeldWrite.isOf] using hof

/-- The state in which a slab's writes no longer wait. -/
def State.unheld (s : State) (e slab : Nat) : State :=
  { s with snap := { s.snap with waiting := s.snap.waiting.filter (fun x => !x.isOf e slab) } }

/-- The state in which held writes go out and the cut has counted their wait. -/
def State.heldIssued (s : State) (x : HeldWrite) : State :=
  (s.issue x.writes).modCut x.entry (fun c => { c with kd3 := satAdd 32 c.kd3 (s.nc - x.since) })

theorem State.issueHeld_ends {s : State} {x : HeldWrite} {d : Nat} (h4 : (s.cut x.entry).desc.kind = 4)
    (hd : s.slabDresser x.entry x.slab = some d) :
    s.issueHeld x = (s.heldIssued x).endSlab x.entry d x.slab := by
  unfold State.issueHeld
  simp only [if_pos h4, hd]
  rfl

/-- Where one slab's writes wait, they go out and the slab ends. -/
theorem State.drainWaitEnd_ends {s : State} {e d slab : Nat} {x : HeldWrite} (h4 : (s.cut e).desc.kind = 4)
    (hd : s.slabDresser e slab = some d) (hx : s.snap.waiting.filter (HeldWrite.isOf e slab) = [x]) :
    s.drainWaitEnd e slab = ((s.unheld e slab).heldIssued x).endSlab e d slab := by
  obtain ⟨rfl, rfl⟩ := HeldWrite.names_slab hx
  have hends := State.issueHeld_ends (s := s.unheld x.entry x.slab) h4 hd
  rw [← hends]
  exact congrArg (List.foldl State.issueHeld (s.unheld x.entry x.slab)) hx

/-- Where none of a slab's writes wait, nothing ends. -/
theorem State.drainWaitEnd_none {s : State} {e slab : Nat} (h : ∀ x ∈ s.snap.waiting, x.entry ≠ e ∨ x.slab ≠ slab) :
    s.drainWaitEnd e slab = s := by
  have hnot : ∀ x ∈ s.snap.waiting, x.isOf e slab = false := fun x hx => by
    simpa only [HeldWrite.isOf, Bool.and_eq_false_iff, beq_eq_false_iff_ne] using h x hx
  have hnone : s.snap.waiting.filter (HeldWrite.isOf e slab) = [] :=
    List.filter_eq_nil_iff.mpr fun x hx => Bool.eq_false_iff.mp (hnot x hx)
  have hall : s.unheld e slab = s := by
    rw [State.unheld, List.filter_eq_self.mpr fun x hx => by rw [hnot x hx]; rfl]
  exact (congrArg (List.foldl State.issueHeld (s.unheld e slab)) hnone).trans hall

theorem State.drainWaitEnd_spec (s : State) (e d slab : Nat) {x : HeldWrite} (he : x.entry = e) :
    let t := ((s.unheld e slab).heldIssued x).endSlab e d slab
    t.snap = { s.snap with waiting := s.snap.waiting.filter (fun y => !y.isOf e slab) } ∧ slab ∈ (t.cut e).done ∧
      (t.unit 5 d).busy = none ∧ (t.cut e).kd3 = min ((s.cut e).kd3 + (s.nc - x.since)) (2 ^ 32 - 1) ∧
      t.yard = s.yard := by
  intro t
  subst he
  have hissue := State.issue_same (Sub.refl _) (Same.refl _ (s.unheld x.entry slab)) x.writes
  have hsame : Same (partMask [.glb, .log, .tallies, .cuts, .hoists, .units]) (s.unheld x.entry slab) t :=
    State.endSlab_same ⟨by decide⟩ (State.modCut_same ⟨by decide⟩ (hissue.mono ⟨by decide⟩) x.entry _) x.entry d slab
  have hbusy : (t.unit 5 d).busy = none := by rw [State.unit_endSlab]
  obtain ⟨ds, p, hmem, hcut⟩ := State.cut_endSlab ((s.unheld x.entry slab).heldIssued x) x.entry d slab
  have hown : t.cut x.entry = { s.cut x.entry with
      kd3 := satAdd 32 (s.cut x.entry).kd3 (s.nc - x.since), done := ds, published := p } := by
    rw [hcut, if_pos rfl, State.heldIssued, State.cut_modCut, State.cut_congr (hissue.part .cuts (by decide))]
    rfl
  rw [hown]
  exact ⟨hsame.part .snap (by decide), hmem, hbusy, rfl, hsame.part .yard (by decide)⟩

/-! ### O42: dresser slabs, faults and drain waits -/

/-- Settles O42: a slab counts before its writes go out or wait, and an issue and a drain's end complete it in one way;
a fault of a dresser passes its slab on in the state that the strike has left. -/
theorem dressers : Obligations.Dressers := by
  unfold Obligations.Dressers
  intro s e d slab hs h4 hr hd c
  refine ⟨fun elems hslab hnew hrun hfree hnext hlen => ⟨fun hbuf => ?ends, fun hbuf => ?waits⟩,
    fun elems h => ?notDone, fun hnew => ?replays, fun x hnew hfirst hx => ?moves, fun hnew hsecond hserves => ?retires,
    fun hdone => ⟨?faultLate, ?dresserLate⟩, fun x hx hnew => ?drained, fun h => ?undrained⟩
  case ends =>
    obtain ⟨fl, guarded, frozen, ws, hstep⟩ := State.slabDone_counts h4 hr hd hslab hnew hrun hfree hnext hlen
    rw [if_neg (Bool.eq_false_iff.mp hbuf)] at hstep
    exact Leads.effect hs (exec_slabDone ..) hstep (s.slabEnds_spec ..)
  case waits =>
    obtain ⟨fl, guarded, frozen, ws, hstep⟩ := State.slabDone_counts h4 hr hd hslab hnew hrun hfree hnext hlen
    rw [if_pos hbuf] at hstep
    obtain ⟨hsnap, hrest⟩ := s.slabWaits_spec e.val d.val slab fl guarded frozen ws c.desc.working
    exact Leads.effect hs (exec_slabDone ..) hstep ⟨⟨_, hsnap, rfl, rfl, rfl⟩, hrest⟩
  case notDone => exact Ignored.effect hs (exec_slabDone ..) (State.slabDone_none elems h)
  case replays =>
    exact Leads.effect hs (exec_slabFault ..) (State.slabFault_slab h4 hr hd hnew) (s.slabReplays_spec e.val)
  case moves =>
    have hcount : ((s.slabAborted e.val).unit 5 d.val).cutFaults ≠ e.val + 1 := by
      rwa [State.unit_slabAborted]
    have hstep := State.slabFault_dresser h4 hr hd hnew
    rw [State.unitStrike_first hcount, State.slabPassedOn_next s e.val d.val slab hx] at hstep
    exact Leads.effect hs (exec_slabFault ..) hstep (s.slabMoved_spec e.val d.val slab x)
  case retires =>
    have hcount : ((s.slabAborted e.val).unit 5 d.val).cutFaults = e.val + 1 := by
      rwa [State.unit_slabAborted]
    have hstep := State.slabFault_dresser h4 hr hd hnew
    rw [State.unitStrike_second hcount] at hstep
    exact Leads.effect hs (exec_slabFault ..) hstep (s.slabRetires_spec e.val d.val slab c.desc hserves)
  case faultLate => exact Ignored.effect hs (exec_slabFault ..) (State.slabFault_none hdone d.val false)
  case dresserLate => exact Ignored.effect hs (exec_slabFault ..) (State.slabFault_none hdone d.val true)
  case drained =>
    obtain ⟨he, -⟩ := HeldWrite.names_slab hx
    exact Leads.effect hs (exec_drainWaitEnd ..) (State.drainWaitEnd_ends h4 hd hx)
      (s.drainWaitEnd_spec e.val d.val slab he)
  case undrained => exact Ignored.effect hs (exec_drainWaitEnd ..) (State.drainWaitEnd_none h)

end Sys2Proof.Machine
end
